-- ==== Sys2Proof/Word.lean ====
section
/-! DEFINITION. Bytes, words, the sparse table every repeated unit and memory of the model is held in, and the
plain arithmetic of the spec's notation (00: floor division, round half up R5, symmetric saturation R6). -/

namespace Sys2Proof

abbrev Byte := BitVec 8
abbrev Word := BitVec 32

/-- A sparse table: keys strictly rising, no entry equal to the default of its key. -/
abbrev Tab (α : Type) := List (Nat × α)

/-- The value at a key: the listed one, else the key's default. -/
def Tab.get {α : Type} (d : Nat → α) : Tab α → Nat → α
  | [], k => d k
  | (j, v) :: t, k => if j = k then v else Tab.get d t k

/-- The table without a key. -/
def Tab.erase {α : Type} : Tab α → Nat → Tab α
  | [], _ => []
  | (j, v) :: t, k => if j = k then Tab.erase t k else (j, v) :: Tab.erase t k

/-- Insert an entry before the first larger key. -/
def Tab.insert {α : Type} (k : Nat) (v : α) : Tab α → Tab α
  | [] => [(k, v)]
  | (j, w) :: t => if k < j then (k, v) :: (j, w) :: t else (j, w) :: Tab.insert k v t

/-- Write a key: an entry equal to the default is not listed. -/
def Tab.set {α : Type} [DecidableEq α] (d : Nat → α) (t : Tab α) (k : Nat) (v : α) : Tab α :=
  if v = d k then t.erase k else Tab.insert k v (t.erase k)

/-- The table without the key that lies n before key k, if one does. -/
def Tab.forget {α : Type} (n k : Nat) (t : Tab α) : Tab α := if n ≤ k then t.erase (k - n) else t

/-- The canonical form. -/
def Tab.wf {α : Type} [DecidableEq α] (d : Nat → α) : Tab α → Bool
  | [] => true
  | [(j, v)] => decide (v ≠ d j)
  | (j, v) :: (j', v') :: t => decide (j < j') && decide (v ≠ d j) && Tab.wf d ((j', v') :: t)

/-- The listed value of a key, if it is listed. -/
def Tab.find? {α : Type} : Tab α → Nat → Option α
  | [], _ => none
  | (j, v) :: t, k => if j = k then some v else Tab.find? t k

/-- Round half up (00 R5) of n / m, for m > 0. -/
def rhu (n : Int) (m : Int) : Int := (2 * n + m) / (2 * m)

/-- Symmetric saturation (00 R6). -/
def satSym (l : Int) (x : Int) : Int := if x > l then l else if x < -l then -l else x

/-- A saturating counter of w bits plus n (03 R74, 04 R115, 12 R366). -/
def satAdd (w n x : Nat) : Nat := min (x + n) (2 ^ w - 1)

/-- The value rounded up to a multiple of f. -/
def roundUp (x f : Nat) : Nat := (x + (f - 1)) / f * f

/-- a - b of natural numbers (0 where b is larger), by integers. -/
def natSub (a b : Nat) : Nat := ((a : Int) - (b : Int)).toNat

/-- Ceiling division. -/
def cdiv (a b : Nat) : Nat := (a + (b - 1)) / b

/-- An n-bit field read as two's complement. -/
def signed (w : Nat) (x : Nat) : Int := if x % 2 ^ w < 2 ^ (w - 1) then (x % 2 ^ w : Nat) else (x % 2 ^ w : Nat) - (2 ^ w : Nat)

/-- A signed value as an n-bit code. -/
def unsigned (w : Nat) (x : Int) : Nat := (x % (2 ^ w : Nat)).toNat

/-- Bits [hi:lo] of a number. -/
def bits (hi lo x : Nat) : Nat := x / 2 ^ lo % 2 ^ (hi + 1 - lo)

/-- Bit n of a number. -/
def bit (n x : Nat) : Bool := x / 2 ^ n % 2 == 1

/-- 1 for true. -/
def b2n (b : Bool) : Nat := if b then 1 else 0

/-- The n low bytes of a number, byte 0 first (00: little-endian). -/
def toBytes : Nat → Nat → List Byte
  | 0, _ => []
  | n + 1, x => BitVec.ofNat 8 x :: toBytes n (x / 256)

/-- The number that little-endian bytes spell. -/
def ofBytes : List Byte → Nat
  | [] => 0
  | b :: r => b.toNat + 256 * ofBytes r

end Sys2Proof
end

