-- ==== Sys2Proof/Syntax.lean ====
section
/-! DEFINITION. The commands of the UZ8100: one constructor of Instr per row of spec/opcode_table.json, with the
operands that the row's rule names (an address, a record, a received frame, a reading), and the operand records. -/

namespace Sys2Proof

/-! ### Operand records -/

/-- What an error-checking code reports for the words a command reads (03 R61 to 16 R465: SECDED everywhere). -/
inductive Ecc where
  | ok | corrected | uncorrectable
  deriving DecidableEq, Repr

/-- A write to bank_load_rom (05 R136) with the report of the enclave's store for a certified profile (17 R499). -/
structure RomLoad where
  word : BitVec 16
  ecc : Ecc
  deriving DecidableEq, Repr

/-- The fields of lane_command beside OP (03 Table 03.8). -/
structure LaneArgs where
  arg : BitVec 8
  side : Bool
  coded : Bool
  n : BitVec 16
  deriving DecidableEq, Repr

/-- A Sample link frame as the receiver took it (03 R83, R84): the counts of erroneous symbols, the framing the
receiver saw, and the fields. -/
structure LinkFrame where
  invalid : Nat
  disparity : Nat
  abort : Bool
  earlyStart : Bool
  endOk : Bool
  linkId : Byte
  seq : Byte
  fmt : Byte
  stamp : BitVec 64
  info : BitVec 32
  payload : List Byte
  crc : BitVec 32
  deriving DecidableEq, Repr

/-- A received Relay parcel (06 R162, R163): erroneous symbols, then the fields. -/
structure Parcel where
  invalid : Nat
  disparity : Nat
  abort : Bool
  type : Nat
  hop : Nat
  flags : Nat
  stamp : Nat
  src : Nat
  dst : Nat
  pseq : Nat
  inFirst : Nat
  inCount : Nat
  chFirst : Nat
  chCount : Nat
  payload : List Byte
  crc : BitVec 32
  deriving DecidableEq, Repr

/-- A received control packet (06 R174). -/
structure Ctl where
  ctype : BitVec 8
  cseq : BitVec 8
  origin : BitVec 8
  arg0 : BitVec 64
  arg1 : BitVec 32
  crc : BitVec 32
  deriving DecidableEq, Repr

/-- The name of a scheduled parcel (06 R163, R167): frame, source and destination rank, index, hop. -/
structure SlotName where
  x : Nat
  src : Nat
  dst : Nat
  pseq : Nat
  hop : Nat
  deriving DecidableEq, Repr

/-- A RUN command of a core: its ADDR (12 Table 12.13). -/
structure RunAt where
  core : Fin 4
  addr : BitVec 16
  deriving DecidableEq, Repr

/-- A decoded Tally instruction (12 Table 12.9). -/
inductive TOp where
  | nop
  | alu (fn : Fin 17) (gd gs gt : Fin 16)
  | immOp (op : Fin 4) (gd gs : Fin 16) (imm : BitVec 18)
  | shi (op : Fin 3) (gd gs : Fin 16) (n : Fin 32)
  | lui (gd : Fin 16) (imm : BitVec 18)
  | cmpi (gs : Fin 16) (imm : BitVec 18)
  | load (op : Fin 5) (gd gs : Fin 16) (post : Bool) (off : BitVec 17)
  | store (op : Fin 3) (gd gs : Fin 16) (post : Bool) (off : BitVec 17)
  | mac (a : Fin 4) (sub clr : Bool) (gs gt : Fin 16) (hs ht : Bool)
  | macDual (a : Fin 4) (sub clr : Bool) (gs gt : Fin 16) (cross : Bool)
  | macw (a : Fin 4) (sub clr : Bool) (gs gt : Fin 16) (ht : Bool)
  | macwDual (a : Fin 4) (sub clr : Bool) (gs gt : Fin 16)
  | ext (g : Fin 16) (a : Fin 4) (sh : Fin 32) (half : Bool)
  | mfa (g : Fin 16) (a : Fin 4) (part : Bool)
  | mta (g : Fin 16) (a : Fin 4) (part : Bool)
  | branch (cond : Fin 13) (off : BitVec 22)
  | bal (off : BitVec 22)
  | jr (gs : Fin 16)
  | jalr (gd gs : Fin 16)
  | reti
  | rpt (gs : Fin 16) (n : BitVec 12)
  | mfc (gd : Fin 16) (n : Fin 14)
  | mtc (n : Fin 14) (gs : Fin 16)
  | wait
  | fence
  | post (gd gs : Fin 16)
  | halt
  deriving DecidableEq, Repr

/-! ### Bus, Courier, Tally and dictionary operands -/

/-- A master and the ID of its request (13 R373). -/
structure BusTag where
  m : Fin 11
  id : BitVec 4
  deriving DecidableEq, Repr

/-- A bus request as a master issues it (13 Table 13.3), which is what the comparator of the Steward pair compares: SIZE and BEATS as
encoded; strb are the byte strobes of a write, empty for all. -/
structure BusReq where
  id : BitVec 4
  addr : BitVec 40
  write : Bool
  size : BitVec 3
  beats : BitVec 4
  priv : Bool
  data : List Byte
  strb : List Bool
  deriving DecidableEq, Repr

/-- What REGISTER_WRITE writes: a bus write of a master (13 Table 13.2), or an object by the service itself. -/
inductive RegWrite where
  | bus (m : Fin 11) (q : BusReq)
  | object (idx : BitVec 16) (sub : BitVec 8) (data : List Byte)
  deriving DecidableEq, Repr

/-- What the comparator of the Steward pair meets (13 R382, R383): the requests of core A and core B, with the reports of the words
that they read by address in their memory; an uncorrectable error in core A (false) or B (true) with the request it held; or an error
corrected in place. -/
inductive StewReq where
  | both (a b : BusReq) (ecc : List (Nat × Ecc))
  | error (core : Bool) (held : Option BusReq)
  | corrected (core : Bool)
  deriving DecidableEq, Repr

/-- What a Tally core meets while an instruction executes: the report of the fetched word and of the data word it reads,
the stall cycles of Table 12.5, the cycles that passed since its last event, the reports of the payload words a POST reads, by
address in the data memory, and for a STEP the reports of the fetched word and the data word of each instruction after the first. -/
structure TEnv where
  fetch : Ecc
  data : Ecc
  stall : Nat
  idle : Nat
  more : List (Nat × Ecc)
  later : List (Ecc × Ecc)
  deriving DecidableEq, Repr

/-- A dictionary path (14 R403 to R407): the management port, the field network, the field bus, a Tally core's posts. -/
inductive Path where
  | mgmt | field | bus | tally
  deriving DecidableEq, Repr

/-- A dictionary request as received (14 Table 14.6): its path, source address and port (0 on the field bus), the address and port it is sent
to, odd that its IPv4 datagram has options or is a fragment (14 R405), and the
header fields that the command's row does not fix. len is the LEN field. -/
structure Req where
  path : Path
  ip : BitVec 32
  port : BitVec 16
  to_ : BitVec 32
  toPort : BitVec 16
  odd : Bool
  ver : Byte
  id : BitVec 16
  idx : BitVec 16
  sub : BitVec 8
  status : Byte
  element : BitVec 32
  offset : BitVec 32
  len : BitVec 16
  more : Bool
  payload : List Byte
  crc : BitVec 32
  deriving DecidableEq, Repr

/-- A received PTP message (15 R436): the version octet (versionPTP in bits 3 to 0, minorVersionPTP in bits 7 to 4), domain and the
sender's clockIdentity, then its own fields. Times are in ps; comma is the comma's bit offset in 0.8 ns steps (15 R442). rank is the
announced data set in comparison order, logInterval logMessageInterval. -/
inductive PtpMsg where
  | announce (ver dom : Nat) (src : BitVec 64) (rank : List Nat) (interval : Nat)
  | sync (ver dom : Nat) (src : BitVec 64) (seq : Nat) (twoStep : Bool) (t1 corr : Int) (comma : Nat)
  | followUp (ver dom : Nat) (src : BitVec 64) (seq : Nat) (t1 corr : Int)
  | delayResp (ver dom : Nat) (src : BitVec 64) (seq : Nat) (t4 corr logInterval : Int)
  | pdelayReq (ver dom : Nat) (src : BitVec 64) (seq : Nat) (comma : Nat)
  | pdelayResp (ver dom : Nat) (src : BitVec 64) (seq : Nat) (t2 corr logInterval : Int) (comma : Nat)
  | pdelayRespFollowUp (ver dom : Nat) (src : BitVec 64) (seq : Nat) (t3 corr : Int)
  deriving DecidableEq, Repr

/-- A PTP message as a port hands it to a time base: whether it came by the field network and by IEEE 802.3 (15 R436). -/
structure PtpIn where
  field : Bool
  layer2 : Bool
  msg : PtpMsg
  deriving DecidableEq, Repr

/-! ### The commands -/

/-- The commands of spec/opcode_table.json, in the table's order of families. -/
inductive Instr where
  /-- 02 R28: the first unit stamped at or after a committed Postmark reaches block src. -/
  | applyCommittedSet (src : BitVec 12) (stamp : BitVec 64)
  /-- 02 R45: a unit of a length in ticks arrives at block src. -/
  | unitArrival (src : BitVec 12) (stamp : BitVec 64) (len : Nat)
  | cdrLock (l : Fin 222)
  | cdrLockLoss (l : Fin 222)
  | laneAligned (l : Fin 222)
  | alignTimeout (l : Fin 222)
  | laneSyncLoss (l : Fin 222)
  | sleepWordsReceived (l : Fin 222)
  | slip (l : Fin 222) (a : LaneArgs)
  | txSleep (l : Fin 222) (a : LaneArgs)
  | txWake (l : Fin 222) (a : LaneArgs)
  | rxSleep (l : Fin 222) (a : LaneArgs)
  | rxWake (l : Fin 222) (a : LaneArgs)
  | testEnter (l : Fin 222) (a : LaneArgs)
  | testExit (l : Fin 222) (a : LaneArgs)
  | laneStart (l : Fin 222) (a : LaneArgs)
  | laneStop (l : Fin 222) (a : LaneArgs)
  | inject (l : Fin 222) (a : LaneArgs)
  | loopback (l : Fin 222) (a : LaneArgs)
  | laneClearCounters (l : Fin 222) (a : LaneArgs)
  | spareIn (l : Fin 222) (a : LaneArgs)
  | spareOut (l : Fin 222) (a : LaneArgs)
  /-- 03 R71: one word received from the line, bit 10s + j being bit j of symbol s (R60). -/
  | prbsCheckWord (l : Fin 222) (w : BitVec 40)
  | statusWordSend (l : Fin 100)
  | sampleLinkFrame (l : Fin 100) (f : LinkFrame)
  | laneFailTimeout (l : Fin 222)
  | spareTimeout (l : Fin 100)
  /-- 03 R60, R61: a received word outside any frame, with the running disparity that the words before it have left. -/
  | codeError (l : Fin 222) (rd : Bool) (w : BitVec 40)
  | engineSampleIn (i : Fin 384)
  | delayOutput (i : Fin 384) (u : BitVec 64) (e : Ecc)
  | delayFrameStart (i : Fin 384) (x : BitVec 64)
  | delayRecord (i : Fin 384) (r : BitVec 256)
  | conditioningClear (v : BitVec 16)
  | syncResetAt (at_ : BitVec 64)
  | syncResetApply (e : Fin 24)
  /-- 05 R142, R151: the coefficient memory's check of bank A and of bank B, and the word it names. -/
  | channeliserFrameStart (e : Fin 24) (x : BitVec 64) (eccA eccB : Ecc) (addr : Nat)
  | channelSampleOut (i : Fin 384) (n : Nat) (x : BitVec 64)
  /-- 05 R130: the header's EFF, FIRST, COUNT and SEQ and the gain words. -/
  | gainTable (i : Fin 384) (eff : BitVec 64) (first count seq : BitVec 16) (words : List (BitVec 32))
  | bankImage (e : Fin 24) (bank : Bool) (bytes : List Byte) (last : Bool)
  | bankLoadRom (e : Fin 24) (v : RomLoad)
  | bankLoadComplete (e : Fin 24) (bank : Bool)
  | bankReady (e : Fin 24) (bank : Bool)
  | swapRequest (r : BitVec 128)
  | swapCancel (r : BitVec 128)
  | coefRecoveryRestart (e : Fin 24)
  /-- 02 R44: the counter passes a time-block boundary, given by its stamp. -/
  | timeBlockBoundary (at_ : BitVec 64)
  | parcelSend (p : Fin 4) (n : SlotName)
  | parcelReceive (p : Fin 4) (l : Fin 24) (c : Parcel)
  | parcelDeadline (p : Fin 4) (n : SlotName)
  /-- 06 R173: the message of an origin with a number. -/
  | configMessageTimeout (src stamp : Nat)
  | serviceSlot (p : Fin 4)
  | creditWordSend (p : Fin 4) (l : Fin 24)
  | creditWord (p : Fin 4) (l : Fin 24) (cred : BitVec 16) (chk : BitVec 8)
  | creditStall (p : Fin 4) (l : Fin 24)
  | hello (p : Fin 4) (c : Ctl)
  | ping (p : Fin 4) (c : Ctl)
  | pong (p : Fin 4) (c : Ctl)
  | helloTimer (p : Fin 4)
  | relayPortUp (p : Fin 4)
  | portDownTimeout (p : Fin 4)
  | mapFloodRound
  | mapRestart
  | coord (p : Fin 4) (c : Ctl)
  | barrierUp (p : Fin 4) (c : Ctl)
  | barrierDown (p : Fin 4) (c : Ctl)
  | barrierTimeout
  | bcast (p : Fin 4) (c : Ctl)
  | globalSnapshot (r : BitVec 128)
  | globalSyncReset (r : BitVec 128)
  | globalCoefSwap (r : BitVec 128)
  | globalStart (r : BitVec 128)
  | laneMove (p : Fin 4) (c : Ctl)
  | laneMoveAck (p : Fin 4) (c : Ctl)
  | laneMoveRetry (p : Fin 4) (l : Fin 24)
  | laneMoveSwitch (p : Fin 4) (l : Fin 24)
  | commitVoteDeadline
  | fabricWindowStart (x0 : BitVec 64)
  /-- 07 R206: position p of cluster k; what the check bits of staged words report: word number, sample index. Word g is that of
  octet group g in C4; words 2g and 2g + 1 are its two in C8 (R225). -/
  | segmentEnd (k : Fin 96) (p : Fin 16) (ecc : List (Nat × Nat × Ecc))
  /-- 07 R209: local channel, block's first stamp, strip; reports of DRAM words: stack, offset, word number as in
  SEGMENT_END, sample index. -/
  | stagingLoadDone (c : Nat) (x0 : BitVec 64) (strip : Nat) (ecc : List (Nat × Nat × Nat × Nat × Ecc))
  | fabricWindowEnd
  | beamBatchStart (x : BitVec 64)
  /-- 07 R215, R225: reports of sample words (channel index, word number within the set, frame), of weight words (cluster, channel
  group, beam octet) and of weight reads from the DRAM (stack, offset). -/
  | beamBatchDone (smp wgt : List (Nat × Nat × Nat × Ecc)) (dram : List (Nat × Nat × Ecc))
  /-- 07 R214: the batch's stamp and the positions that have not finished: cluster, position, units of their run done (R213). -/
  | beamDeadline (x : BitVec 64) (late : List (Nat × Nat × Nat))
  | weightBufferWrite (a : BitVec 40) (bytes : List Byte)
  | weightSwap (eff : BitVec 64) (seq : BitVec 16)
  | weightSwapCancel
  | weightPrep
  /-- 08 R240: the engine of a stack; reports of its words: accumulators 0 to 63, bookkeeping 64 and 129, bias entries 65 to 128. -/
  | fold (st : Fin 4) (ecc : List (Nat × Ecc))
  | withdrawnNotice
  | dumpSlotFreed (c : Nat)
  | dramTrainStart (st : Fin 4)
  | dramTrainDone (st : Fin 4) (pass : Bool)
  | dramTrainTimeout (st : Fin 4)
  /-- 09 R268: pseudo-channel and bank; issue false: a refresh falls due, true: one is issued ahead of its time to an idle bank. -/
  | refresh (st : Fin 4) (pc : Fin 32) (bank : Fin 48) (issue : Bool)
  /-- 09 R268: the temperature reported, in °C. -/
  | dramTempRise (st : Fin 4) (temp : Int)
  | dramTempFall (st : Fin 4) (temp : Int)
  /-- 09 R269: a request at a port: stack offset and bytes; wr holds the data of a write. q: the master behind the control or
  Courier port and its ID; late: a fault kept it past L_i; reports of the words read. -/
  | dramRequestIssue (st : Fin 4) (port : Fin 7) (q : BusTag) (x : Fin 51539607552) (len : Nat)
      (wr : Option (List Byte)) (late : Bool) (ecc : List (Nat × Ecc))
  /-- 09 R275: the report of the word. -/
  | scrubStep (st : Fin 4) (e : Ecc)
  /-- 10 R292, R294, R298: what the history's check bits report, a failed self-verification, reports of dump reads (stack,
  offset). -/
  | compressEnvelope (k : Fin 8) (hist : Ecc) (mismatch : Bool) (reads : List (Nat × Nat × Ecc))
  | segmentAvailable
  /-- 10 R297: compressor 0 to 7, or 8 the assembler. -/
  | segmentStallTimeout (u : Fin 9)
  /-- 10 R298: reports of the Envelope's 8-byte segment words. -/
  | envelopeAssign (ecc : List (Nat × Ecc))
  | backchannelWord (p : Fin 18) (ack status chk : Byte)
  /-- 10 R302: reports of segment words by ESEQ and word. -/
  | retryTimeout (l : Fin 16) (ecc : List (Nat × Nat × Ecc))
  | backchannelTimeout (l : Fin 16)
  | outputSpareTimeout (l : Fin 16)
  | decodeRequest (r : BitVec 128)
  | decodeDone
  /-- 11 Table 11.2: a ring_command record; fw that the firmware wrote it. -/
  | ringStart (r : Fin 262144) (prio : Fin 4) (addr : BitVec 40) (fw : Bool)
  | ringStop (r : Fin 262144) (fw : Bool)
  | ringDisable (r : Fin 262144) (fw : Bool)
  | setPrio (r : Fin 262144) (prio : Fin 4) (fw : Bool)
  | letterbox (r : Fin 262144) (fw : Bool)
  | slotGrant
  /-- 11 R319: reports of the words read, by bus address. -/
  | descriptorFetched (r : Fin 262144) (ecc : List (Nat × Ecc))
  | linkReadDone (r : Fin 262144) (ecc : List (Nat × Ecc))
  | descriptorComplete (r : Fin 262144) (ecc : List (Nat × Ecc))
  /-- 11 R331, R332: the report of the ring's context, and of the words its transfer reads. -/
  | ringError (r : Fin 262144) (ctx : Ecc) (ecc : List (Nat × Ecc))
  /-- 12 R359: one instruction executed by Tally core c, in the conditions v. -/
  | tIll (c : Fin 4) (v : TEnv)
  | tNop (c : Fin 4) (v : TEnv)
  | tAdd (c : Fin 4) (v : TEnv) (gd gs gt : Fin 16)
  | tAddc (c : Fin 4) (v : TEnv) (gd gs gt : Fin 16)
  | tSub (c : Fin 4) (v : TEnv) (gd gs gt : Fin 16)
  | tSubb (c : Fin 4) (v : TEnv) (gd gs gt : Fin 16)
  | tAnd (c : Fin 4) (v : TEnv) (gd gs gt : Fin 16)
  | tOr (c : Fin 4) (v : TEnv) (gd gs gt : Fin 16)
  | tXor (c : Fin 4) (v : TEnv) (gd gs gt : Fin 16)
  | tShl (c : Fin 4) (v : TEnv) (gd gs gt : Fin 16)
  | tShr (c : Fin 4) (v : TEnv) (gd gs gt : Fin 16)
  | tSar (c : Fin 4) (v : TEnv) (gd gs gt : Fin 16)
  | tMin (c : Fin 4) (v : TEnv) (gd gs gt : Fin 16)
  | tMax (c : Fin 4) (v : TEnv) (gd gs gt : Fin 16)
  | tAbs (c : Fin 4) (v : TEnv) (gd gs : Fin 16)
  | tClz (c : Fin 4) (v : TEnv) (gd gs : Fin 16)
  | tMul (c : Fin 4) (v : TEnv) (gd gs gt : Fin 16)
  | tMulh (c : Fin 4) (v : TEnv) (gd gs gt : Fin 16)
  | tMulhu (c : Fin 4) (v : TEnv) (gd gs gt : Fin 16)
  | tAddi (c : Fin 4) (v : TEnv) (gd gs : Fin 16) (imm : BitVec 18)
  | tAndi (c : Fin 4) (v : TEnv) (gd gs : Fin 16) (imm : BitVec 18)
  | tOri (c : Fin 4) (v : TEnv) (gd gs : Fin 16) (imm : BitVec 18)
  | tXori (c : Fin 4) (v : TEnv) (gd gs : Fin 16) (imm : BitVec 18)
  | tShiShl (c : Fin 4) (v : TEnv) (gd gs : Fin 16) (n : Fin 32)
  | tShiShr (c : Fin 4) (v : TEnv) (gd gs : Fin 16) (n : Fin 32)
  | tShiSar (c : Fin 4) (v : TEnv) (gd gs : Fin 16) (n : Fin 32)
  | tLui (c : Fin 4) (v : TEnv) (gd : Fin 16) (imm : BitVec 18)
  | tCmpi (c : Fin 4) (v : TEnv) (gs : Fin 16) (imm : BitVec 18)
  | tLdw (c : Fin 4) (v : TEnv) (gd gs : Fin 16) (post : Bool) (off : BitVec 17)
  | tLdh (c : Fin 4) (v : TEnv) (gd gs : Fin 16) (post : Bool) (off : BitVec 17)
  | tLdhu (c : Fin 4) (v : TEnv) (gd gs : Fin 16) (post : Bool) (off : BitVec 17)
  | tLdb (c : Fin 4) (v : TEnv) (gd gs : Fin 16) (post : Bool) (off : BitVec 17)
  | tLdbu (c : Fin 4) (v : TEnv) (gd gs : Fin 16) (post : Bool) (off : BitVec 17)
  | tStw (c : Fin 4) (v : TEnv) (gd gs : Fin 16) (post : Bool) (off : BitVec 17)
  | tSth (c : Fin 4) (v : TEnv) (gd gs : Fin 16) (post : Bool) (off : BitVec 17)
  | tStb (c : Fin 4) (v : TEnv) (gd gs : Fin 16) (post : Bool) (off : BitVec 17)
  | tMac (c : Fin 4) (v : TEnv) (a : Fin 4) (sub clr : Bool) (gs gt : Fin 16) (hs ht : Bool)
  | tMacDual (c : Fin 4) (v : TEnv) (a : Fin 4) (sub clr : Bool) (gs gt : Fin 16) (cross : Bool)
  | tMacw (c : Fin 4) (v : TEnv) (a : Fin 4) (sub clr : Bool) (gs gt : Fin 16) (ht : Bool)
  | tMacwDual (c : Fin 4) (v : TEnv) (a : Fin 4) (sub clr : Bool) (gs gt : Fin 16)
  | tExt (c : Fin 4) (v : TEnv) (g : Fin 16) (a : Fin 4) (sh : Fin 32) (half : Bool)
  | tMfa (c : Fin 4) (v : TEnv) (g : Fin 16) (a : Fin 4) (part : Bool)
  | tMta (c : Fin 4) (v : TEnv) (g : Fin 16) (a : Fin 4) (part : Bool)
  | tB (c : Fin 4) (v : TEnv) (cond : Fin 13) (off : BitVec 22)
  | tBal (c : Fin 4) (v : TEnv) (off : BitVec 22)
  | tJr (c : Fin 4) (v : TEnv) (gs : Fin 16)
  | tJalr (c : Fin 4) (v : TEnv) (gd gs : Fin 16)
  | tReti (c : Fin 4) (v : TEnv)
  | tRpt (c : Fin 4) (v : TEnv) (gs : Fin 16) (n : BitVec 12)
  | tMfc (c : Fin 4) (v : TEnv) (gd : Fin 16) (n : Fin 14)
  | tMtc (c : Fin 4) (v : TEnv) (n : Fin 14) (gs : Fin 16)
  | tWait (c : Fin 4) (v : TEnv)
  | tFence (c : Fin 4) (v : TEnv)
  | tPost (c : Fin 4) (v : TEnv) (gd gs : Fin 16)
  | tHalt (c : Fin 4) (v : TEnv)
  /-- 12 R353: the latency that the core measured, in cycles. -/
  | interruptEntry (c : Fin 4) (latency : Nat)
  /-- 12 R356: the cycles spent in WAIT. -/
  | waitWake (c : Fin 4) (cycles : Nat)
  | pmCompare (c : Fin 4)
  | msTick
  | tallyDoorbell (c : Fin 4)
  | postTaken (c : Fin 4)
  | tallyRun (c : Fin 4) (addr : BitVec 16)
  | tallyResume (r : RunAt)
  | tallyHalt (c : Fin 4)
  | tallyStep (c : Fin 4) (v : TEnv)
  | tallyReset (c : Fin 4)
  | tallyClearCounters (c : Fin 4)
  | pmCrcDone (c : Fin 4)
  /-- 12 R363: a segment of the program BLOB. -/
  | tallyProgram (c : Fin 4) (bytes : List Byte) (last : Bool)
  | tallyClearDone (c : Fin 4)
  /-- 02 R24: a write to a register or object with no row of its own. -/
  | registerWrite (w : RegWrite)
  /-- 13 R379: a master's request that no target takes: its ID, its write flag and the bytes of a read. -/
  | deadLetterAccess (q : BusTag) (a : BitVec 40) (write : Bool) (n : Nat)
  /-- 13 R380: accepted are the IDs of the master's writes whose last beat has entered the matrix. -/
  | masterReset (m : Fin 11) (accepted : List (BitVec 4))
  | remapSet
  /-- 13 R382, R383: what the comparator meets. -/
  | stewardMismatch (r : StewReq)
  /-- 13 R384: whether core A and core B pass. -/
  | diagDone (a b : Bool)
  | restartDone
  /-- 13 R383: core A (false) or B (true). -/
  | stewardQuietEnd (core : Bool)
  | stewardTestDone (core pass : Bool)
  | stewardSyncPoint
  | resyncDone
  | survivorFault
  /-- 13 R386: the word's bus address and the reports of the two copies. -/
  | mirrorRead (a : BitVec 40) (one two : Ecc)
  /-- 14 R400: a READ message; e is what the store's check bits report, or the enclave's store for a cs object. -/
  | read (r : Req) (e : Ecc)
  | readSnap (r : Req) (e : Ecc)
  | readActive (r : Req) (e : Ecc)
  | write (r : Req)
  | fanoutWrite (r : Req)
  | list (r : Req)
  | segmentTimeout (idx : BitVec 16) (sub : BitVec 8)
  /-- 14 R405: the path, the address asked for, and the asking station's MAC and IP address. -/
  | arpRequest (p : Path) (ip : BitVec 32) (mac : BitVec 48) (from_ : BitVec 32)
  /-- 14 R405: the path, source and destination address, data. -/
  | icmpEcho (p : Path) (src dst : BitVec 32) (data : List Byte)
  /-- 14 R407: the characters of a frame between its flags. -/
  | fieldBusFrame (bytes : List Byte)
  | commitRequest (at_ : BitVec 64)
  | dryRun (at_ : BitVec 64) (system : Bool)
  | systemCommit (at_ : BitVec 64) (dry : Bool)
  /-- 14 Table 14.12: the coordinator's P, barrier number, DRY and CRC. -/
  | commitProposal (p : BitVec 64) (barrier : BitVec 16) (dry : Bool) (crc : BitVec 32)
  /-- 14 R411, R420: reports of the candidate's objects, by object key. -/
  | commitChecksDone (ecc : List (Nat × Ecc))
  | commitLoaded
  | commitLatch
  | snapshotAt (at_ : BitVec 64)
  | snapshotCapture (src : BitVec 12)
  | snapshotComplete
  | softReset (v : BitVec 32)
  | blockReset (n : BitVec 16)
  /-- 15 Table 15.2. -/
  | pmAlign (seconds epoch : BitVec 64) (force : Bool)
  | pmAlignTimeout
  | ppsEdge
  | ppsTimeout
  | ref10mWindow (count : Nat)
  | ref10mAbsent
  | smprefCheck (count : Nat)
  | samplePllLock
  /-- 15 R436: a message for the clock of time base n. -/
  | ptpMessage (n : Fin 3) (m : PtpIn)
  | announceTimeout (n : Fin 3)
  /-- 15 R436: tx are the nanoseconds that the port holds the message before it leaves. -/
  | delayReqSend (n : Fin 3) (tx : Nat)
  | tbkTick
  /-- 15 R444: the measured error in 0.01 ppm. -/
  | tbkOscMeasure (err : Int)
  | postcardAccept
  | quietPeriodEnd (src : BitVec 12)
  | recoveryWindowExpiry (src : BitVec 12)
  | faultRelease (v : BitVec 16)
  | pcAck (a : BitVec 64)
  | injectRequest (r : BitVec 128)
  | ramblerCompare (k : Fin 96) (mismatch : Bool)
  | standbyPowerGood (k : Fin 96)
  | standbyConfigured (k : Fin 96)
  | promotionTakeover (k : Fin 96)
  | cellSelftestDone (k : Fin 96) (slot : Fin 18) (pass : Bool)
  | cellRejoin (k : Fin 96)
  | rotationTimer
  | fallbackRespread (k : Fin 96)
  | fallbackRecheck
  | fallbackSchedule
  | sealNAsserted
  | sealNDeasserted
  | fuseVerify (ok : Bool)
  | copyC1Done
  | copyC2Done
  /-- 17 R488: a segment of a cs write: object, OFFSET, bytes, MORE. -/
  | csWrite (idx : BitVec 16) (sub : BitVec 8) (off : BitVec 32) (bytes : List Byte) (more : Bool)
  /-- 17 R494, 18 R504: VKA enters its range; the debounced level of SEAL_N, asserted for true. -/
  | vkaRise (closed : Bool)
  | vkaLoss
  /-- 18 R506: group 1 to 3. -/
  | railGroupGood (g : Fin 4)
  | bootComplete
  /-- 18 R507: the readings of rails 0 to 8 in mV. -/
  | railSample (mv : List Nat)
  /-- 18 R513: the eight sensors in °C. -/
  | tjSample (t : List Int)
  | rstNAssert
  | rstNRelease
  | rampDownDone
  | startAt (at_ : BitVec 64)
  | startRamp
  | startEffect
  | extest
  | extestPulse
  | extestTrain
  | clamp
  | bypass
  | idcode
  deriving DecidableEq, Repr

end Sys2Proof
end

