-- ==== Sys2Proof/Decode.lean ====
section
/-! DEFINITION. The command a word spells by the opcode table's bits. No row of spec/opcode_table.json gives bits
(98_reader.md: the commands reach the part as registers, objects, messages, symbols and pins), so no word spells one. -/

namespace Sys2Proof

/-- The command that a word of nbits bits spells: none, since no row has bits. -/
def decodeTableWord (_nbits _w : Nat) : Option Instr := none

end Sys2Proof
end

