-- ==== Sys2Proof/Machine/F32.lean ====
section
/-! DEFINITION. IEEE 754 binary32 as the spec uses it: exact values in units of 2^-149 (08 R234), stochastic rounding,
rounding to nearest with ties away from zero (07 R215, 08 R253), and scaling by a power of two (08 R245). -/

namespace Sys2Proof.Machine

open Sys2Proof

/-- The damaged marker (09 Table 09.6). -/
def damagedMarker : Nat := 0x7FC00BAD
/-- The biased exponent of a pattern. -/
def f32Exp (b : Nat) : Nat := b / 2 ^ 23 % 256
/-- A pattern is finite. -/
def f32Finite (b : Nat) : Bool := f32Exp b != 255
/-- The value of a finite pattern in units of 2^-149. -/
def f32Units (b : Nat) : Int :=
  let e := f32Exp b
  let m := b % 2 ^ 23
  let v : Nat := if e = 0 then m else (2 ^ 23 + m) * 2 ^ (e - 1)
  if b / 2 ^ 31 % 2 = 1 then -(v : Int) else v
/-- The pattern of a value that is a binary32 number; 0 is +0.0. -/
def f32Of (x : Int) : Nat :=
  let v := x.natAbs
  let sgn := if x < 0 then 2 ^ 31 else 0
  let l := if v = 0 then 0 else v.log2 + 1
  if l ≤ 23 then sgn + v else sgn + (l - 23) * 2 ^ 23 + natSub (v / 2 ^ (l - 24)) (2 ^ 23)
/-- The spacing of binary32 values next to a value, in units. -/
def f32Ulp (x : Int) : Nat := if x = 0 then 1 else 2 ^ (x.natAbs.log2 + 1 - 24)
/-- 08 R234: add a tile-sum component, choosing a neighbour by the random value r. -/
def f32Add (acc : Nat) (part : Int) (r : Nat) : Nat :=
  let s := f32Units acc + part * 2 ^ 149
  let u : Int := f32Ulp s
  if s % u = 0 then f32Of s
  else
    let lo := s / u * u
    f32Of (if (r : Int) < rhu ((s - lo) * 65536) u then lo + u else lo)
/-- The nearest binary32 value of a / b, ties away from zero, for b > 0. -/
def f32Quot (a b : Nat) : Nat :=
  let x : Nat := a * 2 ^ 149 / b
  let u : Nat := f32Ulp (x : Int)
  f32Of (rhu ((a * 2 ^ 149 : Nat) : Int) ((b * u : Nat) : Int) * u)
/-- The nearest binary32 value of a·2^−k, ties away from zero. -/
def f32Scaled (a k : Nat) : Nat := f32Quot a (2 ^ k)
/-- 08 R245: a carried value scaled by 2^−k; below 2^−126 in magnitude it is 0. -/
def f32Carry (b k : Nat) : Nat :=
  if f32Finite b = false then 0
  else
    let u := f32Units b
    if u.natAbs < 2 ^ (23 + k) then 0 else f32Of (u / 2 ^ k)

end Sys2Proof.Machine
end

