-- ==== Sys2Proof/Config.lean ====
section
/-! DEFINITION. What the spec leaves to the part or leaves open, as constants without a value: nothing can evaluate them, so
a statement about them holds whatever they are. Each has its row in the assumption log. -/

namespace Sys2Proof

/-! ### Values of the part (assumption 20) -/

/-- The factory serial number (14 Table 14.5). -/
opaque Config.serialNumber : Nat
/-- The factory MAC addresses of the management port and the field network (14 Table 14.5). -/
opaque Config.macMgmt : Nat
opaque Config.macField : Nat
/-- The vendor's registered identity code (19 R538). -/
opaque Config.vendorId : Nat
/-- A byte of the enclave's store that no check bits correct (17 R499). -/
opaque Config.nvByte : Nat → BitVec 8
/-- EFF and SEQ of a cancelling weight swap record, which the command does not carry (07 Table 07.7). -/
opaque Config.cancelRecord : Nat → Nat
/-- What the boundary cells of the balls hold, which no command of the table loads (19 R538). -/
opaque Config.boundaryCells : Nat → Nat
/-- The version of the vendor firmware (13 Table 13.9). -/
opaque Config.firmwareVersion : Nat
/-- The bytes of the boot ROM (13 R368). -/
opaque Config.bootRom : Nat → Nat

/-! ### Lanes (assumption 171) -/

/-- The bits a pattern generator starts from (03 R70), by draw and place. -/
opaque Config.prbsSeed : Nat → Nat → Bool
/-- The running disparity that the idle and protocol words before a test have left (03 R60), at a draw. -/
opaque Config.runningDisparity : Nat → Bool

/-! ### Filter chain (assumption 21, 22) -/

/-- A FIR tap of a ROM profile (05 R150): Sharp or Plain, D, tap number in the first half. The values are not printed. -/
opaque Config.romTap : Bool → Nat → Nat → Int
/-- A window coefficient of a ROM profile: Sharp or Plain, N, coefficient number in the first half. -/
opaque Config.romWin : Bool → Nat → Nat → Int
/-- How far the gain stage's fixed arithmetic lies from the exact result (05 R126), as a function of the window's samples,
the settings and records, and the component; the model keeps it inside R126's bound. -/
opaque Config.gainError : List Int → List Int → Bool → Int

/-! ### Error-checking codes and kinds (assumption 23, 24) -/

/-- What SECDED reports for an injected mask of three or more bits (16 R465), at a draw. -/
opaque Config.secdedUncorrectable : Nat → Nat → Bool
/-- The bit that the code corrects for such a mask where it corrects one, modulo 72: 0 to 63 a data bit (16 R465). -/
opaque Config.secdedBit : Nat → Nat → Nat
/-- The kind of the Postcard that 02 R45 names for a block type whose kind table lists none. -/
opaque Config.stampGapKind : Nat → Nat

/-- The kind of the COMMAND_REFUSED that the bus matrix raises for a per-block reset (13 R388); its kind table lists none. -/
opaque Config.busRefusedKind : Nat

/-! ### Dictionary (assumption 35 to 37) -/

/-- A byte of an object that the store's check bits report as uncorrectable (14 R420), by its place, at a draw. -/
opaque Config.storeByte : Nat → Nat → BitVec 8
/-- SEQ in the answer to a refused write of a rw-s object or of commit_request (14 R400 states it for accepted ones), at a draw. -/
opaque Config.refusedSeq : Nat → BitVec 32

/-! ### Time bases (assumption 25, 26) -/

/-- Hamper oscillator cycles since TB-K last rose (15 Table 15.6), at a draw. -/
opaque Config.tbkSub : Nat → Nat
/-- The addend the PTP servo sets (15 R435), at a draw; the model keeps it within the limits of R435. -/
opaque Config.servoAddend : Nat → Int

/-! ### Beams (assumption 30) -/

/-- The frame count of a channel whose beams include different numbers of frames (07 R215), at a draw. -/
opaque Config.beamCount : Nat → BitVec 16

/-! ### Bus, Courier, Tally (assumption 31 to 34) -/

/-- A byte of register space whose layout the spec does not give (02 R24), by bus address, at a tick. -/
opaque Config.regByte : Nat → Nat → BitVec 8
/-- A byte of the enclave window whose layout the spec does not give (17 R498): its address in the window, PAGE, the certified and the
working copy of the cs objects. -/
opaque Config.enclByte : Nat → Nat → Tab (List (BitVec 8)) → Tab (List (BitVec 8)) → BitVec 8
/-- A byte of a block's active or shadow configuration set (02 R24), or of the dictionary store (14 R420), by bus address, for the set's
values. -/
opaque Config.setByte : Nat → Tab Nat → BitVec 8
/-- Where the firmware image lies in the boot ROM, and its length (13 R369). -/
opaque Config.imageAt : Nat
opaque Config.imageLen : Nat
/-- The bits that a bit map marks reserved or does not show, as a read finds them (00 R3), by place, at a draw. -/
opaque Config.reservedBits : Nat → Nat → Nat
/-- Which source byte an overlapped destination byte holds (11 R326), by its number, at a draw. -/
opaque Config.overlapByte : Nat → Nat → Nat
/-- How many writes of a failed transfer were made before its error (11 R331), at a draw. -/
opaque Config.writesDone : Nat → Nat
/-- tally_pc while the core runs (12 R366), at a draw. -/
opaque Config.tallyPc : Nat → BitVec 32
/-- The C flag after ABS (12 R344 gives none), at a draw. -/
opaque Config.absCarry : Nat → Bool
/-- The STATUS of a post refused for a cause that 12 Table 12.12 does not list, at a draw. -/
opaque Config.postStatus : Nat → BitVec 8

end Sys2Proof
end

