-- ==== Sys2Proof/Machine/State.lean ====
section
/-! DEFINITION. The state of the UZ8100 as plain data: every register, counter, buffer, mode and pin the spec gives the
part, the queue of waiting commands, and the state right after reset. -/

namespace Sys2Proof.Machine

open Sys2Proof

/-- Why the machine would stop with a fault. No command of the spec ends in one: every error the spec describes is a next
state (a Postcard, a status, a mark). -/
inductive Fault where
  /-- Raised by no command; the type has one constructor so that it is not empty. Safe. -/
  | none
  deriving DecidableEq, Repr

/-- Why a command is refused. -/
inductive Refusal where
  /-- The command's arm of exec has no meaning yet. Safe: the machine stops where the hardware goes on. -/
  | notModelled (mnemonic : String)
  deriving DecidableEq, Repr

/-! ### Blocks, configuration and faults (02, 14, 16) -/

/-- The state every block of Table 02.2 has (02 R24, R27, R45, 14 R412): RUNNING, ACTIVE_VALID, FAULT_HELD, PLAIN, the
Postmark of the set in force, how many of the latched sets it has applied or passed over, and the stamp it expects. -/
structure Blk where
  running : Bool := false
  activeValid : Bool := false
  held : Bool := false
  plain : Bool := false
  appliedPm : Nat := 0
  taken : Nat := 0
  expected : Option Nat := none
  reached : Nat := 0
  deriving DecidableEq, Repr

/-- The reactions of 16 Table 16.3. -/
inductive Reaction where
  | note | correct | hold | isolate | promote
  deriving DecidableEq, Repr

/-- A Postcard that waits for acceptance (16 R453, R455). -/
structure WaitCard where
  src : Nat
  kind : Nat
  addr : Nat
  test : Bool
  deriving DecidableEq, Repr

/-- An accepted Postcard (16 Table 16.1). -/
structure Card where
  src : Nat := 0
  kind : Nat := 0
  cls : Nat := 0
  addr : Nat := 0
  pm : Nat := 0
  deriving DecidableEq, Repr

/-- The Sorting Office's state of one source (16 Table 16.6, R460): quietEnd is the TB-K value at which the quiet period
ends, recTimes the TB-K values of the recoveries that RECENT counts; HELD is Blk.held. -/
structure SrcState where
  st : Nat := 0
  lastKind : Nat := 0
  lastClass : Nat := 0
  recoveries : Nat := 0
  lastTbk : Nat := 0
  quietEnd : Option Nat := none
  recTimes : List Nat := []
  deriving DecidableEq, Repr

/-- An active injection (16 Table 16.7): count is the checks left. -/
structure Injection where
  src : Nat
  checker : Nat
  react : Bool
  mask : Nat
  count : Nat
  deriving DecidableEq, Repr

/-- The Sorting Office (16): the waiting Postcards of every block in the order raised, the queue by element, and the
source states. lastRaise holds, per limited kind, one more than the Postmark of its last raise. -/
structure Sorting where
  waiting : List WaitCard := []
  queue : Tab Card := []
  next : Nat := 0
  acked : Nat := 0
  dropped : Nat := 0
  dropsSince : Nat := 0
  srcs : Tab SrcState := []
  inj : Option Injection := none
  lastRaise : Tab Nat := []
  deriving DecidableEq, Repr

/-! ### Serial lanes (03) -/

/-- Receive states (03 Table 03.5). -/
inductive Rx where
  | acquire | align | sync | running | test | sleep
  deriving DecidableEq, Repr

/-- Transmit states (03 Table 03.5). -/
inductive Tx where
  | active | sleep | test
  deriving DecidableEq, Repr

/-- What an ingest spare is doing (03 R78 to R80): nothing, asking for L since a Postmark, serving L, giving L back. -/
inductive Sparing where
  | free | asking (l : Nat) (since : Nat) | serving (l : Nat) | leaving (l : Nat)
  deriving DecidableEq, Repr

/-- The pattern checker (03 R71): the last received bits as the generator's register, clean words in a row, and the last
64 words' errors, newest first. -/
structure Checker where
  pattern : Nat := 0
  coded : Bool := false
  reg : List Bool := []
  clean : Nat := 0
  errs : List Bool := []
  deriving DecidableEq, Repr

/-- One physical lane (03 R66, R93). alignAt is the Postmark of the last entry into ALIGN from another state, leftAt that of leaving
RUNNING (R77), downAt of leaving it in any way (06 R180), alignRaised that this stay in ALIGN has raised ALIGN_NEEDED, startPm the
Postmark of the last START, failed that the failure has been declared, crcTimes the Postmarks of the CRC failures that R77 counts,
lastCrc and lastLate those the status word shows (R82). -/
structure Lane where
  /-- running disparity of the transmit and of the receive side (03 R60), true where positive -/
  txRd : Bool := false
  rxRd : Bool := false
  /-- the tick from which idle words count toward txRd, and the protocol words sent since then; heard that clock recovery has
  locked since the last reset or wake -/
  txAt : Nat := 0
  txSent : Nat := 0
  heard : Bool := false
  /-- the generator's last bits, newest first (03 R70), the words since the last inversion of INJECT (R72), and the part of a
  word, in sixteenths, by which the lane clock is ahead of the words sent -/
  gen : List Bool := []
  injCount : Nat := 0
  phase : Nat := 0
  rx : Rx := .acquire
  tx : Tx := .active
  aligned : Bool := false
  searchNeeded : Bool := false
  farSleep : Bool := false
  resume : Bool := false
  sparedOut : Bool := false
  chkLock : Bool := false
  slip : Nat := 0
  driver : Bool := true
  genPattern : Nat := 0
  genCoded : Bool := false
  chk : Checker := {}
  loopback : Nat := 0
  inj : Option (Nat × Nat) := none
  alignAt : Nat := 0
  alignRaised : Bool := false
  startPm : Nat := 0
  leftAt : Option Nat := none
  downAt : Nat := 0
  failed : Bool := false
  mirror : Nat := 255
  spare : Sparing := .free
  crcTimes : List Nat := []
  lastCrc : Option Nat := none
  lastLate : Option Nat := none
  codeErrors : Nat := 0
  dispErrors : Nat := 0
  syncLosses : Nat := 0
  prbsErrors : Nat := 0
  prbsBits : Nat := 0
  deriving DecidableEq, Repr

/-- Samples handed to one input (03 R85, R86): decoded words from a stamp on at a period, or a gap of not-valid ones.
A word is a pair (RE, IM); a real input uses RE. Each carries its V bit; start is the START of the lane that carried it. -/
inductive Chunk where
  | data (stamp p : Nat) (cplx : Bool) (start : Nat) (words : List (Int × Int × Bool))
  | gap (stamp p : Nat) (cplx : Bool) (start : Nat) (n : Nat)
  deriving DecidableEq, Repr

/-- One logical ingest lane (03 R93): phys is none while the home lane serves it. -/
structure LogLane where
  phys : Option Nat := none
  framesOk : Nat := 0
  crcErrors : Nat := 0
  late : Nat := 0
  early : Nat := 0
  seqJumps : Nat := 0
  formatErrors : Nat := 0
  linkIdErrors : Nat := 0
  ovr : List Nat := [0, 0, 0, 0]
  expected : Option Nat := none
  lastTaken : Option Nat := none
  lastSeq : Nat := 0
  /-- declared failed without a spare taking over: not valid until software acts (03 R77) -/
  muted : Bool := false
  deriving DecidableEq, Repr

/-- The lane system: 222 lanes by source number, 96 logical ingest lanes, and the samples waiting for each input; since is the
tick at which the lanes left reset. -/
structure Lanes where
  since : Nat := 0
  lane : Tab Lane := []
  logical : Tab LogLane := []
  ingest : Tab (List Chunk) := []
  deriving DecidableEq, Repr

/-! ### Input conditioning and delay (04) -/

/-- A sample word pair of the delay line (02 R35): the 16-bit words of the RE stream (a real input's only one) and of the
IM stream. -/
abbrev WordPair := Nat × Nat

/-- A received sample in the spike window: its stamp, both components, V, and the START of the lane that carried it. -/
structure RxSample where
  stamp : Nat
  re : Int
  im : Int
  v : Bool
  cplx : Bool
  start : Nat
  deriving DecidableEq, Repr

/-- A delay record as the engine holds it (04 Table 04.2), EFF rounded up. -/
structure DelayRec where
  eff : Nat := 0
  dint : Nat := 0
  frac : Int := 0
  frate : Int := 0
  phase : Nat := 0
  prate : Int := 0
  seq : Nat := 0
  deriving DecidableEq, Repr

/-- What the conditioning section decided for one frame (04 R109): the record, and the marks of R112 and R113. -/
structure FrameRec where
  dr : DelayRec := {}
  marked : Bool := false
  deriving DecidableEq, Repr

/-- One input's conditioning (04 R97 to R119). done is the last stamp the spike filter has passed on, syncAt the last
synchronising reset, spreadFrom the stamp from which the spread is set anew, initUsed the spread_init last used, startSeen
the START last seen by a tested sample, spikeEnd the end of the time block spikesRun counts, newest the newest stamp in the line,
first the first stamp taken since the history was empty, missing the stretches a START left unreceived, histFrom the stamp of the
first frame taken after the last START (R102), frame the last frame start decided, overlap that the samples now coming were taken before. -/
structure Cond where
  win : List RxSample := []
  done : Option Nat := none
  spreadRe : Nat := 65536
  spreadIm : Nat := 65536
  syncAt : Nat := 0
  spreadFrom : Option Nat := none
  initUsed : Nat := 16
  startSeen : Option Nat := none
  spikes : Nat := 0
  spikesBlock : Nat := 0
  spikesRun : Nat := 0
  spikeEnd : Nat := 0
  bypassed : Nat := 0
  line : Tab WordPair := []
  newest : Option Nat := none
  first : Option Nat := none
  missing : List (Nat × Nat) := []
  histFrom : Option Nat := none
  nextOut : Option Nat := none
  dout : Tab WordPair := []
  live : Bool := false
  cur : DelayRec := {}
  next : Option DelayRec := none
  replaced : Bool := false
  stale : Bool := false
  range : Bool := false
  d : Nat := 0
  late : Nat := 0
  replacedN : Nat := 0
  discarded : Nat := 0
  steps : Nat := 0
  frame : Option Nat := none
  overlap : Bool := false
  frames : Tab FrameRec := []
  deriving DecidableEq, Repr

/-! ### Channeliser and coefficient banks (05) -/

/-- Where a bank's coefficients come from: the ROM (Plain or Sharp at N and D) or an image. -/
inductive Coef where
  | rom (sharp : Bool) (n d : Nat)
  | image (n : Nat) (taps win : List Int)
  deriving DecidableEq, Repr

/-- Bank states (05 R156). -/
inductive BankSt where
  | empty | loading | warming | ready | active | fadingOut
  deriving DecidableEq, Repr

/-- What a bank holds: coefficients, PROFILE_ID, DECLARED_GD, the linear-phase mark, the certified mark and, with it,
certified_crc at the load (17 R489). -/
structure Profile where
  coef : Coef
  id : Nat
  declGd : Int
  linear : Bool
  certified : Bool
  crc : Nat := 0
  deriving DecidableEq, Repr

/-- One bank (05 R134 to R138): start is the frame boundary its chain started at, bytes the image so far, loaded the
accepted load that waits for its completion, skip that the rest of an image it does not take is still to come. -/
structure Bank where
  st : BankSt := .active
  prof : Profile := ⟨.rom false 8192 1, 1, 0, true, false, 0⟩
  start : Nat := 0
  bytes : List Byte := []
  loaded : Option Profile := none
  skip : Bool := false
  deriving DecidableEq, Repr

/-- A frame's decision (05 R140 to R142): the bank profiles whose chains feed it, the fade's first stamp and K, and the
restart boundaries its suppression counts from. -/
structure FrameDec where
  new : Profile
  newStart : Nat
  old : Option (Profile × Nat) := none
  fadeX : Nat := 0
  fadeK : Nat := 0
  deriving DecidableEq, Repr

/-- One filter engine's channeliser (05 R135 to R156): a fade runs from fadeX to fadeE with length 2^fadeK, its old bank's chain
started at fadeStart; lastFrame is the last frame started, decs the decisions of the last frames. -/
structure Engine where
  a : Bank := {}
  b : Bank := { st := .warming }
  active : Bool := false
  pending : Option (Nat × Nat × Bool) := none
  fading : Bool := false
  latched : Option (Nat × Nat × Bool) := none
  fadeX : Nat := 0
  fadeE : Nat := 0
  fadeK : Nat := 0
  fadeStart : Nat := 0
  reqReplaced : Bool := false
  late : Bool := false
  cold : Bool := false
  swapApplied : Nat := 0
  dlCorr : Nat := 0
  dlUncorr : Nat := 0
  coefCorr : Nat := 0
  coefUncorr : Nat := 0
  swapsReplaced : Nat := 0
  syncs : List Nat := []
  recovery : Option (Nat × Bool) := none
  lastFrame : Option Nat := none
  decs : List (Nat × FrameDec) := []
  deriving DecidableEq, Repr

/-- A gain table waiting to become current (05 R130, R131). -/
structure NextGain where
  eff : Nat
  seq : Nat
  first : Nat
  words : List (Int × Int)
  deriving DecidableEq, Repr

/-- One input's gain stage (05 R129 to R133, R155): gains by channel (default 1 + 0j), satEnd the end of the time block satRun
counts, restart the boundary of a restart of
this input's chains alone, cut the commit Postmark from which the table starts anew (R143), outFrame the last frame that emitted. -/
structure GainSt where
  gains : Tab (Int × Int) := []
  eff : Nat := 0
  seq : Nat := 0
  next : Option NextGain := none
  sat : Nat := 0
  satBlock : Nat := 0
  satRun : Nat := 0
  satEnd : Nat := 0
  discarded : Nat := 0
  invalidFrames : Nat := 0
  restart : Option Nat := none
  cut : Option Nat := none
  outFrame : Option Nat := none
  deriving DecidableEq, Repr

/-- The filter chain: 384 inputs and 24 engines. words holds the channel samples the gain stages emitted, under
chanKey, as one more than the word. -/
structure Filt where
  cond : Tab Cond := []
  eng : Tab Engine := []
  gain : Tab GainSt := []
  words : Tab Nat := []
  lastBlock : Nat := 0
  deriving DecidableEq, Repr

/-! ### Relay (06) -/

/-- Relay port states (06 Table 06.14). -/
inductive PortSt where
  | down | hello | linked | mapped | scheduled
  deriving DecidableEq, Repr

/-- A lane move the receiving part asked for (06 R178): logical lane, physical index, SB, the answer. -/
structure Move where
  l : Nat
  phys : Nat
  sb : Nat
  ack : Option Bool := none
  deriving DecidableEq, Repr

/-- A MAP or CONFIG parcel that waits for a service slot (06 Table 06.2): TYPE, STAMP, SRC_RANK, PSEQ, HOP. -/
structure SvcParcel where
  type : Nat
  stamp : Nat
  src : Nat
  pseq : Nat
  hop : Nat := 0
  payload : List Byte
  deriving DecidableEq, Repr

/-- A control packet that waits to be sent (06 R174), since a tick. -/
structure CtlItem where
  ctype : Nat
  arg0 : Nat
  arg1 : Nat
  origin : Nat
  since : Nat
  deriving DecidableEq, Repr

/-- One Relay port (06 R181, R192, R193). rx24, rx25 are the logical lanes its spares receive; txMoves the moves the transmitter
accepted: logical lane, physical lane, SB; exch the last exchanges (delay, offset in half ticks); service the parcels that wait for
service slots, lastSlot the slot the last one left in; ctlq the control packets that wait and ctlTimes when the last ones left
(R175); from_ the Postmark from which the port is scheduled; stallWin and lostWin the windows a Postcard was raised for. -/
structure Port where
  st : PortSt := .down
  miswired : Bool := false
  tooLong : Bool := false
  neighbour : Nat := 0
  nRank : Nat := 255
  exch : List (Int × Int) := []
  pingAt : Nat := 0
  lastHello : Nat := 0
  txSeq : Nat := 0
  rxSeq : Nat := 0
  sent : Nat := 0
  received : Nat := 0
  crcErrors : Nat := 0
  late : Nat := 0
  lost : Nat := 0
  stalls : Nat := 0
  ctlDropped : Nat := 0
  rx24 : Option Nat := none
  rx25 : Option Nat := none
  txMoves : List (Nat × Nat × Nat) := []
  moves : List Move := []
  lostWin : List Nat := []
  stallWin : List Nat := []
  service : List SvcParcel := []
  lastSlot : Option Nat := none
  ctlq : List CtlItem := []
  ctlTimes : List Nat := []
  from_ : Nat := 0
  deriving DecidableEq, Repr

/-- Credits of one logical lane of a port (06 R171): freed by the receiver, last CRED received, used by the transmitter,
since when a parcel is held, its window and nominal start, and whether that hold has been counted; busy is when the lane is free, last the frame and
the slot start of the last DATA parcel sent. -/
structure Cred where
  freed : Nat := 0
  cred : Nat := 0
  used : Nat := 0
  heldSince : Option Nat := none
  heldWin : Nat := 0
  stalled : Bool := false
  busy : Nat := 0
  last : Option (Nat × Nat) := none
  deriving DecidableEq, Repr

/-- A map entry (06 R182): serial numbers of a part and its N, E, S and W neighbours. -/
structure MapEntry where
  serial : Nat
  n : Nat
  e : Nat
  s : Nat
  w : Nat
  deriving DecidableEq, Repr

/-- A parcel in transit: its payload, or lost (06 R170), with the port it came by and the credits it holds there. -/
structure Transit where
  name : SlotName
  inPort : Nat
  inLane : Nat
  credits : Nat
  payload : Option (List Byte)
  deriving DecidableEq, Repr

/-- A CONFIG message in assembly (06 R173): segments by index, the index of the last once known. -/
structure ConfMsg where
  src : Nat
  stamp : Nat
  port : Nat
  start : Nat
  segs : Tab (List Byte) := []
  last : Option Nat := none
  deriving DecidableEq, Repr

/-- The barrier in progress (06 R186): number, own vote and CRC, what the children sent, start. -/
structure Barrier where
  number : Nat
  vote : Option Bool := none
  crc : Nat := 0
  ups : List (Nat × Bool × Nat) := []
  start : Nat := 0
  sentUp : Bool := false
  deriving DecidableEq, Repr

/-- The Relay system. seen are the CONFIG parcels already taken; done the scheduled parcels accepted or lost by port. -/
structure Relay where
  port : Tab Port := []
  cred : Tab Cred := []
  rank : Nat := 255
  x : Nat := 255
  y : Nat := 255
  coordinator : Nat := 0
  diameter : Nat := 0
  mapValid : Bool := false
  lastGlobal : Nat := 0
  map : List MapEntry := []
  mapRound : Nat := 0
  mapBad : Option Nat := none
  coordSeen : Bool := false
  barrier : Option Barrier := none
  barrierNo : Nat := 0
  conf : List ConfMsg := []
  seen : List (Nat × Nat × Nat) := []
  confNo : Nat := 0
  transit : List Transit := []
  done : List (Nat × SlotName) := []
  deriving DecidableEq, Repr

/-! ### Fabric, beams and sparing (07, 16) -/

/-- A position's progress in the window (07 R205, R206): pass and strip in order, the run offsets left in the strip (first,
past the last; none before the strip starts), and the extra cycles a respread gave it (16 R478). -/
structure PosSt where
  pass : Nat := 0
  strip : Nat := 0
  todo : Option (List (Nat × Nat)) := none
  extra : Nat := 0
  deriving DecidableEq, Repr

/-- A fold (08 R233). seq is the order in which the segments ended, x0 the first stamp of its block, e0 and e1 the first and last
run offset, held that the Rambler's comparison has not ended (16 R468). -/
structure FoldItem where
  seq : Nat
  k : Nat
  p : Nat
  j : Nat
  slot : Nat
  c : Nat
  block : Nat
  x0 : Nat
  strip : Nat
  e0 : Nat
  e1 : Nat
  tile : Nat
  first : Nat
  last : Nat
  sat : Bool
  sums : List (Int × Int)
  counts : List Nat
  rnd : List Nat := []
  held : Bool := false
  deriving DecidableEq, Repr

/-- A withdrawn notice (08 R233): strip 0x3F means every strip of the pass. -/
structure Notice where
  c : Nat
  block : Nat
  x0 : Nat
  j : Nat
  strip : Nat
  first : Nat
  last : Nat
  deriving DecidableEq, Repr

/-- A promotion, rejoin or rotation in progress (16 R471, R474, R476): phase 0 power on, 1 power good, 2 configured. -/
structure CellMove where
  promotion : Bool
  pos : Nat
  slot : Nat
  since : Nat
  phase : Nat := 0
  rotation : Bool := false
  deriving DecidableEq, Repr

/-- What a cell slot does (16 R458, R474). -/
inductive SlotSt where
  | ok | held | selfTest
  deriving DecidableEq, Repr

/-- A position that no slot serves (16 R478): its failed slot, the time of detection, and that its run has been spread. -/
structure Unserved where
  pos : Nat
  slot : Nat
  since : Nat
  spread : Bool := false
  deriving DecidableEq, Repr

/-- One cluster (07 R194, R229, 08 R235, 16 R467 to R484). latePass and fmtBlock are the pass and block in which
STAGING_LATE and FORMAT_ERR were raised, copy the second copy of the slot map (16 R477), late and lateRun a late word in the last window and in this one, seenBad the malformed
samples counted (channel, block, input, sample index), beamCut and beamCutRun a cut batch in the last time block and in this one,
withdraw the positions whose work is being withdrawn and wd their open notices, audit the position that the Rambler audits out
of turn and the pass that ends it, hist the slots and passes of the last mismatches, fallback the unserved positions. -/
structure Cluster where
  slots : List Nat := [0, 1, 2, 3, 4, 5, 6, 7, 8, 9, 10, 11, 12, 13, 14, 15]
  copy : List Nat := [0, 1, 2, 3, 4, 5, 6, 7, 8, 9, 10, 11, 12, 13, 14, 15]
  standby : Option Nat := some 16
  slotSt : Tab SlotSt := []
  gen : Option Nat := none
  queue : List FoldItem := []
  overrun : Bool := false
  late : Bool := false
  lateRun : Bool := false
  beamCut : Bool := false
  beamCutRun : Bool := false
  segments : Nat := 0
  fmtErrors : Nat := 0
  tileSat : Nat := 0
  latePass : Option (Nat × Nat) := none
  fmtBlock : Option Nat := none
  seenBad : List (Nat × Nat × Nat × Nat) := []
  withdraw : List Nat := []
  wd : List Notice := []
  move : Option CellMove := none
  audit : Option (Nat × Nat) := none
  rambFrom : Nat := 0
  hist : List (Nat × Nat) := []
  fallback : List Unserved := []
  promotions : Nat := 0
  audits : Nat := 0
  mismatches : Nat := 0
  rotations : Nat := 0
  deriving DecidableEq, Repr

/-- A fabric window: its block, the block's first stamp, and the local channels of its passes in order (07 R202, R203). -/
structure Win where
  block : Nat
  x0 : Nat
  chans : List Nat
  deriving DecidableEq, Repr

/-- The beam weights (07 R218 to R222): state 0 IDLE, 1 PENDING, 2 ARMED; held EFF′ and SEQ. -/
structure Weights where
  st : Nat := 0
  eff : Nat := 0
  seq : Nat := 0
  active : Bool := false
  valid : Bool := false
  replaced : Bool := false
  late : Bool := false
  setBad : Bool := false
  curSeq : Nat := 0
  curEff : Nat := 0
  discarded : Nat := 0
  refused : Nat := 0
  nReplaced : Nat := 0
  deriving DecidableEq, Repr

/-- A beam power interval of a channel and beam (07 R215): the sum and the frames it includes. -/
abbrev Power := Nat × Nat

/-- The fabric. start is the stamp from which data is processed, loaded the strips staged as (channel, block, strip), lateW the
octet words and poison the staged words read as markers, batchAt when the batch started, cutNow the positions that stopped in it
with the units they had done, lastSwap the batch of the last weight exchange. removed are the positions that the schedule in force
leaves out, newSched the positions and channels that the next one leaves out, kept the slot maps that the Stewards keep of the clusters
(16 R477). A batch runs under batchOut, batchValid and batchOff: the positions left out, WEIGHTS_VALID and beamsOff at its start. -/
structure Fab where
  start : Option Nat := none
  win : Option Win := none
  pos : Tab PosSt := []
  cl : Tab Cluster := []
  seq : Nat := 0
  folds : List FoldItem := []
  notices : List Notice := []
  loaded : List (Nat × Nat × Nat) := []
  lateW : Tab Nat := []
  poison : Tab Nat := []
  passBase : Nat := 0
  overruns : Nat := 0
  stagingLate : Nat := 0
  eccCorr : Nat := 0
  eccUncorr : Nat := 0
  removed : List (Nat × Nat) := []
  dropped : Nat := 0
  beamsOff : Bool := false
  newSched : Option (List (Nat × Nat) × Nat × Bool) := none
  rotation : Nat := 0
  rotAt : Nat := 0
  batch : Option Nat := none
  batchDone : Option Nat := none
  batchAt : Nat := 0
  batchOut : List (Nat × Nat) := []
  batchValid : Bool := false
  batchOff : Bool := false
  kept : Tab (List Nat) := []
  cutNow : List (Nat × Nat × Nat) := []
  beamSat : Nat := 0
  beamSatBlock : Nat := 0
  beamSatRun : Nat := 0
  beamIncomplete : Nat := 0
  power : Tab Power := []
  powerStart : Option Nat := none
  lastSwap : Option Nat := none
  w : Weights := {}
  deriving DecidableEq, Repr

/-! ### Accumulation (08) -/

/-- A tile's bookkeeping (08 R240): int the stamp P0 of its integration, its fold count, TILE_WEIGHT, PAIR_SUM, MAX_EXP and the bits of R248; bad
that its bookkeeping word was lost (09 Table 09.6), idle that a reset left it IDLE and owing its integration (R256). -/
structure Book where
  int : Nat
  folds : Nat := 0
  weight : Nat := 0
  pairSum : Nat := 0
  maxExp : Nat := 0
  sat : Bool := false
  bad : Bool := false
  idle : Bool := false
  deriving DecidableEq, Repr

/-- A dump (08 R242): its channel, the stamp of its integration, its layout, the tiles emitted, and what raises once per dump: full
DUMP_QUEUE_FULL, cut the lowest tile whose carry chain was cut. excl are the records as recorded. -/
structure Dump where
  c : Nat
  chan : Nat
  p0 : Nat
  tiles : Nat
  inputs : Nat
  blocks : Nat
  len : Nat
  base : Nat
  recBase : Nat
  fac : Bool := false
  emitted : Tab Nat := []
  complete : Bool := false
  excl : List Nat := []
  stats : Tab (Nat × Nat × Nat) := []
  full : Bool := false
  cut : Option Nat := none
  deriving DecidableEq, Repr

/-- The accumulation path. An integration is known by its channel and the stamp P0 of its first sample. book is kept per tile under
tileKey; excls and stats per integration; starts the stamps of START and of the commits that start integrations anew (02 R54), in
order; commitPm the last commit Postmark it has acted on, due that of a commit whose start values wait for the dumps owed under
it (R243), waits that old data still comes before these; biasCards the lowest tile with a bad bias entry per integration, fac the channels whose next dump is the first after a
commit, reset the integrations that a reset of a fold engine touched (R256), noFold those in which a fallback left a channel out
(16 R479). -/
structure Acc where
  book : Tab (Option Book) := []
  dumps : List Dump := []
  excls : Tab (List Nat) := []
  stats : Tab (Nat × Nat × Nat) := []
  starts : List Nat := []
  commitPm : Nat := 0
  due : Option Nat := none
  waits : Bool := false
  owed : List (Nat × Nat) := []
  biasCards : List (Nat × Nat × Nat) := []
  fac : List Nat := []
  reset : List (Nat × Nat) := []
  noFold : List (Nat × Nat) := []
  forced : Nat := 0
  biasBad : Nat := 0
  exclOver : Nat := 0
  sweeps : Nat := 0
  dumpsOut : Nat := 0
  lastDump : Nat := 0
  damaged : Nat := 0
  deriving DecidableEq, Repr

/-! ### Stacked DRAM and memory (09, 13) -/

/-- Stack controller states (09 R279). -/
inductive StackSt where
  | off | training | ready | running | failed
  deriving DecidableEq, Repr

/-- A DRAM bank: the open row and the refreshes behind (positive) or ahead of schedule (09 R267, R268). -/
structure Bank9 where
  row : Option Nat := none
  behind : Int := 0
  deriving DecidableEq, Repr

/-- A token bucket (09 R269): tokens in 10^-6 byte at a time, the rate in MB/s and the depth in bytes that the commit loaded. -/
structure Bucket where
  level : Nat := 0
  at_ : Nat := 0
  rate : Nat := 0
  depth : Nat := 0
  deriving DecidableEq, Repr

/-- A request that waits at a stack controller (09 R267, R269): port, stack offset and length, the data of a write, its
master, ID and EPOCH, that a fault makes it late, the reports of the words read, and that it has been counted in port_waits. -/
structure DramReq where
  port : Nat
  x : Nat
  len : Nat
  wr : Option (List Byte)
  tag : Nat × Nat × Nat
  late : Bool
  ecc : List (Nat × Ecc)
  counted : Bool := false
  deriving DecidableEq, Repr

/-- One stack (09 R276 to R279). queue are the requests that wait, in the order of their arrival, temp the device temperature,
hot that it lies above 85 °C. -/
structure Stack where
  st : StackSt := .off
  trainAt : Nat := 0
  temp : Int := 0
  hot : Bool := false
  corr : Nat := 0
  uncorr : Nat := 0
  passes : Nat := 0
  scrubAt : Nat := 0
  forced : Nat := 0
  hits : Nat := 0
  conflicts : Nat := 0
  lastErr : Nat := 0
  waits : Nat := 0
  queue : List DramReq := []
  banks : Tab Bank9 := []
  buckets : Tab Bucket := []
  deriving DecidableEq, Repr

/-- Where a set's regions lie (09 R262, R265): stack-local base and λ in bytes, interleaved offsets of the regions. -/
structure Place where
  base : Nat := 0
  lam : Nat := 0
  ct : Nat := 0
  hdr : Nat := 0
  w0 : Nat := 0
  w1 : Nat := 0
  user : Nat := 0
  userSize : Nat := 0
  deriving DecidableEq, Repr

/-- The DRAM and the part's other addressed memories: mem holds bytes by bus address (the DRAM by its stack-local view),
bad the 8-byte words that are uncorrectable. place are the placements of the latched sets by Postmark. -/
structure Mems where
  mem : Tab Byte := []
  bad : Tab Nat := []
  stack : Tab Stack := []
  place : List (Nat × Place) := []
  deriving DecidableEq, Repr

/-! ### Compression and Envelope output (10) -/

/-- An Envelope (10 Table 10.3). eseq is none before its first assignment; due is its bound as a Postmark; segs are its
segments; endAt is when its last symbol left; key orders it (R301). -/
structure Env where
  etype : Nat
  codec : Nat := 0
  late : Bool := false
  fac : Bool := false
  last : Bool := false
  retry : Bool := false
  hreset : Bool := false
  wchg : Bool := false
  stamp : Nat
  chan : Nat
  count : Nat
  first : Nat
  payload : List Byte
  eseq : Option Nat := none
  dump : Option (Nat × Nat) := none
  due : Nat := 0
  lseq : Nat := 0
  endAt : Nat := 0
  resends : Nat := 0
  deriving DecidableEq, Repr

/-- A stream, or a substream of one, that is being cut into Envelopes (10 R280, R283, R286). unit is the compressor, 8 the
assembler; per is E, total its elements, next and stop Envelope numbers; sCh and sDump the distances of R289. -/
structure Stream where
  etype : Nat
  unit : Nat
  dump : Option (Nat × Nat) := none
  stamp : Nat
  chan : Nat
  total : Nat
  esize : Nat
  per : Nat
  next : Nat := 0
  stop : Nat
  data : List Byte := []
  codec : Nat := 0
  each : Bool := false
  fac : Bool := false
  wchg : Bool := false
  due : Nat := 0
  sCh : Nat := 0
  sDump : Nat := 0
  block : Nat := 0
  deriving DecidableEq, Repr

/-- A compressor (10 R287, R298, R309): hist is the history of the product substream of_, powHist that of the powers of a
time block, newest first; force that the next coded Envelope carries HRESET; part the segments that its unfinished Envelope holds,
stall since when it waits for one, stallChan that Envelope's local channel. -/
structure Comp where
  hist : List Nat := []
  of_ : Option (Nat × Nat) := none
  powHist : List Nat := []
  powBlock : Option Nat := none
  force : Bool := false
  powForce : Bool := false
  part : Nat := 0
  stall : Option Nat := none
  stallSaid : Bool := false
  stallChan : Nat := 0
  coded : Nat := 0
  raw : Nat := 0
  envRaw : Nat := 0
  verify : Nat := 0
  corr : Nat := 0
  uncorr : Nat := 0
  deriving DecidableEq, Repr

/-- A logical output lane (10 R301 to R305, R310). lseq is the next LSEQ; busy until when its lane sends; asking the spare
that has not been acknowledged yet: since when, and the lane it takes over from; leaving that SPARE_OUT waits; lastWord when
the last valid back-channel word came; owed that resends wait for the lane to send its protocol, recount that those count; was the lane
that served before the spare that is asked. -/
structure OutLane where
  phys : Option Nat
  paused : Bool := false
  pauseAt : Nat := 0
  pauseSum : Nat := 0
  shown : Nat := 0
  pauseOver : Bool := false
  lseq : Nat := 0
  busy : Nat := 0
  unacked : List Env := []
  asking : Option (Nat × Option Nat) := none
  leaving : Bool := false
  lastWord : Nat := 0
  owed : Bool := false
  recount : Bool := false
  was : Option Nat := none
  retries : Nat := 0
  badWords : Nat := 0
  acked : Nat := 0
  deriving DecidableEq, Repr

/-- A decode request in progress (10 Table 10.8). -/
structure DecodeReq where
  addr : Nat
  plen : Nat
  etype : Nat
  count : Nat
  codec : Nat
  deriving DecidableEq, Repr

/-- The output path. queued are the dumps (channel, P0) handed to compression; part and stall the assembler's, mapNext the stamp of the
block whose validity map is due next (08 R250). -/
structure Out where
  comp : Tab Comp := []
  lane : Tab OutLane := []
  streams : List Stream := []
  ready : List Env := []
  queued : List (Nat × Nat) := []
  eseq : Nat := 0
  sent : Nat := 0
  late : Nat := 0
  bytesRaw : Nat := 0
  bytesCoded : Nat := 0
  corr : Nat := 0
  uncorr : Nat := 0
  part : Nat := 0
  stall : Option Nat := none
  stallSaid : Bool := false
  mapNext : Nat := 0
  decode : Option DecodeReq := none
  status : Nat := 0
  deriving DecidableEq, Repr

/-! ### Time bases (15) -/

/-- Reference states (15 Table 15.10). -/
inductive RefSt where
  | noRef | acquire | locked | holdover
  deriving DecidableEq, Repr

/-- PTP time base states (15 Table 15.11). -/
inductive TbSt where
  | disabled | listening | uncalibrated | slave | holdover | follow
  deriving DecidableEq, Repr

/-- A master heard on a time base's path (15 R436): its identity, announced rank, Announces in a row, interval in ticks and
time of the last. -/
structure Foreign where
  id : Nat
  rank : List Nat
  count : Nat
  interval : Nat
  last : Nat
  deriving DecidableEq, Repr

/-- One PTP time base (15 R435 to R452): base is its value in 2^-32 ns at since (ticks of State.now), addend what each 8 ns
adds; wraps how often the firmware's extended reading has wrapped at since (R439). t1, t2 are the last Sync's times, syncWait a two-step
Sync that waits for its Follow_Up (sequence number, correction, receipt), t3 the last request's, pt those of a peer-delay response, delay
the mean path delay, all in ps. reqInt is the interval of requests in ticks, reqAt when the last one left (R436). ratio is the addend last
measured in SLAVE. -/
structure Tb where
  st : TbSt := .disabled
  base : Nat := 0
  since : Nat := 0
  wraps : Int := 0
  addend : Nat := 34359738368
  ratio : Nat := 34359738368
  twoStep : Bool := false
  stepped : Bool := false
  domain : Nat := 0
  master : Nat := 0
  foreign : List Foreign := []
  syncWait : Option (Nat × Int × Int) := none
  t1 : Int := 0
  t2 : Int := 0
  t3 : Option (Nat × Int) := none
  pt : Option (Nat × Int × Int) := none
  reqSeq : Nat := 0
  reqInt : Nat := 250000000
  reqAt : Option Nat := none
  delay : Int := 0
  offset : Int := 0
  inRun : Nat := 0
  outRun : Nat := 0
  steps : Nat := 0
  deriving DecidableEq, Repr

/-- A pm_align record that waits for its edge (15 R428), with the time of its acceptance. -/
structure AlignRec where
  seconds : Nat
  epoch : Nat
  force : Bool
  at_ : Nat
  deriving DecidableEq, Repr

/-- The time bases. mono counts sample-clock ticks without steps; lead is how far the data's Postmarks run ahead of the counter after
steps back (R429); tbkAt when TB-K last rose; ppsFrom since when no PPS edge came, ppsLost that PPS_LOST was raised for it; capture is
pps_capture's record as a number. -/
structure Times where
  pm : Nat := 0
  mono : Nat := 0
  lead : Nat := 0
  tbk : Nat := 0
  tbkAt : Nat := 0
  epoch : Nat := 0
  ref : RefSt := .noRef
  aligned : Bool := false
  align : Option AlignRec := none
  pll : Bool := false
  ref10m : Bool := false
  refBad : Nat := 0
  refGood : Nat := 0
  ppsOk : Bool := false
  ppsTol : Bool := false
  lastPps : Option Nat := none
  ppsFrom : Nat := 0
  ppsLost : Bool := false
  goodEdges : Nat := 0
  ppsError : Int := 0
  ppsSlips : Nat := 0
  ratioErrors : Nat := 0
  pmSteps : Nat := 0
  holdFrom : Nat := 0
  holdoverTime : Nat := 0
  capture : Nat := 0
  edges : Nat := 0
  tb : Tab Tb := []
  tbkOsc : Int := 0
  deriving DecidableEq, Repr

/-! ### Courier (11) -/

/-- Ring states (11 Table 11.3). -/
inductive RingSt where
  | disabled | running | parked | stopped | error
  deriving DecidableEq, Repr

/-- A descriptor as fetched (11 Table 11.1). -/
structure Desc where
  eoc : Bool
  next : Nat
  src : Nat
  dst : Nat
  len : Nat
  barrier : Bool
  evtEn : Bool
  evtClass : Nat
  evtNum : Nat
  tag : Nat
  deriving DecidableEq, Repr

/-- A ring's context (11 Table 11.3). desc is the fetched descriptor, link that a link read is in flight, wake that a
Letterbox write caused it or its re-read, lost that the context was lost (Table 11.6). -/
structure Ring where
  st : RingSt := .disabled
  pending : Bool := false
  stopReq : Bool := false
  atLink : Bool := false
  resetStop : Bool := false
  error : Nat := 0
  prio : Nat := 0
  lastTag : Nat := 0
  done : Nat := 0
  cur : Nat := 0
  desc : Option Desc := none
  link : Bool := false
  wake : Bool := false
  lost : Bool := false
  deriving DecidableEq, Repr

/-- The Courier (11 R311, R313, R335): ready are the rings that wait for a slot, oldest first; slot the ring that each busy
slot runs; marks the assembler marks as numbers. -/
structure Courier where
  ring : Tab Ring := []
  ready : List Nat := []
  slot : Tab (Option Nat) := []
  doorbells : Nat := 0
  wakes : Nat := 0
  done : Nat := 0
  moved : Nat := 0
  errors : Nat := 0
  lastRing : Nat := 0
  lastAddr : Nat := 0
  ctxCorr : Nat := 0
  ctxUncorr : Nat := 0
  refused : Nat := 0
  marks : Tab Nat := []
  deriving DecidableEq, Repr

/-! ### Tally cores (12) -/

/-- Core states (12 Table 12.18). -/
inductive CoreSt where
  | reset | halt | run | wait | fault
  deriving DecidableEq, Repr

/-- A queued post (12 R360): the record's address and its contents. -/
structure Post where
  addr : Nat
  idx : Nat
  sub : Nat
  data : List Byte
  deriving DecidableEq, Repr

/-- A pending branch: where the pc goes after the delay slot, and the SR that RETI restores then (12 R348, R355). -/
structure Slot where
  target : Nat
  sr : Option Word
  deriving DecidableEq, Repr

/-- One Tally core (12 R341 to R367). crc: the CRC on entry to RUN runs; slot: the next instruction is a delay slot; rpt the
executions left of a repeated body; haltReq that a HALT command waits for a boundary; armed that the compare is armed; cycles those
since leaving RESET. -/
structure Core where
  g : Tab Word := []
  acc : Tab (BitVec 40) := []
  pc : Nat := 0
  sr : Word := 0
  esr : Word := 0
  epc : Word := 0
  vbase : Word := 0
  ien : Word := 0
  ipend : Word := 0
  seg : Word := 0
  cmpLo : Word := 0
  cmpHi : Word := 0
  pmHi : Word := 0
  cycHi : Word := 0
  armed : Bool := false
  st : CoreSt := .reset
  clearing : Bool := true
  inRpt : Bool := false
  crc : Bool := false
  slot : Option Slot := none
  rpt : Option Nat := none
  haltReq : Bool := false
  cycles : Nat := 0
  posts : List Post := []
  msSeen : Nat := 0
  cyclesRun : Nat := 0
  cyclesStalled : Nat := 0
  faultCode : Nat := 0
  faultPc : Nat := 0
  latency : Nat := 0
  merged : Nat := 0
  queued : Nat := 0
  refused : Nat := 0
  pmCorr : Nat := 0
  dmCorr : Nat := 0
  uncorr : Nat := 0
  imageCrc : Nat := 0
  cmdRefused : Nat := 0
  image : List Byte := []
  deriving DecidableEq, Repr

/-! ### Control plane (13) -/

/-- Steward pair states and core conditions (13 Table 13.10). -/
inductive PairSt where
  | lockstep | diag | soloA | soloB | resync | restart | halted
  deriving DecidableEq, Repr
inductive CoreCond where
  | ok | offline | testing | latched
  deriving DecidableEq, Repr

/-- Where a request stands in the bus matrix (13 R375): held back, accepted and ready at its target, or waiting at the DRAM. -/
inductive ReqStage where
  | held | ready | dram
  deriving DecidableEq, Repr

/-- A request that is not answered yet (13 Table 13.3): data as long as what it reads or writes, strb the byte strobes of a write, empty
for all, beat the bytes of a beat, remap REMAP at its issue (13 R369), dead that it names no target, ecc the reports of the words it
reads, late that a fault makes it late at the DRAM. -/
structure MReq where
  m : Nat
  id : Nat
  epoch : Nat
  write : Bool
  priv : Bool
  addr : Nat
  data : List Byte
  strb : List Bool := []
  beat : Nat := 16
  remap : Bool := false
  dead : Bool := false
  ecc : List (Nat × Ecc) := []
  late : Bool := false
  stage : ReqStage := .held
  deriving DecidableEq, Repr

/-- The control plane (13 R369 to R390): dead letters and resets per master, epoch 1 for an inverted one, the requests in the bus
matrix in their order of issue and per target its last grants (R378), the bytes written to the dictionary store, the pair, the held
requests of core A and core B, the core (true for B) in which an uncorrectable error ended LOCKSTEP, when the interruption began, the
last sync point since the cores started, and that the offline core has passed its test. -/
structure Ctrl where
  remap : Bool := false
  deadTotal : Nat := 0
  deadAddr : Nat := 0
  deadMaster : Nat := 255
  deadPm : Nat := 0
  dead : Tab Nat := []
  resets : Tab Nat := []
  epoch : Tab Nat := []
  reqs : List MReq := []
  grants : Tab Nat := []
  stored : Tab Nat := []
  pair : PairSt := .lockstep
  condA : CoreCond := .ok
  condB : CoreCond := .ok
  issuer : Bool := false
  held : Option (BusReq × BusReq) := none
  hurt : Option Bool := none
  stopAt : Nat := 0
  syncAt : Option Nat := none
  tested : Bool := false
  divergences : Nat := 0
  restarts : Nat := 0
  rejoins : Nat := 0
  mirrorCorr : Nat := 0
  lastOutage : Nat := 0
  syncMax : Nat := 0
  deriving DecidableEq, Repr

/-! ### Dictionary, Timetable, snapshot (14) -/

/-- A client of the service (14 R403): its path with address and port. -/
structure Client where
  path : Path
  ip : Nat
  port : Nat
  deriving DecidableEq, Repr

/-- A kept write (14 R403). -/
structure Kept where
  id : Nat
  idx : Nat
  sub : Nat
  offset : Nat
  status : Nat
  seq : Nat
  deriving DecidableEq, Repr

/-- An open segmented write (14 R401): its object, client, bytes accepted so far and the time of the last segment. -/
structure Assembly where
  idx : Nat
  sub : Nat
  client : Client
  data : List Byte
  last : Nat
  deriving DecidableEq, Repr

/-- Commit states (14 Table 14.17). -/
inductive CommitSt where
  | idle | checking | voting | loading | pending
  deriving DecidableEq, Repr

/-- The Timetable (14 R409 to R412, R423, R424). at_ is AT or the proposal's P, p the rounded Postmark, place the placement
that the checks chose, startAt when the request was taken, proposal that it came from the coordinator with its barrier
number and CRC, own the code and block that the part's vote recorded, down a BARRIER_DOWN that came before the checks ended. -/
structure Timetable where
  st : CommitSt := .idle
  dry : Bool := false
  system : Bool := false
  result : Nat := 0
  reject : Nat := 0
  number : Nat := 0
  cand : Option (Tab Nat) := none
  at_ : Nat := 0
  p : Nat := 0
  place : Place := {}
  startAt : Nat := 0
  proposal : Bool := false
  barrier : Nat := 0
  propCrc : Nat := 0
  own : Nat × Nat := (0, 0)
  down : Option Bool := none
  commitPm : Nat := 0
  detail : Nat := 0xFFFFFFFF
  checkTime : Nat := 0
  accepted : Nat := 0
  rejected : Nat := 0
  seq : Nat := 1
  deriving DecidableEq, Repr

/-- A snapshot (14 R418, R425): state 0 NONE, 1 CAPTURING, 2 COMPLETE; the blocks left, and the values by object. -/
structure Snapshot where
  st : Nat := 0
  isGlobal : Bool := false
  at_ : Nat := 0
  left : List Nat := []
  vals : Tab (List Byte) := []
  deriving DecidableEq, Repr

/-- The addresses of a path (14 Table 14.5): IPv4 address, netmask, gateway, UDP port, field-bus node. -/
structure PathAddr where
  ip : Nat
  mask : Nat
  gateway : Nat
  port : Nat
  node : Nat
  deriving DecidableEq, Repr

/-- What waits for the dictionary service while control service is interrupted (13 R385): a message of a client with the report of
the store, a cs segment, an object of REGISTER_WRITE, a snapshot request, a global operation with its OP, a commit request, a proposal,
a soft reset, a block reset, a START request, a forwarded message, a ring command of the firmware. -/
inductive Waiting where
  | msg (c : Client) (a : PathAddr) (b : List Byte) (e : Ecc)
  | cs (idx sub off : Nat) (b : List Byte) (more : Bool)
  | object (idx sub : Nat) (b : List Byte)
  | snapshot (at_ : Nat)
  | globalOp (op r : Nat)
  | commit (at_ : Nat) (system dry : Bool)
  | proposal (p barrier : Nat) (dry : Bool) (crc : Nat)
  | softReset (v : Nat)
  | blockReset (n : Nat)
  | start (at_ : Nat)
  | fan (b : List Byte)
  | ring (w : Nat)
  deriving DecidableEq, Repr

/-- The dictionary: the active values by set (base before any commit, then the latched ones by Postmark), the shadow set,
the last live records, open segmented writes, clients with their kept writes (most recent first), objects marked in the
store by object key (14 R420; 1 in the shadow set, 2 in the candidate, 3 in both), counters, that the service answers, and the
requests that wait while control service is interrupted (13 R385); loaded is what the blocks' shadow windows hold (02 R24). -/
structure Dict where
  blks : Tab Blk := []
  base : Tab Nat := []
  sets : List (Nat × Tab Nat) := []
  shadow : Tab Nat := []
  loaded : Tab Nat := []
  live : Tab (List Byte) := []
  open_ : List Assembly := []
  clients : List (Client × List Kept) := []
  marked : Tab Nat := []
  tt : Timetable := {}
  snap : Snapshot := {}
  up : Bool := false
  received : Nat := 0
  dropped : Nat := 0
  duplicates : Nat := 0
  busy : Nat := 0
  fanoutRefused : Nat := 0
  storeCorr : Nat := 0
  waiting : List Waiting := []
  deriving DecidableEq, Repr

/-! ### Metrology enclave (17) -/

/-- Enclave states (17 Table 17.6). -/
inductive EnclSt where
  | sealed | unsealing | unsealed | sealing
  deriving DecidableEq, Repr

/-- The enclave (17 R485 to R502). cert and working hold each cs object's bytes by object key; fails counts the positions
that failed in this unsealing, mark that a pending mark is written, c1 that copy C1 is complete, lock that no deassertion is
taken until an assertion (R493), refusedNow that this sealed period has logged a refused write, damaged the objects in error
in both copies, log the ring of entries as numbers, epoch the VKA rises, page the window's PAGE (17 Table 17.4). -/
structure Encl where
  st : EnclSt := .sealed
  count : Nat := 0
  pin : Bool := false
  present : Bool := false
  damaged : List Nat := []
  wrapped : Bool := false
  cert : Tab (List Byte) := []
  working : Tab (List Byte) := []
  certCrc : Nat := 0
  workingCrc : Nat := 0
  sealedAt : Nat := 0
  refused : Nat := 0
  audit : Nat := 0
  log : Tab Nat := []
  fails : Nat := 0
  mark : Bool := false
  c1 : Bool := false
  lock : Bool := false
  refusedNow : Bool := false
  epoch : Nat := 1
  page : Nat := 0
  deriving DecidableEq, Repr

/-! ### Supplies, reset, start (18), TAP (19) -/

/-- run_state (18 Table 18.11). -/
inductive RunSt where
  | idle | armed | ramping | running | stopping
  deriving DecidableEq, Repr

/-- The Hamper domain and START. vka: in range; step: the power-up step reached (18 Table 18.2; 1 waits for the rails to be
off, 6 is boot complete); inReset: the main domain is in reset; pin: RST_N is low; below counts samples in a row under the
trip level per rail; low and high the rails outside their range; offRun the samples in a row with every main rail off; cause
reset_cause, newCause the causes taken for the reset in force; cards the kinds and addresses raised after the restart;
rampPin and rampSoft that RST_N or a soft reset waits for a ramp-down; softBusy that a soft reset is in progress, softDue that it takes
effect once its write is answered (18 R516); vkaAt when VKA rose, until group 0 is good; rise per rail 1 below 10 % of nominal, k + 1 in the
k-th sample of a rise from there, 0 up; broken that the last sample broke R505. -/
structure Pwr where
  vka : Bool := true
  step : Nat := 5
  inReset : Bool := false
  pin : Bool := false
  below : Tab Nat := []
  low : List Nat := []
  high : List Nat := []
  offRun : Nat := 0
  talert : Bool := false
  hot : Bool := false
  vkaLow : Bool := false
  cause : Nat := 3
  newCause : Nat := 0
  cards : List (Nat × Nat) := []
  powerUps : Nat := 1
  pinResets : Nat := 0
  softResets : Nat := 0
  brownouts : Nat := 0
  mv : Tab Nat := []
  vkaMin : Option Nat := none
  tj : Int := 0
  tjMax : Option Int := none
  run : RunSt := .idle
  startPm : Nat := 0
  b0 : Nat := 0
  rampPin : Bool := false
  rampSoft : Bool := false
  softBusy : Bool := false
  softDue : Bool := false
  vkaAt : Option Nat := none
  rise : Tab Nat := []
  broken : Bool := false
  deriving DecidableEq, Repr

/-- The TAP's instruction (19 R538); debug is the one that reaches the debug master. -/
inductive TapIr where
  | idcode | bypass | extest | extestPulse | extestTrain | clamp | debug
  deriving DecidableEq, Repr
/-- The instructions that drive balls. -/
def TapIr.drives (i : TapIr) : Bool := i == .extest || i == .extestPulse || i == .extestTrain || i == .clamp

/-! ### What the part sends -/

/-- What the part sends; the newest entry of the outbox stands first (assumption 5). -/
inductive Sent where
  /-- 03 R68: sleep words before a transmit side idles. -/
  | sleepWords (l n : Nat)
  /-- 03 R82. -/
  | statusWord (l state mirror chk : Nat)
  /-- 03 R70, R72: a 40-bit word of a lane in TEST, bit 10s + j being bit j of symbol s (R60). -/
  | testWord (l w : Nat)
  /-- 15 R436: a PTP message of a time base: its kind and fields. -/
  | ptp (n : Nat) (fields : List Nat)
  /-- 06 R162: a parcel on a physical lane of a port. fields are TYPE, HOP, FLAGS, STAMP, SRC, DST, PSEQ,
  INPUT_FIRST, INPUT_COUNT, CH_FIRST, CH_COUNT; crc is its CRC word. -/
  | parcel (p phys : Nat) (fields : List Nat) (payload : List Byte) (crc : Nat)
  /-- 06 R174: a control packet, sent on the physical lanes that carry logical lanes 0 and 1 (R175); crc is its CRC word. -/
  | ctl (p : Nat) (lanes : List Nat) (ctype seq origin arg0 arg1 crc : Nat)
  /-- 06 R171: a credit word of a logical lane. -/
  | credit (p l cred chk : Nat)
  /-- 10 R281: an Envelope on output lane phys: ETYPE, FLAGS, RANK, STAMP, ESEQ, CHANNEL, COUNT, FIRST, PLEN, LLANE, LSEQ, CRC. -/
  | envelope (phys : Nat) (fields : List Nat) (payload : List Byte)
  /-- 14 R399, R405: a dictionary response to a client, from an address and port: the whole message. -/
  | response (c : Client) (ip port : Nat) (msg : List Byte)
  /-- 14 R407: a response frame on the field bus, flags and stuffing included. -/
  | busFrame (bytes : List Byte)
  /-- 14 R405: an ARP reply: path, address asked for, the asking station's MAC and IP address. -/
  | arpReply (p : Path) (ip mac askMac askIp : Nat)
  /-- 14 R405: an ICMP echo reply with its data, sent to an address by way of a next hop. -/
  | icmpReply (p : Path) (dst hop : Nat) (data : List Byte)
  /-- 14 R406: a clause 45 MDIO write: port address, MMD, register, value. -/
  | mdio (prt mmd reg val : Nat)
  /-- 13 Table 13.3: a response beat on the bus matrix: master, ID, RESP, LAST, EPOCH, read data. -/
  | busReply (m id resp : Nat) (last : Bool) (epoch : Nat) (data : List Byte)
  /-- 19 R538: what the TAP shifts out. -/
  | tap (bits : Nat)
  /-- 19 R538: the balls, driven under a TAP instruction with what the boundary cells hold. -/
  | balls (ir : TapIr) (cells : Nat)
  deriving DecidableEq, Repr

/-! ### The state -/

/-- The state of the part. fresh counts the free values drawn (assumption 4), outbox holds what the part has sent
(assumption 5), pending the commands that wait, first in first out. -/
structure State where
  so : Sorting := {}
  lanes : Lanes := {}
  filt : Filt := {}
  relay : Relay := {}
  fab : Fab := {}
  acc : Acc := {}
  mm : Mems := {}
  out : Out := {}
  cour : Courier := {}
  tally : Tab Core := []
  ctrl : Ctrl := {}
  time : Times := {}
  dict : Dict := {}
  encl : Encl := {}
  pwr : Pwr := {}
  tap : TapIr := .idcode
  fresh : Nat := 0
  outbox : List Sent := []
  pending : List Instr := []
  deriving DecidableEq, Repr

/-- The machine right after a power-on reset (18 R514): every field at the value the spec gives for reset, or at the one
that assumption 3 names. -/
def State.reset : State := {}

end Sys2Proof.Machine
end

