-- ==== Sys2Proof/Machine/Objects.lean ====
section
/-! DEFINITION. The object table of the dictionary (14 R391 to R395 and the object tables of every chapter): type, access
class, size, default, permitted values and element count of each object, and the default of every setting. -/

namespace Sys2Proof.Machine

open Sys2Proof

/-- An object of the dictionary. typ is the code of 14 Table 14.1, acc that of Table 14.2; size is that of LIST; ranges are
the permitted values of a write, inclusive, none meaning any; count is the elements of an array. -/
structure ObjInfo where
  typ : Nat
  acc : Nat
  size : Nat
  dflt : Nat := 0
  ranges : List (Nat × Nat) := []
  count : Nat := 1
  deriving DecidableEq, Repr

/-- The key of an object in a configuration set. -/
def ob (idx sub : Nat) : Nat := idx * 256 + sub

/-- The size in bytes of a scalar type (14 Table 14.1). -/
def typSize (t : Nat) : Nat :=
  if t = 1 then 1 else if t = 2 ∨ t = 5 then 2 else if t = 3 ∨ t = 6 ∨ t = 7 then 4 else 8

/-- A scalar ro object. -/
def oRo (t : Nat) (d : Nat := 0) : Option ObjInfo := some ⟨t, 1, typSize t, d, [], 1⟩
/-- A scalar rw-s object. -/
def oRw (t d : Nat) (r : List (Nat × Nat) := []) : Option ObjInfo := some ⟨t, 2, typSize t, d, r, 1⟩
/-- A scalar wo object. -/
def oWo (t : Nat) : Option ObjInfo := some ⟨t, 4, typSize t, 0, [], 1⟩
/-- A BLOB or STR of an access class and a greatest length. -/
def oBlob (acc n : Nat) : Option ObjInfo := some ⟨10, acc, n, 0, [], 1⟩
/-- An array object. -/
def oArr (acc size count : Nat) : Option ObjInfo := some ⟨10, acc, size, 0, [], count⟩
/-- A STR of a length. -/
def oStr (n : Nat) : Option ObjInfo := some ⟨9, 1, n, 0, [], 1⟩

/-- 03 Table 03.15. -/
def objLanes (idx sub : Nat) : Option ObjInfo :=
  if idx = 0x4000 then
    match sub with
    | 1 => oRw 1 1 -- the map gives no range: any value is taken, and 1 alone enables (assumption 167)
    | 2 => oRw 3 800 [(100, 5000)]
    | 3 => oRw 2 4 [(1, 1000)]
    | _ => none
  else if idx = 0x4001 then
    if 1 ≤ sub ∧ sub ≤ 0x3A then oRw 1 3 [(1, 3)] else none
  else if 0x4100 ≤ idx ∧ idx ≤ 0x41DD then
    match sub with
    | 1 => oRo 2
    | 2 => oWo 4
    | 3 => oRo 1
    | 4 | 5 | 6 => oRo 3
    | 7 | 8 => oRo 4
    | _ => none
  else if 0x4200 ≤ idx ∧ idx ≤ 0x425F then
    match sub with
    | 1 => oRw 1 (natSub idx 0x4200)
    | 2 => oRw 1 2 [(1, 5)]
    | 3 => oRw 1 4 [(1, 4)]
    | 4 => oRw 1 1 [(1, 2), (4, 4), (8, 8)]
    | 5 => oRo 2 (natSub idx 0x4200)
    | 6 => oRo 4
    | _ => if 7 ≤ sub ∧ sub ≤ 0x10 then oRo 3 else none
  else none

/-- 04 Table 04.5 and 05 Table 05.11: objects of the filter chain. -/
def objFilter (idx sub : Nat) : Option ObjInfo :=
  if idx = 0x5000 then
    match sub with
    | 0x01 => oRw 3 0
    | 0x02 => oRw 2 5 [(2, 1000)]
    | 0x03 => oRw 1 0 [(0, 1)]
    | 0x04 => oWo 2
    | 0x10 => oRw 2 8192 [(1024, 1024), (2048, 2048), (4096, 4096), (8192, 8192), (16384, 16384)]
    | 0x11 => oRw 1 1 [(1, 2), (4, 4), (8, 8), (16, 16)]
    | 0x12 => oRw 1 0 [(0, 1)]
    | 0x13 => oRw 2 0
    | 0x14 => oRw 2 4096
    | 0x15 => oRw 2 0
    | 0x16 => oRw 1 0 [(0, 1)]
    | 0x17 => oWo 8
    | 0x18 => oBlob 4 16
    | 0x19 => oRw 3 0
    | _ => none
  else if 0x5100 ≤ idx ∧ idx ≤ 0x527F then
    match sub with
    | 0x01 => oRw 1 1 [(0, 1)]
    | 0x02 => oRw 1 0 [(0, 2)]
    | 0x03 => oRw 1 7 [(5, 5), (7, 7), (9, 9)]
    | 0x04 => oRw 2 96 [(16, 1023)]
    | 0x05 => oRw 1 10 [(4, 16)]
    | 0x06 => oRw 2 4 [(1, 4095)]
    | 0x07 => oRw 2 16 [(1, 4095)]
    | 0x08 => oRw 1 0 [(0, 1)]
    | 0x09 => oRw 2 0
    | 0x10 => oBlob 3 32
    | 0x11 => oRo 4
    | 0x12 => oRo 3
    | 0x13 => oRo 3 65536
    | 0x14 => oRo 2
    | 0x15 => oRo 2
    | 0x16 => oRo 8
    | 0x17 | 0x18 | 0x19 => oRo 3
    | 0x1A => oRo 1
    | 0x1B => oRo 4
    | 0x1C => oRo 3
    | 0x1D => oRo 3 65536
    | 0x20 => oBlob 3 (16 + 4 * 16384)
    | 0x21 => oRw 1 13 [(0, 40)]
    | 0x22 => oRo 2
    | 0x23 => oRo 4
    | 0x24 | 0x25 => oRo 3
    | 0x26 => oRo 8
    | 0x27 => oRo 3
    | _ => none
  else if 0x5300 ≤ idx ∧ idx ≤ 0x5317 then
    match sub with
    | 0x01 | 0x02 => oRo 3
    | 0x03 | 0x04 => oBlob 4 264224
    | 0x05 => oWo 2
    | 0x06 => oRo 3 0x2014
    | 0x07 | 0x08 => oRo 3 1
    | 0x09 => oRo 8
    | 0x0A => oRo 6 2099072
    | 0x0B | 0x0C | 0x0D => oRo 3
    | _ => none
  else none

/-- 06 Table 06.13. -/
def objRelay (idx sub : Nat) : Option ObjInfo :=
  if idx = 0x6100 then
    match sub with
    | 0x01 | 0x02 => oRw 1 1 [(1, 8)]
    | 0x03 => oRw 1 0
    | 0x04 => oRw 2 10 [(1, 1000)]
    | 0x05 => oRw 2 4 [(1, 1000)]
    | 0x06 => oRw 1 1
    | 0x07 | 0x08 | 0x09 => oRo 1 0xFF
    | 0x0A => oRo 4
    | 0x0B => oRo 1
    | 0x0C => oRo 2 180
    | 0x0D => oRo 1
    | 0x0E => oBlob 4 16
    | 0x0F => oRo 8
    | _ => none
  else if 0x6110 ≤ idx ∧ idx ≤ 0x6113 then
    match sub with
    | 0x01 => oRo 2
    | 0x02 => oRo 4
    | 0x03 => oRo 2
    | 0x04 => oRo 6
    | 0x05 | 0x06 => oRo 4
    | 0x0E => oRo 2 0x1F1F
    | _ => if 7 ≤ sub ∧ sub ≤ 0x0D then oRo 3 else none
  else none

/-- 07 Table 07.10, 08 Table 08.9, 16 Table 16.13: fabric, beam and accumulation objects. -/
def objFabric (idx sub : Nat) : Option ObjInfo :=
  if idx = 0x7010 then
    match sub with
    | 0x01 => oRo 2 1536
    | 0x02 => oRo 2 8192
    | 0x03 => oRo 3 1176
    | 0x04 | 0x05 | 0x07 | 0x08 | 0x09 | 0x0A | 0x0B => oRo 3
    | 0x06 | 0x0C | 0x0D => oRo 2
    | _ => none
  else if idx = 0x7040 then
    match sub with
    | 0x01 | 0x02 | 0x03 | 0x04 | 0x05 => oRw 2 0
    | 0x06 => oRw 1 0 [(0, 1)]
    | 0x07 => oRw 1 16
    | 0x08 => oRw 1 10 [(0, 40)]
    | 0x09 => oRw 2 256
    | 0x0A => oRw 2 1
    | 0x0B => oBlob 3 16
    | 0x0C => oRo 3
    | 0x0D => oRo 2
    | 0x0E => oRo 8
    | 0x0F | 0x10 | 0x11 => oRo 4
    | 0x12 => oRo 3
    | 0x13 => oRw 3 0
    | 0x14 | 0x15 | 0x16 | 0x17 => oRo 3
    | _ => none
  else if 0x7200 ≤ idx ∧ idx ≤ 0x725F then
    match sub with
    | 0x01 => oRw 1 0
    | 0x02 => oBlob 1 16
    | 0x03 => oRo 2
    | 0x04 | 0x09 => oRo 4
    | 0x05 | 0x06 | 0x08 | 0x0A | 0x0B => oRo 3
    | 0x07 => oRo 3 0x30
    | _ => none
  else if idx = 0x7000 then
    if sub = 4 then oRw 2 8 [(1, 32768)] else none
  else if idx = 0x7100 then
    match sub with
    | 0x01 => oRw 1 0 [(0, 2)]
    | 0x02 => oRw 1 0 [(0, 8)]
    | 0x03 => oRw 4 0
    | 0x04 | 0x05 => oRw 2 0
    | 0x06 => oRw 3 0x2545F491
    | _ => none
  else if idx = 0x7120 then
    match sub with
    | 0x01 | 0x04 | 0x05 | 0x06 | 0x07 | 0x08 => oRo 3
    | 0x03 => oRo 2 8192
    | 0x09 => oRo 4
    | 0x0A => oRo 8
    | _ => none
  else none

/-- 09 Table 09.9: DRAM objects. -/
def objDram (idx sub : Nat) : Option ObjInfo :=
  if idx = 0x8000 then
    match sub with
    | 0x01 => oRw 3 8000
    | 0x02 => oRw 3 256 [(4, 4096)]
    | 0x03 => oRw 3 1000
    | 0x04 => oRw 3 4 [(4, 256)]
    | 0x05 => oRw 3 3600 [(600, 604800)]
    | 0x06 => oRo 3 655360
    | 0x07 | 0x08 | 0x0A | 0x0C | 0x0D | 0x0E => oRo 4
    | 0x09 => oRo 3
    | 0x0B => oRw 1 0
    | _ => none
  else if 0x8001 ≤ idx ∧ idx ≤ 0x8003 then
    if 1 ≤ sub ∧ sub ≤ 7 then oRo 3 else none
  else if 0x8010 ≤ idx ∧ idx ≤ 0x8013 then
    match sub with
    | 0x01 => oRo 1
    | 0x02 => oRo 5
    | 0x03 | 0x04 | 0x05 => oRo 3
    | _ => if 6 ≤ sub ∧ sub ≤ 0x0A then oRo 4 else none
  else none

/-- 10 Table 10.13: compression and Envelope objects. -/
def objOutput (idx sub : Nat) : Option ObjInfo :=
  if idx = 0x8100 then
    match sub with
    | 0x01 => oRw 1 1 [(0, 2)]
    | 0x02 => oRw 2 32768 [(8192, 8192), (16384, 16384), (32768, 32768)]
    | 0x03 => oRw 1 0
    | 0x04 => oRw 2 50 [(10, 1000)]
    | 0x05 => oRw 1 4 [(1, 16)]
    | 0x06 => oRw 1 1
    | 0x07 => oRw 3 800 [(100, 5000)]
    | 0x08 | 0x0A | 0x12 | 0x13 => oRo 3
    | 0x09 | 0x0B | 0x0C | 0x0F | 0x10 | 0x11 => oRo 4
    | 0x0D => oRo 2 1024
    | 0x0E => oBlob 4 16
    | _ => none
  else if 0x8110 ≤ idx ∧ idx ≤ 0x811F then
    match sub with
    | 1 => oRo 2 (natSub idx 0x8110)
    | 2 | 3 | 4 => oRo 3
    | 5 => oRo 4
    | _ => none
  else if 0x8130 ≤ idx ∧ idx ≤ 0x8137 then
    match sub with
    | 1 | 2 => oRo 4
    | 3 | 4 | 5 | 6 => oRo 3
    | _ => none
  else none

/-- 15 Table 15.9. -/
def objTime (idx sub : Nat) : Option ObjInfo :=
  if idx = 0x2200 then
    match sub with
    | 0x01 | 0x02 => oRo (if sub = 1 then 8 else 4)
    | 0x03 => oBlob 4 24
    | 0x04 => oRo 3
    | 0x05 => oRw 1 2 [(1, 64)]
    | 0x06 => oBlob 1 32
    | 0x07 => oRo 6
    | 0x08 | 0x09 | 0x0A | 0x0B => oRo 3
    | _ => none
  else if 0x2210 ≤ idx ∧ idx ≤ 0x2212 then
    match sub with
    | 0x01 => oRw 1 (if idx = 0x2210 then 1 else 0) [(0, 2)]
    | 0x02 => oRw 1 0 [(0, 1)]
    | 0x03 => oRw 1 0 [(0, 127)]
    | 0x04 | 0x05 => oRw 1 0 [(0, 1)]
    | 0x06 => oRw 3 50 [(10, 100000)]
    | 0x07 => oRw 3 10000 [(1000, 1000000000)]
    | 0x08 => oRw 1 1 [(0, 1)]
    | 0x09 | 0x0A | 0x0B => oRw 6 0
    | 0x0C => oRo 3
    | 0x0D => oBlob 1 16
    | 0x0E => oRo 2
    | 0x0F => oRo 6
    | 0x10 => oRo 3
    | 0x11 => oRo 6
    | 0x12 => oRo 4
    | 0x13 => oRo 3
    | _ => none
  else if idx = 0x2220 then
    match sub with
    | 0x01 => oRo 4
    | 0x02 => oRo 6
    | _ => none
  else none

/-- 14 R397: the link-local address of the serial number. -/
def linkLocal : Nat :=
  let j := Config.serialNumber % 2 ^ 64 % 65024
  169 * 2 ^ 24 + 254 * 65536 + (1 + j / 256) * 256 + j % 256
/-- 14 Table 14.5: identity and communication. -/
def objIdent (idx sub : Nat) : Option ObjInfo :=
  if idx = 0x1000 then
    match sub with
    | 1 | 2 | 3 => oStr 64
    | 4 | 6 | 7 => oRo 4
    | 5 => oRo 2 1
    | _ => none
  else if idx = 0x1010 ∨ idx = 0x1020 then
    match sub with
    | 1 => oRw 3 linkLocal
    | 2 => oRw 3 0xFFFF0000
    | 3 => oRw 3 0
    | 4 => oRw 2 40310 [(1024, 65535)]
    | _ =>
      if idx = 0x1010 then none
      else match sub with
        | 5 => oRw 1 255
        | 6 => oRw 1 8 [(1, 255)]
        | 7 => oRw 1 0
        | 8 => oRw 1 0 [(0, 31)]
        | 9 => oRw 1 0
        | 0xA => oRw 2 0
        | _ => none
  else if idx = 0x1030 then
    match sub with
    | 1 => oRw 1 1
    | 2 => oRw 1 1 [(1, 126)]
    | 3 => oRw 2 20 [(10, 200)]
    | _ => none
  else if idx = 0x1040 then
    match sub with
    | 1 => oRo 4
    | 2 | 3 | 4 | 5 => oRo 3
    | _ => none
  else none

/-- 14 Table 14.16, 18 Table 18.11, 13 Table 13.9, 16 Table 16.13: device management. -/
def objDevice (idx sub : Nat) : Option ObjInfo :=
  if idx = 0x2000 then
    match sub with
    | 1 => oWo 3
    | 2 => oWo 2
    | 3 | 4 | 5 | 6 | 7 | 0x11 => oRo 3
    | 0x10 | 0x20 => oWo 8
    | 0x12 | 0x21 | 0x22 => oRo 8
    | 0x23 => oRo 1
    | _ => none
  else if idx = 0x2100 then
    match sub with
    | 1 => oRo 1
    | 2 | 3 => oRo 4
    | 4 => oRo 1 0xFF
    | 5 => oRo 8
    | _ => none
  else if idx = 0x2101 ∨ idx = 0x2102 then
    if 1 ≤ sub ∧ sub ≤ 0xB then oRo 3 else none
  else if idx = 0x2110 then
    if 1 ≤ sub ∧ sub ≤ 8 then oRo 3 else if sub = 9 then oRo 2 else none
  else if idx = 0x2300 then
    match sub with
    | 1 => oRw 3 250 [(1, 60000)]
    | 2 => oRw 3 3600 [(1, 86400)]
    | 3 => oRw 1 3 [(1, 255)]
    | 4 => oRw 3 0 [(0, 0), (96, 31536000)]
    | 5 | 7 | 0xB => oRo 4
    | 6 => oWo 4
    | 8 => oRo 3
    | 9 => oWo 2
    | 0xA => oBlob 4 16
    | 0xC | 0xD => oRo 2
    | _ => none
  else if idx = 0x2301 ∨ idx = 0x2302 then
    if sub = 1 then oArr 1 16 4096 else none
  else if idx = 0x2400 then
    match sub with
    | 0xA => oRo 3
    | 0xB | 0xC => oRo 5
    | 0xD => oRw 1 100 [(85, 105)]
    | 0xE => oRo 2
    | _ => if 1 ≤ sub ∧ sub ≤ 9 then oRo 2 else none
  else none

/-- A cs object. -/
def oCs (typ n : Nat) : Option ObjInfo := some ⟨typ, 5, n, 0, [], 1⟩
/-- 17 Tables 17.1 and 17.7: the enclave. -/
def objEnclave (idx sub : Nat) : Option ObjInfo :=
  if idx = 0x3000 then
    match sub with
    | 1 | 5 | 6 | 8 | 9 => oRo 3
    | 2 => oRo 2
    | 3 => oRo 2 4096
    | 4 => oCs 3 4
    | 7 => oRo 4
    | 0xA => oArr 1 32 256
    | 0xD => oRo 2 1
    | _ => none
  else if sub ≠ 1 then none
  else if 0x3010 ≤ idx ∧ idx ≤ 0x301F then oCs 10 264224
  else if idx = 0x3020 then oCs 10 3072
  else if idx = 0x3021 then oCs 10 48
  else if idx = 0x3022 then oCs 10 786432
  else none

/-- 14 Table 14.16, 11 Table 11.11, 12 Table 12.17: Timetable, Courier, Tally cores. -/
def objControl (idx sub : Nat) : Option ObjInfo :=
  if idx = 0x6000 then
    match sub with
    | 1 => oBlob 4 16
    | 2 => oRo 4
    | 3 => oRo 8
    | 4 => oRo 3 0xFFFFFFFF
    | 5 | 6 | 7 | 8 | 9 => oRo 3
    | 0xA => oRo 3 1
    | _ => none
  else if idx = 0x8200 then
    match sub with
    | 2 => oBlob 4 16
    | 3 => oWo 3
    | 4 | 5 | 6 | 7 | 0xA => oRo 4
    | 8 | 9 | 0xB | 0xC | 0xD => oRo 3
    | 0xE => oBlob 1 256
    | 0xF => oRo 1
    | _ => if 0x10 ≤ sub ∧ sub ≤ 0x1F then oRw 4 0 else none
  else if idx = 0x8201 then
    if sub = 1 then oArr 1 16 262144 else none
  else if 0x9100 ≤ idx ∧ idx ≤ 0x9103 then
    match sub with
    | 1 => oWo 3
    | 2 => oRo 2 0x80
    | 3 | 9 | 0xB | 0xD | 0xE | 0xF | 0x10 | 0x11 | 0x12 => oRo 3
    | 4 => oBlob 4 262160
    | 5 => oWo 1
    | 6 | 7 | 0xC => oRo 4
    | 8 => oRo 1
    | 0xA => oRo 2
    | _ => none
  else none

/-- The object table: none where an index or subindex other than 0 does not exist. -/
def objInfo (idx sub : Nat) : Option ObjInfo :=
  if idx < 0x2000 then objIdent idx sub
  else if idx < 0x2200 then objDevice idx sub
  else if idx < 0x2300 then objTime idx sub
  else if idx < 0x3000 then objDevice idx sub
  else if idx < 0x4000 then objEnclave idx sub
  else if idx < 0x5000 then objLanes idx sub
  else if idx < 0x6000 then objFilter idx sub
  else if idx < 0x6100 then objControl idx sub
  else if idx < 0x7000 then objRelay idx sub
  else if idx < 0x8000 then objFabric idx sub
  else if idx < 0x8100 then objDram idx sub
  else if idx < 0x8200 then objOutput idx sub
  else objControl idx sub

/-- The index ranges that exist, in order (14 Table 14.3). -/
def indexRanges : List (Nat × Nat) :=
  [(0x1000, 0x1000), (0x1010, 0x1010), (0x1020, 0x1020), (0x1030, 0x1030), (0x1040, 0x1040), (0x2000, 0x2000),
   (0x2100, 0x2102), (0x2110, 0x2110), (0x2200, 0x2200), (0x2210, 0x2212), (0x2220, 0x2220), (0x2300, 0x2302),
   (0x2400, 0x2400), (0x3000, 0x3000), (0x3010, 0x3022), (0x4000, 0x4001), (0x4100, 0x41DD), (0x4200, 0x425F),
   (0x5000, 0x5000), (0x5100, 0x527F), (0x5300, 0x5317), (0x6000, 0x6000), (0x6100, 0x6100), (0x6110, 0x6113),
   (0x7000, 0x7000), (0x7010, 0x7010), (0x7040, 0x7040), (0x7100, 0x7100), (0x7120, 0x7120), (0x7200, 0x725F),
   (0x8000, 0x8003), (0x8010, 0x8013), (0x8100, 0x8100), (0x8110, 0x811F), (0x8130, 0x8137), (0x8200, 0x8201),
   (0x9100, 0x9103)]
/-- An index exists. -/
def indexExists (idx : Nat) : Bool := indexRanges.any fun r => decide (r.1 ≤ idx ∧ idx ≤ r.2)
/-- The subindices above 0 in use at an index. -/
def subsOf (idx : Nat) : List Nat := (List.range 256).filter fun k => (objInfo idx k).isSome
/-- An object of the dictionary, subindex 0 included: U8 ro, the highest subindex in use (14 R391). -/
def objAt (idx sub : Nat) : Option ObjInfo :=
  if sub = 0 then (if indexExists idx then some ⟨1, 1, 1, (subsOf idx).foldl max 0, [], 1⟩ else none) else objInfo idx sub
/-- The least existing index at or above one. -/
def nextIndex (idx : Nat) : Option Nat :=
  match indexRanges.find? fun r => decide (idx ≤ r.2) with
  | some r => some (max idx r.1)
  | none => none
/-- The first existing object at or after one (14 R400, LIST). -/
def nextObj (idx sub : Nat) : Option (Nat × Nat) :=
  let here : Option (Nat × Nat) :=
    if indexExists idx then
      if sub = 0 then some (idx, 0) else ((subsOf idx).find? fun k => decide (sub ≤ k)).map fun k => (idx, k)
    else none
  match here with
  | some x => some x
  | none => (nextIndex (idx + 1)).map fun i => (i, 0)
/-- The common set (14 Table 14.4) in ascending order. -/
def commonObjs : List Nat :=
  ((List.range 28).map fun k => ob 0x4001 (0x1A + k)) ++ [ob 0x5000 0x10, ob 0x5000 0x11, ob 0x5000 0x12, ob 0x5000 0x13,
   ob 0x5000 0x14, ob 0x6100 1, ob 0x6100 2] ++ (List.range 96).map fun k => ob (0x7200 + k) 1

end Sys2Proof.Machine
end

