-- ==== Sys2Proof/Machine/Ops.lean ====
section
/-! DEFINITION. The operations every family shares: access to lanes, inputs, engines and blocks, settings in force for a
stamp (02 R28, 14 R412), raising Postcards (16 R453 to R455), the checkers with injection (16 R465), CRC-32 (03 R84). -/

namespace Sys2Proof.Machine

open Sys2Proof

/-! ### Time -/

/-- The local Postmark counter (15 R426); the control-domain copy is the same value (DESIGN CHOICE, assumption 6). -/
def State.pm (s : State) : Nat := s.time.pm
/-- The Postmark that data has reached: no step of the counter takes it back (15 R429). -/
def State.dataPm (s : State) : Nat := s.time.pm + s.time.lead
/-- Ticks of the sample clock since it first ran: what the model measures intervals with, since a step of the counter
does not change them (15 R429). -/
def State.now (s : State) : Nat := s.time.mono
/-- A stamp past every latched set: the settings of the active image. -/
def lastSet : Nat := 2 ^ 70
/-- TB-K in ms (15 R443). -/
def State.tbk (s : State) : Nat := s.time.tbk

/-- Ticks in a number of microseconds. -/
def us (n : Nat) : Nat := n * 250
/-- Ticks in a number of milliseconds. -/
def ms (n : Nat) : Nat := n * 250000

/-! ### CRC-32 (03 R84) -/

/-- One bit of the reflected CRC register. -/
def crcBit (c : Nat) : Nat := if c % 2 = 1 then (c / 2) ^^^ 0xEDB88320 else c / 2
/-- One byte of the CRC register. -/
def crcByte (c b : Nat) : Nat :=
  crcBit (crcBit (crcBit (crcBit (crcBit (crcBit (crcBit (crcBit (c ^^^ b))))))))
/-- The CRC register after bytes. -/
def crcRun (c : Nat) : List Byte → Nat
  | [] => c
  | b :: r => crcRun (crcByte c b.toNat) r
/-- CRC-32 of bytes: polynomial 0x04C1_1DB7, initial value and final xor 0xFFFF_FFFF, reflected (03 R84). -/
def crc32 (bs : List Byte) : Nat := crcRun 0xFFFFFFFF bs ^^^ 0xFFFFFFFF

/-! ### Blocks (02 Table 02.2) -/

/-- The type code of a source number, none for a reserved one (02 R23). -/
def blockType (n : Nat) : Option Nat :=
  if n ≤ 0x63 then some 0x01 else if n ≤ 0xCB then some 0x02 else if n ≤ 0xDD then some 0x03
  else if n = 0xDE then some 0x04 else if n = 0xDF then some 0x05
  else if 0x100 ≤ n ∧ n ≤ 0x117 then some 0x10
  else if 0x120 ≤ n ∧ n ≤ 0x123 then some 0x11
  else if 0x140 ≤ n ∧ n ≤ 0x19F then some 0x20
  else if 0x200 ≤ n ∧ n ≤ 0x8BF then some 0x21
  else if 0x900 ≤ n ∧ n ≤ 0x903 then some 0x30
  else if 0x910 ≤ n ∧ n ≤ 0x913 then some 0x31
  else if 0x920 ≤ n ∧ n ≤ 0x927 then some 0x40
  else if n = 0x930 then some 0x41 else if n = 0x940 then some 0x50
  else if 0xA00 ≤ n ∧ n ≤ 0xA03 then some 0x60
  else if n = 0xA10 ∨ n = 0xA11 then some 0x61
  else if n = 0xA20 then some 0x62 else if n = 0xA30 then some 0x63 else if n = 0xA40 then some 0x64
  else if n = 0xA50 then some 0x65 else if n = 0xA60 then some 0x66 else if n = 0xA70 then some 0x67
  else if n = 0xA80 then some 0x68 else none

/-- A block at reset: PLAIN is 1 in filter engines (02 R27). -/
def blkInit (n : Nat) : Blk := { plain := decide (0x100 ≤ n ∧ n ≤ 0x117) }
/-- A block's state. -/
def State.blk (s : State) (n : Nat) : Blk := s.dict.blks.get blkInit n
/-- Change a block's state. -/
def State.modBlk (s : State) (n : Nat) (f : Blk → Blk) : State :=
  { s with dict := { s.dict with blks := s.dict.blks.set blkInit n (f (s.blk n)) } }

/-! ### Settings -/

/-- The default of an object's setting. -/
def objDefault (k : Nat) : Nat := match objInfo (k / 256) (k % 256) with | some o => o.dflt | none => 0

/-- The set in force for data stamped t (14 R412): the latched set with the latest Postmark at or before t. -/
def setOf (t : Nat) : List (Nat × Tab Nat) → Tab Nat → Tab Nat
  | [], acc => acc
  | (p, m) :: r, acc => setOf t r (if p ≤ t then m else acc)
/-- The value of a setting in force for data stamped t (02 R28). -/
def State.cfgAt (s : State) (t o : Nat) : Nat := (setOf t s.dict.sets s.dict.base).get objDefault o
/-- The active image (14 R413): the last set latched. -/
def State.active (s : State) : Tab Nat := match s.dict.sets.getLast? with | some x => x.2 | none => s.dict.base
/-- The active value of a setting. -/
def State.cfg (s : State) (o : Nat) : Nat := s.active.get objDefault o

/-! ### Postcards -/

/-- The class of an enclave or Hamper-domain kind (17 Table 17.5, 18 Table 18.8). -/
def hamperClass (ty k : Nat) : Nat :=
  if ty = 0x67 then
    if k = 1 ∨ k = 2 ∨ k = 9 then 0 else if k = 3 ∨ k = 6 then 3 else if k = 4 then 8
    else if k = 5 ∨ k = 8 then 5 else if k = 7 then 1 else 0
  else
    if k = 3 ∨ k = 4 then 5 else if k = 8 then 3 else if k = 1 ∨ k = 2 ∨ (5 ≤ k ∧ k ≤ 7) then 8 else 0

/-- The reaction map (16 Table 16.4): class and reaction of a type's kind. -/
def reactMap (ty k : Nat) : Nat × Reaction :=
  if k = 0xF0 then (3, .note)
  else if ty ≤ 3 then
    if k = 0x01 ∨ k = 0x0B then (4, .hold)
    else if k = 0x02 ∨ k = 0x07 ∨ k = 0x0D then (4, .note)
    else if k = 0x03 ∨ k = 0x0E then (3, .note)
    else if (0x04 ≤ k ∧ k ≤ 0x06) ∨ (0x08 ≤ k ∧ k ≤ 0x0A) then (2, .note)
    else (0, .note)
  else if ty = 0x10 then
    if (1 ≤ k ∧ k ≤ 5) ∨ k = 9 ∨ (0x0B ≤ k ∧ k ≤ 0x0F) ∨ (0x13 ≤ k ∧ k ≤ 0x15) then (3, .note)
    else if k = 0x0A then (2, .note)
    else if k = 7 ∨ k = 0x10 then (1, .correct)
    else if k = 8 ∨ k = 0x11 then (5, .correct)
    else (0, .note)
  else if ty = 0x11 then
    if k = 1 then (4, .hold)
    else if (2 ≤ k ∧ k ≤ 4) ∨ k = 7 ∨ k = 9 then (4, .note)
    else if k = 5 ∨ k = 6 then (2, .note)
    else if k = 0x0A ∨ k = 0x0B then (6, .note)
    else if k = 0x0C then (3, .note)
    else if k = 0x0D then (7, .note)
    else (0, .note)
  else if ty = 0x20 then
    if (1 ≤ k ∧ k ≤ 3) ∨ k = 6 then (2, .note)
    else if k = 4 then (1, .correct) else if k = 5 then (5, .correct)
    else if k = 0x0D then (5, .note)
    else if 8 ≤ k ∧ k ≤ 0x0C then (3, .note)
    else (0, .note)
  else if ty = 0x21 then
    if k = 1 then (5, .promote) else if k = 5 ∨ k = 6 then (5, .isolate)
    else if k = 3 then (5, .note) else (0, .note)
  else if ty = 0x30 then
    if k = 1 then (1, .correct) else if k = 2 then (5, .correct)
    else if k = 3 ∨ k = 6 then (5, .note) else if k = 4 then (8, .note)
    else if k = 5 then (3, .note) else (0, .note)
  else if ty = 0x31 then
    if k = 2 then (3, .note) else if 3 ≤ k ∧ k ≤ 5 then (2, .note)
    else if k = 6 then (8, .note) else (0, .note)
  else if ty = 0x40 then
    if k = 1 ∨ k = 3 then (5, .correct) else if k = 2 then (1, .correct)
    else if k = 4 then (8, .note) else (0, .note)
  else if ty = 0x41 then
    if k = 1 ∨ k = 2 ∨ k = 8 then (8, .note)
    else if k = 3 ∨ k = 4 ∨ k = 7 then (4, .note)
    else if k = 5 then (1, .correct) else if k = 6 then (5, .correct) else (0, .note)
  else if ty = 0x50 then
    if k = 2 then (3, .note) else if k = 3 then (5, .note) else (0, .note)
  else if ty = 0x60 then
    if (1 ≤ k ∧ k ≤ 4) ∨ (9 ≤ k ∧ k ≤ 0x0C) then (3, .note)
    else if k = 5 ∨ k = 7 then (1, .correct) else if k = 6 ∨ k = 8 then (5, .correct) else (0, .note)
  else if ty = 0x61 then
    if k = 2 ∨ k = 4 ∨ k = 5 then (6, .hold) else if k = 1 ∨ k = 3 ∨ k = 8 then (6, .note)
    else if k = 7 ∨ k = 9 then (1, .note) else (0, .note)
  else if ty = 0x62 then
    if 1 ≤ k ∧ k ≤ 5 then (3, .note) else if k = 6 then (1, .correct)
    else if k = 7 then (5, .correct) else (0, .note)
  else if ty = 0x63 then (if k = 1 then (3, .note) else (0, .note))
  else if ty = 0x64 then (if k = 1 then (8, .note) else (0, .note))
  else if ty = 0x65 then
    if 1 ≤ k ∧ k ≤ 3 then (3, .note) else if k = 4 then (1, .correct)
    else if k = 5 then (5, .correct) else (0, .note)
  else if ty = 0x66 then
    if k = 1 ∨ k = 2 ∨ k = 3 ∨ k = 4 ∨ k = 6 ∨ k = 8 ∨ k = 0x0A ∨ k = 0x0C then (7, .note) else (0, .note)
  else if ty = 0x67 ∨ ty = 0x68 then (hamperClass ty k, .note)
  else (0, .note)

/-- The reaction of a source's kind, before any TEST class. -/
def reactionOf (src k : Nat) : Nat × Reaction :=
  match blockType src with | some ty => reactMap ty k | none => (0, .note)

/-- How many kinds of a type have a reaction other than NOTE (16 R455). -/
def keptPlaces (src : Nat) : Nat := ((List.range 0x16).filter fun k => (reactionOf src k).2 ≠ .note).length

/-- Raise a Postcard (16 R455): a kind whose reaction is not NOTE has a place of its own and merges with one that waits; a
NOTE takes a free place or is dropped and counted. -/
def raiseT (test : Bool) (src kind addr : Nat) (s : State) : State :=
  let w := s.so.waiting
  if (reactionOf src kind).2 ≠ .note then
    if w.any (fun c => c.src == src && c.kind == kind) then
      { s with so := { s.so with waiting := w.map fun c =>
                                 if c.src = src ∧ c.kind = kind then { c with test := c.test && test } else c } }
    else { s with so := { s.so with waiting := w ++ [⟨src, kind, addr, test⟩] } }
  else
    let n := (w.filter fun c => c.src = src ∧ (reactionOf src c.kind).2 = .note).length
    if n + keptPlaces src < 8 then
      { s with so := { s.so with waiting := w ++ [⟨src, kind, addr, test⟩] } }
    else { s with so := { s.so with dropped := satAdd 32 s.so.dropped 1 } }

/-- Raise a Postcard that no injection causes. -/
def raise (src kind addr : Nat) (s : State) : State := raiseT false src kind addr s

/-- Raise a Postcard of a kind that is raised at most once in an interval (ticks), counted from the last raise
(DESIGN CHOICE, assumption 7). sub tells apart what the limit counts separately. -/
def raiseLimT (test : Bool) (interval src kind sub addr : Nat) (s : State) : State :=
  let key := (src * 256 + kind) * 512 + sub
  let last := s.so.lastRaise.get (fun _ => 0) key
  if last = 0 ∨ s.now + 1 ≥ last + interval then
    raiseT test src kind addr
      { s with so := { s.so with lastRaise := s.so.lastRaise.set (fun _ => 0) key (s.now + 1) } }
  else s
/-- The same for a Postcard that no injection causes. -/
def raiseLim (interval src kind sub addr : Nat) (s : State) : State := raiseLimT false interval src kind sub addr s

/-! ### Free values -/

/-- The next argument of the free functions of Config. -/
def State.draw (s : State) : Nat × State := (s.fresh, { s with fresh := s.fresh + 1 })

/-! ### Checkers and injection (16 R465) -/

/-- The worse of two reports. -/
def eccWorse : Ecc → Ecc → Ecc
  | .uncorrectable, _ => .uncorrectable
  | _, .uncorrectable => .uncorrectable
  | .corrected, _ => .corrected
  | _, e => e

/-- The number of ones of the low bits of a mask. -/
def ones : Nat → Nat → Nat
  | 0, _ => 0
  | n + 1, x => x % 2 + ones n (x / 2)

/-- What SECDED reports for an injected mask: one bit corrected, two uncorrectable, three to eight whatever the code
gives (16 R465): a free value. -/
def maskEcc (mask fresh : Nat) : Ecc :=
  match ones 8 mask with
  | 0 => .ok
  | 1 => .corrected
  | 2 => .uncorrectable
  | _ => if Config.secdedUncorrectable mask fresh then .uncorrectable else .corrected

/-- Count one check of an injection; at the last one the injection ends and INJECT_DONE is raised (16 R465). -/
def injCount (i : Injection) (s : State) : State :=
  if i.count ≤ 1 then raise 0xA40 4 i.src { s with so := { s.so with inj := none } }
  else { s with so := { s.so with inj := some { i with count := i.count - 1 } } }

/-- The injection that acts on a checker of a block, if one is active. -/
def injFor (src checker : Nat) (s : State) : Option Injection :=
  match s.so.inj with
  | some i => if i.src = src ∧ i.checker = checker then some i else none
  | none => none

/-- One check by a SECDED checker: the report e of the words as stored, worsened by an active injection. Gives the
report, whether its Postcards are TEST (16 R465, REACT = 0), and the state with the injection counted. -/
def eccCheck (src checker : Nat) (e : Ecc) (s : State) : Ecc × Bool × State :=
  match injFor src checker s with
  | some i =>
    let (k, s1) := s.draw
    (eccWorse e (maskEcc i.mask k), !i.react, injCount i s1)
  | none => (e, false, s)

/-- The data bit that such a check of a sound word corrects falsely: the code may correct one for a mask of three to eight bits
(16 R465). Taken from the state before the check. -/
def eccFlip (src checker : Nat) (e : Ecc) (s : State) : Option Nat :=
  match injFor src checker s with
  | some i =>
    let b := Config.secdedBit i.mask s.fresh % 72
    if e = .ok ∧ 3 ≤ ones 8 i.mask ∧ maskEcc i.mask s.fresh = .corrected ∧ b < 64 then some b else none
  | none => none
/-- A word as its reader receives it after a check. -/
def flipIn (o : Option Nat) (w : Nat) : Nat := match o with | some b => w ^^^ 2 ^ b | none => w

/-- The xor that an active injection applies to a received CRC (16 Table 16.8, checker 0x03), with the TEST mark. -/
def crcInject (src : Nat) (s : State) : Nat × Bool × State :=
  match injFor src 3 s with
  | some i => (i.mask, !i.react, injCount i s)
  | none => (0, false, s)

/-- The same for a frame that reaches its CRC check; one that fails before it uses up none of COUNT. -/
def crcReached (reached : Bool) (src : Nat) (s : State) : Nat × Bool × State := if reached then crcInject src s else (0, false, s)

/-! ### Sending -/

/-- Add what the part sends; the newest stands first (assumption 5). -/
def State.send (s : State) (m : Sent) : State := { s with outbox := m :: s.outbox }

/-! ### Frame lengths (02 R43, R545) -/

/-- The sample period p of an input's logical lane for data stamped t. -/
def State.inP (s : State) (t i : Nat) : Nat := s.cfgAt t (ob (0x4200 + i / 4) 4)
/-- N for data stamped t. -/
def State.fftN (s : State) (t : Nat) : Nat := s.cfgAt t (ob 0x5000 0x10)
/-- D for data stamped t. -/
def State.decD (s : State) (t : Nat) : Nat := s.cfgAt t (ob 0x5000 0x11)
/-- F of an input (02 R43). -/
def State.inF (s : State) (t i : Nat) : Nat := s.fftN t * s.decD t * s.inP t i
/-- The largest of a list. -/
def maxOf (l : List Nat) : Nat := l.foldl max 0
/-- The largest F among an engine's inputs (02 R545). -/
def State.engF (s : State) (t e : Nat) : Nat :=
  s.fftN t * s.decD t * maxOf ((List.range 4).map fun q => s.cfgAt t (ob (0x4200 + 4 * e + q) 4))
/-- F_max of the chip (02 R545). -/
def State.chipF (s : State) (t : Nat) : Nat :=
  s.fftN t * s.decD t * maxOf ((List.range 96).map fun l => s.cfgAt t (ob (0x4200 + l) 4))
/-- T_B of the chip: 8,192 F_max (02 R44). -/
def State.tb (s : State) (t : Nat) : Nat := 8192 * s.chipF t
/-- 1 where the channel format is C8 (05 R129). -/
def State.c8 (s : State) (t : Nat) : Bool := s.cfgAt t (ob 0x5000 0x12) == 1
/-- A logical lane's inputs are complex (03 R84: FORMAT cplx-8). -/
def State.cplxIn (s : State) (t i : Nat) : Bool := s.cfgAt t (ob (0x4200 + i / 4) 2) == 4

/-! ### Units -/

def laneInit : Nat → Lane := fun _ => {}
/-- A lane by source number. -/
def State.lane (s : State) (l : Nat) : Lane := s.lanes.lane.get laneInit l
def State.setLane (s : State) (l : Nat) (v : Lane) : State :=
  { s with lanes := { s.lanes with lane := s.lanes.lane.set laneInit l v } }
def State.modLane (s : State) (l : Nat) (f : Lane → Lane) : State := s.setLane l (f (s.lane l))
def logInit : Nat → LogLane := fun _ => {}
/-- A logical ingest lane. -/
def State.logical (s : State) (l : Nat) : LogLane := s.lanes.logical.get logInit l
def State.modLogical (s : State) (l : Nat) (f : LogLane → LogLane) : State :=
  { s with lanes := { s.lanes with logical := s.lanes.logical.set logInit l (f (s.logical l)) } }
/-- The source number of the lane that serves logical lane L (03 R76). -/
def State.serving (s : State) (l : Nat) : Nat := match (s.logical l).phys with | some p => p | none => l
/-- The samples waiting for an input. -/
def State.ingestQ (s : State) (i : Nat) : List Chunk := s.lanes.ingest.get (fun _ => []) i
def State.setIngest (s : State) (i : Nat) (q : List Chunk) : State :=
  { s with lanes := { s.lanes with ingest := s.lanes.ingest.set (fun _ => []) i q } }
def frameInit : Nat → FrameRec := fun _ => {}
def condInit : Nat → Cond := fun _ => {}
/-- An input's conditioning. -/
def State.cond (s : State) (i : Nat) : Cond := s.filt.cond.get condInit i
def State.setCond (s : State) (i : Nat) (v : Cond) : State :=
  { s with filt := { s.filt with cond := s.filt.cond.set condInit i v } }
def engInit : Nat → Engine := fun _ => {}
/-- A filter engine's channeliser. -/
def State.eng (s : State) (e : Nat) : Engine := s.filt.eng.get engInit e
def State.setEng (s : State) (e : Nat) (v : Engine) : State :=
  { s with filt := { s.filt with eng := s.filt.eng.set engInit e v } }
def gainInit : Nat → GainSt := fun _ => {}
/-- An input's gain stage. -/
def State.gain (s : State) (i : Nat) : GainSt := s.filt.gain.get gainInit i
def State.setGain (s : State) (i : Nat) (v : GainSt) : State :=
  { s with filt := { s.filt with gain := s.filt.gain.set gainInit i v } }
/-- The source number of filter engine e (02 Table 02.2). -/
def engSrc (e : Nat) : Nat := 0x100 + e
/-- The Sorting Office's state of a source. -/
def State.srcState (s : State) (n : Nat) : SrcState := s.so.srcs.get (fun _ => {}) n
def State.modSrc (s : State) (n : Nat) (f : SrcState → SrcState) : State :=
  { s with so := { s.so with srcs := s.so.srcs.set (fun _ => {}) n (f (s.srcState n)) } }

/-- The part's torus is 1 × 1 in the active set (14 R409). -/
def State.alone (s : State) : Bool := s.cfg (ob 0x6100 1) * s.cfg (ob 0x6100 2) == 1
/-- The part's rank (06 R159); a 1 × 1 system has rank 0. -/
def State.rank (s : State) : Nat := if s.alone then 0 else s.relay.rank

/-- Do something for every number below n. -/
def forRange (n : Nat) (f : Nat → State → State) (s : State) : State := (List.range n).foldl (fun s k => f k s) s

/-- The last record of a live object that the service delivered (14 R393). -/
def keepLive (o : Nat) (b : List Byte) (s : State) : State := { s with dict := { s.dict with live := s.dict.live.set (fun _ => []) o b } }

end Sys2Proof.Machine
end

