-- ==== Sys2Proof/Machine/LineCode.lean ====
section
/-! DEFINITION. The 8b/10b code of the lanes (03 R60, R61): encoder, decoder and running disparity. The rule names IEEE 802.3
clause 36; its code tables are taken from there (PRESUMED, assumption 170). A code group is a number whose bit j is bit j of
the symbol, bit 0 being bit a; a running disparity is true where positive. -/

namespace Sys2Proof.Machine

open Sys2Proof

/-- The bits of a number, least significant first. -/
def natBits : Nat → Nat → List Bool
  | 0, _ => []
  | n + 1, x => (x % 2 == 1) :: natBits n (x / 2)
/-- The number of a bit list, least significant first. -/
def bitsNat : List Bool → Nat
  | [] => 0
  | b :: r => b2n b + 2 * bitsNat r
/-- The ones among the low n bits. -/
def onesIn (n x : Nat) : Nat := ((natBits n x).filter id).length

/-- The six bits a to i of D.x for a negative running disparity, bit a lowest. -/
def code6 : List Nat :=
  [0b111001, 0b101110, 0b101101, 0b100011, 0b101011, 0b100101, 0b100110, 0b000111,
   0b100111, 0b101001, 0b101010, 0b001011, 0b101100, 0b001101, 0b001110, 0b111010,
   0b110110, 0b110001, 0b110010, 0b010011, 0b110100, 0b010101, 0b010110, 0b010111,
   0b110011, 0b011001, 0b011010, 0b011011, 0b011100, 0b011101, 0b011110, 0b110101]
/-- The four bits f to j of D.x.y for a negative running disparity, bit f lowest; y = 7 has a second form. -/
def code4 : List Nat := [0b1101, 0b1001, 0b1010, 0b0011, 0b1011, 0b0101, 0b0110, 0b0111]
/-- The four bits f to j of K.x.y for a negative running disparity. -/
def code4K : List Nat := [0b1101, 0b0110, 0b0101, 0b0011, 0b1011, 0b1010, 0b1001, 0b1110]
/-- Running disparity after a block of n bits (6 or 4): by its ones, and by the two balanced blocks that set it. -/
def disparityAfter (n x : Nat) (rd : Bool) : Bool :=
  let k := onesIn n x
  if n < 2 * k then true
  else if 2 * k < n then false
  else if x = (if n = 6 then 0b111000 else 0b1100) then true
  else if x = (if n = 6 then 0b000111 else 0b0011) then false
  else rd
/-- Encode a byte as a data or control code group: the ten bits and the running disparity after them. -/
def encodeSym (rd k : Bool) (byte : Nat) : Nat × Bool :=
  let x := byte % 32
  let y := byte / 32 % 8
  let six := if k && x == 28 then 0b111100 else code6.getD x 0
  let a := if rd && (onesIn 6 six != 3 || (x == 7 && !k)) then 63 - six else six
  let r1 := disparityAfter 6 a rd
  let second := y == 7 && !k && (if r1 then x == 11 || x == 13 || x == 14 else x == 17 || x == 18 || x == 20)
  let four := if k then code4K.getD y 0 else if second then 0b1110 else code4.getD y 0
  let b := if r1 && (k || onesIn 4 four != 2 || y == 3) then 15 - four else four
  (a + 64 * b, disparityAfter 4 b r1)
/-- The code groups that exist: every data byte, and the twelve control bytes. -/
def allSyms : List (Bool × Nat) :=
  ((List.range 256).map fun b => (false, b)) ++
    ([0x1C, 0x3C, 0x5C, 0x7C, 0x9C, 0xBC, 0xDC, 0xFC, 0xF7, 0xFB, 0xFD, 0xFE].map fun b => (true, b))
/-- What the decoder finds in ten bits: a code group for the running disparity; one that belongs to the other disparity; none. -/
inductive SymErr where
  | none | disparity | invalid
  deriving DecidableEq, Repr
/-- Decode ten bits (03 R61): the error, the symbol handed on (K30.7 for an erroneous one), the running disparity after it. -/
def decodeSym (rd : Bool) (w : Nat) : SymErr × (Bool × Nat) × Bool :=
  let after := disparityAfter 4 (w / 64 % 16) (disparityAfter 6 (w % 64) rd)
  match allSyms.find? fun c => (encodeSym rd c.1 c.2).1 == w with
  | some c => (.none, c, after)
  | Option.none =>
    if allSyms.any fun c => (encodeSym (!rd) c.1 c.2).1 == w then (.disparity, (true, 0xFE), after)
    else (.invalid, (true, 0xFE), after)
/-- Encode the symbols of a word, symbol 0 in the lowest ten bits (03 R60). -/
def encodeWord : Bool → List (Bool × Nat) → Nat × Bool
  | rd, [] => (0, rd)
  | rd, c :: r =>
    let (w, rd1) := encodeSym rd c.1 c.2
    let (v, rd2) := encodeWord rd1 r
    (w + 1024 * v, rd2)
/-- A decoded word: its symbols, its invalid code groups, its other disparity errors, the running disparity after it. -/
structure WordIn where
  syms : List (Bool × Nat) := []
  invalid : Nat := 0
  disparity : Nat := 0
  rd : Bool := false
  deriving DecidableEq, Repr
/-- Decode n symbols of a word. -/
def decodeWord : Nat → Bool → Nat → WordIn
  | 0, rd, _ => { rd := rd }
  | n + 1, rd, w =>
    let (e, c, rd1) := decodeSym rd (w % 1024)
    let r := decodeWord n rd1 (w / 1024)
    { r with syms := c :: r.syms, invalid := r.invalid + b2n (e == .invalid), disparity := r.disparity + b2n (e == .disparity) }
/-- A code group leaves the other running disparity behind: its six bits, or else its four, are not balanced. -/
def symFlips (c : Bool × Nat) : Bool :=
  ([0, 1, 2, 4, 8, 15, 16, 23, 24, 27, 29, 30, 31].contains (c.2 % 32) ^^ [0, 4, 7].contains (c.2 / 32 % 8)) ^^
    (c.1 && c.2 % 32 == 28)
/-- The running disparity after symbols. -/
def rdAfter : Bool → List (Bool × Nat) → Bool
  | rd, [] => rd
  | rd, c :: r => rdAfter (rd ^^ symFlips c) r
/-- Data symbols. -/
def dataSyms (bs : List Byte) : List (Bool × Nat) := bs.map fun b => (false, b.toNat)
/-- The sixteenths of a word that a lane's clock gives in ticks: 5, 10 or 20 a tick by generation (03 Table 03.2). -/
def wordParts (gen ticks : Nat) : Nat := ticks * (5 * 2 ^ (gen - 1))
/-- The transmit side up to now: the words of its clock that no protocol word took were idle words, and each idle word turns the
running disparity round (03 R60, R62; assumption 171). -/
def Lane.settle (gen since now : Nat) (v : Lane) : Lane :=
  let x := v.phase + wordParts gen (now - max v.txAt since)
  if v.tx ≠ .active then v
  else { v with phase := x % 16, txAt := now, txSent := v.txSent - x / 16, txRd := v.txRd ^^ ((x / 16 - v.txSent) % 2 == 1) }
/-- The lane's words reach the line: the driver is on, no loopback is set (03 R73), the main domain runs (19 R537) and the TAP does not
drive the balls (19 R538). -/
def State.lineOpen (s : State) (l : Nat) : Bool :=
  (s.lane l).driver && (s.lane l).loopback == 0 && !s.pwr.inReset && decide (5 ≤ s.pwr.step) && !s.tap.drives
/-- Protocol words leave a lane, coded under 03 R60. -/
def moveWords (l : Nat) (syms : List (Bool × Nat)) (s : State) : State :=
  s.modLane l fun v => { v with txRd := rdAfter v.txRd syms, txSent := v.txSent + syms.length / 4 }
/-- Send protocol words of a lane, which reach the line where it is open. -/
def sendWords (l : Nat) (syms : List (Bool × Nat)) (m : Sent) (s : State) : State :=
  let t := moveWords l syms s
  if s.lineOpen l then t.send m else t
/-- The idle word K28.5, D21.5, D21.5, D21.5 (03 R62). -/
def idleSyms : List (Bool × Nat) := [(true, 0xBC), (false, 0xB5), (false, 0xB5), (false, 0xB5)]
/-- The sleep word K28.3, D21.5, D21.5, D21.5 (03 R62). -/
def sleepSyms : List (Bool × Nat) := [(true, 0x7C), (false, 0xB5), (false, 0xB5), (false, 0xB5)]

end Sys2Proof.Machine
end

