-- ==== Sys2Proof/Machine/Lanes.lean ====
section
/-! DEFINITION. Serial lanes and the Sample link (03): the receive and transmit state machines, the pattern checker,
ingest sparing, status words and received frames. -/

namespace Sys2Proof.Machine

open Sys2Proof

/-! ### Lane numbers (03 R55, R76) -/

/-- The subindex of quad_generation of a lane's quad (03 R93). -/
def quadSub (l : Nat) : Nat :=
  if l ≤ 0x63 then l / 4 + 1
  else if l ≤ 0xCB then 0x1A + 7 * ((l - 0x64) / 26) + (l - 0x64) % 26 / 4
  else 0x36 + (l - 0xCC) / 4
/-- The generation of a lane's quad in the active set. -/
def State.gen (s : State) (l : Nat) : Nat := s.cfg (ob 0x4001 (quadSub l))
/-- The ingest spare that covers logical lane L (03 R76). -/
def coverSpare (l : Nat) : Nat := 96 + l / 24
/-- A source is LATCHED (16 R460). -/
def State.latched (s : State) (n : Nat) : Bool := (s.srcState n).st == 2

/-! ### Receive state machine (03 Table 03.4) -/

/-- The lane is where clock recovery or word errors can break it. -/
def Rx.listening (r : Rx) : Bool := r == .align || r == .sync || r == .running

/-- A lane that leaves RUNNING starts the 100 µs of 03 R77. -/
def Lane.leave (now : Nat) (v : Lane) : Lane :=
  if v.rx = .running then { v with leftAt := some now, downAt := now, failed := false } else v

/-- Enter ALIGN from another state: its 100 µs start (03 R65). -/
def Lane.enterAlign (now : Nat) (v : Lane) : Lane := { v with rx := .align, alignAt := now, alignRaised := false }

/-- 03 R65: clock recovery locks. -/
def execCdrLock (l : Fin 222) (s : State) : Host.Outcome State Fault Refusal :=
  let v := s.lane l
  .next (if v.rx = .acquire then s.setLane l { v.enterAlign s.now with heard := true } else s)

/-- A spare that returns its lane to home abandons the move when the home lane leaves SYNC (03 R80). -/
def abandonLeave (l : Nat) (s : State) : State :=
  if l < 96 then
    let sp := coverSpare l
    if (s.lane sp).spare = .leaving l then
      raise sp 0x0E 0 (s.modLane sp fun v => { v with spare := .serving l })
    else s
  else s

/-- 03 R65: clock recovery loses lock. -/
def execCdrLockLoss (l : Fin 222) (s : State) : Host.Outcome State Fault Refusal :=
  let v := s.lane l
  .next (if v.rx.listening then
    abandonLeave l (raise l 0x01 0 (s.setLane l
      { v.leave s.now with rx := .acquire, aligned := false, syncLosses := satAdd 32 v.syncLosses 1 }))
  else s)

/-- 03 R63: the lane is aligned; it runs again if RESUME is set. -/
def execLaneAligned (l : Fin 222) (s : State) : Host.Outcome State Fault Refusal :=
  let v := s.lane l
  .next (if v.rx = .align then
    s.setLane l { v with rx := if v.resume then .running else .sync, aligned := true, farSleep := false,
                         searchNeeded := false, leftAt := if v.resume then none else v.leftAt }
  else s)

/-- 03 R65: 100 µs in ALIGN without alignment. -/
def execAlignTimeout (l : Fin 222) (s : State) : Host.Outcome State Fault Refusal :=
  let v := s.lane l
  .next (if v.rx = .align ∧ v.alignRaised = false ∧ v.alignAt + us 100 ≤ s.now then
    raise l 0x02 0 (s.setLane l { v with searchNeeded := true, alignRaised := true })
  else s)

/-- 03 R63, R65: a sync loss by code or disparity errors. -/
def execLaneSyncLoss (l : Fin 222) (s : State) : Host.Outcome State Fault Refusal :=
  let v := s.lane l
  .next (if v.rx = .sync ∨ v.rx = .running then
    abandonLeave l (raise l 0x01 0 (s.setLane l
      ({ v.leave s.now with aligned := false, syncLosses := satAdd 32 v.syncLosses 1 }.enterAlign s.now)))
  else s)

/-- 03 R65: four sleep words. -/
def execSleepWordsReceived (l : Fin 222) (s : State) : Host.Outcome State Fault Refusal :=
  let v := s.lane l
  .next (if v.rx.listening then
    abandonLeave l (s.setLane l { v.leave s.now with rx := .acquire, aligned := false, farSleep := true })
  else s)

/-! ### lane_command (03 R65, R74, R546) -/

/-- A refused command raises COMMAND_REFUSED and changes nothing (03 R65). -/
def laneRefuse (l : Nat) (s : State) : State := raise l 0x03 0 s

/-- 03 R65: SLIP k in ALIGN or SYNC. -/
def slipCmd (l : Nat) (a : LaneArgs) (s : State) : State :=
  let v := s.lane l
  if a.arg.toNat ≤ 39 ∧ (v.rx = .align ∨ v.rx = .sync) then
    let w := { v with slip := a.arg.toNat, aligned := false }
    if v.rx = .align then s.setLane l w else abandonLeave l (s.setLane l (w.enterAlign s.now))
  else laneRefuse l s
def execSlip (l : Fin 222) (a : LaneArgs) (s : State) : Host.Outcome State Fault Refusal := .next (slipCmd l a s)

/-- 03 R68: TX_SLEEP, from ACTIVE and not RUNNING: 16 sleep words, then electrical idle. -/
def txSleepCmd (l : Nat) (s : State) : State :=
  let v := s.lane l
  if v.tx = .active ∧ v.rx ≠ .running then
    let t := sendWords l ((List.replicate 16 sleepSyms).flatten) (.sleepWords l 16) s
    t.modLane l fun v => { v with tx := .sleep, driver := false }
  else laneRefuse l s
def execTxSleep (l : Fin 222) (_ : LaneArgs) (s : State) : Host.Outcome State Fault Refusal := .next (txSleepCmd l s)

/-- 03 R68: TX_WAKE; it starts with negative running disparity (R60). -/
def txWakeCmd (l : Nat) (s : State) : State :=
  let v := s.lane l
  if v.tx = .sleep then s.setLane l { v with tx := .active, driver := true, txRd := false, txAt := s.now, txSent := 0, phase := 0 }
  else laneRefuse l s
def execTxWake (l : Fin 222) (_ : LaneArgs) (s : State) : Host.Outcome State Fault Refusal := .next (txWakeCmd l s)

/-- 03 R65: RX_SLEEP. Clock recovery stops, so the lane is no longer aligned (DEDUCED from R66, assumption 9). -/
def rxSleepCmd (l : Nat) (s : State) : State :=
  let v := s.lane l
  if v.rx = .acquire ∨ v.rx = .align ∨ v.rx = .sync ∨ v.rx = .test then
    let t := s.setLane l { v with rx := .sleep, aligned := false, chkLock := false }
    if v.rx = .sync then abandonLeave l t else t
  else laneRefuse l s
def execRxSleep (l : Fin 222) (_ : LaneArgs) (s : State) : Host.Outcome State Fault Refusal := .next (rxSleepCmd l s)

/-- 03 R65: RX_WAKE. -/
def rxWakeCmd (l : Nat) (s : State) : State :=
  let v := s.lane l
  if v.rx = .sleep then s.setLane l { v with rx := .acquire, rxRd := false, heard := false } else laneRefuse l s
def execRxWake (l : Fin 222) (_ : LaneArgs) (s : State) : Host.Outcome State Fault Refusal := .next (rxWakeCmd l s)

/-- The degree and second tap of a pattern's polynomial (03 Table 03.7). -/
def prbsTaps (k : Nat) : Option (Nat × Nat) :=
  match k with
  | 1 => some (7, 6)
  | 2 => some (15, 14)
  | 3 => some (23, 18)
  | 4 => some (31, 28)
  | _ => none
/-- The bits a generator starts from: any but all zeros, which none of the patterns holds (assumption 171). -/
def prbsSeed (pattern draw : Nat) : List Bool :=
  match prbsTaps pattern with
  | some (m, _) =>
    let r := (List.range m).map (Config.prbsSeed draw)
    if r.any id then r else true :: r.drop 1
  | none => []
/-- 03 R65, R68, R70: TEST_ENTER. The transmit side needs a generator pattern, whose first bits are free; its running disparity
goes on from the words before. The receive side's is free once words were received, which no command carries (assumption 171); on the receive side ARG 0x00 keeps the pattern the checker was last set to, and where none was set yet the
checker looks for idle words (DESIGN CHOICE, assumption 10). -/
def testEnterCmd (l : Nat) (a : LaneArgs) (s0 : State) : State :=
  let v := s0.lane l
  let k := a.arg.toNat
  let s := s0.draw.2
  let rd := Config.runningDisparity s0.draw.1
  if k > 5 then laneRefuse l s0
  else if a.side then
    if v.tx = .active ∧ k ≠ 0 then
      s.setLane l { v.settle (s.gen l) s.lanes.since s.now with
                      tx := .test, genPattern := k, genCoded := a.coded, gen := prbsSeed k s0.draw.1 }
    else laneRefuse l s0
  else if v.rx = .acquire ∨ v.rx = .align ∨ v.rx = .sync then
    let t := s.setLane l { v with rx := .test, aligned := false, chkLock := false, rxRd := if v.heard then rd else v.rxRd,
                                  chk := { pattern := if k = 0 then v.chk.pattern else k, coded := a.coded } }
    if v.rx = .sync then abandonLeave l t else t
  else laneRefuse l s0
def execTestEnter (l : Fin 222) (a : LaneArgs) (s : State) : Host.Outcome State Fault Refusal :=
  .next (testEnterCmd l a s)

/-- 03 R65, R68: TEST_EXIT. A loopback and an injection that are set stay set: only LOOPBACK with ARG 0x00 ends a loopback (R73), so
the far end goes on receiving electrical idle, and the line does not reach the receive path (assumption 172). -/
def testExitCmd (l : Nat) (a : LaneArgs) (s : State) : State :=
  let v := s.lane l
  if a.side then (if v.tx = .test then s.setLane l { v with tx := .active, txAt := s.now, txSent := 0 } else laneRefuse l s)
  else if v.rx = .test then s.setLane l { v with rx := .acquire, chkLock := false } else laneRefuse l s
def execTestExit (l : Fin 222) (a : LaneArgs) (s : State) : Host.Outcome State Fault Refusal :=
  .next (testExitCmd l a s)

/-- The logical lane an ingest lane serves (03 R76). -/
def State.servedBy (s : State) (l : Nat) : Option Nat :=
  if l < 96 then (if s.serving l = l then some l else none)
  else match (s.lane l).spare with
    | .serving k => some k
    | .leaving k => some k
    | _ => none
/-- 03 R65, R89: START. The next frame of a lane that serves a logical lane sets the expected stamp anew, and a logical lane
that was not valid since its failure is valid again (R77). -/
def startCmd (l : Nat) (s : State) : State :=
  let v := s.lane l
  if v.rx = .sync then
    let t := abandonLeave l (s.setLane l
      { v with rx := .running, resume := true, startPm := s.pm, leftAt := none, failed := false, crcTimes := [] })
    if l < 100 then
      match t.servedBy l with
      | some k => t.modLogical k fun g => { g with expected := none, muted := false }
      | none => t
    else t
  else laneRefuse l s
/-- 03 R65: STOP. It leaves RUNNING like any other event: R77, 06 R177 and 10 R304 except FAR_SLEEP alone (assumption 41). -/
def stopCmd (l : Nat) (s : State) : State :=
  let v := s.lane l
  if v.rx = .running then s.setLane l { v.leave s.now with rx := .sync, resume := false } else laneRefuse l s
def execLaneStop (l : Fin 222) (_ : LaneArgs) (s : State) : Host.Outcome State Fault Refusal := .next (stopCmd l s)

/-- 03 R72: INJECT, while the transmit side is in TEST; its count starts anew. -/
def injectCmd (l : Nat) (a : LaneArgs) (s : State) : State :=
  let v := s.lane l
  if a.arg.toNat ≤ 39 ∧ v.tx = .test then s.setLane l { v with inj := some (a.arg.toNat, a.n.toNat), injCount := 0 }
  else laneRefuse l s
def execInject (l : Fin 222) (a : LaneArgs) (s : State) : Host.Outcome State Fault Refusal := .next (injectCmd l a s)

/-- 03 R73: LOOPBACK, while both sides are in TEST. -/
def loopbackCmd (l : Nat) (a : LaneArgs) (s : State) : State :=
  let v := s.lane l
  if a.arg.toNat ≤ 2 ∧ v.tx = .test ∧ v.rx = .test then s.setLane l { v with loopback := a.arg.toNat }
  else laneRefuse l s
def execLoopback (l : Fin 222) (a : LaneArgs) (s : State) : Host.Outcome State Fault Refusal :=
  .next (loopbackCmd l a s)

/-- Clear a lane's own counters. -/
def Lane.clearCounters (v : Lane) : Lane :=
  { v with codeErrors := 0, dispErrors := 0, syncLosses := 0, prbsErrors := 0, prbsBits := 0 }
/-- Clear a logical lane's Sample link counters. -/
def LogLane.clearCounters (g : LogLane) : LogLane :=
  { g with framesOk := 0, crcErrors := 0, late := 0, early := 0, seqJumps := 0, formatErrors := 0,
           linkIdErrors := 0, ovr := [0, 0, 0, 0] }
/-- 03 R74: CLEAR_COUNTERS. -/
def clearCmd (l : Nat) (s : State) : State :=
  let t := s.modLane l Lane.clearCounters
  if l < 100 then
    match s.servedBy l with
    | some k => t.modLogical k LogLane.clearCounters
    | none => t
  else t
def execLaneClearCounters (l : Fin 222) (_ : LaneArgs) (s : State) : Host.Outcome State Fault Refusal :=
  .next (clearCmd l s)

/-! ### Ingest sparing (03 R76 to R80) -/

/-- 03 R78: ask the far end for logical lane L on a spare, which runs from now on. Its RESUME is set and the moment counts as its
START, as for the home lane that takes L back (R80): the samples it brings set the spread anew (04 R99). The spec says that START
does these things and does not say it of an entry into RUNNING by sparing (DESIGN CHOICE, assumption 173). -/
def startSparing (l sp : Nat) (s : State) : State :=
  s.modLane sp fun v => { v with rx := .running, resume := true, mirror := l, spare := .asking l s.now,
                                 startPm := s.pm, leftAt := none, failed := false, crcTimes := [] }

/-- 03 R80, R546, 16 R461: whether an ingest SPARE_IN of L on lane sp is taken. -/
def State.spareInOk (s : State) (sp l : Nat) : Bool :=
  96 ≤ sp && sp ≤ 99 && l ≤ 95 && coverSpare l == sp && (s.lane sp).rx == .sync && (s.lane sp).spare == .free
    && s.gen sp == s.gen (s.serving l) && !s.latched sp
/-- 03 R80: SPARE_IN on an ingest lane. -/
def ingestSpareIn (sp l : Nat) (s : State) : State :=
  if s.spareInOk sp l then startSparing l sp s else raise sp 0x0E 0 s
/-- 03 R80: SPARE_OUT on an ingest lane. -/
def ingestSpareOut (sp : Nat) (s : State) : State :=
  match s.servedBy sp with
  | some l =>
    if 96 ≤ sp ∧ (s.lane l).rx = .sync ∧ s.latched sp = false ∧ s.latched l = false then
      s.modLane sp fun v => { v with spare := .leaving l }
    else raise sp 0x0E 0 s
  | none => raise sp 0x0E 0 s

/-- 03 R77: declare an ingest lane failed; automatic sparing starts if the covering spare is in SYNC and free. Otherwise the
inputs of the logical lane it serves stay not valid until software acts: a START of the lane, or a spare that takes L. -/
def ingestFailed (l : Nat) (s : State) : State :=
  let t := raise l 0x0B 0 (s.modLane l fun v => { v with failed := true, crcTimes := [] })
  match t.servedBy l with
  | some k =>
    if t.cfg (ob 0x4000 1) = 1 ∧ k = l ∧ t.spareInOk (coverSpare l) l then startSparing l (coverSpare l) t
    else t.modLogical k fun g => { g with muted := true }
  | none => t

/-- 03 R77, R177, R304: a lane has not returned to RUNNING for 100 µs and FAR_SLEEP is clear. -/
def State.failDue (s : State) (l : Nat) : Bool :=
  let v := s.lane l
  match v.leftAt with
  | some t => v.rx != .running && !v.farSleep && !v.failed && decide (t + us 100 ≤ s.now)
  | none => false

/-- 03 R79: no frame was taken on the spare in time. -/
def execSpareTimeout (l : Fin 100) (s : State) : Host.Outcome State Fault Refusal :=
  .next (match (s.lane l).spare with
  | .asking _ t =>
    if t + us (s.cfg (ob 0x4000 2)) ≤ s.now then
      raise l 0x0D 0 (s.modLane l fun v =>
        { v with mirror := 255, spare := .free, resume := false, leftAt := none,
                 rx := if v.rx = .running then .sync else v.rx })
    else s
  | _ => s)

/-! ### Status words (03 R82) -/

/-- STATE of the ingest status word (03 Table 03.9). -/
def State.statusByte (s : State) (l : Nat) : Nat :=
  let v := s.lane l
  let seen (o : Option Nat) : Nat := match o with | some t => b2n (decide (s.now < t + ms 1)) | none => 0
  b2n v.aligned + 2 * b2n (v.rx == .running) + 4 * seen v.lastCrc + 8 * seen v.lastLate
/-- 03 R82: an ingest lane whose transmit side is ACTIVE sends K28.2, STATE, MIRROR, CHK. -/
def execStatusWordSend (l : Fin 100) (s : State) : Host.Outcome State Fault Refusal :=
  let v := s.lane l
  let st := s.statusByte l
  let chk := st ^^^ v.mirror ^^^ 0x5A
  .next (if v.tx = .active then
    sendWords l [(true, 0x5C), (false, st), (false, v.mirror), (false, chk)] (.statusWord l st v.mirror chk) s
  else s)

/-! ### Code errors and the pattern checker (03 R61, R71) -/

/-- Count a word's invalid code groups and other disparity errors (03 R61). -/
def countCode (l invalid disparity : Nat) (s : State) : State :=
  s.modLane l fun v => { v with codeErrors := satAdd 32 v.codeErrors invalid,
                                dispErrors := satAdd 32 v.dispErrors disparity }
/-- 03 R60, R61: a received word, decoded from the running disparity that the words before it left; they were received without
an error and no command carries them, so rd says it (DEDUCED, assumption 174). In ACQUIRE, where clock recovery has no lock, and in SLEEP, where the deserialiser has
no power, no word is received and nothing counts; R61 names no exception (DESIGN CHOICE, assumption 174). -/
def codeErrorOp (l : Nat) (rd : Bool) (w : Nat) (s : State) : State :=
  if (s.lane l).rx = .acquire ∨ (s.lane l).rx = .sleep then s
  else
    let d := decodeWord 4 rd w
    (countCode l d.invalid d.disparity s).modLane l fun v => { v with rxRd := d.rd }
def execCodeError (l : Fin 222) (rd : Bool) (w : BitVec 40) (s : State) : Host.Outcome State Fault Refusal :=
  .next (codeErrorOp l rd w.toNat s)

/-- The next bit of a pattern from its last bits, newest first: bit n is bit n − m xor bit n − t. The bits of every pattern go to the
line as they are: Table 03.7 gives the polynomials alone (DESIGN CHOICE, assumption 209). -/
def prbsNext (m t : Nat) (reg : List Bool) : Bool := reg.getD (m - 1) false ^^ reg.getD (t - 1) false
/-- The pattern's next bits and the register after them. -/
def prbsRun (m t : Nat) : Nat → List Bool → List Bool × List Bool
  | 0, reg => ([], reg)
  | n + 1, reg =>
    let b := prbsNext m t reg
    let (bs, r) := prbsRun m t n ((b :: reg).take m)
    (b :: bs, r)
/-- The positions at which two bit lists differ. -/
def mismatches : List Bool → List Bool → Nat
  | a :: r, b :: q => b2n (a != b) + mismatches r q
  | _, _ => 0
/-- The idle word of either disparity in LINE mode, or its bytes in CODED mode. -/
def idleWords (coded : Bool) : List (List Bool) :=
  if coded then [idleSyms.flatMap fun c => natBits 8 c.2]
  else [natBits 40 (encodeWord false idleSyms).1, natBits 40 (encodeWord true idleSyms).1]
/-- The mismatched bits of a word against the nearer idle word. -/
def idleErrors (coded : Bool) (bits : List Bool) : Nat :=
  ((idleWords coded).map (mismatches bits)).foldl min 40

/-- 03 R71: one received word at the checker. -/
def checkWord (v : Lane) (bits : List Bool) : Lane :=
  let c := v.chk
  let seeded (n : Nat) : List Bool := (bits.reverse ++ c.reg).take n
  let (bad, reg) : Nat × List Bool :=
    match prbsTaps c.pattern with
    | some (m, t) =>
      if c.reg.length < m then (bits.length, seeded m)
      else
        let (e, r) := prbsRun m t bits.length c.reg
        (mismatches bits e, r)
    | none => (idleErrors c.coded bits, c.reg)
  let reseed : List Bool := match prbsTaps c.pattern with | some (m, _) => seeded m | none => []
  if v.chkLock then
    let errs := ((decide (bad > 0)) :: c.errs).take 64
    let v1 := { v with prbsBits := satAdd 64 v.prbsBits bits.length, prbsErrors := satAdd 64 v.prbsErrors bad }
    if (errs.filter id).length ≥ 32 then
      { v1 with chkLock := false, syncLosses := satAdd 32 v.syncLosses 1,
                chk := { c with reg := reseed, clean := 0, errs := [] } }
    else { v1 with chk := { c with reg := reg, errs := errs } }
  else if bad = 0 then
    if c.clean + 1 ≥ 64 then { v with chkLock := true, chk := { c with reg := reg, clean := 0, errs := [] } }
    else { v with chk := { c with reg := reg, clean := c.clean + 1 } }
  else { v with chk := { c with reg := reseed, clean := 0 } }
/-- A word at the receive side of a lane in TEST: in LINE mode its bits, in CODED mode its bytes after the decoder, which counts
its errors (R61) and hands an erroneous symbol on as K30.7. The bits received in CODED mode are those 32 (DESIGN CHOICE, assumption
210). -/
def testWordIn (l w : Nat) (s : State) : State :=
  let v := s.lane l
  if v.chk.coded then
    let d := decodeWord 4 v.rxRd w
    (countCode l d.invalid d.disparity s).modLane l fun v =>
      checkWord { v with rxRd := d.rd } (d.syms.flatMap fun c => natBits 8 c.2)
  else s.setLane l (checkWord v (natBits 40 w))
/-- 03 R71, R73: a word from the line; in loopback the line does not reach the receive path. -/
def prbsWordOp (l w : Nat) (s : State) : State :=
  if (s.lane l).rx = .test ∧ (s.lane l).loopback = 0 then testWordIn l w s else s
def execPrbsCheckWord (l : Fin 222) (w : BitVec 40) (s : State) : Host.Outcome State Fault Refusal :=
  .next (prbsWordOp l w.toNat s)

/-! ### The pattern generator (03 R70, R72, R73) -/

/-- The generator's next word before INJECT: 40 pattern bits in LINE mode; in CODED mode 32 of them as four data bytes, the
first bit as bit 0 of each, through the encoder; idle words are coded in either mode. -/
def Lane.genWord (v : Lane) : Nat × Lane :=
  match prbsTaps v.genPattern with
  | some (m, t) =>
    if v.genCoded then
      let (bs, r) := prbsRun m t 32 v.gen
      let (w, rd) := encodeWord v.txRd ((List.range 4).map fun k => (false, bitsNat ((bs.drop (8 * k)).take 8)))
      (w, { v with gen := r, txRd := rd })
    else
      let (bs, r) := prbsRun m t 40 v.gen
      (bitsNat bs, { v with gen := r })
  | none =>
    let (w, rd) := encodeWord v.txRd idleSyms
    (w, { v with txRd := rd })
/-- 03 R72: the word as it leaves, bit b inverted once or on every Nth word. -/
def Lane.injected (v : Lane) (w : Nat) : Nat × Lane :=
  match v.inj with
  | none => (w, v)
  | some (b, n) =>
    if n = 0 then (w ^^^ 2 ^ b, { v with inj := none })
    else if n ≤ v.injCount + 1 then (w ^^^ 2 ^ b, { v with injCount := 0 })
    else (w, { v with injCount := v.injCount + 1 })
/-- A lane in TEST transmits one word: to the line, or in loopback to its own receive path, the line being idle (R73). -/
def testWordOut (l : Nat) (s : State) : State :=
  let g := (s.lane l).genWord
  let x := g.2.injected g.1
  let s1 := s.setLane l x.2
  if s1.lineOpen l then s1.send (.testWord l x.1)
  else if x.2.rx = .test then testWordIn l x.1 s1
  else s1
/-- One tick of a lane's generator. -/
def laneTick (l : Nat) (s : State) : State :=
  let v := s.lane l
  if v.tx = .test then
    let ph := v.phase + wordParts (s.gen l) 1
    forRange (ph / 16) (fun _ s => testWordOut l s) (s.setLane l { v with phase := ph % 16 })
  else s
/-- Every lane's generator. -/
def testTick (s : State) : State := (s.lanes.lane.map (·.1)).foldl (fun s l => laneTick l s) s

/-! ### The Sample link (03 R83 to R90, R549) -/

/-- Payload bytes of a format with NIN inputs (03 Table 03.13); 0 for a reserved code. -/
def payloadBytes (fmt nin : Nat) : Nat :=
  match fmt with
  | 1 => 512 * nin
  | 2 => 1024 * nin
  | 3 => 1280 * nin
  | 4 => 2048 * nin
  | 5 => 528 * nin
  | _ => 0

/-- The bytes the frame's CRC covers: symbol 1 to the last payload symbol (03 R84). -/
def linkCovered (f : LinkFrame) : List Byte :=
  f.linkId :: f.seq :: f.fmt :: toBytes 8 f.stamp.toNat ++ toBytes 4 f.info.toNat ++ f.payload

/-- Nibble n of bytes, the first in [3:0]. -/
def nibble (bs : Array Byte) (n : Nat) : Nat := (bs.getD (n / 2) 0).toNat / (if n % 2 = 0 then 1 else 16) % 16

/-- The decoded sample of slot q at sample time t: RE, IM, and whether the format allows it (03 R85, R87). -/
def decodeSample (fmt nin : Nat) (bs : Array Byte) (t q : Nat) : Int × Int × Bool :=
  let n := nin * t + q
  match fmt with
  | 1 => (signed 4 (nibble bs n), 0, true)
  | 2 => (signed 8 (bs.getD n 0).toNat, 0, true)
  | 3 =>
    let w := (bs.getD (10 * n / 8) 0).toNat + 256 * (bs.getD (10 * n / 8 + 1) 0).toNat
    (signed 10 (w / 2 ^ (10 * n % 8) % 1024), 0, true)
  | 4 => (signed 8 (bs.getD (2 * n) 0).toNat, signed 8 (bs.getD (2 * n + 1) 0).toNat, true)
  | 5 =>
    let e := nibble bs (nin * (t / 32) + q) % 8
    if e ≤ 4 then (signed 4 (nibble bs (32 * nin + n)) * 2 ^ e, 0, true) else (0, 0, false)
  | _ => (0, 0, false)

/-- The malformed exponents of a block frame (03 R87). -/
def badExponents (nin : Nat) (bs : Array Byte) : Nat :=
  ((List.range (32 * nin)).filter fun k => nibble bs k % 8 > 4).length

/-- The frame is refused before its CRC is checked (03 R89, steps 1 to 3). -/
def State.badFrame (s : State) (lg : Nat) (f : LinkFrame) : Bool :=
  let c (sub : Nat) : Nat := s.cfgAt f.stamp.toNat (ob (0x4200 + lg) sub)
  decide (f.invalid > 0 ∨ f.disparity > 0) || f.abort || f.earlyStart || !f.endOk ||
    decide (f.payload.length ≠ payloadBytes (c 2) (c 3))
/-- How a received frame ends: the check that fails first (03 R89), or none. -/
inductive Verdict where
  | symbol | abort | format | crc | linkId | early | late | jump | ok
  deriving DecidableEq, Repr

/-- 03 R89, steps 1 to 8. expected is none for the first frame after START. -/
def frameVerdict (s : State) (lg : Nat) (f : LinkFrame) (crcMask : Nat) (expected : Option Nat) : Verdict :=
  let t := f.stamp.toNat
  let c (sub : Nat) : Nat := s.cfgAt t (ob (0x4200 + lg) sub)
  if f.invalid > 0 ∨ f.disparity > 0 then .symbol
  else if f.abort then .abort
  else if f.earlyStart ∨ f.endOk = false ∨ f.payload.length ≠ payloadBytes (c 2) (c 3) then .format
  else if crc32 (linkCovered f) ≠ f.crc.toNat ^^^ crcMask then .crc
  else if f.linkId.toNat ≠ c 1 then .linkId
  else if f.fmt.toNat % 8 ≠ c 2 ∨ f.fmt.toNat / 8 % 4 + 1 ≠ c 3 ∨ f.info.toNat % 256 ≠ c 4 ∨ t % c 4 ≠ 0 then .format
  else if t > s.pm + ms 1 then .early
  else if s.pm > t + us 200 then .late
  else match expected with
    | some e => if t = e then .ok else .jump
    | none => .ok

/-- Add a chunk behind an input's waiting samples. -/
def pushChunk (i : Nat) (c : Chunk) (s : State) : State := s.setIngest i (s.ingestQ i ++ [c])

/-- The first frame taken after START begins the inputs' history (04 R102); the stamps since the last frame before are never
received (04 R548). Until that frame the samples of the run before stay history: R102 speaks of its stamp alone (DESIGN CHOICE,
assumption 212). -/
def beginHistory (lg : Nat) (t : Nat) (s : State) : State :=
  let from_ := match (s.logical lg).lastTaken with | some u => u + 1024 * s.cfgAt u (ob (0x4200 + lg) 4) | none => 0
  forRange 4 (fun q s => let v := s.cond (4 * lg + q)
    s.setCond (4 * lg + q) { v with histFrom := some t,
                                    missing := if from_ < t then v.missing ++ [(from_, t)] else v.missing }) s
/-- Hand a taken frame to the four inputs of its logical lane under 02 R45: fill a gap before it, drop what was already
taken, give the rest. -/
def deliver (lg start : Nat) (f : LinkFrame) (s : State) : State :=
  let t := f.stamp.toNat
  let muted := (s.logical lg).muted
  let fmt := s.cfgAt t (ob (0x4200 + lg) 2)
  let nin := s.cfgAt t (ob (0x4200 + lg) 3)
  let p := s.cfgAt t (ob (0x4200 + lg) 4)
  let bs := f.payload.toArray
  let cx := fmt == 4
  let e := match (s.logical lg).expected with | some e => e | none => t
  let skip := if t < e then (e - t + (p - 1)) / p else 0
  let give (q : Nat) (s : State) : State :=
    let s1 := if e < t then pushChunk (4 * lg + q) (.gap e p cx start ((t - e) / p)) s else s
    let ws := ((List.range 1024).drop skip).map fun k =>
      if q < nin then
        let d := decodeSample fmt nin bs k q
        (d.1, d.2.1, d.2.2 && bit (8 + q) f.info.toNat && !muted)
      else (0, 0, false)
    if skip < 1024 then pushChunk (4 * lg + q) (.data (t + skip * p) p cx start ws) s1 else s1
  let s0 := if (s.logical lg).expected.isNone then beginHistory lg t s else s
  let s2 := forRange 4 give s0
  s2.modLogical lg fun g => { g with expected := some (max (t + 1024 * p) e), lastTaken := some t, lastSeq := f.seq.toNat }

/-- A frame that is used: its malformed exponents are counted (03 R87) and its samples delivered. -/
def useFrame (l lg : Nat) (f : LinkFrame) (s : State) : State :=
  let t := f.stamp.toNat
  let bad := if s.cfgAt t (ob (0x4200 + lg) 2) = 5 then
    badExponents (s.cfgAt t (ob (0x4200 + lg) 3)) f.payload.toArray else 0
  let s1 := s.modLogical lg fun g => { g with formatErrors := satAdd 32 g.formatErrors bad }
  let s2 := if bad > 0 then raiseLim (ms 1) l 0x08 0 0 s1 else s1
  deliver lg (s2.lane l).startPm f s2
/-- A frame that passes every check: counted, with its OVR bits (03 R89). -/
def takeFrame (l lg : Nat) (f : LinkFrame) (s : State) : State :=
  useFrame l lg f (s.modLogical lg fun g => { g with
    framesOk := satAdd 64 g.framesOk 1
    ovr := (List.range 4).map fun q => satAdd 32 (g.ovr.getD q 0) (b2n (bit (12 + q) f.info.toNat)) })
/-- 03 R89, step 8: a stamp other than the expected one is a seq_jump, handled under 02 R45. A unit discarded as more than a whole
unit early leaves the expected stamp as it was: nothing of it was taken (DESIGN CHOICE, assumption 175). -/
def jumpFrame (l lg : Nat) (f : LinkFrame) (s : State) : State :=
  let s1 := raise l 0x09 0 (s.modLogical lg fun g => { g with seqJumps := satAdd 32 g.seqJumps 1 })
  match (s1.logical lg).expected with
  | some e =>
    let unit := 1024 * s1.cfgAt f.stamp.toNat (ob (0x4200 + lg) 4)
    if f.stamp.toNat + unit < e then s1 else useFrame l lg f s1
  | none => s1
/-- A frame that has passed steps 1 to 7: step 8 decides. -/
def checkedFrame (l lg : Nat) (f : LinkFrame) (s : State) : State :=
  match (s.logical lg).expected with
  | some e => if f.stamp.toNat = e then takeFrame l lg f s else jumpFrame l lg f s
  | none => takeFrame l lg f s

/-- Count a CRC failure toward 03 R77. -/
def crcFailed (l : Nat) (s : State) : State :=
  let v := s.lane l
  let ts := s.now :: v.crcTimes.filter fun t => s.now < t + ms 1
  let s1 := s.setLane l { v with crcTimes := ts, lastCrc := some s.now }
  if ts.length ≥ s.cfg (ob 0x4000 3) ∧ v.rx = .running then ingestFailed l s1 else s1

/-- A frame on the lane that serves its logical lane (03 R89). -/
def servedFrame (l lg : Nat) (f : LinkFrame) (s : State) : State :=
  let (mask, test, s0) := crcReached (!s.badFrame lg f) l s
  let lim := raiseLimT test (ms 1) l
  match frameVerdict s0 lg f mask (s0.logical lg).expected with
  | .symbol =>
    let s1 := countCode l f.invalid f.disparity s0
    if f.abort then raise l 0x0A 0 s1 else s1
  | .abort => raise l 0x0A 0 (countCode l 1 0 s0)
  | .format => lim 0x08 0 0 (s0.modLogical lg fun g => { g with formatErrors := satAdd 32 g.formatErrors 1 })
  | .crc => lim 0x04 0 0 (crcFailed l (s0.modLogical lg fun g => { g with crcErrors := satAdd 32 g.crcErrors 1 }))
  | .linkId => lim 0x07 0 0 (s0.modLogical lg fun g => { g with linkIdErrors := satAdd 32 g.linkIdErrors 1 })
  | .early => lim 0x06 0 0 (s0.modLogical lg fun g => { g with early := satAdd 32 g.early 1 })
  | .late => lim 0x05 0 0 ((s0.modLogical lg fun g => { g with late := satAdd 32 g.late 1 }).modLane l
      fun v => { v with lastLate := some s0.now })
  | .jump => jumpFrame l lg f s0
  | .ok => takeFrame l lg f s0

/-- A frame that would be taken by a lane that does not serve L yet: steps 1 to 7 of 03 R89 hold (R78, R80, R549). -/
def wouldTake (s : State) (lg : Nat) (f : LinkFrame) : Bool := frameVerdict s lg f 0 none == .ok

/-- 03 R78: the spare takes over logical lane L with its first good frame. -/
def spareTakes (l lg : Nat) (f : LinkFrame) (s : State) : State :=
  let home := s.serving lg
  let s1 := (s.modLane l fun v => { v with spare := .serving lg }).modLane home
    fun v => { v with sparedOut := true, resume := false }
  checkedFrame l lg f (raise l 0x0C 0 (s1.modLogical lg fun g => { g with phys := some l, muted := false }))

/-- 03 R80: the home lane takes L back; the spare returns to SYNC. The home lane's RESUME is set (DESIGN CHOICE, assumption 173). -/
def homeTakes (l : Nat) (f : LinkFrame) (s : State) : State :=
  let sp := coverSpare l
  let s1 := (s.modLane sp fun v => { v with spare := .free, mirror := 255, resume := false, leftAt := none,
                                            rx := if v.rx = .running then .sync else v.rx }).modLane l
      fun v => { v with sparedOut := false, rx := .running, resume := true, startPm := s.pm, leftAt := none }
  checkedFrame l l f (s1.modLogical l fun g => { g with phys := none, muted := false })

/-- 03 R89, R549: a received frame. A home lane in SYNC that takes L back checks frames before it serves L. In loopback no frame
of the line is received (R73). -/
def linkFrame (l : Nat) (f : LinkFrame) (s : State) : State :=
  let v := s.lane l
  let other := countCode l f.invalid f.disparity (if f.abort ∧ f.invalid = 0 ∧ f.disparity = 0 then countCode l 1 0 s else s)
  if v.loopback ≠ 0 then s
  else match s.servedBy l with
  | some lg => if v.rx = .running then servedFrame l lg f s else if v.rx.listening then other else s
  | none =>
    if l < 96 then
      if (s.lane (coverSpare l)).spare = .leaving l ∧ v.rx = .sync ∧ wouldTake s l f ∧
          (match (s.logical l).lastTaken with | some t => decide (t < f.stamp.toNat) | none => true) = true then
        homeTakes l f s
      else if v.rx.listening then other else s
    else match v.spare with
      | .asking lg _ =>
        if v.rx = .running ∧ wouldTake s lg f then spareTakes l lg f s else if v.rx.listening then other else s
      | _ => if v.rx.listening then other else s
def execSampleLinkFrame (l : Fin 100) (f : LinkFrame) (s : State) : Host.Outcome State Fault Refusal :=
  .next (linkFrame l f s)

/-! ### Resets (03 R64, R92, R547) -/

/-- 03 R64, Table 03.4: a lane whose quad changes its generation. -/
def Lane.regen (old since now : Nat) (v : Lane) : Lane :=
  { (v.settle old since now).leave now with slip := 0, aligned := false, rx := if v.rx = .test ∨ v.rx = .sleep then v.rx else .acquire }
/-- The generation of a lane's quad changes at a commit; a return to this lane ends (R80). -/
def genChange (l old : Nat) (s : State) : State :=
  let v := s.lane l
  let t := s.setLane l (v.regen old s.lanes.since s.now)
  if v.rx.listening then abandonLeave l t else t

/-- 03 R547: a per-block reset of a lane. A spare that asks for a lane gives up, and nothing is raised; a switch back to the home
lane that has not taken a frame goes on, since R547 names the sequence of R78 and the spare serves L all the while (DESIGN CHOICE,
assumption 176). Another lane that was RUNNING has left it now; one that had left it before keeps its time (R77, 06 R177, R180,
10 R304). -/
def laneReset (l : Nat) (s : State) : State :=
  let v := s.lane l
  let asks : Bool := match v.spare with | .asking _ _ => true | _ => false
  let w := v.leave s.now
  let t := s.setLane l { slip := v.slip, txAt := s.now, sparedOut := v.sparedOut, mirror := if asks then 255 else v.mirror,
                         spare := if asks then .free else v.spare, failed := w.failed,
                         leftAt := if asks then none else w.leftAt, downAt := w.downAt }
  abandonLeave l t

end Sys2Proof.Machine
end

