-- ==== Sys2Proof/Machine/Conditioning.lean ====
section
/-! DEFINITION. Input conditioning and delay (04): the spike rank filter, the integer delay line, live delay records. -/

namespace Sys2Proof.Machine

open Sys2Proof

/-- The index of an input's objects (04 R118). -/
def inIdx (i : Nat) : Nat := 0x5100 + i
/-- A setting of input i in force for stamp t. -/
def State.inCfg (s : State) (t i sub : Nat) : Nat := s.cfgAt t (ob (inIdx i) sub)

/-! ### The sample word (02 R35) -/

/-- The 16-bit sample word of a value, V and SPK. -/
def sampleWord (x : Int) (v spk : Bool) : Nat := unsigned 12 x + 4096 * b2n v + 8192 * b2n spk
/-- VALUE of a sample word, 0 where V is 0 (05 R120). -/
def wordValue (w : Nat) : Int := if bit 12 w then signed 12 w else 0

/-! ### The spike filter (04 R97 to R100) -/

/-- Insert into a rising list. -/
def insertSorted (x : Int) : List Int → List Int
  | [] => [x]
  | y :: r => if x ≤ y then x :: y :: r else y :: insertSorted x r
/-- The median of an odd number of integers (04 R98). -/
def median (l : List Int) : Int := (l.foldr insertSorted []).getD (l.length / 2) 0
/-- Division that rounds half up (00 R5). -/
def divRhu (a : Int) (b : Nat) : Int := rhu a b

/-- 04 R98: the threshold for a spread, in 2^-12 LSB. -/
def spikeThr (k floor spread : Nat) : Int := max (divRhu (k * spread : Nat) 16) ((floor * 4096 : Nat) : Int)
/-- 04 R98: one component stream's test at the centre of its window: whether it is a spike, the median, the new spread. -/
def spikeTest (k floor shift : Nat) (spread : Nat) (xs : List Int) (x : Int) : Bool × Int × Nat :=
  let m := median xs
  let dev : Int := (x - m).natAbs * 4096
  let thr := spikeThr k floor spread
  (decide (dev > thr), m, ((spread : Int) + divRhu (min dev thr - spread) (2 ^ shift)).toNat)

/-- The samples of the window centred at c, if all are there (04 R98). p is the sample period of the newest sample taken: the spec
does not say which samples form a window that a commit of sample_period cuts, and here no window across the change is whole, so its
sample is not tested (DESIGN CHOICE, assumption 211). -/
def windowAt (win : List RxSample) (c h p : Nat) : Option (List RxSample) :=
  let ws := win.filter fun x => decide (c ≤ x.stamp + h * p ∧ x.stamp ≤ c + h * p)
  if ws.length = 2 * h + 1 then some ws else none

/-- Put a word pair into the delay line: 65,536 words, 32,768 pairs for a complex input (04 R101). -/
def linePut (c p : Nat) (cplx : Bool) (w : WordPair) (line : Tab WordPair) : Tab WordPair :=
  let depth := if cplx then 32768 else 65536
  (line.set (fun _ => (0, 0)) c w).forget (depth * p) c

/-- 04 R99, R114: a synchronising reset at P′ restarts the windows and the spread for the stamps from P′ on. -/
def Cond.sync (p : Nat) (q : Cond) : Cond := if q.syncAt < p then { q with syncAt := p, spreadFrom := some p } else q
/-- Pass one sample through the spike filter into the delay line (04 R97 to R100, R113). A synchronising reset acts from the first
stamp at or after P′, also where the sample comes before the counter reaches P′. -/
def spikePass (s : State) (i : Nat) (p : Nat) (x : RxSample) (q : Cond) : Cond :=
  let c := x.stamp
  let q := ((s.eng (i / 16)).syncs.filter fun t => decide (t ≤ c)).foldl (fun q t => q.sync t) q
  let cfg := s.inCfg c i
  let h := (cfg 3 - 1) / 2
  let mode := cfg 2
  let en := cfg 1 == 1
  let init := cfg 7
  let fresh := decide (init ≠ q.initUsed) || (match q.spreadFrom with | some t => decide (t ≤ c) | none => false)
  let q := if fresh then { q with spreadRe := init * 4096, spreadIm := init * 4096, initUsed := init,
                                  spreadFrom := (match q.spreadFrom with | some t => if t ≤ c then none else some t | none => none) }
           else q
  let tested := mode ≠ 0 ∧ en = true ∧ (match windowAt q.win c h p with
    | some ws => ws.all fun y => y.v && decide (q.syncAt ≤ y.stamp) && decide (y.start ≤ y.stamp)
    | none => false) = true
  let put (re im : Nat) (q : Cond) : Cond :=
    { q with line := linePut c p x.cplx (re, im) q.line, newest := some c, done := some c }
  if tested then
    let ws := (windowAt q.win c h p).getD []
    let q := if q.startSeen = some x.start then q
             else { q with spreadRe := init * 4096, spreadIm := init * 4096, startSeen := some x.start }
    let a := spikeTest (cfg 4) (cfg 6) (cfg 5) q.spreadRe (ws.map (·.re)) x.re
    let b := if x.cplx then spikeTest (cfg 4) (cfg 6) (cfg 5) q.spreadIm (ws.map (·.im)) x.im else (false, 0, q.spreadIm)
    let n := b2n a.1 + b2n b.1
    let w (hit : Bool) (m v : Int) : Nat := if hit ∧ mode = 1 then sampleWord m true true else sampleWord v true false
    put (w a.1 a.2.1 x.re) (if x.cplx then w b.1 b.2.1 x.im else 0)
      { q with spreadRe := a.2.2, spreadIm := b.2.2, spikes := satAdd 64 q.spikes n, spikesRun := satAdd 32 q.spikesRun n }
  else
    let q := if mode ≠ 0 ∧ en = true ∧ x.v then { q with bypassed := satAdd 64 q.bypassed 1 } else q
    if x.v then put (sampleWord x.re true false) (if x.cplx then sampleWord x.im true false else 0) q
    else put 0 0 q

/-- The spike filter has not passed a stamp yet. -/
def Cond.isNew (q : Cond) (t : Nat) : Bool := match q.done with | some d => decide (d < t) | none => true
/-- A stamp c of input i reaches the spike filter: when it opens a new time block, the count of the block before it is complete
(04 R100). A block that saw no stamp counts 0; one that a commit of F cuts short ends at the Postmark. The limit is that of the closed
block's last stamp (DESIGN CHOICE, assumption 178). -/
def spikeBlock (i c : Nat) (s : State) : State :=
  let q := s.cond i
  let tb := 8192 * s.inF c i
  let e := (c / tb + 1) * tb
  let near := match q.done with | some d => decide (e ≤ d + 2 * tb) | none => false
  if q.spikeEnd ≠ e ∧ q.isNew c then
    let s1 := s.setCond i { q with spikeEnd := e, spikesRun := 0, spikesBlock := if near then q.spikesRun else 0 }
    let lim := s.cfgAt (min q.spikeEnd (e - tb) - 1) (ob 0x5000 1)
    if q.spikeEnd ≠ 0 ∧ lim ≠ 0 ∧ lim < q.spikesRun then raise (engSrc (i / 16)) 6 i s1 else s1
  else s

/-- The far edge of a sample's window has come (04 R95: the filter lags by h samples). -/
def spikeDue (s : State) (i p : Nat) (x : RxSample) : Bool :=
  match (s.cond i).win.getLast? with
  | some y => decide (x.stamp + (s.inCfg x.stamp i 3 - 1) / 2 * p ≤ y.stamp)
  | none => false

/-- Pass on the waiting samples in stamp order, with the period p of the newest (assumption 211), up to the first whose window is not whole: a commit that narrows the window lets
no sample overtake an earlier one (04 R97, R99). -/
def spikeAdvance (i p : Nat) : List RxSample → State → State
  | [], s => s
  | x :: r, s =>
    if (s.cond i).isNew x.stamp then
      if spikeDue s i p x then
        let s1 := spikeBlock i x.stamp s
        spikeAdvance i p r (s1.setCond i (spikePass s1 i p x (s1.cond i)))
      else s
    else spikeAdvance i p r s

/-- The kind of the Postcard of a stamp other than the expected one: STAMP_GAP of the lanes (03 Table 03.14), a free one where a
type's kind table lists none (assumption 24). -/
def gapKind (n : Nat) : Nat :=
  match blockType n with | some t => if t ≤ 3 then 9 else Config.stampGapKind t | none => 0
/-- The engine checks the stamp of a sample against the one before (02 R45): one that overlaps what was taken is discarded, and the
stretch that a gap leaves reads as not valid; each raises a Postcard, once for a run of overlapping samples. -/
def sampleCheck (i : Nat) (x : RxSample) (s : State) : Bool × State :=
  let q := s.cond i
  match q.win.getLast? with
  | none => (true, s)
  | some y =>
    let e := y.stamp + s.inP y.stamp i
    let src := engSrc (i / 16)
    if x.stamp < e then
      (false, if q.overlap then s else raise src (gapKind src) 0 (s.setCond i { q with overlap := true }))
    else
      let s1 := s.setCond i { q with overlap := false }
      (true, if e < x.stamp then raise src (gapKind src) 0 s1 else s1)
/-- Take one received sample into the filter's window. -/
def sampleTake (i p : Nat) (x : RxSample) (s : State) : State :=
  let q := s.cond i
  let win := (q.win ++ [x]).drop (q.win.length + 1 - 17)
  let first := match q.first with | some t => t | none => x.stamp
  spikeAdvance i p win (s.setCond i { q with win := win, first := some first })

/-- A received sample at the engine. -/
def sampleIn (i p : Nat) (x : RxSample) (s : State) : State :=
  let r := sampleCheck i x s
  if r.1 then sampleTake i p x r.2 else r.2

/-- The first sample of a queue of chunks, with its period, and what stays. -/
def takeSample : List Chunk → Option (RxSample × Nat × List Chunk)
  | [] => none
  | .data t p cx st ws :: r =>
    match ws with
    | [] => takeSample r
    | (a, b, v) :: ws => some (⟨t, a, b, v, cx, st⟩, p, if ws.isEmpty then r else .data (t + p) p cx st ws :: r)
  | .gap t p cx st n :: r =>
    match n with
    | 0 => takeSample r
    | n + 1 => some (⟨t, 0, 0, false, cx, st⟩, p, if n = 0 then r else .gap (t + p) p cx st n :: r)

/-- 04 R98: the next sample word of input i enters its engine slot. -/
def execEngineSampleIn (i : Fin 384) (s : State) : Host.Outcome State Fault Refusal :=
  .next (match takeSample (s.ingestQ i) with
  | some (x, p, r) => sampleIn i p x (s.setIngest i r)
  | none => s)

/-! ### Delay records (04 R105 to R112) -/

/-- The fields of a delay record (04 Table 04.2), EFF rounded up to a multiple of F. -/
def decodeDelay (f : Nat) (r : Nat) : DelayRec :=
  { eff := roundUp (bits 63 0 r) f, dint := bits 79 64 r, frac := signed 32 (bits 127 96 r),
    frate := signed 32 (bits 159 128 r), phase := bits 191 160 r, prate := signed 32 (bits 223 192 r),
    seq := bits 239 224 r }

/-- 04 R110: a live record arrives. EFF is rounded up with the F in force for EFF now (DEDUCED, assumption 159). -/
def delayRecordOp (i : Nat) (r : Nat) (s : State) : State :=
  let q := s.cond i
  let rec_ := decodeDelay (s.inF (bits 63 0 r) i) r
  let e := engSrc (i / 16)
  if q.live = false ∨ rec_.eff ≤ q.cur.eff then
    raise e 3 i (s.setCond i { q with discarded := satAdd 32 q.discarded 1 })
  else match q.next with
    | none => s.setCond i { q with next := some rec_ }
    | some _ => raise e 2 i (s.setCond i { q with next := some rec_, replaced := true, replacedN := satAdd 32 q.replacedN 1 })
def execDelayRecord (i : Fin 384) (r : BitVec 256) (s : State) : Host.Outcome State Fault Refusal :=
  .next (delayRecordOp i r.toNat (keepLive (ob (0x5100 + i) 0x10) (toBytes 32 r.toNat) s))

/-- facc of 04 R106 before saturation: 2^-40 sample. -/
def faccOf (r : DelayRec) (x f : Nat) : Int := r.frac * 256 + (((x : Int) - r.eff) / f) * r.frate
/-- facc saturated to 48 bits signed (04 R107). -/
def satFacc (x : Int) : Int := max (-(2 ^ 47)) (min (2 ^ 47 - 1) x)

/-- Take delay d from output stamp x on (04 R104). -/
def stepTo (d : Nat) (q : Cond) : Cond := if q.d = d then q else { q with d := d, steps := satAdd 32 q.steps 1 }

/-- Raise DELAY_RANGE once for the current record: once in all where both R101 and R107 hit it (DESIGN CHOICE, assumption 179). -/
def rangeCard (e i : Nat) (hit : Bool) (s : State) : State :=
  let q := s.cond i
  if hit ∧ q.range = false then raise e 5 i (s.setCond i { q with range := true }) else s

/-- 04 R110, R111: the commit rows at frame start x. -/
def delayCommit (i x : Nat) (s : State) : State :=
  let q := s.cond i
  let src := s.inCfg x i 8
  let st := s.inCfg x i 9
  if q.live = false ∧ src = 1 then
    s.setCond i (stepTo st { q with live := true, cur := { eff := x, dint := st }, next := none })
  else if q.live ∧ src = 0 then
    s.setCond i (stepTo st { q with live := false, cur := { eff := x, dint := st }, next := none, replaced := false,
                                    stale := false, range := false })
  else if q.live = false then s.setCond i (stepTo st { q with cur := { q.cur with dint := st } })
  else s

/-- 04 R110: the next record becomes current at a frame start at or after its EFF′. -/
def delaySwitch (i x : Nat) (s : State) : State :=
  let q := s.cond i
  let e := engSrc (i / 16)
  match q.live, q.next with
  | true, some r =>
    if r.eff ≤ x then
      let top := if s.cplxIn x i then 32767 else 65535
      let q1 := stepTo (min r.dint top)
        { q with cur := r, next := none, replaced := false, stale := false, range := false,
                 late := if r.eff < x then satAdd 32 q.late 1 else q.late }
      let s1 := s.setCond i q1
      let s2 := if r.eff < x then raise e 1 i s1 else s1
      rangeCard e i (decide (top < r.dint)) s2
    else s
  | _, _ => s

/-- 04 R110, R112: staleness at frame start x. -/
def delayStale (i x : Nat) (s : State) : State :=
  let q := s.cond i
  if q.live ∧ q.cur.eff + ms (s.cfgAt x (ob 0x5000 2)) < x ∧ q.stale = false then
    raise (engSrc (i / 16)) 4 i (s.setCond i { q with stale := true })
  else s

/-- 04 R109 to R112: the decision for the frame that starts at x, kept with the data. -/
def frameStartOp (i x : Nat) (s : State) : State :=
  let s1 := delayStale i x (delaySwitch i x (delayCommit i x s))
  let f := s.inF x i
  let q := s1.cond i
  let r : DelayRec := if q.live then q.cur else { eff := x }
  let fa := faccOf r x f
  let s2 := rangeCard (engSrc (i / 16)) i (decide (fa ≠ satFacc fa)) s1
  let q := s2.cond i
  let marked := (q.live ∧ q.stale ∧ s.cfgAt x (ob 0x5000 3) = 1) ∨ s.inCfg x i 1 = 0
  s2.setCond i { q with frame := some x,
                        frames := (q.frames.set frameInit x { dr := r, marked := decide marked }).forget (8 * f) x }

/-- The frame start x is due for the input: a multiple of F the counter has reached, after the last one (04 R109). -/
def State.frameDue (s : State) (i x : Nat) : Bool :=
  x % s.inF x i == 0 && decide (x ≤ s.dataPm) &&
    (match (s.cond i).frame with | some t => decide (t < x) | none => true)
/-! ### The integer delay line (04 R101 to R104, R548) -/

/-- The word pair received at a stamp: from the line, or waiting in the spike filter unchanged; nothing stamped before the first
frame taken after START (04 R102). -/
def Cond.at (q : Cond) (t : Nat) : WordPair :=
  if (match q.histFrom with | some h => decide (t < h) | none => false) then (0, 0)
  else if q.isNew t then
    match q.win.find? (fun x => x.stamp == t) with
    | some x => if x.v then (sampleWord x.re true false, if x.cplx then sampleWord x.im true false else 0) else (0, 0)
    | none => (0, 0)
  else q.line.get (fun _ => (0, 0)) t

/-- The stamps whose words share a SECDED group of four words with that of stamp t (04 R103): four samples of a real
input, two of a complex one. -/
def groupStamps (t p : Nat) (cplx : Bool) : List Nat :=
  let n := if cplx then 2 else 4
  (List.range n).map fun k => (t / p / n * n + k) * p

/-- Sample k of an input as read from a group of four 16-bit words with a falsely corrected bit (16 R465); RE stands before IM. -/
def lineFlip (k : Nat) (cplx : Bool) (o : Option Nat) (w : Nat × Nat) : Nat × Nat :=
  match o with
  | none => w
  | some b =>
    let j := b / 16
    let m := 2 ^ (b % 16)
    if cplx then
      if j / 2 ≠ k % 2 then w else if j % 2 = 0 then (w.1 ^^^ m, w.2) else (w.1, w.2 ^^^ m)
    else if j = k % 4 then (w.1 ^^^ m, w.2) else w
/-- The input sample stamped u has come through the spike filter: the stamps of an input are gap-free (02 R45) but for the
stretches that a START left unreceived. -/
def Cond.arrived (q : Cond) (u : Nat) : Bool :=
  match q.first, q.newest with
  | some a, some b => decide (a ≤ u ∧ u ≤ b) && !q.missing.any fun m => decide (m.1 ≤ u ∧ u < m.2)
  | _, _ => false
/-- 04 R548: output stamp u may be produced: the sample stamped u has arrived, or 50,000 ticks have passed. -/
def State.outDue (s : State) (i u : Nat) : Bool := (s.cond i).arrived u || decide (u + 50000 < s.dataPm)
/-- 04 R109: the output never reaches a frame start before the counter passes it. -/
def State.frameOpen (s : State) (i u : Nat) : Bool := u % s.inF u i != 0 || decide (u ≤ s.dataPm)

/-- The delay-line word address of stamp t (04 R116): its place in the input's own 65,536 words, a complex input's RE word (DESIGN
CHOICE, assumption 177: the spec gives no mapping). -/
def lineAddr (t p : Nat) (cplx : Bool) : Nat := if cplx then t / p % 32768 * 2 else t / p % 65536

/-- 04 R109: the record of frame x is decided when the output reaches x, which is when x may be produced (R548). -/
def execDelayFrameStart (i : Fin 384) (x : BitVec 64) (s : State) : Host.Outcome State Fault Refusal :=
  let q := s.cond i
  let here := match q.nextOut with | some u => u == x.toNat | none => true
  .next (if s.frameDue i x.toNat && here && s.outDue i x.toNat then frameStartOp i x.toNat s else s)

/-- How many ticks of delay-line output the model keeps: more than five of the longest frames (05 R123, R132). -/
def doutKept : Nat := 16777216
/-- 04 R102 to R104, R113, R548: produce output stamp u. -/
def produce (i u : Nat) (e : Ecc) (s : State) : State :=
  let p := s.inP u i
  let cx := s.cplxIn u i
  let q := s.cond i
  let src := engSrc (i / 16)
  let have_ := decide (q.d * p ≤ u)
  let t := u - q.d * p
  let o := eccFlip src 1 e s
  let (e, test, s0) := eccCheck src 1 e s
  let eg := s0.eng (i / 16)
  let s1 := match e with
    | .ok => s0
    | .corrected => raiseT test src 7 (lineAddr t p cx) (s0.setEng (i / 16) { eg with dlCorr := satAdd 32 eg.dlCorr 1 })
    | .uncorrectable => raiseT test src 8 (lineAddr t p cx) (s0.setEng (i / 16) { eg with dlUncorr := satAdd 32 eg.dlUncorr 1 })
  let line := if e = .uncorrectable then
      (groupStamps t p cx).foldl (fun l k => l.set (fun _ => (0, 0)) k (0, 0)) q.line else q.line
  let q := { q with line := line }
  let w := if have_ ∧ s.inCfg u i 1 = 1 ∧ e ≠ .uncorrectable then lineFlip (t / p) cx o (q.at t) else (0, 0)
  s1.setCond i { q with nextOut := some (u + p), missing := q.missing.filter fun m => decide (u + p < m.2),
                        dout := (q.dout.set (fun _ => (0, 0)) u w).forget doutKept u }

/-- 04 R548: the delay line of input i produces output stamp u; a frame start is decided first (R109). -/
def delayOutputOp (i u : Nat) (e : Ecc) (s : State) : State :=
  let p := s.inP u i
  let here := match (s.cond i).nextOut with | some n => n == u | none => u % p == 0
  if here && s.outDue i u && s.frameOpen i u then
    produce i u e (if s.frameDue i u then frameStartOp i u s else s)
  else s
def execDelayOutput (i : Fin 384) (u : BitVec 64) (e : Ecc) (s : State) : Host.Outcome State Fault Refusal :=
  .next (delayOutputOp i u.toNat e s)

/-! ### Clears and resets (04 R114, R115, R117) -/

/-- Clear an input's counters (04 R115), those of its gain stage among them. -/
def clearInput (i : Nat) (s : State) : State :=
  let q := s.cond i
  let g := s.gain i
  (s.setCond i { q with spikes := 0, spikesBlock := 0, spikesRun := 0, bypassed := 0, late := 0, replacedN := 0,
                        discarded := 0, steps := 0 }).setGain i
    { g with sat := 0, satBlock := 0, satRun := 0, discarded := 0, invalidFrames := 0 }
/-- Clear an engine's ECC counters (04 R115). -/
def clearEngineEcc (e : Nat) (s : State) : State :=
  let g := s.eng e
  s.setEng e { g with dlCorr := 0, dlUncorr := 0, coefCorr := 0, coefUncorr := 0 }
/-- 04 R115: a write to conditioning_clear. -/
def conditioningClearOp (v : Nat) (s : State) : State :=
  if v < 384 then clearInput v s
  else if v = 0xFFFF then forRange 24 clearEngineEcc (forRange 384 clearInput s)
  else s
def execConditioningClear (v : BitVec 16) (s : State) : Host.Outcome State Fault Refusal :=
  .next (conditioningClearOp v.toNat s)

/-- 04 R99, R114: a synchronising reset takes effect at input i; for samples that came before it, it has acted already. -/
def condSync (i p : Nat) (s : State) : State := s.setCond i ((s.cond i).sync p)

/-- 04 R117: an input's conditioning after a per-block reset, which follows the active set's spread. -/
def condReset (i : Nat) (s : State) : State :=
  let init := s.cfg (ob (inIdx i) 7)
  s.setCond i { spreadRe := init * 4096, spreadIm := init * 4096, initUsed := init }

/-- delay_status (04 Table 04.6). -/
def Cond.status (q : Cond) : Nat :=
  (if q.live = false then 0 else if q.next.isSome then 2 else 1) + 4 * b2n q.next.isSome + 8 * b2n q.replaced
    + 16 * b2n q.stale + 32 * b2n q.range

end Sys2Proof.Machine
end

