-- ==== Sys2Proof/Machine/Enclave.lean ====
section
/-! DEFINITION. The metrology enclave (17): the certified set, sealing and unsealing, the franking counter, the audit log. -/

namespace Sys2Proof.Machine

open Sys2Proof

/-! ### The certified set (17 Table 17.1, R487) -/

/-- A cs object before anything is written: certified_version 0, a BLOB empty. -/
def csDefault (k : Nat) : List Byte := if k = ob 0x3000 4 then [0, 0, 0, 0] else []
/-- The cs objects in ascending index and subindex order. -/
def csKeys : List Nat :=
  ob 0x3000 4 :: ((List.range 16).map fun m => ob (0x3010 + m) 1) ++ [ob 0x3020 1, ob 0x3021 1, ob 0x3022 1]
/-- What a set's CRC covers: the scalar's bytes, a BLOB's length and bytes. -/
def csCovered (t : Tab (List Byte)) : List Byte :=
  csKeys.flatMap fun k =>
    let b := t.get csDefault k
    if k = ob 0x3000 4 then b else toBytes 4 b.length ++ b
def csCrc (t : Tab (List Byte)) : Nat := crc32 (csCovered t)
/-- certified_version of a copy. -/
def csVersion (t : Tab (List Byte)) : Nat := ofBytes (t.get csDefault (ob 0x3000 4))

def State.setEncl (s : State) (e : Encl) : State := { s with encl := e }
def enclSrc : Nat := 0xA70
/-- A kind whose Address holds franking_count (R499). -/
def enclCard (k : Nat) (s : State) : State := raise enclSrc k (s.encl.count % 8192) s

/-! ### The audit log (17 R497) -/

/-- Write an entry; the first overwrite raises LOG_WRAPPED. -/
def auditLog (event detail : Nat) (s : State) : State :=
  let v := s.encl
  let b := toBytes 28 (v.audit % 2 ^ 32 + 2 ^ 32 * event + 2 ^ 36 * v.count + 2 ^ 49 * (v.epoch % 2 ^ 15) + 2 ^ 64 * s.tbk
    + 2 ^ 128 * csVersion v.cert + 2 ^ 160 * v.certCrc + 2 ^ 192 * detail)
  let s1 := s.setEncl { v with log := v.log.set (fun _ => 0) (v.audit % 256) (ofBytes b + 2 ^ 224 * crc32 b)
                               audit := v.audit + 1, wrapped := v.wrapped || decide (256 ≤ v.audit) }
  if v.audit = 256 then enclCard 9 s1 else s1

/-! ### Sealing and unsealing (17 Table 17.2, R493) -/

/-- A seal assertion taken in UNSEALED; open segmented cs writes are abandoned and keep their bytes (R495). -/
def startSealing (s : State) : State :=
  let s1 := { s with dict := { s.dict with open_ := s.dict.open_.filter fun a => !csKeys.contains (ob a.idx a.sub) } }
  s1.setEncl { s1.encl with st := .sealing, c1 := false, refusedNow := false, workingCrc := csCrc s1.encl.working }
/-- A deassertion taken in SEALED. -/
def startUnsealing (s : State) : State :=
  let v := s.encl
  if v.lock then s
  else if v.count < 4096 then s.setEncl { v with st := .unsealing, mark := true, fails := 0, count := v.count + 1 }
  else enclCard 4 (auditLog 4 0 s)
/-- R493, R494: the debounced level is compared with the stored state. -/
def compareLevel (s : State) : State :=
  match s.encl.st with
  | .sealed => if s.encl.pin then s else startUnsealing s
  | .unsealed => if s.encl.pin then startSealing s else s
  | _ => s
def sealAsserted (s : State) : State := compareLevel (s.setEncl { s.encl with pin := true, lock := false })
/-- SEAL_N asserted. The enclave runs from VKA (R485): without it nothing happens in it, and its state waits for the next rise (R494). -/
def execSealNAsserted (s : State) : Host.Outcome State Fault Refusal := .next (if s.pwr.vka then sealAsserted s else s)
/-- The debounced level changes to deasserted; a command while it is deasserted is no event (17 Table 17.2, once per deassertion). -/
def sealDeasserted (s : State) : State := if s.encl.pin then compareLevel (s.setEncl { s.encl with pin := false }) else s
def execSealNDeasserted (s : State) : Host.Outcome State Fault Refusal := .next (if s.pwr.vka then sealDeasserted s else s)

/-- The last blown position verifies or fails. -/
def fuseOp (ok : Bool) (s : State) : State :=
  let v := s.encl
  if v.st = .unsealing then
    if ok then
      let s1 := auditLog 1 0 s
      compareLevel (enclCard 1 (s1.setEncl { s1.encl with st := .unsealed, mark := false, working := v.cert
                                                          workingCrc := csCrc v.cert }))
    else
      let s1 := auditLog 5 (v.count - 1) s
      let e : Encl := { s1.encl with fails := v.fails + 1 }
      if e.fails < 3 ∧ v.count < 4096 then s1.setEncl { e with count := v.count + 1 }
      else enclCard 5 (s1.setEncl { e with st := EnclSt.sealed, mark := false, lock := !v.pin })
  else s
def execFuseVerify (ok : Bool) (s : State) : Host.Outcome State Fault Refusal := .next (if s.pwr.vka then fuseOp ok s else s)
/-- The sealing takes effect. -/
def copyC1Op (s : State) : State :=
  let v := s.encl
  if v.st = .sealing ∧ v.c1 = false then
    let low : Bool := v.workingCrc != v.certCrc && decide (csVersion v.working ≤ csVersion v.cert)
    let s1 := s.setEncl { v with cert := v.working, certCrc := v.workingCrc, present := true, damaged := [], c1 := true
                                 sealedAt := v.epoch % 2 ^ 15 + 2 ^ 15 * (s.tbk % 2 ^ 49) }
    let s2 := auditLog 2 (b2n low) s1
    if low then enclCard 6 s2 else s2
  else s
def execCopyC1Done (s : State) : Host.Outcome State Fault Refusal := .next (if s.pwr.vka then copyC1Op s else s)
def copyC2Op (s : State) : State :=
  let v := s.encl
  if v.st = .sealing ∧ v.c1 = true then compareLevel (enclCard 2 (s.setEncl { v with st := .sealed })) else s
def execCopyC2Done (s : State) : Host.Outcome State Fault Refusal := .next (if s.pwr.vka then copyC2Op s else s)

/-! ### cs writes (17 R488, Table 17.2) -/

/-- The answer to a cs write by state alone: SEALED, BUSY or none. -/
def Encl.answer (v : Encl) : Option Nat :=
  match v.st with | .sealed => some 6 | .sealing => some 6 | .unsealing => some 5 | .unsealed => none
/-- A cs write answered SEALED. -/
def csRefused (idx sub : Nat) (s : State) : State :=
  let v := s.encl
  let a := idx + 65536 * sub
  let s1 := s.setEncl { v with refused := satAdd 32 v.refused 1, refusedNow := true }
  let s2 := if v.refusedNow then s1 else auditLog 3 a s1
  raiseLim (ms 1000) enclSrc 3 0 a s2
/-- Bytes reach the working copy: OFFSET 0 starts the object anew. -/
def csStore (k off : Nat) (b : List Byte) (s : State) : State :=
  let v := s.encl
  let old := v.working.get csDefault k
  let w := v.working.set csDefault k (if off = 0 then b else old.take off ++ b)
  s.setEncl { v with working := w, workingCrc := csCrc w }

/-! ### Reads (17 R488, R499, R502) -/

/-- Bytes of the enclave's store outside the certified set that no check bits correct: R499 states no value (assumption 231). -/
def nvBytes : Nat → State → List Byte × State
  | 0, s => ([], s)
  | n + 1, s =>
    let (k, s1) := s.draw
    let (r, s2) := nvBytes n s1
    (Config.nvByte k :: r, s2)
/-- A read of store bytes of which one copy is kept: the working copy or the audit log. -/
def nvRead (b : List Byte) (e : Ecc) (s : State) : List Byte × State :=
  match e with
  | .ok => (b, s)
  | .corrected => (b, enclCard 7 s)
  | .uncorrectable => nvBytes b.length s
/-- A check of a cs object's two certified copies; uncorrectable says that both are in error. -/
def certCheck (k : Nat) (e : Ecc) (s : State) : State :=
  if s.encl.damaged.contains k then s
  else match e with
    | .ok => s
    | .corrected => enclCard 7 s
    | .uncorrectable => enclCard 8 (s.setEncl { s.encl with damaged := k :: s.encl.damaged })
/-- The certified value of an object, zeros where it is DAMAGED. -/
def State.certValue (s : State) (k : Nat) : List Byte :=
  let b := s.encl.cert.get csDefault k
  if s.encl.damaged.contains k then List.replicate b.length 0 else b
/-- A READ of a cs object: the certified value, or the working one for ACTIVE while UNSEALED. -/
def csRead (k : Nat) (active : Bool) (e : Ecc) (s : State) : List Byte × State :=
  if active ∧ s.encl.st = .unsealed then nvRead (s.encl.working.get csDefault k) e s
  else
    let s1 := certCheck k e s
    (s1.certValue k, s1)
def EnclSt.code : EnclSt → Nat | .sealed => 0 | .unsealing => 1 | .unsealed => 2 | .sealing => 3
/-- enclave_state (Table 17.6); EXHAUSTED is 1 while franking_count is 4,096. -/
def Encl.status (v : Encl) : Nat :=
  v.st.code + 8 * b2n (v.count == 4096) + 16 * b2n v.pin + 32 * b2n v.present + 64 * b2n (!v.damaged.isEmpty) + 128 * b2n v.wrapped
/-- Enclave objects read as numbers. -/
def enclRead (sub : Nat) (s : State) : Nat :=
  let v := s.encl
  match sub with
  | 1 => v.status | 2 => v.count | 3 => 4096 - v.count | 5 => v.certCrc | 6 => v.workingCrc | 7 => v.sealedAt
  | 8 => v.refused | 9 => v.audit | 0xD => 1 | _ => 0
def State.logBytes (s : State) (n : Nat) : List Byte := toBytes 32 (s.encl.log.get (fun _ => 0) n)

end Sys2Proof.Machine
end

