-- ==== Sys2Proof/Machine/Channeliser.lean ====
section
/-! DEFINITION. Decimation, channelisation, coefficient banks and the gain stage (05). -/

namespace Sys2Proof.Machine

open Sys2Proof

/-! ### Applying latched sets (02 R28, 14 R412) -/

/-- The set after the first n latched sets. -/
def State.setIdx (s : State) (n : Nat) : Tab Nat :=
  match n with | 0 => s.dict.base | k + 1 => (match s.dict.sets[k]? with | some x => x.2 | none => s.dict.base)
/-- How many latched sets have a Postmark at or before t, counted up to the last such. -/
def reachedSets (t : Nat) : List (Nat × Tab Nat) → Nat → Nat → Nat
  | [], _, acc => acc
  | (p, _) :: r, k, acc => reachedSets t r (k + 1) (if p ≤ t then k + 1 else acc)
/-- What a unit stamped t makes block n apply: the Postmark, the old set and the new set, and the count. -/
def State.dueSet (s : State) (n t : Nat) : Option (Nat × Tab Nat × Tab Nat × Nat) :=
  let k := reachedSets t s.dict.sets 0 0
  if (s.blk n).taken < k then
    match s.dict.sets[k - 1]? with
    | some (p, m) => some (p, s.setIdx (s.blk n).taken, m, k)
    | none => none
  else none
/-- Note the application in the block: APPLIED_PM and ACTIVE_VALID (02 R28). -/
def State.noteApplied (s : State) (n p k : Nat) : State :=
  s.modBlk n fun b => { b with taken := k, appliedPm := p, activeValid := true, running := true }
/-- A unit stamped t reaches a block, which processes it under its active set: RUNNING (02 R27). -/
def State.noteUnit (s : State) (n t : Nat) : State :=
  s.modBlk n fun b => { b with running := b.running || b.activeValid, reached := max b.reached t }
/-- A value in a set. -/
def setVal (m : Tab Nat) (o : Nat) : Nat := m.get objDefault o

/-- The part's rank under a set (06 R159): a 1 × 1 system has rank 0. -/
def State.rankIn (s : State) (m : Tab Nat) : Nat :=
  if setVal m (ob 0x6100 1) * setVal m (ob 0x6100 2) = 1 then 0 else s.relay.rank

/-! ### Fixed-point cosines: 2^64 for 1 -/

/-- 2π in units of 2^-64. -/
def twoPi64 : Int := 115904311329233965478
/-- The cosine series from a term on: term j over 2^64, with x² over 2^64. -/
def cosSeries (x2 : Int) : Nat → Nat → Int → Int
  | 0, _, _ => 0
  | f + 1, j, term => term + cosSeries x2 f (j + 1) (-(term * x2) / ((2 * j + 1) * (2 * j + 2) : Nat) / 2 ^ 64)
/-- cos(2πk/m) in units of 2^-64, for k up to m/4. -/
def cosQuarter (k m : Nat) : Int :=
  if 4 * k = m then 0 else
  let x := twoPi64 * k / m
  cosSeries (x * x / 2 ^ 64) 16 0 (2 ^ 64)
/-- cos(2πk/m) in units of 2^-64. -/
def cosTurn (k m : Nat) : Int :=
  let k := k % m
  let k := if 2 * k > m then m - k else k
  if 4 * k > m then -cosQuarter (m / 2 - k) m else cosQuarter k m
/-- sin(2πk/m) in units of 2^-64. -/
def sinTurn (k m : Nat) : Int := cosTurn (k + 3 * m / 4) m

/-! ### Banks and coefficients (05 R134 to R138, R150) -/

/-- T of a bank (05 R149, R134). -/
def Coef.T : Coef → Nat
  | .rom sharp _ d => (if sharp then 32 else 16) * d - 1
  | .image _ taps _ => taps.length
/-- A coefficient's range (05 R134). -/
def coefClamp (x : Int) : Int := satSym 131071 x
/-- FIR tap h[t]; a ROM profile is symmetric (05 R149, R150). -/
def Coef.tap (c : Coef) (t : Nat) : Int :=
  match c with
  | .rom sharp n d =>
    let T := (Coef.rom sharp n d).T
    coefClamp (Config.romTap sharp d (min t (T - 1 - t)))
  | .image _ taps _ => taps.getD t 0
/-- Window coefficient w[q]. -/
def Coef.win (c : Coef) (q : Nat) : Int :=
  match c with
  | .rom sharp n _ => coefClamp (Config.romWin sharp n (min q (4 * n - 1 - q)))
  | .image _ _ w => w.getD q 0
/-- A coefficient read with a falsely corrected bit: the 18 bits of the word hold it (05 R134). -/
def flipCoef (x : Int) (b : Nat) : Int := if b < 18 then signed 18 (unsigned 18 x ^^^ 2 ^ b) else x
/-- The coefficients as read with bit b of the 64-bit word of coefficient k falsely corrected: two to a word, in the image's order (16
R465; DESIGN CHOICE, assumption 204). -/
def Coef.flip (c : Coef) (k b : Nat) : Coef :=
  let n := match c with | .rom _ n _ => n | .image n _ _ => n
  let at_ := k / 2 * 2 + b / 32
  let fix (base : Nat) (x : Int) (j : Nat) : Int := if base + j = at_ then flipCoef x (b % 32) else x
  .image n ((List.range c.T).map fun t => fix 0 (c.tap t) t) ((List.range (4 * n)).map fun q => fix c.T (c.win q) q)
/-- The Plain profile for N and D. -/
def plainProfile (n d : Nat) : Profile := ⟨.rom false n d, 1, 0, true, false, 0⟩
/-- The Sharp profile for N and D. -/
def sharpProfile (n d : Nat) : Profile := ⟨.rom true n d, 2, 0, true, false, 0⟩
/-- The profile is Plain. -/
def Profile.isPlain (p : Profile) : Bool := match p.coef with | .rom false _ _ => true | _ => false
/-- The settling length S in frames (05 R146). -/
def settle (T d : Nat) : Nat := if T ≤ d then 3 else 4

/-- Bank A or B of an engine. -/
def Engine.bank (v : Engine) (b : Bool) : Bank := if b then v.b else v.a
def Engine.setBank (v : Engine) (b : Bool) (k : Bank) : Engine := if b then { v with b := k } else { v with a := k }
/-- PLAIN of 02 R27: a chain that feeds the output, the faded one too, runs Plain (05 R150). -/
def Engine.plain (v : Engine) : Bool :=
  (v.bank v.active).prof.isPlain || (v.fading && (v.bank (!v.active)).prof.isPlain)
/-- Store an engine with its PLAIN bit, which changes at the frame start of a swap, while the samples of earlier frames may still leave
the gain stage (DESIGN CHOICE, assumption 215). -/
def State.putEng (s : State) (e : Nat) (v : Engine) : State :=
  (s.setEng e v).modBlk (engSrc e) fun b => { b with plain := v.plain }

/-- The smallest sample period among an engine's inputs (05 R121). -/
def State.engPmin (s : State) (t e : Nat) : Nat :=
  ((List.range 4).map fun q => s.cfgAt t (ob (0x4200 + 4 * e + q) 4)).foldl min 8
/-- The largest T a bank may have (05 R121). -/
def tapLimit (d pmin : Nat) : Nat := min 512 (32 * d * pmin)

/-- The 32-bit words of bytes. -/
def words32 : List Byte → List Nat
  | a :: b :: c :: d :: r => ofBytes [a, b, c, d] :: words32 r
  | _ => []

/-- 05 R134, R135: check a complete image and give the profile it holds. -/
def checkImage (n d pmin : Nat) (certified : Bool) (bs : List Byte) : Option Profile :=
  let hd := ofBytes (bs.take 32)
  let T := bits 32 24 hd + 1
  let ws := words32 (bs.drop 32)
  let cs := ws.map (signed 32)
  let taps := cs.take T
  let win := cs.drop T
  if bits 15 0 hd = 1 ∧ 1024 * 2 ^ bits 18 16 hd = n ∧ 2 ^ bits 21 19 hd = d ∧ T ≤ tapLimit d pmin ∧
      bs.length = 32 + 4 * (T + 4 * n) ∧ (cs.all fun c => decide (-131071 ≤ c ∧ c ≤ 131071)) = true ∧
      crc32 (bs.drop 32) = bits 159 128 hd then
    some ⟨.image n taps win, bits 95 64 hd, signed 32 (bits 127 96 hd), taps == taps.reverse && win == win.reverse, certified, 0⟩
  else none

/-- A swap request for bank b is pending or latched. -/
def Engine.swapHeld (v : Engine) (b : Bool) : Bool := (v.fading || v.pending.isSome || v.latched.isSome) && b != v.active
/-- A load to a bank is refused: it is active, fading, or a swap to it is held (05 R137). -/
def Engine.bankBusy (v : Engine) (b : Bool) : Bool :=
  let st := (v.bank b).st
  st == .active || st == .fadingOut || v.swapHeld b
/-- A load to bank b of engine e is refused, because of the bank or because plain_force holds Plain in both banks (05 R150, R152;
DESIGN CHOICE, assumption 180). -/
def State.loadRefused (s : State) (e : Nat) (b : Bool) : Bool :=
  (s.eng e).bankBusy b || s.cfg (ob 0x5000 0x16) == 1

/-- An image is being received. -/
def Bank.midway (k : Bank) : Bool := k.skip || (k.st == .loading && k.loaded.isNone)
/-- 05 R134, R135, R137: a segment of an image for bank b. In LOADING a segment continues the image, whatever swap has been requested
since; a bank that loads an accepted image or a ROM profile takes no other (Table 05.4 lists no such event), and refuses it with
BANK_BUSY where a swap to it is held. The segments that follow one not taken belong to its image. -/
def bankImageOp (e : Nat) (b : Bool) (seg : List Byte) (last : Bool) (s : State) : State :=
  let v := s.eng e
  let k := v.bank b
  let rest (s : State) : State := s.putEng e (v.setBank b { k with skip := !last })
  if k.skip then rest s
  else if k.st ≠ .loading ∧ s.loadRefused e b = true then raise (engSrc e) 0x0E (b2n b) (rest s)
  else if k.st = .loading ∧ k.loaded.isSome then
    if v.swapHeld b then raise (engSrc e) 0x0E (b2n b) (rest s) else rest s
  else
    let bytes := if k.st = .loading then k.bytes ++ seg else seg
    if last then
      match checkImage (s.fftN lastSet) (s.decD lastSet) (s.engPmin lastSet e) false bytes with
      | some p => s.putEng e (v.setBank b { k with st := .loading, bytes := [], loaded := some p })
      | none => raise (engSrc e) 0x0F (b2n b) (s.putEng e (v.setBank b { k with st := .empty, bytes := [], loaded := none }))
    else s.putEng e (v.setBank b { k with st := .loading, bytes := bytes, loaded := none })
def execBankImage (e : Fin 24) (bank : Bool) (bytes : List Byte) (last : Bool) (s : State) :
    Host.Outcome State Fault Refusal := .next (bankImageOp e bank bytes last s)

/-- An abandoned image stream reaches the bank as an incomplete image, which it refuses (14 R401). -/
def bankAbandon (e : Nat) (b : Bool) (s : State) : State :=
  let v := s.eng e
  let k := v.bank b
  if k.skip then s.putEng e (v.setBank b { k with skip := false })
  else if k.st = .loading ∧ k.loaded.isNone then
    raise (engSrc e) 0x0F (b2n b) (s.putEng e (v.setBank b { k with st := .empty, bytes := [] }))
  else s

/-- 05 R136: the profile a bank_load_rom source names; none where it does not exist or does not match. -/
def State.romSource (s : State) (e src : Nat) : Option Profile :=
  let n := s.fftN lastSet
  let d := s.decD lastSet
  if src = 1 then some (plainProfile n d) else if src = 2 then some (sharpProfile n d)
  else if 0x80 ≤ src ∧ src ≤ 0x8F then
    (checkImage n d (s.engPmin lastSet e) true (s.certValue (ob (0x3010 + (src - 0x80)) 1))).map fun p => { p with crc := s.encl.certCrc }
  else none
/-- A source that 05 R136 lists; the service refuses others with RANGE (14 R394). -/
def romCode (src : Nat) : Bool := src == 1 || src == 2 || decide (0x80 ≤ src ∧ src ≤ 0x8F)
/-- 05 R136, R137: a write to bank_load_rom; Table 05.4 lists no such event for a bank in LOADING. -/
def bankLoadRomOp (e w : Nat) (s : State) : State :=
  let b := bit 0 w
  let v := s.eng e
  if romCode (bits 15 8 w) = false then s
  else if s.loadRefused e b then raise (engSrc e) 0x0E (b2n b) s
  else if (v.bank b).st = .loading then s
  else match s.romSource e (bits 15 8 w) with
    | some p => s.putEng e (v.setBank b { v.bank b with st := .loading, bytes := [], loaded := some p })
    | none => raise (engSrc e) 0x0F (b2n b) (s.putEng e (v.setBank b { v.bank b with st := .empty, bytes := [], loaded := none }))
/-- A certified profile is read from the enclave's store (17 R499). -/
def romCheck (w : Nat) (ecc : Ecc) (s : State) : State :=
  if 0x80 ≤ bits 15 8 w ∧ bits 15 8 w ≤ 0x8F then certCheck (ob (0x3010 + (bits 15 8 w - 0x80)) 1) ecc s else s
def execBankLoadRom (e : Fin 24) (v : RomLoad) (s : State) : Host.Outcome State Fault Refusal :=
  .next (bankLoadRomOp e v.word.toNat (romCheck v.word.toNat v.ecc s))

/-- 05 R137: a load completes; the chain starts at the next frame boundary. -/
def execBankLoadComplete (e : Fin 24) (bank : Bool) (s : State) : Host.Outcome State Fault Refusal :=
  let v := s.eng e
  let k := v.bank bank
  .next (match k.st, k.loaded with
  | .loading, some p =>
    let f := s.engF lastSet e
    s.putEng e (v.setBank bank { st := .warming, prof := p, start := (s.dataPm / f + 1) * f })
  | _, _ => s)

/-- 05 R137: a warming chain has processed every sample of a whole window: Table 05.4 and R125 give READY (S + 1)F after the frame
boundary at which the chain started, which R138 counts from the load; an earlier command does nothing (DEDUCED, assumption 214). -/
def execBankReady (e : Fin 24) (bank : Bool) (s : State) : Host.Outcome State Fault Refusal :=
  let v := s.eng e
  let k := v.bank bank
  let f := s.engF lastSet e
  .next (if k.st = .warming ∧ k.start + (settle k.prof.coef.T (s.decD lastSet) + 1) * f ≤ s.dataPm + 8 then
    s.putEng e (v.setBank bank { k with st := .ready })
  else s)

/-! ### Restarts (05 R138, R144 to R146) -/

/-- Restart every chain at a boundary: non-empty inactive banks warm again, the active bank stays active (05 R138). A bank in
LOADING, whose chain is stopped, stays there: Table 05.4 lists no such event for it (DESIGN CHOICE, assumption 213). -/
def restartBank (x : Nat) (k : Bank) : Bank :=
  match k.st with
  | .ready => { k with st := .warming, start := x }
  | .fadingOut => { k with st := .warming, start := x }
  | .warming => { k with start := x }
  | .active => { k with start := x }
  | _ => k
def Engine.restart (x : Nat) (v : Engine) : Engine := { v with a := restartBank x v.a, b := restartBank x v.b }
/-- The same for a change of p (05 R138, Table 05.6), which suppresses only its lane's inputs: the banks that do not feed the output
alone warm again; the active bank's start, which suppresses every input, stays. -/
def Engine.rewarm (x : Nat) (v : Engine) : Engine :=
  v.setBank (!v.active) (restartBank x (v.bank (!v.active)))
/-- End a fade: the new bank is wholly active, the old one ready. -/
def Engine.endFade (v : Engine) : Engine :=
  if v.fading then
    let k := v.bank (!v.active)
    { v.setBank (!v.active) { k with st := if k.st = .fadingOut then .ready else k.st } with fading := false }
  else v

/-! ### Swaps (05 R139 to R142) -/

/-- 05 R142: apply a held request (X, K, whether it came late) at frame x. -/
def applySwap (e x : Nat) (r : Nat × Nat × Bool) (s : State) : State :=
  let v := { s.eng e with pending := none, latched := none }
  let t := !v.active
  let nb := v.bank t
  let late := r.2.2
  let card (s : State) : State := if late then raise (engSrc e) 9 (b2n t) s else s
  match nb.st with
  | .ready =>
    let fade := decide (r.2.1 > 0)
    let v1 := (v.setBank v.active { v.bank v.active with st := if fade then .fadingOut else .ready }).setBank t
      { nb with st := .active }
    card (s.putEng e { v1 with active := t, swapApplied := x, reqReplaced := false, late := late, cold := false,
                               fading := fade, fadeX := x, fadeE := x + 2 ^ r.2.1 * s.engF x e, fadeK := r.2.1,
                               fadeStart := (v.bank v.active).start })
  | .warming =>
    let v1 := (v.setBank v.active { v.bank v.active with st := .ready }).setBank t { nb with st := .active }
    raise (engSrc e) 0x0A (b2n t) (card (s.putEng e { v1 with active := t, swapApplied := x, reqReplaced := false, late := late,
                                                              cold := true, fadeK := r.2.1 }))
  | _ => raise (engSrc e) 0x0B (b2n t) (s.putEng e v)

/-- 05 R142: a swap request at one engine. -/
def swapAt (e : Nat) (r : Nat) (s : State) : State :=
  let v := s.eng e
  let k := bits 91 88 r
  let x := roundUp (bits 63 0 r) (s.engF (bits 63 0 r) e)
  let q := (x, k, (match v.lastFrame with | some t => decide (x ≤ t) | none => false))
  if bit 96 r then
    s.putEng e { v with pending := none, latched := none }
  else if v.fading then
    match v.latched with
    | none => s.putEng e { v with latched := some q }
    | some _ => raise (engSrc e) 0x0C (b2n (!v.active)) (s.putEng e
        { v with latched := some q, swapsReplaced := satAdd 32 v.swapsReplaced 1, reqReplaced := true })
  else
    match v.pending with
    | none => s.putEng e { v with pending := some q, fadeK := k }
    | some _ => raise (engSrc e) 0x0C (b2n (!v.active)) (s.putEng e
        { v with pending := some q, fadeK := k, swapsReplaced := satAdd 32 v.swapsReplaced 1, reqReplaced := true })
/-- FADE is 0 to 12 (05 Table 05.5a); the service refuses others with RANGE (14 R394). CANCEL ignores it. -/
def swapOk (r : Nat) : Bool := bit 96 r || decide (bits 91 88 r ≤ 12)
/-- 05 R139: a swap request acts on every engine whose bit is set. -/
def swapRequestOp (r : Nat) (s : State) : State :=
  if swapOk r = false then s else forRange 24 (fun e s => if bit (64 + e) r then swapAt e r s else s) s
def execSwapRequest (r : BitVec 128) (s : State) : Host.Outcome State Fault Refusal := .next (swapRequestOp r.toNat s)
/-- The record with CANCEL set. -/
def withCancel (r : Nat) : Nat := r ||| 2 ^ 96
def execSwapCancel (r : BitVec 128) (s : State) : Host.Outcome State Fault Refusal :=
  .next (swapRequestOp (withCancel r.toNat) s)

/-! ### Commits at a filter engine (05 R143, R152, 04 R99) -/

/-- 05 R143: the next gain table at a commit that changes N or D, and the current table back to 1 + 0j: at the gain stage, with the
first channel sample stamped at or after the Postmark. -/
def gainCommit (p i : Nat) (s : State) : State :=
  let g := s.gain i
  let g1 := { g with gains := [], eff := p, seq := 0, cut := none }
  match g.next with
  | some n => if n.eff < p then raise (engSrc (i / 16)) 0x14 i
      (s.setGain i { g1 with next := none, discarded := satAdd 32 g.discarded 1 }) else s.setGain i g1
  | none => s.setGain i g1
/-- 05 R143: Plain for N and D in both banks, A active, the chains restarted at p. SWAP_CANCELLED, like the other swap kinds, names the
bank the request was for (DESIGN CHOICE, assumption 216). -/
def plainRestart (n d p e : Nat) (s : State) : State :=
  let v := s.eng e
  let pr := plainProfile n d
  let v1 : Engine := { v with a := { st := .active, prof := pr, start := p, skip := v.a.midway }
                              b := { st := .warming, prof := pr, start := p, skip := v.b.midway }
                              active := false, pending := none, latched := none, fading := false, recovery := none }
  let s1 := s.putEng e v1
  let s2 := if v.pending.isSome ∨ v.latched.isSome then raise (engSrc e) 0x0D (b2n (!v.active)) s1 else s1
  forRange 16 (fun k s => s.setGain (16 * e + k) { s.gain (16 * e + k) with cut := some p }) s2
/-- A channel sample stamped x reaches the gain stage: a commit of N or D at or before x acts first. -/
def gainCut (i x : Nat) (s : State) : State :=
  match (s.gain i).cut with
  | some p => if p ≤ x then gainCommit p i s else s
  | none => s
/-- What a commit at Postmark p does to engine e. -/
def engineCommit (e p : Nat) (old new : Tab Nat) (s : State) : State :=
  let ch (o : Nat) : Bool := setVal old o != setVal new o
  let force := setVal new (ob 0x5000 0x16) == 1 && setVal old (ob 0x5000 0x16) == 0
  if ch (ob 0x5000 0x10) || ch (ob 0x5000 0x11) || force then
    plainRestart (setVal new (ob 0x5000 0x10)) (setVal new (ob 0x5000 0x11)) p e s
  else
    let s1 := if (List.range 4).any fun q => ch (ob (0x4200 + 4 * e + q) 4) then s.putEng e ((s.eng e).rewarm p) else s
    forRange 16 (fun k s =>
      let i := 16 * e + k
      if ch (ob (0x4200 + i / 4) 4) then s.setGain i { s.gain i with restart := some p } else s) s1
/-- Engine e applies the sets due for a unit stamped t. -/
def engineApply (e t : Nat) (s : State) : State :=
  let s1 := s.noteUnit (engSrc e) t
  match s.dueSet (engSrc e) t with
  | some (p, old, new, k) => engineCommit e p old new (s1.noteApplied (engSrc e) p k)
  | none => s1

/-! ### Frame starts (05 R140 to R142, R151) -/

/-- 05 R151: an error in the coefficients of bank b. -/
def coefError (e x : Nat) (b : Bool) (err : Ecc) (test : Bool) (addr : Nat) (s : State) : State :=
  let v := s.eng e
  match err with
  | .ok => s
  | .corrected => raiseT test (engSrc e) 0x10 addr (s.putEng e { v with coefCorr := satAdd 32 v.coefCorr 1 })
  | .uncorrectable =>
    let v := { v with coefUncorr := satAdd 32 v.coefUncorr 1 }
    if (v.recovery.map (·.2)) = some b then raiseT test (engSrc e) 0x11 addr (s.putEng e v)
    else if b = v.active ∨ v.fading then
      let f := s.engF x e
      let v1 := Engine.endFade { v with pending := none, latched := none }
      raiseT test (engSrc e) 0x11 addr (s.putEng e { v1 with recovery := some (v1.recovery.getD (roundUp (s.dataPm + us 100) f, b)) })
    else
      raiseT test (engSrc e) 0x11 addr (s.putEng e
        ({ v with pending := none }.setBank b { v.bank b with st := .empty, bytes := [], loaded := none, skip := (v.bank b).midway }))

/-- 05 R142: the frame-start events of the swap table at frame x. -/
def swapFrame (e x : Nat) (s : State) : State :=
  let v := s.eng e
  if v.fading then
    if v.fadeE ≤ x then
      let s1 := s.putEng e v.endFade
      match v.latched with
      | some r => if r.1 ≤ v.fadeE then applySwap e x r s1
                  else s1.putEng e { v.endFade with latched := none, pending := some r, fadeK := r.2.1 }
      | none => s1
    else s
  else match v.pending with
    | some r => if r.1 ≤ x then applySwap e x (r.1, r.2.1, r.2.2 || (v.lastFrame.isNone && decide (r.1 < x))) s else s
    | none => s

/-- Note the decision of frame x. -/
def decideFrame (e x : Nat) (s : State) : State :=
  let v := s.eng e
  let n := v.bank v.active
  let o := v.bank (!v.active)
  let d : FrameDec := { new := n.prof, newStart := n.start, old := if v.fading then some (o.prof, v.fadeStart) else none,
                        fadeX := v.fadeX, fadeK := v.fadeK }
  s.putEng e { v with lastFrame := some x, decs := ((x, d) :: v.decs).take 16 }

/-- The frame just decided reads a coefficient of bank b with a falsely corrected bit (16 R465). -/
def wrongCoef (e addr : Nat) (b : Bool) (o : Option Nat) (s : State) : State :=
  let v := s.eng e
  match o, v.decs with
  | some k, (x, d) :: r =>
    let f (p : Profile) : Profile := { p with coef := p.coef.flip addr k }
    if v.active = b then s.putEng e { v with decs := (x, { d with new := f d.new }) :: r }
    else match d.old with
      | some (p, u) => s.putEng e { v with decs := (x, { d with old := some (f p, u) }) :: r }
      | none => s
  | _, _ => s
/-- A boundary X′ of engine e has come: the counter has reached it, and the channeliser has no frame before it left to start. -/
def State.boundaryDue (s : State) (e p : Nat) : Bool :=
  decide (p ≤ s.dataPm) && (match (s.eng e).lastFrame with | some t => decide (p ≤ t + s.engF p e) | none => true)
/-- 05 R151: at X_r Plain goes into the failed bank, which becomes active, and the chains restart. -/
def recoverNow (e x : Nat) (b : Bool) (s : State) : State :=
  let v := s.eng e
  let o := v.bank (!b)
  let v1 := (v.setBank b { st := .active, prof := plainProfile (s.fftN x) (s.decD x), start := x }).setBank (!b)
    { o with st := if o.st = .active then .ready else o.st }
  s.putEng e { v1.restart x with active := b, recovery := none }
/-- The recovery at a frame boundary that has come. -/
def recoverOp (e : Nat) (come : Nat → Bool) (s : State) : State :=
  match (s.eng e).recovery with
  | some (x, b) => if come x then recoverNow e x b s else s
  | none => s
def execCoefRecoveryRestart (e : Fin 24) (s : State) : Host.Outcome State Fault Refusal :=
  .next (recoverOp e (s.boundaryDue e) s)

/-- The earliest of a list. -/
def leastOf : List Nat → Option Nat
  | [] => none
  | x :: r => match leastOf r with | some y => some (min x y) | none => some x
/-- 05 R144: at P′ the engine ends a fade, applies a latched request and restarts its chains and its inputs' filters. -/
def syncNow (e p : Nat) (s : State) : State :=
  let v := s.eng e
  let s1 := s.putEng e { v.endFade with syncs := v.syncs.filter (fun t => t ≠ p) }
  let s2 := match v.latched with | some r => applySwap e p r s1 | none => s1
  let s3 := s2.putEng e ((s2.eng e).restart p)
  forRange 16 (fun k s => condSync (16 * e + k) p s) s3
/-- The earliest synchronising reset, once its boundary has come (15 R446: with the data). -/
def syncApply (e : Nat) (come : Nat → Bool) (s : State) : State :=
  match leastOf (s.eng e).syncs with
  | some p => if come p then syncNow e p s else s
  | none => s
def execSyncResetApply (e : Fin 24) (s : State) : Host.Outcome State Fault Refusal := .next (syncApply e (s.boundaryDue e) s)

/-- 05 R142: the channeliser of engine e starts frame x, after the recovery and the synchronising resets due by then. -/
def engineFrame (e x : Nat) (eccA eccB : Ecc) (addr : Nat) (s : State) : State :=
  let f := s.engF x e
  let fresh := match (s.eng e).lastFrame with | some t => decide (t < x) | none => true
  let come (p : Nat) : Bool := decide (p ≤ x)
  if x % f = 0 ∧ x ≤ s.dataPm ∧ fresh = true then
    let s1 := engineApply e x (forRange (s.eng e).syncs.length (fun _ s => syncApply e come s) (recoverOp e come s))
    let act := (s1.eng e).active
    let o := eccFlip (engSrc e) 2 (if act then eccB else eccA) s1
    let (ea, test, s2) := eccCheck (engSrc e) 2 (if act then eccB else eccA) s1
    let s3 := coefError e x act ea test addr s2
    let s4 := coefError e x (!act) (if act then eccA else eccB) false addr s3
    wrongCoef e addr act o (decideFrame e x (swapFrame e x s4))
  else s
def execChanneliserFrameStart (e : Fin 24) (x : BitVec 64) (eccA eccB : Ecc) (addr : Nat) (s : State) :
    Host.Outcome State Fault Refusal := .next (engineFrame e x.toNat eccA eccB addr s)

/-! ### Synchronising resets (05 R144) -/

/-- 05 R144, 06 R187: schedule a synchronising reset of the engines of a mask at P rounded up. -/
def syncResetOp (mask p : Nat) (s : State) : State :=
  forRange 24 (fun e s =>
    let v := s.eng e
    if bit e mask then s.putEng e { v with syncs := v.syncs ++ [roundUp p (s.engF p e)] } else s) s
/-- Every filter engine. -/
def allEngines : Nat := 0xFFFFFF
def execSyncResetAt (at_ : BitVec 64) (s : State) : Host.Outcome State Fault Refusal :=
  .next (syncResetOp allEngines at_.toNat s)

/-! ### Gain tables (05 R130, R131) -/

/-- The channels of an input (05 Table 05.1). -/
def State.channels (s : State) (t i : Nat) : Nat := if s.cplxIn t i then s.fftN t else s.fftN t / 2
/-- A gain word's two I16 components (05 R130). -/
def gainWord (w : Nat) : Int × Int := (signed 16 (w % 65536), signed 16 (w / 65536))
/-- 05 R131: a gain table arrives. -/
def gainTableOp (i eff first seq : Nat) (ws : List Nat) (s : State) : State :=
  let g := s.gain i
  let x := roundUp eff (s.inF eff i)
  let n : NextGain := ⟨x, seq, first, ws.map gainWord⟩
  if x ≤ g.eff then raise (engSrc (i / 16)) 0x14 i (s.setGain i { g with discarded := satAdd 32 g.discarded 1 })
  else match g.next with
    | none => s.setGain i { g with next := some n }
    | some _ => raise (engSrc (i / 16)) 0x15 i (s.setGain i { g with next := some n })
def execGainTable (i : Fin 384) (eff : BitVec 64) (first count seq : BitVec 16) (words : List (BitVec 32)) (s : State) :
    Host.Outcome State Fault Refusal :=
  let ws := (words.take count.toNat).map BitVec.toNat
  let b := toBytes 8 eff.toNat ++ toBytes 2 first.toNat ++ toBytes 2 count.toNat ++ toBytes 2 seq.toNat ++ toBytes 2 0 ++ ws.flatMap (toBytes 4)
  .next (gainTableOp i eff.toNat first.toNat seq.toNat ws (keepLive (ob (0x5100 + i) 0x20) b s))
/-- The gains default to 1 + 0j (05 R153). -/
def gainOne : Nat → Int × Int := fun _ => (16384, 0)
/-- Write consecutive gains. -/
def putGains (t : Tab (Int × Int)) : Nat → List (Int × Int) → Tab (Int × Int)
  | _, [] => t
  | k, w :: r => putGains (t.set gainOne k w) (k + 1) r
/-- 05 R131: the next table becomes current at the first channel sample stamped at or after its EFF′. -/
def gainSwitch (i x : Nat) (s : State) : State :=
  let g := s.gain i
  match g.next with
  | some n =>
    if n.eff ≤ x then
      let ws := n.words.take (s.channels x i - n.first)
      let s1 := s.setGain i { g with gains := putGains g.gains n.first ws, eff := n.eff, seq := n.seq, next := none }
      if n.eff < x then raise (engSrc (i / 16)) 0x13 i s1 else s1
    else s
  | none => s

/-! ### The channel sample (05 R120, R125, R129, R132, 04 R105, R106) -/

/-- The delay-line output word of component im at a stamp, 0 before stamp 0. -/
def doutAt (q : Cond) (im : Bool) (t : Int) : Nat :=
  if t < 0 then 0 else let w := q.dout.get (fun _ => (0, 0)) t.toNat; if im then w.2 else w.1
/-- 05 R120: the FIR output stamped v, in 2^-4 LSB. -/
def firOut (c : Coef) (d p : Nat) (q : Cond) (im : Bool) (v : Int) : Int :=
  rhu (((List.range c.T).map fun t =>
    c.tap t * wordValue (doutAt q im (v + ((d : Int) - 1) * p - t * p))).sum) (2 ^ 13)
/-- 05 R125: the polyphase sum z[n] of the frame at x, in units of 2^-21. -/
def polyphase (c : Coef) (nN d p : Nat) (q : Cond) (im : Bool) (x : Nat) (n : Nat) : Int :=
  ((List.range 4).map fun r =>
    c.win (r * nN + n) * firOut c d p q im ((x : Int) + ((r : Int) - 3) * (nN * d * p) + n * (d * p))).sum
/-- 05 R125: Z[c] in units of 2^-85. -/
def dftBin (co : Coef) (nN d p : Nat) (cplx : Bool) (q : Cond) (x c : Nat) : Int × Int :=
  (List.range nN).foldl (fun a n =>
    let k := c * n % nN
    let cr := cosTurn k nN
    let sr := sinTurn k nN
    let zr := polyphase co nN d p q false x n
    let zi := if cplx then polyphase co nN d p q true x n else 0
    (a.1 + zr * cr + zi * sr, a.2 + zi * cr - zr * sr)) (0, 0)
/-- ctab and stab of 04 R106. -/
def rotTab (n : Nat) : Int × Int :=
  (satSym 131071 (rhu (cosTurn n 16384) (2 ^ 47)), satSym 131071 (rhu (sinTurn n 16384) (2 ^ 47)))
/-- The phase index of 04 R106 for signed channel index c in the frame at x. -/
def phaseIndex (r : DelayRec) (x f nD : Nat) (c : Int) : Nat :=
  let k : Int := ((x : Int) - r.eff) / f
  let facc := satFacc (faccOf r x f)
  let phi : Int := (r.phase + k * r.prate) % 2 ^ 32
  let th := (phi - rhu (c * facc) ((nD * 256 : Nat) : Int)) % 2 ^ 32
  ((rhu th (2 ^ 18)) % 2 ^ 14).toNat
/-- The product of two complex integers. -/
def cmul (a b : Int × Int) : Int × Int := (a.1 * b.1 - a.2 * b.2, a.1 * b.2 + a.2 * b.1)
/-- The decision of the frame that holds stamp x. -/
def Engine.decFor (v : Engine) (x : Nat) : Option FrameDec :=
  match v.decs.find? fun d => decide (d.1 ≤ x) with | some d => some d.2 | none => none
/-- The samples with V = 0 in a window (05 R132): stamps from X − 3F + (D − T)p to X + F − p. -/
def invalidIn (q : Cond) (x f d p T : Nat) : Nat :=
  let lo : Int := (x : Int) - 3 * f + ((d : Int) - T) * p
  let n := (((x : Int) + f - lo) / p).toNat
  ((List.range n).filter fun k => !bit 12 (doutAt q false (lo + k * p))).length
/-- The not-valid marker (02 R37). -/
def marker (c8 : Bool) : Nat := if c8 then 0x8080 else 0x88
/-- A channel sample's word (02 R36). -/
def sampleCode (c8 : Bool) (re im : Int) : Nat :=
  if c8 then unsigned 8 re + 256 * unsigned 8 im else unsigned 4 re + 16 * unsigned 4 im
/-- The key of a channel sample: channel number, global input (06 R159), frame stamp. -/
def chanKey (n g x : Nat) : Nat := (x * 16384 + n) * 32768 + g

/-- The frame of input i at x is suppressed (05 R145, R146). -/
def State.suppressed (s : State) (i x : Nat) (dec : FrameDec) : Bool :=
  let f := s.inF x i
  let d := s.decD x
  let S (p : Profile) : Nat := settle p.coef.T d
  let most := match dec.old with | none => S dec.new | some (o, _) => max (S dec.new) (S o)
  let here := match (s.gain i).restart with | some b => decide (b ≤ x ∧ x < b + most * f) | none => false
  here || (match dec.old with
    | none => decide (x < dec.newStart + S dec.new * f)
    | some (_, st) => decide (x < max dec.newStart st + most * f))

/-- One validity decision for input i's frame at x (05 R132, 16 R458). In a fade the window is that of the larger T (DESIGN CHOICE,
assumption 218). -/
def State.frameValid (s : State) (i x : Nat) (dec : FrameDec) : Bool :=
  let q := s.cond i
  let T := match dec.old with | none => dec.new.coef.T | some (o, _) => max dec.new.coef.T o.coef.T
  let fr := q.frames.get frameInit x
  decide (invalidIn q x (s.inF x i) (s.decD x) (s.inP x i) T ≤ s.cfgAt x (ob 0x5000 0x15)) &&
    !s.suppressed i x dec && !fr.marked && !(s.blk (engSrc (i / 16))).held

/-- The value the gain stage rounds, numerator over 2^E, before the free error (05 R129, R141). -/
def gainValue (s : State) (i n x : Nat) (dec : FrameDec) : (Int × Int) × Nat :=
  let q := s.cond i
  let nN := s.fftN x
  let d := s.decD x
  let p := s.inP x i
  let f := s.inF x i
  let cx := s.cplxIn x i
  let c : Int := if cx then (n : Int) - nN / 2 else n
  let cm := (c % nN).toNat
  let zn := dftBin dec.new.coef nN d p cx q x cm
  let (z, kk) := match dec.old with
    | none => (zn, 0)
    | some (o, _) =>
      let zo := dftBin o.coef nN d p cx q x cm
      let j : Int := min (((x - dec.fadeX) / f : Nat) : Int) (2 ^ dec.fadeK - 1)
      let a : Int := 2 ^ dec.fadeK - 1 - j
      ((a * zo.1 + (j + 1) * zn.1, a * zo.2 + (j + 1) * zn.2), dec.fadeK)
  let rot := rotTab (phaseIndex (q.frames.get frameInit x).dr x f (nN * d) c)
  let g := (s.gain i).gains.get gainOne n
  (cmul g (cmul rot z), 85 + kk + 31 + s.inCfg x i 0x21)

/-- The samples of a frame's window: the input data that the fixed arithmetic depends on (05 R125, R126). -/
def windowSamples (q : Cond) (x f d p T : Nat) : List Int :=
  let lo : Int := (x : Int) - 3 * f + ((d : Int) - T) * p
  (List.range (((x : Int) + f - lo) / p).toNat).map fun k =>
    ((doutAt q false (lo + k * p) : Nat) : Int) * 65536 + (doutAt q true (lo + k * p) : Nat)
/-- Coefficients as data. -/
def Coef.key : Coef → List Int
  | .rom sharp n d => [(b2n sharp : Nat), n, d]
  | .image n taps win => ([2, n, taps.length] : List Int) ++ taps ++ win
/-- The settings and records that the fixed arithmetic of channel n's sample in the frame at x depends on (05 R126): never the
stamp, the input or its place. -/
def gainKey (s : State) (i n x : Nat) (dec : FrameDec) : List Int :=
  let f := s.inF x i
  let c : Int := if s.cplxIn x i then (n : Int) - s.fftN x / 2 else n
  let g := (s.gain i).gains.get gainOne n
  ([n, s.fftN x, s.decD x, s.inP x i, (b2n (s.cplxIn x i) : Nat), (b2n (s.c8 x) : Nat), s.inCfg x i 0x21, g.1, g.2,
    phaseIndex ((s.cond i).frames.get frameInit x).dr x f (s.fftN x * s.decD x) c] : List Int) ++ dec.new.coef.key ++
    match dec.old with
    | none => []
    | some (o, _) => ([dec.fadeK, ((x - dec.fadeX) / f : Nat)] : List Int) ++ o.coef.key

/-- The rounded and saturated component with the free error inside R126's bound, and whether it saturated. -/
def requantise (limit v err : Int) (big : Int) (e : Nat) : Int × Bool :=
  let step : Int := 2 ^ e
  let tol := step / 64 + big / 2 ^ 18
  let x := rhu (v + satSym tol err) step
  (satSym limit x, decide (x > limit ∨ x < -limit))

/-- Emit a channel sample word of an owned channel (06 R160). -/
def emitWord (i n x w : Nat) (s : State) : State :=
  if s.cfgAt x (ob 0x5000 0x13) ≤ n ∧ n < s.cfgAt x (ob 0x5000 0x13) + s.cfgAt x (ob 0x5000 0x14) then
    { s with filt := { s.filt with words := s.filt.words.set (fun _ => 0) (chanKey n (384 * s.rankIn (setOf x s.dict.sets s.dict.base) + i) x) (w + 1) } }
  else s
/-- The gain stage on one channel sample of a frame whose decision is dec (05 R126 to R129): its state after, and the word. -/
def gainSample (s : State) (i n x : Nat) (dec : FrameDec) : GainSt × Nat :=
  let ok := s.frameValid i x dec
  let c8 := s.c8 x
  let g := s.gain i
  let g1 := { g with outFrame := some x,
                     invalidFrames := if g.outFrame ≠ some x ∧ ok = false then satAdd 32 g.invalidFrames 1 else g.invalidFrames }
  if ok then
    let (v, ex) := gainValue s i n x dec
    let big : Int := max (v.1.natAbs : Int) (v.2.natAbs : Int)
    let T := match dec.old with | none => dec.new.coef.T | some (o, _) => max dec.new.coef.T o.coef.T
    let win := windowSamples (s.cond i) x (s.inF x i) (s.decD x) (s.inP x i) T
    let key := gainKey s i n x dec
    let lim : Int := if c8 then 127 else 7
    let re := requantise lim v.1 (Config.gainError win key false) big ex
    let im := requantise lim v.2 (Config.gainError win key true) big ex
    let k := b2n re.2 + b2n im.2
    ({ g1 with sat := satAdd 64 g1.sat k, satRun := satAdd 32 g1.satRun k }, sampleCode c8 re.1 im.1)
  else (g1, marker c8)
/-- A frame stamped x of input i reaches the gain stage: when it opens a new time block, the count of the block before it is
complete (05 R133), as for the spike count (04 R100; DESIGN CHOICE, assumption 178). -/
def satBlock (i x : Nat) (s : State) : State :=
  let g := s.gain i
  let tb := 8192 * s.inF x i
  let e := (x / tb + 1) * tb
  let new : Bool := match g.outFrame with | some d => decide (d < x) | none => true
  let near : Bool := match g.outFrame with | some d => decide (e ≤ d + 2 * tb) | none => false
  if g.satEnd ≠ e ∧ new = true then
    let s1 := s.setGain i { g with satEnd := e, satRun := 0, satBlock := if near then g.satRun else 0 }
    let lim := s.cfgAt (min g.satEnd (e - tb) - 1) (ob 0x5000 0x19)
    if g.satEnd ≠ 0 ∧ lim ≠ 0 ∧ lim < g.satRun then raise (engSrc (i / 16)) 0x12 i s1 else s1
  else s
/-- Channel n of input i's frame at x has all its samples. -/
def State.sampleDue (s : State) (i n x : Nat) : Bool :=
  let f := s.inF x i
  let done := match (s.cond i).nextOut with | some u => decide (x + f ≤ u) | none => false
  decide (x % f = 0 ∧ n < s.channels x i) && done
/-- 05 R129 to R133: the gain stage emits channel n of input i's frame at x. -/
def channelSample (i n x : Nat) (s : State) : State :=
  match (s.eng (i / 16)).decFor x with
  | none => s
  | some dec =>
    if s.sampleDue i n x then
      let s1 := gainSwitch i x (gainCut i x (satBlock i x s))
      let r := gainSample s1 i n x dec
      emitWord i n x r.2 (s1.setGain i r.1)
    else s
/-! ### Block counts (04 R100, 05 R133) and resets (04 R117, 05 R153) -/

/-- At a boundary of input i's time blocks (02 R44) the block before the one that ends there is complete, whether or not units
stamped after it have come; the one that ends there is complete with the first unit stamped at or after its end. -/
def inputBlock (t i : Nat) (s : State) : State :=
  let tb := 8192 * s.inF t i
  if t % tb = 0 ∧ tb ≤ t then satBlock i (t - tb) (spikeBlock i (t - tb) s) else s

/-- 04 R117, 05 R153: a per-block reset of engine e, with the committed N and D. -/
def engineReset (e : Nat) (s : State) : State :=
  let pr := plainProfile (s.fftN lastSet) (s.decD lastSet)
  let f := s.engF lastSet e
  let x := (s.dataPm / f + 1) * f
  let s1 := s.putEng e { a := { prof := pr, start := x }, b := { st := .warming, prof := pr, start := x } }
  forRange 16 (fun k s => (condReset (16 * e + k) s).setGain (16 * e + k) {}) s1

/-- group_delay (05 R148) in 2^-8 tick, as a 32-bit code; p is the engine's largest period. -/
def State.groupDelay (s : State) (e : Nat) : Nat :=
  let v := s.eng e
  let pr := (v.bank v.active).prof
  let n := s.fftN lastSet
  let d := s.decD lastSet
  let p := s.engF lastSet e / (n * d)
  unsigned 32 (if pr.linear then ((n * d * p * 256 : Nat) : Int) + ((pr.coef.T : Int) - d + 1) * p * 128 else pr.declGd * p)

def BankSt.code : BankSt → Nat
  | .empty => 0 | .loading => 1 | .warming => 2 | .ready => 3 | .active => 4 | .fadingOut => 5
/-- The CERTIFIED bit (17 R489): the active bank holds a certified profile, the enclave is SEALED, and certified_crc is that
of the load. -/
def State.bankCertified (s : State) (v : Engine) : Bool :=
  (v.bank v.active).prof.certified && s.encl.st == .sealed && s.encl.certCrc == (v.bank v.active).prof.crc
/-- bank_status (05 Table 05.12). FADE_K keeps the last K while no fade is current and no request is held (DESIGN CHOICE, assumption
217). -/
def State.bankStatus (s : State) (v : Engine) : Nat :=
  v.a.st.code + 8 * v.b.st.code + 64 * b2n v.active + 128 * b2n v.pending.isSome + 256 * b2n v.fading
    + 512 * b2n v.latched.isSome + 1024 * b2n v.reqReplaced + 2048 * b2n v.late + 4096 * b2n v.cold
    + 8192 * b2n (v.bank v.active).prof.linear + 16384 * b2n (s.bankCertified v) + 65536 * v.fadeK
/-- bank_a_profile and bank_b_profile (05 R137). -/
def Bank.profileId (k : Bank) : Nat := if k.st = .empty ∨ k.st = .loading then 0 else k.prof.id

end Sys2Proof.Machine
end

