-- ==== Sys2Proof/Machine/TimeBases.lean ====
section
/-! DEFINITION. Time bases and network time (15): alignment, reference checks, PTP time bases, TB-K. -/

namespace Sys2Proof.Machine

open Sys2Proof

/-- The source number of the time bases. -/
def timeSrc : Nat := 0xA60
def State.setTime (s : State) (t : Times) : State := { s with time := t }

/-! ### The Postmark counter and the references (15 R426 to R434) -/

/-- Some ingest or Relay lane is RUNNING (15 R428). -/
def State.dataLaneRunning (s : State) : Bool := (List.range 0xCC).any fun l => (s.lane l).rx == .running

/-- 15 R428: whether a pm_align record is accepted. -/
def State.alignOk (s : State) (seconds epoch : Nat) (force : Bool) : Bool :=
  decide (epoch ≤ seconds) && decide ((seconds - epoch) * 250000000 < 2 ^ 64) && (force || !s.dataLaneRunning)
/-- 15 R428: a write of pm_align. -/
def pmAlignOp (seconds epoch : Nat) (force : Bool) (s : State) : State :=
  if s.alignOk seconds epoch force then s.setTime { s.time with align := some ⟨seconds, epoch, force, s.now⟩ } else s
def execPmAlign (seconds epoch : BitVec 64) (force : Bool) (s : State) : Host.Outcome State Fault Refusal :=
  .next (pmAlignOp seconds.toNat epoch.toNat force s)
/-- 15 R428: no qualifying edge within 2 s of acceptance. -/
def execPmAlignTimeout (s : State) : Host.Outcome State Fault Refusal :=
  .next (match s.time.align with
  | some r => if r.at_ + 500000000 ≤ s.now then raise timeSrc 6 0 (s.setTime { s.time with align := none }) else s
  | none => s)

/-- The Postmark taken signed about the nearest whole second (15 R430). -/
def secondError (p : Nat) : Int := if p % 250000000 < 125000000 then (p % 250000000 : Nat) else (p % 250000000 : Nat) - 250000000

/-- A time base's value in 2^-32 ns, 64 bits (15 R435). -/
def Tb.val (t : Tb) (now : Nat) : Nat := (t.base + (now / 2 - t.since / 2) * t.addend) % 2 ^ 64
/-- The wraps of a time base's extended reading. -/
def Tb.wrapsAt (t : Tb) (now : Nat) : Int := t.wraps + ((t.base + (now / 2 - t.since / 2) * t.addend) / 2 ^ 64 : Nat)
/-- A time base's value and wraps, counted from now on. -/
def Tb.rebase (t : Tb) (now : Nat) : Tb := { t with base := t.val now, since := now, wraps := t.wrapsAt now }
/-- A PTP time base. -/
def State.tbOf (s : State) (n : Nat) : Tb := s.time.tb.get (fun _ => {}) n
def State.setTb (s : State) (n : Nat) (v : Tb) : State :=
  s.setTime { s.time with tb := s.time.tb.set (fun _ => {}) n v }
/-- FOLLOW's value before the wrap, E·10^9 + 4p ns (15 R439). -/
def State.followNs (s : State) : Nat := s.time.epoch * 1000000000 + 4 * s.pm
/-- tb_now (15 R435, R439). -/
def State.tbNow (s : State) (n : Nat) : Nat :=
  let t := s.tbOf n
  if t.st = .follow then s.followNs % 2 ^ 32 else t.val s.now / 2 ^ 32
/-- The firmware's extended reading in ns (15 R439, R440). -/
def State.tbLong (s : State) (n : Nat) : Int :=
  if (s.tbOf n).st = .follow then s.followNs else (s.tbOf n).wrapsAt s.now * 2 ^ 32 + s.tbNow n
/-- Every time base in FOLLOW is stepped with the counter (15 R439, R452). -/
def followStepped (s : State) : State :=
  forRange 3 (fun n s => if (s.tbOf n).st = .follow then s.setTb n { s.tbOf n with stepped := true } else s) s

/-- 15 R428, R429: the edge's alignment, from the state before the edge. -/
def alignAtEdge (s : State) : State :=
  match s.time.align with
  | some r =>
    if s.time.ref = .locked ∧ r.at_ + 25000000 ≤ s.now ∧ s.now ≤ r.at_ + 500000000 then
      if r.force = false ∧ s.dataLaneRunning then raise timeSrc 6 0 (s.setTime { s.time with align := none })
      else
        let v := (r.seconds - r.epoch) * 250000000
        let d : Int := (v : Int) - s.pm
        let t := { s.time with pm := v, lead := natSub (s.pm + s.time.lead) v, epoch := r.epoch, aligned := true, align := none }
        if d = 0 then s.setTime t
        else raise timeSrc 5 (unsigned 40 d) (followStepped (s.setTime { t with pmSteps := satAdd 32 t.pmSteps 1 }))
    else s
  | none => s

/-- 15 R430: check an edge's error. -/
def edgeCheck (e : Int) (s : State) : State :=
  if (e.natAbs : Nat) > s.cfg (ob 0x2200 5) then
    raise timeSrc 4 (unsigned 32 e) (s.setTime { s.time with ppsError := e, ppsTol := false, ppsSlips := satAdd 32 s.time.ppsSlips 1 })
  else s.setTime { s.time with ppsError := e, ppsTol := true }

/-- 15 R438: a time base in HOLDOVER runs at the ratio last measured in SLAVE while holdover_source is 1 and the reference is LOCKED;
else it keeps its addend. -/
def holdRate (n : Nat) (s : State) : State :=
  let t := s.tbOf n
  if t.st = .holdover ∧ s.cfg (ob (0x2210 + n) 8) = 1 ∧ s.time.ref = .locked then
    s.setTb n { t.rebase s.now with addend := t.ratio }
  else s
/-- 15 R433: LOCKED once the PLL is locked, REF10M is good and three edges came in step. -/
def tryLock (s : State) : State :=
  if s.time.ref = .acquire ∧ s.time.pll ∧ s.time.ref10m ∧ 3 ≤ s.time.goodEdges then
    forRange 3 holdRate (s.setTime { s.time with ref := .locked }) else s

/-- Hamper oscillator cycles since TB-K last rose (Table 15.6): 32 MHz over the ticks since then, but for a free deviation within the
500 ppm of both clocks and a cycle (assumption 25). -/
def State.tbkSub (s : State) (k : Nat) : Nat :=
  let n := (s.now - s.time.tbkAt) * 16 / 125
  let d := n / 2000 + 1
  min 31999 (natSub (n + Config.tbkSub k % (2 * d + 1)) d)
/-- 15 R445: capture every time base. -/
def capturePps (s : State) : State :=
  let (k, s) := s.draw
  let v := s.pm + 2 ^ 64 * s.tbNow 0 + 2 ^ 96 * s.tbNow 1 + 2 ^ 128 * s.tbNow 2 + 2 ^ 160 * (s.tbk % 2 ^ 48)
    + 2 ^ 208 * s.tbkSub k + 2 ^ 224 * ((s.time.edges + 1) % 2 ^ 32)
  s.setTime { s.time with capture := v, edges := (s.time.edges + 1) % 2 ^ 32 }

/-- 15 R428 to R433, R445: a PPS edge. -/
def ppsEdgeOp (s : State) : State :=
  let prev := s.time.lastPps
  let period : Option Int := match prev with | some t => some ((s.now : Int) - t - 250000000) | none => none
  let tol := s.cfg (ob 0x2200 5)
  let s1 := alignAtEdge s
  let s2 := s1.setTime { s1.time with ppsOk := true, lastPps := some s.now, ppsFrom := s.now, ppsLost := false }
  let s3 := if s2.time.aligned then edgeCheck (secondError s2.pm) s2
            else match period with | some e => edgeCheck e s2 | none => s2
  let good := match period with | some e => decide (e.natAbs ≤ tol) | none => false
  let s4 := if s3.time.ref = .acquire ∧ s3.time.pll then
      s3.setTime { s3.time with goodEdges := if s3.time.goodEdges = 0 ∨ good = false then 1 else s3.time.goodEdges + 1 }
    else s3
  capturePps (tryLock s4)
/-- 15 R432: no PPS edge for 275,000,000 ticks, since the last or since the checks began; one absence is raised once. -/
def ppsTimeoutOp (s : State) : State :=
  if s.time.ppsLost = false ∧ s.time.ppsFrom + 275000000 ≤ s.now then
    raise timeSrc 3 0 (s.setTime { s.time with ppsOk := false, ppsLost := true })
  else s
def execPpsTimeout (s : State) : Host.Outcome State Fault Refusal := .next (ppsTimeoutOp s)

/-- 15 R432: REF10M is lost; the count of errors in a row starts again (DEDUCED, assumption 229). -/
def ref10mLost (s : State) : State := raise timeSrc 2 0 (s.setTime { s.time with ref10m := false, refBad := 0, refGood := 0 })
/-- 15 R432: a window of 1,000 REF10M cycles. -/
def ref10mWindowOp (count : Nat) (s : State) : State :=
  if count = 24999 ∨ count = 25000 ∨ count = 25001 then
    let g := s.time.refGood + 1
    tryLock (s.setTime { s.time with refGood := min g 10, refBad := 0, ref10m := s.time.ref10m || decide (10 ≤ g) })
  else
    let s1 := s.setTime { s.time with ratioErrors := satAdd 32 s.time.ratioErrors 1, refGood := 0, refBad := s.time.refBad + 1 }
    if 3 ≤ s1.time.refBad then ref10mLost s1 else s1
def execRef10mWindow (count : Nat) (s : State) : Host.Outcome State Fault Refusal := .next (ref10mWindowOp count s)
def execRef10mAbsent (s : State) : Host.Outcome State Fault Refusal := .next (ref10mLost s)

/-- 15 R432, R433: a 1 ms measurement of SMPREF. -/
def smprefCheckOp (present : Bool) (s : State) : State :=
  match s.time.ref, present with
  | .noRef, true => s.setTime { s.time with ref := .acquire, pll := false, goodEdges := 0 }
  | .holdover, true => s.setTime { s.time with ref := .acquire, pll := false, goodEdges := 0,
                                               holdoverTime := min (s.tbk - s.time.holdFrom) (2 ^ 32 - 1) }
  | .acquire, false => raise timeSrc 1 0 (s.setTime { s.time with ref := .holdover, pll := false, holdFrom := s.tbk })
  | .locked, false => raise timeSrc 1 0 (s.setTime { s.time with ref := .holdover, pll := false, holdFrom := s.tbk })
  | _, _ => s
/-- SMPREF cycles counted in 1 ms of the Hamper oscillator: present within 250 MHz ± 1,000 ppm. -/
def smprefPresent (count : Nat) : Bool := decide (249750 ≤ count ∧ count ≤ 250250)
def execSmprefCheck (count : Nat) (s : State) : Host.Outcome State Fault Refusal := .next (smprefCheckOp (smprefPresent count) s)
/-- 15 R433: the sample PLL locks to SMPREF. -/
def execSamplePllLock (s : State) : Host.Outcome State Fault Refusal :=
  .next (if s.time.ref = .acquire ∧ s.time.pll = false then s.setTime { s.time with pll := true, goodEdges := 0 } else s)

/-! ### TB-K (15 R443, R444) -/

def execTbkTick (s : State) : Host.Outcome State Fault Refusal :=
  .next (s.setTime { s.time with tbk := (s.time.tbk + 1) % 2 ^ 64, tbkAt := s.now })
/-- 15 R444: the oscillator's error, measured while LOCKED. -/
def execTbkOscMeasure (err : Int) (s : State) : Host.Outcome State Fault Refusal :=
  .next (if s.time.ref = .locked then
    let s1 := s.setTime { s.time with tbkOsc := max (-(2 ^ 31)) (min (2 ^ 31 - 1) err) }
    if err.natAbs > 100000 then raiseLim 900000000000 timeSrc 12 0 0 s1 else s1
  else s)

/-! ### PTP time bases (15 R435 to R442) -/

/-- A setting of time base n. -/
def State.tbCfg (s : State) (n sub : Nat) : Nat := s.cfg (ob (0x2210 + n) sub)
/-- The index of TB-Pn's corrections as signed ps. -/
def State.tbCorr (s : State) (n sub : Nat) : Int := signed 32 (s.tbCfg n sub)
/-- The raw time-stamp of a message at time base n, in ps: its value on the management-clock edge (15 R441). -/
def State.rawStamp (s : State) (n : Nat) : Int := rhu (((s.tbOf n).val s.now * 1000 : Nat) : Int) (2 ^ 32)
/-- A received stamp, corrected (15 R441, R442): raw − L_in − ingress_corr, in ps. -/
def State.rxStamp (s : State) (n : Nat) (comma : Nat) : Int :=
  s.rawStamp n - (if s.tbCfg n 2 = 0 then 118400 + 800 * (comma : Int) else 24000) - s.tbCorr n 9
/-- A sent stamp, corrected: raw + L_eg + egress_corr, in ps. -/
def State.txStamp (s : State) (n : Nat) : Int :=
  s.rawStamp n + (if s.tbCfg n 2 = 0 then 71200 else 16000) + s.tbCorr n 0xA
/-- A difference of times in ps, taken within half the 2^32 ns of a time base to either side (DEDUCED, assumption 202). -/
def tbDiff (d : Int) : Int :=
  let m := d % 4294967296000
  if m < 2147483648000 then m else m - 4294967296000

/-- Change the state of a time base; STEPPED clears (15 Table 15.11). -/
def Tb.go (t : Tb) (x : TbSt) : Tb := if t.st = x then t else { t with st := x, stepped := false, inRun := 0, outRun := 0 }
/-- Open the ports: LISTENING on the configured domain. -/
def State.tbListen (s : State) (n : Nat) : State :=
  s.setTb n { (s.tbOf n).go .listening with domain := s.tbCfg n 3, foreign := [], syncWait := none, t3 := none, pt := none }
/-- Rebase a time base's value now with another addend. -/
def Tb.setRate (t : Tb) (now addend : Nat) : Tb := { t.rebase now with addend := addend }
/-- An addend held within ±500 ppm of nominal (15 R435). -/
def addendClamp (a : Int) : Nat := (max 34342558499 (min 34376918237 a)).toNat
/-- Limit the servo's change of rate to 100 ppm (15 R435). -/
def servoAddend (old k : Nat) : Nat :=
  addendClamp (max ((old : Int) - 3435973) (min ((old : Int) + 3435973) (Config.servoAddend k)))

/-- 15 Table 15.4: a new offset from the master, in ps. -/
def tbOffsetOp (n : Nat) (off : Int) (s : State) : State :=
  let t := s.tbOf n
  let ns : Int := rhu off 1000
  let lim := s.tbCfg n 6
  if t.st = .uncalibrated ∨ t.st = .slave then
    if off.natAbs > 1000 * s.tbCfg n 7 then
      let v := (t.val s.now : Int) - rhu (off * 2 ^ 32) 1000
      let t1 := { t.go .uncalibrated with base := unsigned 64 v, since := s.now, wraps := t.wrapsAt s.now + v / 2 ^ 64, steps := satAdd 32 t.steps 1,
                                          offset := ns, inRun := 0, outRun := 0 }
      raise timeSrc 9 n (s.setTb n { t1 with stepped := true })
    else
      let (k, s) := s.draw
      let t : Tb := { t.setRate s.now (servoAddend t.addend k) with offset := ns }
      if t.st = .uncalibrated then
        let r : Nat := if off.natAbs ≤ 1000 * lim then t.inRun + 1 else 0
        if 16 ≤ r then raise timeSrc 7 n (s.setTb n (t.go .slave)) else s.setTb n { t with inRun := r }
      else
        let r : Nat := if off.natAbs > 4000 * lim then t.outRun + 1 else 0
        if 4 ≤ r then raise timeSrc 8 n (s.setTb n (t.go .uncalibrated))
        else s.setTb n { t with outRun := r, ratio := t.addend }
  else s

/-- Lexicographic order of announced data sets. -/
def rankLt : List Nat → List Nat → Bool
  | [], [] => false
  | [], _ => true
  | _, [] => false
  | a :: r, b :: q => decide (a < b) || (a == b && rankLt r q)
/-- The best qualified master: two Announces, not silent for four intervals (IEEE 1588 default, PRESUMED, assumption 26). -/
def bestMaster (now : Nat) : List Foreign → Option Foreign
  | [] => none
  | f :: r =>
    let ok := decide (2 ≤ f.count) && decide (now ≤ f.last + 4 * f.interval)
    match bestMaster now r with
    | none => if ok then some f else none
    | some g => if ok && rankLt f.rank g.rank then some f else some g
/-- Hear an Announce. -/
def hearAnnounce (now id : Nat) (rank : List Nat) (interval : Nat) : List Foreign → List Foreign
  | [] => [⟨id, rank, 1, interval, now⟩]
  | f :: r =>
    if f.id = id then
      ⟨id, rank, if now ≤ f.last + 4 * f.interval then f.count + 1 else 1, interval, now⟩ :: r
    else f :: hearAnnounce now id rank interval r
/-- 15 Table 15.4: what the best master clock algorithm selects. -/
def selectMaster (n : Nat) (s : State) : State :=
  let t := s.tbOf n
  match bestMaster s.now t.foreign with
  | none => s
  | some f =>
    match t.st with
    | .listening => s.setTb n { t.go .uncalibrated with master := f.id }
    | .holdover =>
      if f.id = t.master then s.setTb n (t.go .uncalibrated)
      else raise timeSrc 11 n (s.setTb n { t.go .uncalibrated with master := f.id })
    | .uncalibrated | .slave =>
      if f.id = t.master then s
      else raise timeSrc 11 n (s.setTb n { t.go .uncalibrated with master := f.id, inRun := 0, outRun := 0 })
    | _ => s

/-- The wraps of the extended reading are the master's time at a Sync's receipt (DEDUCED, assumption 37). -/
def extendTo (n : Nat) (master : Int) (s : State) : State :=
  s.setTb n { (s.tbOf n).rebase s.now with wraps := rhu (rhu master 1000 - s.tbNow n) (2 ^ 32) }
/-- The offset of a complete Sync (IEEE 1588): t2 − t1 − mean path delay − asymmetry. -/
def syncDone (n : Nat) (t1 t2 : Int) (s : State) : State :=
  let t := s.tbOf n
  let path := t.delay + s.tbCorr n 0xB
  extendTo n (t1 + path) (tbOffsetOp n (tbDiff (t2 - t1 - path)) (s.setTb n { t with t1 := t1, t2 := t2, syncWait := none }))
/-- The interval of requests that a master asks for as a power of two of a second, held to 1/8 s to 8 s; 127 asks for none (15 R436). -/
def reqTicks (old : Nat) (l : Int) : Nat :=
  if l = 127 then old else if l ≤ -3 then 31250000 else if l = -2 then 62500000 else if l = -1 then 125000000
  else if l = 0 then 250000000 else if l = 1 then 500000000 else if l = 2 then 1000000000 else 2000000000

/-- A time base in mode 1 takes a message of its path, transport, version and domain (15 R436). -/
def State.ptpMine (s : State) (n : Nat) (field layer2 : Bool) (ver dom : Nat) : Bool :=
  let t := s.tbOf n
  s.tbCfg n 2 == b2n field && s.tbCfg n 4 == b2n layer2 && ver % 16 == 2 && decide (ver / 16 ≤ 1) && dom == s.tbCfg n 3
    && t.st != .disabled && t.st != .follow
/-- 15 R436, R437, R441: a received PTP message. A Pdelay_Req is answered two-step, with the times of its receipt and of the answer. -/
def ptpOp (n : Nat) (field layer2 : Bool) (m : PtpMsg) (s : State) : State :=
  let t := s.tbOf n
  let mine := s.ptpMine n field layer2
  let mst (ver dom : Nat) (src : BitVec 64) : Bool :=
    mine ver dom && src.toNat == t.master && (t.st == .uncalibrated || t.st == .slave)
  match m with
  | .announce ver dom src rank interval =>
    if mine ver dom then
      selectMaster n (s.setTb n { t with foreign := hearAnnounce s.now src.toNat rank interval t.foreign }) else s
  | .sync ver dom src seq two t1 corr comma =>
    if mst ver dom src then
      let t2 := s.rxStamp n comma
      if two then s.setTb n { t with twoStep := true, syncWait := some (seq, corr, t2) }
      else syncDone n (t1 + corr) t2 (s.setTb n { t with twoStep := false })
    else s
  | .followUp ver dom src seq t1 corr =>
    match t.syncWait with
    | some (q, c, t2) => if mst ver dom src && q == seq then syncDone n (t1 + corr + c) t2 s else s
    | none => s
  | .delayResp ver dom src seq t4 corr l =>
    match t.t3 with
    | some (q, t3) =>
      if mst ver dom src && q == seq && s.tbCfg n 5 == 0 then
        s.setTb n { t with t3 := none, reqInt := reqTicks t.reqInt l, delay := rhu (tbDiff (t.t2 - t.t1) + tbDiff (t4 - corr - t3)) 2 }
      else s
    | none => s
  | .pdelayReq ver dom src seq comma =>
    if mine ver dom && s.tbCfg n 5 == 1 then
      (s.send (.ptp n [1, seq, src.toNat, unsigned 64 (s.rxStamp n comma)])).send (.ptp n [4, seq, src.toNat, unsigned 64 (s.txStamp n)])
    else s
  | .pdelayResp ver dom _ seq t2 corr l comma =>
    match t.t3 with
    | some (q, _) =>
      if mine ver dom && q == seq && s.tbCfg n 5 == 1 then
        s.setTb n { t with reqInt := reqTicks t.reqInt l, pt := some (seq, t2 + corr, s.rxStamp n comma) } else s
    | none => s
  | .pdelayRespFollowUp ver dom _ seq t3 corr =>
    match t.t3, t.pt with
    | some (_, a), some (q, b, d) =>
      if mine ver dom && q == seq && s.tbCfg n 5 == 1 then
        s.setTb n { t with t3 := none, pt := none, delay := rhu (tbDiff (d - a) - tbDiff (t3 + corr - b)) 2 } else s
    | _, _ => s
def execPtpMessage (n : Fin 3) (m : PtpIn) (s : State) : Host.Outcome State Fault Refusal :=
  .next (ptpOp n m.field m.layer2 m.msg s)

/-- 15 R437, R438: no Announce from the master for 3 announce intervals. -/
def announceTimeoutOp (n : Nat) (s : State) : State :=
  let t := s.tbOf n
  let silent := match t.foreign.find? (fun f => f.id == t.master) with
    | some f => decide (f.last + 3 * f.interval ≤ s.now)
    | none => true
  if (t.st = .uncalibrated ∨ t.st = .slave) ∧ silent = true then
    let rate := if s.tbCfg n 8 = 1 ∧ s.time.ref = .locked then t.ratio else t.addend
    raise timeSrc 10 n (s.setTb n ((t.setRate s.now rate).go .holdover))
  else s
def execAnnounceTimeout (n : Fin 3) (s : State) : Host.Outcome State Fault Refusal := .next (announceTimeoutOp n s)

/-- 15 R436: a Delay_Req or Pdelay_Req is sent at the master's interval, never sooner; it is stamped as it leaves, tx ns later. -/
def delayReqOp (n tx : Nat) (s : State) : State :=
  let t := s.tbOf n
  let on : Bool := t.st == .uncalibrated || t.st == .slave || (t.st == .listening && s.tbCfg n 5 == 1)
  let due : Bool := match t.reqAt with | some a => decide (a + t.reqInt ≤ s.now) | none => true
  if on && due then
    (s.setTb n { t with reqAt := some s.now, t3 := some (t.reqSeq, s.txStamp n + 1000 * tx), reqSeq := (t.reqSeq + 1) % 65536 }).send
      (.ptp n [s.tbCfg n 5 + 2, t.reqSeq])
  else s
def execDelayReqSend (n : Fin 3) (tx : Nat) (s : State) : Host.Outcome State Fault Refusal := .next (delayReqOp n tx s)

/-- 15 Table 15.4: a commit, or the first answer of the service after a reset (R449), selects a mode. -/
def tbMode (n : Nat) (s : State) : State :=
  let t0 := s.tbOf n
  let t := if t0.st = .follow then { t0 with base := s.followNs % 2 ^ 32 * 2 ^ 32, since := s.now, wraps := s.followNs / 2 ^ 32 } else t0
  match s.tbCfg n 1 with
  | 0 => if t.st = .disabled then s else s.setTb n ((t.setRate s.now 34359738368).go .disabled)
  | 1 => if t.st = .disabled ∨ t.st = .follow then (s.setTb n t).tbListen n else s
  | _ => if t.st = .follow then s else s.setTb n (t.go .follow)
/-- A commit at the time bases: changed port settings put a mode 1 time base in LISTENING (15 R437). -/
def timeCommit (old new : Tab Nat) (s : State) : State :=
  forRange 3 (fun n s =>
    let ch := (List.range 4).any fun k => setVal old (ob (0x2210 + n) (k + 2)) != setVal new (ob (0x2210 + n) (k + 2))
    let s1 := tbMode n s
    if s.tbCfg n 1 = 1 ∧ (s.tbOf n).st ≠ .disabled ∧ (s.tbOf n).st ≠ .follow ∧ ch then s1.tbListen n else holdRate n s1) s

/-- 15 R449: a per-block reset of the time bases. -/
def timeReset (s : State) : State :=
  let s1 := s.setTime { s.time with ref := .acquire, pll := s.time.pll, goodEdges := 0, ref10m := false, refBad := 0, refGood := 0,
                                    ppsOk := false, ppsTol := false, align := none, ppsFrom := s.now, ppsLost := false }
  forRange 3 (fun n s => if s.tbCfg n 1 = 1 then s.tbListen n else s) s1

def RefSt.code : RefSt → Nat | .noRef => 0 | .acquire => 1 | .locked => 2 | .holdover => 3
def TbSt.code : TbSt → Nat
  | .disabled => 0 | .listening => 1 | .uncalibrated => 2 | .slave => 3 | .holdover => 4 | .follow => 5
/-- ref_status (15 Table 15.10). -/
def State.refStatus (s : State) : Nat :=
  let t := s.time
  t.ref.code + 4 * b2n t.aligned + 8 * b2n t.align.isSome + 16 * b2n t.ref10m + 32 * b2n t.ppsOk + 64 * b2n t.ppsTol
/-- tb_state (15 Table 15.11). -/
def Tb.status (t : Tb) : Nat := t.st.code + 8 * b2n t.twoStep + 16 * b2n t.stepped + 256 * t.domain

/-- The time bases as a main reset leaves them: each TB-P 0 and DISABLED (15 R449), TB-K kept. -/
def Times.reset (t : Times) : Times :=
  { mono := t.mono, tbk := t.tbk, tbkAt := t.tbkAt, ppsFrom := t.mono
    tb := (List.range 3).foldl (fun x n => x.set (fun _ => {}) n { since := t.mono }) [] }
/-- The counters at one tick of the sample clock (15 R426, R427): the Postmark counter holds 0 while the main domain is in reset. -/
def countTick (s : State) : State :=
  s.setTime { s.time with pm := if s.pwr.inReset then 0 else (s.time.pm + 1) % 2 ^ 64, mono := s.time.mono + 1 }

end Sys2Proof.Machine
end

