-- ==== Sys2Proof/Machine/Memory.lean ====
section
/-! DEFINITION. The addressed memories (09 R260, 13 R368): bytes by bus address in one canonical table, the DRAM by its
stack-local view, uncorrectable words, and the region placement of a set (09 R262). -/

namespace Sys2Proof.Machine

open Sys2Proof

/-- What an unlisted byte reads as: the part writes 0 over every memory before its first use (09 R276, 12 R365, 13 R388). -/
def memDefault : Nat → Byte := fun _ => 0
/-- The canonical form of the memory. -/
def Memory.wf (m : Tab Byte) : Bool := Tab.wf memDefault m

/-- The base of the DRAM window and the size of a stack. -/
def dramBase : Nat := 0x8000000000
def stackSize : Nat := 51539607552
/-- The stack and stack offset of an offset in the DRAM window (09 R260). -/
def dramLoc (off : Nat) : Nat × Nat :=
  if off < 4 * stackSize then (off / stackSize, off % stackSize)
  else
    let i := natSub off (4 * stackSize)
    (i / 4096 % 4, i / 16384 * 4096 + i % 4096)
/-- The bus address of a stack offset in the stack-local view. -/
def dramAddr (stack x : Nat) : Nat := dramBase + stack * stackSize + x
/-- Bus addresses that name one byte have one canonical address. -/
def canon (a : Nat) : Nat :=
  if dramBase + 4 * stackSize ≤ a ∧ a < dramBase + 8 * stackSize then
    let l := dramLoc (natSub a dramBase)
    dramAddr l.1 l.2
  else a

def State.setMem (s : State) (m : Tab Byte) : State := { s with mm := { s.mm with mem := m } }
/-- One byte by bus address. -/
def State.byteAt (s : State) (a : Nat) : Byte := s.mm.mem.get memDefault (canon a)
def putByte (a : Nat) (b : Byte) (s : State) : State := s.setMem (s.mm.mem.set memDefault (canon a) b)
/-- Bytes from a bus address. -/
def State.bytesAt (s : State) (a n : Nat) : List Byte := (List.range n).map fun k => s.byteAt (a + k)
/-- Write consecutive bytes. -/
def putBytes : Nat → List Byte → State → State
  | _, [], s => s
  | a, b :: r, s => putBytes (a + 1) r (putByte a b s)
/-- A little-endian number of n bytes. -/
def State.numAt (s : State) (a n : Nat) : Nat := ofBytes (s.bytesAt a n)
def putNum (a n v : Nat) (s : State) : State := putBytes a (toBytes n v) s

/-- The 8-byte word of an address is uncorrectable. -/
def State.badWord (s : State) (a : Nat) : Bool := s.mm.bad.get (fun _ => 0) (canon a / 8) == 1
/-- Mark or clear the uncorrectable mark of a word. -/
def setBad (a : Nat) (b : Bool) (s : State) : State :=
  { s with mm := { s.mm with bad := s.mm.bad.set (fun _ => 0) (canon a / 8) (b2n b) } }
/-- Write bytes as the memories' controllers do: a whole 8-byte word clears its mark, a merge keeps it (09 R274). -/
def storeBytes (a : Nat) (bs : List Byte) (s : State) : State :=
  let s1 := putBytes a bs s
  let w0 := (a + 7) / 8
  let w1 := (a + bs.length) / 8
  (List.range (w1 - w0)).foldl (fun s k => if s.badWord (8 * (w0 + k)) then setBad (8 * (w0 + k)) false s else s) s1

/-- The data bit of the word at an address that a check corrected falsely changes in the stored word (16 R465). -/
def flipWord (a : Nat) (o : Option Nat) (s : State) : State :=
  match o with
  | some b => putByte (a + b / 8) (s.byteAt (a + b / 8) ^^^ BitVec.ofNat 8 (2 ^ (b % 8))) s
  | none => s
/-- Bytes read from an address with such bits: the canonical address of each word and the bit. -/
def flippedBytes (a : Nat) (flips : List (Nat × Nat)) (d : List Byte) : List Byte :=
  d.zipIdx.map fun x => flips.foldl (fun b f =>
    if f.1 + f.2 / 8 = canon (a + x.2) then b ^^^ BitVec.ofNat 8 (2 ^ (f.2 % 8)) else b) x.1

/-! ### Stacks -/

def stackInit : Nat → Stack := fun _ => {}
def State.stk (s : State) (n : Nat) : Stack := s.mm.stack.get stackInit n
def State.setStk (s : State) (n : Nat) (v : Stack) : State :=
  { s with mm := { s.mm with stack := s.mm.stack.set stackInit n v } }
def stackSrc (n : Nat) : Nat := 0x900 + n

/-! ### Pages and regulators (09 R267, R269) -/

def bankInit : Nat → Bank9 := fun _ => {}
def bankKey (pc bank : Nat) : Nat := pc * 48 + bank
def Stack.bank (v : Stack) (k : Nat) : Bank9 := v.banks.get bankInit k
def Stack.setBank (v : Stack) (k : Nat) (b : Bank9) : Stack := { v with banks := v.banks.set bankInit k b }
/-- One 32-byte access at a stack offset (09 R261, R267): a row hit, a conflict, or the opening of a row. -/
def Stack.access (v : Stack) (x : Nat) : Stack :=
  let k := bankKey (x / 32 % 32) (x / 32768 % 48)
  let row := x / 1572864
  let b := v.bank k
  match b.row with
  | some r => if r = row then { v with hits := satAdd 64 v.hits 1 }
              else { v.setBank k { b with row := some row } with conflicts := satAdd 64 v.conflicts 1 }
  | none => v.setBank k { b with row := some row }
/-- The accesses of a request. -/
def Stack.touch (v : Stack) (x len : Nat) : Stack :=
  if len = 0 then v else (List.range ((x + len - 1) / 32 - x / 32 + 1)).foldl (fun v k => v.access (32 * (x / 32 + k))) v
def bucketInit : Nat → Bucket := fun _ => {}
def Stack.bucket (v : Stack) (port : Nat) : Bucket := v.buckets.get bucketInit port
def Stack.setBucket (v : Stack) (port : Nat) (b : Bucket) : Stack := { v with buckets := v.buckets.set bucketInit port b }
/-- The tokens of a bucket at a time, in 10⁻⁶ byte: ρ MB/s give 4,000·ρ of them in a tick. -/
def Bucket.tokens (b : Bucket) (now : Nat) : Nat := min (b.depth * 1000000) (b.level + (now - b.at_) * (b.rate * 4000))
/-- An access of n bytes takes its tokens. One that finds too few waits, counted, and issues when its bucket holds them: the bucket is
empty from then on (DESIGN CHOICE, assumption 188). -/
def Stack.take (v : Stack) (port n now : Nat) : Stack :=
  let b := v.bucket port
  let have_ := b.tokens now
  if v.st = .running then
    if n * 1000000 ≤ have_ then v.setBucket port { b with level := have_ - n * 1000000, at_ := max now b.at_ }
    else
      let wait := cdiv (n * 1000000 - have_) (max 1 (b.rate * 4000))
      { v.setBucket port { b with level := 0, at_ := max now b.at_ + wait } with waits := satAdd 64 v.waits 1 }
  else v
/-- A port's transfer of n bytes that its sequencer spreads over the time since the port's last use: it waits, counted, only where that
time's tokens did not suffice (07 R209, R213; DESIGN CHOICE, assumption 188). -/
def Stack.stream (v : Stack) (port n now : Nat) : Stack :=
  let b := v.bucket port
  let have_ := b.level + (now - b.at_) * (b.rate * 4000)
  if v.st = .running ∧ n * 1000000 ≤ have_ then
    v.setBucket port { b with level := min (b.depth * 1000000) (have_ - n * 1000000), at_ := max now b.at_ }
  else v.take port n now
/-- Each stack carries a quarter of a transfer of n bytes. -/
def streamTokens (port n : Nat) (s : State) : State :=
  (List.range 4).foldl (fun s k => s.setStk k ((s.stk k).stream port (n / 4) s.now)) s
/-- A port accesses n bytes at a stack offset: their tokens, the rows they open. -/
def usePort (k port x n : Nat) (s : State) : State := s.setStk k (((s.stk k).take port n s.now).touch x n)

/-- What the patterns of an uncorrectable word do to later reads: it stays uncorrectable until it is written whole (09 R274). Words of
the corner-turn buffer are written anew before their next read. -/
def keepBad (stack x port : Nat) (e : Ecc) (s : State) : State :=
  if e = .uncorrectable ∧ port ≠ 4 ∧ s.badWord (dramAddr stack x) = false then setBad (dramAddr stack x) true s else s
/-- 09 R273: what the check of the word at a stack offset reports to a port (15 the scrubber): counts, last address and
Postcards, with an active injection (16 Table 16.8, checker 0x01). -/
def dramCheck (stack x port : Nat) (e : Ecc) (s : State) : Ecc × State :=
  let e1 := if s.badWord (dramAddr stack x) then Ecc.uncorrectable else e
  let (r, test, s1) := eccCheck (stackSrc stack) 1 e1 (keepBad stack x port e s)
  let v := s1.stk stack
  match r with
  | .ok => (r, s1)
  | .corrected =>
    (r, raiseT test (stackSrc stack) 1 (x + port * 2 ^ 36) (s1.setStk stack { v with corr := satAdd 32 v.corr 1 }))
  | .uncorrectable =>
    (r, raiseT test (stackSrc stack) 2 (x + port * 2 ^ 36)
      (s1.setStk stack { v with uncorr := satAdd 32 v.uncorr 1, lastErr := x }))

/-- The data bit that the check of a stack's word corrects falsely. -/
def dramFlip (stack x : Nat) (e : Ecc) (s : State) : Option Nat :=
  if s.badWord (dramAddr stack x) then none else eccFlip (stackSrc stack) 1 e s

/-! ### Set quantities (07 R198, R204, R205, 08 R231, 09 R262) -/

/-- M, N_s, G, T of a set. -/
def setM (m : Tab Nat) : Nat := setVal m (ob 0x6100 1) * setVal m (ob 0x6100 2)
def setNs (m : Tab Nat) : Nat := 384 * setM m
def setG (m : Tab Nat) : Nat := 48 * setM m
def setT (m : Tab Nat) : Nat := setG m * (setG m + 1) / 2
/-- The settings of the beam set (07 R212 to R217). -/
def beamB (m : Tab Nat) : Nat := setVal m (ob 0x7040 1)
def beamIf (m : Tab Nat) : Nat := setVal m (ob 0x7040 2)
def beamIb (m : Tab Nat) : Nat := setVal m (ob 0x7040 3)
def beamCf (m : Tab Nat) : Nat := setVal m (ob 0x7040 4)
def beamCb (m : Tab Nat) : Nat := setVal m (ob 0x7040 5)
def beamPower (m : Tab Nat) : Bool := setVal m (ob 0x7040 6) == 1
def beamKb (m : Tab Nat) : Nat := setVal m (ob 0x7040 7)
def beamShift (m : Tab Nat) : Nat := setVal m (ob 0x7040 8)
def beamKp (m : Tab Nat) : Nat := setVal m (ob 0x7040 9)
def beamSpan (m : Tab Nat) : Nat := setVal m (ob 0x7040 0xA)
/-- n of a set. -/
def setN (m : Tab Nat) : Nat := setVal m (ob 0x7000 4)
/-- C8 format, bytes per sample. -/
def setC8 (m : Tab Nat) : Bool := setVal m (ob 0x5000 0x12) == 1
/-- C, the owned channels (06 R160), and e. -/
def setChans (m : Tab Nat) : Nat := setVal m (ob 0x5000 0x14) / setM m
def setBytes (m : Tab Nat) : Nat := if setC8 m then 2 else 1
/-- F_max of a set (02 R545). -/
def setF (m : Tab Nat) : Nat :=
  setVal m (ob 0x5000 0x10) * setVal m (ob 0x5000 0x11) * maxOf ((List.range 96).map fun l => setVal m (ob (0x4200 + l) 4))
/-- T_B of a set (02 R44). -/
def setTB (m : Tab Nat) : Nat := 8192 * setF m
/-- b_k of a set (07 R196). -/
def beamCells (m : Tab Nat) (k : Nat) : Nat := setVal m (ob (0x7200 + k) 1)

/-- The settings in force for data stamped t. -/
def State.setAt (s : State) (t : Nat) : Tab Nat := setOf t s.dict.sets s.dict.base
/-- The absolute number of a local channel (06 R160). -/
def State.absChan (s : State) (m : Tab Nat) (c : Nat) : Nat := setVal m (ob 0x5000 0x13) + s.rankIn m * setChans m + c

/-- Bytes of one weight buffer (07 R217), rounded to 4 KiB. -/
def weightBytes (m : Tab Nat) : Nat :=
  if beamB m = 0 then 0 else roundUp (64 + 2 * beamB m * beamIb m * beamCb m / beamSpan m) 4096
/-- Bytes of the stack-local regions on one stack, and λ (09 R262). -/
def localBytes (m : Tab Nat) : Nat := setChans m * setT m / 4 * (512 + 16 + 512 + 8)
def lamOf (m : Tab Nat) : Nat := roundUp (localBytes m) (64 * 2 ^ 20)
/-- Offset of the system area in the interleaved view. -/
def systemOff : Nat := 4 * stackSize - 4 * 2 ^ 30
/-- The placement of a set with the stack-local regions from a base on, the others from an interleaved offset on (09 R262, R265). -/
def placeAt (m : Tab Nat) (base ct : Nat) : Place :=
  let lam := lamOf m
  let hdr := ct + 2 * setNs m * setChans m * 8192 * setBytes m
  let w0 := hdr + setChans m * (setNs m * 32 + 1024)
  let w1 := w0 + weightBytes m
  let user := w1 + weightBytes m
  { base := base, lam := lam, ct := ct, hdr := hdr, w0 := w0, w1 := w1, user := user, userSize := systemOff - user }
/-- The placement with nothing reserved: from stack offset 0, and from 4·λ (09 R262). -/
def firstPlace (m : Tab Nat) : Place := placeAt m 0 (4 * lamOf m)
/-- The regions of a set fit. -/
def Place.fits (p : Place) : Bool := decide (p.user ≤ systemOff)
/-- Bus address of an interleaved offset. -/
def interAddr (i : Nat) : Nat := dramBase + 4 * stackSize + i
/-- The placement in force for data stamped t. -/
def placeOf (t : Nat) : List (Nat × Place) → Place → Place
  | [], acc => acc
  | (p, x) :: r, acc => placeOf t r (if p ≤ t then x else acc)
def State.placeFor (s : State) (t : Nat) : Place := placeOf t s.mm.place {}
/-- The placement of the active set. -/
def State.place (s : State) : Place := s.placeFor lastSet

/-- The interleaved offset of a byte of a stack. -/
def interOff (stack x : Nat) : Nat := (x / 4096 * 4 + stack) * 4096 + x % 4096
/-- The rows that n bytes from an interleaved offset on open, in pages of 4 KiB (09 R260, R261, R267). -/
def touchInter (lo n : Nat) (s : State) : State :=
  if n = 0 then s
  else
    (List.range ((lo + n - 1) / 4096 + 1 - lo / 4096)).foldl (fun s j =>
      let p := lo / 4096 + j
      let a := max lo (4096 * p)
      s.setStk (p % 4) ((s.stk (p % 4)).touch (p / 4 * 4096 + a % 4096) (min (lo + n) (4096 * (p + 1)) - a))) s
/-- The interleaved offset of an octet word in the corner-turn buffer: two blocks by turns, each by channel, group and sample index
(DESIGN CHOICE, assumption 224). -/
def cornerOff (m : Tab Nat) (pl : Place) (c b g q : Nat) : Nat :=
  pl.ct + (((b % 2 * setChans m + c) * setG m + g) * 8192 + q) * (8 * setBytes m)
/-- An owned channel's octet word is written to the corner-turn buffer with its eighth input's sample (09 Table 09.3). -/
def cornerWrite (n a x : Nat) (s : State) : State :=
  let m := s.setAt x
  let c := natSub n (s.absChan m 0)
  let q := x / setF m
  if a % 8 = 7 ∧ s.absChan m 0 ≤ n ∧ c < setChans m then
    let o := cornerOff m (s.placeFor x) c (q / 8192) (a / 8) (q % 8192)
    let k := o / 4096 % 4
    usePort k 1 (o / 16384 * 4096 + o % 4096) (8 * setBytes m) s
  else s
/-- 05 R129 to R133: channel n of input i's frame at x leaves the gain stage; one of an owned channel goes to staging (09 Table 09.3). -/
def channelOut (i n x : Nat) (s : State) : State :=
  if ((s.eng (i / 16)).decFor x).isSome && s.sampleDue i n x then
    cornerWrite n (384 * s.rankIn (s.setAt x) + i) x (channelSample i n x s)
  else s
def execChannelSampleOut (i : Fin 384) (n : Nat) (x : BitVec 64) (s : State) : Host.Outcome State Fault Refusal :=
  .next (channelOut i n x.toNat s)
/-- Every byte of a bus-address range lies in the user area of a placement, in either view. -/
def inUser (p : Place) (a n : Nat) : Bool :=
  let lo := p.user
  let hi := p.user + p.userSize
  if n = 0 then true
  else if dramBase + 4 * stackSize ≤ a then
    let i := natSub a (dramBase + 4 * stackSize)
    decide (lo ≤ i ∧ i + n ≤ hi)
  else if dramBase ≤ a ∧ natSub a dramBase + n ≤ 4 * stackSize then
    let first := (natSub a dramBase) / stackSize
    let last := (natSub a dramBase + n - 1) / stackSize
    (List.range (last - first + 1)).all fun k =>
      let st := first + k
      let x0 := if k = 0 then (natSub a dramBase) % stackSize else 0
      let x1 := if st = last then (natSub a dramBase + n - 1) % stackSize else stackSize - 1
      decide (lo ≤ interOff st x0 ∧ interOff st x1 < hi)
  else false

/-- Where the accumulator, dump product and tile record of (c, t) lie on stack t mod 4 (09 R263). -/
def tileIndex (m : Tab Nat) (c t : Nat) : Nat := c * (setT m / 4) + t / 4
def accOff (m : Tab Nat) (p : Place) (c t k : Nat) : Nat := p.base + 512 * tileIndex m c t + 8 * k
def dumpBase (m : Tab Nat) (p : Place) : Nat := p.base + setChans m * (setT m / 4) * (512 + 16)
def recBase (m : Tab Nat) (p : Place) : Nat := p.base + setChans m * (setT m / 4) * (512 + 16 + 512)

end Sys2Proof.Machine
end

