-- ==== Sys2Proof/Machine/Exclude.lean ====
section
/-! DEFINITION. Integrations and exclusion records (02 R47, 08 R240, R249): what every part of the path that marks or withdraws
samples reports to the dump. -/

namespace Sys2Proof.Machine

open Sys2Proof

/-- The integration of channel c that block b belongs to: ⌊(b − φ)/n⌋, raised by 1 (08 R240). -/
def intOf (m : Tab Nat) (c b : Nat) : Nat := (b + setN m - c % setN m) / setN m
/-- The first block of an integration by its phases. -/
def intStart (m : Tab Nat) (c i : Nat) : Nat := i * setN m + c % setN m - setN m
/-- The stamp from which integrations run for data stamped x: that of START, or of the last commit at or before x that starts them
anew (02 R519, 08 R243). -/
def State.runStart (s : State) (x : Nat) : Option Nat := (s.acc.starts.filter fun p => decide (p ≤ x)).getLast?
/-- P0 of the integration of channel c that the block stamped x belongs to: an integration is known by the stamp of its first
sample (08 R242). -/
def State.intAt (s : State) (m : Tab Nat) (c x : Nat) : Nat :=
  max (intStart m c (intOf m c (x / setTB m)) * setTB m) ((s.runStart x).getD 0)
/-- The stamp at which the integration of channel c with P0 = p ends. -/
def intEnd (m : Tab Nat) (c p : Nat) : Nat := (intStart m c (intOf m c (p / setTB m)) + setN m) * setTB m

def exclInit : Nat → List Nat := fun _ => []
/-- The key of channel c's integration with P0 = p. -/
def exclKey (c p : Nat) : Nat := p * 65536 + c
/-- The records of an integration as recorded. -/
def State.exclOf (s : State) (c p : Nat) : List Nat := s.acc.excls.get exclInit (exclKey c p)
/-- An exclusion record (08 Table 08.5). -/
def exclRec (kind block strip pos first last sample : Nat) : Nat :=
  kind + block % 65536 * 2 ^ 4 + strip * 2 ^ 20 + pos * 2 ^ 26 + first * 2 ^ 37 + last * 2 ^ 73 + sample * 2 ^ 109

/-- Extend a GROUP record of the same sample and block by adjacent groups (07 R209). -/
def mergeGroup (r q : Nat) : Option Nat :=
  if r % 2 ^ 37 = q % 2 ^ 37 ∧ bits 121 109 r = bits 121 109 q ∧ r % 16 = 2 then
    let f := bits 72 37 r
    let l := bits 108 73 r
    let f' := bits 72 37 q
    let l' := bits 108 73 q
    if f' = l + 1 then some (exclRec 2 (bits 19 4 r) 0 0 f l' (bits 121 109 r))
    else if l' + 1 = f then some (exclRec 2 (bits 19 4 r) 0 0 f' l (bits 121 109 r))
    else if f ≤ f' ∧ l' ≤ l then some r
    else none
  else none
/-- A record takes in the later one that it has become adjacent to. -/
def absorb (x : Nat) : List Nat → Nat × List Nat
  | [] => (x, [])
  | r :: t =>
    match mergeGroup r x with
    | some y => (y, t)
    | none => let a := absorb x t; (a.1, r :: a.2)
/-- Add a record to a list: a repeated one is not added, an adjacent GROUP one is joined, and with it the record on its other side. -/
def addRecord (q : Nat) : List Nat → List Nat
  | [] => [q]
  | r :: t =>
    if r = q then r :: t
    else match mergeGroup r q with
      | some x => let a := absorb x t; a.1 :: a.2
      | none => r :: addRecord q t
/-- 08 R249: record an exclusion of channel c's block b, if integrations run by then. The 64th of a dump raises EXCL_OVERFLOW and
counts. -/
def exclude (m : Tab Nat) (c b : Nat) (mk : Nat → Nat) (s : State) : State :=
  if (s.runStart (b * setTB m)).isNone ∨ setChans m ≤ c then s
  else
    let p := s.intAt m c (b * setTB m)
    let l := s.exclOf c p
    let q := mk (b - p / setTB m)
    let l1 := if l.length < 64 then addRecord q l else if l.contains q then l else l ++ [q]
    let s1 := { s with acc := { s.acc with excls := s.acc.excls.set exclInit (exclKey c p) l1 } }
    if l1.length = 64 ∧ l.length = 63 then
      raise 0x910 3 (c + 0xFFFFFF * 65536) { s1 with acc := { s1.acc with exclOver := satAdd 32 s1.acc.exclOver 1 } }
    else s1
/-- The records of a dump: at most 64, the last OVERFLOW where more than 63 arose (08 R249). -/
def capRecords (l : List Nat) : List Nat := if 63 < l.length then l.take 63 ++ [0xF] else l

/-- A GROUP record of the groups of one frame stamp (07 R209, 08 R249). -/
def exclGroup (x c first last : Nat) (s : State) : State :=
  let m := s.setAt x
  let q := x / setF m
  exclude m c (q / 8192) (fun b => exclRec 2 b 0 0 first last (q % 8192)) s
/-- An INPUT record of a malformed channel sample (07 R201, 08 R249). -/
def exclInput (m : Tab Nat) (c b a q : Nat) (s : State) : State :=
  exclude m c b (fun b => exclRec 3 b 0 0 a 0 q) s
/-- A RUN record of a withdrawn notice (16 R472). -/
def exclRun (m : Tab Nat) (n : Notice) (s : State) : State :=
  exclude m n.c n.block (fun b => exclRec 1 b n.strip n.j n.first n.last 0) s

end Sys2Proof.Machine
end

