-- ==== Sys2Proof/Machine/Relay.lean ====
section
/-! DEFINITION. The Relay torus (06): the schedule every part computes, parcels and credits, control packets, port states,
the map, lane sparing and the trees of the global operations. CONFIG messages and barriers act in System.lean, commits in
Timetable.lean. -/

namespace Sys2Proof.Machine

open Sys2Proof

/-! ### Torus (06 R157 to R161) -/

/-- a and b of a set. -/
def torA (m : Tab Nat) : Nat := setVal m (ob 0x6100 1)
def torB (m : Tab Nat) : Nat := setVal m (ob 0x6100 2)
/-- D (06 R158). -/
def torD (m : Tab Nat) : Nat := torA m / 2 + torB m / 2
/-- The opposite port letter. -/
def oppPort (p : Nat) : Nat := (p + 2) % 4
/-- The dimension of a port: true for X. -/
def portIsX (p : Nat) : Bool := p % 2 == 1
/-- A port's dimension has size 1 (06 R158). -/
def portUnused (m : Tab Nat) (p : Nat) : Bool := (if portIsX p then torA m else torB m) == 1

/-- 06 R161: the next port of a flow at part (x, y); none once it has reached its destination. -/
def nextPort (a b x y xs ys xt yt : Nat) : Option Nat :=
  let dx := (xt + a - x) % a
  let dy := (yt + b - y) % b
  if dx ≠ 0 then
    if 2 * dx < a then some 1 else if 2 * dx > a then some 3 else if (xs + yt) % 2 = 0 then some 1 else some 3
  else if dy ≠ 0 then
    if 2 * dy < b then some 0 else if 2 * dy > b then some 2 else if (ys + xt) % 2 = 0 then some 0 else some 2
  else none
/-- The part beyond a port (06 R157). -/
def beyond (a b p : Nat) (c : Nat × Nat) : Nat × Nat :=
  if p = 0 then (c.1, (c.2 + 1) % b) else if p = 1 then ((c.1 + 1) % a, c.2)
  else if p = 2 then (c.1, (c.2 + b - 1) % b) else ((c.1 + a - 1) % a, c.2)
/-- The links of a flow in order: sending rank and port. -/
def flowPath (a b xs ys xt yt : Nat) : Nat → Nat × Nat → List (Nat × Nat)
  | 0, _ => []
  | f + 1, c =>
    match nextPort a b c.1 c.2 xs ys xt yt with
    | some p => (c.1 + a * c.2, p) :: flowPath a b xs ys xt yt f (beyond a b p c)
    | none => []
/-- The links of the flow s → t in a set. -/
def setPath (m : Tab Nat) (s t : Nat) : List (Nat × Nat) :=
  let a := torA m
  flowPath a (torB m) (s % a) (s / a) (t % a) (t / a) 9 (s % a, s / a)

/-! ### Parcels and the schedule (06 R160, R165 to R167) -/

/-- P_max of a generation (06 Table 06.3). -/
def pMax (g : Nat) : Nat := if g = 3 then 2520 else if g = 2 then 1240 else 600
/-- Units of 1/400 symbol in a tick (03 R55: 1.25, 0.625 and 0.3125 G symbols a second). -/
def tickUnits (g : Nat) : Nat := if g = 3 then 2000 else if g = 2 then 1000 else 500
/-- The generation of the ports of a letter in a set, on every part: it stands in the common set (14 Table 14.4). -/
def portGen (m : Tab Nat) (p : Nat) : Nat := setVal m (ob 0x4001 (0x1A + 7 * p))
/-- The ports that a set uses. -/
def portsUsed (m : Tab Nat) : List Nat := (List.range 4).filter fun p => !portUnused m p
/-- The lowest generation of the used ports, for messages that travel over all of them (assumption 27). -/
def setGen (m : Tab Nat) : Nat := ((portsUsed m).map (portGen m)).foldl min 3
/-- The lowest generation of the links that a flow crosses (assumption 27). -/
def flowGen (m : Tab Nat) (s t : Nat) : Nat := ((setPath m s t).map fun l => portGen m l.2).foldl min 3

/-- n cut into k runs as even as possible, the longer first: first item and length. -/
def splitRuns (n k : Nat) : List (Nat × Nat) :=
  (List.range k).map fun i => (i * (n / k) + min i (n % k), n / k + b2n (decide (i < n % k)))
/-- 06 R165: a flow's parcels by PSEQ: first group, groups, first owned channel, channels. -/
def parcelCuts (c e pm : Nat) : List (Nat × Nat × Nat × Nat) :=
  let s := 8 * c * e
  if s ≤ pm then (splitRuns 48 (cdiv 48 (pm / s))).map fun g => (g.1, g.2, 0, c)
  else
    let rs := splitRuns c (cdiv c (pm / (8 * e)))
    (List.range 48).flatMap fun g => rs.map fun r => (g, 1, r.1, r.2)
/-- The cuts of the flow s → t in a set. -/
def setCuts (m : Tab Nat) (s t : Nat) : List (Nat × Nat × Nat × Nat) :=
  parcelCuts (setChans m) (setBytes m) (pMax (flowGen m s t))
/-- The payload bytes of a cut. -/
def cutBytes (e : Nat) (k : Nat × Nat × Nat × Nat) : Nat := 8 * k.2.1 * k.2.2.2 * e

/-- A parcel's place on a link: who it is, payload bytes, logical lane, offset from its window's start and length in units. -/
structure SlotPos where
  src : Nat
  dst : Nat
  pseq : Nat
  hop : Nat
  bytes : Nat
  lane : Nat
  off : Nat
  len : Nat
  deriving DecidableEq, Repr

/-- The parcels of a link in the order of 06 R167: hop, source, destination, PSEQ, bytes. -/
def linkParcels (m : Tab Nat) (r p : Nat) : List (Nat × Nat × Nat × Nat × Nat) :=
  let n := torA m * torB m
  (List.range (torD m)).flatMap fun h => (List.range n).flatMap fun s => (List.range n).flatMap fun t =>
    if s ≠ t ∧ (setPath m s t)[h]? = some (r, p) then
      ((setCuts m s t).map (cutBytes (setBytes m))).zipIdx.map fun c => (h, s, t, c.2, c.1) else []

/-- An interval of a lane is free modulo the period: the occupied ones as start and length. -/
def slotFree (fu start len : Nat) (occ : List (Nat × Nat)) : Bool :=
  occ.all fun o =>
    let d := (o.1 + fu - start % fu) % fu
    decide (len ≤ d ∧ d + o.2 ≤ fu)
/-- The earliest offset in a window of the period at which a lane takes a length. -/
def earliest (fu w len : Nat) (occ : List (Nat × Nat)) : Option Nat :=
  let cand := 0 :: occ.map fun o => (o.1 + o.2 + fu - w % fu) % fu
  let ok := cand.filter fun c => decide (c + len ≤ fu) && slotFree fu (w + c) len occ
  leastOf ok
/-- The window start of frame offset h from B_X in ticks, modulo F; B_X is 125,440 modulo F (06 R166). -/
def windowMod (f h : Nat) : Nat := (125440 + h * (f + 1024)) % f
/-- Nominal length on a lane in units: lanes 0 and 1 count 4 % more (06 R167). -/
def slotLen (lane bytes : Nat) : Nat := (bytes + 40) * (if lane ≤ 1 then 416 else 400)

/-- The best lane for a parcel: the earliest offset, the lowest lane on a tie. -/
def bestLane (fu w bytes : Nat) : Nat → List (List (Nat × Nat)) → Option (Nat × Nat)
  | _, [] => none
  | l, occ :: r =>
    match earliest fu w (slotLen l bytes) occ, bestLane fu w bytes (l + 1) r with
    | some o, some (o2, l2) => if o ≤ o2 then some (o, l) else some (o2, l2)
    | some o, none => some (o, l)
    | none, x => x
/-- 06 R167: place the parcels of a link one by one; the flag says that every parcel found a place. -/
def placeAll (f u : Nat) : List (Nat × Nat × Nat × Nat × Nat) → List (List (Nat × Nat)) → List SlotPos → List SlotPos × Bool
  | [], _, acc => (acc.reverse, true)
  | (h, s, t, q, b) :: r, occ, acc =>
    let fu := f * u
    let w := windowMod f h * u
    match bestLane fu w b 0 occ with
    | some (o, l) =>
      let len := slotLen l b
      placeAll f u r (occ.set l (((w + o) % fu, len) :: occ.getD l [])) (⟨s, t, q, h, b, l, o, len⟩ :: acc)
    | none => (acc.reverse, false)
/-- The schedule of the link from rank r's port p in a set: every parcel's slot, and whether all were placed. -/
def linkSlots (m : Tab Nat) (r p : Nat) : List SlotPos × Bool :=
  let g := portGen m p
  placeAll (setF m) (tickUnits g) (linkParcels m r p) ([(0, (pMax g + 40) * 400)] :: List.replicate 23 []) []

/-- B_X (06 R166). -/
def bX (x f : Nat) : Nat := roundUp (x + f + 125000) 512
/-- The window's start in ticks. -/
def relayWindow (x f h : Nat) : Nat := bX x f + h * (f + 1024)
/-- The slot of a named parcel on the link from rank r's port p. -/
def State.slotOf (s : State) (r p : Nat) (n : SlotName) : Option SlotPos :=
  let m := s.setAt n.x
  if n.x % setF m = 0 then
    (linkSlots m r p).1.find? fun k => k.src == n.src && k.dst == n.dst && k.pseq == n.pseq && k.hop == n.hop
  else none
/-- A slot's start and end in ticks at port p, the end rounded up; the end counts the nominal P + 40 symbols. -/
def slotStart (m : Tab Nat) (p x : Nat) (k : SlotPos) : Nat :=
  relayWindow x (setF m) k.hop + cdiv k.off (tickUnits (portGen m p))
def slotEnd (m : Tab Nat) (p x : Nat) (k : SlotPos) : Nat :=
  relayWindow x (setF m) k.hop + cdiv (k.off + (k.bytes + 40) * 400) (tickUnits (portGen m p))
/-- The bits of a link's parcels in one period, times 250: Mb/s times F (06 R176). -/
def linkBits (m : Tab Nat) (r p : Nat) : Nat := ((linkParcels m r p).map fun k => (k.2.2.2.2 + 40) * 2000).sum
/-- Scheduled load of a link in Mb/s (06 R176), rounded half up (00 R5). -/
def linkLoad (m : Tab Nat) (r p : Nat) : Nat := (rhu (linkBits m r p) (setF m)).toNat

/-! ### Ports, lanes and credits -/

def portInit : Nat → Port := fun _ => {}
def State.port (s : State) (p : Nat) : Port := s.relay.port.get portInit p
def State.setPort (s : State) (p : Nat) (v : Port) : State :=
  { s with relay := { s.relay with port := s.relay.port.set portInit p v } }
def credInit : Nat → Cred := fun _ => {}
/-- The credits of a port's logical lane. -/
def State.crd (s : State) (p l : Nat) : Cred := s.relay.cred.get credInit (32 * p + l)
def State.setCrd (s : State) (p l : Nat) (v : Cred) : State :=
  { s with relay := { s.relay with cred := s.relay.cred.set credInit (32 * p + l) v } }
def State.setRelay (s : State) (r : Relay) : State := { s with relay := r }
/-- The source number of a port's engine and of its physical lanes (02 Table 02.2). -/
def portSrc (p : Nat) : Nat := 0x120 + p
def portLane (p k : Nat) : Nat := 0x64 + 26 * p + k
/-- The physical lane that receives logical lane l (06 R177). -/
def State.rxPhys (s : State) (p l : Nat) : Nat :=
  if (s.port p).rx24 = some l then 24 else if (s.port p).rx25 = some l then 25 else l
/-- The physical lane that sends logical lane l now: the last accepted move whose SB has come. -/
def State.txPhys (s : State) (p l : Nat) : Nat :=
  match (s.port p).txMoves.find? fun m => m.1 == l && decide (m.2.2 ≤ s.pm) with | some m => m.2.1 | none => l
/-- The lane that receives logical lane l is RUNNING, and hears the line (03 R73). -/
def State.served (s : State) (p l : Nat) : Bool :=
  let v := s.lane (portLane p (s.rxPhys p l))
  v.rx == .running && v.loopback == 0
/-- Credits that a payload takes (06 R171). -/
def creditNeed (bytes : Nat) : Nat := cdiv (bytes + 28) 64
/-- Free credits of the receiver after a parcel leaves its buffer. -/
def freeCredits (p l n : Nat) (s : State) : State :=
  s.setCrd p l { s.crd p l with freed := ((s.crd p l).freed + n) % 65536 }
/-- The transmitter may start a parcel (06 R171). -/
def Cred.allows (c : Cred) (n : Nat) : Bool := decide (n ≤ (2048 + c.cred + 65536 - c.used) % 65536)

/-- Mark a scheduled parcel as accepted or lost at port k. -/
def markDone (k : Nat) (n : SlotName) (s : State) : State := s.setRelay { s.relay with done := (k, n) :: s.relay.done }
def State.isDone (s : State) (k : Nat) (n : SlotName) : Bool := s.relay.done.any fun e => e.1 == k && e.2 == n

/-! ### Sending parcels (06 R164, R168, R170, R171) -/

/-- The channel samples of a cut of the flow src → dst at frame x: channel, global input, in payload order. -/
def cutSamples (m : Tab Nat) (src dst : Nat) (k : Nat × Nat × Nat × Nat) : List (Nat × Nat) :=
  let c0 := setVal m (ob 0x5000 0x13) + dst * setChans m + k.2.2.1
  (List.range k.2.2.2).flatMap fun c => (List.range (8 * k.2.1)).map fun i => (c0 + c, 384 * src + 8 * k.1 + i)
/-- The stored word of a channel sample, the not-valid marker where none was emitted. -/
def State.chanWord (s : State) (n g x : Nat) : Nat :=
  match s.filt.words.get (fun _ => 0) (chanKey n g x) with | 0 => marker (s.c8 x) | w + 1 => w
/-- Store a channel sample. -/
def putWord (n g x w : Nat) (s : State) : State :=
  { s with filt := { s.filt with words := s.filt.words.set (fun _ => 0) (chanKey n g x) (w + 1) } }

/-- Header fields of a scheduled parcel in the order of Sent.parcel. -/
def slotHeader (m : Tab Nat) (n : SlotName) (lost : Bool) : List Nat :=
  let k := (setCuts m n.src n.dst).getD n.pseq (0, 0, 0, 0)
  [1, n.hop, (setBytes m - 1) + 2 * b2n lost, n.x, n.src, n.dst, n.pseq, 384 * n.src + 8 * k.1, 8 * k.2.1,
   setVal m (ob 0x5000 0x13) + n.dst * setChans m + k.2.2.1, k.2.2.2]

/-- The bytes that a sent parcel's CRC covers: symbol 1 to the last payload symbol (06 R162). -/
def sentCovered (fields : List Nat) (pay : List Byte) : List Byte :=
  (fields.zip [1, 1, 1, 8, 1, 1, 2, 2, 2, 2, 2]).flatMap (fun f => toBytes f.2 f.1) ++ pay
/-- Put a parcel on the lane that carries logical lane l: counted, its credits used, the lane busy for P + 40 symbols. -/
def putParcel (p l : Nat) (fields : List Nat) (pay : List Byte) (s : State) : State :=
  let c := s.crd p l
  let v := s.port p
  let k := s.txPhys p l
  let crc := crc32 (sentCovered fields pay)
  sendWords (portLane p k) ((true, 0x1C) :: dataSyms (sentCovered fields pay ++ toBytes 4 crc) ++ List.replicate 4 (true, 0xF7))
    (.parcel p k fields pay crc) ((s.setCrd p l { c with used := (c.used + creditNeed pay.length) % 65536, heldSince := none, stalled := false,
                                                         busy := s.now + cdiv ((pay.length + 40) * 400) (tickUnits (portGen s.active p)) }).setPort p
    { v with sent := satAdd 64 v.sent 1 })
/-- The lane that sends logical lane l carries the protocol (03 R68): its transmit side is ACTIVE, and it is RUNNING. A lane to which
the far part moved l sends it from SB on (R178), whatever its own receive side does (DEDUCED, assumption 219). -/
def State.carries (s : State) (p l : Nat) : Bool :=
  let k := s.txPhys p l
  let v := s.lane (portLane p k)
  v.tx == .active && (v.rx == .running || k != l)
/-- The lane that carries logical lane l can start a parcel: it is free, and it carries the protocol. -/
def State.laneReady (s : State) (p l : Nat) : Bool := decide ((s.crd p l).busy ≤ s.now) && s.carries p l
/-- A parcel is held for credits (06 R171): since when, and in which window. -/
def holdParcel (p l win : Nat) (s : State) : State :=
  let c := s.crd p l
  if c.heldSince.isNone then s.setCrd p l { c with heldSince := some s.now, heldWin := win } else s

/-- A slot of a lane comes after those whose parcels have left: parcels leave a lane in the order of their slots (06 R168). -/
def Cred.unsent (c : Cred) (start : Nat) : Bool := match c.last with | some q => decide (q.2 < start) | none => true
/-- A parcel of an earlier slot of the same lane is still unsent (06 R168: parcels on a lane are never reordered). The windows of
17 frames on either side are all that can reach before a slot. -/
def State.waitsFor (s : State) (p : Nat) (n : SlotName) (k : SlotPos) : Bool :=
  let m := s.setAt n.x
  let f := setF m
  let t := slotStart m p n.x k
  let c := s.crd p k.lane
  let lastX := match c.last with | some q => q.1 | none => (s.port p).from_
  (List.range ((n.x - lastX) / f + 35)).any fun j =>
    let x := n.x + 17 * f - j * f
    decide ((s.port p).from_ ≤ x ∧ j * f ≤ n.x + 17 * f ∧ x % setF (s.setAt x) = 0) &&
      (linkSlots (s.setAt x) (s.rankIn (s.setAt x)) p).1.any fun q =>
        q.lane == k.lane && decide (slotStart (s.setAt x) p x q < t) && c.unsent (slotStart (s.setAt x) p x q)

/-- A parcel in transit leaves the buffer of the port it came by, and its credits there are freed. -/
def releaseTransit (n : SlotName) (s : State) : State :=
  match s.relay.transit.find? fun t => t.name == n with
  | some t => freeCredits t.inPort t.inLane t.credits
      (s.setRelay { s.relay with transit := s.relay.transit.filter fun u => u.name != n })
  | none => s
/-- The payload of a scheduled parcel that this part holds: of its own samples at hop 0, else as it came; none within for a parcel
that was lost on the way, none where nothing has come. -/
def State.parcelItem (s : State) (n : SlotName) : Option (Option (List Byte)) :=
  let m := s.setAt n.x
  if n.hop = 0 then
    let cut := (setCuts m n.src n.dst).getD n.pseq (0, 0, 0, 0)
    some (some ((cutSamples m n.src n.dst cut).flatMap fun c => toBytes (setBytes m) (s.chanWord c.1 c.2 n.x)))
  else (s.relay.transit.find? fun t => t.name == n).map fun t => t.payload
/-- 06 R168 to R171: port p sends a scheduled parcel, if its slot has begun, its lane is free, no earlier one waits and the credits
allow; else it is held. Across a port that is not SCHEDULED it is lost, and leaves the transit buffer (R180). -/
def parcelSendOp (p : Nat) (n : SlotName) (s : State) : State :=
  let m := s.setAt n.x
  match s.slotOf (s.rankIn m) p n with
  | none => s
  | some k =>
    let start := slotStart m p n.x k
    let c := s.crd p k.lane
    if c.unsent start = false ∨ s.pm < start then s
    else if (s.port p).st ≠ .scheduled then releaseTransit n s
    else match s.parcelItem n with
      | none => s
      | some pay =>
        let bytes := match pay with | some b => b | none => []
        if s.laneReady p k.lane = false ∨ s.waitsFor p n k = true then s
        else if (s.crd p k.lane).allows (creditNeed bytes.length) then
          putParcel p k.lane (slotHeader m n pay.isNone) bytes (releaseTransit n (s.setCrd p k.lane { c with last := some (n.x, start) }))
        else holdParcel p k.lane (relayWindow n.x (setF m) n.hop) s
def execParcelSend (p : Fin 4) (n : SlotName) (s : State) : Host.Outcome State Fault Refusal :=
  .next (parcelSendOp p n s)

/-- 06 R171: a parcel has been held for more than 2 µs; CREDIT_STALL comes once per window. -/
def creditStallOp (p l : Nat) (s : State) : State :=
  let c := s.crd p l
  match c.heldSince with
  | some t =>
    if c.stalled = false ∧ t + 500 < s.now then
      let v := s.port p
      let s1 := (s.setCrd p l { c with stalled := true }).setPort p
        { v with stalls := satAdd 32 v.stalls 1, stallWin := (c.heldWin :: v.stallWin).take 16 }
      if v.stallWin.contains c.heldWin then s1 else raise (portSrc p) 6 v.nRank s1
    else s
  | none => s
def execCreditStall (p : Fin 4) (l : Fin 24) (s : State) : Host.Outcome State Fault Refusal :=
  .next (creditStallOp p l s)
/-- Lane k of a port sends idle words: no parcel is under way on it but for the two words that follow each (06 R162). -/
def State.idleNow (s : State) (p k : Nat) : Bool :=
  (List.range 24).all fun l => s.txPhys p l != k || decide ((s.crd p l).busy ≤ s.now + cdiv 3200 (tickUnits (portGen s.active p)))
/-- 06 R171: the receiver sends CRED back while the lane is awake, in place of an idle word. -/
def execCreditWordSend (p : Fin 4) (l : Fin 24) (s : State) : Host.Outcome State Fault Refusal :=
  let c := (s.crd p l).freed
  let k := s.rxPhys p l
  let chk := c % 256 ^^^ c / 256 ^^^ 0xA5
  .next (if (s.lane (portLane p k)).tx = .active ∧ s.idleNow p k = true then
    sendWords (portLane p k) [(true, 0xDC), (false, c % 256), (false, c / 256), (false, chk)] (.credit p l c chk) s else s)
/-- 06 R171: a received credit word counts if its CHK holds. -/
def creditWordOp (p l cred chk : Nat) (s : State) : State :=
  if s.served p l ∧ chk = cred % 256 ^^^ cred / 256 ^^^ 0xA5 then s.setCrd p l { s.crd p l with cred := cred } else s
def execCreditWord (p : Fin 4) (l : Fin 24) (cred : BitVec 16) (chk : BitVec 8) (s : State) :
    Host.Outcome State Fault Refusal := .next (creditWordOp p l cred.toNat chk.toNat s)

/-! ### Receiving parcels (06 R169, R170, R172) -/

/-- The bytes that a parcel's CRC covers: symbol 1 to the last payload symbol. -/
def parcelCovered (c : Parcel) : List Byte :=
  toBytes 1 c.type ++ toBytes 1 c.hop ++ toBytes 1 c.flags ++ toBytes 8 c.stamp ++ toBytes 1 c.src ++ toBytes 1 c.dst
    ++ toBytes 2 c.pseq ++ toBytes 2 c.inFirst ++ toBytes 2 c.inCount ++ toBytes 2 c.chFirst ++ toBytes 2 c.chCount ++ c.payload
/-- The name a DATA header gives. -/
def parcelName (c : Parcel) : SlotName := ⟨c.stamp, c.src, c.dst, c.pseq, c.hop⟩
/-- The header fields as slotHeader lists them; reserved FLAGS bits are ignored (00 R3). -/
def parcelFields (c : Parcel) : List Nat :=
  [c.type, c.hop, c.flags % 4, c.stamp, c.src, c.dst, c.pseq, c.inFirst, c.inCount, c.chFirst, c.chCount]
/-- The rank of the part beyond a port in a set. -/
def State.beyondRank (s : State) (m : Tab Nat) (p : Nat) : Nat :=
  let a := torA m
  let c := beyond a (torB m) p (s.rankIn m % a, s.rankIn m / a)
  c.1 + a * c.2
/-- The slot in which port p receives a named parcel. -/
def State.rxSlot (s : State) (p : Nat) (n : SlotName) : Option SlotPos :=
  s.slotOf (s.beyondRank (s.setAt n.x) p) (oppPort p) n

/-- Write the samples of a parcel for this part into staging (06 R170). -/
def putSamples (x : Nat) (sm : List (Nat × Nat)) (w : Nat → Nat) (s : State) : State :=
  sm.zipIdx.foldl (fun s c => cornerWrite c.1.1 c.1.2 x (putWord c.1.1 c.1.2 x (w c.2) s)) s
/-- Deliver a scheduled parcel: to staging at its destination, else into the transit buffer, unless its next port is down (R180).
none is a lost one. -/
def deliverParcel (p l : Nat) (n : SlotName) (credits : Nat) (pay : Option (List Byte)) (s : State) : State :=
  let m := s.setAt n.x
  if n.dst = s.rankIn m then
    let sm := cutSamples m n.src n.dst ((setCuts m n.src n.dst).getD n.pseq (0, 0, 0, 0))
    let e := setBytes m
    let bs := (match pay with | some b => b | none => []).toArray
    let w (k : Nat) : Nat := match pay with
      | some _ => ofBytes ((List.range e).map fun j => bs.getD (e * k + j) 0)
      | none => marker (e == 2)
    let s1 := freeCredits p l credits (putSamples n.x sm w s)
    match pay with
    | some _ => s1
    | none =>
      let k := (setCuts m n.src n.dst).getD n.pseq (0, 0, 0, 0)
      (List.range k.2.2.2).foldl (fun s c => exclGroup n.x (k.2.2.1 + c) (48 * n.src + k.1) (48 * n.src + k.1 + k.2.1 - 1) s) s1
  else match (setPath m n.src n.dst)[n.hop + 1]? with
    | some q =>
      if (s.port q.2).st = .scheduled then
        s.setRelay { s.relay with transit := s.relay.transit ++ [⟨{ n with hop := n.hop + 1 }, p, l, credits, pay⟩] }
      else freeCredits p l credits s
    | none => freeCredits p l credits s
/-- No parcel of a port is held for credits any more. -/
def endHolds (p : Nat) (s : State) : State :=
  forRange 24 (fun l s => s.setCrd p l { s.crd p l with heldSince := none, stalled := false }) s
/-- Port p leaves SCHEDULED: what waits to cross it is lost, and its credits are freed (06 R180). -/
def dropTransit (p : Nat) (s0 : State) : State :=
  let s := endHolds p s0
  (s.relay.transit.filter fun t => ((setPath (s.setAt t.name.x) t.name.src t.name.dst)[t.name.hop]?).map Prod.snd == some p).foldl
    (fun s t => releaseTransit t.name s) s

/-- PARCEL_LOST, once per port and window (06 R169, R190). -/
def lostCard (p x h : Nat) (s : State) : State :=
  let f := setF (s.setAt x)
  let v := s.port p
  let w := relayWindow x f h
  if v.lostWin.contains w then s
  else raise (portSrc p) 5 (v.nRank + 256 * (bX x f / 512 % 2 ^ 32)) (s.setPort p { v with lostWin := (w :: v.lostWin).take 16 })
/-- 06 R169: a scheduled parcel that is not accepted 1,024 ticks after its nominal end is lost. -/
def parcelDeadlineOp (p : Nat) (n : SlotName) (s : State) : State :=
  match s.rxSlot p n with
  | some k =>
    let m := s.setAt n.x
    if torA m * torB m ≠ 1 ∧ s.relay.rank ≠ 255 ∧ s.isDone p n = false ∧ slotEnd (s.setAt n.x) p n.x k + 1024 < s.pm then
      let v := s.port p
      deliverParcel p k.lane n 0 none (lostCard p n.x n.hop (markDone p n (s.setPort p { v with lost := satAdd 32 v.lost 1 })))
    else s
  | none => s
def execParcelDeadline (p : Fin 4) (n : SlotName) (s : State) : Host.Outcome State Fault Refusal :=
  .next (parcelDeadlineOp p n s)

/-- How a received parcel ends: the first failing check of 06 R169. -/
inductive ParcelVerdict where
  | symbol | crc | header | late | data (k : SlotPos) | service
  deriving DecidableEq, Repr

/-- The last symbol of a service slot came too late (06 R172). -/
def State.serviceLate (s : State) (p : Nat) : Bool :=
  let f := s.chipF s.pm
  let g := portGen s.active p
  decide (s.pm % f > cdiv ((pMax g + 40) * 400) (tickUnits g) + 1024)
/-- 06 R169, R172. A parcel that ends before its slot begins, or a second one, stands in another slot, whose header it is not. -/
def State.parcelVerdict (s : State) (p l : Nat) (c : Parcel) (mask : Nat) : ParcelVerdict :=
  let sched := (s.port p).st == .scheduled
  if c.invalid > 0 ∨ c.disparity > 0 ∨ c.abort then .symbol
  else if crc32 (parcelCovered c) ≠ c.crc.toNat ^^^ mask then .crc
  else if sched && c.type == 1 then
    match s.rxSlot p (parcelName c) with
    | some k =>
      let m := s.setAt c.stamp
      let lost := bit 1 c.flags
      if k.lane = l ∧ parcelFields c = slotHeader m (parcelName c) lost ∧ c.payload.length = (if lost then 0 else k.bytes) then
        if s.pm > slotEnd m p c.stamp k + 1024 then .late
        else if s.pm < slotStart m p c.stamp k ∨ s.isDone p (parcelName c) then .header
        else .data k
      else .header
    | none => .header
  else if (c.type = 2 ∨ c.type = 3) ∧ c.dst = 255 ∧ l = 0 then
    if sched && s.serviceLate p then .late else .service
  else .header

/-- 06 R177: count a parcel CRC failure; at the limit the lane is declared failed. Gives whether it was. -/
def relayCrcFail (src : Nat) (s : State) : State × Bool :=
  let v := s.lane src
  let ts := s.now :: v.crcTimes.filter fun t => s.now < t + ms 1
  let s1 := s.setLane src { v with crcTimes := ts, lastCrc := some s.now }
  (s1, decide (ts.length ≥ s.cfg (ob 0x6100 5)) && v.rx == .running && !v.failed)

/-! ### Control packets (06 R174, R175) -/

/-- The bytes of a control packet from symbol 1 to 15. -/
def ctlBytes (ctype seq origin arg0 arg1 : Nat) : List Byte :=
  toBytes 1 ctype ++ toBytes 1 seq ++ toBytes 1 origin ++ toBytes 8 arg0 ++ toBytes 4 arg1
/-- The physical lanes that send a port's control packets: those of logical lanes 0 and 1 that carry the protocol (03 R68). -/
def State.ctlLanes (s : State) (p : Nat) : List Nat := ([0, 1].filter fun l => s.carries p l).map fun l => s.txPhys p l
/-- A control packet may leave: a lane carries it, and fewer than 16 have left within 10 µs (06 R175). -/
def State.ctlRoom (s : State) (p : Nat) : Bool :=
  !(s.ctlLanes p).isEmpty && decide (((s.port p).ctlTimes.filter fun t => s.now < t + us 10).length < 16)
/-- A control packet as it leaves: a PING carries the Postmark of its sending, a PONG its hold from receipt to sending (Table 06.6). -/
def CtlItem.leaving (c : CtlItem) (pm now : Nat) : CtlItem :=
  if c.ctype = 2 then { c with arg0 := pm } else if c.ctype = 3 then { c with arg1 := (now - c.since) % 2 ^ 32 } else c
/-- The symbols of a control packet (Table 06.4). -/
def ctlSyms (c : CtlItem) (n : Nat) : List (Bool × Nat) :=
  let b := ctlBytes c.ctype n c.origin c.arg0 c.arg1
  (true, 0x9C) :: dataSyms (b ++ toBytes 4 (crc32 b)) ++ List.replicate 4 (true, 0xF7)
/-- Send a control packet with the next CSEQ on each of its lanes, with queue r left. -/
def ctlOut (p : Nat) (c0 : CtlItem) (r : List CtlItem) (s : State) : State :=
  let c := c0.leaving s.pm s.now
  let v := s.port p
  let n := (v.txSeq + 1) % 256
  let s1 := s.setPort p { v with txSeq := n, ctlq := r, ctlTimes := s.now :: v.ctlTimes.filter fun t => s.now < t + us 10
                                 pingAt := if c.ctype = 2 then s.pm else v.pingAt }
  ((s.ctlLanes p).foldl (fun s k => moveWords (portLane p k) (ctlSyms c n) s) s1).send
    (.ctl p ((s.ctlLanes p).filter fun k => s.lineOpen (portLane p k)) c.ctype n c.origin c.arg0 c.arg1
      (crc32 (ctlBytes c.ctype n c.origin c.arg0 c.arg1)))
/-- BARRIER and BCAST packets go ahead of the others (06 R175). -/
def CtlItem.first (c : CtlItem) : Bool := c.ctype == 4 || c.ctype == 5 || c.ctype == 6
/-- Put a packet into the queue. -/
def ctlEnqueue (c : CtlItem) (q : List CtlItem) : List CtlItem :=
  if c.first then q.takeWhile CtlItem.first ++ c :: q.dropWhile CtlItem.first else q ++ [c]
/-- Send a control packet, at once where nothing waits and it may leave. -/
def ctlSend (p ctype arg0 arg1 origin : Nat) (s : State) : State :=
  let c : CtlItem := ⟨ctype, arg0, arg1, origin, s.now⟩
  let v := s.port p
  if v.ctlq.isEmpty && s.ctlRoom p then ctlOut p c [] s
  else s.setPort p { v with ctlq := ctlEnqueue c v.ctlq }
/-- A waiting control packet leaves when it may. -/
def ctlPump (p : Nat) (s : State) : State :=
  match (s.port p).ctlq with
  | c :: r => if s.ctlRoom p then ctlOut p c r s else s
  | [] => s
/-- The bytes that a control packet's CRC covers. -/
def ctlCovered (c : Ctl) : List Byte :=
  c.ctype :: c.cseq :: c.origin :: toBytes 8 c.arg0.toNat ++ toBytes 4 c.arg1.toNat
/-- A lane that receives a port's control packets hands them on (03 Table 03.4). -/
def State.ctlHeard (s : State) (p : Nat) : Bool := s.served p 0 || s.served p 1
/-- 06 R175: do f with a packet that is accepted; drop a second copy; count and report a bad one. code is the row's type. -/
def ctlIn (code p : Nat) (c : Ctl) (f : State → State) (s : State) : State :=
  let v := s.port p
  if s.ctlHeard p = false then s
  else if crc32 (ctlCovered c) ≠ c.crc.toNat ∨ c.ctype.toNat = 0 ∨ 9 < c.ctype.toNat then
    raise (portSrc p) 7 v.nRank (s.setPort p { v with ctlDropped := satAdd 32 v.ctlDropped 1 })
  else
    let d := (c.cseq.toNat + 256 - v.rxSeq) % 256
    if c.ctype.toNat = code ∧ 1 ≤ d ∧ d ≤ 127 then f (s.setPort p { v with rxSeq := c.cseq.toNat }) else s

/-- The set whose a and b discovery works with: the shadow set, since a set with a torus is accepted only once a map of it is valid
(R157, R176, R192; DEDUCED, assumption 181). -/
def State.disc (s : State) : Tab Nat := s.dict.shadow
/-- ARG1 of this port's HELLO. -/
def State.helloArg (s : State) (p : Nat) : Nat :=
  p + 4 * (torA s.disc - 1) + 32 * (torB s.disc - 1) + 256 * s.gen (portLane p 0)
def sendHello (p : Nat) (s : State) : State := ctlSend p 1 Config.serialNumber (s.helloArg p) s.relay.rank s
def sendPing (p : Nat) (s : State) : State :=
  ctlSend p 2 s.pm 0 s.relay.rank s

/-- LINKED, MAPPED or SCHEDULED. -/
def PortSt.linkedUp (x : PortSt) : Bool := x == .linked || x == .mapped || x == .scheduled

/-- 06 Table 06.8: a HELLO. -/
def helloOp (p serial arg : Nat) (s : State) : State :=
  let v0 := s.port p
  let s := if v0.st = .down then s else s.setPort p { v0 with lastHello := s.now }
  let v1 := s.port p
  let v := if v1.st = .hello ∧ serial ≠ v1.neighbour then { v1 with nRank := 255 } else v1
  match v.st with
  | .hello =>
    if arg % 4 ≠ oppPort p then raise (portSrc p) 2 v.nRank (s.setPort p { v with miswired := true })
    else if arg / 4 % 256 ≠ s.helloArg p / 4 % 256 then raise (portSrc p) 3 v.nRank (s.setPort p v)
    else sendPing p (s.setPort p { v with neighbour := serial, miswired := false })
  | .down => s
  | _ => if serial = v.neighbour then s
    else dropTransit p (raise (portSrc p) 1 v.nRank (s.setPort p { v with st := .hello, exch := [], nRank := 255 }))
def execHello (p : Fin 4) (c : Ctl) (s : State) : Host.Outcome State Fault Refusal :=
  .next (ctlIn 1 p c (helloOp p c.arg0.toNat c.arg1.toNat) s)
/-- 06 Table 06.6: a PING is answered with the Postmark of its receipt; the hold is set when the PONG leaves. -/
def pingOp (p : Nat) (s : State) : State := if (s.port p).st = .down then s else ctlSend p 3 s.pm 0 s.relay.rank s
def execPing (p : Fin 4) (c : Ctl) (s : State) : Host.Outcome State Fault Refusal := .next (ctlIn 2 p c (pingOp p) s)

/-- The last exchanges: how many (1 for none), and the sums of their wire delays and Postmark offsets in half ticks. -/
def Port.sums (v : Port) : Nat × Int × Int := (max v.exch.length 1, (v.exch.map Prod.fst).sum, (v.exch.map Prod.snd).sum)
/-- Average wire delay in ns and Postmark offset in ticks, each rounded once. -/
def Port.average (v : Port) : Int × Int :=
  let (n, d, o) := v.sums
  (rhu (2 * d) n, rhu o ((2 * n : Nat) : Int))
/-- 06 Table 06.8: a PONG. In half ticks the wire delay is (t4 − t1) − hold and the offset (t2 − t1) − (t4 − t1 − hold), as R181 prints
them; 40 ns are 20 half ticks, 64 ticks 128. -/
def pongOp (p : Nat) (t2 hold : Int) (s : State) : State :=
  let v := s.port p
  let rt : Int := (s.pm : Int) - v.pingAt - hold
  let w := { v with exch := ((rt, t2 - v.pingAt - rt) :: v.exch).take 64 }
  let (n, d, o) := w.sums
  let far : Bool := decide (128 * n < o.natAbs)
  match v.st with
  | .down => s
  | .hello =>
    if d > ((20 * n : Nat) : Int) then raise (portSrc p) 4 v.nRank (s.setPort p { w with tooLong := true })
    else if far = false ∧ v.neighbour ≠ 0 then s.setPort p { w with st := .linked, tooLong := false }
    else s.setPort p w
  | _ =>
    let s1 := s.setPort p w
    if far then raiseLim 250000000 (portSrc p) 13 0 v.nRank s1 else s1
def execPong (p : Fin 4) (c : Ctl) (s : State) : Host.Outcome State Fault Refusal :=
  .next (ctlIn 3 p c (pongOp p c.arg0.toNat c.arg1.toNat) s)
/-- 06 R181: every 1 ms a HELLO from HELLO onward, and a PING from LINKED onward. -/
def helloTimerOp (p : Nat) (s : State) : State :=
  let st := (s.port p).st
  if st = .down then s
  else
    let s1 := sendHello p s
    if st.linkedUp then sendPing p s1 else s1
def execHelloTimer (p : Fin 4) (s : State) : Host.Outcome State Fault Refusal := .next (helloTimerOp p s)
/-- 06 Table 06.8: the port comes up. An unused port stays DOWN (R158). -/
def execRelayPortUp (p : Fin 4) (s : State) : Host.Outcome State Fault Refusal :=
  let v := s.port p
  .next (if v.st = .down ∧ s.cfg (ob 0x6100 3) = 1 ∧ portUnused s.disc p = false ∧ s.served p 0 ∧ s.served p 1 then
    sendHello p (s.setPort p { v with st := .hello, lastHello := s.now, exch := [] })
  else s)
/-- A logical lane has been unserved for 100 µs. -/
def State.unserved100 (s : State) (p l : Nat) : Bool :=
  let v := s.lane (portLane p (s.rxPhys p l))
  v.rx != .running && decide (v.downAt + us 100 ≤ s.now)
/-- 06 R180: the port is down. -/
def execPortDownTimeout (p : Fin 4) (s : State) : Host.Outcome State Fault Refusal :=
  let v := s.port p
  .next (if v.st ≠ .down ∧ ((s.unserved100 p 0 ∧ s.unserved100 p 1) ∨ v.lastHello + ms 10 ≤ s.now) then
    dropTransit p (raise (portSrc p) 1 v.nRank (s.setPort p { v with st := .down, exch := [] }))
  else s)

/-! ### Service slots (06 R172, R173) -/

/-- Queue a MAP or CONFIG parcel. -/
def queueService (p : Nat) (c : SvcParcel) (s : State) : State :=
  s.setPort p { s.port p with service := (s.port p).service ++ [c] }
/-- The header of a service parcel in the order of Sent.parcel; C8 equals channel_format (Table 06.2). -/
def SvcParcel.header (c8 : Bool) (c : SvcParcel) : List Nat := [c.type, c.hop, b2n c8, c.stamp, c.src, 255, c.pseq, 0, 0, 0, 0]
/-- The service slot of a SCHEDULED port that the counter stands in, by number (06 R172). -/
def State.serviceSlot (s : State) (p : Nat) : Option Nat :=
  let f := s.chipF s.pm
  let g := portGen s.active p
  if s.pm % f < cdiv ((pMax g + 40) * 400) (tickUnits g) then some (s.pm / f) else none
/-- A service parcel may start: at any word boundary before the port is SCHEDULED, else once in a service slot (06 R172). -/
def State.serviceOpen (s : State) (p : Nat) : Bool :=
  match (s.port p).st with
  | .down => false
  | .scheduled => (match s.serviceSlot p with | some n => (s.port p).lastSlot != some n | none => false)
  | _ => true
/-- Send the next service parcel of a port if it may start and the credits allow; else it is held for credits (06 R171). -/
def serviceSlotOp (p : Nat) (s : State) : State :=
  let v := s.port p
  match v.service with
  | c :: r =>
    if s.serviceOpen p && s.laneReady p 0 then
      if (s.crd p 0).allows (creditNeed c.payload.length) then
        putParcel p 0 (c.header (s.c8 lastSet)) c.payload (s.setPort p { v with service := r, lastSlot := s.serviceSlot p })
      else holdParcel p 0 (s.pm - s.pm % s.chipF s.pm) s
    else s
  | [] => s
def execServiceSlot (p : Fin 4) (s : State) : Host.Outcome State Fault Refusal := .next (serviceSlotOp p s)

/-! ### The map (06 R182, R183) -/

/-- The ports that discovery uses. -/
def State.usedPorts (s : State) : List Nat := portsUsed s.disc
/-- This part's own entry; an unused port gives 0. -/
def State.ownEntry (s : State) : MapEntry :=
  let g (p : Nat) : Nat := if portUnused s.disc p then 0 else (s.port p).neighbour
  ⟨Config.serialNumber, g 0, g 1, g 2, g 3⟩
/-- Keep the first entry of each part. -/
def mergeEntry (m : List MapEntry) (e : MapEntry) : List MapEntry :=
  if m.any fun x => x.serial == e.serial then m else m ++ [e]
def MapEntry.bytes (e : MapEntry) : List Byte :=
  toBytes 8 e.serial ++ toBytes 8 e.n ++ toBytes 8 e.e ++ toBytes 8 e.s ++ toBytes 8 e.w
/-- The entries that bytes spell, at most n. -/
def readEntries : Nat → List Byte → List MapEntry
  | 0, _ => []
  | n + 1, b =>
    let g (k : Nat) : Nat := ofBytes ((b.drop (8 * k)).take 8)
    if b.length < 40 then [] else ⟨g 0, g 1, g 2, g 3, g 4⟩ :: readEntries n (b.drop 40)
/-- A list in pieces of n, at most k of them. -/
def pieces {α : Type} (n : Nat) : Nat → List α → List (List α)
  | 0, _ => []
  | k + 1, l => if l.isEmpty then [] else l.take n :: pieces n k (l.drop n)
/-- Queue every entry held on a port. -/
def floodPort (p : Nat) (s : State) : State :=
  ((pieces (pMax (s.gen (portLane p 0)) / 40) 64 s.relay.map).zipIdx).foldl
    (fun s c => queueService p { type := 2, stamp := c.2, src := s.relay.rank, pseq := 0, payload := c.1.flatMap MapEntry.bytes } s) s

/-- A part's entry. -/
def findEntry (m : List MapEntry) (serial : Nat) : Option MapEntry := m.find? fun e => e.serial == serial
/-- Follow a neighbour function n times. -/
def follow (m : List MapEntry) (f : MapEntry → Nat) : Nat → Nat → Option Nat
  | 0, x => some x
  | n + 1, x => match findEntry m x with | some e => follow m f n (f e) | none => none
/-- A ring through x has length n: n steps come back, fewer do not. A ring of one has no neighbour. -/
def ringOk (m : List MapEntry) (f : MapEntry → Nat) (n x : Nat) : Bool :=
  if n = 1 then (match findEntry m x with | some e => f e == 0 | none => false)
  else follow m f n x == some x && (List.range (n - 1)).all fun k => follow m f (k + 1) x != some x
/-- 06 R182: the map is valid. -/
def mapOk (a b : Nat) (m : List MapEntry) : Bool :=
  m.length == a * b && m.all fun e =>
    (a == 1 || (match findEntry m e.e with | some x => x.w == e.serial | none => false)) &&
    (b == 1 || (match findEntry m e.n with | some x => x.s == e.serial | none => false)) &&
    ringOk m MapEntry.e a e.serial && ringOk m MapEntry.n b e.serial
/-- The coordinates of a part: x steps east of the coordinator, then y steps north (06 R183). -/
def coordsOf (a b : Nat) (m : List MapEntry) (root serial : Nat) : Option (Nat × Nat) :=
  ((List.range b).flatMap fun y => (List.range a).map fun x => (x, y)).find? fun c =>
    match follow m MapEntry.e c.1 root with | some z => follow m MapEntry.n c.2 z == some serial | none => false

/-- The rank of a neighbour in the map, 0xFF where unknown. -/
def neighbourRank (a b : Nat) (m : List MapEntry) (root serial : Nat) : Nat :=
  match coordsOf a b m root serial with | some n => n.1 + a * n.2 | none => 255
/-- LINKED ports become MAPPED by the valid map (06 Table 06.8); the neighbours' ranks are the map's. -/
def mapPorts (a b root : Nat) (s : State) : State :=
  forRange 4 (fun p s =>
    let v := s.port p
    if v.st.linkedUp then
      s.setPort p { v with st := if v.st = .linked then .mapped else v.st, nRank := neighbourRank a b s.relay.map root v.neighbour }
    else s) s
/-- 06 R183: elect the coordinator, take rank and coordinates, move LINKED ports to MAPPED. A part that has passed COORD on already
does so no more. -/
def electOp (s : State) : State :=
  let a := torA s.disc
  let b := torB s.disc
  let m := s.relay.map
  match leastOf (m.map MapEntry.serial) with
  | none => s
  | some root =>
    let c := match coordsOf a b m root Config.serialNumber with
      | some c => (c.1, c.2, c.1 + a * c.2)
      | none => (255, 255, 255)
    let s1 := s.setRelay { s.relay with mapValid := true, coordinator := root, x := c.1, y := c.2.1, rank := c.2.2,
                                        diameter := a / 2 + b / 2, coordSeen := s.relay.coordSeen || root == Config.serialNumber }
    let s2 := mapPorts a b root s1
    if root = Config.serialNumber then
      s2.usedPorts.foldl (fun s p => ctlSend p 9 root (a / 2 + b / 2) s.relay.rank s) s2
    else s2
/-- The map no longer tells this torus: discovery starts over (06 R182; DESIGN CHOICE, assumption 182). -/
def restartMap (s : State) : State :=
  s.setRelay { s.relay with mapValid := false, map := [], mapRound := 0, mapBad := none, coordSeen := false }
/-- The valid map still tells the torus that discovery works with, and this part's neighbours in it. -/
def State.mapHolds (s : State) : Bool :=
  s.relay.map.contains s.ownEntry && mapOk (torA s.disc) (torB s.disc) s.relay.map
/-- 06 R182: one round of 10 ms: flood, or check after D rounds. With a valid map the rounds go on flooding, so that a part that links
again learns it, ports that linked again become MAPPED, and a torus that is no longer the map's starts discovery over (DESIGN CHOICE,
assumption 182). -/
def mapRoundOp (s0 : State) : State :=
  let a := torA s0.disc
  let b := torB s0.disc
  if a * b = 1 ∨ s0.relay.mapBad.isSome ∨ (s0.usedPorts.any fun p => !(s0.port p).st.linkedUp) = true then s0
  else if s0.relay.mapValid && s0.mapHolds then
    s0.usedPorts.foldl (fun s p => floodPort p s) (mapPorts a b s0.relay.coordinator s0)
  else
    let s := if s0.relay.mapValid then restartMap s0 else s0
    if s.relay.mapRound < a / 2 + b / 2 then
      let s1 := s.setRelay { s.relay with map := mergeEntry s.relay.map s.ownEntry, mapRound := s.relay.mapRound + 1 }
      s1.usedPorts.foldl (fun s p => floodPort p s) s1
    else
      let s1 := s.setRelay { s.relay with map := mergeEntry s.relay.map s.ownEntry, mapRound := 0 }
      if mapOk a b s1.relay.map then electOp s1
      else raise (portSrc 0) 3 255 (s1.setRelay { s1.relay with map := [], mapBad := some s.now })
def execMapFloodRound (s : State) : Host.Outcome State Fault Refusal := .next (mapRoundOp s)
/-- 06 R182: flooding restarts 1 s after an invalid map. -/
def execMapRestart (s : State) : Host.Outcome State Fault Refusal :=
  .next (match s.relay.mapBad with
  | some t => if t + 250000000 ≤ s.now then s.setRelay { s.relay with mapBad := none } else s
  | none => s)
/-- A MAP parcel's entries join the map while it is being made; entries that a valid map does not hold start it over. -/
def mapParcel (pay : List Byte) (s0 : State) : State :=
  let es := readEntries 64 pay
  if s0.relay.mapValid && es.all fun e => s0.relay.map.contains e then s0
  else
    let s := if s0.relay.mapValid then restartMap s0 else s0
    s.setRelay { s.relay with map := es.foldl mergeEntry s.relay.map }
/-- 06 R183: COORD, passed on as it came, the coordinator its ORIGIN (R174). -/
def coordOp (p serial arg origin : Nat) (s : State) : State :=
  let r := s.relay
  let s1 := if r.mapValid ∧ serial ≠ r.coordinator then
    raise (portSrc p) 3 (s.port p).nRank (s.setRelay { r with rank := 255, x := 255, y := 255 }) else s
  if r.coordSeen then s1
  else (s1.usedPorts.filter fun q => q != p).foldl (fun s q => ctlSend q 9 serial arg origin s)
    (s1.setRelay { s1.relay with coordSeen := true })
def execCoord (p : Fin 4) (c : Ctl) (s : State) : Host.Outcome State Fault Refusal :=
  .next (ctlIn 9 p c (coordOp p c.arg0.toNat c.arg1.toNat c.origin.toNat) s)

/-! ### Trees (06 R185) -/

/-- The ports on which a part passes on a broadcast of an origin's rank; arr is the port it came by, none at the origin. -/
def treeOut (a b origin rank : Nat) (arr : Option Nat) : List Nat :=
  let ex := (rank % a + a - origin % a) % a
  let wx := (origin % a + a - rank % a) % a
  let ny := (rank / a + b - origin / a % b) % b
  let sy := (origin / a + b - rank / a % b) % b
  let col := (if (b - 1) / 2 ≥ 1 then [0] else []) ++ (if b / 2 ≥ 1 then [2] else [])
  match arr with
  | none => (if (a - 1) / 2 ≥ 1 then [1] else []) ++ (if a / 2 ≥ 1 then [3] else []) ++ col
  | some 3 => (if ex < (a - 1) / 2 then [1] else []) ++ col
  | some 1 => (if wx < a / 2 then [3] else []) ++ col
  | some 2 => if ny < (b - 1) / 2 then [0] else []
  | _ => if sy < b / 2 then [2] else []
/-- The port towards the coordinator on its tree; none at the coordinator. -/
def treeParent (a b rank : Nat) : Option Nat :=
  let x := rank % a
  let y := rank / a
  if y ≠ 0 then (if y ≤ (b - 1) / 2 then some 2 else some 0)
  else if x ≠ 0 then (if x ≤ (a - 1) / 2 then some 3 else some 1) else none
/-- This part's outgoing ports for an origin. -/
def State.treeOut (s : State) (origin : Nat) (arr : Option Nat) : List Nat :=
  if s.alone then [] else Machine.treeOut (s.cfg (ob 0x6100 1)) (s.cfg (ob 0x6100 2)) origin s.relay.rank arr
/-- This part's children on the coordinator's tree. -/
def State.children (s : State) : List Nat :=
  s.treeOut 0 (treeParent (s.cfg (ob 0x6100 1)) (s.cfg (ob 0x6100 2)) s.rank)
/-- t_hop in ticks and in ns (06 R184): of the ports that the active set uses; while it is 1 × 1, of those that discovery uses. -/
def State.tHop (s : State) : Nat :=
  if (portsUsed (if s.alone then s.disc else s.active)).any fun p => s.gen (portLane p 0) == 1 then 70 else 45
def State.tHopNs (s : State) : Nat := 4 * s.tHop
/-- Whether a record's AT keeps the lead time (06 R187). -/
def State.globalInTime (s : State) (at_ : Nat) : Bool := decide (s.pm + torD s.active * s.tHop + us 10 ≤ at_)
/-- Broadcast a global operation from this part. -/
def globalSend (r at_ : Nat) (s : State) : State :=
  (s.treeOut s.rank none).foldl (fun s p => ctlSend p 6 at_ (bits 95 64 r) s.relay.rank s) s

/-! ### Barriers (06 R186) -/

/-- Every child has sent BARRIER_UP and this part has voted: the AND of the votes. -/
def State.barrierResult (s : State) : Option Bool :=
  match s.relay.barrier with
  | some b =>
    match b.vote with
    | some v =>
      if s.children.all fun p => b.ups.any fun u => u.1 == p then
        some (v && b.ups.all fun u => u.2.1 && u.2.2 == b.crc) else none
    | none => none
  | none => none
/-- Send BARRIER_DOWN to the children; it comes from the coordinator, rank 0 (R174, R186). -/
def sendBarrierDown (number : Nat) (result : Bool) (s : State) : State :=
  s.children.foldl (fun s p => ctlSend p 5 (number * 2 ^ 32) (b2n result) 0 s) s
/-- A part other than the coordinator sends its AND to its parent once complete. -/
def barrierUpward (s : State) : State :=
  match s.relay.barrier, s.barrierResult, treeParent (s.cfg (ob 0x6100 1)) (s.cfg (ob 0x6100 2)) s.rank with
  | some b, some v, some p =>
    if b.sentUp then s
    else ctlSend p 4 (b.crc + (b.number % 65536) * 2 ^ 32) (b2n v) s.relay.rank
      (s.setRelay { s.relay with barrier := some { b with sentUp := true } })
  | _, _, _ => s
/-- This part's barrier of a number, opened if there is none. -/
def State.openBarrier (s : State) (number : Nat) : Barrier :=
  match s.relay.barrier with
  | some b => if b.number = number then b else { number := number, start := s.now }
  | none => { number := number, start := s.now }
/-- A received BARRIER_UP. -/
def barrierUpOp (p arg0 vote : Nat) (s : State) : State :=
  let b := s.openBarrier (bits 47 32 arg0)
  let b1 := { b with ups := (p, vote % 2 == 1, arg0 % 2 ^ 32) :: b.ups.filter fun u => u.1 != p }
  barrierUpward (s.setRelay { s.relay with barrier := some b1 })
/-- This part's own vote; barrier_timeout counts from it (DESIGN CHOICE). -/
def barrierVote (number crc : Nat) (v : Bool) (s : State) : State :=
  let b := s.openBarrier number
  barrierUpward (s.setRelay { s.relay with barrier := some { b with vote := some v, crc := crc, start := s.now } })

/-! ### Lane sparing (06 R177 to R179) -/

/-- A spare of a port is free for automatic sparing. -/
def State.relaySpareFree (s : State) (p k : Nat) : Bool :=
  (s.lane (portLane p k)).rx == .sync && (if k = 24 then (s.port p).rx24 else (s.port p).rx25).isNone
    && !s.latched (portLane p k) && !(s.port p).moves.any fun m => m.phys == k
/-- Send LANE_MOVE for L to a physical lane, SB at least 50 µs ahead (06 R178). -/
def sendMove (p l phys : Nat) (s : State) : State :=
  let sb := roundUp (s.pm + us 50) 512
  let v := s.port p
  ctlSend p 7 sb (l + 256 * phys) s.relay.rank
    (s.setPort p { v with moves := ⟨l, phys, sb, none⟩ :: v.moves.filter fun m => m.l != l })
/-- 06 R177, R178: a Relay lane is declared failed. A move of its logical lane that is under way goes on. -/
def relayFailed (src : Nat) (s : State) : State :=
  let p := (src - 0x64) / 26
  let k := (src - 0x64) % 26
  let s1 := raise src 0x0B 0 (s.modLane src fun v => { v with failed := true, crcTimes := [] })
  let l : Option Nat := if k = 24 then (s.port p).rx24 else if k = 25 then (s.port p).rx25
    else if s.rxPhys p k = k then some k else none
  match l with
  | some l =>
    if s1.cfg (ob 0x6100 6) = 1 ∧ (s.port p).moves.any (fun m => m.l == l) = false then
      if s1.relaySpareFree p 24 then sendMove p l 24 s1 else if s1.relaySpareFree p 25 then sendMove p l 25 s1 else s1
    else s1
  | none => s1
/-- 06 R179: SPARE_OUT on a Relay lane. -/
def relaySpareOut (src : Nat) (s : State) : State :=
  let p := (src - 0x64) / 26
  let k := (src - 0x64) % 26
  let l : Option Nat := if k = 24 then (s.port p).rx24 else if k = 25 then (s.port p).rx25 else none
  match l with
  | some l =>
    if (s.lane (portLane p l)).rx = .sync ∧ s.latched src = false ∧ s.latched (portLane p l) = false then sendMove p l l s
    else raise src 0x0E 0 s
  | none => raise src 0x0E 0 s
/-- 06 R178: a received LANE_MOVE. It is accepted at least 10 µs before SB, for a spare or the home lane. -/
def laneMoveOp (p sb arg : Nat) (s : State) : State :=
  let l := arg % 256
  let k := arg / 256 % 256
  let v := s.port p
  if s.pm + us 10 ≤ sb ∧ l < 24 ∧ (k = 24 ∨ k = 25 ∨ k = l) then
    ctlSend p 8 sb (arg % 2 ^ 31 + 2 ^ 31) s.relay.rank (s.setPort p { v with txMoves := (l, k, sb) :: v.txMoves.take 63 })
  else ctlSend p 8 sb (arg % 2 ^ 31) s.relay.rank s
def execLaneMove (p : Fin 4) (c : Ctl) (s : State) : Host.Outcome State Fault Refusal :=
  .next (ctlIn 7 p c (laneMoveOp p c.arg0.toNat c.arg1.toNat) s)
/-- 06 R178: the answer to a LANE_MOVE. -/
def laneMoveAckOp (p sb arg : Nat) (s : State) : State :=
  let v := s.port p
  s.setPort p { v with moves := v.moves.map fun m =>
                       if m.sb = sb ∧ m.l = arg % 256 ∧ m.phys = arg / 256 % 256 then { m with ack := some (bit 31 arg) } else m }
def execLaneMoveAck (p : Fin 4) (c : Ctl) (s : State) : Host.Outcome State Fault Refusal :=
  .next (ctlIn 8 p c (laneMoveAckOp p c.arg0.toNat c.arg1.toNat) s)
/-- 06 R178: a refused move is tried again. -/
def laneMoveRetryOp (p l : Nat) (s : State) : State :=
  match (s.port p).moves.find? fun m => m.l == l && m.ack == some false with
  | some m => sendMove p l m.phys s
  | none => s
def execLaneMoveRetry (p : Fin 4) (l : Fin 24) (s : State) : Host.Outcome State Fault Refusal :=
  .next (laneMoveRetryOp p l s)
/-- A lane carries its port's protocol from now on. -/
def Lane.run (pm : Nat) (v : Lane) : Lane :=
  { v with rx := .running, resume := true, startPm := pm, leftAt := none, failed := false, crcTimes := [] }
/-- A lane is to carry it: at once where it is in SYNC, else when it is aligned (03 Table 03.4). -/
def Lane.take (pm : Nat) (v : Lane) : Lane :=
  if v.rx = .sync then v.run pm else if v.rx = .running then v else { v with resume := true }
/-- A lane stops carrying it and waits in SYNC. -/
def Lane.park (v : Lane) : Lane := { v with rx := if v.rx = .running then .sync else v.rx, resume := false, leftAt := none }
/-- 06 R178: from SB onward the receiving part takes L from its new lane. A spare that has left SYNC by then, through a per-block reset
too (03 R547), carries L as soon as it is aligned (DESIGN CHOICE, assumption 176). -/
def laneMoveSwitchOp (p l : Nat) (s : State) : State :=
  match (s.port p).moves.find? fun m => m.l == l with
  | some m =>
    if m.sb ≤ s.pm ∧ m.ack ≠ some false then
      let v := s.port p
      let old := s.rxPhys p l
      let clr (o : Option Nat) : Option Nat := if o = some l then none else o
      let v1 := { v with moves := v.moves.filter fun x => x.l != l, rx24 := if m.phys = 24 then some l else clr v.rx24,
                         rx25 := if m.phys = 25 then some l else clr v.rx25 }
      let s1 := (s.setPort p v1).modLane (portLane p old) Lane.park
      let s2 := s1.modLane (portLane p m.phys) (Lane.take s.pm)
      let s3 := raise (portSrc p) 8 v.nRank s2
      if m.ack = none then raise (portSrc p) 9 v.nRank s3 else s3
    else s
  | none => s
def execLaneMoveSwitch (p : Fin 4) (l : Fin 24) (s : State) : Host.Outcome State Fault Refusal :=
  .next (laneMoveSwitchOp p l s)

/-! ### Commits, resets, objects (06 R181, R191 to R193) -/

/-- The effect of a set applied at Postmark pm on a port: relay_enable 0 takes it DOWN and ends the map (R176: map_valid is 0 while
relay_enable is), a schedule makes MAPPED SCHEDULED. -/
def relayCommit (p pm : Nat) (new : Tab Nat) (s : State) : State :=
  let v := s.port p
  if setVal new (ob 0x6100 3) = 0 then
    let s1 := restartMap (s.setPort p { v with st := PortSt.down, service := [], ctlq := [] })
    dropTransit p (s1.setRelay { s1.relay with rank := 255, x := 255, y := 255 })
  else if v.st = .mapped ∧ portUnused new p = false then s.setPort p { v with st := .scheduled, from_ := pm } else s
/-- A logical lane of a port returns to its home lane (06 R191): the spare waits in SYNC, the home lane runs once it is there. -/
def homeAgain (p k : Nat) (l : Option Nat) (s : State) : State :=
  match l with
  | some l => (s.modLane (portLane p k) Lane.park).modLane (portLane p l) (Lane.take s.pm)
  | none => s
/-- 06 R191: a per-block reset of a port engine. -/
def portReset (p : Nat) (s : State) : State :=
  let v := s.port p
  let s1 := dropTransit p (homeAgain p 25 v.rx25 (homeAgain p 24 v.rx24 s))
  forRange 24 (fun l s => s.setCrd p l {}) (s1.setPort p (portInit p))

def PortSt.code : PortSt → Nat | .down => 0 | .hello => 1 | .linked => 2 | .mapped => 3 | .scheduled => 4
/-- port_state (06 Table 06.14). UNUSED and SAME_NEIGHBOUR read 0, their reset values, while relay_enable is 0 (DESIGN CHOICE,
assumption 183). -/
def State.portStatus (s : State) (p : Nat) : Nat :=
  let v := s.port p
  let n := if s.cfg (ob 0x6100 3) = 0 then 0 else if portIsX p then torA s.disc else torB s.disc
  v.st.code + 8 * b2n (n == 1) + 16 * b2n v.miswired + 32 * b2n v.tooLong + 64 * b2n (n == 2)
    + 256 * ((List.range 26).filter fun k => (s.lane (portLane p k)).rx == .running).length
/-- spare_map (06 R192). -/
def Port.spareMap (v : Port) : Nat :=
  let f (o : Option Nat) : Nat := match o with | some l => l | none => 0x1F
  f v.rx24 + 256 * f v.rx25
/-- The Relay objects that are read (06 R192). -/
def relayRead (idx sub : Nat) (s : State) : Nat :=
  let r := s.relay
  if idx = 0x6100 then
    match sub with
    | 7 => r.rank % 256 | 8 => r.x % 256 | 9 => r.y % 256
    | 0xA => r.coordinator | 0xB => r.diameter | 0xC => s.tHopNs | 0xD => b2n r.mapValid | 0xF => r.lastGlobal
    | _ => 0
  else
    let p := natSub idx 0x6110
    let v := s.port p
    let m := s.active
    match sub with
    | 1 => s.portStatus p | 2 => v.neighbour
    | 3 => v.average.1.toNat % 65536 | 4 => unsigned 32 v.average.2
    | 5 => v.sent | 6 => v.received | 7 => v.crcErrors | 8 => v.late | 9 => v.lost | 0xA => v.stalls | 0xB => v.ctlDropped
    | 0xC => if v.st = .scheduled then linkLoad m (s.rankIn m) p else 0
    | 0xD => if v.st = .scheduled then linkLoad m (s.beyondRank m p) (oppPort p) else 0
    | 0xE => v.spareMap
    | _ => 0

end Sys2Proof.Machine
end

