-- ==== Sys2Proof/Machine/Accum.lean ====
section
/-! DEFINITION. Fold and dump (08): long accumulators with stochastic rounding in DRAM, tile bookkeeping, dumps with their
records, statistics, withdrawn notices and closing sweeps. -/

namespace Sys2Proof.Machine

open Sys2Proof

/-! ### The schedule's quantities (07 R196, R204 to R206, 08 R231) -/

/-- The correlation positions in order, without those that a fallback leaves out (07 R196, 16 R478). -/
def corrList (m : Tab Nat) (out : List (Nat × Nat)) : List (Nat × Nat) :=
  ((List.range 96).flatMap fun k => (List.range (16 - beamCells m k)).map fun p => (k, p)).filter fun x => !out.contains x
/-- The beam positions in order. -/
def beamList (m : Tab Nat) (out : List (Nat × Nat)) : List (Nat × Nat) :=
  ((List.range 96).flatMap fun k => (List.range (min 16 (beamCells m k))).map fun u => (k, 16 - min 16 (beamCells m k) + u)).filter
    fun x => !out.contains x
/-- L_f (08 R231). -/
def setLf (m : Tab Nat) : Nat := let l := if setC8 m then 127 else 7; min 8192 ((2 ^ 23 - 1) / (2 * l * l))
/-- The staging rule (07 Table 07.8, check 0x73). -/
def stagingOk (m : Tab Nat) (q : Nat) : Bool :=
  decide (2 * setNs m * q * setBytes m + 2 * beamIb m * beamCb m * beamKb m * setBytes m + 4 * beamB m * beamIb m ≤ 251658240)
/-- Q; 0 where no strip length fits. -/
def setQ (m : Tab Nat) : Nat :=
  match [8192, 4096, 2048, 1024, 512, 256].find? (stagingOk m) with | some q => q | none => 0
/-- W for nc correlation positions (07 R205). -/
def runW (m : Tab Nat) (nc : Nat) : Nat := 64 * ((setT m * setQ m + 64 * nc - 1) / (64 * nc))
/-- The multiples of x strictly between a and b. -/
def multsIn (x a b : Nat) : Nat := (b - 1) / x - a / x
/-- Folds of tile t in strip s: one per segment (07 R206). -/
def tileFolds (q w lf t s : Nat) : Nat :=
  let cuts := (List.range (multsIn w (t * q) ((t + 1) * q))).filter fun i =>
    (s * q + ((t * q / w + 1 + i) * w - t * q)) % lf != 0
  1 + multsIn lf (s * q) ((s + 1) * q) + cuts.length
/-- tile_folds_max (07 R206) for nc positions. -/
def foldsMax (m : Tab Nat) (nc : Nat) : Nat :=
  let q := setQ m
  let w := runW m nc
  if q = 0 ∨ w = 0 then 0
  else maxOf ((List.range (setT m)).map fun t => ((List.range (8192 / q)).map fun s => tileFolds q w (setLf m) t s).sum)

/-- The tile (g, h) of an index (07 R198): row by row. -/
def tileAt (gs : Nat) : Nat → Nat → Nat → Nat × Nat
  | 0, g, _ => (g, g)
  | f + 1, g, t => if t < gs - g then (g, g + t) else tileAt gs f (g + 1) (t - (gs - g))
def tileOf (m : Tab Nat) (t : Nat) : Nat × Nat := tileAt (setG m) (setG m) 0 t

/-! ### Commits that start integrations anew (02 R54, 09 R265) -/

/-- The objects of 02 Table 02.13 differ between two sets. -/
def schedChanged (old new : Tab Nat) : Bool :=
  let ch (o : Nat) : Bool := setVal old o != setVal new o
  ch (ob 0x7000 4) || ch (ob 0x5000 0x10) || ch (ob 0x5000 0x11) || ch (ob 0x5000 0x12) || ch (ob 0x5000 0x13)
    || ch (ob 0x5000 0x14) || ch (ob 0x6100 1) || ch (ob 0x6100 2)
    || ((List.range 96).any fun k => ch (ob (0x7200 + k) 1)) || (List.range 96).any fun l => ch (ob (0x4200 + l) 4)
/-- A remap with remap_discard (09 R265). -/
def remapDiscard (old new : Tab Nat) : Bool := setVal new (ob 0x8000 0xB) == 1 && firstPlace old != firstPlace new
/-- A commit that ends the open integrations. -/
def startsAnew (old new : Tab Nat) : Bool := schedChanged old new || remapDiscard old new

/-! ### Bookkeeping and dumps -/

def bookInit : Nat → Option Book := fun _ => none
def tileKey (c t : Nat) : Nat := c * 2 ^ 24 + t
def State.book (s : State) (c t : Nat) : Option Book := s.acc.book.get bookInit (tileKey c t)
def State.setBook (s : State) (c t : Nat) (b : Option Book) : State :=
  { s with acc := { s.acc with book := s.acc.book.set bookInit (tileKey c t) b } }
def State.setAcc (s : State) (a : Acc) : State := { s with acc := a }
/-- The dump that holds channel c's slot (09 R266). -/
def State.dumpOf (s : State) (c : Nat) : Option Dump := s.acc.dumps.find? fun d => d.c == c
def putDump (d : Dump) (s : State) : State :=
  s.setAcc { s.acc with dumps := d :: s.acc.dumps.filter fun e => e.c != d.c }
/-- The channel's slot can take tiles of the integration with P0 = p. -/
def State.canEmit (s : State) (c p : Nat) : Bool :=
  match s.dumpOf c with | none => true | some d => d.p0 == p && !d.complete
/-- The dump of the integration with P0 = p, opened if need be. -/
def openDump (c p : Nat) (s : State) : Dump × State :=
  match s.dumpOf c with
  | some d => (d, s)
  | none =>
    let m := s.setAt p
    let pl := s.placeFor p
    let d : Dump := { c := c, chan := s.absChan m c, p0 := p, tiles := setT m, inputs := setNs m,
                      blocks := (intEnd m c p - p) / setTB m, len := setN m, base := dumpBase m pl + 512 * tileIndex m c 0,
                      recBase := recBase m pl + 8 * tileIndex m c 0,
                      fac := s.acc.fac.contains c || s.acc.reset.contains (c, p) }
    (d, s.setAcc { s.acc with fac := s.acc.fac.filter fun x => x != c })

/-- A record covers a tile (08 R248). -/
def covers (m : Tab Nat) (t r : Nat) : Bool :=
  let g := tileOf m t
  let f := bits 72 37 r
  let l := bits 108 73 r
  let q := setQ m
  if r % 16 = 1 then decide (f < (t + 1) * q) && decide (t * q ≤ l)
  else if r % 16 = 2 then (decide (f ≤ g.1) && decide (g.1 ≤ l)) || (decide (f ≤ g.2) && decide (g.2 ≤ l))
  else if r % 16 = 3 then f / 8 == g.1 || f / 8 == g.2 else false
/-- A tile record (08 Table 08.4). -/
def tileRecord (b : Book) (forced excl : Bool) : Nat :=
  (if b.bad then 0 else b.weight % 2 ^ 29) + 2 ^ 29 * b2n forced + 2 ^ 30 * b2n excl + 2 ^ 31 * b2n b.sat
    + 2 ^ 32 * (b.maxExp % 256) + 2 ^ 40 * (b.pairSum % 2 ^ 24)
/-- A bookkeeping entry as its 16 bytes: the record so far, the fold count, P0 in octets of blocks, OPEN in bit 127 (DESIGN CHOICE,
assumption 187). -/
def Book.bytes (b : Book) : List Byte :=
  toBytes 8 (tileRecord b false false) ++ toBytes 8 (b.folds % 2 ^ 24 + 2 ^ 24 * (b.int / 65536 % 2 ^ 39) + 2 ^ 63 * b2n (!b.idle))
/-- Where the entry of a tile lies on its stack (09 R263). -/
def bookOff (m : Tab Nat) (pl : Place) (c t : Nat) : Nat := pl.base + setChans m * (setT m / 4) * 512 + 16 * tileIndex m c t
/-- Write a tile's bookkeeping. -/
def putBook (c t : Nat) (b : Book) (s : State) : State :=
  let o := bookOff (s.setAt b.int) (s.placeFor b.int) c t
  (storeBytes (dramAddr (t % 4) o) b.bytes s).setBook c t (some b)
/-- The address of a long accumulator. -/
def accAddr (m : Tab Nat) (pl : Place) (c t k : Nat) : Nat := dramAddr (t % 4) (accOff m pl c t k)
/-- Write a tile's 64 accumulators and its bookkeeping, through the fold port (09 Table 09.3). -/
def putTile (c t : Nat) (b : Book) (vals : List Nat) (s : State) : State :=
  let m := s.setAt b.int
  let pl := s.placeFor b.int
  let s1 := usePort (t % 4) 2 (bookOff m pl c t) 16 (usePort (t % 4) 2 (accOff m pl c t 0) 512 s)
  putBook c t b (storeBytes (accAddr m pl c t 0) (vals.flatMap (toBytes 8)) s1)

/-- The statistics sums of an input (08 R252): N, S1, S2. -/
def statInit : Nat → Nat × Nat × Nat := fun _ => (0, 0, 0)
/-- The key of input a's sums in channel c's integration with P0 = p. -/
def statKey (c p a : Nat) : Nat := (p * 65536 + c) * 32768 + a
/-- A statistics record (08 Table 08.6, R253). -/
def statRecord (x : Nat × Nat × Nat) : Nat :=
  let n := x.1
  let s1 := x.2.1
  let s2 := x.2.2
  let v := n * s2 - s1 * s1
  let noData := n == 0
  let undef := decide (n ≤ 1) || s1 == 0
  n % 2 ^ 32 + 2 ^ 32 * (s1 % 2 ^ 48) + 2 ^ 80 * (s2 % 2 ^ 64)
    + 2 ^ 144 * (if noData then 0 else f32Quot s1 n) + 2 ^ 176 * (if noData then 0 else f32Quot v (n * n))
    + 2 ^ 208 * (if undef then 0 else f32Quot ((n + 1) * v) ((n - 1) * (s1 * s1)))
    + 2 ^ 240 * b2n noData + 2 ^ 241 * b2n undef

/-- What is kept per integration is dropped where p holds. -/
def dropInts (f : Nat → Nat → Bool) (a : Acc) : Acc :=
  { a with excls := a.excls.filter fun e => !f (e.1 % 65536) (e.1 / 65536)
           stats := a.stats.filter fun e => !f (e.1 / 32768 % 65536) (e.1 / 32768 / 65536)
           reset := a.reset.filter fun e => !f e.1 e.2
           noFold := a.noFold.filter fun e => !f e.1 e.2
           biasCards := a.biasCards.filter fun e => !f e.1 e.2.1 }
/-- The lowest tile of an integration with a bad bias entry. -/
def State.biasTile (s : State) (c p : Nat) : Option Nat :=
  (s.acc.biasCards.find? fun e => e.1 == c && e.2.1 == p).map fun e => e.2.2
/-- 08 R242: once all tiles are emitted the dump is complete; it takes its exclusions and statistics, and CHAIN_CUT and BIAS_BAD are
raised with the lowest tile concerned (R246, R247, R255). -/
def finishDump (d : Dump) (s : State) : State :=
  if d.emitted.length = d.tiles ∧ d.complete = false then
    let st := (List.range d.inputs).foldl (fun (t : Tab (Nat × Nat × Nat)) a =>
      t.set statInit a (s.acc.stats.get statInit (statKey d.c d.p0 a))) []
    let s1 := match d.cut with | some t => raise 0x910 1 (d.c + t * 65536) s | none => s
    let s2 := match s.biasTile d.c d.p0 with | some t => raise 0x910 2 (d.c + t * 65536) s1 | none => s1
    putDump { d with complete := true, excl := capRecords (s.exclOf d.c d.p0), stats := st }
      (s2.setAcc { dropInts (fun c p => c == d.c && p == d.p0) s2.acc with
        dumpsOut := satAdd 64 s2.acc.dumpsOut 1
        lastDump := d.p0 })
  else putDump d s

/-- Write a tile of a dump through the dump port: its record and its 64 products (08 R240, 09 R263). -/
def writeTile (d : Dump) (t rd : Nat) (vals : List Nat) (s : State) : State :=
  let k := t % 4
  let s0 := usePort k 3 (d.base + 512 * (t / 4)) 512 (usePort k 3 (d.recBase + 8 * (t / 4)) 8 s)
  let s1 := storeBytes (dramAddr k (d.recBase + 8 * (t / 4))) (toBytes 8 rd) s0
  let s2 := storeBytes (dramAddr k (d.base + 512 * (t / 4))) (vals.flatMap (toBytes 8)) s1
  let bad := (vals.filter fun v => v % 2 ^ 32 == damagedMarker).length
  finishDump { d with emitted := d.emitted.set (fun _ => 0) t 1 }
    (s2.setAcc { s2.acc with damaged := satAdd 32 s2.acc.damaged bad })

/-- The damaged marker in both components. -/
def damagedWord : Nat := damagedMarker + 2 ^ 32 * damagedMarker

/-- 08 R247: the carry chain ends with the emission that starts an integration of set m. -/
def chainCut (m : Tab Nat) (out : List (Nat × Nat)) (b : Book) : Bool :=
  setVal m (ob 0x7100 1) == 2 && decide (2 ^ 20 < b.folds + setN m * foldsMax m (corrList m out).length)

/-- Emit tile t of channel c with its values into the dump of its integration (08 R240); cut that its carry chain ends here (R247). A
tile that a reset left IDLE leaves as +0.0 (R256). -/
def emitTile (c t : Nat) (b : Book) (cut : Bool) (vals : List Nat) (s : State) : State :=
  let m := s.setAt b.int
  let (d, s1) := openDump c b.int s
  let ex := (s1.exclOf c b.int).any (covers m t) || s1.acc.noFold.contains (c, b.int)
  if b.idle then writeTile d t (tileRecord { int := b.int } false ex) (List.replicate 64 0) s1
  else
    let d1 := if cut then { d with cut := some (min t (d.cut.getD t)) } else d
    writeTile d1 t (tileRecord b cut ex) vals (s1.setAcc { s1.acc with forced := satAdd 32 s1.acc.forced (b2n cut) })

/-- A bias entry that is taken as it stands (08 R246). -/
def biasOk (w : Nat) : Bool :=
  let ok (b : Nat) : Bool := f32Finite b && decide ((f32Units b).natAbs < 2 ^ 62 * 2 ^ 149)
  ok (w % 2 ^ 32) && ok (w / 2 ^ 32)
/-- A start value as it is written: −0.0 becomes +0.0 (08 R234). -/
def noNegZero (w : Nat) : Nat :=
  let f (b : Nat) : Nat := if b = 2 ^ 31 then 0 else b
  f (w % 2 ^ 32) + 2 ^ 32 * f (w / 2 ^ 32)
/-- A product is the damaged marker. -/
def isDamaged (w : Nat) : Bool := w % 2 ^ 32 == damagedMarker && w / 2 ^ 32 == damagedMarker
/-- The carried start value of a product from the value emitted; the damaged marker carries nothing (08 R244, R245). -/
def carryValue (m : Tab Nat) (w : Nat) : Nat :=
  let sh := setVal m (ob 0x7100 2)
  if isDamaged w then 0 else noNegZero (f32Carry (w % 2 ^ 32) sh + 2 ^ 32 * f32Carry (w / 2 ^ 32) sh)
/-- Count a bad bias entry and note the tile (08 R246). -/
def biasBad (c p t : Nat) (s : State) : State :=
  let a := s.acc
  let low := min t ((s.biasTile c p).getD t)
  s.setAcc { a with biasBad := satAdd 32 a.biasBad 1
                    biasCards := (c, p, low) :: a.biasCards.filter fun e => !(e.1 == c && e.2.1 == p) }
/-- A product's entry in the bias buffer, read for the integration with P0 = p; e is the report of its word (08 R246). -/
def biasValue (m : Tab Nat) (c t k p : Nat) (e : Ecc) (s : State) : Nat × State :=
  let c0 := setVal m (ob 0x7100 4)
  if c0 ≤ c ∧ c < c0 + setVal m (ob 0x7100 5) then
    let a := setVal m (ob 0x7100 3) + 8 * (64 * setT m * (c - c0) + 64 * t + k)
    let l := dramLoc (natSub (canon a) dramBase)
    let s0 := usePort l.1 2 l.2 8 s
    let (r, s1) := dramCheck l.1 l.2 2 e s0
    let w := flipIn (dramFlip l.1 l.2 e s0) (s1.numAt a 8)
    if r = .uncorrectable ∨ biasOk w = false then (0, biasBad c p t s1) else (noNegZero w, s1)
  else (0, s)
/-- The report for word n among the reports a command carries. -/
def eccOf (l : List (Nat × Ecc)) (n : Nat) : Ecc := match l.find? fun e => e.1 == n with | some e => e.2 | none => .ok
/-- The largest exponent of a product's components that are numbers. -/
def wordExp (w : Nat) : Nat :=
  let f (b : Nat) : Nat := if b = damagedMarker then 0 else f32Exp b
  max (f (w % 2 ^ 32)) (f (w / 2 ^ 32))
/-- The largest exponent of values. -/
def maxExps (vals : List Nat) : Nat := maxOf (vals.map wordExp)
/-- The start values of tile t of channel c for the integration with P0 = p, with its fresh bookkeeping (08 R244 to R246). old is the
tile as emitted, with its values, where it carries. -/
def startTile (c t p : Nat) (old : Option (Book × List Nat)) (ecc : List (Nat × Ecc)) (s : State) : Book × List Nat × State :=
  let m := s.setAt p
  match setVal m (ob 0x7100 1), old with
  | 1, _ =>
    let (vals, s1) := (List.range 64).foldl (fun (x : List Nat × State) k =>
      let (w, s1) := biasValue m c t k p (eccOf ecc (65 + k)) x.2
      (x.1 ++ [w], s1)) ([], s)
    ({ int := p, maxExp := maxExps vals }, vals, s1)
  | 2, some (b, vs) =>
    let vals := vs.map (carryValue m)
    ({ int := p, folds := b.folds, maxExp := max b.maxExp (maxExps vals) }, vals, s)
  | _, _ => ({ int := p }, List.replicate 64 0, s)

/-! ### Folds (08 R234, R240) -/

/-- The engine reads a tile's bookkeeping where the layout for data stamped x has it, and whether a word of it is uncorrectable. -/
def readBook (c t x : Nat) (ecc : List (Nat × Ecc)) (s : State) : Bool × State :=
  let o := bookOff (s.setAt x) (s.placeFor x) c t
  let (r0, s1) := dramCheck (t % 4) o 2 (eccOf ecc 64) (usePort (t % 4) 2 o 16 s)
  let (r1, s2) := dramCheck (t % 4) (o + 8) 2 (eccOf ecc 129) s1
  (r0 == .uncorrectable || r1 == .uncorrectable, s2)
/-- The engine reads a tile's bookkeeping and its accumulators; a word that is uncorrectable damages its product, or the whole
tile (09 Table 09.6). Reports: accumulators 0 to 63, bookkeeping 64 and 129. -/
def readTile (c t : Nat) (b : Book) (ecc : List (Nat × Ecc)) (s : State) : Book × List Nat × State :=
  let m := s.setAt b.int
  let pl := s.placeFor b.int
  let (lost, s1) := readBook c t b.int ecc s
  let s2 := usePort (t % 4) 2 (accOff m pl c t 0) 512 s1
  let bad := b.bad || lost
  let (vals, s3) := (List.range 64).foldl (fun (x : List Nat × State) k =>
    let (r, s') := dramCheck (t % 4) (accOff m pl c t k) 2 (eccOf ecc k) x.2
    let fl := dramFlip (t % 4) (accOff m pl c t k) (eccOf ecc k) x.2
    (x.1 ++ [if bad || r == .uncorrectable then damagedWord else flipIn fl (s'.numAt (accAddr m pl c t k) 8)], s')) ([], s2)
  ({ b with bad := bad }, vals, s3)
/-- Tile t of channel c, in an older integration, is emitted and starts the one with P0 = p (08 R240); the read of its old values
is the one that the fold makes. -/
def turnTile (c t p : Nat) (b : Book) (ecc : List (Nat × Ecc)) (s : State) : Book × List Nat × State :=
  if b.idle then startTile c t p none ecc (emitTile c t b false [] s)
  else
    let (b1, vals, s1) := readTile c t b ecc s
    let cut := chainCut (s.setAt p) s.fab.removed b1
    startTile c t p (if cut || b1.bad then none else some (b1, vals)) ecc (emitTile c t b1 cut vals s1)
/-- An IDLE tile starts the integration with P0 = p; where its bookkeeping word is uncorrectable the whole tile is damaged (09 Table
09.6). -/
def startIdle (c t p : Nat) (ecc : List (Nat × Ecc)) (s : State) : Book × List Nat × State :=
  let (lost, s1) := readBook c t p ecc s
  let (b, vals, s2) := startTile c t p none ecc s1
  if lost then ({ b with bad := true }, List.replicate 64 damagedWord, s2) else (b, vals, s2)
/-- Bring tile t of channel c to the integration with P0 = p (08 Table 08.3): its bookkeeping and its values, not yet written. -/
def openTile (c t p : Nat) (ecc : List (Nat × Ecc)) (s : State) : Book × List Nat × State :=
  match s.book c t with
  | none => startIdle c t p ecc s
  | some b => if b.int < p then turnTile c t p b ecc s else if b.idle then startIdle c t p ecc s else readTile c t b ecc s
/-- The tile can be brought to the integration: the slot that it needs is free. -/
def State.tileFree (s : State) (c t p : Nat) : Bool :=
  match s.book c t with | some b => decide (p ≤ b.int) || s.canEmit c b.int | none => true
/-- One product after a fold: a damaged one is skipped (09 Table 09.6). -/
def foldProduct (f : FoldItem) (k w : Nat) : Nat :=
  if isDamaged w then w
  else
    let q := f.sums.getD k (0, 0)
    f32Add (w % 2 ^ 32) q.1 (f.rnd.getD (2 * k) 0) + 2 ^ 32 * f32Add (w / 2 ^ 32) q.2 (f.rnd.getD (2 * k + 1) 0)
/-- The bookkeeping after a fold that leaves the given values (08 Table 08.3, first row). -/
def foldBook (f : FoldItem) (b : Book) (vals : List Nat) : Book :=
  { b with folds := b.folds + 1, weight := b.weight + (f.last + 1 - f.first), pairSum := (b.pairSum + f.counts.sum) % 2 ^ 24,
           maxExp := max b.maxExp (maxExps vals), sat := b.sat || f.sat }
/-- Apply a fold to a tile's values. -/
def applyFold (f : FoldItem) (b : Book) (vals : List Nat) (s : State) : State :=
  let w := (List.range 64).map fun k => foldProduct f k (vals.getD k 0)
  putTile f.c f.tile (foldBook f b w) w s
/-- DUMP_QUEUE_FULL, once per dump that still holds the slot (09 R266). -/
def queueFull (c : Nat) (s : State) : State :=
  match s.dumpOf c with
  | some d => if d.full then s else raise 0x910 6 (c + 0xFFFFFF * 65536) (putDump { d with full := true } s)
  | none => s
/-- The next fold for a stack: the earliest one, if no fold of the stack that ended before it waits in a cluster (08 R236, 16 R468) and
no notice of an earlier window waits (08 R240). -/
def State.nextFold (s : State) (st : Nat) : Option FoldItem :=
  match s.fab.folds.find? fun f => f.tile % 4 == st with
  | some f =>
    if (s.fab.cl.any fun c => c.2.queue.any fun h => h.tile % 4 == st && decide (h.seq < f.seq))
      || s.fab.notices.any fun n => decide (n.x0 < f.x0) then none else some f
  | none => none

/-! ### Closing sweeps and commits (08 R241, R243) -/

/-- Sweep one tile into its dump: it starts the integration with P0 = p with no fold. -/
def sweepTile (c t p : Nat) (b : Book) (s : State) : State :=
  let (b1, vals, s1) := turnTile c t p b [] s
  let s2 := putTile c t b1 vals s1
  s2.setAcc { s2.acc with sweeps := satAdd 32 s2.acc.sweeps 1 }
/-- Channel c's integration with P0 = p owes its dump under the commit at Postmark at_: it ended by then (08 R243). -/
def State.endedBy (s : State) (at_ c p : Nat) : Bool := decide (p < at_) && decide (intEnd (s.setAt p) c p ≤ at_)
/-- The closing sweep of a commit for one integration, under the old set's layout (08 R243). -/
def sweepOld (at_ : Nat) (x : Nat × Nat) (s : State) : State :=
  let c := x.1
  let ts := (List.range (setT (s.setAt x.2))).filter fun t =>
    match s.dumpOf c with | some d => d.emitted.get (fun _ => 0) t == 0 | none => true
  let emit (t : Nat) (s : State) : State :=
    match s.book c t with
    | some b =>
      if b.int = x.2 ∧ b.idle = false then
        let (b1, vals, s1) := readTile c t b [] s
        emitTile c t b1 (chainCut (s.setAt at_) s.fab.removed b1) vals s1
      else emitTile c t { int := x.2, idle := true } false [] s
    | none => emitTile c t { int := x.2, idle := true } false [] s
  let s1 := ts.foldl (fun s t => emit t s) s
  raise 0x910 4 (c + (leastOf ts).getD 0 * 65536)
    (s1.setAcc { s1.acc with sweeps := satAdd 32 s1.acc.sweeps ts.length, owed := s1.acc.owed.filter fun y => y != x })
/-- The values of a tile as they stand, for a carry. -/
def State.tileVals (s : State) (c t : Nat) (b : Book) : List Nat :=
  let m := s.setAt b.int
  let pl := s.placeFor b.int
  (List.range 64).map fun k =>
    let a := accAddr m pl c t k
    if s.badWord a then damagedWord else s.numAt a 8
/-- Every open tile starts anew under the set of the commit at Postmark at_; one that was emitted carries (08 Table 08.3, R241). -/
def startNew (at_ : Nat) (s : State) : State :=
  let m := s.setAt at_
  let olds := s.acc.book.filterMap fun e => match e.2 with
    | some b =>
      let c := e.1 / 2 ^ 24
      let t := e.1 % 2 ^ 24
      let gone := b.idle || b.bad || !s.endedBy at_ c b.int || chainCut m s.fab.removed b
      some (c, t, if gone then none else some (b, s.tileVals c t b))
    | none => none
  (olds.filter fun o => decide (o.1 < setChans m ∧ o.2.1 < setT m)).foldl (fun s o =>
    let (b, vals, s1) := startTile o.1 o.2.1 at_ o.2.2 [] s
    putTile o.1 o.2.1 b vals s1) (s.setAcc { s.acc with book := [], due := none })
/-- A fold or a notice of data before a stamp is still to come (02 R28). -/
def State.oldWork (s : State) (at_ : Nat) : Bool :=
  let old (f : FoldItem) : Bool := decide (f.x0 < at_)
  s.fab.folds.any old || (s.fab.cl.any fun k => k.2.queue.any old) || s.fab.notices.any fun n => decide (n.x0 < at_)
/-- Once the old data has been folded, the integrations that ended by a commit's Postmark owe their dumps, unless the new set discards
them; every other open one is discarded, with what was recorded for it (08 R243, 09 R265). -/
def owedNow (at_ : Nat) (s : State) : State :=
  let keep (c p : Nat) : Bool := !remapDiscard (s.setAt (natSub at_ 1)) (s.setAt at_) && s.endedBy at_ c p
  let owed := (s.acc.book.filterMap fun e => match e.2 with
    | some b => if keep (e.1 / 2 ^ 24) b.int then some (e.1 / 2 ^ 24, b.int) else none
    | none => none).eraseDups
  s.setAcc { dropInts (fun c p => decide (p < at_) && !keep c p) s.acc with waits := false, owed := owed }
/-- Sweep the dumps that a commit still owes and whose slot is free, the oldest of a channel first; then every tile starts anew. -/
def sweepOwed (s0 : State) : State :=
  match s0.acc.due with
  | none => s0
  | some at_ =>
    let s := if s0.acc.waits && !s0.oldWork at_ then owedNow at_ s0 else s0
    if s.acc.waits then s
    else
    let s1 := s.acc.owed.foldl (fun s x =>
      if s.canEmit x.1 x.2 && !s.acc.owed.any fun y => y.1 == x.1 && decide (y.2 < x.2) then sweepOld at_ x s else s) s
    if s1.acc.owed.isEmpty then startNew at_ s1 else s1
/-- The unread dumps of earlier integrations are discarded (09 R265). -/
def dropDumps (at_ : Nat) (s : State) : State :=
  let gone (k : Nat × Nat) : Bool := decide (k.2 < at_)
  { s with acc := { s.acc with dumps := s.acc.dumps.filter fun d => decide (at_ ≤ d.p0) }
           out := { s.out with streams := s.out.streams.filter fun x => match x.dump with | some k => !gone k | none => true
                               queued := s.out.queued.filter fun k => !gone k } }
/-- The commit at Postmark at_ for every tile (08 R243, 09 R265); it waits for the folds of the old set. -/
def accCommit (at_ : Nat) (old new : Tab Nat) (s : State) : State :=
  if s.acc.commitPm < at_ ∧ startsAnew old new = true ∧ s.fab.start.isSome then
    let s1 := if remapDiscard old new then dropDumps at_ s else s
    sweepOwed (s1.setAcc { s1.acc with commitPm := at_, due := some at_, waits := true, fac := List.range (setChans new) })
  else s
/-- The fold and dump engines take the set due for data stamped x before that data (02 R28, 08 R243). -/
def accApply (x : Nat) (s : State) : State :=
  let s1 := s.noteUnit 0x910 x
  match s.dueSet 0x910 x with
  | some (p, old, new, k) => accCommit p old new (sweepOwed (s1.noteApplied 0x910 p k))
  | none => sweepOwed s1
/-- Data stamped x waits until the dumps owed under a commit have been swept (08 R243). -/
def State.accWaits (s : State) (x : Nat) : Bool := match s.acc.due with | some p => decide (p ≤ x) | none => false

/-- A fold that the engine holds: the slot it needs is not free (09 R266). -/
def State.foldHeld (s : State) (f : FoldItem) : Bool :=
  s.accWaits f.x0 || !s.tileFree f.c f.tile (s.intAt (s.setAt f.x0) f.c f.x0)
/-- 08 R240: the fold and dump engine of a stack takes its next fold. -/
def foldOp (st : Nat) (ecc : List (Nat × Ecc)) (s0 : State) : State :=
  match s0.nextFold st with
  | none => s0
  | some f =>
    let s := accApply f.x0 s0
    if s.acc.waits ∧ s.accWaits f.x0 then s
    else if s.foldHeld f then queueFull f.c s
    else
      let p := s.intAt (s.setAt f.x0) f.c f.x0
      let s1 := { s with fab := { s.fab with folds := s.fab.folds.filter fun g => g.seq != f.seq } }
      let (b, vals, s2) := openTile f.c f.tile p ecc s1
      if b.int = p then applyFold f b vals s2 else s1
/-- The tiles that a run of offsets touches. -/
def runTiles (m : Tab Nat) (first last : Nat) : List Nat :=
  let q := setQ m
  (List.range (last / q + 1 - first / q)).map fun k => first / q + k
/-- A fold of an earlier window still waits for one of a channel's tiles. -/
def State.foldsBefore (s : State) (c x : Nat) (ts : List Nat) : Bool :=
  let hit (f : FoldItem) : Bool := f.c == c && ts.contains f.tile && decide (f.x0 < x)
  s.fab.folds.any hit || s.fab.cl.any fun k => k.2.queue.any hit
/-- A notice brings a tile that is not in the integration with P0 = p to it, with no fold. -/
def noticeTile (c p t : Nat) (s : State) : State :=
  match s.book c t with
  | some b => if p ≤ b.int ∧ b.idle = false then s else let (b1, v, s1) := openTile c t p [] s; putTile c t b1 v s1
  | none => let (b1, v, s1) := openTile c t p [] s; putTile c t b1 v s1
/-- 08 R240, 16 R472: a withdrawn notice: the exclusion record; a tile of an older integration is emitted and started. It waits behind
the folds of earlier windows. -/
def noticeOp (s0 : State) : State :=
  match s0.fab.notices with
  | [] => s0
  | n :: r =>
    let m := s0.setAt n.x0
    let ts := runTiles m n.first n.last
    if s0.foldsBefore n.c n.x0 ts then s0
    else
      let s := accApply n.x0 s0
      let p := s.intAt m n.c n.x0
      if s.accWaits n.x0 = false ∧ ts.all (fun t => s.tileFree n.c t p) = true then
        ts.foldl (fun s t => noticeTile n.c p t s) (exclRun m n { s with fab := { s.fab with notices := r } })
      else if s.acc.waits ∧ s.accWaits n.x0 then s
      else queueFull n.c s
def execWithdrawnNotice (s : State) : Host.Outcome State Fault Refusal := .next (noticeOp s)

/-- A tile waits for a fold, or for a notice of the window of block b. -/
def State.tilePending (s : State) (m : Tab Nat) (c t b : Nat) : Bool :=
  s.fab.folds.any (fun f => f.c == c && f.tile == t)
    || s.fab.cl.any (fun x => x.2.queue.any fun f => f.c == c && f.tile == t)
    || s.fab.notices.any fun n => n.c == c && n.block == b && (runTiles m n.first n.last).contains t
/-- The tiles of channel c that the window of block b, in the integration with P0 = p, leaves to the closing sweep: no fold or notice
has brought them to it (08 R241). A tile IDLE since START joins a dump that is being built (R256). -/
def State.sweepDue (s : State) (m : Tab Nat) (b c p : Nat) : List Nat :=
  (List.range (setT m)).filter fun t =>
    (match s.book c t with
     | some k => decide (k.int < p) && s.canEmit c k.int
     | none => match s.dumpOf c with | some d => decide (d.p0 < p) && !d.complete && d.emitted.get (fun _ => 0) t == 0 | none => false)
      && !s.tilePending m c t b
/-- The sweep of channel c at the end of the window of the block at x0. -/
def sweepChan (m : Tab Nat) (x0 c : Nat) (s : State) : State :=
  let p := s.intAt m c x0
  let due := s.sweepDue m (x0 / setTB m) c p
  let s1 := due.foldl (fun s t => match s.book c t with
    | some k => sweepTile c t p k s
    | none => sweepTile c t p { int := ((s.dumpOf c).map Dump.p0).getD 0, idle := true } s) s
  if due.isEmpty then s1 else raise 0x910 4 (c + (leastOf due).getD 0 * 65536) s1

/-! ### Per-block reset (08 R256) -/

/-- The first stamp of the window in progress, or of the one that would be. -/
def State.accNow (s : State) : Nat :=
  match s.fab.win with
  | some w => w.x0
  | none => let t := setTB (s.setAt s.pm); natSub (natSub s.pm 500000 / t * t) t
/-- 08 R256: a per-block reset of the engine of stack st. -/
def accReset (st : Nat) (s : State) : State :=
  let x := s.accNow
  let m := s.setAt x
  let mine := s.acc.book.filter fun e => e.1 % 4 == st && e.2.isSome
  let s1 := mine.foldl (fun s e => match e.2 with
    | some b => putBook (e.1 / 2 ^ 24) (e.1 % 2 ^ 24) { int := b.int, idle := true } s
    | none => s) s
  let open_ : List (Nat × Nat) := match s.runStart x with
    | some _ => (List.range (setChans m)).map fun c => (c, s.intAt m c x)
    | none => []
  let touched := ((mine.filterMap fun (e : Nat × Option Book) => e.2.map fun (b : Book) => (e.1 / 2 ^ 24, b.int)) ++ open_).eraseDups
  let s2 := s1.setAcc { s1.acc with
    reset := (s1.acc.reset ++ touched).eraseDups
    stats := s1.acc.stats.filter fun e => s.endedBy x (e.1 / 32768 % 65536) (e.1 / 32768 / 65536)
    dumps := s1.acc.dumps.map fun d => if touched.contains (d.c, d.p0) && !d.complete then { d with fac := true } else d }
  raise (0x910 + st) 5 (0xFFFF + 0xFFFFFF * 65536) s2

end Sys2Proof.Machine
end

