-- ==== Sys2Proof/Machine/Fabric.lean ====
section
/-! DEFINITION. The cross-multiply fabric (07): the window's passes and segments, staging, tile sums, the fold queue with the
random generator (08 R235), and the schedule's objects. -/

namespace Sys2Proof.Machine

open Sys2Proof

/-! ### Access -/

def clInit : Nat → Cluster := fun _ => {}
def State.cl (s : State) (k : Nat) : Cluster := s.fab.cl.get clInit k
def State.setFab (s : State) (f : Fab) : State := { s with fab := f }
def State.setCl (s : State) (k : Nat) (v : Cluster) : State := s.setFab { s.fab with cl := s.fab.cl.set clInit k v }
def posInit : Nat → PosSt := fun _ => {}
def State.posSt (s : State) (k p : Nat) : PosSt := s.fab.pos.get posInit (16 * k + p)
def State.setPos (s : State) (k p : Nat) (v : PosSt) : State := s.setFab { s.fab with pos := s.fab.pos.set posInit (16 * k + p) v }
/-- Source numbers of a cluster controller and a cell slot (02 Table 02.2). -/
def clSrc (k : Nat) : Nat := 0x140 + k
def cellSrc (k slot : Nat) : Nat := 0x200 + 18 * k + slot
/-- A position of a set is a beam position (07 R196). -/
def isBeam (m : Tab Nat) (k p : Nat) : Bool := decide (16 - min 16 (beamCells m k) ≤ p)

/-! ### The random generator (08 R235) -/

/-- The seed of cluster k. -/
def rngSeed (seed k : Nat) : Nat :=
  let x := (seed ^^^ (k * 0x9E3779B9)) % 2 ^ 32
  if x = 0 then 1 else x
/-- One step of the generator. -/
def rngStep (x : Nat) : Nat := if x % 2 = 1 then (x / 2) ^^^ 0x80200003 else x / 2
/-- n steps. -/
def rngSteps : Nat → Nat → Nat
  | 0, x => x
  | n + 1, x => rngSteps n (rngStep x)
/-- n draws of 16 bits and the state after them. -/
def rngDraws : Nat → Nat → List Nat × Nat
  | 0, x => ([], x)
  | n + 1, x =>
    let y := rngSteps 16 x
    let (l, z) := rngDraws n y
    (y % 65536 :: l, z)

/-! ### Staged samples (07 R201, R209, R225, 08 R252) -/

/-- A sample as a cell reads it: real, imaginary, valid, malformed (02 R37, R38). -/
abbrev Smp := Int × Int × Bool × Bool
def markerSmp : Smp := (0, 0, false, false)
def decodeSmp (c8 : Bool) (w : Nat) : Smp :=
  let n := if c8 then 8 else 4
  let re := signed n w
  let im := signed n (w / 2 ^ n)
  let lo : Int := -(2 ^ (n - 1) : Nat)
  if re = lo ∨ im = lo then (0, 0, false, decide ((re = lo) ≠ (im = lo))) else (re, im, true, false)

/-- The key of a staged octet word: block, channel, group, sample index. -/
def octKey (b c g q : Nat) : Nat := ((b * 16384 + c) * 4096 + g) * 8192 + q
def State.tabMark (t : Tab Nat) (k : Nat) : Bool := t.get (fun _ => 0) k == 1
/-- The key of a staged 64-bit word: half h of an octet word, which fills two in C8 (02 R39, 07 R225). -/
def wordKey (b c g q h : Nat) : Nat := octKey b c g q * 2 + h
/-- The SECDED words of an octet word. -/
def octHalves (m : Tab Nat) : Nat := if setC8 m then 2 else 1
/-- The number of half h of group g's word in a command's reports. -/
def wordNo (m : Tab Nat) (g h : Nat) : Nat := octHalves m * g + h
/-- Cluster k reads a late word: STAGING_LATE once per pass from each cluster (07 R209). -/
def lateRead (k c b : Nat) (key : Nat) (s : State) : State :=
  let v := s.cl k
  let s1 := s.setCl k { v with lateRun := true, latePass := some (b, c) }
  if v.latePass = some (b, c) then s1 else raise (clSrc k) 2 (key % 2 ^ 40) s1
/-- Whether an octet word is read before its load is complete, which counts and is recorded once (07 R209). -/
def readLate (m : Tab Nat) (k c b g q : Nat) (s : State) : Bool × State :=
  let key := octKey b c g q
  if State.tabMark s.fab.lateW key then (true, lateRead k c b key s)
  else if s.fab.loaded.contains (c, b, q / setQ m) then (false, s)
  else
    let s1 := s.setFab { s.fab with lateW := s.fab.lateW.set (fun _ => 0) key 1, stagingLate := satAdd 32 s.fab.stagingLate 1 }
    (true, exclGroup ((8192 * b + q) * setF m) c g g (lateRead k c b key s1))
/-- The check of one staged word: none where it reads as markers (07 R225), else the bits that the reader receives changed, as a
mask (16 R465). -/
def readWord (m : Tab Nat) (k c b g q h : Nat) (e : Ecc) (s : State) : Option Nat × State :=
  let key := wordKey b c g q h
  if State.tabMark s.fab.poison key then (none, s)
  else
    let ok := some (flipIn (eccFlip (clSrc k) 1 e s) 0)
    let (r, test, s1) := eccCheck (clSrc k) 1 e s
    match r with
    | .ok => (ok, s1)
    | .corrected => (ok, raiseT test (clSrc k) 4 (key % 2 ^ 40) (s1.setFab { s1.fab with eccCorr := satAdd 32 s1.fab.eccCorr 1 }))
    | .uncorrectable =>
      (none, exclGroup ((8192 * b + q) * setF m) c g g (raiseT test (clSrc k) 5 (key % 2 ^ 40)
        (s1.setFab { s1.fab with eccUncorr := satAdd 32 s1.fab.eccUncorr 1, poison := s1.fab.poison.set (fun _ => 0) key 1 })))
/-- 07 R201: a malformed sample counts once per pass and cluster, and raises FORMAT_ERR once per time block. -/
def countBad (m : Tab Nat) (k c b a q : Nat) (s : State) : State :=
  let v := s.cl k
  if v.seenBad.contains (c, b, a, q) then s
  else
    let blk := s.pm / setTB m
    let s1 := s.setCl k { v with seenBad := (c, b, a, q) :: v.seenBad, fmtErrors := satAdd 32 v.fmtErrors 1, fmtBlock := some blk }
    exclInput m c b a q (if v.fmtBlock = some blk then s1 else raise (clSrc k) 1 c s1)
/-- Count the malformed samples among an octet's. -/
def countBads (m : Tab Nat) (k c b g q : Nat) (l : List Smp) (s : State) : State :=
  (l.zipIdx).foldl (fun s v => if v.1.2.2.2 then countBad m k c b (8 * g + v.2) q s else s) s
/-- The eight samples of an octet word as read (02 R39): markers where a SECDED word of it is bad (07 R225; DEDUCED, assumption 220). -/
def octSamples (m : Tab Nat) (c b g q : Nat) (w0 w1 : Option Nat) (s : State) : List Smp :=
  (List.range 8).map fun u =>
    match (if w0.isNone ∨ w1.isNone then none else if setC8 m ∧ 4 ≤ u then w1 else w0) with
    | none => markerSmp
    | some x =>
      let w := s.chanWord (s.absChan m c) (8 * g + u) ((8192 * b + q) * setF m)
      decodeSmp (setC8 m) (if setC8 m then w ^^^ bits (16 * (u % 4) + 15) (16 * (u % 4)) x else w ^^^ bits (8 * u + 7) (8 * u) x)
/-- A SECDED word of an octet word reads as markers until it is staged again (07 R225). -/
def State.octBad (s : State) (m : Tab Nat) (c b g q : Nat) : Bool :=
  (List.range (octHalves m)).any fun h => State.tabMark s.fab.poison (wordKey b c g q h)
/-- The checks of an octet word's SECDED words; e0 and e1 are what the check bits report. -/
def checkOctet (m : Tab Nat) (k c b g q : Nat) (e0 e1 : Ecc) (s : State) :
    Option Nat × Option Nat × State :=
  let (b0, s1) := readWord m k c b g q 0 e0 s
  if setC8 m then let (b1, s2) := readWord m k c b g q 1 e1 s1; (b0, b1, s2) else (b0, b0, s1)
/-- The eight samples of an octet word as cluster k reads them. -/
def readSamples (m : Tab Nat) (k c b g q : Nat) (e0 e1 : Ecc) (s : State) : List Smp × State :=
  let (late, s1) := readLate m k c b g q s
  if late then (List.replicate 8 markerSmp, s1)
  else
    let (b0, b1, s2) := checkOctet m k c b g q e0 e1 s1
    let l := octSamples m c b g q b0 b1 s2
    (l, countBads m k c b g q l s2)
/-- The reports that a command carries for staged words: word number, sample index, report. -/
def octEcc (l : List (Nat × Nat × Ecc)) (g q : Nat) : Ecc :=
  match l.find? fun e => e.1 == g && e.2.1 == q with | some e => e.2.2 | none => .ok
/-- The samples of one group over a run of sample indexes. -/
def readGroup (m : Tab Nat) (k c b g : Nat) (ecc : List (Nat × Nat × Ecc)) : List Nat → State → List (List Smp) × State
  | [], s => ([], s)
  | q :: r, s =>
    let (l, s1) := readSamples m k c b g q (octEcc ecc (wordNo m g 0) q) (octEcc ecc (wordNo m g 1) q) s
    let (ls, s2) := readGroup m k c b g ecc r s1
    (l :: ls, s2)

/-- One tile-sum component after an addition, saturated (08 R232). -/
def addPart (x : Int × Bool) (v : Int) : Int × Bool :=
  (satSym 8388607 (x.1 + v), x.2 || decide (8388607 < (x.1 + v).natAbs))
/-- The sum of a·conj(b) over paired samples: both components, the valid-pair count, and saturation (07 R199 to R201). -/
def pairSum : List Smp → List Smp → (Int × Bool) × (Int × Bool) × Nat → (Int × Bool) × (Int × Bool) × Nat
  | a :: r, b :: q, (re, im, n) =>
    pairSum r q (addPart re (a.1 * b.1 + a.2.1 * b.2.1), addPart im (a.2.1 * b.1 - a.1 * b.2.1),
      n + b2n (a.2.2.1 && b.2.2.1))
  | _, _, x => x
/-- The 64 products of a tile over a segment: sums, counts and the SAT mark. -/
def tileSums (rows cols : List (List Smp)) : List (Int × Int) × List Nat × Bool :=
  let col (l : List (List Smp)) (u : Nat) : List Smp := l.map fun r => r.getD u markerSmp
  let rs := (List.range 64).map fun k => pairSum (col rows (k / 8)) (col cols (k % 8)) ((0, false), (0, false), 0)
  (rs.map fun x => (x.1.1, x.2.1.1), rs.map fun x => x.2.2, rs.any fun x => x.1.2 || x.2.1.2)

/-- The strip load of a channel's block completes: the staged words are whole again, and the staging reader adds the valid
samples to the statistics (08 R252). An uncorrectable corner-turn word (stack, offset, word number, sample index) reads as markers
(09 Table 09.6). -/
def stagingLoad (c x0 strip : Nat) (ecc : List (Nat × Nat × Nat × Nat × Ecc)) (s : State) : State :=
  let m := s.setAt x0
  let b := x0 / setTB m
  let q0 := strip * setQ m
  let inStrip (k : Nat) : Bool := k / 2 / (4096 * 8192) == b * 16384 + c && k / 2 % 8192 / max 1 (setQ m) == strip
  if x0 % setTB m = 0 ∧ s.fab.start.isSome ∧ c < setChans m ∧ 0 < setQ m ∧ s.fab.loaded.contains (c, b, strip) = false then
    let s0 := (List.range (setG m)).foldl (fun s g =>
      touchInter (cornerOff m (s.placeFor x0) c b g q0) (8 * setQ m * setBytes m) s)
      (streamTokens 4 (setNs m * setQ m * setBytes m) s)
    let s1 := s0.setFab { s0.fab with loaded := (c, b, strip) :: s0.fab.loaded,
                                      poison := s0.fab.poison.filter fun e => !inStrip e.1 }
    let s2 := ecc.foldl (fun s e =>
      let (r, s') := dramCheck e.1 e.2.1 4 e.2.2.2.2 s
      let g := e.2.2.1 / octHalves m
      if r = .uncorrectable then
        exclGroup ((8192 * b + e.2.2.2.1) * setF m) c g g
          (s'.setFab { s'.fab with poison := s'.fab.poison.set (fun _ => 0) (wordKey b c g e.2.2.2.1 (e.2.2.1 % octHalves m)) 1 })
      else s') s1
    let n := s2.absChan m c
    let i := s2.intAt m c x0
    (List.range (setNs m)).foldl (fun s a =>
      let v := (List.range (setQ m)).foldl (fun (v : Nat × Nat × Nat) k =>
        let q := q0 + k
        let d := decodeSmp (setC8 m) (s.chanWord n a ((8192 * b + q) * setF m))
        if d.2.2.1 && !s.octBad m c b (a / 8) q then
          let p := (d.1 * d.1 + d.2.1 * d.2.1).toNat
          (v.1 + 1, v.2.1 + p, v.2.2 + p * p)
        else v) (s.acc.stats.get statInit (statKey c i a))
      s.setAcc { s.acc with stats := s.acc.stats.set statInit (statKey c i a) v }) s2
  else s
def execStagingLoadDone (c : Nat) (x0 : BitVec 64) (strip : Nat) (ecc : List (Nat × Nat × Nat × Nat × Ecc)) (s : State) :
    Host.Outcome State Fault Refusal := .next (stagingLoad c x0.toNat strip ecc s)

/-! ### The fabric checks (07 Table 07.8, 08 Table 08.2) -/

/-- A power of two within bounds. -/
def pow2In (lo hi x : Nat) : Bool := decide (lo ≤ x ∧ x ≤ hi) && 2 ^ x.log2 == x
/-- Beam batch cycles over nb positions (07 R213). -/
def batchCyclesOf (m : Tab Nat) (nb : Nat) : Nat :=
  let kb := beamKb m
  let u := beamCb m * (beamB m / 8) * (beamIb m / 8) * kb
  if nb = 0 then 0 else kb * ((u + kb * nb - 1) / (kb * nb)) * (if setC8 m then 4 else 2)
/-- pass_cycles (07 R207). -/
def passCycles (m : Tab Nat) (nc : Nat) : Nat :=
  let q := setQ m
  if q = 0 ∨ nc = 0 then 0 else 8192 / q * runW m nc * (if setC8 m then 4 else 1)
/-- L_T of 07 R224. -/
def fabricLimit (m : Tab Nat) : Nat := natSub (8192 * setF m * 64 / 10) 1600000
/-- Check 0x75. -/
def beamCyclesOk (m : Tab Nat) (nb : Nat) : Bool :=
  decide (batchCyclesOf m nb ≤ min 1200000 (fabricLimit m * beamKb m / 8192))
/-- The code of the first fabric check that fails, 0 for none. out are positions left out, chans the channels correlated,
userOk that the bias buffer lies in the user area. -/
def fabricCheck (m : Tab Nat) (out : List (Nat × Nat)) (chans : Nat) (biasInUser : Bool) : Nat :=
  let nc := (corrList m out).length
  let nb := (beamList m out).length
  let b := beamB m
  let mode1 := setVal m (ob 0x7100 1) == 1
  if ((List.range 96).any fun k => decide (16 < beamCells m k)) || nc == 0 || (decide (0 < b) && nb == 0) then 0x70
  else if b % 8 ≠ 0 ∨ (if setC8 m then 256 else 1024) < b then 0x71
  else if beamIf m % 8 ≠ 0 ∨ beamIb m % 8 ≠ 0 ∨ setNs m < beamIf m + beamIb m ∨ setChans m < beamCf m + beamCb m
    ∨ pow2In 1 256 (beamSpan m) = false ∨ beamCb m % max 1 (beamSpan m) ≠ 0
    ∨ (beamKb m ≠ 8 ∧ beamKb m ≠ 16 ∧ beamKb m ≠ 32) ∨ pow2In (beamKb m) 8192 (beamKp m) = false then 0x72
  else if setQ m = 0 then 0x73
  else if fabricLimit m < chans * passCycles m nc then 0x74
  else if beamCyclesOk m nb = false then 0x75
  else if setN m < 1 ∨ 32768 < setN m then 0x76
  else if 2 ^ 20 < setN m * foldsMax m nc then 0x77
  else if mode1 ∧ (setChans m < setVal m (ob 0x7100 4) + setVal m (ob 0x7100 5) ∨ setVal m (ob 0x7100 3) % 64 ≠ 0
    ∨ biasInUser = false) then 0x78
  else 0

/-! ### The schedule without unserved positions (16 R478, R479) -/

/-- Positions that no slot serves. -/
def State.unserved (s : State) : List (Nat × Nat) := s.fab.cl.flatMap fun c => c.2.fallback.map fun u => (c.1, u.pos)
/-- 16 R478, R479: the schedule without the unserved positions: those, the channels dropped, and that beams stop. Of the checks of an
accepted set, 0x74, 0x75 and 0x77 are those that a position left out can fail. With no beam position left the beams stop too (DEDUCED,
assumption 221). -/
def State.reduced (s : State) (m : Tab Nat) : List (Nat × Nat) × Nat × Bool :=
  let out := s.unserved
  let nb := (beamList m out).length
  let beams := decide (0 < beamB m) && (nb == 0 || !beamCyclesOk m nb)
  let nc := (corrList m out).length
  let ok (d : Nat) : Bool :=
    decide (0 < nc ∧ (setChans m - d) * passCycles m nc ≤ fabricLimit m ∧ setN m * foldsMax m nc ≤ 2 ^ 20)
  let d := match (List.range (setChans m + 1)).find? ok with | some d => d | none => setChans m
  (out, d, beams)

/-! ### Windows and segments (07 R202 to R206) -/

/-- The set of a window. -/
def State.winSet (s : State) (w : Win) : Tab Nat := s.setAt w.x0
/-- The channels of a window in the order of 07 R203, without those that a fallback removed (16 R479). -/
def passOrder (m : Tab Nat) (b dropped : Nat) : List Nat :=
  let cs := List.range (setChans m - dropped)
  (cs.filter fun c => b % setN m == c % setN m) ++ cs.filter fun c => b % setN m != c % setN m
/-- 07 R202: the window of the block at x0 begins. The schedule that a fallback left is worked out anew where a position is served
again, or the set is another (16 R479, R480; assumption 221). -/
def windowStart (x0 : Nat) (s : State) : State :=
  let m := s.setAt x0
  let tb := setTB m
  let begun : Bool := match s.fab.start with | some b0 => decide (b0 ≤ x0) | none => false
  if begun ∧ x0 % tb = 0 ∧ x0 + tb + 500000 ≤ s.dataPm ∧ s.fab.win.isNone then
    let served := s.fab.removed.any fun x => !s.unserved.contains x
    let fresh := decide (s.fab.start = some x0) || s.setAt (natSub x0 1) != m
    let s1 := if served || (fresh && !s.fab.removed.isEmpty) then
        let r := s.reduced m
        if s.unserved.isEmpty then s.setFab { s.fab with removed := [], dropped := 0, beamsOff := false, newSched := none }
        else s.setFab { s.fab with removed := r.1, dropped := r.2.1, beamsOff := r.2.2, newSched := none }
      else s
    let out := (List.range (setChans m)).filter fun c => decide (setChans m - s1.fab.dropped ≤ c)
    let s2 := s1.setAcc { s1.acc with noFold := (s1.acc.noFold ++ out.map fun c => (c, s1.intAt m c x0)).eraseDups }
    s2.setFab { s2.fab with win := some ⟨x0 / tb, x0, passOrder m (x0 / tb) s2.fab.dropped⟩, pos := [] }
  else s
def execFabricWindowStart (x0 : BitVec 64) (s : State) : Host.Outcome State Fault Refusal := .next (windowStart x0.toNat s)

/-- The correlation index of a position under the schedule in force, if it has one. -/
def State.corrIndex (s : State) (m : Tab Nat) (k p : Nat) : Option Nat :=
  let l := corrList m s.fab.removed
  let j := l.idxOf (k, p)
  if j < l.length then some j else none
/-- The run of a position in every strip (07 R205): first offset and past the last. -/
def State.runOf (s : State) (m : Tab Nat) (k p : Nat) : Nat × Nat :=
  match s.corrIndex m k p with
  | some j =>
    let w := runW m (corrList m s.fab.removed).length
    let e := setT m * setQ m
    (min (j * w) e, min ((j + 1) * w) e)
  | none => (0, 0)
/-- The position number that RUN records name: its index among all correlation positions of the set. -/
def posIndex (m : Tab Nat) (k p : Nat) : Nat := (corrList m []).idxOf (k, p)
/-- Move on to the next offset that waits; none at the end of the window. -/
def nextWork (run : Nat × Nat) (strips passes : Nat) : Nat → PosSt → Option PosSt
  | 0, _ => none
  | f + 1, v =>
    if passes ≤ v.pass then none
    else match v.todo with
      | none => nextWork run strips passes f { v with todo := some [run] }
      | some [] =>
        if v.strip + 1 < strips then nextWork run strips passes f { v with strip := v.strip + 1, todo := none }
        else nextWork run strips passes f { v with pass := v.pass + 1, strip := 0, todo := none }
      | some ((a, b) :: r) => if a < b then some v else nextWork run strips passes f { v with todo := some r }
/-- A position's place in the window with work waiting. -/
def State.workOf (s : State) (w : Win) (m : Tab Nat) (k p : Nat) : Option PosSt :=
  let strips := 8192 / max 1 (setQ m)
  nextWork (s.runOf m k p) strips w.chans.length (w.chans.length * strips * 3 + 40) (s.posSt k p)
/-- The end of the segment that starts at offset a of a run to b in a strip (07 R206). -/
def segEnd (q lf strip a b : Nat) : Nat :=
  let i := strip * q + a % q
  min b (min ((a / q + 1) * q) (a + (lf - i % lf)))

/-- The position that the Rambler audits in a pass (16 R467, R473). -/
def Cluster.auditPos (v : Cluster) (pass : Nat) : Nat :=
  match v.audit with | some (p, last) => if pass ≤ last then p else pass % 16 | none => pass % 16
def Cluster.slot (v : Cluster) (n : Nat) : SlotSt := v.slotSt.get (fun _ => .ok) n
def Cluster.setSlot (v : Cluster) (n : Nat) (x : SlotSt) : Cluster := { v with slotSt := v.slotSt.set (fun _ => .ok) n x }
/-- Put a fold into the released folds by the order in which the segments ended (08 R236). -/
def insertFold (f : FoldItem) : List FoldItem → List FoldItem
  | [] => [f]
  | g :: r => if f.seq < g.seq then f :: g :: r else g :: insertFold f r
/-- The folds at the head of a queue that nothing holds, each with its 128 random values (08 R235). -/
def releaseGo : List FoldItem → Nat → List FoldItem × List FoldItem × Nat
  | [], x => ([], [], x)
  | f :: r, x =>
    if f.held then ([], f :: r, x)
    else
      let (d, y) := rngDraws 128 x
      let (o, rest, z) := releaseGo r y
      ({ f with rnd := d } :: o, rest, z)
/-- Cluster k's fold queue emits what it can. -/
def releaseFolds (k : Nat) (s : State) : State :=
  let v := s.cl k
  let (o, rest, g) := releaseGo v.queue (v.gen.getD 0)
  let s1 := s.setCl k { v with queue := rest, gen := some g, segments := satAdd 64 v.segments o.length }
  s1.setFab { s1.fab with folds := o.foldl (fun l f => insertFold f l) s1.fab.folds }

/-- Send the open notices of a cluster that satisfy p (16 R472). -/
def flushNotices (k : Nat) (p : Notice → Bool) (s : State) : State :=
  let v := s.cl k
  let s1 := s.setCl k { v with wd := v.wd.filter fun n => !p n }
  s1.setFab { s1.fab with notices := s1.fab.notices ++ v.wd.filter p }
/-- Withdraw a run of offsets: joined to the open notice of its position if it goes on from it. -/
def withdraw (k : Nat) (n : Notice) (s : State) : State :=
  match (s.cl k).wd.find? fun o => o.j == n.j with
  | some o =>
    if o.c = n.c ∧ o.x0 = n.x0 ∧ o.strip = n.strip ∧ o.last + 1 = n.first then
      let v := s.cl k
      s.setCl k { v with wd := v.wd.map fun x => if x = o then { o with last := n.last } else x }
    else
      let s1 := flushNotices k (fun x => x.j == n.j) s
      let v := s1.cl k
      s1.setCl k { v with wd := v.wd ++ [n] }
  | none => let v := s.cl k; s.setCl k { v with wd := v.wd ++ [n] }

/-! ### Strips in step, and spread runs (07 R207, 16 R478) -/

/-- The number of a position's strip in the window. -/
def stripNo (strips : Nat) (v : PosSt) : Nat := v.pass * strips + v.strip
/-- The strip that the fabric works: the first one in which a position has work (07 R207). -/
def State.front (s : State) (w : Win) (m : Tab Nat) : Option Nat :=
  let strips := 8192 / max 1 (setQ m)
  let ps := corrList m s.fab.removed
  let wd := runW m ps.length
  let e := setT m * setQ m
  (ps.zipIdx).foldl (fun b x =>
    let run := (min (x.2 * wd) e, min ((x.2 + 1) * wd) e)
    match nextWork run strips w.chans.length (w.chans.length * strips * 3 + 40) (s.posSt x.1.1 x.1.2) with
    | none => b
    | some v => match b with | none => some (stripNo strips v) | some n => some (min n (stripNo strips v))) none
/-- The first n offsets of ranges, and the rest. -/
def takeLen : Nat → List (Nat × Nat) → List (Nat × Nat) × List (Nat × Nat)
  | _, [] => ([], [])
  | n, (a, b) :: r =>
    if n = 0 then ([], (a, b) :: r)
    else if a + n < b then ([(a, a + n)], (a + n, b) :: r)
    else let x := takeLen (n - (b - a)) r; ((a, b) :: x.1, x.2)
/-- Ranges in parts of n offsets. -/
def cutParts (n : Nat) : Nat → List (Nat × Nat) → List (List (Nat × Nat))
  | 0, _ => []
  | f + 1, l => if l.isEmpty then [] else let x := takeLen n l; x.1 :: cutParts n f x.2
/-- Offsets in ranges. -/
def rangeLen (l : List (Nat × Nat)) : Nat := (l.map fun r => r.2 - r.1).sum
/-- A position's place in strip n, whatever it has done before. -/
def atStrip (strips n : Nat) (run : Nat × Nat) (v : PosSt) : PosSt :=
  if stripNo strips v = n then { v with todo := some (v.todo.getD [run]) }
  else { v with pass := n / strips, strip := n % strips, todo := some [run] }
/-- 16 R478, stage 1: spread the rest of position p's run in strip n over the other correlation positions of cluster k. -/
def spreadRun (w : Win) (m : Tab Nat) (k p n : Nat) (s : State) : State :=
  let strips := 8192 / max 1 (setQ m)
  let v := atStrip strips n (s.runOf m k p) (s.posSt k p)
  let left := (v.todo.getD []).filter fun r => r.1 < r.2
  let others := ((List.range 16).filter fun q => q != p && !isBeam m k q && (s.corrIndex m k q).isSome
    && !((s.cl k).fallback.any fun u => u.pos == q))
  let part := 64 * ((rangeLen left + 64 * others.length - 1) / max 1 (64 * others.length))
  let cm := if setC8 m then 4 else 1
  let parts := if others.isEmpty then [left] else cutParts part (left.length + 16) left
  let lost (l : List (Nat × Nat)) (s : State) : State :=
    let ns := l.map fun r => Notice.mk (w.chans.getD v.pass 0) w.block w.x0 (posIndex m k p) v.strip r.1 (r.2 - 1)
    s.setFab { s.fab with notices := s.fab.notices ++ ns }
  let s1 := (parts.zipIdx).foldl (fun s x =>
    match others[x.2]? with
    | none => lost x.1 s
    | some q =>
      let o := atStrip strips n (s.runOf m k q) (s.posSt k q)
      if 1600000 < o.extra + rangeLen x.1 * cm then lost x.1 s
      else s.setPos k q { o with todo := some (o.todo.getD [] ++ x.1), extra := o.extra + rangeLen x.1 * cm }) s
  s1.setPos k p { v with todo := some [] }
/-- The runs of unserved positions in strip n, once stage 1 has begun, are spread as the strip starts. -/
def spreadDue (w : Win) (m : Tab Nat) (n : Nat) (s : State) : State :=
  let strips := 8192 / max 1 (setQ m)
  s.fab.cl.foldl (fun s c => c.2.fallback.foldl (fun s u =>
    if u.spread then
      match s.workOf w m c.1 u.pos with
      | some v => if stripNo strips v = n then spreadRun w m c.1 u.pos n s else s
      | none => s
    else s) s) s

/-- π, the pass that the fabric works, counted since START (16 R467): that of the strip in progress; with no work left, the next. -/
def State.curPass (s : State) : Nat :=
  match s.fab.win with
  | some w =>
    let m := s.winSet w
    s.fab.passBase + (match s.front w m with | some n => n / (8192 / max 1 (setQ m)) | none => w.chans.length)
  | none => s.fab.passBase
/-- A position stalls while the fold engine of a stack holds a fold of its (09 R266). -/
def State.posStalled (s : State) (k p : Nat) : Bool :=
  s.fab.folds.any fun f => f.k == k && f.p == p &&
    (match s.nextFold (f.tile % 4) with | some g => s.foldHeld g | none => false)
/-- The Rambler audits position p in a pass: it is OK, and has been since before the pass (16 R467, R475). -/
def Cluster.audits_ (v : Cluster) (p pass : Nat) : Bool := v.slot 17 == .ok && decide (v.rambFrom ≤ pass) && v.auditPos pass == p
/-- 07 R206, 08 R232, R233: position p of cluster k closes its segment. -/
def segmentEnd (k p : Nat) (ecc : List (Nat × Nat × Ecc)) (s0 : State) : State :=
  match s0.fab.win with
  | none => s0
  | some w =>
    let m := s0.winSet w
    let n := s0.front w m
    let s := match n with | some n => spreadDue w m n s0 | none => s0
    match (if s.posStalled k p then none else s.workOf w m k p) with
    | none => s
    | some v =>
      match (if n = some (stripNo (8192 / max 1 (setQ m)) v) then v.todo else none) with
      | some ((a, b) :: r) =>
        let q := setQ m
        let e := segEnd q (setLf m) v.strip a b
        let c := w.chans.getD v.pass 0
        let q0 := v.strip * q + a % q
        let s1 := s.setPos k p { v with todo := some ((e, b) :: r) }
        let cl := s1.cl k
        if cl.withdraw.contains p then
          withdraw k ⟨c, w.block, w.x0, posIndex m k p, v.strip, a, e - 1⟩ s1
        else
          let t := a / q
          let gh := tileOf m t
          let qs := (List.range (e - a)).map fun n => q0 + n
          let (rows, s2) := readGroup m k c w.block gh.1 ecc qs s1
          let (cols, s3) := if gh.1 = gh.2 then (rows, s2) else readGroup m k c w.block gh.2 ecc qs s2
          let (sums, counts, sat) := tileSums rows cols
          let v3 := s3.cl k
          let held := v3.audits_ p (s3.fab.passBase + v.pass)
          let f : FoldItem := { seq := s3.fab.seq, k := k, p := p, j := posIndex m k p, slot := v3.slots.getD p 0, c := c,
                                block := w.block, x0 := w.x0, strip := v.strip, e0 := a, e1 := e - 1, tile := t, first := q0,
                                last := q0 + (e - a) - 1, sat := sat, sums := sums, counts := counts, held := held }
          let s4 := (s3.setCl k { v3 with queue := v3.queue ++ [f], tileSat := satAdd 32 v3.tileSat (b2n sat) })
          let s5 := s4.setFab { s4.fab with seq := s4.fab.seq + 1 }
          releaseFolds k (if sat then raise (clSrc k) 0x0D c s5 else s5)
      | _ => s
def execSegmentEnd (k : Fin 96) (p : Fin 16) (ecc : List (Nat × Nat × Ecc)) (s : State) : Host.Outcome State Fault Refusal :=
  .next (segmentEnd k p ecc s)

/-! ### Window end (07 R210, R227, 08 R241) -/

/-- Notices for the work that a position has left in the window: the strip's rest, the pass's later strips, later passes. -/
def leftOver (s : State) (w : Win) (m : Tab Nat) (k p : Nat) (onlyPass : Bool) : List Notice :=
  match s.workOf w m k p with
  | none => []
  | some v =>
    let j := posIndex m k p
    let run := s.runOf m k p
    let mk (c strip : Nat) (r : Nat × Nat) : List Notice :=
      if r.1 < r.2 then [⟨c, w.block, w.x0, j, strip, r.1, r.2 - 1⟩] else []
    let c := w.chans.getD v.pass 0
    let strips := 8192 / max 1 (setQ m)
    (v.todo.getD []).flatMap (mk c v.strip)
      ++ (List.range (strips - 1 - v.strip)).flatMap (fun i => mk c (v.strip + 1 + i) run)
      ++ (if onlyPass then [] else (w.chans.drop (v.pass + 1)).flatMap fun c => mk c 0x3F run)
/-- Cluster k abandons its work at the end of a window: notices, WINDOW_OVERRUN and the OVERRUN bit (07 R210). Gives whether
there was any. -/
def clusterEnd (w : Win) (m : Tab Nat) (k : Nat) (s : State) : Bool × State :=
  let s0 := flushNotices k (fun _ => true) s
  let per := (List.range 16).map fun p => (p, if isBeam m k p then [] else leftOver s0 w m k p false)
  let ns := per.flatMap Prod.snd
  let unrun := per.any fun x => !x.2.isEmpty
  let s1 := s0.setFab { s0.fab with notices := s0.fab.notices ++ ns }
  let v := s1.cl k
  let s2 := s1.setCl k { v with overrun := unrun, late := v.lateRun, lateRun := false,
                                seenBad := v.seenBad.filter fun e => decide (w.block < e.2.1) }
  (unrun, if unrun then raise (clSrc k) 3 0xFFFF s2 else s2)
/-- The strips of the window are no longer staged. -/
def dropStaging (b : Nat) (f : Fab) : Fab :=
  let old (k : Nat) : Bool := k / (4096 * 8192) / 16384 == b
  { f with loaded := f.loaded.filter (fun e => e.2.1 != b), lateW := f.lateW.filter (fun e => !old e.1),
           poison := f.poison.filter fun e => !old (e.1 / 2) }
/-- 07 R210, 08 R241: the window ends; the channels that dump are swept. -/
def windowEnd (s : State) : State :=
  match s.fab.win with
  | none => s
  | some w =>
    let m := s.winSet w
    if w.x0 + 2 * setTB m + 500000 ≤ s.dataPm then
      let (un, s1) := (List.range 96).foldl (fun (x : Bool × State) k =>
        let (u, s') := clusterEnd w m k x.2
        (x.1 || u, s')) (false, s)
      let s2 := accApply w.x0 (if un then s1.setFab { s1.fab with overruns := satAdd 32 s1.fab.overruns 1 } else s1)
      let s3 := if s2.accWaits w.x0 then s2 else (List.range (setChans m)).foldl (fun s c => sweepChan m w.x0 c s) s2
      s3.setFab (dropStaging w.block { s3.fab with win := none, passBase := s3.fab.passBase + w.chans.length, pos := [] })
    else s
def execFabricWindowEnd (s : State) : Host.Outcome State Fault Refusal := .next (windowEnd s)

/-- The units of a batch's run that a beam position has done by now: one takes two fabric cycles in C4, four in C8, at 6.4 cycles a
tick (07 Table 07.1, R213; DESIGN CHOICE, assumption 186). -/
def State.beamProgress (s : State) (m : Tab Nat) : Nat :=
  natSub s.now s.fab.batchAt * 64 / 10 / (if setC8 m then 4 else 2)
/-- Beam position p of cluster k stops in the batch in progress. -/
def cutBeam (k p : Nat) (s : State) : State :=
  match s.fab.batch with
  | some x =>
    let m := s.setAt x
    if isBeam m k p && !s.fab.cutNow.any fun e => e.1 == k && e.2.1 == p then
      s.setFab { s.fab with cutNow := (k, p, s.beamProgress m) :: s.fab.cutNow }
    else s
  | none => s
/-- 07 R227: a per-block reset of a cluster controller: its positions abandon the pass that the fabric works, and its beam positions
the batch in progress; they rejoin at the next pass. -/
def clusterReset (k : Nat) (s0 : State) : State :=
  let s := (List.range 16).foldl (fun s p => cutBeam k p s) s0
  match s.fab.win with
  | none => s
  | some w =>
    let m := s.winSet w
    match s.front w m with
    | none => s
    | some n =>
      let pass := n / (8192 / max 1 (setQ m))
      (List.range 16).foldl (fun s p =>
        match (if isBeam m k p then none else s.workOf w m k p) with
        | some v =>
          if v.pass = pass then
            let s1 := s.setFab { s.fab with notices := s.fab.notices ++ leftOver s w m k p true }
            s1.setPos k p { v with pass := v.pass + 1, strip := 0, todo := none }
          else s
        | none => s) (flushNotices k (fun _ => true) s)

/-- 08 R235: seed every cluster's generator from a set. -/
def seedAll (m : Tab Nat) (s : State) : State :=
  forRange 96 (fun k s => s.setCl k { s.cl k with gen := some (rngSeed (setVal m (ob 0x7100 6)) k) }) s
/-- A commit at a cluster controller: the generator is seeded anew where partial integrations are discarded. -/
def clusterCommit (k : Nat) (old new : Tab Nat) (s : State) : State :=
  if startsAnew old new && s.fab.start.isSome then
    s.setCl k { s.cl k with gen := some (rngSeed (setVal new (ob 0x7100 6)) k) }
  else s

/-! ### Objects (07 R228, 08 R257, 16 R484) -/

/-- Some set has been latched, so that the schedule's objects show it. -/
def State.scheduled (s : State) : Bool := !s.dict.sets.isEmpty
/-- Beam batch cycles of a set. -/
def batchCycles (m : Tab Nat) : Nat := batchCyclesOf m (beamList m []).length
/-- cluster_status (07 Table 07.11). -/
def State.clusterStatus (s : State) (k : Nat) : Nat :=
  let v := s.cl k
  beamCells s.active k % 32 + 32 * b2n s.fab.start.isSome + 64 * b2n v.overrun + 128 * b2n v.late + 256 * b2n v.beamCut
/-- sparing_status (16 Table 16.14). -/
def State.sparingStatus (s : State) (k : Nat) : Nat :=
  let v := s.cl k
  v.standby.getD 0x1F + 32 * b2n (v.slot 17 != .held) + 64 * b2n (!v.fallback.isEmpty)
    + 128 * (match v.fallback with | u :: _ => u.pos | [] => 0) + 2048 * b2n v.move.isSome + 4096 * v.auditPos s.curPass
/-- Objects of the fabric and accumulation that are read as numbers. -/
def fabricRead (idx sub : Nat) (s : State) : Nat :=
  let m := s.active
  let nc := (corrList m s.fab.removed).length
  let w := s.fab.w
  if idx = 0x7010 then
    match sub with
    | 1 => (corrList m []).length | 2 => setQ m | 3 => setT m
    | 4 => if s.scheduled then passCycles m nc else 0
    | 5 => if s.scheduled then setChans m * passCycles m nc else 0
    | 6 => if s.scheduled then foldsMax m nc else 0
    | 7 => if s.scheduled then batchCycles m else 0
    | 8 => s.fab.overruns | 9 => s.fab.stagingLate | 0xA => s.fab.eccCorr | 0xB => s.fab.eccUncorr
    | 0xC => s.unserved.length | 0xD => s.fab.dropped
    | _ => 0
  else if idx = 0x7040 then
    match sub with
    | 0xC => w.st + 4 * b2n w.active + 8 * b2n w.valid + 16 * b2n w.replaced + 32 * b2n w.late + 64 * b2n w.setBad
    | 0xD => w.curSeq | 0xE => w.curEff | 0xF => interAddr s.place.w0 | 0x10 => interAddr s.place.w1
    | 0x11 => s.fab.beamSat | 0x12 => s.fab.beamSatBlock | 0x14 => s.fab.beamIncomplete
    | 0x15 => w.discarded | 0x16 => w.refused | 0x17 => w.nReplaced
    | _ => 0
  else if 0x7200 ≤ idx ∧ idx ≤ 0x725F then
    let k := natSub idx 0x7200
    let v := s.cl k
    match sub with
    | 2 => ofBytes (v.slots.map (BitVec.ofNat 8)) | 3 => s.clusterStatus k | 4 => v.segments | 5 => v.fmtErrors
    | 6 => v.tileSat | 7 => s.sparingStatus k | 8 => v.promotions | 9 => v.audits | 0xA => v.mismatches
    | 0xB => v.rotations
    | _ => 0
  else if idx = 0x7120 then
    let a := s.acc
    match sub with
    | 1 => if s.scheduled then setN m * foldsMax m nc else 0
    | 3 => setLf m | 4 => min ((s.fab.cl.map fun c => c.2.tileSat).sum) (2 ^ 32 - 1)
    | 5 => a.forced | 6 => a.biasBad | 7 => a.exclOver | 8 => a.sweeps | 9 => a.dumpsOut | 0xA => a.lastDump
    | _ => 0
  else 0

end Sys2Proof.Machine
end

