-- ==== Sys2Proof/Machine/Codec.lean ====
section
/-! DEFINITION. The codecs of 10 R286 to R295: the native coder with its choice of modes, the legacy 2:1 code, and the
decoder with its errors. -/

namespace Sys2Proof.Machine

open Sys2Proof

/-- H in elements of s bytes (10 R287). -/
def histCap (s : Nat) : Nat := 2 ^ 21 / s
/-- key(v) (10 R288). -/
def keyOf (v : Nat) : Nat := if v < 2 ^ 31 then v + 2 ^ 31 else 2 ^ 32 - 1 - v % 2 ^ 32
/-- The inverse of key(). -/
def ofKey (k : Nat) : Nat := if 2 ^ 31 ≤ k then natSub k (2 ^ 31) else 2 ^ 32 - 1 - k
/-- z of a key and its prediction (10 R288). -/
def zOf (k pred : Nat) : Nat :=
  let r := signed 32 ((k + 2 ^ 32 - pred) % 2 ^ 32)
  if 0 ≤ r then (2 * r).toNat else (-2 * r - 1).toNat
/-- The key of z and a prediction. -/
def keyZ (z pred : Nat) : Nat :=
  let r : Int := if z % 2 = 0 then (z / 2 : Nat) else -(((z + 1) / 2 : Nat) : Int)
  ((((pred : Int) + r) % (2 ^ 32 : Nat))).toNat
/-- The components of an element of s bytes: real then imaginary for a product. -/
def compsOf (s e : Nat) : List Nat := if s = 8 then [e % 2 ^ 32, e / 2 ^ 32 % 2 ^ 32] else [e % 2 ^ 32]

/-- The key that component j of the element d before position i has in the history (newest first): +0.0 before its start. -/
def predKey (past : List Nat) (d j : Nat) : Nat :=
  match past[d - 1]? with | some e => keyOf (e / 2 ^ (32 * j) % 2 ^ 32) | none => 2 ^ 31
/-- The z values of a block under a distance (0: the ZERO mode). past is the history before the block, newest first. -/
def blockZ (s d : Nat) : List Nat → List Nat → List Nat
  | _, [] => []
  | past, e :: r =>
    ((compsOf s e).zipIdx.map fun c => zOf (keyOf c.1) (if d = 0 then 2 ^ 31 else predKey past d c.2))
      ++ blockZ s d (e :: past) r
/-- Bits of the code of z with parameter q (10 R291). -/
def riceLen (q z : Nat) : Nat := if z / 2 ^ q < 24 then z / 2 ^ q + 1 + q else 56
/-- w bits of a number, least significant first. -/
def fieldBits : Nat → Nat → List Bool
  | 0, _ => []
  | w + 1, x => (x % 2 == 1) :: fieldBits w (x / 2)
/-- The code of z. -/
def riceBits (q z : Nat) : List Bool :=
  let u := z / 2 ^ q
  if u < 24 then List.replicate u true ++ [false] ++ fieldBits q z
  else List.replicate 24 true ++ fieldBits 32 z

/-- The distances of a stream (10 Table 10.5). -/
structure Dists where
  row : Nat
  ch : Nat
  dump : Nat
  deriving DecidableEq, Repr
/-- The distance of a mode with its DIST field. -/
def modeDist (x : Dists) (mode dist : Nat) : Nat :=
  match mode with | 1 => 1 | 2 => x.row | 3 => x.ch | 4 => x.dump | 5 => dist | _ => 0
/-- A block's code: mode, Q, DIST. -/
abbrev BlockCode := Nat × Nat × Nat
/-- The candidates of 10 R292 in the order of its ties within one length: mode, then Q, then DIST. -/
def candidates (s : Nat) (x : Dists) : List (Nat × List Nat) :=
  let ok (d : Nat) : Bool := 0 < d && d ≤ histCap s
  [(0, [0]), (1, [1])]
    ++ (if ok x.row then [(2, [x.row])] else []) ++ (if ok x.ch then [(3, [x.ch])] else [])
    ++ (if ok x.dump then [(4, [x.dump])] else [])
    ++ [(5, ((List.range 13).map fun j => 64 * 2 ^ j).filter fun d => ok d)]
/-- The better of two choices: the earlier one on a tie. -/
def better (a b : Nat × BlockCode) : Nat × BlockCode := if b.1 < a.1 then b else a
/-- The shortest code of a block (10 R292): its length and code. -/
def bestCode (s : Nat) (x : Dists) (past blk : List Nat) : Nat × BlockCode :=
  let raw : Nat × BlockCode := (8 + 8 * s * blk.length, 6, 0, 0)
  let all := (candidates s x).flatMap fun c =>
    let zs := c.2.map fun d => (d, blockZ s (if c.1 = 0 then 0 else d) past blk)
    (List.range 32).flatMap fun q => zs.map fun z =>
      ((if c.1 = 5 then 28 else 8) + (z.2.map (riceLen q)).sum, (c.1, q, if c.1 = 5 then z.1 else 0))
  match all with
  | [] => raw
  | a :: r => better (r.foldl better a) raw
/-- The bits of a block under a code. -/
def blockBits (s : Nat) (x : Dists) (past blk : List Nat) (c : BlockCode) : List Bool :=
  fieldBits 3 c.1 ++ fieldBits 5 c.2.1 ++ (if c.1 = 5 then fieldBits 20 c.2.2 else [])
    ++ (if c.1 = 6 then blk.flatMap fun e => (compsOf s e).flatMap (fieldBits 32)
        else (blockZ s (modeDist x c.1 c.2.2) past blk).flatMap (riceBits c.2.1))
/-- Elements in blocks of 64. -/
def inBlocks : Nat → List Nat → List (List Nat)
  | 0, _ => []
  | f + 1, l => if l.isEmpty then [] else l.take 64 :: inBlocks f (l.drop 64)
/-- The bits of all blocks and how many of them are coded and raw. -/
def codeBlocks (s : Nat) (x : Dists) : List Nat → List (List Nat) → List Bool × Nat × Nat
  | _, [] => ([], 0, 0)
  | past, b :: r =>
    let c := (bestCode s x past b).2
    let y := codeBlocks s x (b.reverse ++ past) r
    (blockBits s x past b c ++ y.1, y.2.1 + b2n (c.1 != 6), y.2.2 + b2n (c.1 == 6))
/-- The number that bits spell, first bit least significant. -/
def bitsNum : List Bool → Nat
  | [] => 0
  | b :: r => b2n b + 2 * bitsNum r
/-- The codec header (10 Table 10.5). -/
def codecHeader (x : Dists) : List Byte := toBytes 8 (x.row % 65536 + 2 ^ 16 * (x.ch % 65536) + 2 ^ 32 * (x.dump % 2 ^ 24))
/-- The native payload of elements after a history, with the blocks coded and raw. -/
def nativeCode (s : Nat) (x : Dists) (past els : List Nat) : List Byte × Nat × Nat :=
  let y := codeBlocks s x past (inBlocks els.length els)
  (codecHeader x ++ toBytes (roundUp y.1.length 64 / 8) (bitsNum y.1), y.2.1, y.2.2)

/-! ### Legacy 2:1 (10 R293) -/

/-- The exponent of a legacy block. -/
def legacyExp (cs : List Nat) : Nat := maxOf ((cs.filter f32Finite).map f32Exp)
/-- The mantissa of a component. -/
def legacyMant (e c : Nat) : Int :=
  if f32Finite c then satSym 16383 (rhu (f32Units c) ((2 ^ (e + 9) : Nat) : Int)) else -16384
/-- A block of 16 components as 32 bytes. -/
def legacyBlock (cs : List Nat) : List Byte :=
  let e := legacyExp cs
  toBytes 32 ((cs.zipIdx).foldl (fun n c => n + unsigned 15 (legacyMant e c.1) * 2 ^ (16 + 15 * c.2)) e)
/-- Components in blocks of 16, the last filled with +0.0. -/
def inSixteens : Nat → List Nat → List (List Nat)
  | 0, _ => []
  | f + 1, l =>
    if l.isEmpty then [] else (l.take 16 ++ List.replicate (16 - min 16 l.length) 0) :: inSixteens f (l.drop 16)
/-- The legacy payload of elements. -/
def legacyCode (s : Nat) (els : List Nat) : List Byte :=
  let cs := els.flatMap (compsOf s)
  (inSixteens cs.length cs).flatMap legacyBlock
/-- The value of a mantissa. -/
def legacyValue (e : Nat) (m : Int) : Nat := if m = -16384 then damagedMarker else f32Of (m * (2 ^ (e + 9) : Nat))

/-! ### The decoder (10 R295) -/

/-- What the decoder found: the error (0 none), its bit offset and the bytes decoded before it. -/
structure Decoded where
  err : Nat
  at_ : Nat
  bytes : List Byte
  deriving DecidableEq, Repr
/-- The payload's stream as a number, and its length in bits. -/
abbrev BitStream := Nat × Nat
/-- A field of w bits at a position. -/
def fieldAt (b : BitStream) (pos w : Nat) : Option Nat := if pos + w ≤ b.2 then some (b.1 / 2 ^ pos % 2 ^ w) else none
/-- The ones from a position on, at most f; none where the stream ends first. -/
def onesAt (b : BitStream) : Nat → Nat → Option Nat
  | 0, _ => some 0
  | f + 1, pos =>
    match fieldAt b pos 1 with
    | none => none
    | some 0 => some 0
    | some _ => (onesAt b f (pos + 1)).map (· + 1)
/-- A Rice code at a position: z and the position after it, or the error. -/
def riceAt (b : BitStream) (q pos : Nat) : Except Nat (Nat × Nat) :=
  match onesAt b 24 pos with
  | none => .error 3
  | some u =>
    if u < 24 then
      match fieldAt b (pos + u + 1) q with
      | none => .error 3
      | some v => if 2 ^ 32 ≤ u * 2 ^ q + v then .error 1 else .ok (u * 2 ^ q + v, pos + u + 1 + q)
    else match fieldAt b (pos + 24) 32 with | none => .error 3 | some z => .ok (z, pos + 56)
/-- The components j on of an element, against the history: its value and the position after, or the error at a position. -/
def decodeComps (b : BitStream) (mode q d : Nat) (past : List Nat) : Nat → Nat → Nat → Except (Nat × Nat) (Nat × Nat)
  | 0, _, pos => .ok (0, pos)
  | n + 1, j, pos =>
    let one : Except (Nat × Nat) (Nat × Nat) :=
      if mode = 6 then
        match fieldAt b pos 32 with | none => .error (3, pos) | some v => .ok (v, pos + 32)
      else match riceAt b q pos with
        | .error e => .error (e, pos)
        | .ok (z, p) => .ok (ofKey (keyZ z (if d = 0 then 2 ^ 31 else predKey past d j)), p)
    match one with
    | .error e => .error e
    | .ok (v, p) =>
      match decodeComps b mode q d past n (j + 1) p with
      | .error e => .error e
      | .ok (w, p') => .ok (v + 2 ^ 32 * w, p')
/-- The elements of a block: those decoded (newest first, before the history) and how it ended. -/
def decodeEls (b : BitStream) (s mode q d : Nat) : Nat → List Nat → Nat → List Nat × Except (Nat × Nat) Nat
  | 0, past, pos => (past, .ok pos)
  | n + 1, past, pos =>
    match decodeComps b mode q d past (s / 4) 0 pos with
    | .error e => (past, .error e)
    | .ok (v, p) => decodeEls b s mode q d n (v :: past) p
/-- The bits of a field that the stream still holds. -/
def fieldPart (b : BitStream) (pos w : Nat) : Nat := b.1 / 2 ^ pos % 2 ^ min w (b.2 - pos)
/-- The header of a block: mode, Q, distance, and where its codes start. What the bits that the stream holds show is judged in the order
of Table 10.7, before a field that is cut short (10 R295; assumption 225). -/
def decodeHead (b : BitStream) (s : Nat) (x : Dists) (pos : Nat) : Except (Nat × Nat) (Nat × Nat × Nat × Nat) :=
  match fieldAt b pos 3 with
  | none => .error (3, pos)
  | some mode =>
    let q := fieldPart b (pos + 3) 5
    let dist := fieldPart b (pos + 8) 20
    let d := modeDist x mode dist
    if mode = 7 then .error (1, pos)
    else if mode = 6 ∧ q ≠ 0 then .error (1, pos + 3)
    else if 1 ≤ mode ∧ mode ≤ 4 ∧ (d = 0 ∨ histCap s < d) then .error (2, pos)
    else if mode = 5 ∧ histCap s < d then .error (2, pos + 8)
    else if b.2 < pos + 8 then .error (3, pos + 3)
    else if mode ≠ 5 then .ok (mode, q, d, pos + 8)
    else if b.2 < pos + 28 then .error (3, pos + 8)
    else if d = 0 then .error (2, pos + 8)
    else .ok (5, q, d, pos + 28)
/-- The blocks of n elements. -/
def decodeBlocks (b : BitStream) (s : Nat) (x : Dists) : Nat → Nat → List Nat → Nat → List Nat × Except (Nat × Nat) Nat
  | 0, _, past, pos => (past, .ok pos)
  | f + 1, n, past, pos =>
    if n = 0 then (past, .ok pos)
    else match decodeHead b s x pos with
      | .error e => (past, .error e)
      | .ok (mode, q, d, p) =>
        match decodeEls b s mode q d (min 64 n) past p with
        | (l, .error e) => (l, .error e)
        | (l, .ok p') => decodeBlocks b s x f (n - 64) l p'
/-- The first one at or after a position. -/
def firstOne (b : BitStream) : Nat → Nat → Option Nat
  | 0, _ => none
  | f + 1, pos => match fieldAt b pos 1 with | none => none | some 0 => firstOne b f (pos + 1) | some _ => some pos
/-- The native payload of n elements of s bytes with an empty history. -/
def nativeDecode (s n : Nat) (payload : List Byte) : Decoded :=
  let h := ofBytes (payload.take 8)
  if h / 2 ^ 56 ≠ 0 then ⟨1, 0, []⟩
  else
    let x : Dists := ⟨h % 65536, h / 2 ^ 16 % 65536, h / 2 ^ 32 % 2 ^ 24⟩
    let b : BitStream := (ofBytes (payload.drop 8), 8 * (payload.length - 8))
    let (l, r) := decodeBlocks b s x n n [] 0
    let bytes := l.reverse.flatMap (toBytes s)
    match r with
    | .error (e, p) => ⟨e, p, bytes⟩
    | .ok p =>
      match firstOne b (b.2 - p) p with
      | some w => ⟨1, w, bytes⟩
      | none => if p + 64 ≤ b.2 then ⟨1, p, bytes⟩ else ⟨0, 0, bytes⟩
/-- The 32-byte blocks of a legacy payload of n components. -/
def legacyDecode : Nat → Nat → Nat → List Byte → List Byte → Decoded
  | 0, _, _, _, acc => ⟨0, 0, acc⟩
  | f + 1, n, pos, bs, acc =>
    if n = 0 then ⟨0, 0, acc⟩
    else
      let w := ofBytes (bs.take 32)
      let e := w % 256
      let ms := (List.range 16).map fun k => signed 15 (w / 2 ^ (16 + 15 * k))
      if w / 256 % 256 ≠ 0 then ⟨1, pos + 8, acc⟩
      else match (ms.zipIdx).find? fun m => decide (n ≤ m.2) && m.1 != 0 with
        | some m => ⟨1, pos + 16 + 15 * m.2, acc ++ ((ms.take n).flatMap fun m => toBytes 4 (legacyValue e m))⟩
        | none =>
          legacyDecode f (n - 16) (pos + 256) (bs.drop 32) (acc ++ ((ms.take n).flatMap fun m => toBytes 4 (legacyValue e m)))
/-- 10 R295: decode a payload of n elements of s bytes under a codec, with an empty history. -/
def decodePayload (codec s n : Nat) (payload : List Byte) : Decoded :=
  let raw := roundUp (n * s) 8
  if codec = 3 then ⟨1, 0, []⟩
  else if codec = 2 then
    let comps := n * (s / 4)
    if payload.length ≠ 32 * cdiv comps 16 then ⟨3, 0, []⟩ else legacyDecode comps comps 0 payload []
  else if raw < payload.length ∨ payload.length % 8 ≠ 0 then ⟨3, 0, []⟩
  else if codec = 1 then (if payload.length < 8 then ⟨3, 0, []⟩ else nativeDecode s n payload)
  else if payload.length < n * s then ⟨3, 0, []⟩
  else ⟨0, 0, payload.take (n * s)⟩

end Sys2Proof.Machine
end

