-- ==== Sys2Proof/Machine/Output.lean ====
section
/-! DEFINITION. Compression and Envelope output (10): streams and Envelopes, compressors, output segments, logical lanes with
their back-channel, resends and sparing, and the decode request. -/

namespace Sys2Proof.Machine

open Sys2Proof

/-! ### Access -/

def compInit : Nat → Comp := fun _ => {}
def State.comp (s : State) (k : Nat) : Comp := s.out.comp.get compInit k
def State.setOut (s : State) (o : Out) : State := { s with out := o }
def State.setComp (s : State) (k : Nat) (v : Comp) : State := s.setOut { s.out with comp := s.out.comp.set compInit k v }
def outInit : Nat → OutLane := fun l => { phys := some l }
def State.olane (s : State) (l : Nat) : OutLane := s.out.lane.get outInit l
def State.setOlane (s : State) (l : Nat) (v : OutLane) : State := s.setOut { s.out with lane := s.out.lane.set outInit l v }
/-- Source numbers of output lane n, of a compressor and of the assembler (02 Table 02.2). -/
def outSrc (n : Nat) : Nat := 0xCC + n
def compSrc (k : Nat) : Nat := 0x920 + k
def asmSrc : Nat := 0x930

/-! ### Lengths and rates (10 R281, 03 Table 03.2) -/

/-- Quarter symbols per tick of the output quads. -/
def outRate (g : Nat) : Nat := 5 * 2 ^ (g - 1)
/-- Ticks for symbols on the output lanes, rounded up. -/
def State.symTicks (s : State) (n : Nat) : Nat := cdiv (4 * n) (outRate (s.gen (outSrc 0)))
/-- Segments of a payload (10 R297). -/
def segsOf (p : List Byte) : Nat := max 1 (cdiv p.length 8192)
/-- Segments in use and free; an unfinished Envelope holds those it has filled. -/
def State.segsUsed (s : State) : Nat :=
  ((s.out.ready ++ s.out.lane.flatMap fun l => l.2.unacked).map fun e => segsOf e.payload).sum
    + (s.out.comp.map fun c => c.2.part).sum + s.out.part
def State.segsFree (s : State) : Nat := 1024 - s.segsUsed

/-! ### Streams (10 R280, R283, R286) -/

/-- E for elements of a size: rounded down to 64 for what may be coded. -/
def perEnv (r size : Nat) (coded : Bool) : Nat := if coded then r / size / 64 * 64 else r / size
/-- A whole stream built by unit u. -/
def mkStream (m : Tab Nat) (etype u stamp chan size total due : Nat) : Stream :=
  let r := setVal m (ob 0x8100 2)
  let coded := etype == 1 || etype == 7
  let per := perEnv r size coded
  { etype := etype, unit := u, stamp := stamp, chan := chan, total := total, esize := size, per := per,
    stop := cdiv total per, codec := if coded then setVal m (ob 0x8100 1) else 0, each := setVal m (ob 0x8100 3) == 1,
    due := due }
/-- The streams of a complete dump (10 R280, R286). -/
def dumpStreams (m : Tab Nat) (d : Dump) : List Stream :=
  let due := d.p0 + d.blocks * setTB m + 2 * setTB m + ms 20
  let mk (etype size total : Nat) : Stream :=
    { mkStream m etype 8 d.p0 d.chan size total due with dump := some (d.c, d.p0), fac := d.fac }
  let prod := mk 1 8 (64 * d.tiles)
  let ed := prod.stop
  ((List.range 8).map fun k => { prod with unit := k, next := k * ed / 8, stop := (k + 1) * ed / 8 })
    ++ [mk 2 8 d.tiles, mk 3 32 d.inputs, mk 4 16 d.excl.length, mk 9 32 1]
/-- Hand complete dumps to compression. -/
def takeDumps (s : State) : State :=
  s.acc.dumps.foldl (fun s d =>
    if d.complete && !s.out.queued.contains (d.c, d.p0) then
      s.setOut { s.out with
        queued := (d.c, d.p0) :: s.out.queued
        streams := s.out.streams ++ (dumpStreams (s.setAt d.p0) d).filter fun x => x.next < x.stop }
    else s) s

/-- The bytes of elements of a dump as the DRAM and the dump's records hold them; a product whose word is uncorrectable is
the damaged marker (09 Table 09.6). -/
def State.productAt (s : State) (d : Dump) (n : Nat) : Nat :=
  let t := n / 64
  let a := dramAddr (t % 4) (d.base + 512 * (t / 4) + 8 * (n % 64))
  if s.badWord a then damagedWord else s.numAt a 8
/-- PRODUCT_ENVELOPES and PRODUCT_CRC and the rest of DUMP_END (10 Table 10.4). -/
def State.dumpEnd (s : State) (d : Dump) : List Byte :=
  let m := s.setAt d.p0
  let envs := (mkStream m 1 8 d.p0 d.chan 8 (64 * d.tiles) 0).stop
  let crc := crc32 ((List.range (64 * d.tiles)).flatMap fun n => toBytes 8 (s.productAt d n))
  toBytes 4 d.tiles ++ toBytes 4 envs ++ toBytes 4 crc ++ toBytes 2 d.excl.length ++ toBytes 2 0 ++ toBytes 4 d.inputs
    ++ toBytes 2 d.len ++ toBytes 10 0
/-- The bytes of n elements of a type of a dump. -/
def State.dumpBytes (s : State) (d : Dump) (etype first n : Nat) : List Byte :=
  let idx := (List.range n).map fun k => first + k
  if etype = 1 then idx.flatMap fun k => toBytes 8 (s.productAt d k)
  else if etype = 2 then idx.flatMap fun t => s.bytesAt (dramAddr (t % 4) (d.recBase + 8 * (t / 4))) 8
  else if etype = 3 then idx.flatMap fun a => toBytes 32 (statRecord (d.stats.get statInit a))
  else if etype = 4 then idx.flatMap fun k => toBytes 16 (d.excl.getD k 0)
  else s.dumpEnd d
/-- Zero bytes up to a multiple of 8. -/
def pad8 (b : List Byte) : List Byte := b ++ List.replicate (roundUp b.length 8 - b.length) 0
/-- The dump of a key. -/
def State.dumpKeyed (s : State) (k : Nat × Nat) : Option Dump := s.acc.dumps.find? fun d => d.c == k.1 && d.p0 == k.2
/-- The bytes of elements of a stream. -/
def State.streamBytes (s : State) (x : Stream) (first n : Nat) : List Byte :=
  match x.dump with
  | none => (x.data.drop (first * x.esize)).take (n * x.esize)
  | some k => match s.dumpKeyed k with | some d => s.dumpBytes d x.etype first n | none => []
/-- The raw Envelope with number x.next of a stream. -/
def State.rawEnv (s : State) (x : Stream) : Env :=
  let first := x.next * x.per
  let n := min x.per (x.total - first)
  { etype := x.etype, fac := x.fac, last := x.next + 1 == cdiv x.total x.per, wchg := x.wchg, stamp := x.stamp,
    chan := x.chan, count := n, first := first, payload := pad8 (s.streamBytes x first n), dump := x.dump, due := x.due }
/-- Count the payload of an Envelope that may be coded: raw and as it leaves (10 R309). -/
def countBytes (etype raw out : Nat) (s : State) : State :=
  if etype = 1 ∨ etype = 7 then
    s.setOut { s.out with bytesRaw := satAdd 64 s.out.bytesRaw raw, bytesCoded := satAdd 64 s.out.bytesCoded out }
  else s
/-- An Envelope is built: the stream goes on to its next one. -/
def advance (x : Stream) (e : Env) (s : State) : State :=
  let l := (s.out.streams.map fun y => if y = x then { x with next := x.next + 1 } else y).filter fun y => y.next < y.stop
  s.setOut { s.out with streams := l, ready := s.out.ready ++ [e] }

/-! ### The Envelope assembler's own Envelopes (10 R297, 16 R458) -/

/-- A beam type goes first (10 R301). -/
def isBeamType (t : Nat) : Bool := 6 ≤ t && t ≤ 8
/-- The order of assignment (10 R301). -/
def envKey (t stamp first : Nat) : List Nat := [if isBeamType t then 0 else 1, stamp, t, first]
/-- Lexicographic order of lists of equal length. -/
def lexLe : List Nat → List Nat → Bool
  | a :: r, b :: q => if a = b then lexLe r q else decide (a < b)
  | _, _ => true
/-- A stream that the assembler builds now: its own, or one of a held compressor; DUMP_END waits until every other Envelope
of its dump has been assigned (10 R280). -/
def State.asmBuilds (s : State) (x : Stream) : Bool :=
  (x.unit == 8 || (s.blk (compSrc x.unit)).held)
    && (x.etype != 9 || (!(s.out.streams.any fun y => y.dump == x.dump && y.etype != 9)
                         && !(s.out.ready.any fun e => e.dump == x.dump)))
/-- The first of the streams that satisfy p, by their order of assignment. -/
def firstStream (p : Stream → Bool) (l : List Stream) : Option Stream :=
  (l.filter p).foldl (fun b x => match b with
    | none => some x
    | some y => if lexLe (envKey y.etype y.stamp (y.next * y.per)) (envKey x.etype x.stamp (x.next * x.per)) then b else some x) none
/-- The assembler builds while segments are free; one that needs more takes those there are, which ends the stall it was in, and stalls
anew (10 R297). -/
def assembleGo : Nat → State → State
  | 0, s => s
  | f + 1, s =>
    match firstStream s.asmBuilds s.out.streams with
    | none => s.setOut { s.out with stall := none, stallSaid := false }
    | some x =>
      let e := s.rawEnv x
      if segsOf e.payload ≤ s.segsFree + s.out.part then
        let s1 := countBytes x.etype e.payload.length e.payload.length (advance x e (s.setOut { s.out with part := 0 }))
        let s2 := if x.unit < 8 then s1.setComp x.unit { s1.comp x.unit with force := true, powForce := true } else s1
        assembleGo f s2
      else
        let more := decide (0 < s.segsFree)
        s.setOut { s.out with part := s.out.part + s.segsFree
                              stall := some (if more then s.now else s.out.stall.getD s.now)
                              stallSaid := s.out.stallSaid && !more }
def assemble (s : State) : State :=
  let s1 := takeDumps s
  assembleGo (1025 + s1.out.streams.length) s1
/-- A stream of data that leaves the part joins the output (10 R280). -/
def emitStream (x : Stream) (s : State) : State :=
  if x.next < x.stop then assemble (s.setOut { s.out with streams := s.out.streams ++ [x] }) else s

/-! ### Compressors (10 R284 to R294) -/

/-- The elements of bytes. -/
def elemsOf (size : Nat) : Nat → List Byte → List Nat
  | 0, _ => []
  | n + 1, b => ofBytes (b.take size) :: elemsOf size n (b.drop size)
/-- Compressor k reads the dump queue through the dump port, whole tiles of 512 bytes (09 Table 09.3). -/
def dumpPort (d : Dump) (first n : Nat) (s : State) : State :=
  if n = 0 then s
  else (List.range ((first + n - 1) / 64 - first / 64 + 1)).foldl (fun s k =>
    let t := first / 64 + k
    usePort (t % 4) 3 (d.base + 512 * (t / 4)) 512 s) s
/-- A stack offset lies among a dump's products, not among its tile records (09 Table 09.2). -/
def Dump.holds (d : Dump) (off : Nat) : Bool := decide (d.base ≤ off) && decide (off < d.base + 512 * ((d.tiles + 3) / 4))
/-- A product whose dump word was found uncorrectable leaves as the damaged marker, counted (09 Table 09.6): stack, offset, report. -/
def dumpReads (d : Dump) (ecc : List (Nat × Nat × Ecc)) (s : State) : State :=
  ecc.foldl (fun s e =>
    let bad := s.badWord (dramAddr e.1 e.2.1)
    let (r, s1) := dramCheck e.1 e.2.1 3 e.2.2 s
    if r = .uncorrectable ∧ bad = false ∧ d.holds e.2.1 = true then
      setBad (dramAddr e.1 e.2.1) true (s1.setAcc { s1.acc with damaged := satAdd 32 s1.acc.damaged 1 })
    else s1) s
/-- A stream's Envelope is the first of its substream that the compressor meets. -/
def Comp.fresh (v : Comp) (x : Stream) : Bool := if x.etype = 7 then v.powBlock != some x.block else v.of_ != x.dump
/-- Start the history that a stream needs (10 R287): empty at the first Envelope of a substream. -/
def Comp.ready (v : Comp) (x : Stream) : Comp :=
  if x.etype = 7 then (if v.powBlock = some x.block then v else { v with powBlock := some x.block, powHist := [] })
  else if v.of_ = x.dump then v else { v with of_ := x.dump, hist := [] }
/-- A compressor's history and forced reset for a stream. -/
def Comp.past (v : Comp) (x : Stream) : List Nat := if x.etype = 7 then v.powHist else v.hist
def Comp.forced (v : Comp) (x : Stream) : Bool := if x.etype = 7 then v.powForce else v.force
def Comp.setPast (v : Comp) (x : Stream) (h : List Nat) (f : Bool) : Comp :=
  if x.etype = 7 then { v with powHist := h, powForce := f } else { v with hist := h, force := f }
/-- The address of a compressor's Postcard (10 R307). Its Envelope has no ESEQ before it is assigned: the next one to be given stands
for it (DESIGN CHOICE, assumption 191). -/
def State.compAddr (s : State) (chan : Nat) : Nat := chan % 65536 + 65536 * (s.out.eseq % 2 ^ 24)
/-- The work of compressor k: beam powers first, then the substream that it has begun, then the next one (10 R286, R287). -/
def State.compWork (s : State) (k : Nat) : Option Stream :=
  match firstStream (fun x => x.unit == k && x.etype == 7) s.out.streams with
  | some x => some x
  | none => match firstStream (fun x => x.unit == k && x.dump.isSome && x.dump == (s.comp k).of_) s.out.streams with
    | some x => some x
    | none => firstStream (fun x => x.unit == k) s.out.streams
/-- 10 R298: the check of the history words that an Envelope reads. -/
def historyCheck (k : Nat) (chan : Nat) (e : Ecc) (s : State) : Ecc × State :=
  let (r, test, s1) := eccCheck (compSrc k) 1 e s
  let v := s1.comp k
  match r with
  | .ok => (r, s1)
  | .corrected => (r, raiseT test (compSrc k) 2 (s1.compAddr chan) (s1.setComp k { v with corr := satAdd 32 v.corr 1 }))
  | .uncorrectable => (r, raiseT test (compSrc k) 3 (s1.compAddr chan) (s1.setComp k { v with uncorr := satAdd 32 v.uncorr 1 }))
/-- History elements of size bytes as read with bit b of their first word falsely corrected (16 R465; DESIGN CHOICE, assumption 204). -/
def flipPast (size : Nat) (o : Option Nat) (l : List Nat) : List Nat :=
  match o with
  | some b => l.zipIdx.map fun x => if x.2 = b / (8 * size) then x.1 ^^^ 2 ^ (b % (8 * size)) else x.1
  | none => l
/-- The local channel of a stream, for Postcards. -/
def Stream.local (x : Stream) : Nat := match x.dump with | some k => k.1 | none => 0
/-- 10 R284, R292, R294: compressor k codes, verifies and releases the next Envelope of its work. hist is what the history's
check bits report, mismatch that the self-verification fails, reads the reports of its dump reads. -/
def compressOp (k : Nat) (hist : Ecc) (mismatch : Bool) (reads : List (Nat × Nat × Ecc)) (s0 : State) : State :=
  let s := takeDumps s0
  if (s.blk (compSrc k)).held then assemble s
  else match s.compWork k with
  | none => s
  | some x =>
    let first := x.next * x.per
    let s1 := match x.dump.bind s.dumpKeyed with
      | some d => dumpReads d reads (dumpPort d first (min x.per (x.total - first)) s)
      | none => s
    let e := s1.rawEnv x
    let els := elemsOf x.esize e.count e.payload
    let v0 := (s1.comp k).ready x
    let reset := x.codec == 1 && (x.each || v0.forced x || (s1.comp k).fresh x)
    let kept := if reset then [] else v0.past x
    let past := if x.codec = 1 then flipPast x.esize (eccFlip (compSrc k) 1 hist (s1.setComp k v0)) kept else kept
    let (h, s2) := if x.codec = 1 ∧ past ≠ [] then historyCheck k x.local hist (s1.setComp k v0) else (.ok, s1.setComp k v0)
    let lost : Bool := h == .uncorrectable
    let nat := nativeCode x.esize ⟨if x.etype = 1 then 8 else 0, x.sCh, x.sDump⟩ past els
    let code := if x.codec = 1 then nat.1 else legacyCode x.esize els
    let failed := x.codec != 0 && !lost && mismatch
    let raw := x.codec == 0 || lost || failed || decide (e.payload.length ≤ code.length)
    let payload := if raw then e.payload else code
    let v := s2.comp k
    if segsOf payload ≤ s2.segsFree + v.part then
      let v1 := if raw || x.codec != 1 then v else { v with coded := satAdd 64 v.coded nat.2.1, raw := satAdd 64 v.raw nat.2.2 }
      let v2 := { v1 with envRaw := satAdd 32 v1.envRaw (b2n (raw && x.codec != 0 && !lost)),
                          verify := satAdd 32 v1.verify (b2n failed), part := 0, stall := none, stallSaid := false }
      let v3 := v2.setPast x ((els.reverse ++ past).take (histCap x.esize)) lost
      let s3 := s2.setComp k v3
      let s4 := if failed then raise (compSrc k) 1 (s3.compAddr x.local) s3 else s3
      let s5 := countBytes x.etype e.payload.length payload.length s4
      assemble (advance x { e with payload := payload, codec := if raw then 0 else x.codec, hreset := reset } s5)
    else
      let w := s.comp k
      let more := decide (0 < s.segsFree)
      s.setComp k { w with part := w.part + s.segsFree, stall := some (if more then s.now else w.stall.getD s.now)
                           stallSaid := w.stallSaid && !more, stallChan := x.local }
def execCompressEnvelope (k : Fin 8) (hist : Ecc) (mismatch : Bool) (reads : List (Nat × Nat × Ecc)) (s : State) :
    Host.Outcome State Fault Refusal := .next (compressOp k hist mismatch reads s)

/-- 10 R297: a freed segment lets the assembler go on; a compressor goes on with its next Envelope. -/
def execSegmentAvailable (s : State) : Host.Outcome State Fault Refusal := .next (assemble s)
/-- 10 R297: unit u (8 the assembler) has stalled for more than 100 µs, and no segment is free. -/
def segmentStallOp (u : Nat) (s : State) : State :=
  if 0 < s.segsFree then s
  else if u < 8 then
    let v := s.comp u
    match v.stall with
    | some t =>
      if v.stallSaid = false ∧ t + us 100 < s.now then
        raise (compSrc u) 4 (s.compAddr v.stallChan) (s.setComp u { v with stallSaid := true }) else s
    | none => s
  else match s.out.stall with
    | some t =>
      if s.out.stallSaid = false ∧ t + us 100 < s.now then raise asmSrc 8 0 (s.setOut { s.out with stallSaid := true }) else s
    | none => s
def execSegmentStallTimeout (u : Fin 9) (s : State) : Host.Outcome State Fault Refusal := .next (segmentStallOp u s)

/-! ### Sending (10 R281, R298, R301 to R303) -/

/-- The address of an assembler's Postcard. -/
def asmAddr (l eseq : Nat) : Nat := l + 256 * eseq
/-- FLAGS of an Envelope. -/
def Env.flags (e : Env) : Nat :=
  b2n e.late + 2 * b2n e.fac + 4 * b2n e.last + 8 * b2n e.retry + 16 * e.codec + 64 * b2n e.hreset + 128 * b2n e.wchg
/-- The covered symbols of an Envelope, without its CRC. -/
def Env.covered (e : Env) (rank l : Nat) : List Byte :=
  toBytes 1 e.etype ++ toBytes 1 e.flags ++ toBytes 1 rank ++ toBytes 8 e.stamp ++ toBytes 4 (e.eseq.getD 0)
    ++ toBytes 2 e.chan ++ toBytes 2 e.count ++ toBytes 4 e.first ++ toBytes 2 e.payload.length ++ toBytes 1 l
    ++ toBytes 1 e.lseq ++ e.payload
/-- Replace the 8 bytes of an uncorrectable segment word of a beam Envelope by markers (10 R298): C8 markers, the damaged
marker for powers; counts have no marker and read 0. -/
def markWord (etype n : Nat) (p : List Byte) : List Byte :=
  let w := if etype = 6 then toBytes 8 0x8080808080808080 else if etype = 7 then toBytes 8 damagedWord else toBytes 8 0
  p.take (8 * n) ++ w.take (p.length - 8 * n) ++ p.drop (8 * n + 8)
/-- A payload whose word n is read with a data bit corrected falsely (16 R465). -/
def flipPayload (n : Nat) (o : Option Nat) (p : List Byte) : List Byte :=
  match o with
  | some b => p.modify (8 * n + b / 8) fun x => x ^^^ BitVec.ofNat 8 (2 ^ (b % 8))
  | none => p
/-- 10 R298: the segment check of one word of an Envelope. Every element of a coded BEAM_POWER Envelope is affected: it leaves raw with
the damaged marker throughout (DESIGN CHOICE, assumption 192); after markers in powers the next coded one carries HRESET, since the
receiver's history holds them. -/
def segmentCheck (l : Nat) (e : Env) (n : Nat) (r0 : Ecc) (s : State) : Env × State :=
  let (r, test, s1) := eccCheck asmSrc 1 r0 s
  match r with
  | .ok => (e, s1)
  | .corrected =>
    ({ e with payload := flipPayload n (eccFlip asmSrc 1 r0 s) e.payload },
      raiseT test asmSrc 5 (asmAddr l (e.eseq.getD 0)) (s1.setOut { s1.out with corr := satAdd 32 s1.out.corr 1 }))
  | .uncorrectable =>
    let s2 := raiseT test asmSrc 6 (asmAddr l (e.eseq.getD 0)) (s1.setOut { s1.out with uncorr := satAdd 32 s1.out.uncorr 1 })
    match e.dump with
    | some k =>
      match s2.dumpKeyed k with
      | some d => ({ e with payload := pad8 (s2.dumpBytes d e.etype e.first e.count), codec := 0, retry := true }, s2)
      | none => (e, s2)
    | none =>
      let s3 := if e.etype = 7 then s2.setComp 0 { s2.comp 0 with powForce := true } else s2
      if e.codec = 0 then ({ e with payload := markWord e.etype n e.payload }, s3)
      else ({ e with payload := pad8 ((List.range e.count).flatMap fun _ => toBytes 4 damagedMarker), codec := 0 }, s3)
/-- Send an Envelope on a logical lane: its segments are read, it leaves after what the lane still sends. -/
def sendEnv (l : Nat) (e : Env) (ecc : List (Nat × Ecc)) (s : State) : Env × State :=
  let (e1, s1) := ecc.foldl (fun (x : Env × State) w => segmentCheck l x.1 w.1 w.2 x.2) (e, s)
  let v := s1.olane l
  let fin := max s1.now v.busy + s1.symTicks (e1.payload.length + 36)
  let e2 := { e1 with endAt := fin }
  let crc := crc32 (e2.covered s1.rank l)
  let f := [e2.etype, e2.flags, s1.rank, e2.stamp, e2.eseq.getD 0, e2.chan, e2.count, e2.first, e2.payload.length, l, e2.lseq, crc]
  let p := v.phys.getD 0
  (e2, sendWords (outSrc p) ((true, 0xFB) :: dataSyms (e2.covered s1.rank l ++ toBytes 4 crc) ++ List.replicate 4 (true, 0xFD))
    (.envelope p f e2.payload)
    (s1.setOlane l { v with busy := max s1.now v.busy + s1.symTicks (e1.payload.length + 40) }))

/-- Output lane p sends its protocol (03 R68): RUNNING, with its transmitter ACTIVE. -/
def State.outSends (s : State) (p : Nat) : Bool := (s.lane (outSrc p)).rx == .running && (s.lane (outSrc p)).tx == .active
/-- Logical lane l may take an Envelope of a type (10 R301). -/
def State.laneFree (s : State) (l t : Nat) : Bool :=
  let v := s.olane l
  match v.phys with
  | some p =>
    decide (v.busy ≤ s.now) && (!v.paused || isBeamType t) && decide (v.unacked.length < 127) && !v.leaving
      && !v.owed && s.outSends p
  | none => false
/-- The first ready Envelope that satisfies p, by the order of 10 R301. -/
def firstEnv (p : Env → Bool) (l : List Env) : Option Env :=
  (l.filter p).foldl (fun b x => match b with
    | none => some x
    | some y => if lexLe (envKey y.etype y.stamp y.first) (envKey x.etype x.stamp x.first) then b else some x) none
/-- Some logical lane can take an Envelope of a type. -/
def State.freeLane (s : State) (t : Nat) : Option Nat := (List.range 16).find? fun l => s.laneFree l t
/-- 10 R301, R303: the first ready Envelope that has a lane goes to the lowest one. -/
def assignOp (ecc : List (Nat × Ecc)) (s0 : State) : State :=
  let s := assemble s0
  match firstEnv (fun e => (s.freeLane e.etype).isSome) s.out.ready with
  | none => s
  | some e =>
    match s.freeLane e.etype with
    | none => s
    | some l =>
      let v := s.olane l
      let new := e.eseq.isNone
      let late := decide (e.due < s.pm + s.symTicks (e.payload.length + 36))
      let q := e.eseq.getD s.out.eseq
      let e1 := { e with eseq := some q, lseq := v.lseq, late := e.late || late, resends := 0 }
      let o := s.out
      let s1 := s.setOut { o with
        ready := o.ready.erase e
        eseq := if new then (o.eseq + 1) % 2 ^ 32 else o.eseq
        sent := satAdd 64 o.sent (b2n new)
        late := satAdd 32 o.late (b2n (late && !e.late)) }
      let s2 := if late && !e.late then raise asmSrc 1 (asmAddr l q) s1 else s1
      let (e2, s3) := sendEnv l e1 ecc s2
      let w := s3.olane l
      assemble (s3.setOlane l { w with lseq := (v.lseq + 1) % 256, unacked := w.unacked ++ [e2] })
def execEnvelopeAssign (ecc : List (Nat × Ecc)) (s : State) : Host.Outcome State Fault Refusal := .next (assignOp ecc s)

/-! ### Pause (10 R303) -/

/-- The pause and resend time of the block so far. -/
def OutLane.pauseNow (v : OutLane) (now : Nat) : Nat := v.pauseSum + (if v.paused then now - v.pauseAt else 0)
/-- PAUSE_EXCEEDED once per block when the sum passes 15 ms. -/
def pauseCheck (l : Nat) (s : State) : State :=
  let v := s.olane l
  if v.pauseOver = false ∧ ms 15 < v.pauseNow s.now then
    raise asmSrc 2 (asmAddr l ((v.unacked.head?.bind Env.eseq).getD 0)) (s.setOlane l { v with pauseOver := true })
  else s
/-- A time block ends for lane l. -/
def outBlock (l : Nat) (s0 : State) : State :=
  let s := pauseCheck l s0
  let v := s.olane l
  s.setOlane l { v with shown := (v.pauseNow s.now + 125) / 250, pauseSum := 0, pauseAt := s.now, pauseOver := false }

/-! ### Resends, failures and sparing (10 R302, R304, R305) -/

/-- Resend every unacknowledged Envelope of a lane from the oldest on. counted tells whether the resends count. Where the lane does not
send its protocol now, they wait (03 R68). -/
def resendAll (l : Nat) (counted : Bool) (ecc : Nat → List (Nat × Ecc)) (s : State) : State :=
  let v := s.olane l
  if (match v.phys with | some p => s.outSends p | none => false) = false then
    s.setOlane l { v with owed := !v.unacked.isEmpty, recount := counted && (v.recount || !v.owed) }
  else
  let s0 := s.setOlane l { v with unacked := [], owed := false }
  let s1 := v.unacked.foldl (fun s e =>
    let before := max s.now (s.olane l).busy
    let (e1, s1) := sendEnv l { e with retry := true, resends := if counted then e.resends + 1 else 0 } (ecc (e.eseq.getD 0)) s
    let w := s1.olane l
    let s2 := s1.setOlane l { w with unacked := w.unacked ++ [e1], pauseSum := w.pauseSum + (w.busy - before),
                                     retries := satAdd 32 w.retries 1 }
    raiseLim (ms 1) asmSrc 3 l (asmAddr l (e1.eseq.getD 0)) s2) s0
  pauseCheck l s1
/-- Resends that wait leave once the lane sends its protocol. -/
def outPump (l : Nat) (s : State) : State :=
  match (s.olane l).phys with
  | some p => if (s.olane l).owed && s.outSends p then resendAll l (s.olane l).recount (fun _ => []) s else s
  | none => s
/-- 10 R305: a logical lane goes out of service; its Envelopes are assigned anew. -/
def outOfService (l : Nat) (s : State) : State :=
  let v := s.olane l
  let s1 := s.setOlane l { v with phys := none, unacked := [], asking := none, leaving := false, owed := false }
  raise asmSrc 7 (asmAddr l ((v.unacked.head?.bind Env.eseq).getD 0))
    (s1.setOut { s1.out with ready := s1.out.ready ++ v.unacked.map fun e => { e with retry := true, resends := 0 } })
/-- An output spare serves or is being asked to serve a lane. -/
def State.outTaken (s : State) (p : Nat) : Bool := (List.range 16).any fun l => (s.olane l).phys == some p
/-- A spare that can be taken (10 R304, 16 R461). -/
def State.outSpareOk (s : State) (p : Nat) : Bool :=
  (p == 16 || p == 17) && (s.lane (outSrc p)).rx == .sync && !s.outTaken p && !s.latched (outSrc p)
/-- Spare p goes RUNNING and carries logical lane l from its oldest unacknowledged Envelope on. -/
def startOutSpare (l p : Nat) (from_ : Option Nat) (s : State) : State :=
  let s1 := s.modLane (outSrc p) fun v =>
    { v with rx := .running, resume := true, startPm := s.pm, leftAt := none, failed := false, crcTimes := [] }
  let v := s1.olane l
  resendAll l false (fun _ => [])
    (s1.setOlane l { v with phys := some p, asking := some (s.now, from_), was := v.phys, busy := s.now, leaving := false,
                            lastWord := s.now, owed := false })
/-- 10 R304: the lane that serves logical lane l has failed. -/
def outFailed (l : Nat) (s : State) : State :=
  let v := s.olane l
  match v.phys with
  | none => s
  | some p =>
    let s1 := raise (outSrc p) 0x0B 0 (s.modLane (outSrc p) fun v => { v with failed := true, crcTimes := [] })
    if s.cfg (ob 0x8100 6) = 1 ∧ s1.outSpareOk 16 then startOutSpare l 16 none s1
    else if s.cfg (ob 0x8100 6) = 1 ∧ s1.outSpareOk 17 then startOutSpare l 17 none s1
    else outOfService l s1
/-- The logical lane that output lane p serves. -/
def State.outServed (s : State) (p : Nat) : Option Nat := (List.range 16).find? fun l => (s.olane l).phys == some p

/-- 10 R302: the oldest unacknowledged Envelope of logical lane l is older than retry_timeout. -/
def retryOp (l : Nat) (ecc : List (Nat × Nat × Ecc)) (s : State) : State :=
  let v := s.olane l
  match v.phys, v.unacked with
  | some _, e :: _ =>
    if v.owed = false ∧ e.endAt + us (s.cfg (ob 0x8100 4)) < s.now then
      if s.cfg (ob 0x8100 5) ≤ e.resends then outFailed l s
      else resendAll l true (fun q => (ecc.filter fun x => x.1 == q).map Prod.snd) s
    else s
  | _, _ => s
def execRetryTimeout (l : Fin 16) (ecc : List (Nat × Nat × Ecc)) (s : State) : Host.Outcome State Fault Refusal :=
  .next (retryOp l ecc s)
/-- 10 R304: no valid back-channel word has arrived for 100 µs on the lane that serves logical lane l. -/
def backTimeoutOp (l : Nat) (s : State) : State :=
  let v := s.olane l
  match v.phys with
  | some p =>
    let ln := s.lane (outSrc p)
    if ln.rx = .running ∧ v.lastWord + us 100 ≤ s.now ∧ ln.startPm + us 100 ≤ s.pm ∧ v.asking = none ∧ ln.failed = false then
      outFailed l s
    else s
  | none => s
def execBackchannelTimeout (l : Fin 16) (s : State) : Host.Outcome State Fault Refusal := .next (backTimeoutOp l s)
/-- 10 R304: no ACK came on the spare in time. After SPARE_IN of a lane that had not failed, that lane serves again
(DESIGN CHOICE). -/
def outSpareTimeoutOp (l : Nat) (s : State) : State :=
  let v := s.olane l
  match v.asking, v.phys with
  | some (t, from_), some p =>
    if t + us (s.cfg (ob 0x8100 7)) ≤ s.now then
      let s1 := raise (outSrc p) 0x0D 0 (s.modLane (outSrc p) fun x =>
        { x with rx := if x.rx = .running then .sync else x.rx, resume := false, leftAt := none })
      match from_ with
      | some h => resendAll l false (fun _ => []) (s1.setOlane l { v with phys := some h, asking := none, busy := s.now, lastWord := s.now })
      | none => outOfService l s1
    else s
  | _, _ => s
def execOutputSpareTimeout (l : Fin 16) (s : State) : Host.Outcome State Fault Refusal := .next (outSpareTimeoutOp l s)

/-- 10 R305: lane_command SPARE_IN on output lane p with ARG l. -/
def outSpareIn (p l : Nat) (s : State) : State :=
  if l ≤ 15 ∧ s.outSpareOk p then
    let from_ := match (s.olane l).phys with
      | some h => if (s.lane (outSrc h)).failed then none else some h
      | none => none
    startOutSpare l p from_ s
  else raise (outSrc p) 0x0E 0 s
/-- 10 R305: the return of logical lane l from its spare p, once nothing is unacknowledged. -/
def finishSpareOut (l p : Nat) (s : State) : State :=
  let v := s.olane l
  if v.leaving ∧ v.unacked = [] then
    if (s.lane (outSrc l)).rx = .sync then
      let s1 := s.modLane (outSrc l) fun x =>
        { x with rx := .running, resume := true, startPm := s.pm, leftAt := none, failed := false, crcTimes := [] }
      let s2 := s1.modLane (outSrc p) fun x => { x with rx := if x.rx = .running then .sync else x.rx, resume := false, leftAt := none }
      s2.setOlane l { v with phys := some l, leaving := false, busy := s.now, lastWord := s.now }
    else raise (outSrc p) 0x0E 0 (s.setOlane l { v with leaving := false })
  else s
/-- 10 R305: lane_command SPARE_OUT on output lane p. -/
def outSpareOut (p : Nat) (s : State) : State :=
  match s.outServed p with
  | some l =>
    if 16 ≤ p ∧ (s.olane l).asking = none ∧ s.latched (outSrc p) = false ∧ s.latched (outSrc l) = false then
      finishSpareOut l p (s.setOlane l { s.olane l with leaving := true })
    else raise (outSrc p) 0x0E 0 s
  | none => raise (outSrc p) 0x0E 0 s

/-! ### The back-channel (10 R299, R300) -/

/-- The Envelopes that ACK acknowledges: the one with that LSEQ and all older ones. -/
def ackSplit (ack : Nat) (l : List Env) : List Env × List Env :=
  if l.any fun e => e.lseq == ack then
    let n := l.findIdx fun e => e.lseq == ack
    (l.take (n + 1), l.drop (n + 1))
  else ([], l)
/-- 10 R299: a back-channel word on output lane p. -/
def backWordOp (p ack status chk : Nat) (s : State) : State :=
  if (s.lane (outSrc p)).rx ≠ .running then s
  else match s.outServed p with
  | none => s
  | some l =>
    let v := s.olane l
    if chk ≠ ack ^^^ status ^^^ 0x3C then
      raiseLim (ms 1) asmSrc 4 l (asmAddr l 0) (s.setOlane l { v with badWords := satAdd 32 v.badWords 1 })
    else
      let s1 := if v.asking.isSome then raise (outSrc p) 0x0C 0 s else s
      let (done, rest) := ackSplit ack v.unacked
      let pause := status % 2 == 1
      let v1 := { v with unacked := rest, acked := satAdd 64 v.acked done.length, lastWord := s.now, asking := none,
                         pauseSum := v.pauseNow s.now, pauseAt := s.now, paused := pause }
      finishSpareOut l p (pauseCheck l (s1.setOlane l v1))
def execBackchannelWord (p : Fin 18) (ack status chk : Byte) (s : State) : Host.Outcome State Fault Refusal :=
  .next (backWordOp p ack.toNat status.toNat chk.toNat s)

/-! ### Dump slots (09 R266, 10 R297) -/

/-- The output holds nothing of a dump any more. -/
def State.dumpDone (s : State) (k : Nat × Nat) : Bool :=
  s.out.queued.contains k && !(s.out.streams.any fun x => x.dump == some k) && !(s.out.ready.any fun e => e.dump == some k)
    && !(s.out.lane.any fun l => l.2.unacked.any fun e => e.dump == some k)
/-- 09 R266: every Envelope of channel c's dump is acknowledged, so its slot is free. -/
def dumpSlotFreed (c : Nat) (s : State) : State :=
  match s.dumpOf c with
  | some d =>
    if d.complete && s.dumpDone (c, d.p0) then
      let s1 := s.setAcc { s.acc with dumps := s.acc.dumps.filter fun e => e.c != c }
      sweepOwed (s1.setOut { s1.out with queued := s1.out.queued.filter fun k => k != (c, d.p0) })
    else s
  | none => s
def execDumpSlotFreed (c : Nat) (s : State) : Host.Outcome State Fault Refusal := .next (dumpSlotFreed c s)
/-! ### Decoding on request (10 R296) -/

/-- The answer to a decode request: 0 for OK, 5 while one is in progress, 4 where Table 10.8 does not allow the record. -/
def State.decodeAnswer (s : State) (r : Nat) : Nat :=
  if s.out.decode.isSome then 5
  else if (bits 63 56 r = 1 ∨ bits 63 56 r = 7) ∧ inUser s.place (bits 39 0 r) (bits 55 40 r) = true then 0 else 4
/-- 10 R296: start a decode of a payload in the user area. -/
def decodeStart (r : Nat) (s : State) : State :=
  if s.decodeAnswer r ≠ 0 then s
  else s.setOut { s.out with
    decode := some ⟨bits 39 0 r, bits 55 40 r, bits 63 56 r, bits 79 64 r, bits 81 80 r⟩
    status := 0xF }
def execDecodeRequest (r : BitVec 128) (s : State) : Host.Outcome State Fault Refusal := .next (decodeStart r.toNat s)
/-- 10 R296: the decode ends. -/
def decodeEnd (s : State) : State :=
  match s.out.decode with
  | none => s
  | some q =>
    let d := decodePayload q.codec (if q.etype = 1 then 8 else 4) q.count (s.bytesAt q.addr q.plen)
    s.setOut { s.out with decode := none
                          status := d.err + 16 + 256 * (d.at_ % 2 ^ 24) + 2 ^ 32 * crc32 d.bytes }
def execDecodeDone (s : State) : Host.Outcome State Fault Refusal := .next (decodeEnd s)

/-! ### Resets and objects (10 R308 to R310) -/

/-- A per-block reset of compressor k. -/
def compReset (k : Nat) (s : State) : State :=
  s.setComp k { s.comp k with force := true, powForce := true, part := 0, stall := none, stallSaid := false }
/-- A per-block reset of the assembler resends every unacknowledged Envelope. -/
def asmReset (s : State) : State :=
  forRange 16 (fun l s => if (s.olane l).phys.isSome then resendAll l true (fun _ => []) s else s) s

/-- out_lane_status (10 Table 10.14). -/
def OutLane.status (v : OutLane) : Nat :=
  v.phys.getD 0x1F + 32 * b2n v.paused + 64 * b2n (decide (16 ≤ v.phys.getD 0)) + 128 * b2n v.phys.isNone
    + 256 * min 127 v.unacked.length
/-- env(k, s) of 10 R306. -/
def envSyms (r k size : Nat) (coded : Bool) : Nat :=
  let e := perEnv r size coded
  if e = 0 then 0
  else k / e * (8 * cdiv (e * size) 8 + 40) + (if k % e > 0 then 8 * cdiv (k % e * size) 8 + 40 else 0)
/-- The beam symbols of a batch or interval, and of a time block. -/
def beamSyms (m : Tab Nat) : Nat × Nat :=
  let r := setVal m (ob 0x8100 2)
  let b := beamB m
  if b = 0 then (0, 0)
  else if beamPower m then
    let x := envSyms r (b * beamCb m) 4 true + envSyms r (beamCb m) 2 false
    (x, 8192 / max 1 (beamKp m) * x)
  else
    let x := envSyms r (b * beamCb m * beamKb m) 2 false + envSyms r (beamCb m * beamKb m) 2 false
    (x, 8192 / max 1 (beamKb m) * x)
/-- V of 10 R306. -/
def outVolume (m : Tab Nat) : Nat :=
  let r := setVal m (ob 0x8100 2)
  let dump := envSyms r (64 * setT m) 8 true + envSyms r (setT m) 8 false + envSyms r (setNs m) 32 false
    + envSyms r 64 16 false + 72
  cdiv (setChans m) (max 1 (setN m)) * dump + envSyms r 8192 48 false + (beamSyms m).2
/-- The right side of check 0x91. -/
def outCapacity (m : Tab Nat) : Nat := 16 * (outRate (setVal m (ob 0x4001 0x36)) * natSub (setTB m) 3750000) / 4
/-- Output objects that are read as numbers. -/
def outputRead (idx sub : Nat) (s : State) : Nat :=
  let o := s.out
  if idx = 0x8100 then
    match sub with
    | 8 => o.eseq | 9 => o.sent | 0xA => o.late | 0xB => o.bytesRaw | 0xC => o.bytesCoded | 0xD => s.segsFree
    | 0xF => o.status
    | 0x10 => if s.dict.sets.isEmpty then 0 else outCapacity s.active
    | 0x11 => if s.dict.sets.isEmpty then 0 else outVolume s.active
    | 0x12 => o.corr | 0x13 => o.uncorr
    | _ => 0
  else if 0x8110 ≤ idx ∧ idx ≤ 0x811F then
    let v := s.olane (natSub idx 0x8110)
    match sub with | 1 => v.status | 2 => v.retries | 3 => v.shown | 4 => v.badWords | 5 => v.acked | _ => 0
  else
    let v := s.comp (natSub idx 0x8130)
    match sub with
    | 1 => v.coded | 2 => v.raw | 3 => v.envRaw | 4 => v.verify | 5 => v.corr | 6 => v.uncorr | _ => 0

end Sys2Proof.Machine
end

