-- ==== Sys2Proof/Machine/Beams.lean ====
section
/-! DEFINITION. Beamforming and beam weights (07 R212 to R223): batches, voltages and powers, the weight buffers, swaps and
layout changes. -/

namespace Sys2Proof.Machine

open Sys2Proof

/-! ### Weight buffers (07 R217, R218) -/

/-- The interleaved offset of a buffer in a placement. -/
def bufOff (pl : Place) (b : Bool) : Nat := if b then pl.w1 else pl.w0
/-- Bytes of a buffer without rounding (07 R217). -/
def bufLen (m : Tab Nat) : Nat := 64 + 2 * beamB m * beamIb m * beamCb m / max 1 (beamSpan m)
/-- The interleaved offset of a bus address in the DRAM window. -/
def interOf (a : Nat) : Nat := let l := dramLoc (natSub a dramBase); interOff l.1 l.2
/-- One byte of a write lies in a buffer of the active set. -/
def State.inBuffer (s : State) (b : Bool) (a n : Nat) : Bool :=
  let m := s.active
  decide (0 < beamB m ∧ !s.dict.sets.isEmpty ∧ dramBase ≤ a ∧ a < dramBase + 8 * stackSize) &&
    (List.range n).any fun k =>
      let i := interOf (a + k)
      decide (bufOff s.place b ≤ i ∧ i < bufOff s.place b + bufLen m)
/-- WEIGHT_BUSY: the discarded write counts; the Postcard comes at most once per 1 ms. -/
def weightRefused (s : State) : State :=
  raiseLim (ms 1) 0x140 0x0C 0 0xFFFF
    (s.setFab { s.fab with w := { s.fab.w with refused := satAdd 32 s.fab.w.refused 1 } })
/-- 07 R218: a write to the DRAM: one that reaches the active weight buffer, or the inactive one while a swap is held, is
discarded. -/
def storeGuarded (a : Nat) (bs : List Byte) (s : State) : State :=
  let w := s.fab.w
  if s.inBuffer w.active a bs.length || (w.st != 0 && s.inBuffer (!w.active) a bs.length) then weightRefused s
  else storeBytes a bs s
def execWeightBufferWrite (a : BitVec 40) (bs : List Byte) (s : State) : Host.Outcome State Fault Refusal :=
  .next (if s.inBuffer false a.toNat bs.length || s.inBuffer true a.toNat bs.length then storeGuarded a.toNat bs s else s)

/-! ### Swaps (07 R219 to R222) -/

def State.setW (s : State) (w : Weights) : State := s.setFab { s.fab with w := w }
/-- A discarded record. -/
def weightDiscard (s : State) : State :=
  raise 0x140 0x0A 0xFFFF (s.setW { s.fab.w with discarded := satAdd 32 s.fab.w.discarded 1 })
/-- 07 Table 07.7: a record without CANCEL. -/
def weightSwapOp (eff seq : Nat) (s : State) : State :=
  let w := s.fab.w
  let f := 32 * setF (s.setAt eff)
  let e := roundUp eff f
  if w.st = 2 ∨ e ≤ w.curEff then weightDiscard s
  else
    let late := decide (e ≤ s.pm + 500000)
    let e' := if late then roundUp (s.pm + 500000) f else e
    let s1 := if late then raise 0x140 8 0xFFFF s else s
    let w1 := { w with st := 1, eff := e', seq := seq, late := w.late || late }
    if w.st = 1 then
      raise 0x140 9 0xFFFF (s1.setW { w1 with replaced := true, nReplaced := satAdd 32 w.nReplaced 1 })
    else s1.setW w1
def execWeightSwap (eff : BitVec 64) (seq : BitVec 16) (s : State) : Host.Outcome State Fault Refusal :=
  let b := toBytes 8 eff.toNat ++ toBytes 2 seq.toNat ++ toBytes 6 0
  .next (weightSwapOp eff.toNat seq.toNat (keepLive (ob 0x7040 0xB) b s))
/-- 07 Table 07.7: a record with CANCEL. -/
def weightCancelOp (s : State) : State :=
  let w := s.fab.w
  if w.st = 1 then s.setW { w with st := 0 } else if w.st = 2 then weightDiscard s else s
/-- The record's EFF and SEQ are ignored, and the command carries neither: free values (assumption 228). -/
def execWeightSwapCancel (s : State) : Host.Outcome State Fault Refusal :=
  let (k, s1) := s.draw
  .next (weightCancelOp (keepLive (ob 0x7040 0xB) (toBytes 16 (Config.cancelRecord k % 2 ^ 80 + 2 ^ 80)) s1))

/-- 07 R221: the header of buffer b is valid under a set placed at pl. -/
def State.headerOk (s : State) (m : Tab Nat) (pl : Place) (b : Bool) : Bool :=
  let a := interAddr (bufOff pl b)
  let h := s.bytesAt a 16
  let f (k : Nat) : Nat := ofBytes ((h.drop (2 * k)).take 2)
  !((List.range 8).any fun k => s.badWord (a + 8 * k)) && f 0 == 1 && s.numAt (a + 16) 4 == crc32 h && f 1 == beamB m
    && f 2 == beamIf m && f 3 == beamIb m && f 4 == s.absChan m (beamCf m) && f 5 == beamCb m && f 6 == beamSpan m
/-- A held record is dropped with WEIGHT_SET_BAD. -/
def weightBad (s : State) : State := raise 0x140 0x0B 0xFFFF (s.setW { s.fab.w with st := 0, setBad := true })
/-- The committed set that will be active at a stamp, and its placement: an accepted commit that waits for its Postmark counts
(07 R220). -/
def State.committedAt (s : State) (t : Nat) : Tab Nat × Place :=
  let k := s.dict.tt
  if (k.st = .loading ∨ k.st = .pending) ∧ k.p ≤ t then (k.cand.getD [], k.place) else (s.setAt t, s.placeFor t)
/-- 07 Table 07.7: the counter has reached t_prep. -/
def weightPrepOp (s : State) : State :=
  let w := s.fab.w
  if w.st = 1 ∧ w.eff ≤ s.pm + 500000 then
    let c := s.committedAt w.eff
    if s.headerOk c.1 c.2 (!w.active) then s.setW { w with st := 2 } else weightBad s
  else s
def execWeightPrep (s : State) : Host.Outcome State Fault Refusal := .next (weightPrepOp s)
/-- The objects whose change is a layout change (07 R222). -/
def layoutObjs : List Nat :=
  [ob 0x7040 1, ob 0x7040 2, ob 0x7040 3, ob 0x7040 4, ob 0x7040 5, ob 0x7040 0xA, ob 0x5000 0x12, ob 0x5000 0x13,
   ob 0x5000 0x14, ob 0x6100 1, ob 0x6100 2]
/-- 07 R222: a commit at Postmark p. -/
def weightCommit (p : Nat) (old new : Tab Nat) (s : State) : State :=
  if layoutObjs.any fun o => setVal old o != setVal new o then
    let w := { s.fab.w with valid := false }
    let s1 := s.setW w
    if w.st = 2 ∧ p ≤ w.eff ∧ s.headerOk new (s.placeFor p) (!w.active) = false then weightBad s1 else s1
  else s
/-- The exchange of the buffers at the first batch at or after EFF′ (07 Table 07.7, R223). -/
def weightExchange (x : Nat) (s : State) : State :=
  let w := s.fab.w
  if w.st = 2 ∧ w.eff ≤ x then
    let s1 := s.setW { w with st := 0, active := !w.active, valid := true, curSeq := w.seq, curEff := w.eff, replaced := false,
                              setBad := false, late := false }
    s1.setFab { s1.fab with lastSwap := some x }
  else s
/-- The weight controller applies the sets due for a batch at x before the batch (02 R28, 07 R222). -/
def weightApply (x : Nat) (s : State) : State :=
  let s1 := s.noteUnit 0x140 x
  match s.dueSet 0x140 x with
  | some (p, old, new, k) => weightCommit p old new (clusterCommit 0 old new (s1.noteApplied 0x140 p k))
  | none => s1

/-! ### Batches (07 R213 to R216) -/

/-- The completion stamp of the last frame of a batch (02 R43). -/
def batchEnd (m : Tab Nat) (x : Nat) : Nat :=
  x + beamKb m * setF m - setF m / max 1 (setVal m (ob 0x5000 0x10) * setVal m (ob 0x5000 0x11))
/-- A batch of the set in force can start at x. -/
def State.batchDue (s : State) (m : Tab Nat) (x : Nat) : Bool :=
  0 < beamB m && (match s.fab.start with | some t => decide (t ≤ x) | none => false)
    && x % (beamKb m * setF m) == 0 && (match s.fab.batchDone with | some y => decide (y < x) | none => true)
/-- The beam port reads the weights and the samples of the batch at x (09 Table 09.3). -/
def beamLoads (m : Tab Nat) (x : Nat) (s : State) : State :=
  let w := 2 * beamB m * beamIb m * beamCb m / max 1 (beamSpan m)
  let pl := s.placeFor x
  let q := x / setF m
  let s1 := touchInter (bufOff pl s.fab.w.active + 64) w
    (streamTokens 5 (w + beamIb m * beamCb m * beamKb m * setBytes m) s)
  (List.range (beamCb m)).foldl (fun s c => (List.range (beamIb m / 8)).foldl (fun s io =>
    touchInter (cornerOff m pl (beamCf m + c) (q / 8192) (beamIf m / 8 + io) (q % 8192)) (8 * beamKb m * setBytes m) s) s) s1
/-- Beam positions whose slot is out while the standby is on its way to them (16 R471, R478). -/
def State.beamsOut (s : State) (m : Tab Nat) : List (Nat × Nat × Nat) :=
  s.fab.cl.filterMap fun c => match c.2.move with
    | some v => if v.promotion && isBeam m c.1 v.pos then some (c.1, v.pos, 0) else none
    | none => none
/-- The batch at x is the one in progress: its weights, the positions without an unserved one (16 R478), and those that do no work
in it (assumption 222). -/
def batchOpen (x : Nat) (s : State) : State :=
  let m := s.setAt x
  let s1 := weightExchange x (weightApply x s)
  s1.setFab { s1.fab with
    batch := some x
    batchAt := s.now
    batchOut := s.fab.removed ++ s.unserved.filter fun u => !s.fab.removed.contains u
    batchValid := s1.fab.w.valid
    batchOff := s.fab.beamsOff
    cutNow := s.beamsOut m }
/-- 07 R213: the batch at stamp x starts. -/
def batchStartOp (x : Nat) (s : State) : State :=
  let m := s.setAt x
  if s.batchDue m x && s.fab.batch.isNone && decide (batchEnd m x ≤ s.dataPm) then beamLoads m x (batchOpen x s)
  else s
def execBeamBatchStart (x : BitVec 64) (s : State) : Host.Outcome State Fault Refusal := .next (batchStartOp x.toNat s)

/-- W_b (07 R213). -/
def beamW (m : Tab Nat) (nb : Nat) : Nat :=
  let kb := beamKb m
  if nb = 0 then 0 else kb * ((beamCb m * (beamB m / 8) * (beamIb m / 8) * kb + kb * nb - 1) / (kb * nb))
/-- The position that works the unit of a frame of channel index c, beam octet bo and input octet io, and whether it had stopped
before: cut lists positions that stopped, as cluster, position and units done. -/
def State.unitAt (s : State) (m : Tab Nat) (cut : List (Nat × Nat × Nat)) (c bo io frame : Nat) : (Nat × Nat) × Bool :=
  let l := beamList m s.fab.batchOut
  let wb := max 1 (beamW m l.length)
  let e := ((c * (beamB m / 8) + bo) * (beamIb m / 8) + io) * beamKb m + frame
  let u := l.getD (e / wb) (0, 0)
  (u, l.isEmpty || cut.any fun x => x.1 == u.1 && x.2.1 == u.2 && decide (x.2.2 ≤ e % wb))
/-- A beam octet's sums of a channel and frame need a unit that a cut position (cluster, position, units done) has not done (07 R213,
R214). -/
def State.sumCut (s : State) (m : Tab Nat) (cut : List (Nat × Nat × Nat)) (c bo frame : Nat) : Bool :=
  (List.range (beamIb m / 8)).any fun io => (s.unitAt m cut c bo io frame).2
/-- The cut positions whose runs were not done. -/
def State.reallyCut (s : State) (m : Tab Nat) (cut : List (Nat × Nat × Nat)) : List (Nat × Nat × Nat) :=
  let l := beamList m s.fab.batchOut
  let wb := beamW m l.length
  let total := beamCb m * (beamB m / 8) * (beamIb m / 8) * beamKb m
  cut.filter fun x => decide (l.contains (x.1, x.2.1) ∧ x.2.2 < min wb (total - l.idxOf (x.1, x.2.1) * wb))

/-- What the check bits of a batch's words report: staged sample words by channel index, word number within the input set and frame;
weight words by cluster, channel group and beam octet; weight reads from the DRAM by stack and offset. -/
structure BeamEcc where
  smp : List (Nat × Nat × Nat × Ecc)
  wgt : List (Nat × Nat × Nat × Ecc)
  dram : List (Nat × Nat × Ecc)

/-- The channel group and beam octet of an offset in a weight buffer. -/
def weightPlace (m : Tab Nat) (off : Nat) : Nat × Nat :=
  let n := (off - 64) / 2 / max 1 (beamIb m)
  (n / max 1 (beamB m), n % max 1 (beamB m) / 8)
/-- Weight reads of a batch: the groups and octets whose outputs are lost (07 R225, 09 Table 09.6). -/
def weightReads (m : Tab Nat) (x : Nat) (ecc : BeamEcc) (s : State) : List (Nat × Nat) × State :=
  let base := bufOff (s.placeFor x) s.fab.w.active
  let marked := s.mm.bad.filterMap fun w =>
    let a := 8 * w.1
    if dramBase ≤ a then
      let i := interOf a
      if base + 64 ≤ i ∧ i < base + bufLen m then some ((natSub a dramBase) / stackSize, (natSub a dramBase) % stackSize, Ecc.ok) else none
    else none
  let r1 := (marked ++ ecc.dram).foldl (fun (r : List (Nat × Nat) × State) e =>
    let (k, s') := dramCheck e.1 e.2.1 5 e.2.2 r.2
    (if k = .uncorrectable then weightPlace m (interOff e.1 e.2.1 - base) :: r.1 else r.1, s')) ([], s)
  ecc.wgt.foldl (fun (r : List (Nat × Nat) × State) e =>
    let (k, test, s1) := eccCheck (clSrc e.1) 1 e.2.2.2 r.2
    let ad := (e.2.1 * 256 + e.2.2.1) % 2 ^ 40
    match k with
    | .ok => (r.1, s1)
    | .corrected => (r.1, raiseT test (clSrc e.1) 4 ad (s1.setFab { s1.fab with eccCorr := satAdd 32 s1.fab.eccCorr 1 }))
    | .uncorrectable =>
      ((e.2.1, e.2.2.1) :: r.1,
        raiseT test (clSrc e.1) 5 ad (s1.setFab { s1.fab with eccUncorr := satAdd 32 s1.fab.eccUncorr 1 }))) r1
/-- The clusters that read an input octet of a channel and frame: one for each beam octet's position that did its unit (07 R201, R213). -/
def State.beamReaders (s : State) (m : Tab Nat) (cut : List (Nat × Nat × Nat)) (c io frame : Nat) : List Nat :=
  (((List.range (beamB m / 8)).map fun bo => s.unitAt m cut c bo io frame).filter fun u => !u.2).map (fun u => u.1.1) |>.eraseDups
/-- The samples of the input set of one channel and frame: a word that is uncorrectable reads as markers (07 R225), and every cluster
that reads a malformed sample counts it (R201). -/
def beamSamples (m : Tab Nat) (c x : Nat) (frame : Nat) (cut : List (Nat × Nat × Nat)) (ecc : BeamEcc) (s : State) : List Smp × State :=
  let lc := beamCf m + c
  let q := x / setF m
  let e (n : Nat) : Ecc := match ecc.smp.find? fun e => e.1 == c && e.2.1 == n && e.2.2.1 == frame with | some e => e.2.2.2 | none => .ok
  (List.range (beamIb m / 8)).foldl (fun (r : List Smp × State) io =>
    let g := beamIf m / 8 + io
    match r.2.beamReaders m cut c io frame with
    | [] =>
      let h := if r.2.octBad m lc (q / 8192) g (q % 8192) then none else some 0
      (r.1 ++ octSamples m lc (q / 8192) g (q % 8192) h h r.2, r.2)
    | k :: ks =>
      let (b0, b1, s1) := checkOctet m k lc (q / 8192) g (q % 8192) (e (wordNo m io 0)) (e (wordNo m io 1)) r.2
      let l := octSamples m lc (q / 8192) g (q % 8192) b0 b1 s1
      (r.1 ++ l, (k :: ks).foldl (fun s k => countBads m k lc (q / 8192) g (q % 8192) l s) s1)) ([], s)
/-- The weight of a channel index, beam and input of the set. -/
def State.weight (s : State) (m : Tab Nat) (base c b i : Nat) : Int × Int :=
  let a := interAddr base + 64 + 2 * ((c / max 1 (beamSpan m) * beamB m + b) * beamIb m + i)
  (signed 8 (s.byteAt a).toNat, signed 8 (s.byteAt (a + 1)).toNat)
/-- v_b of one channel, beam and frame. -/
def beamSum (w : Nat → Int × Int) : Nat → List Smp → Int × Int
  | _, [] => (0, 0)
  | i, x :: r =>
    let y := beamSum w (i + 1) r
    let g := w i
    (y.1 + g.1 * x.1 - g.2 * x.2.1, y.2 + g.1 * x.2.1 + g.2 * x.1)
/-- 07 R215: a voltage component as C8 and whether it saturated. -/
def beamQuant (sh : Nat) (v : Int) : Int × Bool :=
  let r := rhu v ((2 ^ sh : Nat) : Int)
  (satSym 127 r, decide (127 < r.natAbs))

/-- The result of one channel and frame: the valid-input count, and per beam its voltage if it is valid. -/
structure BeamRow where
  count : Nat
  volt : List (Option (Int × Int))
/-- One channel and frame of a batch. -/
def beamRow (m : Tab Nat) (x c frame : Nat) (cut : List (Nat × Nat × Nat)) (lost : List (Nat × Nat)) (ecc : BeamEcc) (s : State) :
    BeamRow × State :=
  let base := bufOff (s.placeFor x) s.fab.w.active
  let (l, s1) := beamSamples m c (x + frame * setF m) frame cut ecc s
  let n := (l.filter fun v => v.2.2.1).length
  let volt := (List.range (beamB m)).map fun b =>
    if n = 0 ∨ s1.fab.batchValid = false ∨ s1.fab.batchOff
        ∨ s1.sumCut m cut c (b / 8) frame ∨ lost.contains (c / max 1 (beamSpan m), b / 8) then none
    else some (beamSum (s1.weight m base c b) 0 l)
  (⟨n, volt⟩, s1)
/-- Every channel and frame of a batch, in order. -/
def beamRows (m : Tab Nat) (x : Nat) (cut : List (Nat × Nat × Nat)) (lost : List (Nat × Nat)) (ecc : BeamEcc) (s : State) :
    List BeamRow × State :=
  (List.range (beamCb m)).foldl (fun (r : List BeamRow × State) c =>
    (List.range (beamKb m)).foldl (fun (r : List BeamRow × State) f =>
      let (w, s1) := beamRow m x c f cut lost ecc r.2
      (r.1 ++ [w], s1)) r) ([], s)

/-- A beam stream (10 Table 10.1). -/
def beamStream (m : Tab Nat) (etype stamp chan size total done : Nat) (data : List Byte) : Stream :=
  let x := mkStream m etype (if etype = 7 then 0 else 8) stamp chan size total (done + ms 3)
  { x with data := data, sCh := beamB m, sDump := beamB m * beamCb m, block := stamp / max 1 (setTB m) }
/-- 07 R215, voltage mode: emit a batch. -/
def emitVoltages (m : Tab Nat) (x : Nat) (rows : List BeamRow) (s : State) : State :=
  let qs := rows.flatMap fun r => r.volt.map fun v => v.map fun p => (beamQuant (beamShift m) p.1, beamQuant (beamShift m) p.2)
  let sat := (qs.map fun q => match q with | some (a, b) => b2n a.2 + b2n b.2 | none => 0).sum
  let data := qs.flatMap fun q => toBytes 2 (match q with
    | some (a, b) => unsigned 8 a.1 + 256 * unsigned 8 b.1
    | none => 0x8080)
  let ch := s.absChan m (beamCf m)
  let s1 := s.setFab { s.fab with beamSat := satAdd 64 s.fab.beamSat sat, beamSatRun := satAdd 32 s.fab.beamSatRun sat }
  let s2 := emitStream (beamStream m 6 x ch 2 qs.length (batchEnd m x) data) s1
  emitStream (beamStream m 8 x ch 2 rows.length (batchEnd m x) (rows.flatMap fun r => toBytes 2 r.count)) s2
def powInit : Nat → Power := fun _ => (0, 0)
/-- 07 R215: the frame count of each channel of the interval; where its beams differ it is a free value (assumption 30). -/
def powerCounts (m : Tab Nat) (pw : Tab Power) (s : State) : List Nat × State :=
  (List.range (beamCb m)).foldl (fun (r : List Nat × State) c =>
    let ns := (List.range (beamB m)).map fun b => (pw.get powInit (c * 1024 + b)).2
    if ns.all fun n => n == ns.headD 0 then (r.1 ++ [ns.headD 0], r.2)
    else (r.1 ++ [(Config.beamCount r.2.draw.1).toNat], r.2.draw.2)) ([], s)
/-- The interval's powers with a batch's beam sums added. -/
def powerAdd (m : Tab Nat) (rows : List BeamRow) (p : Tab Power) : Tab Power :=
  (rows.zipIdx).foldl (fun t r => (r.1.volt.zipIdx).foldl (fun t v =>
    let k := r.2 / max 1 (beamKb m) * 1024 + v.2
    match v.1 with
    | some q => t.set powInit k ((t.get powInit k).1 + (q.1 * q.1 + q.2 * q.2).toNat, (t.get powInit k).2 + 1)
    | none => t) t) p
/-- The values of an ended interval as binary32 powers (07 R215), beams of a channel together. -/
def powerValues (m : Tab Nat) (pw : Tab Power) : List Byte :=
  (List.range (beamCb m)).flatMap fun c => (List.range (beamB m)).flatMap fun b =>
    toBytes 4 (f32Scaled (pw.get powInit (c * 1024 + b)).1 (2 * beamShift m))
/-- 07 R215, power mode: an interval ends with the batch at x: its powers and its frame counts are emitted, with the weight-change flag
where an exchange fell in it (R223). -/
def emitPowers (m : Tab Nat) (x start : Nat) (pw : Tab Power) (s : State) : State :=
  let ch := s.absChan m (beamCf m)
  let r := powerCounts m pw s
  let s1 := r.2.setFab { r.2.fab with power := [], powerStart := none }
  let s2 := emitStream { beamStream m 7 start ch 4 (beamCb m * beamB m) (batchEnd m x) (powerValues m pw) with
                         wchg := match s.fab.lastSwap with | some y => decide (start ≤ y ∧ y ≤ x) | none => false } s1
  emitStream (beamStream m 8 start ch 2 r.1.length (batchEnd m x) (r.1.flatMap (toBytes 2))) s2
/-- 07 R215, power mode: add a batch to the interval its stamp lies in, and emit it at its end. -/
def addPowers (m : Tab Nat) (x : Nat) (rows : List BeamRow) (s : State) : State :=
  let start := x / (beamKp m * setF m) * (beamKp m * setF m)
  let pw := powerAdd m rows (if s.fab.powerStart = some start then s.fab.power else [])
  if (x + beamKb m * setF m) % (beamKp m * setF m) = 0 then emitPowers m x start pw s
  else s.setFab { s.fab with power := pw, powerStart := some start }

/-- The batch at x ends: some positions' sums are cut short (07 R214). -/
def finishBatch (x : Nat) (cut0 : List (Nat × Nat × Nat)) (ecc : BeamEcc) (s : State) : State :=
  let m := s.setAt x
  let cut := s.reallyCut m cut0
  let (lost, s1) := weightReads m x ecc s
  let (rows, s2) := beamRows m x cut lost ecc s1
  let s3 := if beamPower m then addPowers m x rows s2 else emitVoltages m x rows s2
  let hit := (List.range 96).filter fun k => cut.any fun p => p.1 == k
  let s4 := hit.foldl (fun s k => raise (clSrc k) 6 0xFFFF (s.setCl k { s.cl k with beamCutRun := true })) s3
  s4.setFab { s4.fab with batch := none, batchDone := some x, cutNow := [],
                          beamIncomplete := satAdd 32 s4.fab.beamIncomplete (b2n (!hit.isEmpty)) }
/-- The beam positions of a set that the cut list names. -/
def beamCuts (m : Tab Nat) (l : List (Nat × Nat × Nat)) : List (Nat × Nat × Nat) := l.filter fun p => isBeam m p.1 p.2.1
def batchDoneOp (ecc : BeamEcc) (s : State) : State :=
  match s.fab.batch with
  | some x => finishBatch x (beamCuts (s.setAt x) s.fab.cutNow) ecc s
  | none => s
/-- What a command carries of the reports of a batch's words. -/
def execBeamBatchDone (smp wgt : List (Nat × Nat × Nat × Ecc)) (dram : List (Nat × Nat × Ecc)) (s : State) :
    Host.Outcome State Fault Refusal := .next (batchDoneOp ⟨smp, wgt, dram⟩ s)
/-- 07 R214: 562,500 ticks after the completion stamp of the batch's last frame. late are the positions that have not
finished; a batch that has not started is cut whole. -/
def beamDeadlineOp (x : Nat) (late : List (Nat × Nat × Nat)) (s : State) : State :=
  let m := s.setAt x
  if s.batchDue m x && decide (batchEnd m x + 562500 ≤ s.dataPm) then
    if s.fab.batch = some x then finishBatch x (beamCuts m (s.fab.cutNow ++ late)) ⟨[], [], []⟩ s
    else if s.fab.batch.isNone then
      let s1 := batchOpen x s
      finishBatch x ((beamList m s1.fab.batchOut).map fun p => (p.1, p.2, 0)) ⟨[], [], []⟩ s1
    else s
  else s
def execBeamDeadline (x : BitVec 64) (late : List (Nat × Nat × Nat)) (s : State) : Host.Outcome State Fault Refusal :=
  .next (beamDeadlineOp x.toNat late s)

/-- A time block ends (07 R215, R229): BEAM_SAT and the BEAM_CUT bits. -/
def beamBlock (s : State) : State :=
  let f := s.fab
  let lim := s.cfg (ob 0x7040 0x13)
  let s1 := s.setFab { f with beamSatBlock := f.beamSatRun, beamSatRun := 0 }
  let s2 := forRange 96 (fun k s => s.setCl k { s.cl k with beamCut := (s.cl k).beamCutRun, beamCutRun := false }) s1
  if lim ≠ 0 ∧ lim < f.beamSatRun then raise 0x140 7 0xFFFF s2 else s2

end Sys2Proof.Machine
end

