-- ==== Sys2Proof/Machine/Dram.lean ====
section
/-! DEFINITION. The stacked DRAM (09): placement of a set's regions, the ports' rates and latency bounds, the commit checks,
stack states, pages, refresh, regulators, error correction and scrub. -/

namespace Sys2Proof.Machine

open Sys2Proof

/-! ### Placement (09 R262, R265) -/

/-- An earlier placement is reserved (09 R265): a tile of its layout waits for its sweep, or a dump in it is unread. -/
def State.reserved (s : State) (pl : Place) : Bool :=
  (s.acc.dumps.any fun d => decide (pl.base ≤ d.base ∧ d.base < pl.base + pl.lam))
    || s.acc.book.any fun e => match e.2 with | some b => s.placeFor b.int == pl | none => false
/-- The placement of a candidate (09 R265, DESIGN CHOICE, assumption 189): the accumulators and the dump queue stay where they are if
the fold and dump schedule stays; otherwise they lie below or above the reserved regions, and the other regions above all of them. -/
def State.newPlace (s : State) (m : Tab Nat) : Place :=
  if s.mm.place.isEmpty ∨ s.fab.start.isNone then firstPlace m
  else
    let old := s.place
    if placeAt m old.base old.ct = old then old
    else if setVal m (ob 0x8000 0xB) = 1 then firstPlace m
    else if schedChanged s.active m = false then placeAt m old.base old.ct
    else
      let kept := old :: (s.mm.place.map Prod.snd).filter s.reserved
      let top := maxOf (kept.map fun p => p.base + p.lam)
      let base := if kept.all fun p => decide (lamOf m ≤ p.base) then 0 else top
      placeAt m base (4 * max (base + lamOf m) top)
/-! ### Port budget (09 R269, R271, Tables 09.3 and 09.4) -/

/-- B_s in MB/s (09 R259). -/
def schedBw : Nat := 655360
/-- Fabric cycles per second. -/
def fabricHz : Nat := 1600000000
/-- Folds of a pass on a stack: one per segment end (07 R206). -/
def passFolds (m : Tab Nat) (nc stack : Nat) : Nat :=
  let q := setQ m
  let lf := setLf m
  let w := runW m nc
  let strips := List.range (8192 / max 1 q)
  let base := setT m / 4 * (strips.map fun s => 1 + multsIn lf (s * q) ((s + 1) * q)).sum
  base + ((List.range nc).map fun i =>
    let x := i * w
    if 0 < x ∧ x < setT m * q ∧ x % q ≠ 0 ∧ x / q % 4 = stack then
      (strips.filter fun s => (s * q + x % q) % lf != 0).length
    else 0).sum
/-- A rate of n bytes in d units of 1/hz second over the four stacks, in MB/s rounded up. -/
def rateUp (n hz d : Nat) : Nat := if d = 0 then 0 else cdiv (n * hz) (d * 4000000)
/-- ρ of the ports in MB/s. -/
def portRates (m : Tab Nat) : List Nat :=
  let nc := (corrList m []).length
  let pc := passCycles m nc
  let e := setBytes m
  let ns := setNs m
  let folds := maxOf ((List.range 4).map (passFolds m nc))
  let beamBytes := if beamB m = 0 then 0
    else 2 * beamB m * beamIb m * beamCb m / max 1 (beamSpan m) + beamIb m * beamCb m * beamKb m * e
  let read := 16 * 62500000 * outRate (setVal m (ob 0x4001 0x36))
  [ setVal m (ob 0x8000 3),
    rateUp (ns * setChans m * e) 250000000 (setF m),
    rateUp (4 * folds * 1056 + (if setVal m (ob 0x7100 1) = 1 ∧ 0 < setVal m (ob 0x7100 5) then setT m * 512 else 0)) fabricHz pc,
    cdiv ((setT m * 520 + ns * 32) * fabricHz + read * pc) (max 1 pc * 4000000),
    rateUp (ns * 8192 * e) fabricHz pc,
    rateUp beamBytes 250000000 (beamKb m * setF m),
    setVal m (ob 0x8000 1) ]
/-- σ of the ports in bytes (09 Table 09.3). -/
def portBursts (m : Tab Nat) : List Nat :=
  [1024 * setVal m (ob 0x8000 4), 262144, 262144, 1048576, 1048576, 1048576, 1024 * setVal m (ob 0x8000 2)]
/-- L_i of 09 R271 as (numerator, denominator) in ns, none where no bandwidth is left. -/
def portLatency (m : Tab Nat) (i : Nat) : Option (Nat × Nat) :=
  let used := ((portRates m).take i).sum
  if used < schedBw then
    some ((256 + ((portBursts m).take (i + 1)).sum) * 1000 + 600 * (schedBw - used), schedBw - used)
  else none
/-- The limits of 09 Table 09.3 in ns for ports 1 to 5. -/
def portLimits : List (Nat × Nat) := [(1, 20000), (2, 500000), (3, 500000), (4, 100000), (5, 100000)]

/-! ### The DRAM checks (09 Table 09.4) -/

/-- The bias buffer of a set (08 R246): one binary32 pair per product of the biased channels. -/
def biasInUser (m : Tab Nat) (p : Place) : Bool :=
  inUser p (setVal m (ob 0x7100 3)) (setVal m (ob 0x7100 5) * setT m * 512)
/-- 09 R272: the code of the first DRAM check that fails, 0 for none. -/
def State.dramFault (s : State) (m : Tab Nat) (p : Place) : Nat :=
  let up := (List.range 4).all fun k => (s.stk k).st == .ready || (s.stk k).st == .running
  let rates := portRates m
  let late := portLimits.any fun l => match portLatency m l.1 with | some (n, d) => decide (l.2 * d < n) | none => true
  let windows := (List.range 8).all fun w => inUser p (setVal m (ob 0x8200 (0x10 + w))) (setVal m (ob 0x8200 (0x18 + w)))
  if up = false ∨ p.fits = false then 0x80
  else if schedBw < rates.sum then 0x81
  else if late then 0x82
  else if windows = false ∨ (setVal m (ob 0x7100 1) = 1 ∧ biasInUser m p = false) then 0x83
  else 0

/-! ### Stack states (09 Table 09.7) -/

/-- A stack's bytes and marks are gone. -/
def wipeStack (n : Nat) (s : State) : State :=
  let lo := dramAddr n 0
  { s with mm := { s.mm with mem := s.mm.mem.filter fun e => decide (e.1 < lo ∨ lo + stackSize ≤ e.1)
                             bad := s.mm.bad.filter fun e => decide (8 * e.1 < lo ∨ lo + stackSize ≤ 8 * e.1) } }
/-- 09 Table 09.7: train the interface. -/
def trainOp (n : Nat) (s : State) : State :=
  let v := s.stk n
  if v.st = .off ∨ v.st = .failed then s.setStk n { v with st := .training, trainAt := s.now } else s
def execDramTrainStart (st : Fin 4) (s : State) : Host.Outcome State Fault Refusal :=
  .next (if (s.stk st).st = .off ∧ s.pwr.inReset = false then trainOp st s else s)
def trainFail (n : Nat) (s : State) : State := raise (stackSrc n) 3 0 (s.setStk n { s.stk n with st := .failed })
def trainDoneOp (n : Nat) (pass : Bool) (s : State) : State :=
  if (s.stk n).st = .training then
    if pass then
      let s1 := wipeStack n s
      s1.setStk n { s1.stk n with st := .ready, scrubAt := 0, banks := [] }
    else trainFail n s
  else s
def execDramTrainDone (st : Fin 4) (pass : Bool) (s : State) : Host.Outcome State Fault Refusal := .next (trainDoneOp st pass s)
def execDramTrainTimeout (st : Fin 4) (s : State) : Host.Outcome State Fault Refusal :=
  .next (if (s.stk st).st = .training ∧ (s.stk st).trainAt + ms 400 ≤ s.now then trainFail st s else s)
/-! ### Refresh and temperature (09 R268) -/

/-- A request waits for bank k of a stack. -/
def Stack.wanted (v : Stack) (k : Nat) : Bool :=
  v.queue.any fun r => (List.range ((r.x + r.len - 1) / 32 - r.x / 32 + 1)).any fun i =>
    bankKey ((r.x / 32 + i) % 32) ((r.x / 32 + i) / 1024 % 48) == k
/-- A request that waits for bank k is a hit on its open row. -/
def Stack.hitWaits (v : Stack) (k : Nat) : Bool :=
  match (v.bank k).row with
  | some row => v.queue.any fun r => (List.range ((r.x + r.len - 1) / 32 - r.x / 32 + 1)).any fun i =>
      bankKey ((r.x / 32 + i) % 32) ((r.x / 32 + i) / 1024 % 48) == k && (r.x / 32 + i) / 49152 == row
  | none => false
/-- 09 R268: a refresh falls due, or one is issued ahead to an idle bank. A bank that serves row hits may fall behind; at 4 behind
the refresh is forced and its row closed (DESIGN CHOICE, assumption 190). -/
def refreshOp (n pc bank : Nat) (issue : Bool) (s : State) : State :=
  let v := s.stk n
  if v.st = .ready ∨ v.st = .running then
    let k := bankKey pc bank
    let b := v.bank k
    let idle := !v.wanted k
    if issue then
      if idle = true ∧ -4 < b.behind then s.setStk n (v.setBank k { row := none, behind := b.behind - 1 }) else s
    else if b.behind < 0 then s.setStk n (v.setBank k { b with behind := b.behind + 1 })
    else if v.hitWaits k = false then s.setStk n (v.setBank k { row := none, behind := b.behind })
    else if 3 ≤ b.behind then
      s.setStk n { v.setBank k { row := none, behind := b.behind } with forced := satAdd 64 v.forced 1 }
    else s.setStk n (v.setBank k { b with behind := b.behind + 1 })
  else s
def execRefresh (st : Fin 4) (pc : Fin 32) (bank : Fin 48) (issue : Bool) (s : State) : Host.Outcome State Fault Refusal :=
  .next (refreshOp st pc bank issue s)
/-- The refresh interval of a stack in ns (09 R268). -/
def Stack.refreshNs (v : Stack) : Nat := if v.hot then 1950 else 3900
/-- 09 R268: the stack reports a temperature; DRAM_HOT on each rise above 85 °C. -/
def tempOp (n : Nat) (t : Int) (s : State) : State :=
  let v := s.stk n
  let s1 := s.setStk n { v with temp := t, hot := decide (85 < t) }
  if 85 < t ∧ v.hot = false then raise (stackSrc n) 4 0 s1 else s1
def execDramTempRise (st : Fin 4) (t : Int) (s : State) : Host.Outcome State Fault Refusal :=
  .next (if 85 < t then tempOp st t s else s)
def execDramTempFall (st : Fin 4) (t : Int) (s : State) : Host.Outcome State Fault Refusal :=
  .next (if t ≤ 85 then tempOp st t s else s)

/-- An access that touches the system area, which lies at the top of the interleaved view (09 R264). -/
def inSystem (stack x len : Nat) : Bool := decide (0 < len ∧ systemOff ≤ interOff stack (x + len - 1))
/-- The words of a request. -/
def wordsIn (x len : Nat) : List Nat := if len = 0 then [] else (List.range ((x + len - 1) / 8 - x / 8 + 1)).map fun k => 8 * (x / 8 + k)
/-- The report of a word in a list of reports. -/
def eccAt (l : List (Nat × Ecc)) (x : Nat) : Ecc := match l.find? fun e => e.1 / 8 == x / 8 with | some e => e.2 | none => .ok
/-- Read words of a stack for a port: whether one is uncorrectable, and the bits that the reader receives changed (16 R465). -/
def dramRead (n x len port : Nat) (ecc : List (Nat × Ecc)) (s : State) : Bool × List (Nat × Nat) × State :=
  (wordsIn x len).foldl (fun (r : Bool × List (Nat × Nat) × State) w =>
    let o := (dramFlip n w (eccAt ecc w) r.2.2).map fun b => (dramAddr n w, b)
    let (e, s') := dramCheck n w port (eccAt ecc w) r.2.2
    (r.1 || e == .uncorrectable, o.toList ++ r.2.1, s')) (false, [], s)
/-- The words that a write fills only in part, which the controller reads for the merge (09 R273, R274). -/
def partWords (x len : Nat) : List Nat := (wordsIn x len).filter fun w => decide (w < x ∨ x + len < w + 8)
/-- The merge's reads, with their reports. -/
def mergeReads (n x len port : Nat) (ecc : List (Nat × Ecc)) (s : State) : State :=
  (partWords x len).foldl (fun s w => (dramCheck n w port (eccAt ecc w) s).2) s
/-- Write a stack for a port: a system-area write of a master other than a Steward is refused (09 R264). Gives whether the
write was made. -/
def dramWrite (n x port : Nat) (steward : Bool) (data : List Byte) (ecc : List (Nat × Ecc)) (s : State) : Bool × State :=
  if !steward && inSystem n x data.length then (false, raise (stackSrc n) 5 (x / 8 * 8 + port * 2 ^ 36) s)
  else (true, storeGuarded (dramAddr n x) data (mergeReads n x data.length port ecc s))
/-! ### Requests (09 R267, R269) -/

def State.setCtrl (s : State) (c : Ctrl) : State := { s with ctrl := c }
/-- The EPOCH of a master. -/
def State.epochOf (s : State) (m : Nat) : Nat := s.ctrl.epoch.get (fun _ => 0) m
/-- The responses to a master: one for a write, one per beat for a read, to both cores of a pair in LOCKSTEP (13 R373, R381). -/
def busBeats (m id epoch resp beat : Nat) (read : Bool) (d : List Byte) (s : State) : State :=
  let bs := if read then pieces beat (max 1 d.length) d else [[]]
  let cores := if m = 0 ∧ s.ctrl.pair = .lockstep then [0, 1] else [m]
  bs.zipIdx.foldl (fun s b => cores.foldl (fun s k => s.send (.busReply k id resp (b.2 + 1 == bs.length) epoch b.1)) s) s
/-- A request of a master is answered, unless it has an old EPOCH (13 R375, R380). Its ID is free again. -/
def busAnswer (m id epoch resp beat : Nat) (read : Bool) (d : List Byte) (s : State) : State :=
  let s1 := s.setCtrl { s.ctrl with
    reqs := s.ctrl.reqs.filter fun r => !(r.m == m && r.id == id && r.epoch == epoch && r.stage != .held) }
  if epoch ≠ s.epochOf m then s1 else busBeats m id epoch resp beat read d s1
/-- The answer to a request; only the control and Courier ports carry bus requests. -/
def reqReply (r : DramReq) (resp : Nat) (d : List Byte) (s : State) : State :=
  if r.port = 0 ∨ r.port = 6 then busAnswer r.tag.1 r.tag.2.1 r.tag.2.2 resp 16 r.wr.isNone d s else s
/-- A request is performed and answered. -/
def reqServe (n : Nat) (r : DramReq) (s : State) : State :=
  let s1 := if r.late then raise (stackSrc n) 6 (r.x / 8 * 8 + r.port * 2 ^ 36) s else s
  match r.wr with
  | some d =>
    let (ok, s2) := dramWrite n r.x r.port (decide (r.tag.1 ≤ 1)) d r.ecc s1
    reqReply r (if ok then 0 else 2) [] s2
  | none =>
    let (bad, fl, s2) := dramRead n r.x r.len r.port r.ecc s1
    reqReply r (if bad then 2 else 0)
      (if bad then List.replicate r.len 0 else flippedBytes (dramAddr n r.x) fl (s2.bytesAt (dramAddr n r.x) r.len)) s2
/-- Two requests touch one 32-byte access. -/
def DramReq.meets (a b : DramReq) : Bool :=
  decide (0 < a.len ∧ 0 < b.len ∧ a.x / 32 ≤ (b.x + b.len - 1) / 32 ∧ b.x / 32 ≤ (a.x + a.len - 1) / 32)
/-- The stack's buckets hold the tokens of a request. -/
def Stack.pays (v : Stack) (r : DramReq) (now : Nat) : Bool :=
  v.st != .running || decide (r.len * 1000000 ≤ (v.bucket r.port).tokens now)
/-- The requests that may issue: the oldest of their port, with their tokens, behind no older request to the same access. The model
never takes a younger row hit first (DESIGN CHOICE, assumption 190). -/
def Stack.mayIssue (v : Stack) (now : Nat) : List DramReq → List DramReq → List DramReq
  | _, [] => []
  | before, r :: l =>
    let ok := v.pays r now && !before.any fun b => b.port == r.port || b.meets r
    (if ok then [r] else []) ++ v.mayIssue now (before ++ [r]) l
/-- The first of the requests of the port of highest priority (09 Table 09.3). -/
def firstReq : List DramReq → Option DramReq
  | [] => none
  | r :: l => match firstReq l with | some q => if q.port < r.port then some q else some r | none => some r
/-- Serve what may issue, in order of priority. -/
def serveGo (n : Nat) : Nat → State → State
  | 0, s => s
  | f + 1, s =>
    let v := s.stk n
    match firstReq (v.mayIssue s.now [] v.queue) with
    | some r => serveGo n f (reqServe n r (usePort n r.port r.x r.len (s.setStk n { v with queue := v.queue.erase r })))
    | none => s
/-- The waiting requests that satisfy p are served, in their order, tokens or not. -/
def serveNow (n : Nat) (p : DramReq → Bool) (s : State) : State :=
  let v := s.stk n
  (v.queue.filter p).foldl (fun s r => reqServe n r (usePort n r.port r.x r.len s))
    (s.setStk n { v with queue := v.queue.filter fun r => !p r })
/-- Requests that wait are performed before a later access to the same 32 bytes (09 R267). -/
def serveBefore (n x len : Nat) (s : State) : State :=
  serveNow n (fun r => decide (0 < len ∧ 0 < r.len ∧ r.x / 32 ≤ (x + len - 1) / 32 ∧ x / 32 ≤ (r.x + r.len - 1) / 32)) s
/-- The requests that a stack's fold engine finds ahead of it at the tile of its next fold. -/
def foldWay (st : Nat) (s : State) : State :=
  match s.nextFold st with
  | none => s
  | some f =>
    let x := match s.book f.c f.tile with | some b => b.int | none => f.x0
    let m := s.setAt x
    let pl := s.placeFor x
    let i := tileIndex m f.c f.tile
    serveBefore st (dumpBase m pl + 512 * i) 512 (serveBefore st (recBase m pl + 8 * i) 8
      (serveBefore st (bookOff m pl f.c f.tile) 16 (serveBefore st (accOff m pl f.c f.tile 0) 512 s)))
def execFold (st : Fin 4) (ecc : List (Nat × Ecc)) (s : State) : Host.Outcome State Fault Refusal :=
  .next (foldOp st ecc (foldWay st s))
/-- A stack serves its requests; one that waits is counted once. -/
def serveStack (n : Nat) (s : State) : State :=
  if (s.stk n).queue.isEmpty then s
  else
  let s1 := serveGo n (s.stk n).queue.length s
  let v := s1.stk n
  let new := (v.queue.filter fun r => !r.counted).length
  s1.setStk n { v with queue := v.queue.map fun r => { r with counted := true }, waits := satAdd 64 v.waits new }
/-- 09 R269: a request arrives at a stack and issues as soon as it may. -/
def arriveReq (n : Nat) (r : DramReq) (s : State) : State :=
  let v := s.stk n
  if v.st = .ready ∨ v.st = .running then serveStack n (s.setStk n { v with queue := v.queue ++ [r] })
  else reqReply r 2 (if r.wr.isSome then [] else List.replicate r.len 0) s
/-- A per-block reset of a stack controller (09 Table 09.7): accepted writes are completed, reads in flight end with an error. -/
def stackReset (n : Nat) (s : State) : State :=
  let v := s.stk n
  if v.st = .failed then trainOp n s
  else if v.st = .ready ∨ v.st = .running then
    v.queue.foldl (fun s r => if r.wr.isSome then reqServe n r s else reqReply r 2 (List.replicate r.len 0) s)
      (s.setStk n { v with queue := [] })
  else s
/-- The regulators are loaded at the commit Postmark (09 R269, Table 09.7): every bucket full. -/
def stackCommit (n : Nat) (new : Tab Nat) (s : State) : State :=
  let v := s.stk n
  if v.st = .ready ∨ v.st = .running then
    serveStack n (s.setStk n { v with
      st := .running
      buckets := ((portBursts new).zip (portRates new)).zipIdx.foldl (fun t b =>
        Tab.set bucketInit t b.2 ⟨b.1.1 * 1000000, s.now, b.1.2, b.1.1⟩) [] })
  else s

/-- 09 R275: the scrubber reads its next word, and a complete pass counts. The write-back of a corrected word, cancelled or
not, leaves the word that later reads return as it is, but for a bit that an injection had it correct falsely (16 R465). -/
def scrubOp (n : Nat) (e : Ecc) (s : State) : State :=
  let v := s.stk n
  if v.st = .ready ∨ v.st = .running then
    let x := v.scrubAt
    let (_, s1) := dramCheck n x 15 e (flipWord (dramAddr n x) (dramFlip n x e s) s)
    let w := s1.stk n
    if stackSize ≤ x + 8 then s1.setStk n { w with scrubAt := 0, passes := satAdd 32 w.passes 1 }
    else s1.setStk n { w with scrubAt := x + 8 }
  else s
def execScrubStep (st : Fin 4) (e : Ecc) (s : State) : Host.Outcome State Fault Refusal := .next (scrubOp st e s)

/-! ### Objects (09 R279) -/

def StackSt.code : StackSt → Nat | .off => 0 | .training => 1 | .ready => 2 | .running => 3 | .failed => 4
/-- DRAM objects that are read as numbers. -/
def dramRead_ (idx sub : Nat) (s : State) : Nat :=
  let placed := !s.mm.place.isEmpty
  let p := s.place
  let m := s.active
  if idx = 0x8000 then
    match sub with
    | 6 => schedBw
    | 7 => if placed then p.lam else 0
    | 8 => if placed then interAddr p.ct else 0
    | 9 => s.acc.damaged
    | 0xA => if placed then interAddr p.hdr else 0
    | 0xC => if placed then interAddr p.user else 0
    | 0xD => if placed then p.userSize else 0
    | 0xE => interAddr systemOff
    | _ => 0
  else if idx = 0x8001 then if placed then (portRates m).getD (sub - 1) 0 else 0
  else if idx = 0x8002 then if placed then (portBursts m).getD (sub - 1) 0 else 0
  else if idx = 0x8003 then
    if placed then match portLatency m (sub - 1) with | some (n, d) => (2 * n + d) / (2 * d) | none => 2 ^ 32 - 1 else 0
  else
    let v := s.stk (natSub idx 0x8010)
    match sub with
    | 1 => v.st.code | 2 => unsigned 16 v.temp | 3 => v.corr | 4 => v.uncorr | 5 => v.passes | 6 => v.forced | 7 => v.hits
    | 8 => v.conflicts | 9 => v.lastErr | 0xA => v.waits | _ => 0

end Sys2Proof.Machine
end

