-- ==== Sys2Proof/Machine/Bus.lean ====
section
/-! DEFINITION. The bus matrix (13): address map, connectivity, reads and writes by master, the requests in the matrix with their IDs and
the grants of each target, the dead-letter target, register windows (02 R24 to R27) and master resets. -/

namespace Sys2Proof.Machine

open Sys2Proof

/-! ### Address map (13 Table 13.1) -/

/-- What a bus address names. -/
inductive Target where
  | dead | bootRom | sram | regs | tally (c : Nat) (prog : Bool) | enclave | store | dram
  deriving DecidableEq, Repr

/-- The working SRAM's address of a low-alias or SRAM address. -/
def sramBase : Nat := 0x20000000
/-- Target and canonical address of a bus address. -/
def busTarget (remap : Bool) (a : Nat) : Target × Nat :=
  let sram (o : Nat) : Target × Nat :=
    if 0x6C0000 ≤ o ∧ o < 0x700000 then (.dead, a) else (.sram, sramBase + o)
  if a < 0x800000 then
    if remap then sram a else if a < 0x100000 then (.bootRom, 0x10000000 + a) else (.dead, a)
  else if 0x10000000 ≤ a ∧ a < 0x10100000 then (.bootRom, a)
  else if 0x20000000 ≤ a ∧ a < 0x20800000 then sram (natSub a 0x20000000)
  else if 0x40000000 ≤ a ∧ a < 0x50000000 then
    if (blockType ((natSub a 0x40000000) / 65536)).isSome then (.regs, a) else (.dead, a)
  else if 0x50000000 ≤ a ∧ a < 0x50400000 then
    let o := a % 0x100000
    let c := (natSub a 0x50000000) / 0x100000
    if o < 0x80000 then (.tally c false, a) else if o < 0xC0000 then (.tally c true, a) else (.dead, a)
  else if 0x60000000 ≤ a ∧ a < 0x60010000 then (.enclave, a)
  else if 0x70000000 ≤ a ∧ a < 0x70400000 then (.store, a)
  else if dramBase ≤ a ∧ a < dramBase + 8 * stackSize then (.dram, canon a)
  else (.dead, a)

/-- 13 Table 13.2: a master reaches a target with a read or a write. -/
def reaches (m : Nat) (t : Target) (write : Bool) : Bool :=
  match t with
  | .dead => false
  | .bootRom => !write && (m ≤ 1 || m == 10)
  | .sram => m ≤ 1 || (6 ≤ m && m ≤ 9 && (m != 6 || !write)) || (m == 10 && !write)
  | .enclave => m ≤ 1 || (m == 10 && !write)
  | .regs => m ≤ 1 || (m ≤ 5 && !write) || m == 10
  | .dram => m ≤ 5 || (m == 6 && !write) || m == 7 || m == 10
  | .tally _ _ => m ≤ 5 || (m == 6 && !write) || m == 7 || m == 10
  | .store => m ≤ 1 || (m == 10 && !write)

/-- 13 R373: a request of n bytes that the matrix takes: one aligned beat, or a burst of 16-byte beats inside 256 bytes. -/
def requestOk (a n : Nat) : Bool :=
  ((n == 1 || n == 2 || n == 4 || n == 8 || n == 16) && a % n == 0)
    || (decide (32 ≤ n ∧ n ≤ 256) && n % 16 == 0 && a % 16 == 0 && a / 256 == (a + n - 1) / 256)

/-! ### Dead letters (13 R379) -/

def zeroTab : Nat → Nat := fun _ => 0
/-- The dead-letter target takes a request. -/
def deadLetter (m a : Nat) (s : State) : State :=
  let k := s.ctrl
  let s1 := { s with ctrl := { k with
    deadTotal := satAdd 64 k.deadTotal 1
    dead := k.dead.set zeroTab m (satAdd 32 (k.dead.get zeroTab m) 1)
    deadAddr := a
    deadMaster := m
    deadPm := s.pm } }
  raiseLim (ms 1) 0xA30 1 m a s1
/-! ### Register windows (02 R24 to R27) -/

/-- BLOCK_ID (02 Table 02.4). -/
def blockId (n : Nat) : Nat := n + 4096 * (blockType n).getD 0 + 2 ^ 20
/-- SWAP_PENDING (02 R27, 14 R410, R412): an accepted commit is loading or waits for P, or latched sets are left. -/
def State.swapPending (s : State) (n : Nat) : Bool :=
  s.dict.tt.st == .loading || s.dict.tt.st == .pending || decide ((s.blk n).taken < s.dict.sets.length)
/-- RUNNING (02 R27): the block processes data under its active set. A lane does in RUNNING, a stack controller in its state of that
name, a port in SCHEDULED, another block on the data path from the first unit on that it applies its set to, any other one from
START on (DEDUCED, assumption 196). -/
def State.blockRuns (s : State) (n : Nat) : Bool :=
  let b := s.blk n
  b.activeValid && !b.held &&
    match blockType n with
    | some 1 | some 2 | some 3 => (s.lane n).rx == .running
    | some 0x30 => (s.stk (n - 0x900)).st == .running
    | some 0x11 => (s.port (n - 0x120)).st == .scheduled
    | some 0x10 | some 0x20 | some 0x21 | some 0x31 | some 0x40 | some 0x41 => b.running
    | _ => s.fab.start.isSome
/-- BLOCK_STATUS (02 Table 02.5). -/
def State.blockStatus (s : State) (n : Nat) : Nat :=
  let b := s.blk n
  b2n (s.blockRuns n) + 2 * b2n b.activeValid + 4 * b2n (s.swapPending n) + 8 * b2n b.held
    + 16 * b2n (b.plain && blockType n == some 0x10)
/-- A byte of the enclave window (17 Table 17.4); none where the spec gives no layout. -/
def Encl.windowByte (v : Encl) (o : Nat) : Option Nat :=
  if o = 0 then some v.status
  else if 8 ≤ o ∧ o < 10 then some (v.count / 256 ^ (o - 8) % 256)
  else if 0x10 ≤ o ∧ o < 0x14 then some (csVersion v.cert / 256 ^ (o - 0x10) % 256)
  else if 0x14 ≤ o ∧ o < 0x18 then some (v.certCrc / 256 ^ (o - 0x14) % 256)
  else if 0x18 ≤ o ∧ o < 0x1C then some (v.workingCrc / 256 ^ (o - 0x18) % 256)
  else if 0x20 ≤ o ∧ o < 0x24 then some (v.audit / 256 ^ (o - 0x20) % 256)
  else if 0x100 ≤ o ∧ o < 0x108 then some (v.page / 256 ^ (o - 0x100) % 256)
  else none
/-- A byte of a register window whose place the spec gives; none for the others. -/
def State.windowByte (s : State) (a : Nat) : Option Nat :=
  let n := (natSub a 0x40000000) / 65536
  let o := a % 65536
  if o < 3 then some (blockId n / 256 ^ o % 256)
  else if o = 4 then some (s.blockStatus n)
  else if 8 ≤ o ∧ o < 16 then some ((s.blk n).appliedPm / 256 ^ (o - 8) % 256)
  else if n = 0xA70 ∧ o = 0x10 then some s.encl.status
  else none
/-- The set that a block runs under. -/
def State.blockSet (s : State) (n : Nat) : Tab Nat :=
  match (s.dict.sets.take (s.blk n).taken).getLast? with | some x => x.2 | none => s.dict.base
/-- The reserved bits of a status byte, as a read finds them (00 R3). -/
def openBits (a mask v tick : Nat) : Byte := BitVec.ofNat 8 v ||| (Config.regByte a tick &&& BitVec.ofNat 8 mask)
/-- A byte of register space. One whose place no chapter gives is a free value: of the block's set where it lies in a configuration
set, of the tick elsewhere, so that a read issued again returns the same data (13 R377). -/
def State.regByte (s : State) (a : Nat) : Byte :=
  let n := (natSub a 0x40000000) / 65536
  let o := a % 65536
  match s.windowByte a with
  | some v => if o = 4 then openBits a 0xE0 v s.now else BitVec.ofNat 8 v
  | none =>
    if 0x1000 ≤ o ∧ o < 0x8000 then Config.setByte a (s.blockSet n)
    else if 0x8000 ≤ o ∧ o < 0xF000 then Config.setByte a s.dict.loaded
    else Config.regByte a s.now
/-- A byte of the enclave window; one whose place no chapter gives is a free value of PAGE and of what the store holds (17 Table 17.4),
so that a read issued again returns the same data (13 R377). -/
def State.enclByte (s : State) (a : Nat) : Byte :=
  match s.encl.windowByte (a % 65536) with
  | some v => BitVec.ofNat 8 v
  | none => Config.enclByte (a % 65536) s.encl.page s.encl.cert s.encl.working
/-- A byte of the dictionary store: one that a bus write stored, else what the firmware keeps there of the sets (14 R420), a free
value. -/
def State.storeByte (s : State) (a : Nat) : Byte :=
  match s.ctrl.stored.get zeroTab a with | 0 => Config.setByte a s.dict.shadow | v => BitVec.ofNat 8 (v - 1)
/-- Bytes from an address on. -/
def bytesFrom (f : Nat → Byte) (a n : Nat) : List Byte := (List.range n).map fun k => f (a + k)

/-! ### Accesses -/

/-- The working SRAM takes an access of a master (13 R371). -/
def sramTakes (m a n : Nat) (priv : Bool) : Bool :=
  if m = 6 ∨ m = 7 then priv
  else if m = 8 ∨ m = 9 then decide (sramBase + 0x700000 ≤ a ∧ a + n ≤ sramBase + 0x800000)
  else true
/-- A Tally core's program memory is open to other masters (12 R340). -/
def coreInit : Nat → Core := fun _ => {}
def State.core (s : State) (c : Nat) : Core := s.tally.get coreInit c
def State.setCore (s : State) (c : Nat) (v : Core) : State := { s with tally := s.tally.set coreInit c v }
def coreSrc (c : Nat) : Nat := 0xA00 + c
def Core.busy (v : Core) : Bool := v.st == .run || v.st == .wait
/-- The check of one 8-byte word of a Tally memory that another master reads (12 R339); x is its byte address in the memory. -/
def checkTallyWord (c : Nat) (prog : Bool) (x : Nat) (e : Ecc) (s0 : State) : Bool × State :=
  let s := flipWord (0x50000000 + c * 0x100000 + (if prog then 0x80000 else 0) + x / 8 * 8) (eccFlip (coreSrc c) (if prog then 2 else 1) e s0) s0
  let (r, test, s1) := eccCheck (coreSrc c) (if prog then 2 else 1) e s
  let w := s1.core c
  match r with
  | .ok => (false, s1)
  | .corrected =>
    (false, raiseT test (coreSrc c) (if prog then 5 else 7) x
      (s1.setCore c (if prog then { w with pmCorr := satAdd 32 w.pmCorr 1 } else { w with dmCorr := satAdd 32 w.dmCorr 1 })))
  | .uncorrectable => (true, s1.setCore c { w with uncorr := satAdd 32 w.uncorr 1 })
/-- The words of a read, each with its report: whether one is uncorrectable. -/
def checkTallyWords (c : Nat) (prog : Bool) (x n : Nat) (ecc : List (Nat × Ecc)) (s : State) : Bool × State :=
  (wordsIn x n).foldl (fun (r : Bool × State) w =>
    let (b, s1) := checkTallyWord c prog w (eccAt ecc w) r.2
    (r.1 || b, s1)) (false, s)
/-- 12 R339, R340: another master's read of a Tally memory. -/
def tallyRead (c : Nat) (prog : Bool) (a n : Nat) (ecc : List (Nat × Ecc)) (s : State) : Nat × List Byte × State :=
  if prog ∧ (s.core c).busy then (2, List.replicate n 0, raise (coreSrc c) 9 0 s)
  else
    let (bad, s1) := checkTallyWords c prog (a % (if prog then 0x80000 else 0x100000)) n ecc s
    if bad then (2, List.replicate n 0, s1) else (0, s1.bytesAt a n, s1)
/-- A word of the mirror region with what the checks of its two copies report (13 R386): whether both are uncorrectable. The good copy
is written over the other. -/
def mirrorWord (a : Nat) (one two : Ecc) (s : State) : Bool × State :=
  if one = .uncorrectable ∧ two = .uncorrectable then (true, raise 0xA10 8 a s)
  else if one = .ok ∧ two = .ok then (false, s)
  else (false, raise 0xA10 7 a (s.setCtrl { s.ctrl with mirrorCorr := satAdd 32 s.ctrl.mirrorCorr 1 }))
/-- The reports of a word of the mirror region: its first copy's, then its second's. -/
def mirrorEcc (ecc : List (Nat × Ecc)) (w : Nat) : Ecc × Ecc :=
  let l := ecc.filter fun e => e.1 / 8 == w / 8
  ((l.head?.map Prod.snd).getD .ok, (l[1]?.map Prod.snd).getD .ok)
/-- A read of working SRAM: the words of it in the mirror region are checked. -/
def sramRead (x n : Nat) (ecc : List (Nat × Ecc)) (s : State) : Nat × List Byte × State :=
  let ws := (wordsIn x n).filter fun w => decide (sramBase + 0x680000 ≤ w ∧ w < sramBase + 0x6C0000)
  let (bad, s1) := ws.foldl (fun (r : Bool × State) w =>
    let e := mirrorEcc ecc w
    let (b, s') := mirrorWord w e.1 e.2 r.2
    (r.1 || b, s')) (false, s)
  if bad then (2, List.replicate n 0, s1) else (0, s1.bytesAt x n, s1)
/-- A stack that answers accesses; one that is OFF, trains or has failed answers with an error (DESIGN CHOICE, assumption 144). -/
def State.stackUp (s : State) (n : Nat) : Bool := (s.stk n).st == .ready || (s.stk n).st == .running
/-- The DRAM port of a master (13 Table 13.2). -/
def dramPort (m : Nat) : Nat := if m = 6 ∨ m = 7 then 6 else 0
/-- A master's request reaches the target that its address names; any other goes to the dead-letter target (13 R370, R373). -/
def routedTo (remap : Bool) (m a n : Nat) (write : Bool) : Bool := requestOk a n && reaches m (busTarget remap a).1 write
def State.routed (s : State) (m a n : Nat) (write : Bool) : Bool := routedTo s.ctrl.remap m a n write
/-- 13 R370 to R377: a read by a master of n bytes: RESP (0 OKAY, 1 DECERR, 2 TGTERR), data, state. ecc are the reports of the
memory words read, by address in the memory. -/
def busRead (m a n : Nat) (priv : Bool) (ecc : List (Nat × Ecc)) (s : State) : Nat × List Byte × State :=
  let (t, x) := busTarget s.ctrl.remap a
  let zero := List.replicate n (0 : Byte)
  if s.routed m a n false = false then (1, zero, deadLetter m a s)
  else match t with
    | .dead => (1, zero, deadLetter m a s)
    | .bootRom => (0, bytesFrom (fun k => BitVec.ofNat 8 (Config.bootRom (k % 0x100000))) x n, s)
    | .sram => if sramTakes m x n priv then sramRead x n ecc s else (2, zero, s)
    | .regs => if n = 4 ∨ n = 8 then (0, bytesFrom s.regByte a n, s) else (2, zero, s)
    | .tally c prog => tallyRead c prog a n ecc s
    | .enclave => if n = 4 ∨ n = 8 then (0, bytesFrom s.enclByte a n, s) else (2, zero, s)
    | .store => (0, bytesFrom s.storeByte a n, s)
    | .dram =>
      let l := dramLoc (natSub a dramBase)
      if s.stackUp l.1 = false then (2, zero, s)
      else
        let (bad, fl, s1) := dramRead l.1 l.2 n (dramPort m) ecc (usePort l.1 (dramPort m) l.2 n (serveBefore l.1 l.2 n s))
        if bad then (2, zero, s1) else (0, flippedBytes a fl (s1.bytesAt a n), s1)
/-- CONFIG_WRITE_IGNORED of a block (02 R25, 14 R416). -/
def configIgnored (a : Nat) (s : State) : State := raiseLim (ms 1) ((natSub a 0x40000000) / 65536) 0xF0 0 a s
/-- The runs of bytes whose strobes are set, from an address on (13 R373). -/
def strobeRuns : Nat → List Byte → List Bool → List (Nat × List Byte)
  | _, [], _ => []
  | a, d, [] => [(a, d)]
  | a, b :: d, k :: ks =>
    let r := strobeRuns (a + 1) d ks
    if k then match r with
      | (x, l) :: q => if x = a + 1 then (a, b :: l) :: q else (a, [b]) :: r
      | [] => [(a, [b])]
    else r
/-- Write the strobed bytes of a request to a memory. -/
def storeRuns (a : Nat) (d : List Byte) (strb : List Bool) (s : State) : State :=
  (strobeRuns a d strb).foldl (fun s r => storeBytes r.1 r.2 s) s
/-- The same to the DRAM: refused as a whole where a byte lies in the system area (09 R264). -/
def dramStore (n x port : Nat) (steward : Bool) (d : List Byte) (strb : List Bool) (s : State) : Bool × State :=
  if !steward && inSystem n x d.length then (false, raise (stackSrc n) 5 (x / 8 * 8 + port * 2 ^ 36) s)
  else (true, (strobeRuns (dramAddr n x) d strb).foldl (fun s r =>
    storeGuarded r.1 r.2 (mergeReads n (natSub r.1 (dramAddr n 0)) r.2.length port [] s)) s)
/-- Bytes written to the dictionary store. -/
def storeStore (a : Nat) (d : List Byte) (strb : List Bool) (s : State) : State :=
  let put (t : Tab Nat) (r : Nat × List Byte) : Tab Nat :=
    r.2.zipIdx.foldl (fun t b => t.set zeroTab (r.1 + b.2) (b.1.toNat + 1)) t
  s.setCtrl { s.ctrl with stored := (strobeRuns a d strb).foldl put s.ctrl.stored }
/-- A write to the enclave window: the strobed bytes of PAGE (17 Table 17.4). -/
def pageWrite (o : Nat) (d : List Byte) (strb : List Bool) (s : State) : State :=
  let new (k : Nat) : Nat :=
    if o ≤ 0x100 + k ∧ 0x100 + k < o + d.length ∧ strb.getD (0x100 + k - o) true then (d.getD (0x100 + k - o) 0).toNat
    else s.encl.page / 256 ^ k % 256
  { s with encl := { s.encl with page := ((List.range 8).map fun k => new k * 256 ^ k).sum } }
/-- 13 R370 to R377: a write: RESP and state. Stewards run the dictionary service, whose own writes of the sets are the loads of
14 R410; any other master's write to register space answers OKAY and has no effect (13 R372). -/
def busWrite (m a : Nat) (priv : Bool) (d : List Byte) (strb : List Bool) (s : State) : Nat × State :=
  let (t, x) := busTarget s.ctrl.remap a
  let n := d.length
  if s.routed m a n true = false then (1, deadLetter m a s)
  else match t with
    | .sram => if sramTakes m x n priv then (0, storeRuns x d strb s) else (2, s)
    | .regs =>
      if n = 4 ∨ n = 8 then
        (0, if m ≤ 1 ∨ a % 65536 < 0x1000 ∨ 0xF000 ≤ a % 65536 then s else configIgnored a s)
      else (2, s)
    | .tally c prog =>
      if prog && (s.core c).busy then (2, raise (coreSrc c) 9 0 s) else (0, storeRuns a d strb s)
    | .enclave =>
      if n = 4 ∨ n = 8 then
        (0, pageWrite (a % 65536) d strb s)
      else (2, s)
    | .store => (0, storeStore x d strb s)
    | .dram =>
      let l := dramLoc (natSub a dramBase)
      if s.stackUp l.1 = false then (2, s)
      else
        let (ok, s1) := dramStore l.1 l.2 (dramPort m) (decide (m ≤ 1)) d strb (usePort l.1 (dramPort m) l.2 n (serveBefore l.1 l.2 n s))
        (if ok then 0 else 2, s1)
    | _ => (1, deadLetter m a s)

/-! ### Requests in the matrix (13 R375 to R378) -/

/-- The number of a target, for its grants. -/
def Target.no : Target → Nat
  | .dead => 0 | .bootRom => 1 | .sram => 2 | .regs => 3 | .tally _ _ => 4 | .enclave => 5 | .store => 6 | .dram => 7
/-- SIZE and BEATS that go together, of a request that a target takes. -/
def MReq.legal (r : MReq) : Bool := !r.dead && (r.data.length == r.beat || r.beat == 16)
/-- The target that a request goes to. -/
def MReq.target (r : MReq) : Nat :=
  if r.legal && routedTo r.remap r.m r.addr r.data.length r.write then (busTarget r.remap r.addr).1.no else 0
/-- A low-alias request issued before REMAP was set (13 R369). -/
def MReq.early (r : MReq) : Bool := decide (r.addr < 0x800000) && !r.remap
/-- A low-alias request issued after it. -/
def MReq.after_ (r : MReq) : Bool := decide (r.addr < 0x800000) && r.remap
/-- Accept the requests whose ID is free, in the order of issue; a request held back holds back every later one of its master
(13 R375). out are the IDs outstanding, stuck the masters held back, early that a low-alias request issued before REMAP was set has no
response yet, which holds back those issued after (R369). -/
def acceptReqs (early : Bool) : List (Nat × Nat) → List Nat → List MReq → List MReq
  | _, _, [] => []
  | out, stuck, r :: l =>
    if r.stage ≠ .held then r :: acceptReqs early out stuck l
    else if stuck.contains r.m || out.contains (r.m, r.id) || (early && r.after_) then r :: acceptReqs early out (r.m :: stuck) l
    else { r with stage := .ready } :: acceptReqs early ((r.m, r.id) :: out) stuck l
/-- The IDs outstanding. -/
def outstanding (l : List MReq) : List (Nat × Nat) := (l.filter fun r => r.stage != .held).map fun r => (r.m, r.id)
/-- The grant of a target among its ready requests (13 R378): a Steward every second grant, the others in turn of their master
numbers after the last one granted. last is twice that master, plus 1 where a Steward had the last grant. -/
def pickReq (last : Nat) (l : List MReq) : Option MReq :=
  let stew := l.find? fun r => decide (r.m ≤ 1)
  let others := l.filter fun r => decide (2 ≤ r.m)
  let turn (m : Nat) : Nat := (m + 10 - last / 2) % 11
  let next := others.foldl (fun (b : Option MReq) r => match b with
    | none => some r
    | some q => if turn r.m < turn q.m then some r else b) none
  match stew, next with
  | some q, none => some q
  | some q, some r => if last % 2 = 0 then some q else some r
  | none, n => n
/-- The next grant: of the target of the first ready request. -/
def State.nextGrant (s : State) : Option MReq :=
  let l := s.ctrl.reqs.filter fun r => r.stage == .ready
  match l with
  | [] => none
  | r :: _ =>
    let t := r.target
    pickReq (s.ctrl.grants.get zeroTab t) (l.filter fun q => q.target == t)
/-- A target grants master m a request (13 R378). -/
def noteGrant (m t : Nat) (s : State) : State :=
  let last := s.ctrl.grants.get zeroTab t
  s.setCtrl { s.ctrl with grants := s.ctrl.grants.set zeroTab t (if m ≤ 1 then last / 2 * 2 + 1 else 2 * m) }
/-- REMAP set to b; a request is performed under REMAP as it was at its issue (R369). -/
def setRemap (b : Bool) (s : State) : State := s.setCtrl { s.ctrl with remap := b }
/-- A granted request is performed at its target and answered; one for the DRAM goes to its stack's queue (09 R267). -/
def performReq (r : MReq) (s0 : State) : State :=
  let t := r.target
  let s := noteGrant r.m t s0
  let l := dramLoc (natSub r.addr dramBase)
  if t = 7 ∧ r.strb = [] then
    arriveReq l.1 { port := dramPort r.m, x := l.2, len := r.data.length, wr := if r.write then some r.data else none,
                    tag := (r.m, r.id, r.epoch), late := r.late, ecc := r.ecc }
      (s.setCtrl { s.ctrl with reqs := s.ctrl.reqs.map fun q => if q = r then { q with stage := .dram } else q })
  else if t = 0 then
    busAnswer r.m r.id r.epoch 1 r.beat (!r.write) (if r.write then [] else List.replicate r.data.length 0) (deadLetter r.m r.addr s)
  else if r.write then
    let (resp, s1) := busWrite r.m r.addr r.priv r.data r.strb (setRemap r.remap s)
    busAnswer r.m r.id r.epoch resp r.beat false [] (setRemap s.ctrl.remap s1)
  else
    let (resp, d, s1) := busRead r.m r.addr r.data.length r.priv r.ecc (setRemap r.remap s)
    busAnswer r.m r.id r.epoch resp r.beat true d (setRemap s.ctrl.remap s1)
/-- The matrix accepts and grants until nothing is ready. -/
def matrixGo : Nat → State → State
  | 0, s => s
  | f + 1, s =>
    let s1 := s.setCtrl { s.ctrl with
      reqs := acceptReqs (s.ctrl.reqs.any MReq.early) (outstanding s.ctrl.reqs) [] s.ctrl.reqs }
    match s1.nextGrant with
    | some r => matrixGo f (performReq r s1)
    | none => s1
def matrixRun (s : State) : State := if s.ctrl.reqs.isEmpty then s else matrixGo (2 * s.ctrl.reqs.length) s
/-- A master issues a request. -/
def issueReq (r : MReq) (s : State) : State :=
  matrixRun (s.setCtrl { s.ctrl with reqs := s.ctrl.reqs ++ [{ r with epoch := s.epochOf r.m, remap := s.ctrl.remap }] })
/-- A request that a master issues, with the reports of the words it reads (13 Table 13.3). -/
def busLen (q : BusReq) : Nat := 2 ^ q.size.toNat * (q.beats.toNat + 1)
def issueBus (m : Nat) (q : BusReq) (ecc : List (Nat × Ecc)) (s : State) : State :=
  issueReq { m := m, id := q.id.toNat, epoch := 0, write := q.write, priv := q.priv, addr := q.addr.toNat,
             data := if q.write then q.data else List.replicate (busLen q) 0, strb := q.strb, beat := 2 ^ q.size.toNat, ecc := ecc } s
/-- The DRAM serves a master's waiting requests, tokens or not: the wait itself is not modelled (DESIGN CHOICE, assumption 188). -/
def forceReqs (k m : Nat) (s : State) : State := serveNow k (fun r => (r.port == 0 || r.port == 6) && r.tag.1 == m) s
/-- A master waits until its ID is free and nothing of its is held back (13 R375). -/
def settleReqs (m id : Nat) : Nat → State → State
  | 0, s => s
  | f + 1, s =>
    if s.ctrl.reqs.any fun r => r.m == m && (r.id == id || r.stage == .held) then
      settleReqs m id f (matrixRun (forRange 4 (fun k s => forceReqs k m s) s))
    else s
/-- The address in its memory of a word that a bus address reads. -/
def State.memAddr (s : State) (a : Nat) : Nat :=
  match busTarget s.ctrl.remap a with
  | (.tally _ prog, _) => a % (if prog then 0x80000 else 0x100000)
  | (.dram, _) => (dramLoc (natSub a dramBase)).2
  | (_, x) => x
/-- Reports given by bus address, by the address in the memory of the words of one access. -/
def State.memEcc (s : State) (ecc : List (Nat × Ecc)) (a n : Nat) : List (Nat × Ecc) :=
  (ecc.filter fun e => decide (a / 8 ≤ e.1 / 8 ∧ e.1 / 8 ≤ (a + n - 1) / 8)).map fun e => (s.memAddr (e.1 / 8 * 8), e.2)
/-- A master that waits for its answer gets the grant of its target. -/
def ownGrant (m id a n : Nat) (write : Bool) (s : State) : State :=
  noteGrant m (if s.routed m a n write then (busTarget s.ctrl.remap a).1.no else 0) (settleReqs m id s.ctrl.reqs.length s)
/-- A read by a master that goes on only with its answer, under an ID. -/
def masterRead (m id a n : Nat) (priv : Bool) (ecc : List (Nat × Ecc)) (s : State) : Nat × List Byte × State :=
  busRead m a n priv ecc (ownGrant m id a n false s)
/-- The same for a write. -/
def masterWrite (m id a : Nat) (priv : Bool) (d : List Byte) (s : State) : Nat × State :=
  busWrite m a priv d [] (ownGrant m id a d.length true s)

/-- A Steward's number issues requests: that of the port that serves, while control service runs (13 R381, R385). -/
def PairSt.serves (p : PairSt) : Bool := p == .lockstep || p == .soloA || p == .soloB || p == .resync
def State.mayRequest (s : State) (m : Nat) : Bool := decide (2 ≤ m) || (s.ctrl.pair.serves && m == b2n s.ctrl.issuer)
/-- The service answers at once: control service runs and nothing waits. -/
def State.servesNow (s : State) : Bool := s.ctrl.pair.serves && s.dict.waiting.isEmpty
/-- A request to the service; during an interruption, and behind others that wait, it waits (13 R385). -/
def atService (w : Waiting) (f : State → State) (s : State) : State :=
  if s.dict.up && !s.servesNow then { s with dict := { s.dict with waiting := s.dict.waiting ++ [w] } } else f s
/-- The debug master is reached through the TAP, under its own instruction (19 R538). -/
def debugTap (m : Nat) (s : State) : State := { s with tap := if m = 10 then .debug else s.tap }
/-- An access that the matrix routes to the dead-letter target (13 R379); it waits for its ID as any request does (R375). -/
def deadAccessOp (m id a : Nat) (write : Bool) (n : Nat) (s : State) : State :=
  if s.mayRequest m then
    issueReq { m := m, id := id, epoch := 0, write := write, priv := false, addr := a, data := List.replicate n 0, dead := true } s
  else s
def execDeadLetterAccess (q : BusTag) (a : BitVec 40) (write : Bool) (n : Nat) (s : State) : Host.Outcome State Fault Refusal :=
  .next (deadAccessOp q.m q.id.toNat a.toNat write n (debugTap q.m s))

/-- 09 R269: a request reaches a stack's port. One of the control or Courier port is a request of a master on the bus matrix (13 R370,
R375), which reaches the port that Table 13.2 gives it; any other is a scheduled port's own. -/
def requestOp (n port m id x len : Nat) (wr : Option (List Byte)) (late : Bool) (ecc : List (Nat × Ecc)) (s : State) : State :=
  let size := match wr with | some d => d.length | none => len
  if port = 0 ∨ port = 6 then
    if s.mayRequest m then
      issueReq { m := m, id := id, epoch := 0, write := wr.isSome, priv := false, addr := dramAddr n x,
                 data := wr.getD (List.replicate len 0), beat := min size 16, late := late, ecc := ecc } s
    else s
  else arriveReq n { port := port, x := x, len := size, wr := wr, tag := (m, id, s.epochOf m), late := late, ecc := ecc } s
def execDramRequestIssue (st : Fin 4) (port : Fin 7) (q : BusTag) (x : Fin 51539607552) (len : Nat)
    (wr : Option (List Byte)) (late : Bool) (ecc : List (Nat × Ecc)) (s : State) : Host.Outcome State Fault Refusal :=
  .next (requestOp st port q.m q.id.toNat x len wr late ecc (debugTap q.m s))

/-! ### Master resets (13 R380) -/

/-- A master reset inverts the epoch and is counted. -/
def invertEpoch (m : Nat) (s : State) : State :=
  s.setCtrl { s.ctrl with epoch := s.ctrl.epoch.set zeroTab m (1 - s.ctrl.epoch.get zeroTab m)
                          resets := s.ctrl.resets.set zeroTab m (satAdd 32 (s.ctrl.resets.get zeroTab m) 1) }
/-- 13 R380: requests not yet accepted are discarded; accepted writes are completed, with no response; the IDs are retired and the epoch
inverts. What waits at the DRAM is still performed there. -/
def masterResetOp (m : Nat) (s : State) : State :=
  let mine := s.ctrl.reqs.filter fun r => r.m == m
  let s1 := s.setCtrl { s.ctrl with reqs := s.ctrl.reqs.filter fun r => r.m != m }
  let s2 := (mine.filter fun r => r.write && r.stage == .ready).foldl (fun s r =>
    if r.target = 0 then deadLetter m r.addr s
    else setRemap s.ctrl.remap (busWrite m r.addr r.priv r.data r.strb (setRemap r.remap s)).2) s1
  invertEpoch m s2
/-- 13 R380, step 2: a write whose last beat has not entered the matrix has no effect; accepted are the IDs of those that have. -/
def dropWrites (m : Nat) (accepted : List (BitVec 4)) (s : State) : State :=
  s.setCtrl { s.ctrl with reqs := s.ctrl.reqs.filter fun r =>
                          !(r.m == m && r.write && r.stage == .ready && !accepted.any fun i => i.toNat == r.id) }
def execMasterReset (m : Fin 11) (accepted : List (BitVec 4)) (s : State) : Host.Outcome State Fault Refusal :=
  .next (masterResetOp m (dropWrites m accepted s))

/-- The firmware image as the boot ROM holds it (13 R369); at most the firmware's part of the working SRAM. -/
def imageBytes : List Byte :=
  (List.range (Config.imageLen % 0x680001)).map fun k => BitVec.ofNat 8 (Config.bootRom (Config.imageAt + k))
/-- 13 R369: the boot code has copied the firmware image into working SRAM, and a Steward sets REMAP. Requests issued before keep the map
they were issued under. -/
def remapOp (s : State) : State :=
  let s1 := if s.ctrl.remap then s else storeBytes sramBase imageBytes s
  s1.setCtrl { s1.ctrl with remap := true }
def execRemapSet (s : State) : Host.Outcome State Fault Refusal := .next (remapOp s)

end Sys2Proof.Machine
end

