-- ==== Sys2Proof/Machine/Courier.lean ====
section
/-! DEFINITION. The Courier (11): rings, descriptors, Letterbox, slots, transfers, completion, events and errors. -/

namespace Sys2Proof.Machine

open Sys2Proof

def ringInit : Nat → Ring := fun _ => {}
def State.setCour (s : State) (c : Courier) : State := { s with cour := c }
def State.ring (s : State) (r : Nat) : Ring := s.cour.ring.get ringInit r
def State.setRing (s : State) (r : Nat) (v : Ring) : State := s.setCour { s.cour with ring := s.cour.ring.set ringInit r v }
def courSrc : Nat := 0xA20

/-! ### Commands (11 R318, R319) -/

/-- A refused command. -/
def ringRefuse (r : Nat) (s : State) : State :=
  raise courSrc 5 r (s.setCour { s.cour with refused := satAdd 32 s.cour.refused 1 })
/-- A ring goes to the back of the ready list, or leaves it. -/
def ready (r : Nat) (s : State) : State := s.setCour { s.cour with ready := s.cour.ready.filter (fun x => x != r) ++ [r] }
def unready (r : Nat) (s : State) : State := s.setCour { s.cour with ready := s.cour.ready.filter fun x => x != r }
/-- Rings 0 to 4,095 take commands and Letterbox writes from the firmware only (11 R312). -/
def ringForbidden (r : Nat) (fw : Bool) : Bool := decide (r < 4096) && !fw
/-- A ring_command record (11 Table 11.2). -/
def ringRecord (op r prio addr : Nat) : Nat := r + 2 ^ 24 * op + 2 ^ 28 * prio + 2 ^ 64 * addr
/-- A ring command: the firmware's waits while control service is interrupted, as one that is written does (13 R385). -/
def ringWait (w : Nat) (fw : Bool) : Waiting := if fw then .ring w else .object 0x8200 2 (toBytes 16 w)
/-- START. -/
def ringStartOp (r prio addr : Nat) (fw : Bool) (s : State) : State :=
  let v := s.ring r
  let idle := v.st == .stopped || v.st == .error
  if ringForbidden r fw ∨ addr % 32 ≠ 0 then ringRefuse r s
  else if addr ≠ 0 ∧ (v.st = .disabled ∨ idle) then
    ready r (s.setRing r { v with st := .running, cur := addr, atLink := false, done := 0, prio := prio, pending := false,
                                  stopReq := false, resetStop := false, error := 0, desc := none, link := false, wake := false,
                                  lost := false })
  else if addr = 0 ∧ idle ∧ v.lost = false then
    let v1 := { v with st := .running, prio := prio, resetStop := false, error := 0, desc := none, wake := false }
    if v.atLink then s.setRing r { v1 with link := true } else ready r (s.setRing r { v1 with link := false })
  else ringRefuse r s
def execRingStart (r : Fin 262144) (prio : Fin 4) (addr : BitVec 40) (fw : Bool) (s : State) : Host.Outcome State Fault Refusal :=
  .next (atService (ringWait (ringRecord 1 r prio addr.toNat) fw) (ringStartOp r prio addr.toNat fw) s)
/-- STOP. -/
def ringStopOp (r : Nat) (fw : Bool) (s : State) : State :=
  let v := s.ring r
  if ringForbidden r fw then ringRefuse r s
  else match v.st with
    | .running => s.setRing r { v with stopReq := true }
    | .parked => s.setRing r { v with st := .stopped }
    | .stopped => s
    | _ => ringRefuse r s
def execRingStop (r : Fin 262144) (fw : Bool) (s : State) : Host.Outcome State Fault Refusal :=
  .next (atService (ringWait (ringRecord 2 r 0 0) fw) (ringStopOp r fw) s)
/-- DISABLE. -/
def ringDisableOp (r : Nat) (fw : Bool) (s : State) : State :=
  let v := s.ring r
  if ringForbidden r fw then ringRefuse r s
  else if (v.st = .stopped ∨ v.st = .error) ∧ v.lost = false then s.setRing r {} else ringRefuse r s
def execRingDisable (r : Fin 262144) (fw : Bool) (s : State) : Host.Outcome State Fault Refusal :=
  .next (atService (ringWait (ringRecord 3 r 0 0) fw) (ringDisableOp r fw) s)
/-- SET_PRIO: a ring in a list goes to the back of its new list. -/
def setPrioOp (r prio : Nat) (fw : Bool) (s : State) : State :=
  if ringForbidden r fw ∨ (s.ring r).lost then ringRefuse r s
  else
    let s1 := s.setRing r { s.ring r with prio := prio }
    if s.cour.ready.contains r then ready r s1 else s1
def execSetPrio (r : Fin 262144) (prio : Fin 4) (fw : Bool) (s : State) : Host.Outcome State Fault Refusal :=
  .next (atService (ringWait (ringRecord 4 r prio 0) fw) (setPrioOp r prio fw) s)
/-- 11 R322, Table 11.4: a Letterbox write of r, or a ring event. -/
def letterboxAct (r : Nat) (s : State) : State :=
  let s1 := s.setCour { s.cour with doorbells := satAdd 64 s.cour.doorbells 1 }
  let v := s1.ring r
  match v.st with
  | .running => s1.setRing r { v with pending := true }
  | .parked => s1.setRing r { v with st := .running, link := true, wake := true }
  | _ => s1
def letterboxOp (r : Nat) (fw : Bool) (s : State) : State :=
  if ringForbidden r fw then ringRefuse r (s.setCour { s.cour with doorbells := satAdd 64 s.cour.doorbells 1 })
  else letterboxAct r s
def execLetterbox (r : Fin 262144) (fw : Bool) (s : State) : Host.Outcome State Fault Refusal := .next (letterboxOp r fw s)

/-- A ring_command record (11 Table 11.2) written as an object. -/
def ringCommandOp (w : Nat) (fw : Bool) (s : State) : State :=
  let r := bits 17 0 w
  match bits 27 24 w with
  | 1 => ringStartOp r (bits 29 28 w) (bits 103 64 w) fw s
  | 2 => ringStopOp r fw s
  | 3 => ringDisableOp r fw s
  | 4 => setPrioOp r (bits 29 28 w) fw s
  | _ => ringRefuse r s

/-! ### Slots (11 R313) -/

/-- The slot that runs a ring. -/
def noSlot : Nat → Option Nat := fun _ => none
def State.slotsBusy (s : State) : Nat := s.cour.slot.length
def State.inSlot (s : State) (r : Nat) : Bool := s.cour.slot.any fun e => e.2 == some r
def freeSlot (r : Nat) (s : State) : State := s.setCour { s.cour with slot := s.cour.slot.filter fun e => e.2 != some r }
/-- The ring at the head of the highest non-empty list. -/
def State.nextRing (s : State) : Option Nat :=
  let l := s.cour.ready
  let top := maxOf (l.map fun r => (s.ring r).prio)
  l.find? fun r => (s.ring r).prio == top
def slotGrantOp (s : State) : State :=
  match s.nextRing, (List.range 16).find? fun k => (s.cour.slot.get noSlot k).isNone with
  | some r, some k => let s1 := unready r s; s1.setCour { s1.cour with slot := s1.cour.slot.set noSlot k (some r) }
  | _, _ => s
def execSlotGrant (s : State) : Host.Outcome State Fault Refusal := .next (slotGrantOp s)

/-! ### Accesses (11 R317, R325) -/

/-- A DRAM-window access lies wholly within a Courier window of the active set. -/
def State.windowOk (s : State) (a n : Nat) : Bool :=
  if a + n ≤ dramBase ∨ dramBase + 8 * stackSize ≤ a then true
  else (List.range 8).any fun w =>
    let b := s.cfg (ob 0x8200 (0x10 + w))
    let z := s.cfg (ob 0x8200 (0x18 + w))
    decide (b ≤ a ∧ a + n ≤ b + z)
/-- The split of one side of a transfer (11 R325): address and length of each access. -/
def splitSide : Nat → Nat → Nat → List (Nat × Nat)
  | 0, _, _ => []
  | f + 1, a, n =>
    if n = 0 then []
    else if a % 16 ≠ 0 then
      let z := (([8, 4, 2, 1].find? fun z => a % z == 0 && decide (z ≤ n)).getD 1)
      (a, z) :: splitSide f (a + z) (n - z)
    else if 16 ≤ n then
      let z := min (256 - a % 256) (16 * (n / 16))
      (a, z) :: splitSide f (a + z) (n - z)
    else
      let z := (([8, 4, 2, 1].find? fun z => decide (z ≤ n)).getD 1)
      (a, z) :: splitSide f (a + z) (n - z)
/-- The accesses of a side; each moves at least one byte. -/
def accesses (a n : Nat) : List (Nat × Nat) := splitSide n a n
/-- Why an access failed: the code of Table 11.6 and the bus address. -/
abbrev AccErr := Nat × Nat
/-- 11 R316: a firmware ring's accesses are privileged. -/
def ringPriv (r : Nat) : Bool := decide (r < 4096)
/-- The transaction ID of a ring's accesses: its slot's number (11 R313); a link read, which has no slot, takes that of a slot without
a ring (DESIGN CHOICE, assumption 198). -/
def State.slotId (s : State) (r : Nat) : Nat :=
  let k := ((List.range 16).find? fun k => s.cour.slot.get noSlot k == some r).orElse fun _ =>
    (List.range 16).find? fun k => (s.cour.slot.get noSlot k).isNone
  k.getD 0
/-- One read of the Courier for a ring: the window check, then the bus. -/
def courRead (r a n err : Nat) (ecc : List (Nat × Ecc)) (s : State) : Except AccErr (List Byte) × State :=
  if s.windowOk a n = false then (.error (4, a), s)
  else
    let (resp, d, s1) := masterRead 6 (s.slotId r) a n (ringPriv r) (s.memEcc ecc a n) s
    if resp = 0 then (.ok d, s1) else (.error (err, a), s1)
/-- Read the accesses of the source in order: the bytes read before the first that fails, and its error. -/
def readAll (r : Nat) (ecc : List (Nat × Ecc)) : List (Nat × Nat) → State → List Byte × Option AccErr × State
  | [], s => ([], none, s)
  | (a, n) :: l, s =>
    match courRead r a n 2 ecc s with
    | (.ok d, s1) => let (b, e, s2) := readAll r ecc l s1; (d ++ b, e, s2)
    | (.error e, s1) => ([], some e, s1)
/-- Write the accesses of the destination in order from bytes; stops at the first that fails. -/
def writeAll (r : Nat) : List (Nat × Nat) → List Byte → State → Option AccErr × State
  | [], _, s => (none, s)
  | (a, n) :: l, d, s =>
    if s.windowOk a n = false then (some (4, a), s)
    else
      let (resp, s1) := masterWrite 7 (s.slotId r) a (ringPriv r) (d.take n) s
      if resp = 0 then writeAll r l (d.drop n) s1 else (some (3, a), s1)
/-- 11 R326: the bytes as the destination receives them; inside an overlap with DST above SRC each one is some byte of the
source range. src are the bytes read, from SRC on. -/
def overlapped (d : Desc) (src : List Byte) (s : State) : List Byte × State :=
  if d.src < d.dst ∧ d.dst < d.src + d.len then
    let (k, s1) := s.draw
    ((src.zipIdx).map fun b =>
      if d.dst + b.2 < d.src + d.len then src.getD (Config.overlapByte b.2 k % max 1 src.length) 0 else b.1, s1)
  else (src, s)
/-- Some of the writes whose bytes have been read, in order; how many is a free value. -/
def someWrites (r : Nat) (d : Desc) (src : List Byte) (s : State) : State :=
  let (bs, s1) := overlapped d src s
  let (k, s2) := s1.draw
  let can := (accesses d.dst d.len).filter fun w => decide (w.1 + w.2 ≤ d.dst + src.length)
  (writeAll r (can.take (Config.writesDone k % (can.length + 1))) bs s2).2
/-- A descriptor's transfer: the error, if an access fails, and the state. Where a read fails, some writes were made. -/
def transfer (r : Nat) (d : Desc) (ecc : List (Nat × Ecc)) (s : State) : Option AccErr × State :=
  let (src, e, s1) := readAll r ecc (accesses d.src d.len) s
  match e with
  | none =>
    let (bs, s2) := overlapped d src s1
    writeAll r (accesses d.dst d.len) bs s2
  | some e => (some e, someWrites r d src s1)
/-- A transfer that ends early: a free number of its reads and of its writes were made (11 R331, R333). -/
def cutTransfer (r : Nat) (ecc : List (Nat × Ecc)) (s : State) : State :=
  let v := s.ring r
  match v.desc with
  | some d =>
    if v.st = .running ∧ s.inSlot r then
      let (k, s1) := s.draw
      let rs := accesses d.src d.len
      let (src, _, s2) := readAll r ecc (rs.take (Config.writesDone k % (rs.length + 1))) s1
      someWrites r d src s2
    else s
  | none => s

/-! ### Events (11 R330) -/

/-- A pulse to a Tally core's event input (12 R352). -/
def tallyEvent (c k : Nat) (s : State) : State :=
  let v := s.core c
  if bit k v.ipend.toNat then s.setCore c { v with merged := satAdd 32 v.merged 1 }
  else s.setCore c { v with ipend := v.ipend ||| BitVec.ofNat 32 (2 ^ k) }
/-- The event of a completed descriptor. -/
def sendEvent (r : Nat) (d : Desc) (s : State) : State :=
  match d.evtClass with
  | 0 => tallyEvent (d.evtNum / 16 % 4) (d.evtNum % 16) s
  | 1 => letterboxAct d.evtNum s
  | 2 =>
    let m := s.out.eseq % 2 ^ 32 + 2 ^ 32 * r + 2 ^ 56 * d.tag + 2 ^ 64 * s.pm
    s.setCour { s.cour with marks := s.cour.marks.set zeroTab (d.evtNum % 16) m }
  | _ => s
/-- 11 Table 11.6, code 0x05: a class or number that Table 11.5 does not have, whether or not the event is enabled, or an event that
R312 forbids. -/
def descBad (r : Nat) (d : Desc) : Bool :=
  d.evtClass == 3 || (d.evtClass == 0 && decide (64 ≤ d.evtNum)) || (d.evtClass == 2 && decide (16 ≤ d.evtNum))
    || (d.evtEn && d.evtClass == 1 && decide (4096 ≤ r ∧ d.evtNum < 4096))

/-! ### Ring steps (11 R319, R327, R331) -/

/-- The Postcard kind of an error code (11 Table 11.6). -/
def ringKind (code : Nat) : Nat := if code = 1 then 1 else if code = 4 then 3 else if code = 5 then 4 else if code = 6 then 7 else 2
/-- A ring goes to ERROR. -/
def ringFail (r code addr : Nat) (link : Bool) (s : State) : State :=
  let s1 := unready r (freeSlot r s)
  let v := s1.ring r
  let s2 := s1.setRing r { v with st := .error, error := code, atLink := link, desc := none, link := false, wake := false }
  raise courSrc (ringKind code) r (s2.setCour { s2.cour with
    errors := satAdd 32 s2.cour.errors 1
    lastRing := r
    lastAddr := addr })
/-- The descriptor of 32 bytes (11 Table 11.1). -/
def descOf (w : Nat) : Desc :=
  { eoc := bit 0 w, next := bits 39 5 w * 32, src := bits 103 64 w, dst := bits 167 128 w, len := bits 215 192 w,
    barrier := bit 216 w, evtEn := bit 217 w, evtClass := bits 219 218 w, evtNum := bits 241 224 w, tag := bits 255 248 w }
/-- A descriptor read returns. -/
def fetchedOp (r : Nat) (ecc : List (Nat × Ecc)) (s : State) : State :=
  let v := s.ring r
  if v.st = .running ∧ s.inSlot r ∧ v.desc.isNone ∧ v.link = false then
    match courRead r v.cur 32 1 ecc s with
    | (.error e, s1) => ringFail r e.1 e.2 false s1
    | (.ok b, s1) =>
      let d := descOf (ofBytes b)
      if descBad r d then ringFail r 5 v.cur false s1 else s1.setRing r { v with desc := some d }
  else s
def execDescriptorFetched (r : Fin 262144) (ecc : List (Nat × Ecc)) (s : State) : Host.Outcome State Fault Refusal :=
  .next (fetchedOp r ecc s)
/-- 11 R327: the completion of a descriptor, then the boundary of Table 11.4. -/
def completed (r : Nat) (d : Desc) (s : State) : State :=
  let v := s.ring r
  let s1 := s.setRing r { v with done := (v.done + 1) % 2 ^ 32, lastTag := d.tag, desc := none }
  let s2 := s1.setCour { s1.cour with done := satAdd 64 s1.cour.done 1, moved := satAdd 64 s1.cour.moved d.len }
  let s3 := freeSlot r (if d.evtEn then sendEvent r d s2 else s2)
  let w := s3.ring r
  if w.stopReq then s3.setRing r { w with st := .stopped, stopReq := false, pending := false, atLink := true }
  else if d.eoc then s3.setRing r { w with atLink := true, pending := false, link := true, wake := false }
  else ready r (s3.setRing r { w with cur := d.next })
/-- 11 R327: with BARRIER = 0 a descriptor is complete when its last write has been issued, so an error response to that write finds
it complete (DEDUCED, assumption 195). -/
def lastWrite (d : Desc) (e : AccErr) : Bool := !d.barrier && e.1 == 3 && (accesses d.dst d.len).getLast?.map (·.1) == some e.2
/-- CUR stays on a failing descriptor (11 R331). -/
def atDesc (r cur : Nat) (s : State) : State := s.setRing r { s.ring r with cur := cur, atLink := false }
def completeOp (r : Nat) (ecc : List (Nat × Ecc)) (s : State) : State :=
  let v := s.ring r
  match v.desc with
  | some d =>
    if v.st = .running ∧ s.inSlot r then
      match transfer r d ecc s with
      | (some e, s1) => if lastWrite d e then ringFail r e.1 e.2 false (atDesc r v.cur (completed r d s1)) else ringFail r e.1 e.2 false s1
      | (none, s1) => completed r d s1
    else s
  | none => s
def execDescriptorComplete (r : Fin 262144) (ecc : List (Nat × Ecc)) (s : State) : Host.Outcome State Fault Refusal :=
  .next (completeOp r ecc s)
/-- A link-word read returns (11 Table 11.4). -/
def linkOp (r : Nat) (ecc : List (Nat × Ecc)) (s : State) : State :=
  let v := s.ring r
  if v.st = .running ∧ v.link then
    match courRead r v.cur 8 1 ecc s with
    | (.error e, s1) => ringFail r e.1 e.2 true s1
    | (.ok b, s1) =>
      let w := ofBytes b
      if v.stopReq then s1.setRing r { v with st := .stopped, stopReq := false, pending := false, link := false, wake := false }
      else if bit 0 w = false then
        let s2 := if v.wake then s1.setCour { s1.cour with wakes := satAdd 64 s1.cour.wakes 1 } else s1
        ready r (s2.setRing r { v with cur := bits 39 5 w * 32, atLink := false, link := false, wake := false })
      else if v.pending then s1.setRing r { v with pending := false, wake := true }
      else s1.setRing r { v with st := .parked, link := false, wake := false }
  else s
def execLinkReadDone (r : Fin 262144) (ecc : List (Nat × Ecc)) (s : State) : Host.Outcome State Fault Refusal :=
  .next (linkOp r ecc s)
/-- 11 R331, R332: the context's check, and a transfer whose access fails. A falsely corrected bit (16 R465) is one of the word of CUR and is
written back (DESIGN CHOICE, assumption 204). -/
def ringErrorOp (r : Nat) (ctx : Ecc) (ecc : List (Nat × Ecc)) (s : State) : State :=
  let (k, test, s1) := eccCheck courSrc 1 ctx s
  match k with
  | .uncorrectable =>
    let s2 := unready r (freeSlot r (cutTransfer r ecc s1))
    let s3 := s2.setRing r { st := .error, error := 6, lost := true }
    raiseT test courSrc 7 r (s3.setCour { s3.cour with
      ctxUncorr := satAdd 32 s3.cour.ctxUncorr 1
      errors := satAdd 32 s3.cour.errors 1
      lastRing := r
      lastAddr := 0 })
  | .corrected =>
    let s2 := match eccFlip courSrc 1 ctx s with
      | some b => if b < 40 then s1.setRing r { s1.ring r with cur := (s1.ring r).cur ^^^ 2 ^ b } else s1
      | none => s1
    raiseT test courSrc 6 r (s2.setCour { s2.cour with ctxCorr := satAdd 32 s2.cour.ctxCorr 1 })
  | .ok =>
    let v := s1.ring r
    match v.desc with
    | some d =>
      if v.st = .running ∧ s1.inSlot r then
        match transfer r d ecc s1 with
        | (some e, s2) => if lastWrite d e then s1 else ringFail r e.1 e.2 false s2
        | (none, _) => s1
      else s1
    | none => s1
def execRingError (r : Fin 262144) (ctx : Ecc) (ecc : List (Nat × Ecc)) (s : State) : Host.Outcome State Fault Refusal :=
  .next (ringErrorOp r ctx ecc s)

/-! ### Reset and objects (11 R333, R335) -/

/-- A per-block reset of the Courier, its bus transactions included (13 R380). -/
def courReset (s0 : State) : State :=
  let s := (s0.cour.slot.filterMap fun e => e.2).foldl (fun s r => cutTransfer r [] s) s0
  let rings := s.cour.ring.map fun e =>
    let v := e.2
    (e.1, if v.st = .running ∨ v.st = .parked then
        { v with st := RingSt.stopped, resetStop := true, atLink := v.atLink, pending := false, stopReq := false, desc := none,
                 link := false, wake := false }
      else { v with pending := false, stopReq := false })
  masterResetOp 7 (masterResetOp 6 (s.setCour { s.cour with ring := rings, ready := [], slot := [] }))
/-- The soft reset: every ring DISABLED (18 Table 18.6). -/
def courSoft (s : State) : State := s.setCour { s.cour with ring := [], ready := [], slot := [] }
def RingSt.code : RingSt → Nat | .disabled => 0 | .running => 1 | .parked => 2 | .stopped => 3 | .error => 4
/-- A ring status element (11 Table 11.3). -/
def Ring.status (v : Ring) : Nat :=
  v.st.code + 8 * b2n v.pending + 16 * b2n v.stopReq + 32 * b2n v.atLink + 64 * b2n v.resetStop + 256 * v.error
    + 65536 * v.prio + 2 ^ 24 * v.lastTag + 2 ^ 32 * v.done + 2 ^ 64 * v.cur
/-- Courier objects that are read as numbers. -/
def courRead_ (sub : Nat) (s : State) : Nat :=
  let c := s.cour
  match sub with
  | 4 => c.doorbells | 5 => c.wakes | 6 => c.done | 7 => c.moved | 8 => c.errors | 9 => c.lastRing | 0xA => c.lastAddr
  | 0xB => c.ctxCorr | 0xC => c.ctxUncorr | 0xD => c.refused | 0xF => s.slotsBusy | _ => 0

end Sys2Proof.Machine
end

