-- ==== Sys2Proof/Machine/Sparing.lean ====
section
/-! DEFINITION. Cell sparing (16 R467 to R480): the Rambler's comparison, promotion, self-test, rejoin, rotation and the
fallback without a standby. -/

namespace Sys2Proof.Machine

open Sys2Proof

/-! ### Access -/

/-- The position that a slot serves, if it serves one. -/
def Cluster.posOf (v : Cluster) (slot : Nat) : Option Nat := let p := v.slots.idxOf slot; if p < v.slots.length then some p else none
/-- The slot that serves a position. -/
def Cluster.slotAt (v : Cluster) (p : Nat) : Nat := v.slots.getD p 0
/-- The local channel of a pass that position p of cluster k works, 0xFFFF where none applies (16 R481). -/
def State.passChan (s : State) (k p : Nat) : Nat :=
  match s.fab.win with
  | some w => w.chans.getD (s.posSt k p).pass 0xFFFF
  | none => 0xFFFF
/-- The address of a cell-slot Postcard (16 R481). -/
def cellAddr (p chan : Nat) : Nat := p % 16 + 16 * (chan % 65536)
/-- The number of the pass that position p of cluster k works, counted since START (16 R467): a position that correlates nothing goes with
the pass that the fabric works. -/
def State.passNo (s : State) (k p : Nat) : Nat :=
  match s.fab.win with
  | some w => if (s.corrIndex (s.winSet w) k p).isSome then s.fab.passBase + (s.posSt k p).pass else s.curPass
  | none => s.curPass
/-- Every slot of a cluster is OK. -/
def Cluster.allOk (v : Cluster) : Bool := (List.range 18).all fun n => v.slot n == .ok

/-! ### The audit (16 R467 to R470) -/

/-- The Rambler makes no audit: its held folds are released. -/
def dropAudit (k : Nat) (s : State) : State :=
  let v := s.cl k
  releaseFolds k (s.setCl k { v with queue := v.queue.map fun f => { f with held := false } })
/-- Reports against two different slots within 16 passes (16 R470): the second accuses the Rambler. -/
def Cluster.accused (v : Cluster) (slot pass : Nat) : Bool := v.hist.any fun h => h.1 != slot && decide (pass < h.2 + 16)
/-- The Rambler audits position p out of turn in a pass (16 R473). -/
def Cluster.outOfTurn (v : Cluster) (p pass : Nat) : Bool := match v.audit with | some (q, last) => q == p && decide (pass ≤ last) | none => false
/-- A mismatch at position p: the Postcard of the slot or of the Rambler, and its history. Gives whether the position's
work is withdrawn from now on. In the audit after a takeover the slot that came in is at fault (16 R473; DEDUCED, assumption 223). -/
def mismatchCard (k p slot chan pass : Nat) (test : Bool) (s : State) : Bool × State :=
  let v := s.cl k
  let s1 := s.setCl k { v with hist := (slot, pass) :: v.hist.filter fun h => decide (pass < h.2 + 16) }
  if v.accused slot pass && !v.outOfTurn p pass then (false, raiseT test (cellSrc k 17) 6 (cellAddr p chan) s1)
  else (!test, raiseT test (cellSrc k slot) 1 (cellAddr p chan) s1)
/-- The injection on the comparison of a slot's folds (16 Table 16.8, checker 4). -/
def compareInject (k slot : Nat) (s : State) : Bool × Bool × State :=
  match injFor (cellSrc k slot) 4 s with
  | some i => (true, !i.react, injCount i s)
  | none => (false, false, s)
/-- Withdraw a fold (16 R468). -/
def withdrawFold (k : Nat) (f : FoldItem) (s : State) : State := withdraw k ⟨f.c, f.block, f.x0, f.j, f.strip, f.e0, f.e1⟩ s
/-- The comparison of an audited segment, or of an audited beam sum, ends. -/
def compareOp (k : Nat) (mismatch : Bool) (s : State) : State :=
  let v := s.cl k
  match v.queue.find? fun f => f.held with
  | some f =>
    let (inj, test, s1) := compareInject k f.slot s
    let bad := mismatch || inj
    let v1 := s1.cl k
    let v2 := { v1 with audits := satAdd 64 v1.audits 1, mismatches := satAdd 32 v1.mismatches (b2n bad) }
    if bad then
      let pass := match s1.fab.win with | some w => s1.fab.passBase + w.chans.idxOf f.c | none => s1.fab.passBase
      let s2 := withdrawFold k f (s1.setCl k { v2 with queue := v2.queue.erase f })
      let (go, s3) := mismatchCard k f.p f.slot f.c pass test s2
      if go then
        let w := s3.cl k
        let later := w.queue.filter fun g => g.p == f.p
        let s4 := s3.setCl k { w with queue := w.queue.filter fun g => g.p != f.p,
                                      withdraw := f.p :: w.withdraw.filter fun p => p != f.p }
        releaseFolds k (later.foldl (fun s g => withdrawFold k g s) s4)
      else releaseFolds k (flushNotices k (fun n => n.j == f.j) s3)
    else releaseFolds k (s1.setCl k { v2 with queue := v2.queue.map fun g => if g = f then { g with held := false } else g })
  | none =>
    let p := v.auditPos s.curPass
    if v.audits_ p s.curPass ∧ s.fab.batch.isSome ∧ isBeam s.active k p then
      let (inj, test, s1) := compareInject k (v.slotAt p) s
      let bad := mismatch || inj
      let v1 := s1.cl k
      let s2 := s1.setCl k { v1 with audits := satAdd 64 v1.audits 1, mismatches := satAdd 32 v1.mismatches (b2n bad) }
      if bad then
        let (_, s3) := mismatchCard k p (v.slotAt p) 0xFFFF s.curPass test s2
        cutBeam k p s3
      else s2
    else s
def execRamblerCompare (k : Fin 96) (mismatch : Bool) (s : State) : Host.Outcome State Fault Refusal :=
  .next (compareOp k mismatch s)

/-! ### Moves (16 R471 to R476, R480) -/

/-- An idle OK slot of a cluster: it serves no position, is not the standby and is not on its way in. -/
def Cluster.idle (v : Cluster) : Option Nat :=
  (List.range 17).find? fun n =>
    v.slot n == .ok && !v.slots.contains n && v.standby != some n
      && (match v.move with | some x => x.slot != n | none => true)
/-- A position that went unserved and whose slot is OK again. -/
def Cluster.comesBack (v : Cluster) : Option Unserved := v.fallback.find? fun u => v.slot u.slot == .ok && v.posOf u.slot == some u.pos
/-- 16 R474: give an OK slot its place: the position that it left unserved, its home position if another slot serves it, else the
standby's. -/
def settleSlot (k : Nat) (s : State) : State :=
  let v := s.cl k
  match (if v.move.isNone then v.comesBack else none), v.idle with
  | some u, _ => s.setCl k { v with move := some ⟨false, u.pos, u.slot, s.now, 0, false⟩ }
  | none, none => s
  | none, some n =>
    if n < 16 ∧ v.slotAt n ≠ n ∧ v.move.isNone then
      s.setCl k { v with move := some ⟨false, n, n, s.now, 0, false⟩ }
    else if v.standby.isNone then s.setCl k { v with standby := some n } else s
/-- Stop the work of position p on its slot: its folds are withdrawn, or the beam batches in progress are cut. -/
def stopWork (k p : Nat) (s : State) : State :=
  if isBeam s.active k p then cutBeam k p s
  else s.setCl k { s.cl k with withdraw := p :: (s.cl k).withdraw.filter fun x => x != p }
/-- Table 16.9, R478, R480: the slot that serves a position is out: promote the standby, or go to the fallback. A rejoin or
rotation in progress is abandoned, and its slot becomes the standby. -/
def promoteSlot (k slot : Nat) (s : State) : State :=
  let v := s.cl k
  match v.posOf slot with
  | none => if v.standby = some slot then settleSlot k (s.setCl k { v with standby := none }) else s
  | some p =>
    let v1 := match v.move with
      | some x => if x.promotion then v else { v with move := none, standby := if v.slots.contains x.slot then v.standby else some x.slot }
      | none => v
    let s1 := stopWork k p (s.setCl k v1)
    let v2 := s1.cl k
    if v2.fallback.any fun u => u.pos == p then s1
    else match v2.standby, v2.move with
      | some b, none =>
        if v2.slot b = .ok then s1.setCl k { v2 with move := some ⟨true, p, b, s.now, 0, false⟩ }
        else s1.setCl k { v2 with fallback := v2.fallback ++ [⟨p, slot, s.now, false⟩] }
      | _, _ => s1.setCl k { v2 with fallback := v2.fallback ++ [⟨p, slot, s.now, false⟩] }
/-- A move reaches its next phase. -/
def movePhase (k from_ : Nat) (s : State) : State :=
  let v := s.cl k
  match v.move with
  | some x => if x.phase = from_ then s.setCl k { v with move := some { x with phase := from_ + 1 } } else s
  | none => s
def execStandbyPowerGood (k : Fin 96) (s : State) : Host.Outcome State Fault Refusal := .next (movePhase k 0 s)
def execStandbyConfigured (k : Fin 96) (s : State) : Host.Outcome State Fault Refusal := .next (movePhase k 1 s)
/-- 16 R473: the Rambler audits position p from takeover to the end of the following pass. -/
def auditNext (k p : Nat) (s : State) : State := s.setCl k { s.cl k with audit := some (p, s.passNo k p + 1) }
/-- A slot takes a position: in both copies of the slot map, and in the Stewards' (16 R477). -/
def takePlace (k p slot : Nat) (s : State) : State :=
  let v := s.cl k
  let map := v.copy.set p slot
  let s1 := s.setCl k { v with slots := v.slots.set p slot, copy := map }
  s1.setFab { s1.fab with kept := s1.fab.kept.set (fun _ => clInit 0 |>.slots) k map }
/-- Table 16.9: the standby takes the position at its next segment boundary. -/
def takeoverOp (k : Nat) (s : State) : State :=
  let v := s.cl k
  match v.move with
  | some x =>
    if x.promotion ∧ x.phase = 2 then
      let j := posIndex s.active k x.pos
      let v1 := { v with standby := none, move := none,
                         withdraw := v.withdraw.filter fun p => p != x.pos, promotions := satAdd 32 v.promotions 1 }
      let s1 := auditNext k x.pos (flushNotices k (fun n => n.j == j) (takePlace k x.pos x.slot (s.setCl k v1)))
      settleSlot k (raise (cellSrc k x.slot) 2 (cellAddr x.pos (s.passChan k x.pos)) s1)
    else s
  | none => s
def execPromotionTakeover (k : Fin 96) (s : State) : Host.Outcome State Fault Refusal := .next (takeoverOp k s)
/-- Positions that are served again: no longer in the fallback, their notices sent. -/
def servedAgain (k : Nat) (ps : List Nat) (s : State) : State :=
  let v := s.cl k
  flushNotices k (fun n => ps.any fun p => n.j == posIndex s.active k p)
    (s.setCl k { v with fallback := v.fallback.filter fun u => !ps.contains u.pos
                        withdraw := v.withdraw.filter fun p => !ps.contains p })
/-- 16 R474, R476: the slot that comes in takes its position at the position's next segment boundary: the repaired slot its home
position, or in a rotation the standby. -/
def rejoinOp (k : Nat) (s : State) : State :=
  let v := s.cl k
  match v.move with
  | some x =>
    if x.promotion then s
    else
      let old := v.slotAt x.pos
      let s0 := takePlace k x.pos x.slot (s.setCl k { v with
        move := none
        standby := if old = x.slot then v.standby else if v.slot old = .ok then some old else none
        rotations := satAdd 32 v.rotations (b2n x.rotation) })
      let s1 := if v.fallback.any fun u => u.pos == x.pos then servedAgain k [x.pos] s0 else s0
      settleSlot k (raise (cellSrc k x.slot) (if x.rotation then 7 else 4) (cellAddr x.pos (s.passChan k x.pos)) (auditNext k x.pos s1))
  | none => s
def execCellRejoin (k : Fin 96) (s : State) : Host.Outcome State Fault Refusal := .next (rejoinOp k s)

/-- The pass after those under way. -/
def State.nextPass (s : State) (k : Nat) : Nat :=
  if s.fab.win.isSome then maxOf (s.curPass :: (List.range 16).map (s.passNo k)) + 1 else s.fab.passBase
/-- 16 R458, R474: a held slot is released: it runs its self-test. -/
def slotRelease (k slot : Nat) (s : State) : State :=
  s.setCl k ((s.cl k).setSlot slot .selfTest)
/-- 16 R474, R475: the self-test of a slot ends. -/
def selfTestOp (k slot : Nat) (pass : Bool) (s : State) : State :=
  let v := s.cl k
  if v.slot slot ≠ .selfTest then s
  else if pass then
    if slot = 17 then s.setCl k { v.setSlot slot .ok with rambFrom := s.nextPass k }
    else settleSlot k (s.setCl k (v.setSlot slot .ok))
  else
    let s1 := s.setCl k (v.setSlot slot .held)
    let p := (v.posOf slot).getD 0
    if slot = 17 then raise (cellSrc k 17) 6 (cellAddr (v.auditPos s.curPass) 0xFFFF) s1
    else raise (cellSrc k slot) 5 (cellAddr p 0xFFFF) s1
def execCellSelftestDone (k : Fin 96) (slot : Fin 18) (pass : Bool) (s : State) : Host.Outcome State Fault Refusal :=
  .next (selfTestOp k slot pass s)
/-- 16 R457, R458, R461: a cell slot or Rambler is isolated. -/
def slotIsolate (k slot : Nat) (s : State) : State :=
  let s1 := s.setCl k ((s.cl k).setSlot slot .held)
  if slot = 17 then dropAudit k s1 else promoteSlot k slot s1

/-- 16 R476: one rotation begins: the standby of the next cluster is to take a working position, as a repaired slot does; a cluster
with a slot that is not OK or with a move in progress is skipped. -/
def rotationOp (s : State) : State :=
  let per := s.cfg (ob 0x2300 4)
  if per = 0 ∨ s.now < s.fab.rotAt + per * 250000000 / 96 then s
  else
    let r := s.fab.rotation
    let k := r % 96
    let p := r / 96 % 16
    let s1 := s.setFab { s.fab with rotation := r + 1, rotAt := s.now }
    let v := s1.cl k
    match v.standby with
    | some b =>
      if v.allOk ∧ v.move.isNone then
        s1.setCl k { v with move := some ⟨false, p, b, s.now, 0, true⟩ }
      else s1
    | none => s1
def execRotationTimer (s : State) : Host.Outcome State Fault Refusal := .next (rotationOp s)

/-! ### Fallback (16 R478, R479) -/

/-- Stage 1 for the first unserved position of cluster k that has not been spread. -/
def respreadOp (k : Nat) (s : State) : State :=
  let v := s.cl k
  match v.fallback.find? fun u => !u.spread with
  | none => s
  | some u =>
    if s.now < u.since + us 20 then s
    else
      let mark := s.setCl k { v with fallback := v.fallback.map fun x => if x.pos = u.pos then { x with spread := true } else x }
      if isBeam s.active k u.pos then
        mark.setFab { mark.fab with removed := (mark.fab.removed.filter fun x => x != (k, u.pos)) ++ [(k, u.pos)] }
      else
        let s1 := flushNotices k (fun n => n.j == posIndex s.active k u.pos)
          (mark.setCl k { mark.cl k with withdraw := (mark.cl k).withdraw.filter fun p => p != u.pos })
        let s2 := match s.fab.win with
          | some w =>
            let m := s.winSet w
            match s1.front w m with
            | some n => spreadRun w m k u.pos n s1
            | none => s1
          | none => s1
        raise (cellSrc k u.slot) 3 (cellAddr u.pos (s.passChan k u.pos)) s2
def execFallbackRespread (k : Fin 96) (s : State) : Host.Outcome State Fault Refusal := .next (respreadOp k s)
/-- 16 R478, R479: the Timetable re-checks the schedule without the unserved positions. -/
def recheckOp (s : State) : State :=
  if s.unserved.isEmpty then s
  else
    let r := s.reduced s.active
    let s1 := s.setFab { s.fab with newSched := some r }
    if 0 < r.2.1 ∨ r.2.2 then raise 0x940 3 (r.1.length % 65536 + 65536 * (r.2.1 % 65536)) s1 else s1
def execFallbackRecheck (s : State) : Host.Outcome State Fault Refusal := .next (recheckOp s)
/-- No position is inside a strip. -/
def State.atBoundary (s : State) (w : Win) (m : Tab Nat) : Bool :=
  let strips := 8192 / max 1 (setQ m)
  match s.front w m with
  | none => true
  | some n => !(s.fab.pos.any fun v => stripNo strips v.2 == n && v.2.todo.isSome)
/-- 16 R478: the new schedule takes effect at the next strip boundary; the channels that it drops have no further pass. -/
def newScheduleOp (s : State) : State :=
  match s.fab.newSched with
  | none => s
  | some (out, d, beams) =>
    let go (s : State) : State := s.setFab { s.fab with removed := out, dropped := d, beamsOff := beams, newSched := none }
    match s.fab.win with
    | none => go s
    | some w =>
      let m := s.winSet w
      if s.atBoundary w m then
        let n := (s.front w m).getD 0 / max 1 (8192 / max 1 (setQ m))
        let gone := (w.chans.drop n).filter fun c => decide (setChans m - d ≤ c)
        let w1 := { w with chans := w.chans.take n ++ (w.chans.drop n).filter fun c => decide (c < setChans m - d) }
        let s1 := s.setAcc { s.acc with noFold := (s.acc.noFold ++ gone.map fun c => (c, s.intAt m c w.x0)).eraseDups }
        go (s1.setFab { s1.fab with win := some w1 })
      else s
def execFallbackSchedule (s : State) : Host.Outcome State Fault Refusal := .next (newScheduleOp s)

end Sys2Proof.Machine
end

