-- ==== Sys2Proof/Machine/Flags.lean ====
section
/-! DEFINITION. The Tally flags (12 R342, R344): SR's bits and every flag computation of the ALU group. -/

namespace Sys2Proof.Machine

open Sys2Proof

/-- The implemented bits of SR (12 Table 12.3). -/
def srMask : Word := 0x7F
/-- A bit of SR: Z 0, N 1, C 2, V 3, IE 4, SAT 5, ASAT 6. -/
def srBit (sr : Word) (n : Nat) : Bool := sr.getLsbD n
/-- SR with Z, N, C and V written. -/
def srFlags (sr : Word) (z n c v : Bool) : Word :=
  (sr &&& 0x70) ||| BitVec.ofNat 32 (b2n z + 2 * b2n n + 4 * b2n c + 8 * b2n v)
/-- SR with a sticky bit set. -/
def srSet (sr : Word) (n : Nat) (on : Bool) : Word := if on then sr ||| BitVec.ofNat 32 (2 ^ n) else sr
/-- The flags of a result with given C and V. -/
def flagsOf (sr : Word) (r : Word) (c v : Bool) : Word := srFlags sr (r == 0) r.msb c v

/-- A sum with carry in: result, carry out, signed overflow. -/
def addWith (a b : Word) (cin : Bool) : Word × Bool × Bool :=
  let u := a.toNat + b.toNat + b2n cin
  let i := a.toInt + b.toInt + b2n cin
  let r := BitVec.ofNat 32 u
  (r, decide (2 ^ 32 ≤ u), decide (r.toInt ≠ i))
/-- A difference with borrow in: result, C (1 for no borrow), signed overflow. -/
def subWith (a b : Word) (bin : Bool) : Word × Bool × Bool :=
  let i := a.toInt - b.toInt - b2n bin
  let r := BitVec.ofInt 32 i
  (r, decide (b.toNat + b2n bin ≤ a.toNat), decide (r.toInt ≠ i))

/-- The condition of a branch (12 Table 12.11). -/
def condHolds (sr : Word) (cond : Nat) : Bool :=
  let z := srBit sr 0
  let n := srBit sr 1
  let c := srBit sr 2
  let v := srBit sr 3
  match cond with
  | 0 => true | 1 => z | 2 => !z | 3 => n != v | 4 => n == v | 5 => !z && n == v | 6 => z || n != v
  | 7 => !c | 8 => c | 9 => n | 0xA => !n | 0xB => v | 0xC => !v | _ => false

end Sys2Proof.Machine
end

