-- ==== Sys2Proof/Machine/Operands.lean ====
section
/-! DEFINITION. The Tally operand forms (12 R337, R338, R341, R358): registers, accumulators, halves, immediates, effective
addresses, loads and stores, control registers, the instruction decoder and its encoder. -/

namespace Sys2Proof.Machine

open Sys2Proof

/-! ### Registers -/

def wordZero : Nat → Word := fun _ => 0
/-- A general register; G0 reads as 0. -/
def Core.reg (v : Core) (n : Fin 16) : Word := if n = 0 then 0 else v.g.get wordZero n
/-- Write a general register; a write of G0 is discarded. -/
def Core.setReg (v : Core) (n : Fin 16) (x : Word) : Core := if n = 0 then v else { v with g := v.g.set wordZero n x }
def accZero : Nat → BitVec 40 := fun _ => 0
def Core.accum (v : Core) (n : Nat) : BitVec 40 := v.acc.get accZero n
def Core.setAccum (v : Core) (n : Nat) (x : BitVec 40) : Core := { v with acc := v.acc.set accZero n x }
/-- A half of a word as a signed value: true the high one (12 R345). -/
def half (x : Word) (hi : Bool) : Int := if hi then signed 16 (x.toNat / 65536) else signed 16 x.toNat
/-- IMM18, sign- or zero-extended. -/
def sext18 (i : BitVec 18) : Word := i.signExtend 32
def zext18 (i : BitVec 18) : Word := i.zeroExtend 32

/-! ### Memory (12 R337 to R340) -/

/-- The bus addresses of a core's data and program memories. -/
def dmBase (c : Nat) : Nat := 0x50000000 + c * 0x100000
def pmBase (c : Nat) : Nat := dmBase c + 0x80000
/-- The instruction word at a word address. -/
def State.pmWord (s : State) (c a : Nat) : Nat := s.numAt (pmBase c + 4 * a) 4
/-- A fault of an instruction: its code (12 Table 12.16), Address (none: the pc and ea form), ea, and whether an injection
marks it TEST. -/
structure TFault where
  code : Nat
  addr : Option Nat := none
  ea : Nat := 0
  test : Bool := false
  deriving DecidableEq, Repr

/-- Check an effective address (12 R337, R338): alignment first (DESIGN CHOICE). -/
def eaFault (ea n : Nat) : Option TFault :=
  if ea % n ≠ 0 then some { code := 3, ea := ea }
  else if ea < 0x80000 ∨ (0x1000000 ≤ ea ∧ ea < 0x2000000) then none
  else some { code := 2, ea := ea }
/-- The bus address of a far access. -/
def Core.farAddr (v : Core) (ea : Nat) : Nat := v.seg.toNat % 65536 * 2 ^ 24 + ea % 2 ^ 24
/-- A core load's read of its data memory (12 R339). -/
def dmRead (c ea n : Nat) (e : Ecc) (s0 : State) : Option TFault × List Byte × State :=
  let s := flipWord (dmBase c + ea / 8 * 8) (eccFlip (coreSrc c) 1 e s0) s0
  let (r, test, s1) := eccCheck (coreSrc c) 1 e s
  let w := s1.core c
  match r with
  | .ok => (none, s1.bytesAt (dmBase c + ea) n, s1)
  | .corrected =>
    (none, s1.bytesAt (dmBase c + ea) n, raiseT test (coreSrc c) 7 ea
      (s1.setCore c { w with dmCorr := satAdd 32 w.dmCorr 1, cycles := w.cycles + 1, cyclesRun := satAdd 64 w.cyclesRun 1,
                             cyclesStalled := satAdd 64 w.cyclesStalled 1 }))
  | .uncorrectable =>
    (some { code := 8, addr := some ea, test := test }, [], s1.setCore c { w with uncorr := satAdd 32 w.uncorr 1 })
/-- A far load of n bytes from a bus address. -/
def farRead (c a n : Nat) (e : Ecc) (s : State) : Nat × List Byte × State := masterRead (2 + c) 0 a n false (s.memEcc [(a, e)] a n) s
/-- A load of n bytes: the fault or the value. -/
def loadBytes (c ea n : Nat) (e : Ecc) (s : State) : Option TFault × Nat × State :=
  match eaFault ea n with
  | some f => (some f, 0, s)
  | none =>
    if ea < 0x80000 then let (f, d, s1) := dmRead c ea n e s; (f, ofBytes d, s1)
    else
      let (resp, d, s1) := farRead c ((s.core c).farAddr ea) n e s
      if resp = 0 then (none, ofBytes d, s1) else (some { code := 4, ea := ea }, 0, s1)
/-- A store of bytes. -/
def storeAt (c ea : Nat) (d : List Byte) (s : State) : Option TFault × State :=
  match eaFault ea d.length with
  | some f => (some f, s)
  | none =>
    if ea < 0x80000 then (none, storeBytes (dmBase c + ea) d s)
    else
      let (resp, s1) := masterWrite (2 + c) 0 ((s.core c).farAddr ea) false d s
      if resp = 0 then (none, s1) else (some { code := 4, ea := ea }, s1)
/-- The effective address and the value of GS afterwards (12 R358). -/
def effAddr (gs : Word) (post : Bool) (off : BitVec 17) : Word × Word :=
  let a := gs + off.signExtend 32
  if post then (gs, a) else (a, gs)

/-! ### Control registers (12 Table 12.4) -/

/-- Read a control register: the value and the core with what the read latches. -/
def State.readCtl (s : State) (c : Nat) (n : Nat) : Word × Core :=
  let v := s.core c
  match n with
  | 0 => (v.sr, v) | 1 => (v.esr, v) | 2 => (v.epc, v) | 3 => (v.vbase, v) | 4 => (v.ien, v) | 5 => (v.ipend, v)
  | 6 => (v.seg, v) | 7 => (v.cmpLo, v) | 8 => (v.cmpHi, v)
  | 9 => (BitVec.ofNat 32 s.pm, { v with pmHi := BitVec.ofNat 32 (s.pm / 2 ^ 32) })
  | 0xA => (v.pmHi, v)
  | 0xB => (BitVec.ofNat 32 v.cycles, { v with cycHi := BitVec.ofNat 32 (v.cycles / 2 ^ 32) })
  | 0xC => (v.cycHi, v)
  | 0xD => (BitVec.ofNat 32 c, v)
  | _ => (0, v)
/-- Write a control register; a read-only one discards the write. -/
def State.writeCtl (s : State) (c : Nat) (n : Nat) (x : Word) : Core :=
  let v := s.core c
  match n with
  | 0 => { v with sr := x &&& srMask }
  | 1 => { v with esr := x }
  | 2 => { v with epc := x }
  | 3 => { v with vbase := x &&& 0xFFC0 }
  | 4 => { v with ien := x &&& 0xFFFF }
  | 5 => { v with ipend := v.ipend &&& ~~~x }
  | 6 => { v with seg := x &&& 0xFFFF }
  | 7 => { v with cmpLo := x }
  | 8 => { v with cmpHi := x, armed := true }
  | _ => v

/-! ### The decoder (12 Tables 12.8 to 12.10) -/

/-- A number below a bound. -/
def finOf (n : Nat) [NeZero n] (x : Nat) : Fin n := Fin.ofNat n x
/-- The instruction of a word; none for an illegal one. -/
def tallyDecode (w : Nat) : Option TOp :=
  let op := bits 31 26 w
  let gd := finOf 16 (bits 25 22 w)
  let gs := finOf 16 (bits 21 18 w)
  let gt := finOf 16 (bits 17 14 w)
  let fn := bits 13 0 w
  let imm := BitVec.ofNat 18 w
  let off := BitVec.ofNat 17 w
  let post := bit 17 w
  let rest0 := w % 2 ^ 26 == 0
  let a := finOf 4 (bits 25 24 w)
  let xa := finOf 4 (bits 21 20 w)
  let sh := finOf 32 (bits 19 15 w)
  match op with
  | 0x01 => if rest0 then some .nop else none
  | 0x02 =>
    if fn < 17 ∧ ((fn = 0xC ∨ fn = 0xD) → gt = 0) then some (.alu (finOf 17 fn) gd gs gt) else none
  | 0x03 => some (.immOp 0 gd gs imm)
  | 0x04 => some (.immOp 1 gd gs imm)
  | 0x05 => some (.immOp 2 gd gs imm)
  | 0x06 => some (.immOp 3 gd gs imm)
  | 0x07 => let k := bits 6 5 w; if k < 3 then some (.shi (finOf 3 k) gd gs (finOf 32 (w % 32))) else none
  | 0x08 => if gs = 0 then some (.lui gd imm) else none
  | 0x09 => if gd = 0 then some (.cmpi gs imm) else none
  | 0x10 => some (.load 0 gd gs post off)
  | 0x11 => some (.load 1 gd gs post off)
  | 0x12 => some (.load 2 gd gs post off)
  | 0x13 => some (.load 3 gd gs post off)
  | 0x14 => some (.load 4 gd gs post off)
  | 0x18 => some (.store 0 gd gs post off)
  | 0x19 => some (.store 1 gd gs post off)
  | 0x1A => some (.store 2 gd gs post off)
  | 0x20 =>
    if w % 1024 ≠ 0 then none
    else if bit 13 w then some (.macDual a (bit 23 w) (bit 22 w) gs gt (bit 12 w))
    else some (.mac a (bit 23 w) (bit 22 w) gs gt (bit 11 w) (bit 10 w))
  | 0x21 =>
    if w % 1024 ≠ 0 ∨ bit 12 w = true then none
    else if bit 13 w then some (.macwDual a (bit 23 w) (bit 22 w) gs gt)
    else some (.macw a (bit 23 w) (bit 22 w) gs gt (bit 10 w))
  | 0x24 => if w % 2 ^ 14 = 0 then some (.ext gd xa sh (bit 14 w)) else none
  | 0x25 => if w % 2 ^ 14 = 0 ∧ sh = 0 then some (.mfa gd xa (bit 14 w)) else none
  | 0x26 => if w % 2 ^ 14 = 0 ∧ sh = 0 then some (.mta gd xa (bit 14 w)) else none
  | 0x30 => let k := bits 25 22 w; if k < 13 then some (.branch (finOf 13 k) (BitVec.ofNat 22 w)) else none
  | 0x31 => if gd = 0 then some (.bal (BitVec.ofNat 22 w)) else none
  | 0x32 => some (.jr gs)
  | 0x33 => some (.jalr gd gs)
  | 0x34 => if rest0 then some .reti else none
  | 0x38 => if bits 21 12 w = 0 then some (.rpt gd (BitVec.ofNat 12 w)) else none
  | 0x39 => let k := w % 32; if k < 14 then some (.mfc gd (finOf 14 k)) else none
  | 0x3A => let k := w % 32; if k < 14 then some (.mtc (finOf 14 k) gs) else none
  | 0x3B => if rest0 then some .wait else none
  | 0x3C => if rest0 then some .fence else none
  | 0x3D => some (.post gd gs)
  | 0x3E => if rest0 then some .halt else none
  | _ => none

/-- A delay slot must not hold it (12 R349). -/
def topNoSlot : TOp → Bool
  | .branch _ _ | .bal _ | .jr _ | .jalr _ _ | .reti | .rpt _ _ | .wait | .halt => true
  | _ => false
/-- A repeat's body must not be it (12 R350). -/
def topNoBody : TOp → Bool
  | .post _ _ => true
  | o => topNoSlot o

/-! ### The encoder (12 Tables 12.8 to 12.10) -/

/-- A word of format R, I, M or X: OP, the fields at 22, 18 and 14, and the rest. -/
def tallyWord (op f22 f18 f14 low : Nat) : Nat := op * 2 ^ 26 + f22 * 2 ^ 22 + f18 * 2 ^ 18 + f14 * 2 ^ 14 + low
/-- POST and the offset of a load or store. -/
def postOff (post : Bool) (off : BitVec 17) : Nat := b2n post * 2 ^ 17 + off.toNat
/-- The fields ACC, SUB and CLR of format M. -/
def accField (a : Fin 4) (sub clr : Bool) : Nat := a.val * 4 + b2n sub * 2 + b2n clr
/-- The word of an instruction. -/
def TOp.encode : TOp → Nat
  | .nop => tallyWord 0x01 0 0 0 0
  | .alu fn gd gs gt => tallyWord 0x02 gd gs gt fn
  | .immOp op gd gs imm => tallyWord (3 + op.val) gd gs 0 imm.toNat
  | .shi op gd gs n => tallyWord 0x07 gd gs 0 (op.val * 32 + n.val)
  | .lui gd imm => tallyWord 0x08 gd 0 0 imm.toNat
  | .cmpi gs imm => tallyWord 0x09 0 gs 0 imm.toNat
  | .load op gd gs post off => tallyWord (0x10 + op.val) gd gs 0 (postOff post off)
  | .store op gd gs post off => tallyWord (0x18 + op.val) gd gs 0 (postOff post off)
  | .mac a sub clr gs gt hs ht => tallyWord 0x20 (accField a sub clr) gs gt (b2n hs * 2 ^ 11 + b2n ht * 2 ^ 10)
  | .macDual a sub clr gs gt cross => tallyWord 0x20 (accField a sub clr) gs gt (2 ^ 13 + b2n cross * 2 ^ 12)
  | .macw a sub clr gs gt ht => tallyWord 0x21 (accField a sub clr) gs gt (b2n ht * 2 ^ 10)
  | .macwDual a sub clr gs gt => tallyWord 0x21 (accField a sub clr) gs gt (2 ^ 13)
  | .ext g a sh half => tallyWord 0x24 g (a.val * 4) 0 (sh.val * 2 ^ 15 + b2n half * 2 ^ 14)
  | .mfa g a part => tallyWord 0x25 g (a.val * 4) 0 (b2n part * 2 ^ 14)
  | .mta g a part => tallyWord 0x26 g (a.val * 4) 0 (b2n part * 2 ^ 14)
  | .branch cond off => tallyWord 0x30 cond 0 0 off.toNat
  | .bal off => tallyWord 0x31 0 0 0 off.toNat
  | .jr gs => tallyWord 0x32 0 gs 0 0
  | .jalr gd gs => tallyWord 0x33 gd gs 0 0
  | .reti => tallyWord 0x34 0 0 0 0
  | .rpt gs n => tallyWord 0x38 gs 0 0 n.toNat
  | .mfc gd n => tallyWord 0x39 gd 0 0 n
  | .mtc n gs => tallyWord 0x3A 0 gs 0 n
  | .wait => tallyWord 0x3B 0 0 0 0
  | .fence => tallyWord 0x3C 0 0 0 0
  | .post gd gs => tallyWord 0x3D gd gs 0 0
  | .halt => tallyWord 0x3E 0 0 0 0
/-- The operands that the formats allow: ABS and CLZ take G0 as GT. -/
def TOp.wf : TOp → Bool
  | .alu fn _ _ gt => !(fn == 12 || fn == 13) || gt == 0
  | _ => true

end Sys2Proof.Machine
end

