-- ==== Sys2Proof/Machine/Tally.lean ====
section
/-! DEFINITION. The Tally cores (12): the effect of every instruction, the fault entry of Table 12.13, delay slots and repeats,
interrupts, events, the commands of tally_command, program loading and the core's objects. A command that is an instruction is
the instruction that the core executes, whatever its program memory holds (assumption 40). -/

namespace Sys2Proof.Machine

open Sys2Proof

/-! ### What an instruction's body answers -/

/-- How the core goes on after an instruction's body. -/
inductive TNext where
  | seq | slot (t : Slot) | rpt (n : Nat) | wait | halt | fault (f : TFault)
  deriving DecidableEq, Repr

/-- A body that stores a result with its status register. -/
def tallyResult (c : Nat) (gd : Fin 16) (r : Word) (sr : Word) (s : State) : TNext × State :=
  (.seq, s.setCore c ({ (s.core c) with sr := sr }.setReg gd r))
/-- A result of the ALU group: value, C and V. -/
def tallyFlagged (c : Nat) (gd : Fin 16) (x : Word × Bool × Bool) (s : State) : TNext × State :=
  tallyResult c gd x.1 (flagsOf (s.core c).sr x.1 x.2.1 x.2.2) s

/-! ### The ALU group (12 R344, Tables 12.9, 12.10) -/

/-- Leading zeros. -/
def clz (x : Word) : Word := BitVec.ofNat 32 ((List.range 32).findIdx fun k => x.getLsbD (31 - k))
/-- Result, C and V of an ALU function; cin is SR.C, open_ the free C of ABS. -/
def aluFn (fn : Nat) (a b : Word) (cin open_ : Bool) : Word × Bool × Bool :=
  match fn with
  | 0x00 => addWith a b false
  | 0x01 => addWith a b cin
  | 0x02 => subWith a b false
  | 0x03 => subWith a b (!cin)
  | 0x04 => (a &&& b, false, false)
  | 0x05 => (a ||| b, false, false)
  | 0x06 => (a ^^^ b, false, false)
  | 0x07 => (a <<< (b.toNat % 32), false, false)
  | 0x08 => (a >>> (b.toNat % 32), false, false)
  | 0x09 => (a.sshiftRight (b.toNat % 32), false, false)
  | 0x0A => (if a.slt b then a else b, false, false)
  | 0x0B => (if a.slt b then b else a, false, false)
  | 0x0C => if a = 0x80000000 then (0x7FFFFFFF, open_, true) else (if a.msb then -a else a, open_, false)
  | 0x0D => (clz a, false, false)
  | 0x0E => (a * b, false, false)
  | 0x0F => (BitVec.ofInt 32 (a.toInt * b.toInt / 2 ^ 32), false, false)
  | _ => (BitVec.ofNat 32 (a.toNat * b.toNat / 2 ^ 32), false, false)
/-- An instruction of the ALU group. ABS draws its C. -/
def aluBody (c fn : Nat) (gd gs gt : Fin 16) (s : State) : TNext × State :=
  let (k, s1) : Nat × State := if fn = 0xC then s.draw else (0, s)
  let v := s1.core c
  tallyFlagged c gd (aluFn fn (v.reg gs) (v.reg gt) (srBit v.sr 2) (Config.absCarry k)) s1
/-- ADDI, ANDI, ORI, XORI. -/
def immBody (c op : Nat) (gd gs : Fin 16) (i : BitVec 18) (s : State) : TNext × State :=
  let a := (s.core c).reg gs
  tallyFlagged c gd (match op with
    | 0 => addWith a (sext18 i) false
    | 1 => (a &&& zext18 i, false, false)
    | 2 => (a ||| zext18 i, false, false)
    | _ => (a ^^^ zext18 i, false, false)) s
/-- SHI: 0 SHL, 1 SHR, 2 SAR. -/
def shiBody (c op : Nat) (gd gs : Fin 16) (n : Nat) (s : State) : TNext × State :=
  tallyFlagged c gd (aluFn (7 + op) ((s.core c).reg gs) (BitVec.ofNat 32 n) false false) s
/-- LUI. -/
def luiBody (c : Nat) (gd : Fin 16) (i : BitVec 18) (s : State) : TNext × State :=
  tallyResult c gd (zext18 i <<< 14) (s.core c).sr s
/-- CMPI writes the flags alone. -/
def cmpiBody (c : Nat) (gs : Fin 16) (i : BitVec 18) (s : State) : TNext × State :=
  tallyFlagged c 0 (subWith ((s.core c).reg gs) (sext18 i) false) s

/-! ### Loads and stores (12 R337, R338, R358) -/

/-- The bytes of a load (0 LDW, 1 LDH, 2 LDHU, 3 LDB, 4 LDBU). -/
def loadSize (op : Nat) : Nat := if op = 0 then 4 else if op ≤ 2 then 2 else 1
/-- The loaded value, extended. -/
def loadValue (op x : Nat) : Word :=
  match op with
  | 1 => BitVec.ofInt 32 (signed 16 x)
  | 3 => BitVec.ofInt 32 (signed 8 x)
  | _ => BitVec.ofNat 32 x
def loadBody (c op : Nat) (gd gs : Fin 16) (post : Bool) (off : BitVec 17) (e : Ecc) (s : State) : TNext × State :=
  let q := effAddr ((s.core c).reg gs) post off
  match loadBytes c q.1.toNat (loadSize op) e s with
  | (some f, _, s1) => (.fault f, s1)
  | (none, x, s1) => (.seq, s1.setCore c (((s1.core c).setReg gs q.2).setReg gd (loadValue op x)))
/-- The bytes of a store (0 STW, 1 STH, 2 STB). -/
def storeSize (op : Nat) : Nat := if op = 0 then 4 else if op = 1 then 2 else 1
def storeBody (c op : Nat) (gd gs : Fin 16) (post : Bool) (off : BitVec 17) (s : State) : TNext × State :=
  let q := effAddr ((s.core c).reg gs) post off
  match storeAt c q.1.toNat (toBytes (storeSize op) ((s.core c).reg gd).toNat) s with
  | (some f, s1) => (.fault f, s1)
  | (none, s1) => (.seq, s1.setCore c ((s1.core c).setReg gs q.2))

/-! ### Accumulators (12 R345 to R347) -/

/-- Add a term to an accumulator; a result outside the range saturates and sets ASAT (R346). -/
def accTerm (a : Nat) (sub clr : Bool) (t : Int) (v : Core) : Core :=
  let base : Int := if clr then 0 else (v.accum a).toInt
  let x := if sub then base - t else base + t
  let y := satSym (2 ^ 39 - 1) x
  { v.setAccum a (BitVec.ofInt 40 y) with sr := srSet v.sr 6 (decide (x ≠ y)) }
/-- The other accumulator of a pair. -/
def accPair (a : Nat) : Nat := a ^^^ 1
def macBody (c a : Nat) (sub clr : Bool) (gs gt : Fin 16) (hs ht : Bool) (s : State) : TNext × State :=
  let v := s.core c
  (.seq, s.setCore c (accTerm a sub clr (half (v.reg gs) hs * half (v.reg gt) ht) v))
def macDualBody (c a : Nat) (sub clr : Bool) (gs gt : Fin 16) (cross : Bool) (s : State) : TNext × State :=
  let v := s.core c
  let p (h g : Bool) : Int := half (v.reg gs) h * half (v.reg gt) g
  (.seq, s.setCore c (accTerm (accPair a) sub clr (p true (!cross)) (accTerm a sub clr (p false cross) v)))
/-- The 32×16 product as it enters (R345). -/
def macwTerm (x y : Word) (hi : Bool) : Int := rhu (x.toInt * half y hi) (2 ^ 15)
def macwBody (c a : Nat) (sub clr : Bool) (gs gt : Fin 16) (ht : Bool) (s : State) : TNext × State :=
  let v := s.core c
  (.seq, s.setCore c (accTerm a sub clr (macwTerm (v.reg gs) (v.reg gt) ht) v))
def macwDualBody (c a : Nat) (sub clr : Bool) (gs gt : Fin 16) (s : State) : TNext × State :=
  let v := s.core c
  let p (h : Bool) : Int := macwTerm (v.reg gs) (v.reg gt) h
  (.seq, s.setCore c (accTerm (accPair a) sub clr (p true) (accTerm a sub clr (p false) v)))
/-- EXT (R347). -/
def extBody (c : Nat) (g : Fin 16) (a sh : Nat) (isHalf : Bool) (s : State) : TNext × State :=
  let v := s.core c
  let x := rhu (v.accum a).toInt (2 ^ sh)
  let y := satSym (if isHalf then 32767 else 2 ^ 31 - 1) x
  (.seq, s.setCore c ({ v with sr := srSet v.sr 5 (decide (x ≠ y)) }.setReg g (BitVec.ofInt 32 y)))
/-- MFA: part false [31:0], true [39:32] sign-extended. -/
def mfaBody (c : Nat) (g : Fin 16) (a : Nat) (part : Bool) (s : State) : TNext × State :=
  let v := s.core c
  let x := (v.accum a).toNat
  (.seq, s.setCore c (v.setReg g (if part then BitVec.ofInt 32 (signed 8 (x / 2 ^ 32)) else BitVec.ofNat 32 x)))
/-- MTA. -/
def mtaBody (c : Nat) (g : Fin 16) (a : Nat) (part : Bool) (s : State) : TNext × State :=
  let v := s.core c
  let x := (v.accum a).toNat
  let y := (v.reg g).toNat
  (.seq, s.setCore c (v.setAccum a (BitVec.ofNat 40
    (if part then x % 2 ^ 32 + y % 256 * 2 ^ 32 else x / 2 ^ 32 * 2 ^ 32 + y))))

/-! ### Control flow (12 R348, R350, R355, R356) -/

/-- A taken branch: its target must lie in program memory. -/
def branchTo (t : Int) (sr : Option Word) : TNext :=
  if 0 ≤ t ∧ t ≤ 0xFFFF then .slot ⟨t.toNat, sr⟩ else .fault { code := 2 }
/-- B: a branch that is not taken has its delay slot too. -/
def branchBody (c cond : Nat) (off : BitVec 22) (s : State) : TNext × State :=
  let v := s.core c
  if condHolds v.sr cond then (branchTo (v.pc + off.toInt) none, s) else (.slot ⟨v.pc + 2, none⟩, s)
/-- The link of BAL and JALR, written only if the target is good. -/
def linked (c : Nat) (gd : Fin 16) (n : TNext) (s : State) : TNext × State :=
  let v := s.core c
  match n with
  | .slot t => (.slot t, s.setCore c (v.setReg gd (BitVec.ofNat 32 (v.pc + 2))))
  | x => (x, s)
def balBody (c : Nat) (off : BitVec 22) (s : State) : TNext × State :=
  linked c 15 (branchTo ((s.core c).pc + off.toInt) none) s
def jrBody (c : Nat) (gs : Fin 16) (s : State) : TNext × State := (branchTo ((s.core c).reg gs).toNat none, s)
def jalrBody (c : Nat) (gd gs : Fin 16) (s : State) : TNext × State := linked c gd (branchTo ((s.core c).reg gs).toNat none) s
def retiBody (c : Nat) (s : State) : TNext × State :=
  let v := s.core c
  (branchTo v.epc.toNat (some (v.esr &&& srMask)), s)
/-- RPT: the body that its program memory holds must not be a forbidden one (R350). -/
def rptBody (c : Nat) (gs : Fin 16) (n : BitVec 12) (s : State) : TNext × State :=
  let v := s.core c
  let x := if gs = 0 then n.toNat + 1 else ((v.reg gs).toNat + (2 ^ 32 - 1)) % 4096 + 1
  match tallyDecode (s.pmWord c (v.pc + 1)) with
  | some o => if topNoBody o then (.fault { code := 1 }, s) else (.rpt x, s)
  | none => (.rpt x, s)
/-- The bits of a control register that 12 Tables 12.3 and 12.4 do not give: their read value is undefined (00 R3). -/
def ctlReserved (n : Nat) : Word := if n ≤ 1 then 0xFFFFFF80 else if 3 ≤ n ∧ n ≤ 6 then 0xFFFF0000 else 0
def mfcBody (c : Nat) (gd : Fin 16) (n : Nat) (s : State) : TNext × State :=
  let (x, v) := s.readCtl c n
  let m := ctlReserved n
  if m = 0 then (.seq, s.setCore c (v.setReg gd x))
  else (.seq, s.draw.2.setCore c (v.setReg gd ((x &&& ~~~m) ||| (BitVec.ofNat 32 (Config.reservedBits n s.draw.1) &&& m))))
def mtcBody (c n : Nat) (gs : Fin 16) (s : State) : TNext × State :=
  (.seq, s.setCore c (s.writeCtl c n ((s.core c).reg gs)))
/-- An enabled event input is pending. -/
def Core.eventReady (v : Core) : Bool := v.ipend &&& v.ien != 0
def waitBody (c : Nat) (s : State) : TNext × State := (if (s.core c).eventReady then .seq else .wait, s)

/-! ### Posts (12 R360) -/

/-- POST_REFUSED, at most once per 1 ms, with the count of posts_refused. -/
def postRefused (c : Nat) (s : State) : State :=
  let v := s.core c
  raiseLim (ms 1) (coreSrc c) 0xA 0 0 (s.setCore c { v with refused := satAdd 32 v.refused 1 })
/-- Stall cycles of an instruction (Table 12.5). -/
def stalled (c n : Nat) (s : State) : State :=
  let v := s.core c
  s.setCore c { v with cycles := v.cycles + n, cyclesRun := satAdd 64 v.cyclesRun n, cyclesStalled := satAdd 64 v.cyclesStalled n }
/-- Read words of the data memory with their reports, up to the first fault. -/
def dmWords (c : Nat) (more : List (Nat × Ecc)) (ws : List Nat) (s : State) : Option TFault × State :=
  ws.foldl (fun (r : Option TFault × State) w => match r.1 with
    | some _ => r
    | none => let (f, _, s1) := dmRead c w 8 (eccAt more w) r.2; (f, s1)) (none, s)
def postBody (c : Nat) (gd gs : Fin 16) (e : TEnv) (s : State) : TNext × State :=
  let a := ((s.core c).reg gs).toNat
  if a % 8 ≠ 0 then (.fault { code := 3, ea := a }, s)
  else if 0x80000 ≤ a then (.fault { code := 2, ea := a }, s)
  else match dmRead c a 8 e.data s with
    | (some f, _, s1) => (.fault f, s1)
    | (none, hd, s1) =>
      let h := ofBytes hd
      let len := bits 31 24 h
      let give (x : Nat) (s : State) : State := s.setCore c ((s.core c).setReg gd (BitVec.ofNat 32 x))
      if len = 0 ∨ 56 < len then
        (.seq, postRefused c (tallyEvent c 14 (give 2 (storeBytes (dmBase c + a + 4) [4] s1))))
      else if 0x80000 < a + 8 + len then (.fault { code := 2, ea := a }, s1)
      else if 16 ≤ (s1.core c).posts.length then (.seq, give 0 s1)
      else match dmWords c e.more (wordsIn (a + 8) len) s1 with
      | (some f, s2) => (.fault f, s2)
      | (none, s2) =>
        let p : Post := ⟨a, bits 15 0 h, bits 23 16 h, s2.bytesAt (dmBase c + a + 8) len⟩
        let s3 := give 1 (storeBytes (dmBase c + a + 4) [0] s2)
        let v := s3.core c
        (.seq, stalled c (cdiv (8 + len) 8)
          (s3.setCore c { v with posts := v.posts ++ [p], queued := satAdd 64 v.queued 1 }))

/-! ### One instruction -/

/-- The body of a decoded instruction; none is an illegal one. -/
def tallyBody (c : Nat) (e : TEnv) (o : Option TOp) (s : State) : TNext × State :=
  match o with
  | none => (.fault { code := 1 }, s)
  | some .nop => (.seq, s)
  | some (.alu fn gd gs gt) => aluBody c fn gd gs gt s
  | some (.immOp op gd gs i) => immBody c op gd gs i s
  | some (.shi op gd gs n) => shiBody c op gd gs n s
  | some (.lui gd i) => luiBody c gd i s
  | some (.cmpi gs i) => cmpiBody c gs i s
  | some (.load op gd gs post off) => loadBody c op gd gs post off e.data s
  | some (.store op gd gs post off) => storeBody c op gd gs post off s
  | some (.mac a sub clr gs gt hs ht) => macBody c a sub clr gs gt hs ht s
  | some (.macDual a sub clr gs gt x) => macDualBody c a sub clr gs gt x s
  | some (.macw a sub clr gs gt ht) => macwBody c a sub clr gs gt ht s
  | some (.macwDual a sub clr gs gt) => macwDualBody c a sub clr gs gt s
  | some (.ext g a sh h) => extBody c g a sh h s
  | some (.mfa g a p) => mfaBody c g a p s
  | some (.mta g a p) => mtaBody c g a p s
  | some (.branch k off) => branchBody c k off s
  | some (.bal off) => balBody c off s
  | some (.jr gs) => jrBody c gs s
  | some (.jalr gd gs) => jalrBody c gd gs s
  | some .reti => retiBody c s
  | some (.rpt gs n) => rptBody c gs n s
  | some (.mfc gd n) => mfcBody c gd n s
  | some (.mtc n gs) => mtcBody c n gs s
  | some .wait => waitBody c s
  | some .fence => (.seq, s)
  | some (.post gd gs) => postBody c gd gs e s
  | some .halt => (.halt, s)

/-- Enter FAULT (12 Table 12.13): record the code and the pc and raise the Postcard. -/
def tallyFault (c : Nat) (f : TFault) (s : State) : State :=
  let v := s.core c
  let pc := if f.code = 1 ∧ f.ea = 1 then v.pc - 1 else v.pc
  let a := match f.addr with | some a => a | none => pc + (if f.code = 1 then 0 else f.ea % 2 ^ 24) * 65536
  raiseT f.test (coreSrc c) f.code a
    (s.setCore c { v with st := CoreSt.fault, faultCode := f.code, faultPc := pc, inRpt := v.rpt.isSome, slot := none,
                          rpt := none, haltReq := false })
/-- The next pc in sequence, past a repeat and a delay slot. -/
def tallyAdvance (v : Core) : Core :=
  match v.rpt with
  | some n => if 1 < n then { v with rpt := some (n - 1) } else { v with rpt := none, pc := v.pc + 1 }
  | none => match v.slot with
    | some t => { v with slot := none, pc := t.target, sr := t.sr.getD v.sr }
    | none => { v with pc := v.pc + 1 }
/-- A pending HALT command stops the core at a boundary (12 R354). -/
def haltBoundary (v : Core) : Core :=
  if v.haltReq && v.st == .run && v.slot.isNone && v.rpt.isNone then { v with st := CoreSt.halt, haltReq := false } else v
/-- The pc would pass 0xFFFF after this instruction. -/
def Core.atEnd (v : Core) : Bool :=
  match v.slot with
  | some t => decide (0xFFFF < t.target)
  | none => decide (0xFFFF ≤ v.pc) && decide (v.rpt.getD 1 ≤ 1)
/-- The check of the fetched word (12 R339): whether it is uncorrectable, and its TEST mark. -/
def fetchCheck (c : Nat) (e : Ecc) (s0 : State) : Option TFault × State :=
  let s := flipWord (pmBase c + (s0.core c).pc / 2 * 8) (eccFlip (coreSrc c) 2 e s0) s0
  let (r, test, s1) := eccCheck (coreSrc c) 2 e s
  let v := s1.core c
  match r with
  | .ok => (none, s1)
  | .corrected =>
    (none, raiseT test (coreSrc c) 5 (4 * v.pc) (stalled c 1 (s1.setCore c { v with pmCorr := satAdd 32 v.pmCorr 1 })))
  | .uncorrectable =>
    (some { code := 6, addr := some (4 * v.pc), test := test }, s1.setCore c { v with uncorr := satAdd 32 v.uncorr 1 })
/-- What forbids an instruction where it stands (12 R349, R350, Table 12.9): ea 1 puts the fault at the RPT. -/
def placeFault (o : Option TOp) (v : Core) : Option TFault :=
  if v.slot.isSome && (o.map topNoSlot).getD false then some { code := 1 }
  else if v.rpt.isSome && (o.map topNoBody).getD false then some { code := 1, ea := 1 }
  else if o.isSome && v.atEnd then some { code := 2 }
  else none
/-- Go on after a body. -/
def tallyGo (c : Nat) (x : TNext × State) : State :=
  let s := x.2
  let v := s.core c
  match x.1 with
  | .fault f => tallyFault c f s
  | .seq => s.setCore c (haltBoundary (tallyAdvance v))
  | .slot t => s.setCore c { v with pc := v.pc + 1, slot := some t }
  | .rpt n => s.setCore c { v with pc := v.pc + 1, rpt := some n }
  | .wait => s.setCore c (if v.haltReq then { v with st := CoreSt.halt, haltReq := false, pc := v.pc + 1 }
                          else { v with st := CoreSt.wait })
  | .halt => s.setCore c { v with st := CoreSt.halt, haltReq := false, pc := v.pc + 1 }
/-- The cycles of an instruction (12 R348): one in E and the stalls. -/
def tallyCycles (c : Nat) (v : TEnv) (s : State) : State :=
  let k := s.core c
  stalled c v.stall (s.setCore c { k with cycles := k.cycles + v.idle + 1, cyclesRun := satAdd 64 k.cyclesRun 1 })
/-- The core executes an instruction. -/
def tallyOne (c : Nat) (v : TEnv) (o : Option TOp) (s : State) : State :=
  match fetchCheck c v.fetch (tallyCycles c v s) with
  | (some f, s1) => tallyFault c f s1
  | (none, s1) =>
    match placeFault o (s1.core c) with
    | some f => tallyFault c f s1
    | none => tallyGo c (tallyBody c v o s1)
/-- A core executes only in RUN, after the CRC of 12 R362. -/
def Core.executes (v : Core) : Bool := v.st == .run && !v.crc
def tallyOp (c : Nat) (v : TEnv) (o : Option TOp) (s : State) : State :=
  if (s.core c).executes then tallyOne c v o s else s
def tallyInstr (c : Fin 4) (v : TEnv) (o : Option TOp) (s : State) : Host.Outcome State Fault Refusal := .next (tallyOp c v o s)

/-! ### The instructions -/

def execTIll (c : Fin 4) (v : TEnv) (s : State) : Host.Outcome State Fault Refusal := tallyInstr c v none s
def execTNop (c : Fin 4) (v : TEnv) (s : State) : Host.Outcome State Fault Refusal := tallyInstr c v (some .nop) s
def execTAdd (c : Fin 4) (v : TEnv) (gd gs gt : Fin 16) (s : State) :
    Host.Outcome State Fault Refusal := tallyInstr c v (some (.alu 0 gd gs gt)) s
def execTAddc (c : Fin 4) (v : TEnv) (gd gs gt : Fin 16) (s : State) :
    Host.Outcome State Fault Refusal := tallyInstr c v (some (.alu 1 gd gs gt)) s
def execTSub (c : Fin 4) (v : TEnv) (gd gs gt : Fin 16) (s : State) :
    Host.Outcome State Fault Refusal := tallyInstr c v (some (.alu 2 gd gs gt)) s
def execTSubb (c : Fin 4) (v : TEnv) (gd gs gt : Fin 16) (s : State) :
    Host.Outcome State Fault Refusal := tallyInstr c v (some (.alu 3 gd gs gt)) s
def execTAnd (c : Fin 4) (v : TEnv) (gd gs gt : Fin 16) (s : State) :
    Host.Outcome State Fault Refusal := tallyInstr c v (some (.alu 4 gd gs gt)) s
def execTOr (c : Fin 4) (v : TEnv) (gd gs gt : Fin 16) (s : State) :
    Host.Outcome State Fault Refusal := tallyInstr c v (some (.alu 5 gd gs gt)) s
def execTXor (c : Fin 4) (v : TEnv) (gd gs gt : Fin 16) (s : State) :
    Host.Outcome State Fault Refusal := tallyInstr c v (some (.alu 6 gd gs gt)) s
def execTShl (c : Fin 4) (v : TEnv) (gd gs gt : Fin 16) (s : State) :
    Host.Outcome State Fault Refusal := tallyInstr c v (some (.alu 7 gd gs gt)) s
def execTShr (c : Fin 4) (v : TEnv) (gd gs gt : Fin 16) (s : State) :
    Host.Outcome State Fault Refusal := tallyInstr c v (some (.alu 8 gd gs gt)) s
def execTSar (c : Fin 4) (v : TEnv) (gd gs gt : Fin 16) (s : State) :
    Host.Outcome State Fault Refusal := tallyInstr c v (some (.alu 9 gd gs gt)) s
def execTMin (c : Fin 4) (v : TEnv) (gd gs gt : Fin 16) (s : State) :
    Host.Outcome State Fault Refusal := tallyInstr c v (some (.alu 10 gd gs gt)) s
def execTMax (c : Fin 4) (v : TEnv) (gd gs gt : Fin 16) (s : State) :
    Host.Outcome State Fault Refusal := tallyInstr c v (some (.alu 11 gd gs gt)) s
def execTAbs (c : Fin 4) (v : TEnv) (gd gs : Fin 16) (s : State) :
    Host.Outcome State Fault Refusal := tallyInstr c v (some (.alu 12 gd gs 0)) s
def execTClz (c : Fin 4) (v : TEnv) (gd gs : Fin 16) (s : State) :
    Host.Outcome State Fault Refusal := tallyInstr c v (some (.alu 13 gd gs 0)) s
def execTMul (c : Fin 4) (v : TEnv) (gd gs gt : Fin 16) (s : State) :
    Host.Outcome State Fault Refusal := tallyInstr c v (some (.alu 14 gd gs gt)) s
def execTMulh (c : Fin 4) (v : TEnv) (gd gs gt : Fin 16) (s : State) :
    Host.Outcome State Fault Refusal := tallyInstr c v (some (.alu 15 gd gs gt)) s
def execTMulhu (c : Fin 4) (v : TEnv) (gd gs gt : Fin 16) (s : State) :
    Host.Outcome State Fault Refusal := tallyInstr c v (some (.alu 16 gd gs gt)) s
def execTAddi (c : Fin 4) (v : TEnv) (gd gs : Fin 16) (imm : BitVec 18) (s : State) :
    Host.Outcome State Fault Refusal := tallyInstr c v (some (.immOp 0 gd gs imm)) s
def execTAndi (c : Fin 4) (v : TEnv) (gd gs : Fin 16) (imm : BitVec 18) (s : State) :
    Host.Outcome State Fault Refusal := tallyInstr c v (some (.immOp 1 gd gs imm)) s
def execTOri (c : Fin 4) (v : TEnv) (gd gs : Fin 16) (imm : BitVec 18) (s : State) :
    Host.Outcome State Fault Refusal := tallyInstr c v (some (.immOp 2 gd gs imm)) s
def execTXori (c : Fin 4) (v : TEnv) (gd gs : Fin 16) (imm : BitVec 18) (s : State) :
    Host.Outcome State Fault Refusal := tallyInstr c v (some (.immOp 3 gd gs imm)) s
def execTShiShl (c : Fin 4) (v : TEnv) (gd gs : Fin 16) (n : Fin 32) (s : State) :
    Host.Outcome State Fault Refusal := tallyInstr c v (some (.shi 0 gd gs n)) s
def execTShiShr (c : Fin 4) (v : TEnv) (gd gs : Fin 16) (n : Fin 32) (s : State) :
    Host.Outcome State Fault Refusal := tallyInstr c v (some (.shi 1 gd gs n)) s
def execTShiSar (c : Fin 4) (v : TEnv) (gd gs : Fin 16) (n : Fin 32) (s : State) :
    Host.Outcome State Fault Refusal := tallyInstr c v (some (.shi 2 gd gs n)) s
def execTLui (c : Fin 4) (v : TEnv) (gd : Fin 16) (imm : BitVec 18) (s : State) :
    Host.Outcome State Fault Refusal := tallyInstr c v (some (.lui gd imm)) s
def execTCmpi (c : Fin 4) (v : TEnv) (gs : Fin 16) (imm : BitVec 18) (s : State) :
    Host.Outcome State Fault Refusal := tallyInstr c v (some (.cmpi gs imm)) s
def execTLdw (c : Fin 4) (v : TEnv) (gd gs : Fin 16) (post : Bool) (off : BitVec 17) (s : State) :
    Host.Outcome State Fault Refusal := tallyInstr c v (some (.load 0 gd gs post off)) s
def execTLdh (c : Fin 4) (v : TEnv) (gd gs : Fin 16) (post : Bool) (off : BitVec 17) (s : State) :
    Host.Outcome State Fault Refusal := tallyInstr c v (some (.load 1 gd gs post off)) s
def execTLdhu (c : Fin 4) (v : TEnv) (gd gs : Fin 16) (post : Bool) (off : BitVec 17) (s : State) :
    Host.Outcome State Fault Refusal := tallyInstr c v (some (.load 2 gd gs post off)) s
def execTLdb (c : Fin 4) (v : TEnv) (gd gs : Fin 16) (post : Bool) (off : BitVec 17) (s : State) :
    Host.Outcome State Fault Refusal := tallyInstr c v (some (.load 3 gd gs post off)) s
def execTLdbu (c : Fin 4) (v : TEnv) (gd gs : Fin 16) (post : Bool) (off : BitVec 17) (s : State) :
    Host.Outcome State Fault Refusal := tallyInstr c v (some (.load 4 gd gs post off)) s
def execTStw (c : Fin 4) (v : TEnv) (gd gs : Fin 16) (post : Bool) (off : BitVec 17) (s : State) :
    Host.Outcome State Fault Refusal := tallyInstr c v (some (.store 0 gd gs post off)) s
def execTSth (c : Fin 4) (v : TEnv) (gd gs : Fin 16) (post : Bool) (off : BitVec 17) (s : State) :
    Host.Outcome State Fault Refusal := tallyInstr c v (some (.store 1 gd gs post off)) s
def execTStb (c : Fin 4) (v : TEnv) (gd gs : Fin 16) (post : Bool) (off : BitVec 17) (s : State) :
    Host.Outcome State Fault Refusal := tallyInstr c v (some (.store 2 gd gs post off)) s
def execTMac (c : Fin 4) (v : TEnv) (a : Fin 4) (sub clr : Bool) (gs gt : Fin 16) (hs ht : Bool) (s : State) :
    Host.Outcome State Fault Refusal := tallyInstr c v (some (.mac a sub clr gs gt hs ht)) s
def execTMacDual (c : Fin 4) (v : TEnv) (a : Fin 4) (sub clr : Bool) (gs gt : Fin 16) (cross : Bool) (s : State) :
    Host.Outcome State Fault Refusal := tallyInstr c v (some (.macDual a sub clr gs gt cross)) s
def execTMacw (c : Fin 4) (v : TEnv) (a : Fin 4) (sub clr : Bool) (gs gt : Fin 16) (ht : Bool) (s : State) :
    Host.Outcome State Fault Refusal := tallyInstr c v (some (.macw a sub clr gs gt ht)) s
def execTMacwDual (c : Fin 4) (v : TEnv) (a : Fin 4) (sub clr : Bool) (gs gt : Fin 16) (s : State) :
    Host.Outcome State Fault Refusal := tallyInstr c v (some (.macwDual a sub clr gs gt)) s
def execTExt (c : Fin 4) (v : TEnv) (g : Fin 16) (a : Fin 4) (sh : Fin 32) (half : Bool) (s : State) :
    Host.Outcome State Fault Refusal := tallyInstr c v (some (.ext g a sh half)) s
def execTMfa (c : Fin 4) (v : TEnv) (g : Fin 16) (a : Fin 4) (part : Bool) (s : State) :
    Host.Outcome State Fault Refusal := tallyInstr c v (some (.mfa g a part)) s
def execTMta (c : Fin 4) (v : TEnv) (g : Fin 16) (a : Fin 4) (part : Bool) (s : State) :
    Host.Outcome State Fault Refusal := tallyInstr c v (some (.mta g a part)) s
def execTB (c : Fin 4) (v : TEnv) (cond : Fin 13) (off : BitVec 22) (s : State) :
    Host.Outcome State Fault Refusal := tallyInstr c v (some (.branch cond off)) s
def execTBal (c : Fin 4) (v : TEnv) (off : BitVec 22) (s : State) :
    Host.Outcome State Fault Refusal := tallyInstr c v (some (.bal off)) s
def execTJr (c : Fin 4) (v : TEnv) (gs : Fin 16) (s : State) :
    Host.Outcome State Fault Refusal := tallyInstr c v (some (.jr gs)) s
def execTJalr (c : Fin 4) (v : TEnv) (gd gs : Fin 16) (s : State) :
    Host.Outcome State Fault Refusal := tallyInstr c v (some (.jalr gd gs)) s
def execTReti (c : Fin 4) (v : TEnv) (s : State) :
    Host.Outcome State Fault Refusal := tallyInstr c v (some .reti) s
def execTRpt (c : Fin 4) (v : TEnv) (gs : Fin 16) (n : BitVec 12) (s : State) :
    Host.Outcome State Fault Refusal := tallyInstr c v (some (.rpt gs n)) s
def execTMfc (c : Fin 4) (v : TEnv) (gd : Fin 16) (n : Fin 14) (s : State) :
    Host.Outcome State Fault Refusal := tallyInstr c v (some (.mfc gd n)) s
def execTMtc (c : Fin 4) (v : TEnv) (n : Fin 14) (gs : Fin 16) (s : State) :
    Host.Outcome State Fault Refusal := tallyInstr c v (some (.mtc n gs)) s
def execTWait (c : Fin 4) (v : TEnv) (s : State) :
    Host.Outcome State Fault Refusal := tallyInstr c v (some .wait) s
def execTFence (c : Fin 4) (v : TEnv) (s : State) :
    Host.Outcome State Fault Refusal := tallyInstr c v (some .fence) s
def execTPost (c : Fin 4) (v : TEnv) (gd gs : Fin 16) (s : State) :
    Host.Outcome State Fault Refusal := tallyInstr c v (some (.post gd gs)) s
def execTHalt (c : Fin 4) (v : TEnv) (s : State) :
    Host.Outcome State Fault Refusal := tallyInstr c v (some .halt) s

/-! ### Interrupts and events (12 R351 to R356) -/

/-- The core can take an interrupt at this boundary (R353, R354). -/
def Core.canInterrupt (v : Core) : Bool :=
  v.executes && v.slot.isNone && v.rpt.isNone && srBit v.sr 4 && v.eventReady
/-- The lowest-numbered pending and enabled input. -/
def Core.firstEvent (v : Core) : Nat := (List.range 16).findIdx fun k => (v.ipend &&& v.ien).getLsbD k
/-- Table 12.7: the entry of the lowest-numbered input, returning to a word address. -/
def Core.enterVector (v : Core) (ret latency : Nat) : Core :=
  let k := v.firstEvent
  { v with epc := BitVec.ofNat 32 ret, esr := v.sr, sr := v.sr &&& 0x6F, ipend := v.ipend &&& ~~~(BitVec.ofNat 32 (2 ^ k)),
           pc := v.vbase.toNat + 4 * k, latency := max v.latency (min latency 0xFFFF) }
/-- The core takes an interrupt: three cycles pass between the instruction in E and the handler's first one (Table 12.7). -/
def interruptOp (c latency : Nat) (s : State) : State :=
  let v := s.core c
  if v.canInterrupt then
    s.setCore c { v.enterVector v.pc latency with cycles := v.cycles + 3, cyclesRun := satAdd 64 v.cyclesRun 3 }
  else s
def execInterruptEntry (c : Fin 4) (latency : Nat) (s : State) : Host.Outcome State Fault Refusal :=
  .next (interruptOp c latency s)
/-- 12 R356: leave WAIT, four cycles after the flag appeared: to the vector if IE = 1, else to the instruction after WAIT. cycles are
all cycles spent in WAIT. -/
def waitWakeOp (c cycles : Nat) (s : State) : State :=
  let v := s.core c
  if v.st = .wait ∧ v.eventReady = true then
    let w := { v with st := CoreSt.run, cycles := v.cycles + cycles }
    s.setCore c (if srBit v.sr 4 then w.enterVector (v.pc + 1) 4 else { w with pc := v.pc + 1 })
  else s
def execWaitWake (c : Fin 4) (cycles : Nat) (s : State) : Host.Outcome State Fault Refusal := .next (waitWakeOp c cycles s)
/-- The compare value. -/
def Core.cmp (v : Core) : Nat := v.cmpLo.toNat + 2 ^ 32 * v.cmpHi.toNat
def pmCompareOp (c : Nat) (s : State) : State :=
  let v := s.core c
  if v.armed && decide (v.cmp ≤ s.pm) then tallyEvent c 12 (s.setCore c { v with armed := false }) else s
def msTickOne (c : Nat) (s : State) : State :=
  let v := s.core c
  if v.msSeen = s.pm / 250000 then s else tallyEvent c 13 (s.setCore c { v with msSeen := s.pm / 250000 })
def execMsTick (s : State) : Host.Outcome State Fault Refusal := .next (forRange 4 msTickOne s)
def doorbellOp (c : Nat) (s : State) : State := tallyEvent c 15 s
def execTallyDoorbell (c : Fin 4) (s : State) : Host.Outcome State Fault Refusal := .next (doorbellOp c s)

/-! ### Commands (12 R361 to R363, R365) -/

/-- Registers, IPEND and the posting queue as at reset; memories, counters and results of the past stay. -/
def Core.cleared (v : Core) : Core :=
  { v with g := [], acc := [], pc := 0, sr := 0, esr := 0, epc := 0, vbase := 0, ien := 0, ipend := 0, seg := 0, cmpLo := 0,
           cmpHi := 0, pmHi := 0, cycHi := 0, armed := false, inRpt := false, crc := false, slot := none, rpt := none,
           haltReq := false, cycles := 0, posts := [] }
/-- A tally_command, which the dictionary service writes: it waits while control service is interrupted (13 R385). -/
def tallyWait (c w : Nat) : Waiting := .object (0x9100 + c) 1 (toBytes 4 w)
def tallyRefuse (c : Nat) (s : State) : State :=
  let v := s.core c
  raise (coreSrc c) 0xB 0 (s.setCore c { v with cmdRefused := satAdd 32 v.cmdRefused 1 })
def tallyRunOp (c addr : Nat) (s : State) : State :=
  let v := s.core c
  match v.st with
  | .reset =>
    if v.clearing then tallyRefuse c s else s.setCore c { v.cleared with st := CoreSt.run, crc := true, pc := addr }
  | .halt | .fault =>
    s.setCore c { v with st := CoreSt.run, crc := true, pc := addr, faultCode := 0, inRpt := false, slot := none, rpt := none }
  | _ => tallyRefuse c s
def execTallyRun (c : Fin 4) (addr : BitVec 16) (s : State) : Host.Outcome State Fault Refusal :=
  .next (atService (tallyWait c (1 + 65536 * addr.toNat)) (tallyRunOp c addr.toNat) s)
/-- RUN with RESUME = 1: it continues a halted core at PC; in RESET it is the RUN of that row, which names no RESUME (DEDUCED,
assumption 199). -/
def tallyResumeOp (c addr : Nat) (s : State) : State :=
  let v := s.core c
  if v.st = .reset then tallyRunOp c addr s
  else if v.st = .halt then s.setCore c { v with st := CoreSt.run, crc := true, inRpt := false } else tallyRefuse c s
def execTallyResume (r : RunAt) (s : State) : Host.Outcome State Fault Refusal :=
  .next (atService (tallyWait r.core (257 + 65536 * r.addr.toNat)) (tallyResumeOp r.core r.addr.toNat) s)
def tallyHaltOp (c : Nat) (s : State) : State :=
  let v := s.core c
  match v.st with
  | .run =>
    s.setCore c (if v.slot.isNone && v.rpt.isNone then { v with st := CoreSt.halt, crc := false } else { v with haltReq := true })
  | .wait => s.setCore c { v with st := CoreSt.halt, pc := v.pc + 1 }
  | _ => tallyRefuse c s
def execTallyHalt (c : Fin 4) (s : State) : Host.Outcome State Fault Refusal := .next (atService (tallyWait c 2) (tallyHaltOp c) s)
/-- What a STEP's next instruction meets. -/
def nextEnv (v : TEnv) : TEnv :=
  let e := v.later.headD (.ok, .ok)
  { v with fetch := e.1, data := e.2, stall := 0, idle := 0, later := v.later.tail }
/-- Execute until the instruction with its delay slot or its repetitions has ended. -/
def stepLoop (c : Nat) : Nat → TEnv → State → State
  | 0, _, s => s
  | n + 1, v, s =>
    let s1 := tallyOne c v (tallyDecode (s.pmWord c (s.core c).pc)) s
    let k := s1.core c
    if k.st = .run ∧ (k.slot.isSome ∨ k.rpt.isSome) then stepLoop c n (nextEnv v) s1 else s1
/-- STEP; a WAIT that would wait ends at once (DESIGN CHOICE). -/
def tallyStepOp (c : Nat) (e : TEnv) (s : State) : State :=
  let v := s.core c
  if v.st = .halt then
    let s1 := stepLoop c 4100 e (s.setCore c { v with st := CoreSt.run, inRpt := false })
    let k := s1.core c
    match k.st with
    | .run => s1.setCore c { k with st := CoreSt.halt }
    | .wait => s1.setCore c { k with st := CoreSt.halt, pc := k.pc + 1 }
    | _ => s1
  else tallyRefuse c s
def execTallyStep (c : Fin 4) (v : TEnv) (s : State) : Host.Outcome State Fault Refusal :=
  .next (atService (tallyWait c 3) (tallyStepOp c v) s)
def tallyResetOp (c : Nat) (s : State) : State := s.setCore c { (s.core c).cleared with st := CoreSt.reset }
def execTallyReset (c : Fin 4) (s : State) : Host.Outcome State Fault Refusal := .next (atService (tallyWait c 4) (tallyResetOp c) s)
/-- A per-block reset (R365): the RESET command and a master reset. -/
def tallyBlockReset (c : Nat) (s : State) : State := masterResetOp (2 + c) (tallyResetOp c s)
def tallyClearOp (c : Nat) (s : State) : State :=
  s.setCore c { (s.core c) with cyclesRun := 0, cyclesStalled := 0, latency := 0, merged := 0, queued := 0, refused := 0,
                                pmCorr := 0, dmCorr := 0, uncorr := 0, cmdRefused := 0 }
def execTallyClearCounters (c : Fin 4) (s : State) : Host.Outcome State Fault Refusal :=
  .next (atService (tallyWait c 5) (tallyClearOp c) s)
/-- R362: the CRC over the whole program memory. -/
def pmCrcOp (c : Nat) (s : State) : State :=
  let v := s.core c
  if v.st = .run ∧ v.crc = true then
    s.setCore c (haltBoundary { v with crc := false, imageCrc := crc32 (s.bytesAt (pmBase c) 262144),
                                       cycles := v.cycles + 32768, cyclesRun := satAdd 64 v.cyclesRun 32768 })
  else s
def execPmCrcDone (c : Fin 4) (s : State) : Host.Outcome State Fault Refusal := .next (pmCrcOp c s)
/-- The image is good (R363). -/
def tallyImageOk (b : List Byte) : Bool :=
  let h := ofBytes (b.take 16)
  let words := b.drop 16
  let n := bits 48 32 h
  decide (16 ≤ b.length) && bits 15 0 h == 1 && decide (1 ≤ n) && decide (bits 31 16 h + n ≤ 65536)
    && words.length == 4 * n && crc32 words == bits 95 64 h
/-- tally_program, whole. -/
def tallyProgramOp (c : Nat) (b : List Byte) (s : State) : State :=
  if (s.core c).busy then raise (coreSrc c) 9 0 s
  else if tallyImageOk b then storeBytes (pmBase c + 4 * bits 31 16 (ofBytes (b.take 16))) (b.drop 16) s
  else raise (coreSrc c) 0xC 0 s
/-- Segments are held until the last one. -/
def tallySegmentOp (c : Nat) (b : List Byte) (last : Bool) (s : State) : State :=
  let v := s.core c
  let all := v.image ++ b
  if last then tallyProgramOp c all (s.setCore c { v with image := [] }) else s.setCore c { v with image := all }
def execTallyProgram (c : Fin 4) (bytes : List Byte) (last : Bool) (s : State) : Host.Outcome State Fault Refusal :=
  .next (tallySegmentOp c bytes last s)
/-- The memory without a range of canonical addresses. -/
def wipeRange (a n : Nat) (s : State) : State :=
  { s with mm := { s.mm with mem := s.mm.mem.filter fun e => e.1 < a || a + n ≤ e.1
                             bad := s.mm.bad.filter fun e => 8 * e.1 < a || a + n ≤ 8 * e.1 } }
/-- R365: both memories written to 0. -/
def tallyClearDoneOp (c : Nat) (s : State) : State :=
  let v := s.core c
  if v.clearing then wipeRange (pmBase c) 0x40000 (wipeRange (dmBase c) 0x80000 (s.setCore c { v with clearing := false })) else s
def execTallyClearDone (c : Fin 4) (s : State) : Host.Outcome State Fault Refusal := .next (tallyClearDoneOp c s)

/-! ### Objects (12 Tables 12.17, 12.18) -/

def CoreSt.code : CoreSt → Nat | .reset => 0 | .halt => 1 | .run => 2 | .wait => 3 | .fault => 4
/-- tally_state. -/
def Core.status (v : Core) : Nat :=
  v.st.code + 8 * b2n (srBit v.sr 4) + 16 * b2n (srBit v.sr 5) + 32 * b2n (srBit v.sr 6) + 64 * b2n v.inRpt
    + 128 * b2n v.clearing + 256 * v.posts.length
/-- A Tally object read as a number; tally_pc in RUN is a free value. -/
def tallyRead_ (c sub : Nat) (s : State) : Nat × State :=
  let v := s.core c
  match sub with
  | 2 => (v.status, s)
  | 3 => if v.st = .run then let (k, s1) := s.draw; ((Config.tallyPc k).toNat, s1) else (v.pc, s)
  | 6 => (v.cyclesRun, s) | 7 => (v.cyclesStalled, s) | 8 => (v.faultCode, s) | 9 => (v.faultPc, s)
  | 0xA => (v.latency, s) | 0xB => (v.merged, s) | 0xC => (v.queued, s) | 0xD => (v.refused, s) | 0xE => (v.pmCorr, s)
  | 0xF => (v.dmCorr, s) | 0x10 => (v.uncorr, s) | 0x11 => (v.imageCrc, s) | 0x12 => (v.cmdRefused, s)
  | _ => (0, s)

end Sys2Proof.Machine
end

