-- ==== Sys2Proof/Machine/Stewards.lean ====
section
/-! DEFINITION. The Steward pair (13 R381 to R390): divergence, diagnostic, solo running, rejoin, the mirror region, and the
abandoning of open dictionary writes that a reset of the dictionary store shares (14 R401, R422). -/

namespace Sys2Proof.Machine

open Sys2Proof

/-! ### Access -/

/-- The source number of core A (false) or B (true). -/
def stewSrc (b : Bool) : Nat := if b then 0xA11 else 0xA10
/-- A core's condition. -/
def Ctrl.cond (k : Ctrl) (b : Bool) : CoreCond := if b then k.condB else k.condA
def Ctrl.setCond (k : Ctrl) (b : Bool) (c : CoreCond) : Ctrl := if b then { k with condB := c } else { k with condA := c }
/-- A core that leaves service: LATCHED stays LATCHED. -/
def Ctrl.drop (k : Ctrl) (b : Bool) : Ctrl := if k.cond b = .latched then k else k.setCond b .offline
/-- The pair runs on the other core while this one is out. -/
def soloOf (out : Bool) : PairSt := if out then .soloA else .soloB
/-- The offline core of a pair state, if one core runs alone. -/
def PairSt.offline (p : PairSt) : Option Bool := match p with | .soloA => some true | .soloB => some false | _ => none
/-- last_outage (13 R385) at the return of control service. -/
def State.outage (s : State) : Nat := min ((s.now - s.ctrl.stopAt + 125) / 250) (2 ^ 32 - 1)

/-! ### Divergence and diagnostic (13 R382 to R385) -/

/-- The held request is issued on a core's port (13 Table 13.6). -/
def issueHeld (b : Bool) (s : State) : State :=
  match s.ctrl.held with
  | none => s
  | some r => issueBus (b2n b) (if b then r.2 else r.1) [] (s.setCtrl { s.ctrl with held := none })
/-- The pair leaves LOCKSTEP for its diagnostic; a request it held waits. -/
def diverge (test : Bool) (held : Option (BusReq × BusReq)) (hurt : Option Bool) (s : State) : State :=
  let k := s.ctrl
  raiseT test 0xA10 1 (match held with | some q => q.1.addr.toNat | none => 0)
    (s.setCtrl { k with pair := .diag, held := held, hurt := hurt, stopAt := s.now, tested := false,
                        divergences := satAdd 32 k.divergences 1 })
/-- 13 R382: a request of A reaches the matrix once B's equals it. An injection on the comparator is one mismatch (16 Table 16.8). -/
def pairRequest (a b : BusReq) (ecc : List (Nat × Ecc)) (s : State) : State :=
  match injFor 0xA10 5 s with
  | some i => diverge (!i.react) (some (a, b)) none (injCount i s)
  | none => if a = b then issueBus 0 a ecc s else diverge false (some (a, b)) none s
/-- A request of the Stewards' firmware: of the pair in LOCKSTEP, else of the core that runs. -/
def stewIssue (q : BusReq) (ecc : List (Nat × Ecc)) (s : State) : State :=
  if s.ctrl.pair = .lockstep then pairRequest q q ecc s
  else if s.ctrl.pair.serves then issueBus (b2n s.ctrl.issuer) q ecc s else s
def mismatchOp (r : StewReq) (s : State) : State :=
  match r with
  | .corrected b => if s.ctrl.cond b = .ok then raise (stewSrc b) 9 0 s else s
  | .both a b ecc => if s.ctrl.pair = .lockstep then pairRequest a b ecc s else s
  | .error b held => if s.ctrl.pair = .lockstep then diverge false (held.map fun q => (q, q)) (some b) s else s
def execStewardMismatch (r : StewReq) (s : State) : Host.Outcome State Fault Refusal := .next (mismatchOp r s)
/-- Core b drops out and the other goes on alone, with the held request. -/
def dropOut (b : Bool) (s : State) : State :=
  let s1 := masterResetOp (b2n b) s
  let s2 := raise (stewSrc b) 2 0 (s1.setCtrl { s1.ctrl.drop b with pair := soloOf b, issuer := !b, tested := false, hurt := none,
                                                                    lastOutage := s1.outage })
  issueHeld (!b) s2
/-- A core starts alone, as in RESTART (13 Table 13.6). -/
def startAlone (b : Bool) (s : State) : State :=
  s.setCtrl { s.ctrl.setCond b .ok with pair := soloOf (!b), issuer := b, tested := false, lastOutage := s.outage, syncAt := none }
/-- Neither core runs: the cores that ran are held in reset, their masters too. A core whose diagnostic runs goes on with it; one that
has passed starts alone (DEDUCED, assumption 200). -/
def haltPair (cores : List Bool) (passed : Option Bool) (s : State) : State :=
  let k := cores.foldl (fun k b => Ctrl.drop k b) s.ctrl
  let s1 := cores.foldl (fun s b => raise (stewSrc b) 4 0 (masterResetOp (b2n b) s))
    (s.setCtrl { k with pair := .halted, held := none, hurt := none, tested := false })
  match passed with
  | some b => startAlone b s1
  | none => s1
/-- The diagnostic ends. A core with an uncorrectable error fails it (13 R383). Where both pass, both are reset (DEDUCED, assumption
200). -/
def diagOp (a b : Bool) (s : State) : State :=
  if s.ctrl.pair = .diag then
    match a && s.ctrl.hurt != some false, b && s.ctrl.hurt != some true with
    | true, false => dropOut true s
    | false, true => dropOut false s
    | true, true =>
      let s1 := masterResetOp 1 (masterResetOp 0 s)
      raise 0xA10 3 0 (s1.setCtrl { s1.ctrl with pair := .restart, held := none, restarts := satAdd 32 s1.ctrl.restarts 1 })
    | false, false => haltPair [false, true] none s
  else s
def execDiagDone (a b : Bool) (s : State) : Host.Outcome State Fault Refusal := .next (diagOp a b s)
/-- The firmware is restored. -/
def restartOp (s : State) : State :=
  if s.ctrl.pair = .restart then
    s.setCtrl { s.ctrl with pair := .lockstep, issuer := false, lastOutage := s.outage, syncAt := none }
  else s
def execRestartDone (s : State) : Host.Outcome State Fault Refusal := .next (restartOp s)

/-! ### Rejoining (13 R383, R384) -/

/-- The quiet period of core b has ended: an offline core runs its diagnostic. -/
def stewQuiet (b : Bool) (s : State) : State :=
  let k := s.ctrl
  if k.cond b = .offline ∧ (k.pair.offline = some b ∨ k.pair = .halted) then s.setCtrl (k.setCond b .testing) else s
/-- The offline core's diagnostic ends; a core that passes in HALTED starts alone. -/
def stewTest (b pass : Bool) (s : State) : State :=
  let k := s.ctrl
  if k.cond b ≠ .testing then s
  else if k.pair = .halted then
    if pass then startAlone b s else s.setCtrl (k.setCond b .offline)
  else if k.pair.offline = some b then
    if pass then s.setCtrl { k with tested := true }
    else raise (stewSrc b) 5 0 (s.setCtrl (k.setCond b .offline))
  else s
def execStewardTestDone (core pass : Bool) (s : State) : Host.Outcome State Fault Refusal := .next (stewTest core pass s)
/-- The firmware reaches a sync point: the interval since the last one is measured, and a passed core gets its copy. -/
def syncPointOp (s : State) : State :=
  let k := s.ctrl
  if k.pair.serves then
    let gap := match k.syncAt with | some t => min ((s.now - t + 125) / 250) 0xFFFF | none => 0
    let k1 := { k with syncMax := max k.syncMax gap, syncAt := some s.now }
    s.setCtrl (if k1.tested ∧ k1.pair.offline.isSome then { k1 with pair := .resync, tested := false } else k1)
  else s
def execStewardSyncPoint (s : State) : Host.Outcome State Fault Refusal := .next (syncPointOp s)
/-- The copy is complete. ISSUER names the survivor. -/
def resyncOp (s : State) : State :=
  let k := s.ctrl
  if k.pair = .resync then
    raise (stewSrc (!k.issuer)) 6 0 (s.setCtrl { k with pair := .lockstep, condA := .ok, condB := .ok, issuer := false,
                                                        rejoins := satAdd 32 k.rejoins 1 })
  else s
def execResyncDone (s : State) : Host.Outcome State Fault Refusal := .next (resyncOp s)
/-- An uncorrectable error in the survivor. -/
def survivorOp (s : State) : State :=
  match s.ctrl.pair.offline with
  | some b => haltPair [!b] (if s.ctrl.tested then some b else none) (s.setCtrl { s.ctrl with stopAt := s.now })
  | none => s
def execSurvivorFault (s : State) : Host.Outcome State Fault Refusal := .next (survivorOp s)
/-- A core that does not run is reset: it is OFFLINE, and its quiet period starts anew. -/
def offCore (b : Bool) (s : State) : State :=
  let s1 := masterResetOp (b2n b) s
  raise (stewSrc b) 2 0 (s1.setCtrl { s1.ctrl.drop b with tested := false })
/-- A per-block reset of core b (13 R388), as in the DIAG row where it fails; the last core that runs is a survivor with an error
(DEDUCED, assumption 200). -/
def stewReset (b : Bool) (s : State) : State :=
  let now := s.setCtrl { s.ctrl with stopAt := s.now }
  match s.ctrl.pair with
  | .lockstep => dropOut b now
  | .diag => if s.ctrl.hurt = some (!b) then haltPair [false, true] none s else dropOut b s
  | .restart => dropOut b s
  | .soloA => if b then survivorOp s else offCore b s
  | .soloB => if b then offCore b s else survivorOp s
  | .resync => if b = s.ctrl.issuer then haltPair [b] (some (!b)) now else dropOut b now
  | .halted => offCore b s

/-! ### Mirror region (13 R386) -/

/-- The lowest ID that a master has free. -/
def State.freeId (s : State) (m : Nat) : Nat :=
  ((List.range 16).find? fun i => !s.ctrl.reqs.any fun r => r.m == m && r.id == i).getD 0
/-- The firmware reads a word of the mirror region. -/
def mirrorOp (a : Nat) (one two : Ecc) (s : State) : State :=
  if 0x20680000 ≤ a ∧ a < 0x206C0000 ∧ a % 8 = 0 then
    stewIssue ⟨BitVec.ofNat 4 (s.freeId (b2n s.ctrl.issuer)), BitVec.ofNat 40 a, false, 3, 0, false, [], []⟩ [(a, one), (a, two)] s
  else s
def execMirrorRead (a : BitVec 40) (one two : Ecc) (s : State) : Host.Outcome State Fault Refusal :=
  .next (mirrorOp a.toNat one two s)

/-! ### Objects (13 R389, R390) -/

def PairSt.code : PairSt → Nat
  | .lockstep => 0 | .diag => 1 | .soloA => 2 | .soloB => 3 | .resync => 4 | .restart => 5 | .halted => 6
def CoreCond.code : CoreCond → Nat | .ok => 0 | .offline => 1 | .testing => 2 | .latched => 3
/-- steward_state. -/
def Ctrl.status (k : Ctrl) : Nat := k.pair.code + 8 * k.condA.code + 32 * k.condB.code + 128 * b2n k.issuer
/-- Control-plane objects read as numbers. -/
def ctrlRead (idx sub : Nat) (s : State) : Nat :=
  let k := s.ctrl
  if idx = 0x2100 then
    match sub with
    | 1 => b2n k.remap | 2 => k.deadTotal | 3 => k.deadAddr | 4 => k.deadMaster | 5 => k.deadPm | _ => 0
  else if idx = 0x2101 then k.dead.get zeroTab (sub - 1)
  else if idx = 0x2102 then k.resets.get zeroTab (sub - 1)
  else if idx = 0x2110 then
    match sub with
    | 1 => k.status | 2 => k.divergences | 3 => k.restarts | 4 => k.rejoins | 5 => crc32 imageBytes
    | 6 => Config.firmwareVersion % 2 ^ 32 | 7 => k.mirrorCorr | 8 => k.lastOutage | 9 => k.syncMax | _ => 0
  else 0

/-! ### Open dictionary writes (14 R401, R422) -/

/-- An abandoned stream reaches its block as an incomplete image, which the block refuses. -/
def abandonWrite (a : Assembly) (s : State) : State :=
  if 0x5300 ≤ a.idx ∧ a.idx ≤ 0x5317 ∧ (a.sub = 3 ∨ a.sub = 4) then bankAbandon (natSub a.idx 0x5300) (a.sub == 4) s
  else if 0x9100 ≤ a.idx ∧ a.idx ≤ 0x9103 ∧ a.sub = 4 then
    let c := natSub a.idx 0x9100
    let v := s.core c
    raise (coreSrc c) (if v.busy then 9 else 0xC) 0 (s.setCore c { v with image := [] })
  else s
def State.setDict (s : State) (d : Dict) : State := { s with dict := d }
/-- A per-block reset of the dictionary store. -/
def storeReset (s : State) : State :=
  let s1 := s.dict.open_.foldl (fun s a => abandonWrite a s) s
  s1.setDict { s1.dict with open_ := [], clients := [] }

end Sys2Proof.Machine
end

