-- ==== Sys2Proof/Machine/Sorting.lean ====
section
/-! DEFINITION. The Sorting Office (16 R453 to R466, R482, R483): acceptance, classes and reactions, source states, quiet
periods and the latch, the queue, test injection, and the per-block reset of every block (14 R423, 18 Table 18.5). -/

namespace Sys2Proof.Machine

open Sys2Proof

def State.setSo (s : State) (x : Sorting) : State := { s with so := x }

/-! ### Per-block resets (14 R423) -/

/-- A source number of a Steward core. -/
def isSteward (n : Nat) : Bool := n == 0xA10 || n == 0xA11
/-- RECENT: the recoveries completed within the last recovery_window. -/
def State.recent (s : State) (n : Nat) : Nat :=
  ((s.srcState n).recTimes.filter fun t => decide (s.tbk < t + 1000 * s.cfg (ob 0x2300 2))).length
/-- FAULT_HELD of a block. -/
def setHeld (n : Nat) (b : Bool) (s : State) : State := (s.modBlk n fun v => { v with held := b, running := v.running && !b })
/-- The quiet period starts anew. -/
def State.quietFrom (s : State) : Option Nat := some (s.tbk + s.cfg (ob 0x2300 1))
/-- 16 R480: a per-block reset of a cell slot: a working slot is held and its source enters RECOVERING, or LATCHED, as after a mismatch,
and its position is promoted; the standby and the Rambler are released into their self-test. It does nothing to another slot, which is
held or on its way in (DESIGN CHOICE, assumption 203). -/
def slotReset (k slot : Nat) (s : State) : State :=
  let n := cellSrc k slot
  match (s.cl k).posOf slot with
  | some _ =>
    if (s.blk n).held ∨ (s.srcState n).st = 2 then s
    else
      let s1 := slotIsolate k slot (setHeld n true s)
      if s.cfg (ob 0x2300 3) ≤ s.recent n then raise 0xA40 2 n (s1.modSrc n fun v => { v with st := 2, quietEnd := none })
      else s1.modSrc n fun v => { v with st := 1, quietEnd := s.quietFrom }
  | none => if slot = 17 ∨ (s.cl k).standby = some slot then slotRelease k slot (setHeld n false s) else s
/-- A block that is reset processes nothing until its next unit (02 R27). -/
def State.stopUnits (s : State) (n : Nat) : State :=
  if (s.blk n).running then s.modBlk n fun b => { b with running := false } else s
/-- A per-block reset by source number. block_reset answers RANGE for the reserved numbers and for 0x940, 0xA40, 0xA70 and
0xA80; the bus matrix refuses it (13 R388). -/
def blockReset (n : Nat) (s0 : State) : State :=
  let s := s0.stopUnits n
  match blockType n with
  | some 0x01 | some 0x02 | some 0x03 => laneReset n s
  | some 0x04 => masterResetOp 9 s
  | some 0x05 => masterResetOp 8 s
  | some 0x10 => engineReset (n - 0x100) s
  | some 0x11 => portReset (n - 0x120) s
  | some 0x20 => clusterReset (n - 0x140) s
  | some 0x21 => slotReset ((n - 0x200) / 18) ((n - 0x200) % 18) s
  | some 0x30 => stackReset (n - 0x900) s
  | some 0x31 => accReset (n - 0x910) s
  | some 0x40 => compReset (n - 0x920) s
  | some 0x41 => asmReset s
  | some 0x60 => tallyBlockReset (n - 0xA00) s
  | some 0x61 => stewReset (n == 0xA11) s
  | some 0x62 => courReset s
  | some 0x63 => raise 0xA30 Config.busRefusedKind 0 s
  | some 0x65 => storeReset s
  | some 0x66 => timeReset s
  | _ => s
/-- block_reset's RANGE (14 Table 14.16). -/
def blockResetOk (n : Nat) : Bool :=
  (blockType n).isSome && n != 0x940 && n != 0xA40 && n != 0xA70 && n != 0xA80

/-! ### Source states (16 R460, R461) -/

/-- ISOLATE: a per-block reset and FAULT_HELD; a cell slot is gated and its position promoted. -/
def isolateOp (n : Nat) (s : State) : State :=
  let s1 := setHeld n true s
  match blockType n with
  | some 0x21 => slotIsolate ((n - 0x200) / 18) ((n - 0x200) % 18) s1
  | _ => blockReset n s1
/-- The latch effect of R461. -/
def latchEffect (n : Nat) (s : State) : State :=
  match blockType n with
  | some 0x10 | some 0x40 | some 0x21 => if (s.blk n).held then s else isolateOp n s
  | some 0x61 =>
    let b := n == 0xA11
    if s.ctrl.cond b = .ok then s else s.setCtrl (s.ctrl.setCond b .latched)
  | _ => s
/-- A release clears FAULT_HELD and applies a per-block reset; a cell slot or Rambler runs its self-test first. -/
def releaseOp (n : Nat) (s : State) : State :=
  if (s.blk n).held then
    let s1 := setHeld n false s
    match blockType n with
    | some 0x21 => slotRelease ((n - 0x200) / 18) ((n - 0x200) % 18) s1
    | _ => blockReset n s1
  else s
/-- A reaction other than NOTE at a source (Table 16.5). -/
def reactAt (n kind cls : Nat) (r : Reaction) (s0 : State) : State :=
  let s := s0.modSrc n fun v => { v with lastKind := kind, lastClass := cls, lastTbk := s0.tbk }
  let v := s.srcState n
  if v.st = 2 then s
  else if s.cfg (ob 0x2300 3) ≤ s.recent n then
    raise 0xA40 2 n (latchEffect n (s.modSrc n fun v => { v with st := 2, quietEnd := none }))
  else
    let s1 := s.modSrc n fun v => { v with st := 1, quietEnd := s.quietFrom }
    match r with
    | .isolate | .promote => if (s.blk n).held then s1 else isolateOp n s1
    | _ => s1

/-! ### Acceptance and the queue (16 R454, R457, R464) -/

/-- The Postcard accepted next: ascending SOURCE, then ascending KIND. -/
def firstCard : List WaitCard → Option WaitCard
  | [] => none
  | c :: r => match firstCard r with
    | none => some c
    | some d => if d.src < c.src ∨ (d.src = c.src ∧ d.kind < c.kind) then some d else some c
/-- Class and reaction at acceptance; an injected error's card is TEST. -/
def classOf (c : WaitCard) : Nat × Reaction := if c.test then (0xE, .note) else reactionOf c.src c.kind
/-- Queue a card, or count it as dropped. -/
def queueCard (c : Card) (s : State) : State :=
  let x := s.so
  if x.next - x.acked < 4096 then
    s.setSo { x with queue := x.queue.set (fun _ => {}) (x.next % 4096) c, next := x.next + 1 }
  else s.setSo { x with dropped := satAdd 32 x.dropped 1, dropsSince := satAdd 32 x.dropsSince 1 }
/-- The Sorting Office runs with the main domain. -/
def acceptOp (s : State) : State :=
  if s.pwr.inReset then s
  else match firstCard s.so.waiting with
  | none => s
  | some c =>
    let (cls, r) := classOf c
    let s1 := queueCard ⟨c.src, c.kind, cls, c.addr, s.pm⟩ (s.setSo { s.so with waiting := s.so.waiting.erase c })
    if r = .note then s1 else reactAt c.src c.kind cls r s1
def execPostcardAccept (s : State) : Host.Outcome State Fault Refusal := .next (acceptOp s)
/-- 16 R464: whether pc_ack takes a value. -/
def State.ackOk (s : State) (a : Nat) : Bool := decide (s.so.acked ≤ a ∧ a ≤ s.so.next)
def pcAckOp (a : Nat) (s : State) : State :=
  if s.ackOk a then
    let s1 := s.setSo { s.so with acked := a }
    if s.so.acked < a ∧ 0 < s.so.dropsSince then
      queueCard ⟨0xA40, 1, 8, s.so.dropsSince % 2 ^ 32, s.pm⟩ (s1.setSo { s1.so with dropsSince := 0 })
    else s1
  else s
def execPcAck (a : BitVec 64) (s : State) : Host.Outcome State Fault Refusal :=
  .next (atService (.object 0x2300 6 (toBytes 8 a.toNat)) (pcAckOp a.toNat) s)

/-! ### Quiet period, window, release (16 R460, R462) -/

/-- The quiet period of a source ends; an offline Steward core then tests itself (13 Table 13.6). -/
def quietEndOp (n : Nat) (s : State) : State :=
  let v := s.srcState n
  match v.quietEnd with
  | none => s
  | some t =>
    if v.st = 1 ∧ t ≤ s.tbk then
      let s1 := releaseOp n (s.modSrc n fun v => { v with st := 0, quietEnd := none, recTimes := s.tbk :: v.recTimes,
                                                          recoveries := satAdd 32 v.recoveries 1 })
      if isSteward n then stewQuiet (n == 0xA11) s1 else s1
    else s
def execQuietPeriodEnd (src : BitVec 12) (s : State) : Host.Outcome State Fault Refusal := .next (quietEndOp src.toNat s)
def execStewardQuietEnd (core : Bool) (s : State) : Host.Outcome State Fault Refusal := .next (quietEndOp (stewSrc core) s)
/-- Recoveries older than the window no longer count. -/
def windowOp (n : Nat) (s : State) : State :=
  s.modSrc n fun v => { v with recTimes := v.recTimes.filter fun t => decide (s.tbk < t + 1000 * s.cfg (ob 0x2300 2)) }
def execRecoveryWindowExpiry (src : BitVec 12) (s : State) : Host.Outcome State Fault Refusal := .next (windowOp src.toNat s)
/-- 16 R462: whether fault_release names a LATCHED source that it may release. -/
def State.releaseOk (s : State) (n : Nat) : Bool :=
  (blockType n).isSome && !isSteward n && (s.srcState n).st == 2
def faultReleaseOp (n : Nat) (s : State) : State :=
  if s.releaseOk n then
    raise 0xA40 3 n (releaseOp n (s.modSrc n fun v => { v with st := 0, recTimes := [] }))
  else s
def execFaultRelease (v : BitVec 16) (s : State) : Host.Outcome State Fault Refusal :=
  .next (atService (.object 0x2300 9 (toBytes 2 v.toNat)) (faultReleaseOp v.toNat) s)

/-! ### Test injection (16 R465, R466) -/

/-- The MASK bits that a checker of a source uses; none where it has no such checker (Table 16.8). -/
def injMask (src checker : Nat) : Option Nat :=
  match blockType src with
  | none => none
  | some ty =>
    match checker with
    | 1 => if [0x10, 0x20, 0x30, 0x40, 0x41, 0x60, 0x62, 0x65].contains ty then some 0xFF else none
    | 2 => if ty = 0x10 ∨ ty = 0x60 then some 0xFF else none
    | 3 => if ty = 0x01 ∨ ty = 0x02 then some 0xFFFFFFFF else none
    | 4 => if ty = 0x21 ∧ (src - 0x200) % 18 ≤ 16 then some 1 else none
    | 5 => if src = 0xA10 then some 1 else none
    | _ => none
/-- The record's RANGE check. -/
def injOk (r : Nat) : Bool :=
  let count := bits 79 64 r
  let mask := bits 63 32 r
  match injMask (bits 11 0 r) (bits 19 12 r) with
  | none => false
  | some b => mask != 0 && (mask &&& b) == mask && count != 0 && (bits 19 12 r != 5 || count == 1)
def injectOp (r : Nat) (s : State) : State :=
  if injOk r && s.so.inj.isNone then
    s.setSo { s.so with inj := some ⟨bits 11 0 r, bits 19 12 r, bit 20 r, bits 63 32 r, bits 79 64 r⟩ }
  else s
def execInjectRequest (r : BitVec 128) (s : State) : Host.Outcome State Fault Refusal :=
  .next (atService (.object 0x2300 0xA (toBytes 16 r.toNat)) (injectOp r.toNat) s)

/-! ### Objects (16 R463, R483) -/

/-- A Postcard's 16 bytes (Table 16.1). -/
def Card.bytes (c : Card) : List Byte :=
  toBytes 16 (c.pm % 2 ^ 64 + 2 ^ 64 * (c.addr % 2 ^ 40) + 2 ^ 104 * c.cls + 2 ^ 108 * c.kind + 2 ^ 116 * c.src)
def State.cardBytes (s : State) (e : Nat) : List Byte := (s.so.queue.get (fun _ => {}) e).bytes
/-- A source_state element (Table 16.6). -/
def State.srcBytes (s : State) (n : Nat) : List Byte :=
  if (blockType n).isNone then List.replicate 16 0
  else
    let v := s.srcState n
    toBytes 16 (v.st + 4 * b2n (s.blk n).held + 256 * v.lastKind + 65536 * v.lastClass + 2 ^ 24 * min 255 (s.recent n)
      + 2 ^ 32 * v.recoveries + 2 ^ 64 * v.lastTbk)
/-- inject_status. -/
def State.injStatus (s : State) : Nat :=
  match s.so.inj with
  | none => 0
  | some i => i.src + 4096 * i.checker + 2 ^ 20 + 2 ^ 32 * i.count
/-- Sorting Office objects read as numbers. -/
def sortRead (sub : Nat) (s : State) : Nat :=
  match sub with
  | 5 => s.so.next | 7 => s.so.acked | 8 => s.so.dropped | 0xB => s.injStatus
  | 0xC => (s.dict.blks.filter fun b => b.2.held).length
  | 0xD => (s.so.srcs.filter fun v => v.2.st == 2).length
  | _ => 0

end Sys2Proof.Machine
end

