-- ==== Sys2Proof/Machine/Timetable.lean ====
section
/-! DEFINITION. The Timetable (14 R408 to R414, R420): candidate, checks, vote, loading and latching, and what a latched set
does in each kind of block (02 R28); CONFIG messages of the coordinator (06 R173, R188). -/

namespace Sys2Proof.Machine

open Sys2Proof

def State.tt (s : State) : Timetable := s.dict.tt
def State.setTt (s : State) (t : Timetable) : State := s.setDict { s.dict with tt := t }
/-- More than one part takes part in the current commit. -/
def State.multi (s : State) : Bool := s.tt.system && !s.alone

/-! ### The common set (14 R396) -/

/-- The bytes of a setting. -/
def settingBytes (k v : Nat) : List Byte := match objInfo (k / 256) (k % 256) with | some o => toBytes o.size v | none => []
/-- The CRC of a set's common objects. -/
def commonCrc (m : Tab Nat) : Nat := crc32 (commonObjs.flatMap fun k => settingBytes k (setVal m k))

/-! ### The dictionary store (14 R420) -/

/-- A store Postcard about an object. -/
def storeCard (test : Bool) (kind o : Nat) (s : State) : State :=
  raiseT test 0xA50 kind (o / 256 + 65536 * (o % 256)) s
/-- Mark an object: 1 in the shadow set, 2 in the candidate. -/
def markObj (o w : Nat) (s : State) : State :=
  s.setDict { s.dict with marked := s.dict.marked.set (fun _ => 0) o (s.dict.marked.get (fun _ => 0) o ||| w) }
/-- One check of the store at an object of the shadow set (w 1), the candidate (2) or the active image (0). -/
def storeCheck (o w : Nat) (e : Ecc) (s : State) : State :=
  let (r, t, s1) := eccCheck 0xA50 1 e s
  match r with
  | .ok => s1
  | .corrected => storeCard t 4 o (s1.setDict { s1.dict with storeCorr := satAdd 32 s1.dict.storeCorr 1 })
  | .uncorrectable => if w = 0 then s1 else storeCard t 5 o (markObj o w s1)

/-! ### The checks (14 Table 14.11) -/

/-- reject_detail where no single block applies. -/
def noBlock : Nat := 0xFFFFFFFF
/-- A check that fails with a block, or the checks after it. -/
def chk (code : Nat) (bad : Option Nat) (rest : Nat × Nat) : Nat × Nat := match bad with | some d => (code, d) | none => rest
/-- A chip-level check. -/
def chkAll (code : Nat) (bad : Bool) (rest : Nat × Nat) : Nat × Nat := if bad then (code, noBlock) else rest

/-- Every block number. -/
def allBlocks : List Nat := (List.range 0xA81).filter fun n => (blockType n).isSome
/-- 0x05: a block that holds 4 latched sets. -/
def State.fullQueue (s : State) : Option Nat := allBlocks.find? fun n => decide (4 ≤ s.dict.sets.length - (s.blk n).taken)
/-- 0x40: a Relay port or the output group with different generations. -/
def genSplit (m : Tab Nat) : Option Nat :=
  let q (k : Nat) : Nat := setVal m (ob 0x4001 k)
  match (List.range 4).find? fun p => (List.range 7).any fun j => q (0x1A + 7 * p + j) != q (0x1A + 7 * p) with
  | some p => some (portLane p 0)
  | none => if (List.range 5).any fun j => q (0x36 + j) != q 0x36 then some 0xCC else none
/-- 0x41: a RUNNING lane whose quad would change its generation. -/
def State.genRunning (s : State) (m : Tab Nat) : Option Nat :=
  (List.range 222).find? fun l => setVal m (ob 0x4001 (quadSub l)) != s.gen l && (s.lane l).rx == .running
/-- 0x42: a logical lane whose frames do not fit. -/
def State.laneUnfit (s : State) (m : Tab Nat) : Option Nat :=
  ((List.range 96).find? fun l =>
    let o (k : Nat) : Nat := setVal m (ob (0x4200 + l) k)
    decide (1024 * o 4 * outRate (setVal m (ob 0x4001 (quadSub (s.serving l)))) < 4 * (payloadBytes (o 2) (o 3) + 32))).map
      fun l => s.serving l
/-- A commit reloads Plain (05 R143, R152). -/
def State.reloads (s : State) (m : Tab Nat) : Bool :=
  let ch (o : Nat) : Bool := setVal m o != s.cfg o
  ch (ob 0x5000 0x10) || ch (ob 0x5000 0x11) || (setVal m (ob 0x5000 0x16) == 1 && s.cfg (ob 0x5000 0x16) == 0)
/-- The taps of what an engine's banks hold or load. -/
def Engine.taps (v : Engine) : List Nat :=
  [v.a, v.b].flatMap fun k =>
    (if k.st = .empty ∨ k.st = .loading then [] else [k.prof.coef.T])
      ++ (match k.loaded with | some p => [p.coef.T] | none => [])
def setP (m : Tab Nat) (l : Nat) : Nat := setVal m (ob (0x4200 + l) 4)
/-- 0x50. -/
def State.tapsUnfit (s : State) (m : Tab Nat) : Option Nat :=
  if s.reloads m then none
  else ((List.range 24).find? fun e =>
    let pmin := ((List.range 4).map fun q => setP m (4 * e + q)).foldl min 8
    (s.eng e).taps.any fun t => decide (tapLimit (setVal m (ob 0x5000 0x11)) pmin < t)).map engSrc
/-- 0x51. -/
def complexBad (m : Tab Nat) : Bool :=
  let cx (l : Nat) : Bool := setVal m (ob (0x4200 + l) 2) == 4
  let ls := List.range 96
  ls.any cx && (ls.any (fun l => !cx l) || decide (8192 < setVal m (ob 0x5000 0x10)) || ls.any fun l => decide (setP m l < 2))
/-- 0x52. -/
def channelsBad (m : Tab Nat) : Bool :=
  let n := setVal m (ob 0x5000 0x10)
  let last := if setVal m (ob 0x4200 2) = 4 then n else n / 2
  decide (last < setVal m (ob 0x5000 0x13) + setVal m (ob 0x5000 0x14))
/-- 0x53. -/
def State.filterLate (s : State) (m : Tab Nat) : Bool :=
  let d := setVal m (ob 0x5000 0x11)
  let h := maxOf ((List.range 384).map fun i => (setVal m (ob (inIdx i) 3) - 1) / 2)
  let p := maxOf ((List.range 96).map (setP m))
  let t := if s.reloads m then 16 * d - 1 else maxOf ((List.range 24).flatMap fun e => (s.eng e).taps)
  decide (125000 < 50000 + (80 + h * p + 4 * cdiv t 16) + setF m + 256)
/-- 0x54. -/
def delayUnfit (m : Tab Nat) : Option Nat :=
  ((List.range 384).find? fun i =>
    setVal m (ob (0x4200 + i / 4) 2) == 4 && decide (32767 < setVal m (ob (inIdx i) 9))).map fun i => engSrc (i / 16)
/-- 0x60. -/
def State.topologyBad (s : State) (m : Tab Nat) : Bool :=
  let a := torA m
  let b := torB m
  a * b != 1 && (decide (64 < a * b) || !s.relay.mapValid || !mapOk a b s.relay.map)
/-- 0x62: every part holds the same Relay generations (14 R396), so the two ports of a dimension must run one; and the far end of
a link runs the generation its lanes were linked at. -/
def State.relayGen (s : State) (m : Tab Nat) : Option Nat :=
  ((portsUsed m).find? fun p => portGen m p != portGen m (oppPort p) ||
    (s.port p).st.linkedUp && setVal m (ob 0x4001 (0x1A + 7 * p)) != s.gen (portLane p 0)).map portSrc
/-- 0x63. -/
def State.portNotReady (s : State) (m : Tab Nat) : Option Nat :=
  ((portsUsed m).find? fun p =>
    !((s.port p).st == .mapped || (s.port p).st == .scheduled) || (List.range 24).any fun l => !s.served p l).map portSrc
/-- 90 % of 24 lane payloads in Mb/s. -/
def relayCap (g : Nat) : Nat := if g = 3 then 216000 else if g = 2 then 108000 else 54000
/-- The Relay load of a link is over the cap of its generation (06 R176): compared without rounding. -/
def loadOver (m : Tab Nat) (r p : Nat) : Bool := decide (relayCap (portGen m p) * setF m < linkBits m r p)
/-- 0x64. -/
def State.relayLoad (s : State) (m : Tab Nat) : Option Nat :=
  ((portsUsed m).find? fun p => loadOver m (s.rankIn m) p || loadOver m (s.beyondRank m p) (oppPort p)).map portSrc
/-- 0x65: every parcel of the whole system's schedule is placed (06 R167). -/
def relayPack (m : Tab Nat) : Option Nat :=
  ((portsUsed m).find? fun p => (List.range (torA m * torB m)).any fun r => !(linkSlots m r p).2).map portSrc
/-- 0x66: the parcels that a port receives in transit. -/
def State.relayBuffer (s : State) (m : Tab Nat) : Option Nat :=
  ((portsUsed m).find? fun p =>
    let transit := (linkParcels m (s.beyondRank m p) (oppPort p)).filter fun k => k.2.2.1 != s.rankIn m
    decide (3 * 2 ^ 20 < 3 * (transit.map fun k => creditNeed k.2.2.2.2).sum * 64)).map portSrc
/-- 0x90: a logical output lane without a lane in SYNC or RUNNING. -/
def State.outUnserved (s : State) : Option Nat :=
  ((List.range 16).find? fun l =>
    match (s.olane l).phys with
    | some p => !((s.lane (outSrc p)).rx == .sync || (s.lane (outSrc p)).rx == .running)
    | none => true).map fun l => outSrc ((s.olane l).phys.getD l)
/-- 0x92. -/
def beamOutBad (m : Tab Nat) : Bool :=
  decide (4 * 16 * 40 + 4 * 16 * setVal m (ob 0x8100 2) + 4 * (beamSyms m).1
    > 16 * 162500 * outRate (setVal m (ob 0x4001 0x36)))
/-- The block of a DRAM check. -/
def State.dramDetail (s : State) (m : Tab Nat) (pl : Place) (code : Nat) : Nat :=
  if code = 0x80 then
    match (List.range 4).find? fun k => !((s.stk k).st == .ready || (s.stk k).st == .running) with
    | some k => stackSrc k
    | none => noBlock
  else if code = 0x82 then stackSrc 0
  else if code = 0x83 ∧ ((List.range 8).any fun w =>
      !inUser pl (setVal m (ob 0x8200 (0x10 + w))) (setVal m (ob 0x8200 (0x18 + w)))) = true then 0xA20
  else noBlock
/-- P of a request for a set (02 R52). -/
def roundP (at_ : Nat) (m : Tab Nat) : Nat := roundUp at_ (setTB m)
/-- The first failing check and its block; code 0 for none. The timing check stands at the end of the others. -/
def State.commitFault (s : State) (m : Tab Nat) (pl : Place) : Nat × Nat :=
  let t := s.tt
  let fabric := fabricCheck m s.unserved (setChans m) (biasInUser m pl)
  let dram := s.dramFault m pl
  let lead := 2500000 + cdiv (torD m * s.tHopNs + 10000) 4
  chkAll 0x06 (s.dict.marked.any fun x => 2 ≤ x.2) <|
  chk 0x05 s.fullQueue <|
  chk 0x40 (genSplit m) <|
  chk 0x41 (s.genRunning m) <|
  chk 0x42 (s.laneUnfit m) <|
  chk 0x50 (s.tapsUnfit m) <|
  chkAll 0x51 (complexBad m) <|
  chkAll 0x52 (channelsBad m) <|
  chkAll 0x53 (s.filterLate m) <|
  chk 0x54 (delayUnfit m) <|
  chkAll 0x60 (s.topologyBad m) <|
  chkAll 0x61 (setVal m (ob 0x5000 0x14) % setM m != 0) <|
  chk 0x62 (s.relayGen m) <|
  chk 0x63 (s.portNotReady m) <|
  chk 0x64 (s.relayLoad m) <|
  chk 0x65 (relayPack m) <|
  chk 0x66 (s.relayBuffer m) <|
  chkAll 0x67 (decide (250000 < torD m * (setF m + 1024) + 511)) <|
  (if fabric ≠ 0 then (fabric, if fabric = 0x78 then 0x910 else noBlock)
   else if dram ≠ 0 then (dram, s.dramDetail m pl dram)
   else
    chk 0x90 s.outUnserved <|
    chk 0x91 (if outCapacity m < outVolume m then some asmSrc else none) <|
    chk 0x92 (if beamOutBad m then some asmSrc else none) <|
    chkAll 0x01 (decide (t.p < s.pm + lead)) <|
    chkAll 0x03 (t.proposal && t.propCrc != commonCrc m) (0, noBlock))

/-! ### What a latched set does (02 R28, 15 Table 15.7) -/

/-- Blocks that take a set with the data; the others take it at the latch (DESIGN CHOICE, assumption 60). -/
def State.dataDriven (s : State) (n : Nat) : Bool :=
  match blockType n with
  | some 0x10 | some 0x20 | some 0x21 | some 0x31 | some 0x40 | some 0x41 => true
  | some 0x11 => (s.port (n - 0x120)).st == .scheduled
  | _ => false
/-- The effect in one block, and on the cell slots with their cluster. -/
def blockCommit (n p : Nat) (old new : Tab Nat) (s : State) : State :=
  match blockType n with
  | some 0x01 | some 0x02 | some 0x03 =>
    let q := ob 0x4001 (quadSub n)
    if setVal old q = setVal new q then s else genChange n (setVal old q) s
  | some 0x10 => engineCommit (n - 0x100) p old new s
  | some 0x11 => relayCommit (n - 0x120) p new s
  | some 0x20 => let s1 := clusterCommit (n - 0x140) old new s; if n = 0x140 then weightCommit p old new s1 else s1
  | some 0x30 => stackCommit (n - 0x900) new s
  | some 0x31 => if n = 0x910 then accCommit p old new s else s
  | some 0x66 => timeCommit old new s
  | _ => s
/-- Block n applies the sets due for a unit stamped t. -/
def applySets (n t : Nat) (s : State) : State :=
  match s.dueSet n t with
  | some (p, old, new, k) => blockCommit n p old new (s.noteApplied n p k)
  | none => s
/-- A cluster's slots run under its controller's set. -/
def applyUnit (n t : Nat) (s : State) : State :=
  let s1 := applySets n t s
  if blockType n = some 0x20 then forRange 18 (fun j s => applySets (cellSrc (n - 0x140) j) t s) s1 else s1

/-! ### Results (14 Table 14.10) -/

def rejectCommit (code detail : Nat) (s : State) : State :=
  let t := s.tt
  raise 0x940 2 (t.number % 2 ^ 32)
    (s.setTt { t with st := .idle, result := 2, reject := code, detail := detail, cand := none, rejected := satAdd 32 t.rejected 1 })
def acceptCommit (s : State) : State :=
  let t := s.tt
  if t.dry then s.setTt { t with st := .idle, result := 1, reject := 0, cand := none }
  else s.setTt { t with st := .loading, result := 1, reject := 0, commitPm := t.p, accepted := satAdd 32 t.accepted 1 }
/-- The barrier's result. -/
def voteResult (ok : Bool) (s : State) : State :=
  let t := s.tt
  if t.st = .voting then
    if ok then acceptCommit s else if t.own.1 = 0 then rejectCommit 2 noBlock s else rejectCommit t.own.1 t.own.2 s
  else s
/-- The deadline of a commit's vote has passed: P − D t_hop − 10 µs (06 R188). -/
def State.voteOver (s : State) : Bool := decide (s.tt.p ≤ s.pm + torD s.active * s.tHop + us 10)
/-- The coordinator sends the result once the barrier is complete; past the deadline it is 0 (06 R188). -/
def settleBarrier (s : State) : State :=
  if s.rank = 0 then
    match s.relay.barrier, s.barrierResult with
    | some b, some r0 =>
      let r := r0 && !s.voteOver
      voteResult r (sendBarrierDown b.number r (s.setRelay { s.relay with barrier := none }))
    | _, _ => s
  else s
/-- No BARRIER_DOWN by P − 5 µs (06 R188). -/
def commitMissed (s : State) : State :=
  let t := s.tt
  if t.st = .voting ∧ t.p ≤ s.pm + us 5 then
    raise 0x120 0xB (s.port 0).nRank
      (s.setTt { t with st := .idle, result := 3, cand := none, rejected := satAdd 32 t.rejected 1 })
  else s
def execCommitVoteDeadline (s : State) : Host.Outcome State Fault Refusal := .next (commitMissed s)

/-- The checks end. -/
def checksDone (ecc : List (Nat × Ecc)) (s0 : State) : State :=
  if s0.tt.st = .checking then
    let s := ecc.foldl (fun s e => storeCheck e.1 2 e.2 s) s0
    let t := s.tt
    let m := t.cand.getD []
    let pl := s.newPlace m
    let f := s.commitFault m pl
    let s1 := s.setTt { t with place := pl, checkTime := min ((s.now - t.startAt + 125) / 250) (2 ^ 32 - 1) }
    if s.multi then
      let s2 := s1.setTt { s1.tt with st := .voting, own := f, reject := f.1, detail := if f.1 = 0 then t.detail else f.2 }
      match t.down with
      | some r => voteResult r s2
      | none => settleBarrier (barrierVote t.barrier (commonCrc m) (f.1 == 0) s2)
    else if f.1 ≠ 0 then rejectCommit f.1 f.2 s1
    else acceptCommit s1
  else s0
def execCommitChecksDone (ecc : List (Nat × Ecc)) (s : State) : Host.Outcome State Fault Refusal :=
  .next (if s.ctrl.pair.serves then checksDone ecc s else s)
/-- Every block's shadow window holds the candidate (02 R24). -/
def loadedOp (s : State) : State :=
  if s.tt.st = .loading then
    s.setDict { s.dict with loaded := s.tt.cand.getD [], tt := { s.tt with st := .pending } }
  else s
def execCommitLoaded (s : State) : Host.Outcome State Fault Refusal := .next (if s.ctrl.pair.serves then loadedOp s else s)

/-- The PHY's PLCA registers are written where a setting changes (14 R406). -/
def plcaWrites (old new : Tab Nat) (s : State) : State :=
  let v (k : Nat) : Nat := setVal new (ob 0x1020 k)
  let ch := [5, 6, 7].any fun k => setVal old (ob 0x1020 k) != setVal new (ob 0x1020 k)
  if v 9 ≠ 0 ∧ ch = true then
    (s.send (.mdio (v 8) (v 9) (v 0xA) (v 5 + 256 * v 6))).send (.mdio (v 8) (v 9) (v 0xA + 1) (v 7))
  else s
/-- The set joins the latched ones with its placement; marks of the old set end; integrations start anew at P where the set has them
do so; the Timetable is IDLE. -/
def latchSets (s : State) : State :=
  let t := s.tt
  let anew := s.fab.start.isSome && startsAnew s.active (t.cand.getD [])
  { s with dict := { s.dict with sets := s.dict.sets ++ [(t.p, t.cand.getD [])]
                                 marked := (s.dict.marked.filter fun x => x.2 % 2 == 1).map fun x => (x.1, 1)
                                 tt := { t with st := .idle, cand := none } }
           mm := { s.mm with place := s.mm.place ++ [(t.p, t.place)] }
           acc := { s.acc with starts := if anew then s.acc.starts ++ [t.p] else s.acc.starts } }
/-- The control-domain copy reaches P: every block latches, and blocks that carry no data take the set (R412). -/
def latchOp (s : State) : State :=
  if s.tt.st = .pending ∧ s.tt.p ≤ s.pm then
    let s1 := latchSets s
    let s2 := (allBlocks.filter fun n => !s1.dataDriven n).foldl (fun v n => applySets n s.tt.p v) s1
    raise 0x940 1 (s.tt.number % 2 ^ 32) (plcaWrites s.active (s.tt.cand.getD []) s2)
  else s
def execCommitLatch (s : State) : Host.Outcome State Fault Refusal := .next (latchOp s)

/-! ### CONFIG messages of the coordinator (06 R173, 14 R414) -/

/-- The payload of a CONFIG parcel (Table 14.12). -/
def confPayload (kind : Nat) (last : Bool) (b : List Byte) : List Byte :=
  let p := toBytes 4 (kind + 256 * b2n last + 65536 * b.length) ++ b
  p ++ List.replicate (roundUp p.length 8 - p.length) 0
/-- The segments of a message. -/
def confSegments (b : List Byte) (s : State) : List (List Byte) :=
  let n := pMax (setGen s.active) - 4
  pieces n (max 1 (cdiv b.length n)) b
/-- The CONFIG parcels a port still has to send, each counted once. -/
def State.confQueued (s : State) : Nat :=
  maxOf ((List.range 4).map fun p => (((s.port p).service.filter fun c => c.type == 3).length + 1) / 2)
/-- The queue takes a message whole. -/
def State.confRoom (s : State) (b : List Byte) : Bool := decide (s.confQueued + (confSegments b s).length ≤ 64)
/-- Queue a message's parcels, each twice, on the ports of the tree. -/
def confSend (kind : Nat) (b : List Byte) (s : State) : State :=
  let segs := confSegments b s
  let no := s.relay.confNo
  let s1 := s.setRelay { s.relay with confNo := no + 1 }
  segs.zipIdx.foldl (fun s q =>
    let c : SvcParcel := { type := 3, stamp := no, src := s.rank, pseq := q.2, payload := confPayload kind (q.2 + 1 == segs.length) q.1 }
    (s.treeOut s.rank none).foldl (fun s p => queueService p c (queueService p c s)) s) s1
/-- A proposal's contents. -/
def proposalBytes (p barrier : Nat) (dry : Bool) (crc : Nat) : List Byte :=
  toBytes 8 p ++ toBytes 2 barrier ++ toBytes 1 (b2n dry) ++ [0] ++ toBytes 4 crc

/-! ### Requests (14 R408, R409) -/

/-- The part is the coordinator of its system. -/
def State.isCoordinator (s : State) : Bool := s.alone || (s.relay.mapValid && s.rank == 0)
/-- The answer to a commit request: 0 for OK. -/
def State.commitAnswer (s : State) (system : Bool) : Nat :=
  if s.tt.st ≠ .idle then 5
  else if system ∧ s.isCoordinator = false then 7
  else if system ∧ s.alone = false ∧ s.confRoom (proposalBytes 0 0 false 0) = false then 5
  else 0
/-- Take k and copy the shadow set; the copy passes the store's checker. -/
def takeCommit (at_ : Nat) (system dry : Bool) (s0 : State) : State :=
  let s := storeCheck (ob 0x1010 1) 1 .ok s0
  let t := s.tt
  let d := s.dict
  s.setDict { d with marked := (d.marked.filter fun x => x.2 % 2 == 1).map fun x => (x.1, 3)
                     tt := { t with st := .checking, dry := dry, system := system, number := t.seq, seq := (t.seq + 1) % 2 ^ 32,
                                    cand := some d.shadow, own := (0, 0), down := none, at_ := at_, p := roundP at_ d.shadow, startAt := s.now, proposal := false } }
/-- An accepted commit request; the coordinator of several parts sends the proposal. -/
def commitRequestOp (at_ : Nat) (system dry : Bool) (s : State) : State :=
  if s.commitAnswer system = 0 then
    let s1 := takeCommit at_ system dry s
    if s1.multi then
      let no := (s1.relay.barrierNo + 1) % 65536
      let crc := commonCrc (s1.tt.cand.getD [])
      let s2 := (s1.setRelay { s1.relay with barrierNo := no, barrier := some { number := no, start := s1.now } }).setTt
        { s1.tt with barrier := no }
      confSend 2 (proposalBytes s2.tt.p no dry crc) s2
    else s1
  else s
/-- The request, while the service answers. -/
def commitWait (at_ : Nat) (system dry : Bool) (s : State) : State := if s.dict.up then commitRequestOp at_ system dry s else s
def execCommitRequest (at_ : BitVec 64) (s : State) : Host.Outcome State Fault Refusal :=
  .next (atService (.commit at_.toNat false false) (commitWait at_.toNat false false) s)
def execDryRun (at_ : BitVec 64) (system : Bool) (s : State) : Host.Outcome State Fault Refusal :=
  .next (atService (.commit at_.toNat system true) (commitWait at_.toNat system true) s)
def execSystemCommit (at_ : BitVec 64) (dry : Bool) (s : State) : Host.Outcome State Fault Refusal :=
  .next (atService (.commit at_.toNat true dry) (commitWait at_.toNat true dry) s)
/-- A received proposal: the part's own commit request; a part that is not IDLE votes 0 with REJECT PART_BUSY, which stands until its
own commit gives a result (R411; DESIGN CHOICE, assumption 140). -/
def proposalOp (p barrier : Nat) (dry : Bool) (crc : Nat) (s : State) : State :=
  if s.tt.st = .idle then
    let s1 := takeCommit p true dry s
    s1.setTt { s1.tt with p := p, proposal := true, barrier := barrier, propCrc := crc }
  else barrierVote barrier (commonCrc s.dict.shadow) false (s.setTt { s.tt with reject := 4, detail := noBlock })
/-- The proposal, while the service answers. -/
def proposalWait (p barrier : Nat) (dry : Bool) (crc : Nat) (s : State) : State := if s.dict.up then proposalOp p barrier dry crc s else s
def execCommitProposal (p : BitVec 64) (barrier : BitVec 16) (dry : Bool) (crc : BitVec 32) (s : State) :
    Host.Outcome State Fault Refusal :=
  .next (atService (.proposal p.toNat barrier.toNat dry crc.toNat)
    (proposalWait p.toNat barrier.toNat dry crc.toNat) s)

/-! ### Objects (14 R423, R424) -/

def CommitSt.code : CommitSt → Nat | .idle => 0 | .checking => 1 | .voting => 2 | .loading => 3 | .pending => 4
/-- Timetable objects read as numbers. -/
def ttRead (sub : Nat) (s : State) : Nat :=
  let t := s.tt
  match sub with
  | 2 => t.st.code + 8 * b2n t.dry + 16 * b2n t.system + 256 * t.result + 65536 * t.reject + 2 ^ 32 * t.number
  | 3 => t.commitPm | 4 => t.detail | 5 => t.checkTime | 6 => commonCrc s.dict.shadow | 7 => commonCrc s.active
  | 8 => t.accepted | 9 => t.rejected | 0xA => t.seq | _ => 0

end Sys2Proof.Machine
end

