-- ==== Sys2Proof/Machine/Power.lean ====
section
/-! DEFINITION. Supplies, resets and START (18): the power-up sequence, the rail and temperature monitors, the main resets,
the dictionary soft reset, per-block resets by object, START. -/

namespace Sys2Proof.Machine

open Sys2Proof

def State.setPwr (s : State) (p : Pwr) : State := { s with pwr := p }
def pwrSrc : Nat := 0xA80

/-! ### Main resets (18 R514, R515) -/

/-- The whole main domain in reset; the Hamper domain, the enclave and the Postcards that wait in them stay. -/
def mainReset (s : State) : State :=
  { State.reset with
    so := { waiting := s.so.waiting.filter fun c => c.src == enclSrc || c.src == pwrSrc
            lastRaise := s.so.lastRaise.filter fun e => decide (enclSrc ≤ e.1 / 131072) }
    time := s.time.reset
    encl := s.encl
    pwr := { s.pwr with run := .idle, startPm := 0, b0 := 0, rampPin := false, rampSoft := false, softBusy := false, softDue := false, inReset := true }
    tap := s.tap, fresh := s.fresh, outbox := s.outbox, pending := s.pending }
/-- The main domain runs from now on. -/
def mainStart (s : State) : State :=
  { s with lanes := { s.lanes with since := s.now }, time := s.time.reset
           pwr := { s.pwr with inReset := false, cause := s.pwr.newCause, newCause := 0, cards := [] } }
/-- The main domain leaves reset: reset_cause shows the causes taken, and their Postcards are raised. -/
def leaveReset (s : State) : State := s.pwr.cards.foldl (fun s c => raise pwrSrc c.1 c.2 s) (mainStart s)
/-- The cells are ungated. -/
def Pwr.cellsOn (p : Pwr) : Bool := p.run == .ramping || p.run == .running || p.run == .stopping

/-! ### The power-up sequence (18 R504 to R507) -/

/-- SEQ_ENn is released, n from 1 to 3; it is low during a loss of VKA and while the main domain is held off (18 R506). -/
def Pwr.seqEn (p : Pwr) (n : Nat) : Bool := p.vka && decide (n < p.step)

def vkaRiseOp (closed : Bool) (s : State) : State :=
  if s.pwr.vka then s
  else
    let s1 := (s.setTime { s.time with tbk := 0, tbkAt := s.now }).setPwr { s.pwr with vka := true, step := 2, vkaAt := some s.now, newCause := s.pwr.newCause ||| 1 }
    compareLevel (s1.setEncl { s1.encl with epoch := s1.encl.epoch + 1, pin := closed, lock := s1.encl.lock && !closed })
def execVkaRise (closed : Bool) (s : State) : Host.Outcome State Fault Refusal := .next (vkaRiseOp closed s)
/-- A loss of VKA: TB-K, the reset counters and the monitors, and the main domain at once; the Hamper domain's waiting Postcards are lost
(DESIGN CHOICE, assumption 206). -/
def vkaLossOp (s : State) : State :=
  let up : Bool := decide (5 ≤ s.pwr.step)
  let pin : Nat := if s.pwr.rampPin then 16 else 0
  let s1 := mainReset { s with so := { s.so with waiting := s.so.waiting.filter fun c => c.src == enclSrc } }
  (s1.setTime { s1.time with tbk := 0, tbkAt := s.now }).setPwr
    { s1.pwr with vka := false, low := [], high := [], talert := false, hot := false, vkaLow := false, cards := [], step := 0,
                  newCause := s.pwr.newCause ||| (if up then 64 else 0) ||| pin, vkaAt := none, rise := [], broken := false, powerUps := 0, pinResets := 0
                  softResets := 0, brownouts := 0, vkaMin := none, tjMax := none, offRun := 0, below := [] }
def execVkaLoss (s : State) : Host.Outcome State Fault Refusal := .next (vkaLossOp s)
/-- A rail group has been in range for 2 ms: the next SEQ_EN, or the main power-on reset ends. -/
def groupGoodOp (g : Nat) (s : State) : State :=
  let p := s.pwr
  if p.vka ∧ g = 0 then s.setPwr { p with vkaAt := none }
  else if p.vka ∧ p.step = g + 1 then
    if g = 3 then
      let s1 := s.setPwr { p with step := 5, powerUps := satAdd 32 p.powerUps 1, newCause := p.newCause ||| 2 }
      if p.pin then s1 else leaveReset s1
    else s.setPwr { p with step := g + 2 }
  else s
def execRailGroupGood (g : Fin 4) (s : State) : Host.Outcome State Fault Refusal := .next (groupGoodOp g s)
/-- The dictionary service first answers (15 R449). -/
def bootOp (s : State) : State :=
  if s.pwr.vka ∧ s.pwr.step = 5 ∧ s.pwr.inReset = false ∧ s.pwr.rampSoft = false then
    forRange 3 tbMode ((s.setPwr { s.pwr with step := 6, softBusy := false }).setDict { s.dict with up := true })
  else s
def execBootComplete (s : State) : Host.Outcome State Fault Refusal := .next (bootOp s)

/-! ### Monitors (18 Table 18.1, R507, R513) -/

/-- A rail in mV: operating range, trip level, nominal value, group. -/
structure Rail where
  lo : Nat
  hi : Nat
  trip : Nat
  nominal : Nat
  group : Nat
  deriving DecidableEq, Repr
def rails : List Rail :=
  [⟨2700, 5500, 2600, 3300, 0⟩, ⟨1710, 1890, 1620, 1800, 1⟩, ⟨1746, 1854, 1620, 1800, 1⟩, ⟨698, 742, 675, 720, 2⟩,
   ⟨795, 845, 770, 820, 2⟩, ⟨873, 927, 846, 900, 3⟩, ⟨1164, 1236, 1128, 1200, 3⟩, ⟨1067, 1133, 1034, 1100, 3⟩,
   ⟨1710, 1890, 1620, 1800, 3⟩]
def railCard (kind n v : Nat) (s : State) : State := raise pwrSrc kind (n + 16 * (v % 65536)) s
/-- A rail's excursions. -/
def railRange (n v : Nat) (r : Rail) (s : State) : State :=
  let p := s.pwr
  let low := decide (v < r.lo)
  let high := decide (r.hi < v)
  let set (l : List Nat) (b : Bool) : List Nat := let q := l.filter fun x => x != n; if b then n :: q else q
  let s1 := s.setPwr { p with low := set p.low low, high := set p.high high, mv := p.mv.set (fun _ => 0) n v
                              below := p.below.set (fun _ => 0) n (if v < r.trip then p.below.get (fun _ => 0) n + 1 else 0) }
  let s2 := if low && !p.low.contains n then railCard 1 n v s1 else s1
  if high && !p.high.contains n then railCard 2 n v s2 else s2
/-- VKA's lowest reading and VKA_LOW. -/
def vkaCheck (v : Nat) (s : State) : State :=
  let p := s.pwr
  let s1 := s.setPwr { p with vkaMin := some (match p.vkaMin with | some m => min m v | none => v), vkaLow := decide (v < 2900) }
  if v < 2900 ∧ p.vkaLow = false then railCard 7 0 v s1 else s1
/-- The main domain into power-on reset for a brownout or a sequence violation, and the rails off. -/
def railReset (bit kind n v : Nat) (s : State) : State :=
  let p := s.pwr
  let s1 := mainReset s
  s1.setPwr { s1.pwr with step := 1, offRun := 0, below := [], brownouts := satAdd 32 p.brownouts 1
                          pinResets := if p.rampPin then satAdd 32 p.pinResets 1 else p.pinResets
                          cards := p.cards ++ [(kind, n + 16 * (v % 65536))]
                          newCause := p.newCause ||| bit ||| (if p.rampPin then 16 else 0) ||| (if bit = 4 ∧ p.newCause / 4 % 2 = 0 then 256 * n else 0) }
/-- Rails that a group's release has made valid: from step g + 2 on. -/
def browned (p : Pwr) : Option Nat :=
  (List.range 9).find? fun n => match rails[n]? with
    | some r => decide (1 ≤ r.group ∧ r.group + 2 ≤ p.step ∧ 2 ≤ p.below.get (fun _ => 0) n)
    | none => false
/-- A rail against its nominal value: below 10 %, at or above 90 %. -/
def Rail.off (r : Rail) (v : Nat) : Bool := decide (10 * v < r.nominal)
def Rail.full (r : Rail) (v : Nat) : Bool := decide (9 * r.nominal ≤ 10 * v)
/-- A rail's place in a rise after a sample, v after u: 1 below 10 %, one more in each sample of a rise, 0 at 90 %. -/
def Rail.next (r : Rail) (place v : Nat) : Nat :=
  if r.off v then 1 else if place = 0 ∨ r.full v then 0 else place + 1
/-- A rise that is not monotonic, or not 0.1 ms to 10 ms from 10 % to 90 %. -/
def Rail.badRise (r : Rail) (place u v : Nat) : Bool :=
  decide (place ≠ 0) && if r.full v then decide (place < 100) else decide ((2 ≤ place ∧ v < u) ∨ 10001 < place)
/-- A group of rails has one below 10 %. -/
def groupOff (g : Nat) (mv : List Nat) : Bool := rails.zipIdx.any fun r => r.1.group == g && r.1.off (mv.getD r.2 0)
/-- A rail at 10 % whose lower group is not good yet, or has fallen below 10 % (R505: up in group order, down in the reverse). -/
def Rail.early (r : Rail) (now : Nat) (p : Pwr) (mv : List Nat) (v : Nat) : Bool :=
  !r.off v && match r.group with
    | 0 => false
    | 1 => (match p.vkaAt with | some t => decide (now < t + ms 2) | none => false)
    | g + 1 => (decide (2 ≤ p.step) && decide (p.step < g + 2)) || groupOff g mv
/-- The rail of a breach of R505: out of order, VSRAM more than 50 mV below VCORE with either above 10 %, or a wrong rise (assumption 227). -/
def orderBroken (now : Nat) (p : Pwr) (mv : List Nat) : Option Nat :=
  let v (n : Nat) : Nat := mv.getD n 0
  match (List.range 9).find? fun n => match rails[n]? with
      | some r => r.early now p mv (v n) || r.badRise (p.rise.get (fun _ => 0) n) (p.mv.get (fun _ => 0) n) (v n)
      | none => false with
  | some n => some n
  | none => if (82 ≤ v 4 ∨ 72 ≤ v 3) ∧ v 4 + 50 < v 3 then some 4 else none
/-- The rails' places in their rises, and that the order is broken. -/
def risen (mv : List Nat) (broken : Bool) (p : Pwr) : Pwr :=
  { p with broken := broken
           rise := rails.zipIdx.foldl (fun t r => t.set (fun _ => 0) r.2 (r.1.next (t.get (fun _ => 0) r.2) (mv.getD r.2 0))) p.rise }
/-- Without VIO18 the TAP loses its instruction; with it again it holds IDCODE (19 R538; PRESUMED from IEEE 1149.1, assumption 226). -/
def tapPower (mv : List Nat) (s : State) : State := { s with tap := if 10 * mv.getD 1 0 < 1800 then .idcode else s.tap }
/-- One sample of every rail; a breach acts in the first sample that shows it. -/
def railSampleOp (mv : List Nat) (s : State) : State :=
  if s.pwr.vka = false then s
  else
    let breach := orderBroken s.now s.pwr mv
    let s0 := s.setPwr (risen mv breach.isSome s.pwr)
    let s1 := vkaCheck (mv.getD 0 0) (rails.zipIdx.foldl (fun s r => railRange r.2 (mv.getD r.2 0) r.1 s) s0)
    let p := s1.pwr
    match browned p, breach.filter fun _ => !s.pwr.broken with
    | some n, _ => railReset 4 3 n (mv.getD n 0) s1
    | none, some n => railReset 8 4 n (mv.getD n 0) s1
    | none, none =>
      if p.step = 1 then
        let off := rails.zipIdx.all fun r => r.1.group == 0 || r.1.off (mv.getD r.2 0)
        if off ∧ 9999 ≤ p.offRun then s1.setPwr { p with step := 2, offRun := 0 }
        else s1.setPwr { p with offRun := if off then p.offRun + 1 else 0 }
      else s1
def execRailSample (mv : List Nat) (s : State) : Host.Outcome State Fault Refusal := .next (railSampleOp mv (tapPower mv s))
/-- The die sensors. -/
def tjSampleOp (t : List Int) (s : State) : State :=
  match t with
  | [] => s
  | x :: r =>
    let tj := r.foldl max x
    let p := s.pwr
    let lim : Int := s.cfg (ob 0x2400 0xD)
    let alert : Bool := if lim ≤ tj then true else if tj ≤ lim - 2 then false else p.talert
    let s1 := s.setPwr { p with tj := tj, tjMax := some (match p.tjMax with | some m => max m tj | none => tj)
                                hot := decide (85 < tj), talert := alert }
    let s2 := if 85 < tj ∧ p.hot = false then raise pwrSrc 5 (unsigned 16 tj) s1 else s1
    if alert && !p.talert then raise pwrSrc 6 (unsigned 16 tj) s2 else s2
def execTjSample (t : List Int) (s : State) : Host.Outcome State Fault Refusal := .next (tjSampleOp t s)

/-! ### The dictionary soft reset (18 Table 18.6) -/

/-- A lane: out of RUNNING, its quad at the default generation, a sparing not yet taken abandoned. -/
def laneSoft (l : Nat) (s : State) : State :=
  let changed : Bool := s.gen l != 3
  let s1 := s.modLane l fun v =>
    let u := v.clearCounters
    { u with rx := if v.rx = .running then .sync else v.rx, resume := if v.rx = .running then false else v.resume, leftAt := none
             crcTimes := [], mirror := (match v.spare with | .asking _ _ => 255 | _ => v.mirror)
             spare := (match v.spare with | .asking _ _ => .free | .leaving k => .serving k | x => x) }
  if changed then s1.modLane l (Lane.regen (s.gen l) s.lanes.since s.now) else s1
/-- A Relay port: DOWN with nothing known, its completed lane moves kept. -/
def portSoft (p : Nat) (s : State) : State :=
  let v := s.port p
  s.setPort p { rx24 := v.rx24, rx25 := v.rx25, txMoves := v.txMoves.filter fun m => decide (m.2.2 ≤ s.pm) }
/-- A cluster: slot map, slot states, standby, moves and their counts kept. -/
def Cluster.soft (v : Cluster) : Cluster :=
  { slots := v.slots, copy := v.copy, standby := v.standby, slotSt := v.slotSt, move := v.move, fallback := v.fallback
    promotions := v.promotions, audits := v.audits, mismatches := v.mismatches, rotations := v.rotations }
/-- A logical output lane: nothing unacknowledged, the next LSEQ after the last acknowledged one. -/
def OutLane.soft (v : OutLane) : OutLane :=
  { v with lseq := (match v.unacked with | e :: _ => e.lseq | [] => v.lseq), unacked := [], busy := 0, leaving := false
           phys := if v.asking.isSome then v.was else v.phys, asking := none, owed := false, recount := false, was := none }
/-- The output path. -/
def Out.soft (o : Out) : Out :=
  { o with streams := [], ready := [], queued := [], part := 0, stall := none, stallSaid := false, decode := none
           comp := o.comp.map fun c => (c.1, { c.2 with hist := [], of_ := none, powHist := [], powBlock := none, force := false
                                                        powForce := false, part := 0, stall := none, stallSaid := false })
           lane := o.lane.map fun x => (x.1, x.2.soft) }
/-- The dictionary: defaults everywhere; set_seq, the Timetable's counters and the last result stay. -/
def Dict.soft (d : Dict) : Dict :=
  { d with base := [], sets := [], shadow := [], loaded := [], live := [], open_ := [], clients := [], marked := [], snap := {}, up := false, waiting := []
           blks := (d.blks.filter fun b => b.2.held).map fun b => (b.1, { blkInit b.1 with held := true })
           tt := { d.tt with st := .idle, cand := none } }
/-- The parts that the soft reset returns to their defaults at once. -/
def softClear (s : State) : State :=
  { s with
    lanes := { s.lanes with logical := (s.lanes.logical.filter fun g => g.2.phys.isSome).map fun g => (g.1, { phys := g.2.phys })
                            ingest := [] }
    filt := { lastBlock := s.filt.lastBlock }
    fab := { cl := s.fab.cl.map fun c => (c.1, c.2.soft), rotation := s.fab.rotation, rotAt := s.fab.rotAt, kept := s.fab.kept
             removed := s.fab.removed, dropped := s.fab.dropped, beamsOff := s.fab.beamsOff, newSched := s.fab.newSched }
    acc := { damaged := s.acc.damaged }
    relay := { port := s.relay.port, confNo := s.relay.confNo, barrierNo := s.relay.barrierNo }
    mm := { s.mm with place := [] }
    out := s.out.soft
    pwr := { s.pwr with run := .idle, rampSoft := false, softDue := false, step := 5, cause := 32, softResets := satAdd 32 s.pwr.softResets 1 } }
/-- A stack controller keeps its memory and waits for its set again. -/
def stackSoft (k : Nat) (s : State) : State :=
  if (s.stk k).st = .running then serveStack k (s.setStk k { s.stk k with st := .ready, buckets := [] }) else s
/-- The soft reset takes effect. -/
def softEffect (s : State) : State :=
  let s1 := softClear ((forRange 222 laneSoft s).setDict s.dict.soft)
  let s2 := forRange 4 (fun k v => tallyResetOp k (portSoft k (stackSoft k v))) (forRange 24 engineReset s1)
  forRange 3 (fun n s => holdRate n (tbMode n s)) (courSoft s2)
/-- A write of soft_reset: 0 for OK. -/
def State.softAnswer (s : State) (v : Nat) : Nat := if v ≠ 0xA5A5 then 4 else if s.pwr.softBusy then 5 else 0
/-- The soft reset starts: the ramp-down first where cells are ungated (R512). -/
def softStart (s : State) : State :=
  let s1 := (s.setPwr { s.pwr with softBusy := true }).setDict { s.dict with up := false }
  if s1.pwr.cellsOn then s1.setPwr { s1.pwr with run := .stopping, rampSoft := true } else s1.setPwr { s1.pwr with softDue := true }
/-- The write of soft_reset is answered: without a ramp-down the soft reset takes effect (R516). -/
def softGo (s : State) : State := if s.pwr.softDue then softEffect s else s
def softResetOp (v : Nat) (s : State) : State := if s.dict.up ∧ s.softAnswer v = 0 then softGo (softStart s) else s
def execSoftReset (v : BitVec 32) (s : State) : Host.Outcome State Fault Refusal := 
  .next (atService (.softReset v.toNat) (softResetOp v.toNat) s)

/-! ### RST_N and the ramp-down (18 R512, R515, R517) -/

/-- RST_N takes effect; the main domain stays in reset while the pin is low. -/
def pinEffect (s : State) : State :=
  let s1 := mainReset s
  let s2 := s1.setPwr { s1.pwr with step := min s.pwr.step 5, pinResets := satAdd 32 s.pwr.pinResets 1
                                    newCause := s.pwr.newCause ||| 16 }
  if s2.pwr.pin = false ∧ s2.pwr.step = 5 then leaveReset s2 else s2
def rstAssertOp (s : State) : State :=
  let p := s.pwr
  if p.pin then s
  else
    let s1 := s.setPwr { p with pin := true }
    if p.inReset then
      if 3 ≤ p.step then s1.setPwr { s1.pwr with pinResets := satAdd 32 p.pinResets 1, newCause := p.newCause ||| 16 } else s1
    else if p.cellsOn then s1.setPwr { s1.pwr with run := .stopping, rampPin := true, rampSoft := false, softBusy := false }
    else pinEffect s1
def execRstNAssert (s : State) : Host.Outcome State Fault Refusal := .next (rstAssertOp s)
/-- RST_N is high: the TAP no longer drives balls (19 R538; assumption 207). -/
def tapRelease (s : State) : State := { s with tap := if s.tap.drives then .bypass else s.tap }
def rstReleaseOp (s : State) : State :=
  let s1 := tapRelease (s.setPwr { s.pwr with pin := false })
  if s.pwr.pin ∧ s1.pwr.inReset ∧ s1.pwr.step = 5 then leaveReset s1 else s1
def execRstNRelease (s : State) : Host.Outcome State Fault Refusal := .next (rstReleaseOp s)
def rampDoneOp (s : State) : State :=
  if s.pwr.run = .stopping then
    if s.pwr.rampPin then pinEffect s else if s.pwr.rampSoft then softEffect s else s
  else s
def execRampDownDone (s : State) : Host.Outcome State Fault Refusal := .next (rampDoneOp s)

/-- 14 R423: a per-block reset by its object. -/
def blockResetOp (n : Nat) (s : State) : State := if s.dict.up && blockResetOk n then blockReset n s else s
def execBlockReset (n : BitVec 16) (s : State) : Host.Outcome State Fault Refusal := 
  .next (atService (.blockReset n.toNat) (blockResetOp n.toNat) s)

/-! ### START (18 R518 to R520) -/

/-- The answer to a START request: 0 for OK. -/
def State.startAnswer (s : State) (at_ : Nat) : Nat :=
  if at_ < s.pm ∨ s.dict.sets.isEmpty then 4 else if s.pwr.run ≠ .idle ∨ s.tt.st ≠ .idle then 5 else 0
/-- START is armed at S; B0 is the first time-block boundary at or after S + 26,112 ticks. -/
def startOp (at_ : Nat) (s : State) : State :=
  if s.startAnswer at_ = 0 then
    let st := roundUp at_ (s.chipF lastSet)
    s.setPwr { s.pwr with run := .armed, startPm := st, b0 := roundUp (st + 26112) (s.tb lastSet) }
  else s
/-- The request, while the service answers. -/
def startWait (at_ : Nat) (s : State) : State := if s.dict.up then startOp at_ s else s
def execStartAt (at_ : BitVec 64) (s : State) : Host.Outcome State Fault Refusal :=
  .next (atService (.start at_.toNat) (startWait at_.toNat) s)
def startRampOp (s : State) : State :=
  if s.pwr.run = .armed ∧ s.pwr.startPm ≤ s.pm then s.setPwr { s.pwr with run := .ramping } else s
def execStartRamp (s : State) : Host.Outcome State Fault Refusal := .next (startRampOp s)
/-- At B0: seeding, the Rambler rotation from position 0, the first folds, FAC on every channel's first dump (R519). -/
def startEffectOp (s : State) : State :=
  if s.pwr.run = .ramping ∧ s.pwr.b0 ≤ s.pm then
    let b0 := s.pwr.b0
    let m := s.setAt b0
    let s1 := s.setPwr { s.pwr with run := .running }
    let s2 := seedAll m (s1.setFab { s1.fab with
      start := some b0
      passBase := 0
      rotAt := s1.now
      cl := s1.fab.cl.map fun c => (c.1, { c.2 with hist := [], audit := none, rambFrom := 0 }) })
    s2.setAcc { s2.acc with starts := s2.acc.starts ++ [b0], fac := List.range (setChans m) }
  else s
def execStartEffect (s : State) : Host.Outcome State Fault Refusal := .next (startEffectOp s)

/-! ### Objects (18 R523 to R525) -/

def RunSt.code : RunSt → Nat | .idle => 0 | .armed => 1 | .ramping => 2 | .running => 3 | .stopping => 4
/-- rail_status. -/
def Pwr.railStatus (p : Pwr) : Nat :=
  let f (l : List Nat) : Nat := ((List.range 9).map fun n => if l.contains n then 2 ^ n else 0).sum
  f p.low + 65536 * f p.high + 2 ^ 31 * b2n p.talert
/-- Supply, reset and start objects read as numbers. -/
def pwrRead (idx sub : Nat) (s : State) : Nat :=
  let p := s.pwr
  if idx = 0x2000 then
    match sub with
    | 3 => p.cause | 4 => p.powerUps | 5 => p.pinResets | 6 => p.softResets | 7 => p.brownouts
    | 0x21 => p.startPm | 0x22 => p.b0 | 0x23 => p.run.code | _ => 0
  else
    match sub with
    | 0xA => p.railStatus | 0xB => unsigned 16 p.tj
    | 0xC => unsigned 16 (match p.tjMax with | some t => t | none => 0)
    | 0xE => p.vkaMin.getD 0
    | _ => if 1 ≤ sub ∧ sub ≤ 9 then p.mv.get (fun _ => 0) (sub - 1) % 65536 else 0

end Sys2Proof.Machine
end

