-- ==== Sys2Proof/Machine/Globals.lean ====
section
/-! DEFINITION. Commands that several units share: lane_command SPARE_IN, SPARE_OUT and START with the failure of a lane (03
R65, R77, R80, 06 R177, 10 R304), the acceptance of a snapshot (14 R419), and the global operations (06 R187). -/

namespace Sys2Proof.Machine

open Sys2Proof

/-! ### Lanes of every group (03 R65, R77, R80, R546) -/

def execLaneStart (l : Fin 222) (_ : LaneArgs) (s : State) : Host.Outcome State Fault Refusal := .next (startCmd l s)
/-- 03 R80, 06 R179, 10 R305: SPARE_IN by the lane's group. -/
def spareInCmd (l : Nat) (a : LaneArgs) (s : State) : State :=
  if l < 100 then ingestSpareIn l a.arg.toNat s
  else if l < 0xCC then raise l 0x0E 0 s
  else outSpareIn (l - 0xCC) a.arg.toNat s
def execSpareIn (l : Fin 222) (a : LaneArgs) (s : State) : Host.Outcome State Fault Refusal := .next (spareInCmd l a s)
/-- 03 R80, 06 R179, 10 R305: SPARE_OUT by the lane's group. -/
def spareOutCmd (l : Nat) (s : State) : State :=
  if l < 100 then ingestSpareOut l s
  else if l < 0xCC then relaySpareOut l s
  else outSpareOut (l - 0xCC) s
def execSpareOut (l : Fin 222) (_ : LaneArgs) (s : State) : Host.Outcome State Fault Refusal := .next (spareOutCmd l s)
/-- 03 R77, 06 R177, 10 R304: a lane has not returned to RUNNING for 100 µs. -/
def laneFailOp (l : Nat) (s : State) : State :=
  if s.failDue l then
    if l < 100 then ingestFailed l s
    else if l < 0xCC then relayFailed l s
    else match s.outServed (l - 0xCC) with
      | some k => outFailed k s
      | none => s
  else s
def execLaneFailTimeout (l : Fin 222) (s : State) : Host.Outcome State Fault Refusal := .next (laneFailOp l s)

/-- 03 R74, R546: a lane_command word: an OP that Table 03.8 does not list is refused. -/
def laneCommand (l w : Nat) (s : State) : State :=
  let a : LaneArgs := ⟨BitVec.ofNat 8 (bits 15 8 w), bit 16 w, bit 17 w, BitVec.ofNat 16 (bits 47 32 w)⟩
  match w % 256 with
  | 1 => slipCmd l a s
  | 2 => txSleepCmd l s
  | 3 => txWakeCmd l s
  | 4 => rxSleepCmd l s
  | 5 => rxWakeCmd l s
  | 6 => testEnterCmd l a s
  | 7 => testExitCmd l a s
  | 8 => startCmd l s
  | 9 => stopCmd l s
  | 0xA => injectCmd l a s
  | 0xB => loopbackCmd l a s
  | 0xC => clearCmd l s
  | 0xD => spareInCmd l a s
  | 0xE => spareOutCmd l s
  | _ => laneRefuse l s

/-! ### Snapshot requests (14 R418, R419) -/

/-- The answer to a snapshot request: 0 for OK. -/
def State.snapAnswer (s : State) (at_ : Nat) : Nat :=
  if at_ < s.pm then 4 else if s.dict.snap.st = 1 then 5 else 0
/-- A snapshot request: a late one raises SNAPSHOT_LATE, an accepted one discards the previous snapshot. -/
def snapshotOp (at_ : Nat) (isGlobal : Bool) (s : State) : State :=
  match s.snapAnswer at_ with
  | 0 => s.setDict { s.dict with snap := { st := 1, isGlobal := isGlobal, at_ := at_, left := allBlocks, vals := [] } }
  | 4 => raise 0xA50 3 (0x2000 + 65536 * 0x10) s
  | _ => s
/-- The request, while the service answers. -/
def snapshotWait (at_ : Nat) (s : State) : State := if s.dict.up then snapshotOp at_ false s else s
def execSnapshotAt (at_ : BitVec 64) (s : State) : Host.Outcome State Fault Refusal :=
  .next (atService (.snapshot at_.toNat) (snapshotWait at_.toNat) s)

/-! ### Global operations (06 R187) -/

/-- A swap_request record (05 Table 05.5) of a global COEF_SWAP. -/
def globalSwap (at_ w : Nat) : Nat := at_ % 2 ^ 64 + 2 ^ 64 * bits 31 8 w + 2 ^ 88 * bits 7 4 w
/-- Apply a global operation as if it were written locally; w holds bits [95:64] of the record. -/
def globalApply (at_ w : Nat) (s : State) : State :=
  let note (s : State) : State := s.setRelay { s.relay with lastGlobal := at_ }
  match w % 16 with
  | 1 => if s.snapAnswer at_ = 0 then note (snapshotOp at_ true s) else snapshotOp at_ true s
  | 2 => note (syncResetOp (bits 31 8 w) at_ s)
  | 3 => note (swapRequestOp (globalSwap at_ w) s)
  | 4 => if s.startAnswer at_ = 0 then note (startOp at_ s) else raise 0xA80 8 0 s
  | _ => s
/-- A record whose OP and FADE Table 06.9 allows; the service refuses others with RANGE (14 R394). -/
def globalCode (r : Nat) : Bool :=
  let op := bits 67 64 r
  decide (1 ≤ op ∧ op ≤ 4) && (op != 3 || decide (bits 71 68 r ≤ 12))
/-- A record written at the origin: refused if it comes too late, else broadcast and applied. -/
def globalOp (r : Nat) (s : State) : State :=
  let at_ := bits 63 0 r
  if globalCode r = false then s
  else if s.globalInTime at_ then globalApply at_ (bits 95 64 r) (globalSend r at_ s)
  else raise 0x120 0xC (s.port 0).nRank s
/-- A record with its OP. -/
def withOp (op r : Nat) : Nat := bits 63 0 r + 2 ^ 64 * op + 2 ^ 68 * bits 95 68 r
/-- A write of global_op with an OP. -/
def globalWrite (op r : Nat) (s : State) : State := if s.dict.up then globalOp (withOp op r) s else s
def execGlobalSnapshot (r : BitVec 128) (s : State) : Host.Outcome State Fault Refusal :=
  .next (atService (.globalOp 1 r.toNat) (globalWrite 1 r.toNat) s)
def execGlobalSyncReset (r : BitVec 128) (s : State) : Host.Outcome State Fault Refusal :=
  .next (atService (.globalOp 2 r.toNat) (globalWrite 2 r.toNat) s)
def execGlobalCoefSwap (r : BitVec 128) (s : State) : Host.Outcome State Fault Refusal :=
  .next (atService (.globalOp 3 r.toNat) (globalWrite 3 r.toNat) s)
def execGlobalStart (r : BitVec 128) (s : State) : Host.Outcome State Fault Refusal :=
  .next (atService (.globalOp 4 r.toNat) (globalWrite 4 r.toNat) s)
/-- A received BCAST: pass it on along the origin's tree and apply it. -/
def bcastOp (p origin at_ w : Nat) (s : State) : State :=
  globalApply at_ w ((s.treeOut origin (some p)).foldl (fun s q => ctlSend q 6 at_ w origin s) s)
def execBcast (p : Fin 4) (c : Ctl) (s : State) : Host.Outcome State Fault Refusal :=
  .next (ctlIn 6 p c (bcastOp p c.origin.toNat c.arg0.toNat c.arg1.toNat) s)

end Sys2Proof.Machine
end

