-- ==== Sys2Proof/Machine/Readout.lean ====
section
/-! DEFINITION. What a READ returns (14 R395, R400): the value of every ro object, the elements of the array objects, and the
capture of a snapshot (14 R418). -/

namespace Sys2Proof.Machine

open Sys2Proof

/-- Bytes from numbers. -/
def bytesOf (l : List Nat) : List Byte := l.map (BitVec.ofNat 8)

/-! ### Identity and service (14 Table 14.5) -/

def identBytes (sub : Nat) : List Byte :=
  match sub with
  | 1 => bytesOf [0x50, 0x6C, 0x69, 0x6D, 0x69, 0x6E, 0x65, 0x78]
  | 2 => bytesOf [0x55, 0x5A, 0x38, 0x31, 0x30, 0x30]
  | 3 => bytesOf [0x42, 0x31]
  | 4 => toBytes 8 Config.serialNumber
  | 5 => toBytes 2 1
  | 6 => toBytes 8 (Config.macMgmt % 2 ^ 48)
  | 7 => toBytes 8 (Config.macField % 2 ^ 48)
  | _ => []
def serviceRead (sub : Nat) (s : State) : Nat :=
  match sub with
  | 1 => s.dict.received | 2 => s.dict.dropped | 3 => s.dict.duplicates | 4 => s.dict.busy | 5 => s.dict.fanoutRefused | _ => 0
/-- snapshot_status (14 Table 14.18). -/
def Snapshot.status (v : Snapshot) : Nat := v.st + 4 * b2n v.isGlobal + 65536 * v.left.length

/-! ### Lanes (03 R66, R93) -/

def Rx.code : Rx → Nat | .acquire => 0 | .align => 1 | .sync => 2 | .running => 3 | .test => 4 | .sleep => 5
def Tx.code : Tx → Nat | .active => 0 | .sleep => 1 | .test => 2
/-- lane_state (03 Table 03.5); SPARED_OUT is an ingest lane's. -/
def Lane.state (l : Nat) (v : Lane) : Nat :=
  v.rx.code + 16 * b2n v.aligned + 32 * b2n v.searchNeeded + 64 * b2n v.farSleep + 128 * b2n v.resume + 256 * v.tx.code
    + 1024 * b2n (v.sparedOut && decide (l < 100)) + 2048 * b2n v.chkLock
def laneRead (l sub : Nat) (s : State) : Nat :=
  let v := s.lane l
  match sub with
  | 1 => v.state l | 3 => v.slip | 4 => v.codeErrors | 5 => v.dispErrors | 6 => v.syncLosses | 7 => v.prbsErrors
  | 8 => v.prbsBits | _ => 0
def logicalRead (l sub : Nat) (s : State) : Nat :=
  let g := s.logical l
  match sub with
  | 5 => s.serving l | 6 => g.framesOk | 7 => g.crcErrors | 8 => g.late | 9 => g.early | 0xA => g.seqJumps
  | 0xB => g.formatErrors | 0xC => g.linkIdErrors | _ => g.ovr.getD (sub - 0xD) 0

/-! ### Filter chain (04, 05) -/

def inputRead (i sub : Nat) (s : State) : Nat :=
  let q := s.cond i
  let g := s.gain i
  match sub with
  | 0x11 => q.spikes | 0x12 => q.spikesBlock | 0x13 => q.spreadRe | 0x14 => q.d | 0x15 => q.cur.seq | 0x16 => q.cur.eff
  | 0x17 => q.late | 0x18 => q.replacedN | 0x19 => q.discarded | 0x1A => q.status | 0x1B => q.bypassed | 0x1C => q.steps
  | 0x1D => q.spreadIm | 0x22 => g.seq | 0x23 => g.sat | 0x24 => g.satBlock | 0x25 => g.discarded | 0x26 => g.eff
  | 0x27 => g.invalidFrames | _ => 0
def engineRead (e sub : Nat) (s : State) : Nat :=
  let v := s.eng e
  match sub with
  | 1 => v.dlCorr | 2 => v.dlUncorr | 6 => s.bankStatus v | 7 => v.a.profileId | 8 => v.b.profileId | 9 => v.swapApplied
  | 0xA => s.groupDelay e | 0xB => v.coefCorr | 0xC => v.coefUncorr | 0xD => v.swapsReplaced | _ => 0

/-! ### Time bases (15 R439, R450) -/

/-- The 16 bytes of tb_time: seconds and nanoseconds of the extended reading. -/
def tbTime (n : Nat) (s : State) : List Byte :=
  let v := s.tbLong n
  toBytes 16 (unsigned 64 (v / 1000000000) + 2 ^ 64 * (v % 1000000000).toNat)
def timeRead (idx sub : Nat) (s : State) : Nat :=
  let t := s.time
  if idx = 0x2200 then
    match sub with
    | 1 => s.pm | 2 => t.epoch | 4 => s.refStatus | 6 => t.capture | 7 => unsigned 32 t.ppsError | 8 => t.ppsSlips
    | 9 => t.ratioErrors | 0xA => t.pmSteps | 0xB => t.holdoverTime | _ => 0
  else if idx = 0x2220 then
    match sub with | 1 => t.tbk | 2 => unsigned 32 t.tbkOsc | _ => 0
  else
    let n := natSub idx 0x2210
    let b := s.tbOf n
    match sub with
    | 0xC => s.tbNow n | 0xE => b.status | 0xF => unsigned 32 b.offset | 0x10 => unsigned 32 (rhu b.delay 1000)
    | 0x11 => unsigned 32 (rhu (((b.addend : Int) - 34359738368) * 1000000000) 34359738368)
    | 0x12 => b.master | 0x13 => b.steps | _ => 0

/-! ### Every ro object -/

/-- The asm_marks object: mark m at byte 16 m (11 Table 11.11). -/
def State.markBytes (s : State) : List Byte := (List.range 16).flatMap fun m => toBytes 16 (s.cour.marks.get (fun _ => 0) m)
/-- A ro object that is read as a number. -/
def roNumber (idx sub : Nat) (s : State) : Nat :=
  if idx < 0x2000 then serviceRead sub s
  else if idx = 0x2000 then
    if sub = 0x11 then s.dict.snap.status else if sub = 0x12 then s.dict.snap.at_ else pwrRead idx sub s
  else if idx < 0x2200 then ctrlRead idx sub s
  else if idx < 0x2300 then timeRead idx sub s
  else if idx < 0x2400 then sortRead sub s
  else if idx < 0x3000 then pwrRead idx sub s
  else if idx < 0x4000 then enclRead sub s
  else if idx < 0x4200 then laneRead (natSub idx 0x4100) sub s
  else if idx < 0x5000 then logicalRead (natSub idx 0x4200) sub s
  else if idx < 0x5300 then inputRead (natSub idx 0x5100) sub s
  else if idx < 0x6000 then engineRead (natSub idx 0x5300) sub s
  else if idx < 0x6100 then ttRead sub s
  else if idx < 0x7000 then relayRead idx sub s
  else if idx < 0x8000 then fabricRead idx sub s
  else if idx < 0x8100 then dramRead_ idx sub s
  else if idx < 0x8200 then outputRead idx sub s
  else courRead_ sub s
/-- The bits of a ro object, or of an element of an array, that its bit map marks reserved or does not show: their read value
is undefined (00 R3). -/
def reservedMask (idx sub : Nat) : Nat :=
  if idx = 0x2000 then (if sub = 3 then 0xFFFFF080 else if sub = 0x11 then 0xFFF8 else 0)
  else if idx = 0x2110 then (if sub = 1 then 0xFFFFFF00 else 0)
  else if idx = 0x2200 then (if sub = 4 then 0xFFFFFF80 else 0)
  else if 0x2210 ≤ idx ∧ idx ≤ 0x2212 then (if sub = 0xD then 0xFFFFFFFF * 2 ^ 96 else if sub = 0xE then 0xE0 else 0)
  else if idx = 0x2300 then (if sub = 0xB then 0xFFFF0000FFE00000 else 0)
  else if idx = 0x2302 then 0xF000F8
  else if idx = 0x2400 then (if sub = 0xA then 0x7E00FE00 else 0)
  else if idx = 0x3000 then (if sub = 1 then 0xFFFFFF00 else 0)
  else if 0x4100 ≤ idx ∧ idx ≤ 0x41DD then (if sub = 1 then 0xF000 else 0)
  else if 0x5100 ≤ idx ∧ idx < 0x5280 then (if sub = 0x1A then 0xC0 else 0)
  else if 0x5300 ≤ idx ∧ idx < 0x5318 then (if sub = 6 then 0xFFF08000 else 0)
  else if idx = 0x6000 then (if sub = 2 then 0xFF00FCE0 else 0)
  else if 0x6110 ≤ idx ∧ idx ≤ 0x6113 then (if sub = 1 then 0xE080 else 0)
  else if idx = 0x7040 then (if sub = 0xC then 0xFFFFFF80 else 0)
  else if 0x7200 ≤ idx ∧ idx < 0x7260 then (if sub = 3 then 0xFE00 else if sub = 7 then 0xFFFF0000 else 0)
  else if idx = 0x8100 then (if sub = 0xF then 0xE0 else 0)
  else if 0x8110 ≤ idx ∧ idx < 0x8120 then (if sub = 1 then 0x8000 else 0)
  else if idx = 0x8200 then (if sub = 0xE then ((List.range 16).map fun m => 0xFC * 2 ^ (128 * m + 48)).sum else 0)
  else if idx = 0x8201 then 0xFC0080 + 0xFFFFFF * 2 ^ 104
  else 0
/-- The same of an element of an array object: source_state and ring_state have reserved bits. -/
def elemMask (idx : Nat) : Nat := if idx = 0x2302 ∨ idx = 0x8201 then reservedMask idx 1 else 0
/-- A value as it is read: its reserved bits are free ones (assumption 8). -/
def withReserved (mask free : Nat) (b : List Byte) : List Byte := toBytes b.length (ofBytes b ||| (free &&& mask))
/-- The bytes of a ro object that is no array, its reserved bits at 0. -/
def readField (idx sub size : Nat) (s : State) : List Byte × State :=
  if idx = 0x1000 then (identBytes sub, s)
  else if 0x2210 ≤ idx ∧ idx ≤ 0x2212 ∧ sub = 0xD then (tbTime (natSub idx 0x2210) s, s)
  else if idx = 0x8200 ∧ sub = 0xE then (s.markBytes, s)
  else if 0x9100 ≤ idx then
    let (v, s1) := tallyRead_ (natSub idx 0x9100) sub s
    (toBytes size v, s1)
  else (toBytes size (roNumber idx sub s), s)
/-- The bytes of a ro object that is no array. -/
def readObj (idx sub size : Nat) (s : State) : List Byte × State :=
  let (b, s1) := readField idx sub size s
  let mask := reservedMask idx sub
  if mask = 0 then (b, s1) else (withReserved mask (Config.reservedBits 0 s1.draw.1) b, s1.draw.2)
/-- An element of an array object, its reserved bits at 0. -/
def readElem (idx e : Nat) (s : State) : List Byte :=
  if idx = 0x2301 then s.cardBytes e
  else if idx = 0x2302 then s.srcBytes e
  else if idx = 0x3000 then s.logBytes e
  else toBytes 16 (s.ring e).status
/-- An element is one value read in one access; an array's elements from a first one. -/
def readElems (idx first n : Nat) (s : State) : List Byte × State :=
  let mask := elemMask idx
  if mask = 0 then ((List.range n).flatMap fun k => readElem idx (first + k) s, s)
  else ((List.range n).flatMap fun k =>
    let e := first + k
    -- elements of reserved source numbers read as 0 (16 R463)
    if idx = 0x2302 ∧ (blockType e).isNone = true then readElem idx e s
    else withReserved mask (Config.reservedBits e s.draw.1) (readElem idx e s), s.draw.2)

/-! ### Snapshots (14 R418) -/

/-- The block whose copy holds the ro objects of an index. -/
def objBlock (idx : Nat) : Nat :=
  if idx < 0x2000 then 0xA50
  else if idx = 0x2000 ∨ idx = 0x2400 then 0xA80
  else if 0x2100 ≤ idx ∧ idx ≤ 0x2102 then 0xA30
  else if idx = 0x2110 then 0xA10
  else if 0x2200 ≤ idx ∧ idx < 0x2300 then 0xA60
  else if 0x2300 ≤ idx ∧ idx < 0x2400 then 0xA40
  else if idx < 0x4000 then 0xA70
  else if 0x4100 ≤ idx ∧ idx ≤ 0x41DD then natSub idx 0x4100
  else if 0x4200 ≤ idx ∧ idx < 0x5000 then natSub idx 0x4200
  else if 0x5100 ≤ idx ∧ idx < 0x5300 then 0x100 + (natSub idx 0x5100) / 16
  else if 0x5300 ≤ idx ∧ idx < 0x6000 then 0x100 + (natSub idx 0x5300)
  else if idx = 0x6000 then 0x940
  else if idx = 0x6100 then 0x120
  else if 0x6110 ≤ idx ∧ idx < 0x7000 then 0x120 + (natSub idx 0x6110)
  else if idx = 0x7100 ∨ idx = 0x7120 then 0x910
  else if 0x7200 ≤ idx ∧ idx < 0x8000 then 0x140 + (natSub idx 0x7200)
  else if idx < 0x8000 then 0x140
  else if idx ≤ 0x8003 then 0x900
  else if idx < 0x8100 then 0x900 + (natSub idx 0x8010)
  else if 0x8130 ≤ idx ∧ idx ≤ 0x8137 then 0x920 + (natSub idx 0x8130)
  else if idx < 0x8200 then 0x930
  else if idx ≤ 0x8201 then 0xA20
  else 0xA00 + (natSub idx 0x9100)
/-- Every index that exists. -/
def allIndices : List Nat := indexRanges.flatMap fun r => (List.range (r.2 + 1 - r.1)).map (r.1 + ·)
/-- The ro objects of a block. -/
def roObjects (n : Nat) : List (Nat × Nat) :=
  (allIndices.filter fun i => objBlock i == n).flatMap fun i =>
    ((List.range 256).filter fun k => match objAt i k with | some o => o.acc == 1 | none => false).map fun k => (i, k)
/-- The value of a ro object, an array's elements in order. -/
def roValue (idx sub : Nat) (s : State) : List Byte × State :=
  match objAt idx sub with
  | some o =>
    if sub = 0 then (toBytes 1 o.dflt, s)
    else if o.count > 1 then readElems idx 0 o.count s
    else readObj idx sub o.size s
  | none => ([], s)
/-- Copy one object into the snapshot. -/
def snapCopy (k : Nat × Nat) (s : State) : State :=
  let (b, s1) := roValue k.1 k.2 s
  let d := s1.dict
  s1.setDict { d with snap := { d.snap with vals := d.snap.vals.set (fun _ => []) (ob k.1 k.2) b } }
/-- A block's values are copied. -/
def copyBlock (n : Nat) (s : State) : State :=
  let s1 := (roObjects n).foldl (fun s k => snapCopy k s) s
  let d := s1.dict
  s1.setDict { d with snap := { d.snap with left := d.snap.left.filter fun x => x != n } }
/-- The blocks that copy with the data: filter engines, Relay ports, cluster controllers and cell slots (14 R418). -/
def copiesWithData (n : Nat) : Bool :=
  match blockType n with | some 0x10 | some 0x11 | some 0x20 | some 0x21 => true | _ => false
/-- A commit latch due by Postmark x goes before what is due at x (15 R447). -/
def latchBy (x : Nat) (s : State) : State := if s.tt.p ≤ x then latchOp s else s
/-- 15 R447: a commit latch due goes before the copy; 14 R418: a block that copies with the data copies where it would apply a set
stamped AT. -/
def beforeCopy (n : Nat) (s : State) : State :=
  let s1 := latchBy s.dict.snap.at_ s
  if copiesWithData n then applySets n s1.dict.snap.at_ s1 else s1
/-- A unit stamped at or after AT has reached a block that copies with the data; in the fabric, the window of such a block. -/
def State.dataReached (s : State) (n at_ : Nat) : Bool :=
  decide (at_ ≤ (s.blk n).reached) || (match blockType n, s.fab.win with
    | some 0x20, some w | some 0x21, some w => decide (at_ ≤ w.x0)
    | _, _ => false)
/-- A block has reached its snapshot point (14 R418, 15 Table 15.7). A block that takes no data copies with the counter, and so does one
whose data has stopped for a time block (DESIGN CHOICE, assumption 230). -/
def State.snapPoint (s : State) (n : Nat) : Bool :=
  let a := s.dict.snap.at_
  if copiesWithData n && s.dataDriven n && (s.blk n).running then s.dataReached n a || decide (a + s.tb a ≤ s.pm) else decide (a ≤ s.pm)
/-- A block copies its values. -/
def captureOp (n : Nat) (s0 : State) : State :=
  if s0.dict.snap.st = 1 ∧ s0.snapPoint n = true ∧ n ∈ s0.dict.snap.left then
    copyBlock n (beforeCopy n s0)
  else s0
def execSnapshotCapture (src : BitVec 12) (s : State) : Host.Outcome State Fault Refusal := .next (captureOp src.toNat s)
def snapDone (s : State) : State :=
  let v := s.dict.snap
  if v.st = 1 ∧ v.left = [] then s.setDict { s.dict with snap := { v with st := 2 } } else s
def execSnapshotComplete (s : State) : Host.Outcome State Fault Refusal := .next (snapDone s)

end Sys2Proof.Machine
end

