-- ==== Sys2Proof/Machine/Service.lean ====
section
/-! DEFINITION. The dictionary service (14 R391 to R407, R414, R420): messages, reads, writes by access class, segmented
writes, clients and duplicates, fan-out, posts of the Tally cores, and the paths the messages come by. -/

namespace Sys2Proof.Machine

open Sys2Proof

/-! ### Messages (14 R399, Table 14.6) -/

/-- A message's header fields. -/
structure Hdr where
  ver : Nat
  op : Nat
  id : Nat
  idx : Nat
  sub : Nat
  status : Nat
  element : Nat
  offset : Nat
  len : Nat
  more : Bool
  snap : Bool
  active : Bool
  fanout : Bool
  deriving DecidableEq, Repr

/-- The header in the first 20 bytes. -/
def headerOf (b : List Byte) : Hdr :=
  let w := ofBytes (b.take 20)
  { ver := bits 7 0 w, op := bits 15 8 w, id := bits 31 16 w, idx := bits 47 32 w, sub := bits 55 48 w, status := bits 63 56 w,
    element := bits 95 64 w, offset := bits 127 96 w, len := bits 143 128 w, more := bit 144 w, snap := bit 145 w,
    active := bit 146 w, fanout := bit 147 w }
/-- A header and payload with the CRC that follows them. -/
def withCrc (b : List Byte) : List Byte := b ++ toBytes 4 (crc32 b)
/-- A header's 20 bytes. -/
def headerBytes (ver op id idx sub status element offset len flags : Nat) : List Byte :=
  toBytes 1 ver ++ toBytes 1 op ++ toBytes 2 id ++ toBytes 2 idx ++ toBytes 1 sub ++ toBytes 1 status ++ toBytes 4 element
    ++ toBytes 4 offset ++ toBytes 2 len ++ toBytes 2 flags
/-- The message that a request row stands for: flags bit 1 is SNAP, bit 2 ACTIVE, bit 3 FANOUT. -/
def reqBytes (r : Req) (op flags : Nat) : List Byte :=
  headerBytes r.ver.toNat op r.id.toNat r.idx.toNat r.sub.toNat r.status.toNat r.element.toNat r.offset.toNat r.len.toNat
    (b2n r.more + flags) ++ r.payload ++ toBytes 4 r.crc.toNat
/-- The service takes a message: its CRC and length match and it is no response. -/
def messageOk (b : List Byte) : Bool :=
  let h := headerOf b
  decide (b.length = 24 + h.len) && crc32 (b.take (20 + h.len)) == ofBytes (b.drop (20 + h.len)) && decide (h.op < 0x80)
/-- The payload limit of a path (14 R405, R407). -/
def pathLimit : Path → Nat | .bus => 240 | _ => 1400

/-- What an operation answers: STATUS, payload, MORE. -/
structure Answer where
  status : Nat
  payload : List Byte := []
  more : Bool := false
  deriving DecidableEq, Repr

/-! ### LIST (14 R400, Table 14.8) -/

def listAnswer (idx sub : Nat) : Answer :=
  match nextObj idx sub with
  | none => { status := 1 }
  | some (i, k) =>
    match objAt i k with
    | none => { status := 1 }
    | some o =>
      { status := 0, payload := toBytes 2 i ++ toBytes 1 k ++ toBytes 1 o.typ ++ toBytes 1 o.acc
          ++ toBytes 3 (b2n (commonObjs.contains (ob i k)) + 2 * b2n (decide (1 < o.count))) ++ toBytes 4 o.size ++ toBytes 4 o.count }

/-! ### READ (14 R395, R400, R413, R418, R420) -/

/-- Bytes that an uncorrectable word of the store leaves open (14 R420). -/
def freeBytes : Nat → State → List Byte × State
  | 0, s => ([], s)
  | n + 1, s =>
    let (k, s1) := s.draw
    let (r, s2) := freeBytes n s1
    (Config.storeByte n k :: r, s2)
/-- A rw-s object: the shadow value, or the active one. An error in the active image is repaired from the blocks. -/
def readSetting (o : Nat) (active : Bool) (e : Ecc) (s : State) : List Byte × State :=
  let s1 := storeCheck o (if active then 0 else 1) e s
  let word (v : Nat) : List Byte := settingBytes o (flipIn (eccFlip 0xA50 1 e s) v)
  if active then (word (s.cfg o), s1)
  else if e = .uncorrectable then freeBytes (settingBytes o 0).length s1
  else (word (setVal s.dict.shadow o), s1)
/-- The whole value of an object that is no array, by class. -/
def readValue (idx sub : Nat) (o : ObjInfo) (active : Bool) (e : Ecc) (s : State) : List Byte × State :=
  if o.acc = 2 then readSetting (ob idx sub) active e s
  else if o.acc = 3 then (s.dict.live.get (fun _ => []) (ob idx sub), s)
  else if o.acc = 5 then csRead (ob idx sub) active e s
  else roValue idx sub s
/-- The part of a value that fits, from OFFSET on for a STR or BLOB. -/
def sliceAnswer (o : ObjInfo) (lim off : Nat) (b : List Byte) : Answer :=
  if o.typ = 9 ∨ o.typ = 10 then
    if b.length < off then { status := 4 }
    else { status := 0, payload := (b.drop off).take lim, more := decide (off + lim < b.length) }
  else { status := 0, payload := b }
/-- Whole elements of an array from ELEMENT on. -/
def elemAnswer (o : ObjInfo) (lim first : Nat) (get : Nat → Nat → List Byte × State) (s : State) : Answer × State :=
  if o.count ≤ first then ({ status := 4 }, s)
  else
    let n := min (o.count - first) (lim / o.size)
    let (b, s1) := get first n
    ({ status := 0, payload := b, more := decide (first + n < o.count) }, s1)
/-- Elements of an array; those of audit_log come from the enclave's store (17 R499). -/
def arrayRead (idx first n : Nat) (e : Ecc) (s : State) : List Byte × State :=
  let r := readElems idx first n s
  if idx = 0x3000 then nvRead r.1 e r.2 else r
def readAnswer (lim : Nat) (h : Hdr) (e : Ecc) (s : State) : Answer × State :=
  if h.len ≠ 0 then ({ status := 3 }, s)
  else match objAt h.idx h.sub with
  | none => ({ status := 1 }, s)
  | some o =>
    if o.acc = 4 then ({ status := 2 }, s)
    else if h.snap then
      if o.acc ≠ 1 then ({ status := 2 }, s)
      else if s.dict.snap.st ≠ 2 then ({ status := 9 }, s)
      else
        let b := s.dict.snap.vals.get (fun _ => []) (ob h.idx h.sub)
        if o.count > 1 then elemAnswer o lim h.element (fun f n => ((b.drop (o.size * f)).take (o.size * n), s)) s
        else (sliceAnswer o lim h.offset b, s)
    else if o.count > 1 then elemAnswer o lim h.element (fun f n => arrayRead h.idx f n e s) s
    else
      let (b, s1) := readValue h.idx h.sub o h.active e s
      (sliceAnswer o lim h.offset b, s1)

/-! ### Segmented writes (14 R401) -/

/-- The open write of an object. -/
def State.openWrite (s : State) (idx sub : Nat) : Option Assembly := s.dict.open_.find? fun a => a.idx == idx && a.sub == sub
/-- Close an object's open write; abandoned says that its stream is incomplete. -/
def closeWrite (idx sub : Nat) (abandoned : Bool) (s : State) : State :=
  match s.openWrite idx sub with
  | none => s
  | some a =>
    let s1 := s.setDict { s.dict with open_ := s.dict.open_.filter fun x => !(x.idx == idx && x.sub == sub) }
    if abandoned then abandonWrite a s1 else s1
/-- The open rw-l assemblies. -/
def State.liveOpen (s : State) : Nat :=
  (s.dict.open_.filter fun a => match objAt a.idx a.sub with | some o => o.acc == 3 | none => false).length
/-- Take a segment of at most max bytes in all: a refusal by status, or the bytes of the write so far. -/
def takeSegment (c : Client) (idx sub max off : Nat) (isLive : Bool) (b : List Byte) (more : Bool) (s : State) :
    Except Nat (List Byte) × State :=
  if max < off + b.length then (.error 3, s)
  else if off = 0 then
    let s1 := closeWrite idx sub true s
    if isLive ∧ more ∧ 16 ≤ s1.liveOpen then (.error 5, s1)
    else if more then
      (.ok b, s1.setDict { s1.dict with open_ := ⟨idx, sub, c, b, s1.now⟩ :: s1.dict.open_ })
    else (.ok b, s1)
  else match s.openWrite idx sub with
    | some a =>
      if a.client = c ∧ a.data.length = off then
        let s1 := closeWrite idx sub false s
        let all := a.data ++ b
        if more then (.ok all, s1.setDict { s1.dict with open_ := ⟨idx, sub, c, all, s1.now⟩ :: s1.dict.open_ })
        else (.ok all, s1)
      else (.error 8, closeWrite idx sub true s)
    | none => (.error 8, s)
/-- 14 R401: no segment for 1 s. -/
def segmentTimeout (idx sub : Nat) (s : State) : State :=
  match s.openWrite idx sub with
  | some a =>
    if a.last + ms 1000 ≤ s.now then raise 0xA50 2 (idx + 65536 * sub) (closeWrite idx sub true s) else s
  | none => s
def execSegmentTimeout (idx : BitVec 16) (sub : BitVec 8) (s : State) : Host.Outcome State Fault Refusal :=
  .next (segmentTimeout idx.toNat sub.toNat s)

/-! ### Writes by class (14 R393, R394) -/

/-- A scalar lies in its permitted values. -/
def inRange (o : ObjInfo) (v : Nat) : Bool := o.ranges.isEmpty || o.ranges.any fun r => decide (r.1 ≤ v ∧ v ≤ r.2)
/-- A rw-s write: the shadow set, and the mark of R420 cleared. -/
def writeSetting (k : Nat) (o : ObjInfo) (b : List Byte) (s : State) : Nat × State :=
  let v := ofBytes b
  if b.length ≠ o.size then (3, s)
  else if inRange o v = false then (4, s)
  else
    let d := s.dict
    (0, s.setDict { d with shadow := d.shadow.set objDefault k v
                           marked := d.marked.set (fun _ => 0) k (d.marked.get (fun _ => 0) k &&& 2) })
/-- 17 R488, Table 17.2: a cs write, segment by segment. -/
def writeCs (c : Client) (idx sub : Nat) (o : ObjInfo) (off : Nat) (b : List Byte) (more : Bool) (s : State) : Nat × State :=
  match s.encl.answer with
  | some 6 => (6, csRefused idx sub s)
  | some r => (r, s)
  | none =>
    if o.typ ≠ 10 then
      if b.length ≠ o.size then (3, s) else (0, csStore (ob idx sub) 0 b s)
    else match takeSegment c idx sub o.size off false b more s with
      | (.error r, s1) => (r, s1)
      | (.ok _, s1) => (0, csStore (ob idx sub) off b s1)
/-- A complete live record: its length and values, and its delivery. -/
def deliverLive (idx sub : Nat) (b : List Byte) (s : State) : Nat × State :=
  let keep : State → State := keepLive (ob idx sub) b
  let w := ofBytes b
  if idx = 0x7040 then
    if b.length ≠ 16 then (3, s)
    else
      let s1 := keep s
      (0, if bit 80 w then weightCancelOp s1 else weightSwapOp (bits 63 0 w) (bits 79 64 w) s1)
  else if sub = 0x10 then
    if b.length ≠ 32 then (3, s) else (0, delayRecordOp (natSub idx 0x5100) w (keep s))
  else
    let i := natSub idx 0x5100
    let first := bits 79 64 w
    let n := bits 95 80 w
    if b.length ≠ 16 + 4 * n then (3, s)
    else if n = 0 ∨ s.channels lastSet i < first + n then (4, s)
    else (0, gainTableOp i (bits 63 0 w) first (bits 111 96 w) (words32 (b.drop 16)) (keep s))
def writeLive (c : Client) (idx sub : Nat) (o : ObjInfo) (off : Nat) (b : List Byte) (more : Bool) (s : State) : Nat × State :=
  match takeSegment c idx sub o.size off true b more s with
  | (.error r, s1) => (r, s1)
  | (.ok all, s1) => if more then (0, s1) else deliverLive idx sub all s1

/-- A tally_command word (12 Table 12.14). -/
def tallyCommand (c w : Nat) (s : State) : State :=
  match w % 256 with
  | 1 => if bit 8 w then tallyResumeOp c (bits 31 16 w) s else tallyRunOp c (bits 31 16 w) s
  | 2 => tallyHaltOp c s
  | 3 => tallyStepOp c ⟨.ok, .ok, 0, 0, [], []⟩ s
  | 4 => tallyResetOp c s
  | 5 => tallyClearOp c s
  | _ => tallyRefuse c s
/-- A scalar command: the status and the effect. -/
def commandScalar (idx sub v : Nat) (s : State) : Nat × State :=
  let ifOk (r : Nat) (t : State) : Nat × State := (r, if r = 0 then t else s)
  if idx = 0x2000 then
    match sub with
    | 1 => ifOk (s.softAnswer v) (softStart s)
    | 2 => if blockResetOk v then (0, blockReset v s) else (4, s)
    | 0x10 => (s.snapAnswer v, snapshotOp v false s)
    | _ => (s.startAnswer v, startOp v s)
  else if idx = 0x2300 then
    if sub = 6 then (if s.ackOk v then (0, pcAckOp v s) else (4, s))
    else if s.releaseOk v then (0, faultReleaseOp v s) else (4, s)
  else if idx < 0x5000 then (0, laneCommand (natSub idx 0x4100) v s)
  else if idx = 0x5000 then
    if sub = 4 then (if v < 384 ∨ v = 0xFFFF then (0, conditioningClearOp v s) else (4, s))
    else (0, syncResetOp allEngines v s)
  else if idx < 0x6000 then
    if romCode (bits 15 8 v) then (0, bankLoadRomOp (natSub idx 0x5300) v s) else (4, s)
  else if idx = 0x8200 then (0, letterboxOp (v % 2 ^ 18) false s)
  else if sub = 1 then (0, tallyCommand (natSub idx 0x9100) v s)
  else (0, doorbellOp (natSub idx 0x9100) s)
/-- A command record of a fixed length. -/
def commandBlob (idx w : Nat) (s : State) : Nat × State :=
  if idx = 0x2200 then
    if s.alignOk (bits 63 0 w) (bits 127 64 w) (bit 128 w) then
      (0, pmAlignOp (bits 63 0 w) (bits 127 64 w) (bit 128 w) s) else (4, s)
  else if idx = 0x2300 then
    if injOk w = false then (4, s) else if s.so.inj.isSome then (5, s) else (0, injectOp w s)
  else if idx = 0x5000 then (if swapOk w then (0, swapRequestOp w s) else (4, s))
  else if idx = 0x6000 then
    let r := s.commitAnswer (bit 64 w)
    (r, if r = 0 then commitRequestOp (bits 63 0 w) (bit 64 w) (bit 65 w) s else s)
  else if idx = 0x6100 then
    (if globalCode w && s.globalInTime (bits 63 0 w) then 0 else 4, globalOp w s)
  else if idx = 0x8100 then (s.decodeAnswer w, decodeStart w s)
  else (0, ringCommandOp w false s)
/-- The length of a command record; 0 for a stream. -/
def recordLen (idx : Nat) : Nat := if idx = 0x2200 then 24 else if 0x5300 ≤ idx ∧ idx < 0x6000 ∨ 0x9100 ≤ idx then 0 else 16
/-- A wo BLOB: a stream reaches its block segment by segment, a record when it is complete. -/
def writeCommandBlob (c : Client) (idx sub : Nat) (o : ObjInfo) (off : Nat) (b : List Byte) (more : Bool) (s : State) :
    Nat × State :=
  match takeSegment c idx sub o.size off false b more s with
  | (.error r, s1) => (r, s1)
  | (.ok all, s1) =>
    if recordLen idx = 0 then
      (0, if 0x9100 ≤ idx then tallySegmentOp (natSub idx 0x9100) b (!more) s1
          else bankImageOp (natSub idx 0x5300) (sub == 4) b (!more) s1)
    else if more then (0, s1)
    else if all.length ≠ recordLen idx then (3, s1)
    else commandBlob idx (ofBytes all) s1
/-- A WRITE of a client, by the object's class: the status. -/
def writeObj (c : Client) (idx sub off : Nat) (b : List Byte) (more : Bool) (s : State) : Nat × State :=
  match objAt idx sub with
  | none => (1, s)
  | some o =>
    match o.acc with
    | 1 => (2, s)
    | 2 => writeSetting (ob idx sub) o b s
    | 3 => writeLive c idx sub o off b more s
    | 4 =>
      if o.typ = 10 then writeCommandBlob c idx sub o off b more s
      else if b.length ≠ o.size then (3, s) else commandScalar idx sub (ofBytes b) s
    | _ => writeCs c idx sub o off b more s
/-- The access class of an object, 0 for none. -/
def accOf (idx sub : Nat) : Nat := match objAt idx sub with | some o => o.acc | none => 0
/-- SEQ of a WRITE's response (14 R400, R408): where a rw-s write or a commit request is refused, R400 states none. -/
def writeSeq (idx sub status : Nat) (s : State) : Nat × State :=
  if accOf idx sub = 2 ∨ (idx = 0x6000 ∧ sub = 1) then
    if status = 0 then (if idx = 0x6000 ∧ sub = 1 then s.tt.number else s.tt.seq, s)
    else let (k, s1) := s.draw; ((Config.refusedSeq k).toNat, s1)
  else (0, s)

/-! ### Fan-out (14 R414) -/

def fanoutRefusal (r : Nat) (s : State) : State :=
  if r = 0 then s else s.setDict { s.dict with fanoutRefused := satAdd 32 s.dict.fanoutRefused 1 }
/-- A rw-s WRITE with FANOUT = 1: applied by the coordinator, and forwarded as received. -/
def fanoutWrite (c : Client) (h : Hdr) (msg b : List Byte) (s : State) : Nat × State :=
  if s.isCoordinator = false then (7, s)
  else if s.alone = false ∧ s.confRoom msg = false then (5, s)
  else
    let (r, s1) := writeObj c h.idx h.sub h.offset b h.more s
    (r, fanoutRefusal r (if r = 0 ∧ s1.alone = false then confSend 1 msg s1 else s1))
/-- A forwarded message at another part: applied as a write, without an answer. -/
def fanoutReceived (msg : List Byte) (s : State) : State :=
  let h := headerOf msg
  if s.dict.up && messageOk msg && h.op == 2 && accOf h.idx h.sub == 2 then
    let (r, s1) := writeObj ⟨.mgmt, 0, 0⟩ h.idx h.sub h.offset ((msg.drop 20).take h.len) h.more s
    fanoutRefusal r s1
  else s

/-! ### Clients (14 R403) -/

/-- A client's kept writes. -/
def State.keptOf (s : State) (c : Client) : List Kept :=
  match s.dict.clients.find? fun e => e.1 == c with | some e => e.2 | none => []
/-- Put a client at the head of the table of 16 with its kept writes. -/
def touchClient (c : Client) (l : List Kept) (s : State) : State :=
  s.setDict { s.dict with clients := ((c, l) :: s.dict.clients.filter fun e => !(e.1 == c)).take 16 }
/-- Keep a write among the client's last 16. -/
def keepWrite (c : Client) (k : Kept) (s : State) : State := touchClient c ((k :: s.keptOf c).take 16) s

/-! ### One message -/

/-- A WRITE message: an answer of the kept entry, or its effect. -/
def writeAnswer (c : Client) (h : Hdr) (msg b : List Byte) (s : State) : Answer × State :=
  match (s.keptOf c).find? fun k => k.id == h.id && k.idx == h.idx && k.sub == h.sub && k.offset == h.offset with
  | some k =>
    ({ status := k.status, payload := toBytes 4 k.seq }, s.setDict { s.dict with duplicates := satAdd 32 s.dict.duplicates 1 })
  | none =>
    let (r, s1) : Nat × State :=
      if pathLimit c.path < h.len then (3, s)
      else if h.fanout ∧ accOf h.idx h.sub = 2 then fanoutWrite c h msg b s
      else writeObj c h.idx h.sub h.offset b h.more s
    let (q, s2) := writeSeq h.idx h.sub r s1
    ({ status := r, payload := toBytes 4 q }, keepWrite c ⟨h.id, h.idx, h.sub, h.offset, r, q⟩ s2)
/-- The answer to an accepted message. -/
def answerOf (c : Client) (h : Hdr) (msg : List Byte) (e : Ecc) (s : State) : Answer × State :=
  let b := (msg.drop 20).take h.len
  if h.ver ≠ 1 ∨ h.op = 0 ∨ 3 < h.op then
    ({ status := 0xA, payload := if h.op = 2 then [0, 0, 0, 0] else [] }, s)
  else if h.op = 2 then writeAnswer c h msg b s
  else if h.op = 1 then readAnswer (pathLimit c.path) h e s
  else if h.len ≠ 0 then ({ status := 3 }, s)
  else (listAnswer h.idx h.sub, s)
/-- The response message. -/
def responseBytes (h : Hdr) (a : Answer) : List Byte :=
  withCrc (headerBytes 1 (h.op + 0x80) h.id h.idx h.sub a.status h.element h.offset a.payload.length (b2n a.more) ++ a.payload)

/-- Byte stuffing of the field bus (14 R407). -/
def stuff : List Byte → List Byte
  | [] => []
  | b :: r => if b = 0x7E ∨ b = 0x7D then 0x7D :: (b ^^^ 0x20) :: stuff r else b :: stuff r
def unstuff : List Byte → List Byte
  | [] => []
  | [b] => if b = 0x7D then [] else [b]
  | b :: x :: r => if b = 0x7D then (x ^^^ 0x20) :: unstuff r else b :: unstuff (x :: r)
/-- The index of a path's address objects. -/
def pathIndex : Path → Nat | .mgmt => 0x1010 | _ => 0x1020
/-- A path's addresses now (14 Table 14.5). -/
def State.addrOf (s : State) (p : Path) : PathAddr :=
  let f (k : Nat) : Nat := s.cfg (ob (pathIndex p) k)
  ⟨f 1, f 2, f 3, f 4, s.cfg (ob 0x1030 2)⟩
/-- The next hop towards an address (14 R405): itself on the local subnet, else the gateway, if there is one. -/
def PathAddr.nextHop (a : PathAddr) (ip : Nat) : Option Nat :=
  if ip &&& a.mask = a.ip &&& a.mask then some ip else if a.gateway = 0 then none else some a.gateway
/-- Send a response by the client's path, from the address the request was received at (14 R398, R405). -/
def respond (c : Client) (a : PathAddr) (msg : List Byte) (s : State) : State :=
  match c.path with
  | .bus => s.send (.busFrame (0x7E :: stuff (BitVec.ofNat 8 (a.node + 0x80) :: msg) ++ [0x7E]))
  | .tally => s.send (.response c 0 0 msg)
  | _ => if (a.nextHop c.ip).isSome then s.send (.response c a.ip a.port msg) else s
/-- Drop a message (14 R399). -/
def dropMessage (h : Hdr) (s : State) : State :=
  raiseLim (ms 1000) 0xA50 1 0 (h.idx + 65536 * h.sub) (s.setDict { s.dict with dropped := satAdd 32 s.dict.dropped 1 })
/-- Answer a message and count a BUSY. -/
def sendAnswer (c : Client) (p : PathAddr) (h : Hdr) (a : Answer) (s : State) : State :=
  respond c p (responseBytes h a) (if a.status = 5 then s.setDict { s.dict with busy := satAdd 32 s.dict.busy 1 } else s)
/-- One message of a client. While the service does not answer, a message is lost; during a soft reset a soft_reset write
answers BUSY (18 R517). -/
def handleNow (c : Client) (p : PathAddr) (msg : List Byte) (e : Ecc) (s : State) : State :=
  let h := headerOf msg
  if s.dict.up = false then
    if s.pwr.softBusy ∧ messageOk msg = true ∧ h.ver = 1 ∧ h.op = 2 ∧ h.idx = 0x2000 ∧ h.sub = 1 then
      sendAnswer c p h { status := 5, payload := [0, 0, 0, 0] } s
    else s
  else if messageOk msg = false then dropMessage h s
  else
    let s1 := touchClient c (s.keptOf c) (s.setDict { s.dict with received := satAdd 64 s.dict.received 1 })
    let (a, s2) := answerOf c h msg e s1
    softGo (sendAnswer c p h a s2)

/-- One message, or its wait for the service. -/
def handleMsg (c : Client) (msg : List Byte) (e : Ecc) (s : State) : State := 
  let p := s.addrOf c.path
  atService (.msg c p msg e) (handleNow c p msg e) s

/-! ### The rows -/

def reqClient (r : Req) : Client := ⟨r.path, r.ip.toNat, r.port.toNat⟩
/-- The field bus is enabled (Table 14.5). -/
def State.busOn (s : State) : Bool := s.cfg (ob 0x1030 1) == 1
/-- The MAC address of a path. -/
def pathMac : Path → Nat | .mgmt => Config.macMgmt % 2 ^ 48 | _ => Config.macField % 2 ^ 48
def pathEthernet : Path → Bool | .mgmt => true | .field => true | _ => false
/-- Every other frame is dropped and counted (14 R405). -/
def dropFrame (s : State) : State := s.setDict { s.dict with dropped := satAdd 32 s.dict.dropped 1 }
/-- The datagram of a request is one that the path takes: to its address and port, with no options and no fragment (14 R405). -/
def datagramOk (r : Req) (s : State) : Bool :=
  !pathEthernet r.path || (r.to_.toNat == s.cfg (ob (pathIndex r.path) 1) && r.toPort.toNat == s.cfg (ob (pathIndex r.path) 4) && !r.odd)
/-- A request row. -/
def request (r : Req) (op flags : Nat) (e : Ecc) (s : State) : State :=
  if r.path = .bus ∧ s.busOn = false then s
  else if datagramOk r s then handleMsg (reqClient r) (reqBytes r op flags) e s
  else if s.dict.up then dropFrame s else s
def execRead (r : Req) (e : Ecc) (s : State) : Host.Outcome State Fault Refusal := .next (request r 1 0 e s)
def execReadSnap (r : Req) (e : Ecc) (s : State) : Host.Outcome State Fault Refusal := .next (request r 1 2 e s)
def execReadActive (r : Req) (e : Ecc) (s : State) : Host.Outcome State Fault Refusal := .next (request r 1 4 e s)
def execWrite (r : Req) (s : State) : Host.Outcome State Fault Refusal := .next (request r 2 0 .ok s)
def execFanoutWrite (r : Req) (s : State) : Host.Outcome State Fault Refusal := .next (request r 2 8 .ok s)
def execList (r : Req) (s : State) : Host.Outcome State Fault Refusal := .next (request r 3 0 .ok s)

/-- 14 R407: a frame between its flags, for this node. -/
def busFrameOp (bytes : List Byte) (s : State) : State :=
  match unstuff bytes with
  | [] => s
  | a :: msg =>
    if s.busOn ∧ bytes.length ≤ 598 ∧ a.toNat = s.cfg (ob 0x1030 2) then handleMsg ⟨.bus, 0, 0⟩ msg .ok s else s
def execFieldBusFrame (bytes : List Byte) (s : State) : Host.Outcome State Fault Refusal :=  .next (busFrameOp bytes s)

def arpOp (p : Path) (ip mac from_ : Nat) (s : State) : State :=
  if s.dict.up = false ∨ pathEthernet p = false then s
  else if ip = s.cfg (ob (pathIndex p) 1) then s.send (.arpReply p ip (pathMac p) mac from_)
  else dropFrame s
def execArpRequest (p : Path) (ip : BitVec 32) (mac : BitVec 48) (from_ : BitVec 32) (s : State) :
    Host.Outcome State Fault Refusal := .next (arpOp p ip.toNat mac.toNat from_.toNat s)
def echoOp (p : Path) (src dst : Nat) (data : List Byte) (s : State) : State :=
  if s.dict.up = false ∨ pathEthernet p = false then s
  else if dst = s.cfg (ob (pathIndex p) 1) then
    match (s.addrOf p).nextHop src with
    | some hop => s.send (.icmpReply p src hop data)
    | none => s
  else dropFrame s
def execIcmpEcho (p : Path) (src dst : BitVec 32) (data : List Byte) (s : State) : Host.Outcome State Fault Refusal :=
  .next (echoOp p src.toNat dst.toNat data s)

/-- 17 R488: a cs write of the client that has the object's write open, or of a new one. -/
def csWriteOp (idx sub off : Nat) (b : List Byte) (more : Bool) (s : State) : State :=
  match objAt idx sub with
  | some o =>
    if o.acc = 5 ∧ s.dict.up then
      let c := match s.openWrite idx sub with | some a => a.client | none => ⟨.mgmt, 0, 0⟩
      (writeCs c idx sub o off b more s).2
    else s
  | none => s
def execCsWrite (idx : BitVec 16) (sub : BitVec 8) (off : BitVec 32) (bytes : List Byte) (more : Bool) (s : State) :
    Host.Outcome State Fault Refusal := 
  .next (atService (.cs idx.toNat sub.toNat off.toNat bytes more) (csWriteOp idx.toNat sub.toNat off.toNat bytes more) s)

/-! ### Posts (12 R360) -/

/-- STATUS of a post by the write's result; a cause that Table 12.12 does not list leaves it open (assumption 34). -/
def postStatus (r : Nat) (s : State) : Nat × State :=
  if r = 0 then (1, s) else if r = 1 then (2, s) else if r = 2 ∨ r = 6 then (3, s) else if r = 3 then (4, s)
  else let (k, s1) := s.draw; ((Config.postStatus k).toNat, s1)
/-- The service takes a core's oldest post. -/
def postTakenOp (c : Nat) (s : State) : State :=
  match (s.core c).posts with
  | [] => s
  | p :: rest =>
    if s.dict.up && s.ctrl.pair.serves then
      let s1 := s.setCore c { s.core c with posts := rest }
      let (r, s2) : Nat × State :=
        if accOf p.idx p.sub = 5 then (2, s1) else writeObj ⟨.tally, c, 0⟩ p.idx p.sub 0 p.data false s1
      let (v, s3) := postStatus r s2
      let s4 := tallyEvent c 14 (storeBytes (dmBase c + p.addr + 4) (toBytes 1 v) s3)
      softGo (if r = 0 then s4 else postRefused c s4)
    else s
def execPostTaken (c : Fin 4) (s : State) : Host.Outcome State Fault Refusal := .next (postTakenOp c s)

/-! ### Register writes (02 R24, 13 R372) -/

/-- An object written by the service itself. -/
def objectOp (idx sub : Nat) (data : List Byte) (s : State) : State :=
  if s.dict.up then softGo (writeObj ⟨.mgmt, 0, 0⟩ idx sub 0 data false s).2 else s
def registerOp (w : RegWrite) (s : State) : State :=
  match w with
  | .bus m q =>
    if s.mayRequest m = false then s
    else if m.val = 0 ∧ s.ctrl.pair = .lockstep then pairRequest q q [] s
    else issueBus m q [] (debugTap m s)
  | .object idx sub data => objectOp idx.toNat sub.toNat data s
def execRegisterWrite (w : RegWrite) (s : State) : Host.Outcome State Fault Refusal :=
  .next (match w with
    | .bus _ _ => registerOp w s
    | .object idx sub data => atService (.object idx.toNat sub.toNat data) (registerOp w) s)

end Sys2Proof.Machine
end

