-- ==== Sys2Proof/Machine/System.lean ====
section
/-! DEFINITION. Commands that reach across the part: committed sets and stamps at a block (02 R28, R45), time blocks (02 R44, 08
R250), received parcels and CONFIG messages (06 R169 to R173), barriers (06 R186). -/

namespace Sys2Proof.Machine

open Sys2Proof

/-! ### Committed sets (02 R28) -/

def execApplyCommittedSet (src : BitVec 12) (stamp : BitVec 64) (s : State) : Host.Outcome State Fault Refusal :=
  .next (applyUnit src.toNat stamp.toNat s)

/-! ### Stamps of arriving units (02 R45) -/

/-- The stamp a block expects: an ingest lane's is that of the logical lane it serves. -/
def State.expectedAt (s : State) (n : Nat) : Option Nat :=
  if n < 100 then match s.servedBy n with | some lg => (s.logical lg).expected | none => none
  else (s.blk n).expected
def setExpected (n x : Nat) (s : State) : State :=
  if n < 100 then match s.servedBy n with | some lg => s.modLogical lg fun g => { g with expected := some x } | none => s
  else s.modBlk n fun b => { b with expected := some x }
/-- The stamps from e to t of one input, filled with not-valid samples (02 R37). -/
def gapInput (e t i : Nat) (s : State) : State :=
  let p := s.cfgAt t (ob (0x4200 + i / 4) 4)
  pushChunk i (.gap e p (s.cplxIn t i) (s.lane (s.serving (i / 4))).startPm ((t - e) / max 1 p)) s
/-- Fill the stamps from e to t: in the inputs of an ingest lane or of a filter engine. In every other block a unit that never arrived
reads as not valid where the data is used (DEDUCED, assumption 197). -/
def fillGap (n e t : Nat) (s : State) : State :=
  if n < 100 then
    match s.servedBy n with | some lg => forRange 4 (fun q s => gapInput e t (4 * lg + q) s) s | none => s
  else if blockType n = some 0x10 then forRange 16 (fun q s => gapInput e t (16 * (n - 0x100) + q) s) s
  else s
/-- 02 R45, Table 02.10: a unit of len ticks stamped t arrives at a block. -/
def unitOp (n t len : Nat) (s0 : State) : State :=
  if (blockType n).isNone then s0
  else
  let s := s0.noteUnit n t
  match s.expectedAt n with
  | none => setExpected n (t + len) s
  | some e =>
    if t = e then setExpected n (t + len) s
    else
      let s1 := raise n (gapKind n) 0 s
      if e < t then setExpected n (t + len) (fillGap n e t s1)
      else if t + len < e then s1
      else setExpected n (max e (t + len)) s1
def execUnitArrival (src : BitVec 12) (stamp : BitVec 64) (len : Nat) (s : State) : Host.Outcome State Fault Refusal :=
  .next (unitOp src.toNat stamp.toNat len s)

/-! ### Time blocks (02 R44) -/

/-- The channel sample of input i at a stamp is valid (05 R132): one was emitted, and it is no marker. -/
def State.sampleValid (s : State) (m : Tab Nat) (i x : Nat) : Bool :=
  let w := s.filt.words.get (fun _ => 0) (chanKey (setVal m (ob 0x5000 0x13)) (384 * s.rankIn m + i) x)
  w != 0 && w != marker (setC8 m) + 1
/-- The rows of the validity map of the block from x to e (08 R250). -/
def State.validityMap (s : State) (m : Tab Nat) (x e : Nat) : List Byte :=
  (List.range 8192).flatMap fun q => (List.range 48).map fun j =>
    let t := x + q * setF m
    BitVec.ofNat 8 (((List.range 8).map fun b => if t < e ∧ s.sampleValid m (8 * j + b) t then 2 ^ b else 0).sum)
/-- Where the block that starts at x ends: at its length, or where a commit starts integrations anew. -/
def State.blockEnd (s : State) (x : Nat) : Nat :=
  let e := x + setTB (s.setAt x)
  ((s.acc.starts.filter fun p => decide (x < p ∧ p < e)).head?).getD e
/-- The validity maps of the blocks that ended a block ago or more, when every channel sample of them has left (DESIGN CHOICE,
assumption 124). -/
def mapStreams (at_ : Nat) : Nat → State → State
  | 0, s => s
  | f + 1, s =>
    match s.fab.start with
    | some b0 =>
      let x := max b0 s.out.mapNext
      let m := s.setAt x
      let e := s.blockEnd x
      if e + s.tb at_ ≤ at_ then
        mapStreams at_ f (emitStream { mkStream m 5 8 x 0xFFFF 48 8192 (x + 3 * setTB m + ms 20) with data := s.validityMap m x e }
          (s.setOut { s.out with mapNext := e }))
      else s
    | none => s
/-- The counter passes the boundary at a stamp: per-block counts roll over and alarms are judged. -/
def blockBoundary (at_ : Nat) (s : State) : State :=
  if s.filt.lastBlock < at_ ∧ at_ ≤ s.pm then
    let s1 := { s with filt := { s.filt with lastBlock := at_ } }
    let s2 := forRange 384 (inputBlock at_) s1
    if at_ % s.tb at_ = 0 then mapStreams at_ 16 (forRange 16 outBlock (beamBlock s2)) else s2
  else s
def execTimeBlockBoundary (at_ : BitVec 64) (s : State) : Host.Outcome State Fault Refusal :=
  .next (blockBoundary at_.toNat s)

/-! ### CONFIG messages (06 R173, 14 R414) -/

/-- A message in assembly. -/
def State.confOf (s : State) (src stamp : Nat) : Option ConfMsg := s.relay.conf.find? fun c => c.src == src && c.stamp == stamp
def dropConf (src stamp : Nat) (s : State) : State :=
  s.setRelay { s.relay with conf := s.relay.conf.filter fun c => !(c.src == src && c.stamp == stamp) }
/-- Every segment up to the last has arrived. -/
def ConfMsg.complete (c : ConfMsg) : Bool :=
  match c.last with | some n => (List.range (n + 1)).all fun k => c.segs.any fun e => e.1 == k | none => false
def ConfMsg.contents (c : ConfMsg) : List Byte :=
  match c.last with | some n => (List.range (n + 1)).flatMap fun k => c.segs.get (fun _ => []) k | none => []
/-- A whole message: its effect, or its wait for the service (13 R385). -/
def confAct (kind : Nat) (b : List Byte) (s : State) : State :=
  if kind = 1 then atService (.fan b) (fanoutReceived b) s
  else if kind = 2 then
    let w := ofBytes (b.take 16)
    atService (.proposal (bits 63 0 w) (bits 79 64 w) (bit 80 w) (bits 127 96 w))
      (proposalWait (bits 63 0 w) (bits 79 64 w) (bit 80 w) (bits 127 96 w)) s
  else s
/-- The first copy of a CONFIG parcel: forwarded twice on the tree and put into its message. -/
def confParcel (p : Nat) (c : Parcel) (s : State) : State :=
  let s1 := s.setRelay { s.relay with seen := (c.src, c.stamp, c.pseq) :: s.relay.seen }
  let item : SvcParcel := { type := 3, stamp := c.stamp, src := c.src, pseq := c.pseq, hop := (c.hop + 1) % 256, payload := c.payload }
  let s2 := (s1.treeOut c.src (some p)).foldl (fun s q => queueService q item (queueService q item s)) s1
  let h := ofBytes (c.payload.take 4)
  let m : ConfMsg := match s2.confOf c.src c.stamp with
    | some m => m
    | none => { src := c.src, stamp := c.stamp, port := p, start := s2.now }
  let m1 : ConfMsg := { m with segs := m.segs.set (fun _ => []) c.pseq ((c.payload.drop 4).take (bits 31 16 h))
                               last := if bit 8 h then some c.pseq else m.last }
  let s3 := dropConf c.src c.stamp s2
  if m1.complete then confAct (bits 7 0 h) m1.contents s3
  else s3.setRelay { s3.relay with conf := m1 :: s3.relay.conf }
/-- 06 R173: a message still incomplete after 10 ms. -/
def confTimeout (src stamp : Nat) (s : State) : State :=
  match s.confOf src stamp with
  | some c =>
    if c.start + ms 10 ≤ s.now then
      let v := s.port c.port
      raise (portSrc c.port) 5 v.nRank ((dropConf src stamp s).setPort c.port { v with lost := satAdd 32 v.lost 1 })
    else s
  | none => s
def execConfigMessageTimeout (src stamp : Nat) (s : State) : Host.Outcome State Fault Refusal := .next (confTimeout src stamp s)

/-! ### Received parcels (06 R169, R170) -/

/-- Count in a port. -/
def modPort (p : Nat) (f : Port → Port) (s : State) : State := s.setPort p (f (s.port p))
def countCrc (p : Nat) (s : State) : State := modPort p (fun v => { v with crcErrors := satAdd 32 v.crcErrors 1 }) s
def countReceived (p : Nat) (s : State) : State := modPort p (fun v => { v with received := satAdd 64 v.received 1 }) s
def parcelIn (p l : Nat) (c : Parcel) (s0 : State) : State :=
  if s0.served p l then
    let src := portLane p (s0.rxPhys p l)
    let whole : Bool := decide (c.invalid = 0 ∧ c.disparity = 0) && !c.abort
    let (mask, _, s) := crcReached whole src s0
    let need := creditNeed c.payload.length
    match s.parcelVerdict p l c mask with
    | .symbol => freeCredits p l need (countCrc p (countCode src c.invalid c.disparity s))
    | .crc =>
      let (s1, dead) := relayCrcFail src (freeCredits p l need (countCrc p s))
      if dead then relayFailed src s1 else s1
    | .header => freeCredits p l need (countCrc p s)
    | .late => freeCredits p l need (modPort p (fun v => { v with late := satAdd 32 v.late 1 }) s)
    | .data _ =>
      let n := parcelName c
      let s1 := markDone p n (countReceived p s)
      if bit 1 c.flags then
        deliverParcel p l n need none (modPort p (fun v => { v with lost := satAdd 32 v.lost 1 }) s1)
      else deliverParcel p l n need (some c.payload) s1
    | .service =>
      let s1 := freeCredits p l need s
      if c.type = 2 then mapParcel c.payload (countReceived p s1)
      else if s1.relay.seen.contains (c.src, c.stamp, c.pseq) then s1
      else confParcel p c (countReceived p s1)
  else s0
def execParcelReceive (p : Fin 4) (l : Fin 24) (c : Parcel) (s : State) : Host.Outcome State Fault Refusal :=
  .next (parcelIn p l c s)

/-! ### Barriers (06 R186, R188) -/

def execBarrierUp (p : Fin 4) (c : Ctl) (s : State) : Host.Outcome State Fault Refusal :=
  .next (ctlIn 4 p c (fun s => settleBarrier (barrierUpOp p c.arg0.toNat c.arg1.toNat s)) s)
/-- BARRIER_DOWN: passed down the tree; the part's own vote in that barrier ends with its result. A part whose checks still run holds
it until they end (06 R188). -/
def barrierDownOp (arg0 arg1 : Nat) (s : State) : State :=
  let n := bits 47 32 arg0
  let held : Bool := s.tt.st == .checking && s.tt.system && s.tt.barrier == n
  let s0 := if held then s.setTt { s.tt with down := some (bit 0 arg1) } else s
  let s1 := sendBarrierDown n (bit 0 arg1) s0
  match s.relay.barrier with
  | some b =>
    if b.number = n then
      let s2 := s1.setRelay { s1.relay with barrier := none }
      if s.tt.barrier = n then voteResult (bit 0 arg1) s2 else s2
    else s1
  | none => s1
def execBarrierDown (p : Fin 4) (c : Ctl) (s : State) : Host.Outcome State Fault Refusal :=
  .next (ctlIn 5 p c (barrierDownOp c.arg0.toNat c.arg1.toNat) s)
/-- The coordinator has not completed the barrier in time (06 R186, R188). -/
def barrierTimeout (s : State) : State :=
  match s.relay.barrier with
  | some b =>
    let late := b.vote.isSome && decide (b.start + ms (s.cfg (ob 0x6100 4)) ≤ s.now)
    let due := s.voteOver
    if s.rank = 0 ∧ s.alone = false ∧ (late || due) = true then
      raise 0x120 0xA (s.port 0).nRank
        (voteResult false (sendBarrierDown b.number false (s.setRelay { s.relay with barrier := none })))
    else s
  | none => s
def execBarrierTimeout (s : State) : Host.Outcome State Fault Refusal := .next (barrierTimeout s)

/-! ### Time (15 R426 to R429, R446, R447) -/

/-- The blocks that copy with the counter and have not copied yet. -/
def counterCopies (s : State) : State :=
  (s.dict.snap.left.filter fun n => !copiesWithData n).foldl (fun s n => captureOp n s) s
/-- Snapshot copies due by Postmark x go before what is due at x. -/
def copyBy (x : Nat) (s : State) : State := if s.dict.snap.st = 1 ∧ s.dict.snap.at_ ≤ x then counterCopies s else s
/-- The latch and the copies due by Postmark x, in Postmark order, the latch first at one Postmark (15 R447). -/
def dueBy (x : Nat) (s : State) : State :=
  if s.dict.snap.at_ < s.tt.p then latchBy x (copyBy x s) else copyBy x (latchBy x s)
/-- The latch and the copies go before PM_COMPARE (15 R447). -/
def compareBy (c : Nat) (s : State) : State :=
  if (s.core c).armed && decide ((s.core c).cmp ≤ s.pm) then
    pmCompareOp c (dueBy (s.core c).cmp s)
  else s
def execPmCompare (c : Fin 4) (s : State) : Host.Outcome State Fault Refusal := .next (compareBy c s)
/-- Insert a core by its compare value. -/
def insertCmp (c : Nat × Nat) : List (Nat × Nat) → List (Nat × Nat)
  | [] => [c]
  | d :: r => if c.1 < d.1 then c :: d :: r else d :: insertCmp c r
/-- The counter has stepped forward: the counter-driven actions that are due act, in Postmark order (15 R429). -/
def stepActions (s : State) : State :=
  let cs := ((List.range 4).map fun c => ((s.core c).cmp, c)).foldr insertCmp []
  let s1 := cs.foldl (fun s c => compareBy c.2 s) s
  dueBy s1.pm s1
/-- A PPS edge; an alignment may step the counter. -/
def execPpsEdge (s : State) : Host.Outcome State Fault Refusal :=
  let t := ppsEdgeOp s
  .next (if s.pm < t.pm then stepActions t else t)


/-- The path of a request that waits. -/
def Waiting.path : Waiting → Option Path | .msg c _ _ _ => some c.path | _ => none
/-- The order in which waiting requests are taken: as they came, but the field network's ahead of the management port's (14 R403,
R406). -/
def serviceOrder (l : List Waiting) : List Waiting :=
  let a := l.takeWhile fun w => w.path != some .mgmt
  let b := l.dropWhile fun w => w.path != some .mgmt
  a ++ (b.filter fun w => w.path == some .field) ++ b.filter fun w => w.path != some .field
/-- The service takes one that waited. -/
def serveWaiting (w : Waiting) (s : State) : State :=
  match w with
  | .msg c a b e => handleNow c a b e s
  | .cs idx sub off b more => csWriteOp idx sub off b more s
  | .object idx sub b => objectOp idx sub b s
  | .snapshot at_ => snapshotWait at_ s
  | .globalOp op r => globalWrite op r s
  | .commit at_ system dry => commitWait at_ system dry s
  | .proposal p n dry crc => proposalWait p n dry crc s
  | .softReset v => softResetOp v s
  | .blockReset n => blockResetOp n s
  | .start at_ => startWait at_ s
  | .fan b => fanoutReceived b s
  | .ring w => ringCommandOp w true s
/-- Control service runs again: what waited for it goes on, until it is interrupted anew (13 R385). -/
def serviceResume (s : State) : State :=
  if s.ctrl.pair.serves && !s.dict.waiting.isEmpty then
    (serviceOrder s.dict.waiting).foldl (fun s w =>
      if s.ctrl.pair.serves then serveWaiting w s else s.setDict { s.dict with waiting := s.dict.waiting ++ [w] })
      (s.setDict { s.dict with waiting := [] })
  else s
/-- One tick of the sample clock: the counters, then what needs no command: the lanes in TEST (03 R70), the control packets that
wait (06 R175), DRAM requests that wait for tokens (09 R269), bus requests that they held (13 R375), resends that wait for their
lane (03 R68), and what waits for the service (13 R385). Nothing but the counters moves while the main domain is in reset. -/
def tick (s : State) : State :=
  let s1 := countTick s
  if s.pwr.inReset then s1 else serviceResume <| forRange 16 outPump (matrixRun (forRange 4 serveStack (forRange 4 ctlPump (testTick s1))))

end Sys2Proof.Machine
end

