-- ==== Sys2Proof/Machine/Tap.lean ====
section
/-! DEFINITION. The TAP's instructions (19 R538). -/

namespace Sys2Proof.Machine

open Sys2Proof

/-- Load an instruction; one that drives balls is taken only while RST_N is low, else BYPASS stands in its place. -/
def tapLoad (i : TapIr) (s : State) : State := { s with tap := if i.drives && !s.pwr.pin then .bypass else i }
/-- An instruction that drives balls; no command shifts the boundary cells, so what they hold is a free value (assumption 226). -/
def tapDrive (i : TapIr) (s : State) : State :=
  if s.pwr.pin then
    let (k, s1) := s.draw
    (tapLoad i s1).send (.balls i (Config.boundaryCells k))
  else tapLoad i s
def execExtest (s : State) : Host.Outcome State Fault Refusal := .next (tapDrive .extest s)
def execExtestPulse (s : State) : Host.Outcome State Fault Refusal := .next (tapDrive .extestPulse s)
def execExtestTrain (s : State) : Host.Outcome State Fault Refusal := .next (tapDrive .extestTrain s)
def execClamp (s : State) : Host.Outcome State Fault Refusal := .next (tapDrive .clamp s)
def execBypass (s : State) : Host.Outcome State Fault Refusal := .next (tapLoad .bypass s)
/-- The identity code. -/
def idcodeBits : Nat := 2 * 2 ^ 28 + 0x8100 * 2 ^ 12 + 2 * (Config.vendorId % 2 ^ 11) + 1
def execIdcode (s : State) : Host.Outcome State Fault Refusal := .next ((tapLoad .idcode s).send (.tap idcodeBits))

end Sys2Proof.Machine
end

