-- ==== Sys2Proof/Machine/Dispatch.lean ====
section
/-! DEFINITION. The dispatch of a command to its meaning, one arm per constructor. -/

namespace Sys2Proof.Machine

def exec (i : Instr) (s : State) : Host.Outcome State Fault Refusal :=
  match i with
  | .applyCommittedSet src stamp => Sys2Proof.Machine.execApplyCommittedSet src stamp s
  | .unitArrival src stamp len => Sys2Proof.Machine.execUnitArrival src stamp len s
  | .cdrLock l => Sys2Proof.Machine.execCdrLock l s
  | .cdrLockLoss l => Sys2Proof.Machine.execCdrLockLoss l s
  | .laneAligned l => Sys2Proof.Machine.execLaneAligned l s
  | .alignTimeout l => Sys2Proof.Machine.execAlignTimeout l s
  | .laneSyncLoss l => Sys2Proof.Machine.execLaneSyncLoss l s
  | .sleepWordsReceived l => Sys2Proof.Machine.execSleepWordsReceived l s
  | .slip l a => Sys2Proof.Machine.execSlip l a s
  | .txSleep l a => Sys2Proof.Machine.execTxSleep l a s
  | .txWake l a => Sys2Proof.Machine.execTxWake l a s
  | .rxSleep l a => Sys2Proof.Machine.execRxSleep l a s
  | .rxWake l a => Sys2Proof.Machine.execRxWake l a s
  | .testEnter l a => Sys2Proof.Machine.execTestEnter l a s
  | .testExit l a => Sys2Proof.Machine.execTestExit l a s
  | .laneStart l a => Sys2Proof.Machine.execLaneStart l a s
  | .laneStop l a => Sys2Proof.Machine.execLaneStop l a s
  | .inject l a => Sys2Proof.Machine.execInject l a s
  | .loopback l a => Sys2Proof.Machine.execLoopback l a s
  | .laneClearCounters l a => Sys2Proof.Machine.execLaneClearCounters l a s
  | .spareIn l a => Sys2Proof.Machine.execSpareIn l a s
  | .spareOut l a => Sys2Proof.Machine.execSpareOut l a s
  | .prbsCheckWord l w => Sys2Proof.Machine.execPrbsCheckWord l w s
  | .statusWordSend l => Sys2Proof.Machine.execStatusWordSend l s
  | .sampleLinkFrame l f => Sys2Proof.Machine.execSampleLinkFrame l f s
  | .laneFailTimeout l => Sys2Proof.Machine.execLaneFailTimeout l s
  | .spareTimeout l => Sys2Proof.Machine.execSpareTimeout l s
  | .codeError l rd w => Sys2Proof.Machine.execCodeError l rd w s
  | .engineSampleIn inp => Sys2Proof.Machine.execEngineSampleIn inp s
  | .delayOutput inp u e => Sys2Proof.Machine.execDelayOutput inp u e s
  | .delayFrameStart inp x => Sys2Proof.Machine.execDelayFrameStart inp x s
  | .delayRecord inp r => Sys2Proof.Machine.execDelayRecord inp r s
  | .conditioningClear v => Sys2Proof.Machine.execConditioningClear v s
  | .syncResetAt at_ => Sys2Proof.Machine.execSyncResetAt at_ s
  | .syncResetApply e => Sys2Proof.Machine.execSyncResetApply e s
  | .channeliserFrameStart e x eccA eccB addr => Sys2Proof.Machine.execChanneliserFrameStart e x eccA eccB addr s
  | .channelSampleOut inp n x => Sys2Proof.Machine.execChannelSampleOut inp n x s
  | .gainTable inp eff first count seq words => Sys2Proof.Machine.execGainTable inp eff first count seq words s
  | .bankImage e bank bytes last => Sys2Proof.Machine.execBankImage e bank bytes last s
  | .bankLoadRom e v => Sys2Proof.Machine.execBankLoadRom e v s
  | .bankLoadComplete e bank => Sys2Proof.Machine.execBankLoadComplete e bank s
  | .bankReady e bank => Sys2Proof.Machine.execBankReady e bank s
  | .swapRequest r => Sys2Proof.Machine.execSwapRequest r s
  | .swapCancel r => Sys2Proof.Machine.execSwapCancel r s
  | .coefRecoveryRestart e => Sys2Proof.Machine.execCoefRecoveryRestart e s
  | .timeBlockBoundary at_ => Sys2Proof.Machine.execTimeBlockBoundary at_ s
  | .parcelSend p n => Sys2Proof.Machine.execParcelSend p n s
  | .parcelReceive p l c => Sys2Proof.Machine.execParcelReceive p l c s
  | .parcelDeadline p n => Sys2Proof.Machine.execParcelDeadline p n s
  | .configMessageTimeout src stamp => Sys2Proof.Machine.execConfigMessageTimeout src stamp s
  | .serviceSlot p => Sys2Proof.Machine.execServiceSlot p s
  | .creditWordSend p l => Sys2Proof.Machine.execCreditWordSend p l s
  | .creditWord p l cred chk => Sys2Proof.Machine.execCreditWord p l cred chk s
  | .creditStall p l => Sys2Proof.Machine.execCreditStall p l s
  | .hello p c => Sys2Proof.Machine.execHello p c s
  | .ping p c => Sys2Proof.Machine.execPing p c s
  | .pong p c => Sys2Proof.Machine.execPong p c s
  | .helloTimer p => Sys2Proof.Machine.execHelloTimer p s
  | .relayPortUp p => Sys2Proof.Machine.execRelayPortUp p s
  | .portDownTimeout p => Sys2Proof.Machine.execPortDownTimeout p s
  | .mapFloodRound => Sys2Proof.Machine.execMapFloodRound s
  | .mapRestart => Sys2Proof.Machine.execMapRestart s
  | .coord p c => Sys2Proof.Machine.execCoord p c s
  | .barrierUp p c => Sys2Proof.Machine.execBarrierUp p c s
  | .barrierDown p c => Sys2Proof.Machine.execBarrierDown p c s
  | .barrierTimeout => Sys2Proof.Machine.execBarrierTimeout s
  | .bcast p c => Sys2Proof.Machine.execBcast p c s
  | .globalSnapshot r => Sys2Proof.Machine.execGlobalSnapshot r s
  | .globalSyncReset r => Sys2Proof.Machine.execGlobalSyncReset r s
  | .globalCoefSwap r => Sys2Proof.Machine.execGlobalCoefSwap r s
  | .globalStart r => Sys2Proof.Machine.execGlobalStart r s
  | .laneMove p c => Sys2Proof.Machine.execLaneMove p c s
  | .laneMoveAck p c => Sys2Proof.Machine.execLaneMoveAck p c s
  | .laneMoveRetry p l => Sys2Proof.Machine.execLaneMoveRetry p l s
  | .laneMoveSwitch p l => Sys2Proof.Machine.execLaneMoveSwitch p l s
  | .commitVoteDeadline => Sys2Proof.Machine.execCommitVoteDeadline s
  | .fabricWindowStart x0 => Sys2Proof.Machine.execFabricWindowStart x0 s
  | .segmentEnd k p ecc => Sys2Proof.Machine.execSegmentEnd k p ecc s
  | .stagingLoadDone c x0 strip ecc => Sys2Proof.Machine.execStagingLoadDone c x0 strip ecc s
  | .fabricWindowEnd => Sys2Proof.Machine.execFabricWindowEnd s
  | .beamBatchStart x => Sys2Proof.Machine.execBeamBatchStart x s
  | .beamBatchDone smp wgt dram => Sys2Proof.Machine.execBeamBatchDone smp wgt dram s
  | .beamDeadline x late => Sys2Proof.Machine.execBeamDeadline x late s
  | .weightBufferWrite a bytes => Sys2Proof.Machine.execWeightBufferWrite a bytes s
  | .weightSwap eff seq => Sys2Proof.Machine.execWeightSwap eff seq s
  | .weightSwapCancel => Sys2Proof.Machine.execWeightSwapCancel s
  | .weightPrep => Sys2Proof.Machine.execWeightPrep s
  | .fold st ecc => Sys2Proof.Machine.execFold st ecc s
  | .withdrawnNotice => Sys2Proof.Machine.execWithdrawnNotice s
  | .dumpSlotFreed c => Sys2Proof.Machine.execDumpSlotFreed c s
  | .dramTrainStart st => Sys2Proof.Machine.execDramTrainStart st s
  | .dramTrainDone st pass => Sys2Proof.Machine.execDramTrainDone st pass s
  | .dramTrainTimeout st => Sys2Proof.Machine.execDramTrainTimeout st s
  | .refresh st pc bank issue => Sys2Proof.Machine.execRefresh st pc bank issue s
  | .dramTempRise st temp => Sys2Proof.Machine.execDramTempRise st temp s
  | .dramTempFall st temp => Sys2Proof.Machine.execDramTempFall st temp s
  | .dramRequestIssue st port q x len wr late ecc => Sys2Proof.Machine.execDramRequestIssue st port q x len wr late ecc s
  | .scrubStep st e => Sys2Proof.Machine.execScrubStep st e s
  | .compressEnvelope k hist mismatch reads => Sys2Proof.Machine.execCompressEnvelope k hist mismatch reads s
  | .segmentAvailable => Sys2Proof.Machine.execSegmentAvailable s
  | .segmentStallTimeout u => Sys2Proof.Machine.execSegmentStallTimeout u s
  | .envelopeAssign ecc => Sys2Proof.Machine.execEnvelopeAssign ecc s
  | .backchannelWord p ack status chk => Sys2Proof.Machine.execBackchannelWord p ack status chk s
  | .retryTimeout l ecc => Sys2Proof.Machine.execRetryTimeout l ecc s
  | .backchannelTimeout l => Sys2Proof.Machine.execBackchannelTimeout l s
  | .outputSpareTimeout l => Sys2Proof.Machine.execOutputSpareTimeout l s
  | .decodeRequest r => Sys2Proof.Machine.execDecodeRequest r s
  | .decodeDone => Sys2Proof.Machine.execDecodeDone s
  | .ringStart r prio addr fw => Sys2Proof.Machine.execRingStart r prio addr fw s
  | .ringStop r fw => Sys2Proof.Machine.execRingStop r fw s
  | .ringDisable r fw => Sys2Proof.Machine.execRingDisable r fw s
  | .setPrio r prio fw => Sys2Proof.Machine.execSetPrio r prio fw s
  | .letterbox r fw => Sys2Proof.Machine.execLetterbox r fw s
  | .slotGrant => Sys2Proof.Machine.execSlotGrant s
  | .descriptorFetched r ecc => Sys2Proof.Machine.execDescriptorFetched r ecc s
  | .linkReadDone r ecc => Sys2Proof.Machine.execLinkReadDone r ecc s
  | .descriptorComplete r ecc => Sys2Proof.Machine.execDescriptorComplete r ecc s
  | .ringError r ctx ecc => Sys2Proof.Machine.execRingError r ctx ecc s
  | .tIll c v => Sys2Proof.Machine.execTIll c v s
  | .tNop c v => Sys2Proof.Machine.execTNop c v s
  | .tAdd c v gd gs gt => Sys2Proof.Machine.execTAdd c v gd gs gt s
  | .tAddc c v gd gs gt => Sys2Proof.Machine.execTAddc c v gd gs gt s
  | .tSub c v gd gs gt => Sys2Proof.Machine.execTSub c v gd gs gt s
  | .tSubb c v gd gs gt => Sys2Proof.Machine.execTSubb c v gd gs gt s
  | .tAnd c v gd gs gt => Sys2Proof.Machine.execTAnd c v gd gs gt s
  | .tOr c v gd gs gt => Sys2Proof.Machine.execTOr c v gd gs gt s
  | .tXor c v gd gs gt => Sys2Proof.Machine.execTXor c v gd gs gt s
  | .tShl c v gd gs gt => Sys2Proof.Machine.execTShl c v gd gs gt s
  | .tShr c v gd gs gt => Sys2Proof.Machine.execTShr c v gd gs gt s
  | .tSar c v gd gs gt => Sys2Proof.Machine.execTSar c v gd gs gt s
  | .tMin c v gd gs gt => Sys2Proof.Machine.execTMin c v gd gs gt s
  | .tMax c v gd gs gt => Sys2Proof.Machine.execTMax c v gd gs gt s
  | .tAbs c v gd gs => Sys2Proof.Machine.execTAbs c v gd gs s
  | .tClz c v gd gs => Sys2Proof.Machine.execTClz c v gd gs s
  | .tMul c v gd gs gt => Sys2Proof.Machine.execTMul c v gd gs gt s
  | .tMulh c v gd gs gt => Sys2Proof.Machine.execTMulh c v gd gs gt s
  | .tMulhu c v gd gs gt => Sys2Proof.Machine.execTMulhu c v gd gs gt s
  | .tAddi c v gd gs imm => Sys2Proof.Machine.execTAddi c v gd gs imm s
  | .tAndi c v gd gs imm => Sys2Proof.Machine.execTAndi c v gd gs imm s
  | .tOri c v gd gs imm => Sys2Proof.Machine.execTOri c v gd gs imm s
  | .tXori c v gd gs imm => Sys2Proof.Machine.execTXori c v gd gs imm s
  | .tShiShl c v gd gs n => Sys2Proof.Machine.execTShiShl c v gd gs n s
  | .tShiShr c v gd gs n => Sys2Proof.Machine.execTShiShr c v gd gs n s
  | .tShiSar c v gd gs n => Sys2Proof.Machine.execTShiSar c v gd gs n s
  | .tLui c v gd imm => Sys2Proof.Machine.execTLui c v gd imm s
  | .tCmpi c v gs imm => Sys2Proof.Machine.execTCmpi c v gs imm s
  | .tLdw c v gd gs post off => Sys2Proof.Machine.execTLdw c v gd gs post off s
  | .tLdh c v gd gs post off => Sys2Proof.Machine.execTLdh c v gd gs post off s
  | .tLdhu c v gd gs post off => Sys2Proof.Machine.execTLdhu c v gd gs post off s
  | .tLdb c v gd gs post off => Sys2Proof.Machine.execTLdb c v gd gs post off s
  | .tLdbu c v gd gs post off => Sys2Proof.Machine.execTLdbu c v gd gs post off s
  | .tStw c v gd gs post off => Sys2Proof.Machine.execTStw c v gd gs post off s
  | .tSth c v gd gs post off => Sys2Proof.Machine.execTSth c v gd gs post off s
  | .tStb c v gd gs post off => Sys2Proof.Machine.execTStb c v gd gs post off s
  | .tMac c v a sub clr gs gt hs ht => Sys2Proof.Machine.execTMac c v a sub clr gs gt hs ht s
  | .tMacDual c v a sub clr gs gt cross => Sys2Proof.Machine.execTMacDual c v a sub clr gs gt cross s
  | .tMacw c v a sub clr gs gt ht => Sys2Proof.Machine.execTMacw c v a sub clr gs gt ht s
  | .tMacwDual c v a sub clr gs gt => Sys2Proof.Machine.execTMacwDual c v a sub clr gs gt s
  | .tExt c v g a sh half => Sys2Proof.Machine.execTExt c v g a sh half s
  | .tMfa c v g a part => Sys2Proof.Machine.execTMfa c v g a part s
  | .tMta c v g a part => Sys2Proof.Machine.execTMta c v g a part s
  | .tB c v cond off => Sys2Proof.Machine.execTB c v cond off s
  | .tBal c v off => Sys2Proof.Machine.execTBal c v off s
  | .tJr c v gs => Sys2Proof.Machine.execTJr c v gs s
  | .tJalr c v gd gs => Sys2Proof.Machine.execTJalr c v gd gs s
  | .tReti c v => Sys2Proof.Machine.execTReti c v s
  | .tRpt c v gs n => Sys2Proof.Machine.execTRpt c v gs n s
  | .tMfc c v gd n => Sys2Proof.Machine.execTMfc c v gd n s
  | .tMtc c v n gs => Sys2Proof.Machine.execTMtc c v n gs s
  | .tWait c v => Sys2Proof.Machine.execTWait c v s
  | .tFence c v => Sys2Proof.Machine.execTFence c v s
  | .tPost c v gd gs => Sys2Proof.Machine.execTPost c v gd gs s
  | .tHalt c v => Sys2Proof.Machine.execTHalt c v s
  | .interruptEntry c latency => Sys2Proof.Machine.execInterruptEntry c latency s
  | .waitWake c cycles => Sys2Proof.Machine.execWaitWake c cycles s
  | .pmCompare c => Sys2Proof.Machine.execPmCompare c s
  | .msTick => Sys2Proof.Machine.execMsTick s
  | .tallyDoorbell c => Sys2Proof.Machine.execTallyDoorbell c s
  | .postTaken c => Sys2Proof.Machine.execPostTaken c s
  | .tallyRun c addr => Sys2Proof.Machine.execTallyRun c addr s
  | .tallyResume r => Sys2Proof.Machine.execTallyResume r s
  | .tallyHalt c => Sys2Proof.Machine.execTallyHalt c s
  | .tallyStep c v => Sys2Proof.Machine.execTallyStep c v s
  | .tallyReset c => Sys2Proof.Machine.execTallyReset c s
  | .tallyClearCounters c => Sys2Proof.Machine.execTallyClearCounters c s
  | .pmCrcDone c => Sys2Proof.Machine.execPmCrcDone c s
  | .tallyProgram c bytes last => Sys2Proof.Machine.execTallyProgram c bytes last s
  | .tallyClearDone c => Sys2Proof.Machine.execTallyClearDone c s
  | .registerWrite w => Sys2Proof.Machine.execRegisterWrite w s
  | .deadLetterAccess q a write n => Sys2Proof.Machine.execDeadLetterAccess q a write n s
  | .masterReset m accepted => Sys2Proof.Machine.execMasterReset m accepted s
  | .remapSet => Sys2Proof.Machine.execRemapSet s
  | .stewardMismatch r => Sys2Proof.Machine.execStewardMismatch r s
  | .diagDone a b => Sys2Proof.Machine.execDiagDone a b s
  | .restartDone => Sys2Proof.Machine.execRestartDone s
  | .stewardQuietEnd core => Sys2Proof.Machine.execStewardQuietEnd core s
  | .stewardTestDone core pass => Sys2Proof.Machine.execStewardTestDone core pass s
  | .stewardSyncPoint => Sys2Proof.Machine.execStewardSyncPoint s
  | .resyncDone => Sys2Proof.Machine.execResyncDone s
  | .survivorFault => Sys2Proof.Machine.execSurvivorFault s
  | .mirrorRead a one two => Sys2Proof.Machine.execMirrorRead a one two s
  | .read r e => Sys2Proof.Machine.execRead r e s
  | .readSnap r e => Sys2Proof.Machine.execReadSnap r e s
  | .readActive r e => Sys2Proof.Machine.execReadActive r e s
  | .write r => Sys2Proof.Machine.execWrite r s
  | .fanoutWrite r => Sys2Proof.Machine.execFanoutWrite r s
  | .list r => Sys2Proof.Machine.execList r s
  | .segmentTimeout idx sub => Sys2Proof.Machine.execSegmentTimeout idx sub s
  | .arpRequest p ip mac from_ => Sys2Proof.Machine.execArpRequest p ip mac from_ s
  | .icmpEcho p src dst data => Sys2Proof.Machine.execIcmpEcho p src dst data s
  | .fieldBusFrame bytes => Sys2Proof.Machine.execFieldBusFrame bytes s
  | .commitRequest at_ => Sys2Proof.Machine.execCommitRequest at_ s
  | .dryRun at_ system => Sys2Proof.Machine.execDryRun at_ system s
  | .systemCommit at_ dry => Sys2Proof.Machine.execSystemCommit at_ dry s
  | .commitProposal p barrier dry crc => Sys2Proof.Machine.execCommitProposal p barrier dry crc s
  | .commitChecksDone ecc => Sys2Proof.Machine.execCommitChecksDone ecc s
  | .commitLoaded => Sys2Proof.Machine.execCommitLoaded s
  | .commitLatch => Sys2Proof.Machine.execCommitLatch s
  | .snapshotAt at_ => Sys2Proof.Machine.execSnapshotAt at_ s
  | .snapshotCapture src => Sys2Proof.Machine.execSnapshotCapture src s
  | .snapshotComplete => Sys2Proof.Machine.execSnapshotComplete s
  | .softReset v => Sys2Proof.Machine.execSoftReset v s
  | .blockReset n => Sys2Proof.Machine.execBlockReset n s
  | .pmAlign seconds epoch force => Sys2Proof.Machine.execPmAlign seconds epoch force s
  | .pmAlignTimeout => Sys2Proof.Machine.execPmAlignTimeout s
  | .ppsEdge => Sys2Proof.Machine.execPpsEdge s
  | .ppsTimeout => Sys2Proof.Machine.execPpsTimeout s
  | .ref10mWindow count => Sys2Proof.Machine.execRef10mWindow count s
  | .ref10mAbsent => Sys2Proof.Machine.execRef10mAbsent s
  | .smprefCheck count => Sys2Proof.Machine.execSmprefCheck count s
  | .samplePllLock => Sys2Proof.Machine.execSamplePllLock s
  | .ptpMessage n m => Sys2Proof.Machine.execPtpMessage n m s
  | .announceTimeout n => Sys2Proof.Machine.execAnnounceTimeout n s
  | .delayReqSend n tx => Sys2Proof.Machine.execDelayReqSend n tx s
  | .tbkTick => Sys2Proof.Machine.execTbkTick s
  | .tbkOscMeasure err => Sys2Proof.Machine.execTbkOscMeasure err s
  | .postcardAccept => Sys2Proof.Machine.execPostcardAccept s
  | .quietPeriodEnd src => Sys2Proof.Machine.execQuietPeriodEnd src s
  | .recoveryWindowExpiry src => Sys2Proof.Machine.execRecoveryWindowExpiry src s
  | .faultRelease v => Sys2Proof.Machine.execFaultRelease v s
  | .pcAck a => Sys2Proof.Machine.execPcAck a s
  | .injectRequest r => Sys2Proof.Machine.execInjectRequest r s
  | .ramblerCompare k mismatch => Sys2Proof.Machine.execRamblerCompare k mismatch s
  | .standbyPowerGood k => Sys2Proof.Machine.execStandbyPowerGood k s
  | .standbyConfigured k => Sys2Proof.Machine.execStandbyConfigured k s
  | .promotionTakeover k => Sys2Proof.Machine.execPromotionTakeover k s
  | .cellSelftestDone k slot pass => Sys2Proof.Machine.execCellSelftestDone k slot pass s
  | .cellRejoin k => Sys2Proof.Machine.execCellRejoin k s
  | .rotationTimer => Sys2Proof.Machine.execRotationTimer s
  | .fallbackRespread k => Sys2Proof.Machine.execFallbackRespread k s
  | .fallbackRecheck => Sys2Proof.Machine.execFallbackRecheck s
  | .fallbackSchedule => Sys2Proof.Machine.execFallbackSchedule s
  | .sealNAsserted => Sys2Proof.Machine.execSealNAsserted s
  | .sealNDeasserted => Sys2Proof.Machine.execSealNDeasserted s
  | .fuseVerify ok => Sys2Proof.Machine.execFuseVerify ok s
  | .copyC1Done => Sys2Proof.Machine.execCopyC1Done s
  | .copyC2Done => Sys2Proof.Machine.execCopyC2Done s
  | .csWrite idx sub off bytes more => Sys2Proof.Machine.execCsWrite idx sub off bytes more s
  | .vkaRise closed => Sys2Proof.Machine.execVkaRise closed s
  | .vkaLoss => Sys2Proof.Machine.execVkaLoss s
  | .railGroupGood g => Sys2Proof.Machine.execRailGroupGood g s
  | .bootComplete => Sys2Proof.Machine.execBootComplete s
  | .railSample mv => Sys2Proof.Machine.execRailSample mv s
  | .tjSample t => Sys2Proof.Machine.execTjSample t s
  | .rstNAssert => Sys2Proof.Machine.execRstNAssert s
  | .rstNRelease => Sys2Proof.Machine.execRstNRelease s
  | .rampDownDone => Sys2Proof.Machine.execRampDownDone s
  | .startAt at_ => Sys2Proof.Machine.execStartAt at_ s
  | .startRamp => Sys2Proof.Machine.execStartRamp s
  | .startEffect => Sys2Proof.Machine.execStartEffect s
  | .extest => Sys2Proof.Machine.execExtest s
  | .extestPulse => Sys2Proof.Machine.execExtestPulse s
  | .extestTrain => Sys2Proof.Machine.execExtestTrain s
  | .clamp => Sys2Proof.Machine.execClamp s
  | .bypass => Sys2Proof.Machine.execBypass s
  | .idcode => Sys2Proof.Machine.execIdcode s

end Sys2Proof.Machine
end

