-- ==== Sys2Proof/Machine/Step.lean ====
section
/-! DEFINITION. One step: the command at the front of the queue, or a tick of the sample clock when none waits (assumption 2). -/

namespace Sys2Proof.Machine

/-- The queue of s replaced. -/
def State.setPending (s : State) (q : List Instr) : State := { s with pending := q }

/-- Run the front command on the state with the queue's rest; on an empty queue the sample clock ticks. -/
def step (s : State) : Host.Outcome State Fault Refusal :=
  match s.pending with
  | [] => .next (tick s)
  | c :: q => exec c (s.setPending q)

/-- s with the command that a word spells put at the front of its queue. -/
def State.withFetchWord (s : State) (nbits w : Nat) : State :=
  match Sys2Proof.decodeTableWord nbits w with
  | some c => s.setPending (c :: s.pending)
  | none => s

end Sys2Proof.Machine
end

