-- ==== Sys2Proof/Safety.lean ====
section
/-! DEFINITION. The terms claims are stated in: a command that completes with a next state of a kind, the parts of the state,
and what a command may change. -/

namespace Sys2Proof.Machine

open Sys2Proof

/-- The outcome is a next state: nothing stopped. -/
def goesOn (o : Host.Outcome State Fault Refusal) : Prop := ∃ t, o = .next t

/-- k steps from a state all go on. -/
def runsFor (k : Nat) (s : State) : Prop := goesOn (Sys2Proof.core.run k s)

/-- Command c completes on s, in a state of which P holds. -/
def completes (c : Instr) (s : State) (P : State → Prop) : Prop := ∃ t, exec c s = .next t ∧ P t

/-- The parts of the state, one per field of State. -/
inductive Part where
  | so | lanes | filt | relay | fab | acc | mm | out | cour | tally | ctrl | time | dict | encl | pwr | tap | fresh | outbox
  | pending
  deriving DecidableEq, Repr

/-- Two states agree on a part. -/
def Part.same : Part → State → State → Prop
  | .so, s, t => t.so = s.so
  | .lanes, s, t => t.lanes = s.lanes
  | .filt, s, t => t.filt = s.filt
  | .relay, s, t => t.relay = s.relay
  | .fab, s, t => t.fab = s.fab
  | .acc, s, t => t.acc = s.acc
  | .mm, s, t => t.mm = s.mm
  | .out, s, t => t.out = s.out
  | .cour, s, t => t.cour = s.cour
  | .tally, s, t => t.tally = s.tally
  | .ctrl, s, t => t.ctrl = s.ctrl
  | .time, s, t => t.time = s.time
  | .dict, s, t => t.dict = s.dict
  | .encl, s, t => t.encl = s.encl
  | .pwr, s, t => t.pwr = s.pwr
  | .tap, s, t => t.tap = s.tap
  | .fresh, s, t => t.fresh = s.fresh
  | .outbox, s, t => t.outbox = s.outbox
  | .pending, s, t => t.pending = s.pending

/-- The state changes at most in the parts listed. -/
structure Frame (ps : List Part) (s t : State) : Prop where
  same : ∀ p, p ∉ ps → p.same s t

/-- The parts that a command may change; the queue is none of them. -/
def touches : Instr → List Part
  | .applyCommittedSet _ _ | .commitLatch | .snapshotCapture _
    => [.so, .lanes, .filt, .relay, .fab, .acc, .mm, .out, .ctrl, .time, .dict, .fresh, .outbox]
  | .unitArrival _ _ _
    => [.so, .lanes, .dict]
  | .cdrLock _ | .laneAligned _ | .laneClearCounters _ _ | .prbsCheckWord _ _ | .codeError _ _ _
    => [.lanes]
  | .cdrLockLoss _ | .alignTimeout _ | .laneSyncLoss _ | .sleepWordsReceived _ | .slip _ _ | .txWake _ _
  | .rxSleep _ _ | .rxWake _ _ | .testExit _ _ | .laneStart _ _ | .laneStop _ _ | .inject _ _ | .loopback _ _
  | .spareTimeout _
    => [.so, .lanes]
  | .txSleep _ _
    => [.so, .lanes, .outbox]
  | .testEnter _ _
    => [.so, .lanes, .fresh]
  | .spareIn _ _ | .envelopeAssign _ | .retryTimeout _ _ | .backchannelTimeout _ | .outputSpareTimeout _
    => [.so, .lanes, .out, .fresh, .outbox]
  | .spareOut _ _
    => [.so, .lanes, .relay, .out, .outbox]
  | .statusWordSend _ | .creditWordSend _ _
    => [.lanes, .outbox]
  | .sampleLinkFrame _ _ | .engineSampleIn _
    => [.so, .lanes, .filt]
  | .laneFailTimeout _
    => [.so, .lanes, .relay, .out, .fresh, .outbox]
  | .delayOutput _ _ _
    => [.so, .filt, .fresh]
  | .delayFrameStart _ _
    => [.so, .filt]
  | .delayRecord _ _ | .syncResetApply _ | .gainTable _ _ _ _ _ _ | .bankImage _ _ _ _ | .swapRequest _
  | .swapCancel _
    => [.so, .filt, .dict]
  | .conditioningClear _
    => [.filt]
  | .syncResetAt _ | .bankLoadComplete _ _ | .bankReady _ _ | .coefRecoveryRestart _
    => [.filt, .dict]
  | .channeliserFrameStart _ _ _ _ _
    => [.so, .filt, .dict, .fresh]
  | .channelSampleOut _ _ _
    => [.so, .filt, .mm]
  | .bankLoadRom _ _
    => [.so, .filt, .dict, .encl]
  | .timeBlockBoundary _
    => [.so, .filt, .fab, .out]
  | .parcelSend _ _ | .serviceSlot _ | .helloTimer _ | .relayPortUp _ | .laneMoveRetry _ _
    => [.lanes, .relay, .outbox]
  | .parcelReceive _ _ _ | .postTaken _ | .read _ _ | .readSnap _ _ | .readActive _ _ | .write _ | .fanoutWrite _
  | .list _ | .fieldBusFrame _
    => [.so, .lanes, .filt, .relay, .fab, .acc, .mm, .out, .cour, .tally, .ctrl, .time, .dict, .encl, .pwr, .fresh, .outbox]
  | .parcelDeadline _ _
    => [.so, .filt, .relay, .acc, .mm]
  | .configMessageTimeout _ _ | .creditStall _ _ | .pong _ _ | .portDownTimeout _ | .laneMoveAck _ _
    => [.so, .relay]
  | .creditWord _ _ _ _ | .mapRestart
    => [.relay]
  | .hello _ _ | .ping _ _ | .mapFloodRound | .coord _ _ | .laneMove _ _
    => [.so, .lanes, .relay, .outbox]
  | .barrierUp _ _ | .barrierDown _ _ | .barrierTimeout
    => [.so, .lanes, .relay, .dict, .outbox]
  | .bcast _ _ | .globalSnapshot _ | .globalSyncReset _ | .globalCoefSwap _ | .globalStart _
    => [.so, .lanes, .filt, .relay, .dict, .pwr, .outbox]
  | .laneMoveSwitch _ _
    => [.so, .lanes, .relay]
  | .commitVoteDeadline | .snapshotAt _ | .pcAck _ | .injectRequest _
    => [.so, .dict]
  | .fabricWindowStart _ | .fallbackSchedule
    => [.fab, .acc]
  | .segmentEnd _ _ _
    => [.so, .fab, .acc, .fresh]
  | .stagingLoadDone _ _ _ _
    => [.so, .fab, .acc, .mm, .fresh]
  | .fabricWindowEnd | .beamDeadline _ _ | .withdrawnNotice
    => [.so, .fab, .acc, .mm, .out, .dict, .fresh]
  | .beamBatchStart _
    => [.so, .fab, .mm, .dict]
  | .beamBatchDone _ _ _
    => [.so, .fab, .acc, .mm, .out, .fresh]
  | .weightBufferWrite _ _
    => [.so, .fab, .mm]
  | .weightSwap _ _
    => [.so, .fab, .dict]
  | .weightSwapCancel
    => [.so, .fab, .dict, .fresh]
  | .weightPrep | .ramblerCompare _ _ | .promotionTakeover _ | .cellSelftestDone _ _ _ | .cellRejoin _
  | .fallbackRespread _ | .fallbackRecheck
    => [.so, .fab]
  | .fold _ _
    => [.so, .fab, .acc, .mm, .out, .ctrl, .dict, .fresh, .outbox]
  | .dumpSlotFreed _ | .compressEnvelope _ _ _ _
    => [.so, .acc, .mm, .out, .fresh]
  | .dramTrainStart _ | .refresh _ _ _ _
    => [.mm]
  | .dramTrainDone _ _ | .dramTrainTimeout _ | .dramTempRise _ _ | .dramTempFall _ _
    => [.so, .mm]
  | .dramRequestIssue _ _ _ _ _ _ _ _ | .deadLetterAccess _ _ _ _
    => [.so, .fab, .mm, .tally, .ctrl, .encl, .tap, .fresh, .outbox]
  | .scrubStep _ _
    => [.so, .mm, .fresh]
  | .segmentAvailable | .decodeRequest _ | .decodeDone
    => [.out]
  | .segmentStallTimeout _
    => [.so, .out]
  | .backchannelWord _ _ _ _
    => [.so, .lanes, .out]
  | .ringStart _ _ _ _ | .ringStop _ _ | .ringDisable _ _ | .setPrio _ _ _
    => [.so, .cour, .dict]
  | .letterbox _ _
    => [.so, .cour]
  | .slotGrant
    => [.cour]
  | .descriptorFetched _ _ | .linkReadDone _ _ | .descriptorComplete _ _ | .ringError _ _ _
    => [.so, .fab, .mm, .cour, .tally, .ctrl, .encl, .fresh, .outbox]
  | .tIll _ _ | .tNop _ _ | .tAdd _ _ _ _ _ | .tAddc _ _ _ _ _ | .tSub _ _ _ _ _ | .tSubb _ _ _ _ _
  | .tAnd _ _ _ _ _ | .tOr _ _ _ _ _ | .tXor _ _ _ _ _ | .tShl _ _ _ _ _ | .tShr _ _ _ _ _ | .tSar _ _ _ _ _
  | .tMin _ _ _ _ _ | .tMax _ _ _ _ _ | .tAbs _ _ _ _ | .tClz _ _ _ _ | .tMul _ _ _ _ _ | .tMulh _ _ _ _ _
  | .tMulhu _ _ _ _ _ | .tAddi _ _ _ _ _ | .tAndi _ _ _ _ _ | .tOri _ _ _ _ _ | .tXori _ _ _ _ _
  | .tShiShl _ _ _ _ _ | .tShiShr _ _ _ _ _ | .tShiSar _ _ _ _ _ | .tLui _ _ _ _ | .tCmpi _ _ _ _
  | .tLdw _ _ _ _ _ _ | .tLdh _ _ _ _ _ _ | .tLdhu _ _ _ _ _ _ | .tLdb _ _ _ _ _ _ | .tLdbu _ _ _ _ _ _
  | .tStw _ _ _ _ _ _ | .tSth _ _ _ _ _ _ | .tStb _ _ _ _ _ _ | .tMac _ _ _ _ _ _ _ _ _ | .tMacDual _ _ _ _ _ _ _ _
  | .tMacw _ _ _ _ _ _ _ _ | .tMacwDual _ _ _ _ _ _ _ | .tExt _ _ _ _ _ _ | .tMfa _ _ _ _ _ | .tMta _ _ _ _ _
  | .tB _ _ _ _ | .tBal _ _ _ | .tJr _ _ _ | .tJalr _ _ _ _ | .tReti _ _ | .tRpt _ _ _ _ | .tMfc _ _ _ _
  | .tMtc _ _ _ _ | .tWait _ _ | .tFence _ _ | .tPost _ _ _ _ | .tHalt _ _ | .stewardMismatch _ | .diagDone _ _
  | .mirrorRead _ _ _
    => [.so, .fab, .mm, .tally, .ctrl, .encl, .fresh, .outbox]
  | .interruptEntry _ _ | .waitWake _ _ | .msTick | .tallyDoorbell _ | .pmCrcDone _
    => [.tally]
  | .pmCompare _ | .ppsEdge
    => [.so, .lanes, .filt, .relay, .fab, .acc, .mm, .out, .tally, .ctrl, .time, .dict, .fresh, .outbox]
  | .tallyRun _ _ | .tallyResume _ | .tallyHalt _
    => [.so, .tally, .dict]
  | .tallyStep _ _
    => [.so, .fab, .mm, .tally, .ctrl, .dict, .encl, .fresh, .outbox]
  | .tallyReset _ | .tallyClearCounters _
    => [.tally, .dict]
  | .tallyProgram _ _ _
    => [.so, .mm, .tally]
  | .tallyClearDone _
    => [.mm, .tally]
  | .registerWrite _
    => [.so, .lanes, .filt, .relay, .fab, .acc, .mm, .out, .cour, .tally, .ctrl, .time, .dict, .encl, .pwr, .tap, .fresh, .outbox]
  | .masterReset _ _ | .survivorFault
    => [.so, .fab, .mm, .ctrl, .encl, .fresh, .outbox]
  | .remapSet
    => [.mm, .ctrl]
  | .restartDone | .stewardSyncPoint
    => [.ctrl]
  | .stewardQuietEnd _ | .blockReset _ | .postcardAccept | .quietPeriodEnd _ | .faultRelease _
    => [.so, .lanes, .filt, .relay, .fab, .acc, .mm, .out, .cour, .tally, .ctrl, .time, .dict, .encl, .fresh, .outbox]
  | .stewardTestDone _ _ | .resyncDone
    => [.so, .ctrl]
  | .segmentTimeout _ _
    => [.so, .filt, .tally, .dict]
  | .arpRequest _ _ _ _ | .icmpEcho _ _ _ _
    => [.dict, .outbox]
  | .commitRequest _ | .dryRun _ _ | .systemCommit _ _
    => [.so, .relay, .dict, .fresh]
  | .commitProposal _ _ _ _ | .commitChecksDone _
    => [.so, .lanes, .relay, .dict, .fresh, .outbox]
  | .commitLoaded | .snapshotComplete
    => [.dict]
  | .softReset _ | .rampDownDone
    => [.so, .lanes, .filt, .relay, .fab, .acc, .mm, .out, .cour, .tally, .ctrl, .time, .dict, .pwr, .fresh, .outbox]
  | .pmAlign _ _ _ | .samplePllLock | .tbkTick
    => [.time]
  | .pmAlignTimeout | .ppsTimeout | .ref10mWindow _ | .ref10mAbsent | .smprefCheck _ | .announceTimeout _
  | .tbkOscMeasure _
    => [.so, .time]
  | .ptpMessage _ _
    => [.so, .time, .fresh, .outbox]
  | .delayReqSend _ _
    => [.time, .outbox]
  | .recoveryWindowExpiry _
    => [.so]
  | .standbyPowerGood _ | .standbyConfigured _ | .rotationTimer
    => [.fab]
  | .sealNAsserted | .sealNDeasserted | .fuseVerify _ | .copyC2Done
    => [.so, .dict, .encl]
  | .copyC1Done
    => [.so, .encl]
  | .csWrite _ _ _ _ _
    => [.so, .filt, .tally, .dict, .encl]
  | .vkaRise _
    => [.so, .time, .dict, .encl, .pwr]
  | .vkaLoss | .rstNAssert
    => [.so, .lanes, .filt, .relay, .fab, .acc, .mm, .out, .cour, .tally, .ctrl, .time, .dict, .pwr]
  | .railGroupGood _
    => [.so, .lanes, .time, .pwr]
  | .bootComplete
    => [.time, .dict, .pwr]
  | .railSample _
    => [.so, .lanes, .filt, .relay, .fab, .acc, .mm, .out, .cour, .tally, .ctrl, .time, .dict, .pwr, .tap]
  | .tjSample _
    => [.so, .pwr]
  | .rstNRelease
    => [.so, .lanes, .time, .pwr, .tap]
  | .startAt _
    => [.dict, .pwr]
  | .startRamp
    => [.pwr]
  | .startEffect
    => [.fab, .acc, .pwr]
  | .extest | .extestPulse | .extestTrain | .clamp
    => [.tap, .fresh, .outbox]
  | .bypass
    => [.tap]
  | .idcode
    => [.tap, .outbox]

/-- The Sorting Office takes these Postcards (source, kind, address) in this order, and nothing else changes in it. -/
def raisedOnly (cs : List (Nat × Nat × Nat)) (s t : State) : Prop :=
  t.so = (cs.foldl (fun v c => raise c.1 c.2.1 c.2.2 v) s).so

/-- The bytes bs stand at bus addresses a on, and every other byte reads as before. Where two of the addresses name one byte
(09 R260) the later one holds. -/
def stored (a : Nat) (bs : List Byte) (s t : State) : Prop :=
  (∀ y, (∀ k, k < bs.length → canon (a + k) ≠ canon y) → t.byteAt y = s.byteAt y) ∧
  (∀ k, k < bs.length → (∀ j, k < j → j < bs.length → canon (a + j) ≠ canon (a + k)) → t.byteAt (a + k) = bs.getD k 0)

/-! ### Lanes (03) -/

/-- The lane system is as before but for lane l. -/
def lanesBut (l : Nat) (s t : State) : Prop :=
  (∀ m, m ≠ l → t.lane m = s.lane m) ∧ t.lanes.logical = s.lanes.logical ∧ t.lanes.ingest = s.lanes.ingest

/-- The lane system is as before but for logical lane lg. -/
def logicalBut (lg : Nat) (s t : State) : Prop :=
  t.lanes.lane = s.lanes.lane ∧ t.lanes.ingest = s.lanes.ingest ∧ ∀ k, k ≠ lg → t.logical k = s.logical k

/-- A spare is returning logical lane l to its home lane, l (03 R80). -/
def returning (l : Nat) (s : State) : Prop := l < 96 ∧ (s.lane (coverSpare l)).spare = .leaving l

/-- 03 R80: a home lane that leaves SYNC ends a return to it: the spare keeps serving, with SPARE_REFUSED. -/
def othersReturn (l : Nat) (s t : State) : Prop :=
  ∀ m, m ≠ l → ∀ v, v = s.lane m →
    (returning l s ∧ m = coverSpare l → t.lane m = { v with spare := .serving l }) ∧
    (¬ (returning l s ∧ m = coverSpare l) → t.lane m = v)
/-- Lane l leaves its state, nothing else in the lane system changes but such a return. -/
def homeLeaves (l : Nat) (s t : State) : Prop :=
  othersReturn l s t ∧ t.lanes.logical = s.lanes.logical ∧ t.lanes.ingest = s.lanes.ingest
/-- The Postcard of such a return. -/
def returnCards (l : Nat) (s : State) : List (Nat × Nat × Nat) :=
  if l < 96 ∧ (s.lane (coverSpare l)).spare = .leaving l then [(coverSpare l, 0x0E, 0)] else []

/-! ### The filter chain (04, 05) -/

/-- The filter chain is as before but for the conditioning and the gain stage of input i. -/
def filtButInput (i : Nat) (s t : State) : Prop :=
  (∀ k, k ≠ i → t.cond k = s.cond k ∧ t.gain k = s.gain k) ∧ t.filt.eng = s.filt.eng ∧ t.filt.words = s.filt.words ∧
    t.filt.lastBlock = s.filt.lastBlock

/-- The filter chain is as before but for the channeliser of engine e, and the blocks but for its PLAIN bit. -/
def filtButEngine (e : Nat) (s t : State) : Prop :=
  (∀ k, k ≠ e → t.eng k = s.eng k) ∧ t.filt.cond = s.filt.cond ∧ t.filt.gain = s.filt.gain ∧ t.filt.words = s.filt.words ∧
    t.filt.lastBlock = s.filt.lastBlock ∧ (∀ n, n ≠ engSrc e → t.blk n = s.blk n) ∧
    t.blk (engSrc e) = { s.blk (engSrc e) with plain := (t.blk (engSrc e)).plain } ∧
    t.dict = { s.dict with blks := t.dict.blks }

/-! ### Relay (06) -/

/-- The Relay system is as before but for port p. -/
def relayButPort (p : Nat) (s t : State) : Prop :=
  (∀ q, q ≠ p → t.port q = s.port q) ∧ t.relay = { s.relay with port := t.relay.port }

/-- The Relay system is as before but for port p and the credits. -/
def relayPortAndCredits (p : Nat) (s t : State) : Prop :=
  (∀ q, q ≠ p → t.port q = s.port q) ∧ t.relay = { s.relay with port := t.relay.port, cred := t.relay.cred }

/-- A control packet of the row's type that port p hears and accepts (06 R175): CRC, CTYPE, and CSEQ 1 to 127 after the last. -/
def goodCtl (code p : Nat) (c : Ctl) (s : State) : Prop :=
  s.ctlHeard p = true ∧ crc32 (ctlCovered c) = c.crc.toNat ∧ c.ctype.toNat = code ∧
    1 ≤ (c.cseq.toNat + 256 - (s.port p).rxSeq) % 256 ∧ (c.cseq.toNat + 256 - (s.port p).rxSeq) % 256 ≤ 127

/-- The port with the sequence number of an accepted packet. -/
def State.heard (s : State) (p : Nat) (c : Ctl) : Port := { s.port p with rxSeq := c.cseq.toNat }

/-- A control packet leaves port p at once: nothing waits there, a lane carries it, and the rate allows it (06 R175). -/
def State.ctlNow (s : State) (p : Nat) : Bool := (s.port p).ctlq.isEmpty && s.ctlRoom p
/-- Control packet c as it leaves port p in state s with the next CSEQ, on the lines that are open (06 R174): a PING with the Postmark
of its sending, a PONG with its hold (Table 06.6). -/
def ctlSentAs (p : Nat) (c : CtlItem) (s : State) : Sent :=
  let d := c.leaving s.pm s.now
  let n := ((s.port p).txSeq + 1) % 256
  .ctl p ((s.ctlLanes p).filter fun k => s.lineOpen (portLane p k)) d.ctype n d.origin d.arg0 d.arg1
    (crc32 (ctlBytes d.ctype n d.origin d.arg0 d.arg1))
/-- The lanes of state v after the words of a control packet that leaves port p in state s. -/
def ctlWords (p : Nat) (c : CtlItem) (s v : State) : State :=
  if s.ctlNow p then
    (s.ctlLanes p).foldl (fun v k => moveWords (portLane p k) (ctlSyms (c.leaving s.pm s.now) (((s.port p).txSeq + 1) % 256)) v) v
  else v

/-- Port p with a control packet to send leaves it at once or queues it (06 R175). -/
def ctlPort (p : Nat) (c : CtlItem) (s : State) : Port :=
  let v := s.port p
  if s.ctlNow p then
    { v with txSeq := (v.txSeq + 1) % 256, ctlTimes := s.now :: v.ctlTimes.filter fun t => decide (s.now < t + us 10)
             pingAt := if c.ctype = 2 then s.pm else v.pingAt }
  else { v with ctlq := ctlEnqueue c v.ctlq }

/-- From s, with port p become v, control packet c leaves port p or waits there. -/
def ctlGoes (p : Nat) (v : Port) (c : CtlItem) (s t : State) : Prop :=
  let u := s.setPort p v
  t.port p = ctlPort p c u ∧ t.lanes = (ctlWords p c u u).lanes ∧
    t.outbox = if u.ctlNow p then ctlSentAs p c u :: s.outbox else s.outbox

/-- From s the same control packet leaves, or waits at, each of the ports qs, and no other port changes. -/
def ctlFans (qs : List Nat) (c : CtlItem) (s t : State) : Prop :=
  (∀ q, t.port q = if q ∈ qs then ctlPort q c s else s.port q) ∧
    t.lanes = (qs.foldl (fun v q => ctlWords q c s v) s).lanes ∧
    t.outbox = (qs.reverse.filter fun q => s.ctlNow q).map (fun q => ctlSentAs q c s) ++ s.outbox

/-! ### Tally cores (12) -/

/-- The core after the cycles of one instruction (12 R348): one in E and the stalls. -/
def Core.spent (v : Core) (e : TEnv) : Core :=
  { v with cycles := v.cycles + e.idle + 1 + e.stall, cyclesRun := satAdd 64 (satAdd 64 v.cyclesRun 1) e.stall,
           cyclesStalled := satAdd 64 v.cyclesStalled e.stall }

/-- Core c executes o: it runs, its program memory reports nothing, and no rule forbids o where it stands (12 R348 to R350). -/
def State.executes (s : State) (c : Nat) (e : TEnv) (o : TOp) : Prop :=
  (s.core c).executes = true ∧ e.fetch = .ok ∧ injFor (coreSrc c) 2 s = none ∧ placeFault (some o) (s.core c) = none

/-- The core at the boundary after an instruction that does not jump. -/
def Core.onward (v : Core) : Core := haltBoundary (tallyAdvance v)

/-- Core c alone changes, and becomes v. -/
def coreIs (c : Nat) (v : Core) (s t : State) : Prop := t.core c = v ∧ ∀ d, d ≠ c → t.core d = s.core d

/-- Core c enters FAULT with a code at the pc (12 R361): the instruction has no effect, and the Postcard has an address. -/
def coreFaults (c : Nat) (e : TEnv) (code addr : Nat) (s t : State) : Prop :=
  Frame [.so, .tally] s t ∧ raisedOnly [(coreSrc c, code, addr)] s t ∧
    coreIs c { (s.core c).spent e with st := .fault, faultCode := code, faultPc := (s.core c).pc, inRpt := (s.core c).rpt.isSome,
                                       slot := none, rpt := none, haltReq := false } s t

end Sys2Proof.Machine
end

