-- ==== Sys2Proof/WellFormed.lean ====
section
/-! DEFINITION. Which commands are well formed: the checks on operands that their types do not make. A command that fails a
check spells nothing that the row's rule names. -/

namespace Sys2Proof

/-- 06 Table 06.2: every field inside its width, and a payload of whole 8-byte words (R164). -/
def Parcel.wf (c : Parcel) : Bool :=
  decide (c.type < 256) && decide (c.hop < 256) && decide (c.flags < 256) && decide (c.stamp < 2 ^ 64) && decide (c.src < 256)
    && decide (c.dst < 256) && decide (c.pseq < 65536) && decide (c.inFirst < 65536) && decide (c.inCount < 65536)
    && decide (c.chFirst < 65536) && decide (c.chCount < 65536) && (c.payload.length % 8 == 0)

/-- 06 R163: a frame stamp, ranks, an index and a hop inside their fields. -/
def SlotName.wf (n : SlotName) : Bool :=
  decide (n.x < 2 ^ 64) && decide (n.src < 256) && decide (n.dst < 256) && decide (n.pseq < 65536) && decide (n.hop < 256)

/-- 13 R373: a write carries the bytes of its beats, with a strobe for each byte or none for a write of every byte; a read carries
none. -/
def BusReq.wf (q : BusReq) : Bool :=
  if q.write then q.data.length == 2 ^ q.size.toNat * (q.beats.toNat + 1) && (q.strb.isEmpty || q.strb.length == q.data.length)
  else q.data.isEmpty && q.strb.isEmpty

/-- A bus write; a dictionary value has at least one byte. -/
def RegWrite.wf : RegWrite → Bool
  | .bus _ q => q.write && q.wf
  | .object _ _ data => !data.isEmpty

/-- The requests that the comparator meets. -/
def StewReq.wf : StewReq → Bool
  | .both a b _ => a.wf && b.wf
  | .error _ (some q) => q.wf
  | .error _ none => true
  | .corrected _ => true

/-- The paths of 14 R405 that carry Ethernet. -/
def Path.ethernet : Path → Bool
  | .mgmt => true
  | .field => true
  | .bus => false
  | .tally => false

/-- 14 R399: a request comes over a wire; the posts of the Tally cores are their own commands. -/
def Req.wf (r : Req) : Bool := match r.path with
  | .tally => false
  | _ => true

/-- 15 R436: the version octet and the domain are one byte each, sequence numbers two. -/
def PtpMsg.wf : PtpMsg → Bool
  | .announce v d _ _ _ => decide (v < 256) && decide (d < 256)
  | .sync v d _ n _ _ _ _ => decide (v < 256) && decide (d < 256) && decide (n < 65536)
  | .followUp v d _ n _ _ => decide (v < 256) && decide (d < 256) && decide (n < 65536)
  | .delayResp v d _ n _ _ l => decide (v < 256) && decide (d < 256) && decide (n < 65536) && decide (-128 ≤ l ∧ l ≤ 127)
  | .pdelayReq v d _ n _ => decide (v < 256) && decide (d < 256) && decide (n < 65536)
  | .pdelayResp v d _ n _ _ l _ => decide (v < 256) && decide (d < 256) && decide (n < 65536) && decide (-128 ≤ l ∧ l ≤ 127)
  | .pdelayRespFollowUp v d _ n _ _ => decide (v < 256) && decide (d < 256) && decide (n < 65536)

/-- The checks, one arm per constructor that has any; the others' operands are whole by their types. -/
def Instr.wf : Instr → Bool
  | .unitArrival _ _ len => decide (0 < len)
  | .sampleLinkFrame _ f => f.payload.length % 4 == 0 || f.abort || f.earlyStart || !f.endOk
  | .channelSampleOut _ n _ => decide (n < 4096)
  | .gainTable _ _ _ count _ words => words.length == count.toNat
  | .parcelSend _ n => n.wf
  | .parcelReceive _ _ c => c.wf
  | .parcelDeadline _ n => n.wf
  | .configMessageTimeout src stamp => decide (src < 256) && decide (stamp < 2 ^ 64)
  | .segmentEnd _ _ ecc => ecc.all fun r => decide (r.2.1 < 8192)
  | .beamDeadline _ late => late.all fun q => decide (q.1 < 96) && decide (q.2.1 < 16)
  | .dramRequestIssue _ _ _ x len wr _ _ => decide (0 < len) && decide (x.val + len ≤ 51539607552) && (match wr with | some d => d.length == len | none => true)
  | .compressEnvelope _ _ _ reads => reads.all fun r => decide (r.1 < 4)
  | .registerWrite w => w.wf
  | .deadLetterAccess _ _ _ n => decide (1 ≤ n) && decide (n ≤ 256)
  | .stewardMismatch r => r.wf
  | .read r _ => r.wf
  | .readSnap r _ => r.wf
  | .readActive r _ => r.wf
  | .write r => r.wf
  | .fanoutWrite r => r.wf
  | .list r => r.wf
  | .arpRequest p _ _ _ => p.ethernet
  | .icmpEcho p _ _ _ => p.ethernet
  | .ptpMessage _ m => m.msg.wf
  | .railSample mv => mv.length == 9
  | .tjSample t => t.length == 8
  | .applyCommittedSet _ _ | .cdrLock _ | .cdrLockLoss _ | .laneAligned _ | .alignTimeout _ | .laneSyncLoss _
  | .sleepWordsReceived _ | .slip _ _ | .txSleep _ _ | .txWake _ _ | .rxSleep _ _ | .rxWake _ _ | .testEnter _ _
  | .testExit _ _ | .laneStart _ _ | .laneStop _ _ | .inject _ _ | .loopback _ _ | .laneClearCounters _ _
  | .spareIn _ _ | .spareOut _ _ | .prbsCheckWord _ _ | .statusWordSend _ | .laneFailTimeout _ | .spareTimeout _
  | .codeError _ _ _ | .engineSampleIn _ | .delayOutput _ _ _ | .delayFrameStart _ _ | .delayRecord _ _
  | .conditioningClear _ | .syncResetAt _ | .syncResetApply _ | .channeliserFrameStart _ _ _ _ _ | .bankImage _ _ _ _
  | .bankLoadRom _ _ | .bankLoadComplete _ _ | .bankReady _ _ | .swapRequest _ | .swapCancel _
  | .coefRecoveryRestart _ | .timeBlockBoundary _ | .serviceSlot _ | .creditWordSend _ _ | .creditWord _ _ _ _
  | .creditStall _ _ | .hello _ _ | .ping _ _ | .pong _ _ | .helloTimer _ | .relayPortUp _ | .portDownTimeout _
  | .mapFloodRound | .mapRestart | .coord _ _ | .barrierUp _ _ | .barrierDown _ _ | .barrierTimeout | .bcast _ _
  | .globalSnapshot _ | .globalSyncReset _ | .globalCoefSwap _ | .globalStart _ | .laneMove _ _ | .laneMoveAck _ _
  | .laneMoveRetry _ _ | .laneMoveSwitch _ _ | .commitVoteDeadline | .fabricWindowStart _ | .stagingLoadDone _ _ _ _
  | .fabricWindowEnd | .beamBatchStart _ | .beamBatchDone _ _ _ | .weightBufferWrite _ _ | .weightSwap _ _
  | .weightSwapCancel | .weightPrep | .fold _ _ | .withdrawnNotice | .dumpSlotFreed _ | .dramTrainStart _
  | .dramTrainDone _ _ | .dramTrainTimeout _ | .refresh _ _ _ _ | .dramTempRise _ _ | .dramTempFall _ _
  | .scrubStep _ _ | .segmentAvailable | .segmentStallTimeout _ | .envelopeAssign _ | .backchannelWord _ _ _ _
  | .retryTimeout _ _ | .backchannelTimeout _ | .outputSpareTimeout _ | .decodeRequest _ | .decodeDone
  | .ringStart _ _ _ _ | .ringStop _ _ | .ringDisable _ _ | .setPrio _ _ _ | .letterbox _ _ | .slotGrant
  | .descriptorFetched _ _ | .linkReadDone _ _ | .descriptorComplete _ _ | .ringError _ _ _ | .tIll _ _ | .tNop _ _
  | .tAdd _ _ _ _ _ | .tAddc _ _ _ _ _ | .tSub _ _ _ _ _ | .tSubb _ _ _ _ _ | .tAnd _ _ _ _ _ | .tOr _ _ _ _ _
  | .tXor _ _ _ _ _ | .tShl _ _ _ _ _ | .tShr _ _ _ _ _ | .tSar _ _ _ _ _ | .tMin _ _ _ _ _ | .tMax _ _ _ _ _
  | .tAbs _ _ _ _ | .tClz _ _ _ _ | .tMul _ _ _ _ _ | .tMulh _ _ _ _ _ | .tMulhu _ _ _ _ _ | .tAddi _ _ _ _ _
  | .tAndi _ _ _ _ _ | .tOri _ _ _ _ _ | .tXori _ _ _ _ _ | .tShiShl _ _ _ _ _ | .tShiShr _ _ _ _ _
  | .tShiSar _ _ _ _ _ | .tLui _ _ _ _ | .tCmpi _ _ _ _ | .tLdw _ _ _ _ _ _ | .tLdh _ _ _ _ _ _ | .tLdhu _ _ _ _ _ _
  | .tLdb _ _ _ _ _ _ | .tLdbu _ _ _ _ _ _ | .tStw _ _ _ _ _ _ | .tSth _ _ _ _ _ _ | .tStb _ _ _ _ _ _
  | .tMac _ _ _ _ _ _ _ _ _ | .tMacDual _ _ _ _ _ _ _ _ | .tMacw _ _ _ _ _ _ _ _ | .tMacwDual _ _ _ _ _ _ _
  | .tExt _ _ _ _ _ _ | .tMfa _ _ _ _ _ | .tMta _ _ _ _ _ | .tB _ _ _ _ | .tBal _ _ _ | .tJr _ _ _ | .tJalr _ _ _ _
  | .tReti _ _ | .tRpt _ _ _ _ | .tMfc _ _ _ _ | .tMtc _ _ _ _ | .tWait _ _ | .tFence _ _ | .tPost _ _ _ _
  | .tHalt _ _ | .interruptEntry _ _ | .waitWake _ _ | .pmCompare _ | .msTick | .tallyDoorbell _ | .postTaken _
  | .tallyRun _ _ | .tallyResume _ | .tallyHalt _ | .tallyStep _ _ | .tallyReset _ | .tallyClearCounters _
  | .pmCrcDone _ | .tallyProgram _ _ _ | .tallyClearDone _ | .masterReset _ _ | .remapSet | .diagDone _ _
  | .restartDone | .stewardQuietEnd _ | .stewardTestDone _ _ | .stewardSyncPoint | .resyncDone | .survivorFault
  | .mirrorRead _ _ _ | .segmentTimeout _ _ | .fieldBusFrame _ | .commitRequest _ | .dryRun _ _ | .systemCommit _ _
  | .commitProposal _ _ _ _ | .commitChecksDone _ | .commitLoaded | .commitLatch | .snapshotAt _ | .snapshotCapture _
  | .snapshotComplete | .softReset _ | .blockReset _ | .pmAlign _ _ _ | .pmAlignTimeout | .ppsEdge | .ppsTimeout
  | .ref10mWindow _ | .ref10mAbsent | .smprefCheck _ | .samplePllLock | .announceTimeout _ | .delayReqSend _ _
  | .tbkTick | .tbkOscMeasure _ | .postcardAccept | .quietPeriodEnd _ | .recoveryWindowExpiry _ | .faultRelease _
  | .pcAck _ | .injectRequest _ | .ramblerCompare _ _ | .standbyPowerGood _ | .standbyConfigured _
  | .promotionTakeover _ | .cellSelftestDone _ _ _ | .cellRejoin _ | .rotationTimer | .fallbackRespread _
  | .fallbackRecheck | .fallbackSchedule | .sealNAsserted | .sealNDeasserted | .fuseVerify _ | .copyC1Done
  | .copyC2Done | .csWrite _ _ _ _ _ | .vkaRise _ | .vkaLoss | .railGroupGood _ | .bootComplete | .rstNAssert
  | .rstNRelease | .rampDownDone | .startAt _ | .startRamp | .startEffect | .extest | .extestPulse | .extestTrain
  | .clamp | .bypass | .idcode => true

end Sys2Proof
end

