-- ==== Sys2Proof/Certificates/Slice0/Obligations.lean ====
section
/-! DEFINITION. The statements for the provers. `completes c s P` says that command c answers a next state on s, of which P
holds; `Frame`, `lanesBut` and the like (Safety) say what stays. Where a statement rests on a choice of the model, its docstring
names the log entry. -/

open Sys2Proof Sys2Proof.Machine

/-! ### Serial lanes (03) -/

/-- 03 R65, Table 03.4: what each hardware event does to the lane it meets, in the states the table lists and, changing
nothing, in the others. A lane that leaves SYNC while a spare is returning its logical lane to it ends that return (R80). -/
def Obligations.LaneEventsFollowTheReceiveTable : Prop := ∀ (l : Fin 222) (s : State),
  completes (.cdrLock l) s (fun t => Frame [.lanes] s t ∧ lanesBut l s t ∧ t.lane l =
    if (s.lane l).rx = .acquire then { s.lane l with rx := .align, alignAt := s.now, alignRaised := false, heard := true }
    else s.lane l) ∧
  completes (.laneAligned l) s (fun t => Frame [.lanes] s t ∧ lanesBut l s t ∧ t.lane l =
    if (s.lane l).rx = .align then
      { s.lane l with rx := if (s.lane l).resume then .running else .sync, aligned := true, farSleep := false,
                      searchNeeded := false, leftAt := if (s.lane l).resume then none else (s.lane l).leftAt }
    else s.lane l) ∧
  (((s.lane l).rx = .align ∧ (s.lane l).alignRaised = false ∧ (s.lane l).alignAt + us 100 ≤ s.now) →
    completes (.alignTimeout l) s (fun t => Frame [.lanes, .so] s t ∧ lanesBut l s t ∧ raisedOnly [(l, 0x02, 0)] s t ∧
      t.lane l = { s.lane l with searchNeeded := true, alignRaised := true })) ∧
  (¬ ((s.lane l).rx = .align ∧ (s.lane l).alignRaised = false ∧ (s.lane l).alignAt + us 100 ≤ s.now) →
    exec (.alignTimeout l) s = .next s) ∧
  ((s.lane l).rx.listening = true →
    completes (.cdrLockLoss l) s (fun t => Frame [.lanes, .so] s t ∧ homeLeaves l s t ∧
      raisedOnly ((l.val, 0x01, 0) :: returnCards l s) s t ∧
      t.lane l = { (s.lane l).leave s.now with
                   rx := .acquire, aligned := false, syncLosses := satAdd 32 (s.lane l).syncLosses 1 }) ∧
    completes (.sleepWordsReceived l) s (fun t => Frame [.lanes, .so] s t ∧ homeLeaves l s t ∧
      raisedOnly (returnCards l s) s t ∧
      t.lane l = { (s.lane l).leave s.now with rx := .acquire, aligned := false, farSleep := true })) ∧
  ((s.lane l).rx.listening = false →
    exec (.cdrLockLoss l) s = .next s ∧ exec (.sleepWordsReceived l) s = .next s) ∧
  ((s.lane l).rx = .sync ∨ (s.lane l).rx = .running →
    completes (.laneSyncLoss l) s (fun t => Frame [.lanes, .so] s t ∧ homeLeaves l s t ∧
      raisedOnly ((l.val, 0x01, 0) :: returnCards l s) s t ∧
      t.lane l = { (s.lane l).leave s.now with
                   rx := .align, aligned := false, syncLosses := satAdd 32 (s.lane l).syncLosses 1,
                   alignAt := s.now, alignRaised := false })) ∧
  (¬ ((s.lane l).rx = .sync ∨ (s.lane l).rx = .running) → exec (.laneSyncLoss l) s = .next s)

/-- 03 R60, R65, R68, R70, R72, R73: what each lane_command does in the states that list it. ARG 0x00 on the receive side keeps
the pattern (assumption 10), and TEST_ENTER and RX_SLEEP clear ALIGNED (assumption 9). The transmit side goes on into TEST with the
running disparity of the words sent before; the receive side's is free where words were received, and the generator starts from free
bits (assumption 171). STOP leaves RUNNING like any other event (assumption 41). TEST_EXIT leaves a loopback set, and the words of a
lane whose loopback is set do not reach the line (assumption 172). -/
def Obligations.LaneCommandsActInTheirStates : Prop := ∀ (l : Fin 222) (a : LaneArgs) (s : State),
  (a.arg.toNat ≤ 39 ∧ (s.lane l).rx = .align → completes (.slip l a) s (fun t => Frame [.lanes] s t ∧ lanesBut l s t ∧
    t.lane l = { s.lane l with slip := a.arg.toNat, aligned := false })) ∧
  (a.arg.toNat ≤ 39 ∧ (s.lane l).rx = .sync → completes (.slip l a) s (fun t => Frame [.lanes, .so] s t ∧ homeLeaves l s t ∧
    raisedOnly (returnCards l s) s t ∧ t.lane l = { s.lane l with
      slip := a.arg.toNat, aligned := false, rx := .align, alignAt := s.now, alignRaised := false })) ∧
  ((s.lane l).tx = .active ∧ (s.lane l).rx ≠ .running →
    completes (.txSleep l a) s (fun t => Frame [.lanes, .outbox] s t ∧ lanesBut l s t ∧
      t.lane l = { s.lane l with tx := .sleep, driver := false, txSent := (s.lane l).txSent + 16,
                                 txRd := rdAfter (s.lane l).txRd (List.replicate 16 sleepSyms).flatten } ∧
      t.outbox = if s.lineOpen l then .sleepWords l 16 :: s.outbox else s.outbox)) ∧
  ((s.lane l).tx = .sleep → completes (.txWake l a) s (fun t => Frame [.lanes] s t ∧ lanesBut l s t ∧
    t.lane l = { s.lane l with tx := .active, driver := true, txRd := false, txAt := s.now, txSent := 0, phase := 0 })) ∧
  ((s.lane l).rx = .acquire ∨ (s.lane l).rx = .align ∨ (s.lane l).rx = .sync ∨ (s.lane l).rx = .test →
    completes (.rxSleep l a) s (fun t => Frame [.lanes, .so] s t ∧
      (if (s.lane l).rx = .sync then homeLeaves l s t ∧ raisedOnly (returnCards l s) s t else lanesBut l s t ∧ t.so = s.so) ∧
      t.lane l = { s.lane l with rx := .sleep, aligned := false, chkLock := false })) ∧
  ((s.lane l).rx = .sleep → completes (.rxWake l a) s (fun t => Frame [.lanes] s t ∧ lanesBut l s t ∧
    t.lane l = { s.lane l with rx := .acquire, rxRd := false, heard := false })) ∧
  (a.side = false ∧ a.arg.toNat ≤ 5 ∧ ((s.lane l).rx = .acquire ∨ (s.lane l).rx = .align ∨ (s.lane l).rx = .sync) →
    completes (.testEnter l a) s (fun t => Frame [.lanes, .so, .fresh] s t ∧ t.fresh = s.fresh + 1 ∧
      (if (s.lane l).rx = .sync then homeLeaves l s t ∧ raisedOnly (returnCards l s) s t else lanesBut l s t ∧ t.so = s.so) ∧
      t.lane l = { s.lane l with
        rx := .test, aligned := false, chkLock := false,
        rxRd := if (s.lane l).heard then Config.runningDisparity s.fresh else (s.lane l).rxRd,
        chk := { pattern := if a.arg.toNat = 0 then (s.lane l).chk.pattern else a.arg.toNat, coded := a.coded } })) ∧
  (a.side = true ∧ 1 ≤ a.arg.toNat ∧ a.arg.toNat ≤ 5 ∧ (s.lane l).tx = .active →
    completes (.testEnter l a) s (fun t => Frame [.lanes, .fresh] s t ∧ t.fresh = s.fresh + 1 ∧ lanesBut l s t ∧
      t.lane l = { (s.lane l).settle (s.gen l) s.lanes.since s.now with
        tx := .test, genPattern := a.arg.toNat, genCoded := a.coded, gen := prbsSeed a.arg.toNat s.fresh })) ∧
  (a.side = false ∧ (s.lane l).rx = .test → completes (.testExit l a) s (fun t => Frame [.lanes] s t ∧ lanesBut l s t ∧
    t.lane l = { s.lane l with rx := .acquire, chkLock := false })) ∧
  (a.side = true ∧ (s.lane l).tx = .test → completes (.testExit l a) s (fun t => Frame [.lanes] s t ∧ lanesBut l s t ∧
    t.lane l = { s.lane l with tx := .active, txAt := s.now, txSent := 0 })) ∧
  ((s.lane l).rx = .sync → completes (.laneStart l a) s (fun t => Frame [.lanes, .so] s t ∧
    raisedOnly (returnCards l s) s t ∧ othersReturn l s t ∧ t.lane l = { s.lane l with
      rx := .running, resume := true, startPm := s.pm, leftAt := none, failed := false, crcTimes := [] } ∧
    (∀ k, t.logical k = if l.val < 100 ∧ s.servedBy l = some k then { s.logical k with expected := none, muted := false }
      else s.logical k) ∧
    t.lanes.ingest = s.lanes.ingest)) ∧
  ((s.lane l).rx = .running → completes (.laneStop l a) s (fun t => Frame [.lanes] s t ∧ lanesBut l s t ∧
    t.lane l = { s.lane l with
      rx := .sync, resume := false, leftAt := some s.now, downAt := s.now, failed := false })) ∧
  (a.arg.toNat ≤ 39 ∧ (s.lane l).tx = .test → completes (.inject l a) s (fun t => Frame [.lanes] s t ∧ lanesBut l s t ∧
    t.lane l = { s.lane l with inj := some (a.arg.toNat, a.n.toNat), injCount := 0 })) ∧
  (a.arg.toNat ≤ 2 ∧ (s.lane l).tx = .test ∧ (s.lane l).rx = .test →
    completes (.loopback l a) s (fun t => Frame [.lanes] s t ∧ lanesBut l s t ∧
      t.lane l = { s.lane l with loopback := a.arg.toNat }))

/-- 03 R65, R546: a lane_command met in a state that does not list it, or with ARG outside its range, raises
COMMAND_REFUSED and changes nothing else; SPARE_IN on a Relay lane raises SPARE_REFUSED. -/
def Obligations.LaneCommandsAreRefusedElsewhere : Prop := ∀ (l : Fin 222) (a : LaneArgs) (s : State),
  (39 < a.arg.toNat ∨ ¬ ((s.lane l).rx = .align ∨ (s.lane l).rx = .sync) → exec (.slip l a) s = .next (raise l 0x03 0 s)) ∧
  (¬ ((s.lane l).tx = .active ∧ (s.lane l).rx ≠ .running) → exec (.txSleep l a) s = .next (raise l 0x03 0 s)) ∧
  ((s.lane l).tx ≠ .sleep → exec (.txWake l a) s = .next (raise l 0x03 0 s)) ∧
  ((s.lane l).rx = .running ∨ (s.lane l).rx = .sleep → exec (.rxSleep l a) s = .next (raise l 0x03 0 s)) ∧
  ((s.lane l).rx ≠ .sleep → exec (.rxWake l a) s = .next (raise l 0x03 0 s)) ∧
  (5 < a.arg.toNat ∨ (a.side = true ∧ (a.arg.toNat = 0 ∨ (s.lane l).tx ≠ .active)) ∨
      (a.side = false ∧ ((s.lane l).rx = .running ∨ (s.lane l).rx = .test ∨ (s.lane l).rx = .sleep)) →
    exec (.testEnter l a) s = .next (raise l 0x03 0 s)) ∧
  ((a.side = true ∧ (s.lane l).tx ≠ .test) ∨ (a.side = false ∧ (s.lane l).rx ≠ .test) →
    exec (.testExit l a) s = .next (raise l 0x03 0 s)) ∧
  ((s.lane l).rx ≠ .sync → exec (.laneStart l a) s = .next (raise l 0x03 0 s)) ∧
  ((s.lane l).rx ≠ .running → exec (.laneStop l a) s = .next (raise l 0x03 0 s)) ∧
  (39 < a.arg.toNat ∨ (s.lane l).tx ≠ .test → exec (.inject l a) s = .next (raise l 0x03 0 s)) ∧
  (2 < a.arg.toNat ∨ (s.lane l).tx ≠ .test ∨ (s.lane l).rx ≠ .test → exec (.loopback l a) s = .next (raise l 0x03 0 s)) ∧
  (100 ≤ l.val ∧ l.val < 0xCC → exec (.spareIn l a) s = .next (raise l 0x0E 0 s))

/-- The mismatched bits of a received word at lane v's checker (03 R71): against the pattern its register goes on with, against the
nearer idle word where the pattern is none of the polynomials, and every bit while the register is not yet full. -/
def wrongBits (v : Lane) (bits : List Bool) : Nat :=
  match prbsTaps v.chk.pattern with
  | some (m, n) => if v.chk.reg.length < m then bits.length else mismatches bits (prbsRun m n bits.length v.chk.reg).1
  | none => idleErrors v.chk.coded bits

/-- 03 R60, R61, R71, R73, R74, R82: CLEAR_COUNTERS, the error counters of a decoded word, the status word, and the checker: it sets
CHK_LOCK after 64 words in a row without error, clears it with one sync loss when 32 of the last 64 words had an error, and adds to
its two counters only while CHK_LOCK is set: in LINE mode the word's 40 bits, in CODED mode the 32 bits that the decoder hands on
(assumption 210), its errors counting as on any word. The patterns are compared uninverted (assumption 209). In ACQUIRE and SLEEP no
word is received (assumption 174). A status word reaches the line where it is open (assumption 172). -/
def Obligations.LaneCountersAndStatusWords : Prop := ∀ (l : Fin 222) (a : LaneArgs) (s : State),
  completes (.laneClearCounters l a) s (fun t => Frame [.lanes] s t ∧ (∀ m, m ≠ l.val → t.lane m = s.lane m) ∧
    t.lanes.ingest = s.lanes.ingest ∧
    t.lane l = { s.lane l with codeErrors := 0, dispErrors := 0, syncLosses := 0, prbsErrors := 0, prbsBits := 0 } ∧
    (∀ k, t.logical k = if l.val < 100 ∧ s.servedBy l = some k then
      { s.logical k with framesOk := 0, crcErrors := 0, late := 0, early := 0, seqJumps := 0, formatErrors := 0,
                         linkIdErrors := 0, ovr := [0, 0, 0, 0] } else s.logical k)) ∧
  (∀ (rd : Bool) (w : BitVec 40), (s.lane l).rx ≠ .acquire ∧ (s.lane l).rx ≠ .sleep →
    completes (.codeError l rd w) s (fun t => Frame [.lanes] s t ∧ lanesBut l s t ∧
      t.lane l = { s.lane l with codeErrors := satAdd 32 (s.lane l).codeErrors (decodeWord 4 rd w.toNat).invalid,
                                 dispErrors := satAdd 32 (s.lane l).dispErrors (decodeWord 4 rd w.toNat).disparity,
                                 rxRd := (decodeWord 4 rd w.toNat).rd })) ∧
  (∀ w : BitVec 40, (s.lane l).rx = .test ∧ (s.lane l).loopback = 0 →
    let d := decodeWord 4 (s.lane l).rxRd w.toNat
    let bits := if (s.lane l).chk.coded then d.syms.flatMap fun c => natBits 8 c.2 else natBits 40 w.toNat
    let bad := wrongBits (s.lane l) bits
    let errs := (decide (0 < bad) :: (s.lane l).chk.errs).take 64
    completes (.prbsCheckWord l w) s (fun t => Frame [.lanes] s t ∧ lanesBut l s t ∧
    ((s.lane l).chkLock = false → (t.lane l).prbsBits = (s.lane l).prbsBits ∧ (t.lane l).prbsErrors = (s.lane l).prbsErrors) ∧
    ((s.lane l).chkLock = false → (t.lane l).chkLock = decide (bad = 0 ∧ 64 ≤ (s.lane l).chk.clean + 1) ∧
      (bad = 0 ∧ (s.lane l).chk.clean + 1 < 64 → (t.lane l).chk.clean = (s.lane l).chk.clean + 1) ∧
      (bad ≠ 0 → (t.lane l).chk.clean = 0)) ∧
    ((s.lane l).chkLock = true → (t.lane l).prbsBits = satAdd 64 (s.lane l).prbsBits bits.length ∧
      (t.lane l).prbsErrors = satAdd 64 (s.lane l).prbsErrors bad ∧
      (t.lane l).chkLock = decide ((errs.filter id).length < 32) ∧
      ((errs.filter id).length < 32 → (t.lane l).chk.errs = errs)) ∧
    ((s.lane l).chk.coded = true → (t.lane l).codeErrors = satAdd 32 (s.lane l).codeErrors d.invalid ∧
      (t.lane l).dispErrors = satAdd 32 (s.lane l).dispErrors d.disparity ∧ (t.lane l).rxRd = d.rd) ∧
    ((s.lane l).chk.coded = false → (t.lane l).codeErrors = (s.lane l).codeErrors ∧
      (t.lane l).dispErrors = (s.lane l).dispErrors ∧ (t.lane l).rxRd = (s.lane l).rxRd) ∧
    t.lane l = { s.lane l with prbsBits := (t.lane l).prbsBits, prbsErrors := (t.lane l).prbsErrors,
                               chkLock := (t.lane l).chkLock, chk := (t.lane l).chk,
                               syncLosses := (t.lane l).syncLosses, codeErrors := (t.lane l).codeErrors,
                               dispErrors := (t.lane l).dispErrors, rxRd := (t.lane l).rxRd } ∧
    (t.lane l).syncLosses = (if (s.lane l).chkLock ∧ (t.lane l).chkLock = false
      then satAdd 32 (s.lane l).syncLosses 1 else (s.lane l).syncLosses))) ∧
  (∀ w : BitVec 40, ¬ ((s.lane l).rx = .test ∧ (s.lane l).loopback = 0) → exec (.prbsCheckWord l w) s = .next s) ∧
  (∀ k : Fin 100, (s.lane k).tx = .active → completes (.statusWordSend k) s (fun t => Frame [.lanes, .outbox] s t ∧
    lanesBut k s t ∧
    (let chk := s.statusByte k ^^^ (s.lane k).mirror ^^^ 0x5A
     t.outbox = (if s.lineOpen k then .statusWord k (s.statusByte k) (s.lane k).mirror chk :: s.outbox else s.outbox) ∧
     t.lane k = { s.lane k with
       txRd := rdAfter (s.lane k).txRd [(true, 0x5C), (false, s.statusByte k), (false, (s.lane k).mirror), (false, chk)],
       txSent := (s.lane k).txSent + 1 }))) ∧
  (∀ k : Fin 100, (s.lane k).tx ≠ .active → exec (.statusWordSend k) s = .next s)

/-- 03 R73, R77, R89, steps 1 to 7, on a lane that serves logical lane lg and runs: the first check that fails decides, and only its
counter, its Postcard and, for a CRC failure, the times of R77 change; no sample reaches an input. A CRC failure that reaches
crc_fail_limit fails the lane: its covering spare is asked to take over where sparing is automatic and the spare can, else the logical
lane's inputs are not valid. In loopback no frame is received. The spare's RESUME is log entry 173. -/
def Obligations.BadSampleLinkFramesAreDiscardedByTheFirstFailedCheck : Prop :=
  ∀ (l : Fin 100) (f : LinkFrame) (s : State) (lg : Nat),
    ((s.lane l).loopback ≠ 0 → exec (.sampleLinkFrame l f) s = .next s) ∧
    (s.servedBy l = some lg → (s.lane l).rx = .running → (s.lane l).loopback = 0 → injFor l 3 s = none →
    let st := f.stamp.toNat
    let c (sub : Nat) := s.cfgAt st (ob (0x4200 + lg) sub)
    let fails := s.now :: (s.lane l).crcTimes.filter fun x => s.now < x + ms 1
    let auto := s.cfg (ob 0x4000 1) = 1 ∧ lg = l.val ∧ s.spareInOk (coverSpare l) l = true
    let clean := f.invalid = 0 ∧ f.disparity = 0 ∧ f.abort = false
    let framed := clean ∧ f.earlyStart = false ∧ f.endOk = true ∧ f.payload.length = payloadBytes (c 2) (c 3)
    let intact := framed ∧ crc32 (linkCovered f) = f.crc.toNat
    let named := intact ∧ f.linkId.toNat = c 1
    let formed := named ∧ f.fmt.toNat % 8 = c 2 ∧ f.fmt.toNat / 8 % 4 + 1 = c 3 ∧ f.info.toNat % 256 = c 4 ∧ st % c 4 = 0
    (0 < f.invalid ∨ 0 < f.disparity → completes (.sampleLinkFrame l f) s fun t => Frame [.lanes, .so] s t ∧ lanesBut l s t ∧
      raisedOnly (if f.abort then [(l.val, 0x0A, 0)] else []) s t ∧
      t.lane l = { s.lane l with codeErrors := satAdd 32 (s.lane l).codeErrors f.invalid,
                                 dispErrors := satAdd 32 (s.lane l).dispErrors f.disparity }) ∧
    (f.invalid = 0 ∧ f.disparity = 0 ∧ f.abort = true → completes (.sampleLinkFrame l f) s fun t =>
      Frame [.lanes, .so] s t ∧ lanesBut l s t ∧ raisedOnly [(l.val, 0x0A, 0)] s t ∧
      t.lane l = { s.lane l with codeErrors := satAdd 32 (s.lane l).codeErrors 1,
                                 dispErrors := satAdd 32 (s.lane l).dispErrors 0 }) ∧
    (clean ∧ ¬ framed → completes (.sampleLinkFrame l f) s fun t => Frame [.lanes, .so] s t ∧ logicalBut lg s t ∧
      t.so = (raiseLim (ms 1) l 0x08 0 0 s).so ∧
      t.logical lg = { s.logical lg with formatErrors := satAdd 32 (s.logical lg).formatErrors 1 }) ∧
    (framed ∧ ¬ intact ∧ fails.length < s.cfg (ob 0x4000 3) →
      completes (.sampleLinkFrame l f) s fun t => Frame [.lanes, .so] s t ∧
      t.so = (raiseLim (ms 1) l 0x04 0 0 s).so ∧ t.lanes.ingest = s.lanes.ingest ∧
      (∀ k, t.logical k = if k = lg then { s.logical lg with crcErrors := satAdd 32 (s.logical lg).crcErrors 1 }
        else s.logical k) ∧
      (∀ m, t.lane m = if m = l.val then
        { s.lane l with crcTimes := fails, lastCrc := some s.now } else s.lane m)) ∧
    (framed ∧ ¬ intact ∧ s.cfg (ob 0x4000 3) ≤ fails.length →
      completes (.sampleLinkFrame l f) s fun t => Frame [.lanes, .so] s t ∧
      t.so = (raiseLim (ms 1) l 0x04 0 0 (raise l 0x0B 0 s)).so ∧ t.lanes.ingest = s.lanes.ingest ∧
      (∀ k, t.logical k = if k = lg then
        { s.logical lg with crcErrors := satAdd 32 (s.logical lg).crcErrors 1
                            muted := if auto then (s.logical lg).muted else true } else s.logical k) ∧
      (∀ m, t.lane m = if m = l.val then { s.lane l with failed := true, crcTimes := [], lastCrc := some s.now }
        else if auto ∧ m = coverSpare l then
          { s.lane m with rx := .running, resume := true, mirror := l.val, spare := .asking l.val s.now, startPm := s.pm,
                          leftAt := none, failed := false, crcTimes := [] }
        else s.lane m)) ∧
    (intact ∧ ¬ named → completes (.sampleLinkFrame l f) s fun t => Frame [.lanes, .so] s t ∧ logicalBut lg s t ∧
      t.so = (raiseLim (ms 1) l 0x07 0 0 s).so ∧
      t.logical lg = { s.logical lg with linkIdErrors := satAdd 32 (s.logical lg).linkIdErrors 1 }) ∧
    (named ∧ ¬ formed → completes (.sampleLinkFrame l f) s fun t => Frame [.lanes, .so] s t ∧ logicalBut lg s t ∧
      t.so = (raiseLim (ms 1) l 0x08 0 0 s).so ∧
      t.logical lg = { s.logical lg with formatErrors := satAdd 32 (s.logical lg).formatErrors 1 }) ∧
    (formed ∧ s.pm + ms 1 < st → completes (.sampleLinkFrame l f) s fun t => Frame [.lanes, .so] s t ∧ logicalBut lg s t ∧
      t.so = (raiseLim (ms 1) l 0x06 0 0 s).so ∧
      t.logical lg = { s.logical lg with early := satAdd 32 (s.logical lg).early 1 }) ∧
    (formed ∧ st ≤ s.pm + ms 1 ∧ st + us 200 < s.pm → completes (.sampleLinkFrame l f) s fun t =>
      Frame [.lanes, .so] s t ∧ t.so = (raiseLim (ms 1) l 0x05 0 0 s).so ∧ t.lanes.ingest = s.lanes.ingest ∧
      (∀ k, t.logical k = if k = lg then { s.logical lg with late := satAdd 32 (s.logical lg).late 1 } else s.logical k) ∧
      (∀ m, t.lane m = if m = l.val then { s.lane l with lastLate := some s.now } else s.lane m)))

/-- 03 R84 to R87, R89, R90; 02 R45: a frame that passes steps 1 to 7 on the lane that serves lg. With the expected stamp, or as the
first after START, it is counted with its OVR bits, moves the expected stamp on by 1,024 p and gives each of the four inputs its 1,024
samples. With another stamp it counts one seq_jump: a later one is delivered behind a gap, an earlier one without the samples that
came before, and one more than a frame early brings nothing (assumption 175). V is 0 while the logical lane is failed and
software has not acted (R77). In the block format each malformed exponent counts as a format error and its samples have V = 0. The
first frame after START begins the inputs' history (04 R102, R548; assumption 212). -/
def Obligations.AGoodSampleLinkFrameReachesItsInputs : Prop :=
  ∀ (l : Fin 100) (f : LinkFrame) (s : State) (lg : Nat), s.servedBy l = some lg → (s.lane l).rx = .running →
    (s.lane l).loopback = 0 → injFor l 3 s = none →
    let st := f.stamp.toNat
    let c (sub : Nat) := s.cfgAt st (ob (0x4200 + lg) sub)
    let bad := if c 2 = 5 then badExponents (c 3) f.payload.toArray else 0
    let g := s.logical lg
    let samples (q skip : Nat) := ((List.range 1024).drop skip).map fun k =>
      if q < c 3 then
        ((decodeSample (c 2) (c 3) f.payload.toArray k q).1, (decodeSample (c 2) (c 3) f.payload.toArray k q).2.1,
         (decodeSample (c 2) (c 3) f.payload.toArray k q).2.2 && bit (8 + q) f.info.toNat && !g.muted)
      else (0, 0, false)
    let data (q skip : Nat) := Chunk.data (st + skip * c 4) (c 4) (c 2 == 4) (s.lane l).startPm (samples q skip)
    let errors (v : State) := (if 0 < bad then raiseLim (ms 1) l 0x08 0 0 v else v).so
    f.invalid = 0 → f.disparity = 0 → f.abort = false → f.earlyStart = false → f.endOk = true →
    f.payload.length = payloadBytes (c 2) (c 3) → crc32 (linkCovered f) = f.crc.toNat → f.linkId.toNat = c 1 →
    f.fmt.toNat % 8 = c 2 → f.fmt.toNat / 8 % 4 + 1 = c 3 → f.info.toNat % 256 = c 4 → st % c 4 = 0 →
    st ≤ s.pm + ms 1 → s.pm ≤ st + us 200 →
    (g.expected = none ∨ g.expected = some st →
      completes (.sampleLinkFrame l f) s fun t => Frame [.lanes, .so, .filt] s t ∧ t.lanes.lane = s.lanes.lane ∧
        t.so = errors s ∧ t.filt = { s.filt with cond := t.filt.cond } ∧
        (∀ i, t.cond i = if i / 4 = lg ∧ g.expected = none then
          let old := match g.lastTaken with | some u => u + 1024 * s.cfgAt u (ob (0x4200 + lg) 4) | none => 0
          { s.cond i with histFrom := some st
                          missing := if old < st then (s.cond i).missing ++ [(old, st)] else (s.cond i).missing }
          else s.cond i) ∧
        (∀ k, k ≠ lg → t.logical k = s.logical k) ∧
        t.logical lg = { g with
          framesOk := satAdd 64 g.framesOk 1, formatErrors := satAdd 32 g.formatErrors bad
          ovr := (List.range 4).map fun q => satAdd 32 (g.ovr.getD q 0) (b2n (bit (12 + q) f.info.toNat))
          expected := some (st + 1024 * c 4), lastTaken := some st, lastSeq := f.seq.toNat } ∧
        (∀ i, i / 4 ≠ lg → t.ingestQ i = s.ingestQ i) ∧
        (∀ q, q < 4 → t.ingestQ (4 * lg + q) = s.ingestQ (4 * lg + q) ++ [data q 0])) ∧
    (∀ e, g.expected = some e → e ≠ st →
      (st + 1024 * c 4 < e → completes (.sampleLinkFrame l f) s fun t => Frame [.lanes, .so] s t ∧ logicalBut lg s t ∧
        raisedOnly [(l.val, 0x09, 0)] s t ∧ t.logical lg = { g with seqJumps := satAdd 32 g.seqJumps 1 }) ∧
      (e ≤ st + 1024 * c 4 → completes (.sampleLinkFrame l f) s fun t => Frame [.lanes, .so] s t ∧
        t.lanes.lane = s.lanes.lane ∧ t.so = errors (raise l 0x09 0 s) ∧ (∀ k, k ≠ lg → t.logical k = s.logical k) ∧
        t.logical lg = { g with
          seqJumps := satAdd 32 g.seqJumps 1, formatErrors := satAdd 32 g.formatErrors bad
          expected := some (max (st + 1024 * c 4) e), lastTaken := some st, lastSeq := f.seq.toNat } ∧
        (∀ i, i / 4 ≠ lg → t.ingestQ i = s.ingestQ i) ∧
        (∀ q, q < 4 → t.ingestQ (4 * lg + q) = s.ingestQ (4 * lg + q) ++
          (if e < st then [.gap e (c 4) (c 2 == 4) (s.lane l).startPm ((st - e) / c 4), data q 0]
           else if (e - st + (c 4 - 1)) / c 4 < 1024 then [data q ((e - st + (c 4 - 1)) / c 4)] else []))))

/-- 03 R77 to R80: SPARE_IN, SPARE_OUT, their time-out and the failure of an ingest lane, taken or refused. A failure without a
sparing leaves the logical lane's inputs not valid. RESUME of a spare that runs by sparing is log entry 173. -/
def Obligations.IngestSparing : Prop := ∀ (s : State),
  (∀ (l : Fin 222) (a : LaneArgs), 96 ≤ l.val → l.val < 100 → a.arg.toNat ≤ 95 → coverSpare a.arg.toNat = l →
    (s.lane l).rx = .sync → (s.lane l).spare = .free → s.gen l = s.gen (s.serving a.arg.toNat) → s.latched l = false →
    completes (.spareIn l a) s fun t => Frame [.lanes] s t ∧ lanesBut l s t ∧ t.lane l = { s.lane l with
      rx := .running, resume := true, mirror := a.arg.toNat, spare := .asking a.arg.toNat s.now, startPm := s.pm,
      leftAt := none, failed := false, crcTimes := [] }) ∧
  (∀ (l : Fin 222) (a : LaneArgs), l.val < 100 →
    (l.val < 96 ∨ 95 < a.arg.toNat ∨ coverSpare a.arg.toNat ≠ l ∨ (s.lane l).rx ≠ .sync ∨ (s.lane l).spare ≠ .free ∨
      s.gen l ≠ s.gen (s.serving a.arg.toNat) ∨ s.latched l = true) →
    exec (.spareIn l a) s = .next (raise l 0x0E 0 s)) ∧
  (∀ (l : Fin 222) (a : LaneArgs) (k : Nat), 96 ≤ l.val → l.val < 100 → s.servedBy l = some k →
    (s.lane k).rx = .sync → s.latched l = false → s.latched k = false →
    completes (.spareOut l a) s fun t => Frame [.lanes] s t ∧ lanesBut l s t ∧
      t.lane l = { s.lane l with spare := .leaving k }) ∧
  (∀ (l : Fin 222) (a : LaneArgs), l.val < 100 →
    (l.val < 96 ∨ (∀ k, s.servedBy l = some k → (s.lane k).rx ≠ .sync ∨ s.latched l = true ∨ s.latched k = true)) →
    exec (.spareOut l a) s = .next (raise l 0x0E 0 s)) ∧
  (∀ (l : Fin 100) (k since : Nat), (s.lane l).spare = .asking k since → since + us (s.cfg (ob 0x4000 2)) ≤ s.now →
    completes (.spareTimeout l) s fun t => Frame [.lanes, .so] s t ∧ lanesBut l s t ∧ raisedOnly [(l.val, 0x0D, 0)] s t ∧
      t.lane l = { s.lane l with
        mirror := 255, spare := .free, resume := false, leftAt := none,
        rx := if (s.lane l).rx = .running then .sync else (s.lane l).rx }) ∧
  (∀ (l : Fin 222), l.val < 96 → s.serving l = l → s.failDue l = true →
    completes (.laneFailTimeout l) s fun t => Frame [.lanes, .so] s t ∧ raisedOnly [(l.val, 0x0B, 0)] s t ∧
      t.lanes.ingest = s.lanes.ingest ∧ t.lane l = { s.lane l with failed := true, crcTimes := [] } ∧
      (∀ k, t.logical k = if k = l.val ∧ ¬ (s.cfg (ob 0x4000 1) = 1 ∧ s.spareInOk (coverSpare l) l = true) then
        { s.logical k with muted := true } else s.logical k) ∧
      (∀ m, m ≠ l.val → m ≠ coverSpare l → t.lane m = s.lane m) ∧
      (s.cfg (ob 0x4000 1) = 1 ∧ s.spareInOk (coverSpare l) l = true →
        t.lane (coverSpare l) = { s.lane (coverSpare l) with
          rx := .running, resume := true, mirror := l.val, spare := .asking l.val s.now, startPm := s.pm,
          leftAt := none, failed := false, crcTimes := [] }) ∧
      (¬ (s.cfg (ob 0x4000 1) = 1 ∧ s.spareInOk (coverSpare l) l = true) →
        t.lane (coverSpare l) = s.lane (coverSpare l))) ∧
  (∀ (l : Fin 222), 96 ≤ l.val → l.val < 100 → s.failDue l = true →
    completes (.laneFailTimeout l) s fun t => Frame [.lanes, .so] s t ∧ raisedOnly [(l.val, 0x0B, 0)] s t ∧
      t.lanes.ingest = s.lanes.ingest ∧ (∀ m, m ≠ l.val → t.lane m = s.lane m) ∧
      (∀ k, t.logical k = if s.servedBy l = some k then { s.logical k with muted := true } else s.logical k) ∧
      t.lane l = { s.lane l with failed := true, crcTimes := [] }) ∧
  (∀ (l : Fin 222), s.failDue l = false → exec (.laneFailTimeout l) s = .next s)

/-- 03 R549: frames of a logical lane on a lane that does not serve it yet count in that lane's error counters alone; the
first that passes steps 1 to 7 is taken and goes through step 8 of R89: a spare takes over (R78), the home lane takes back
(R80). A frame with another stamp than the expected one counts as a stamp gap. -/
def Obligations.FramesBeforeALaneServesAreOnlyTested : Prop :=
  ∀ (l : Fin 100) (f : LinkFrame) (s : State), s.servedBy l = none → (s.lane l).rx.listening = true →
    (s.lane l).loopback = 0 →
    ((∀ lg since, (s.lane l).spare = .asking lg since → wouldTake s lg f = false) →
     (returning l s → (s.lane l).rx = .sync → wouldTake s l f = false) →
      completes (.sampleLinkFrame l f) s fun t => Frame [.lanes] s t ∧ lanesBut l s t ∧
        t.lane l = { s.lane l with
          codeErrors := satAdd 32 (if f.abort ∧ f.invalid = 0 ∧ f.disparity = 0 then satAdd 32 (s.lane l).codeErrors 1
                                   else (s.lane l).codeErrors) f.invalid
          dispErrors := satAdd 32 (if f.abort ∧ f.invalid = 0 ∧ f.disparity = 0 then satAdd 32 (s.lane l).dispErrors 0
                                   else (s.lane l).dispErrors) f.disparity }) ∧
    (∀ lg since, 96 ≤ l.val → (s.lane l).rx = .running → (s.lane l).spare = .asking lg since → lg < 96 →
      wouldTake s lg f = true →
      completes (.sampleLinkFrame l f) s fun t => Frame [.lanes, .so, .filt] s t ∧ t.serving lg = l ∧
        (t.lane l).spare = .serving lg ∧ (t.lane (s.serving lg)).sparedOut = true ∧
        (t.lane (s.serving lg)).resume = false ∧
        (t.logical lg).muted = false ∧
        ((s.logical lg).expected = none ∨ (s.logical lg).expected = some f.stamp.toNat →
          (t.logical lg).framesOk = satAdd 64 (s.logical lg).framesOk 1 ∧ (t.logical lg).seqJumps = (s.logical lg).seqJumps) ∧
        (∀ e, (s.logical lg).expected = some e → e ≠ f.stamp.toNat →
          (t.logical lg).framesOk = (s.logical lg).framesOk ∧
          (t.logical lg).seqJumps = satAdd 32 (s.logical lg).seqJumps 1) ∧
        (∀ m, m ≠ l.val → m ≠ s.serving lg → t.lane m = s.lane m) ∧ (∀ k, k ≠ lg → t.logical k = s.logical k)) ∧
    (l.val < 96 → returning l s → (s.lane l).rx = .sync → wouldTake s l f = true →
      (∀ x, (s.logical l).lastTaken = some x → x < f.stamp.toNat) →
      completes (.sampleLinkFrame l f) s fun t => Frame [.lanes, .so, .filt] s t ∧ t.serving l = l ∧
        (t.lane l).sparedOut = false ∧ (t.lane l).rx = .running ∧
        (t.lane (coverSpare l)).spare = .free ∧ (t.lane (coverSpare l)).mirror = 255 ∧
        (t.lane (coverSpare l)).rx = (if (s.lane (coverSpare l)).rx = .running then .sync else (s.lane (coverSpare l)).rx) ∧
        (t.logical l).muted = false ∧
        ((s.logical l).expected = none ∨ (s.logical l).expected = some f.stamp.toNat →
          (t.logical l).framesOk = satAdd 64 (s.logical l).framesOk 1 ∧ (t.logical l).seqJumps = (s.logical l).seqJumps) ∧
        (∀ e, (s.logical l).expected = some e → e ≠ f.stamp.toNat →
          (t.logical l).framesOk = (s.logical l).framesOk ∧
          (t.logical l).seqJumps = satAdd 32 (s.logical l).seqJumps 1) ∧
        (∀ m, m ≠ l.val → m ≠ coverSpare l → t.lane m = s.lane m) ∧ (∀ k, k ≠ l.val → t.logical k = s.logical k))

/-! ### Input conditioning and delay (04) -/

/-- 04 R110, Table 04.3: what a live record and a frame start do to an input whose delay-line output stands at the frame:
hold, replace or discard; then the commit rows, the switch at EFF′, the clamp and the step of R101 and R104, staleness
(R112). A record is decided when the output reaches its frame (R109, R548), and none where it does not. A delivered record is the
value that a read of its object answers (14 R393). The F in force for EFF rounds it (assumption 159). -/
def Obligations.DelayRecordsAreHeldAndSwitchedAtFrameStarts : Prop := ∀ (i : Fin 384) (s : State),
  let q := s.cond i
  let e := engSrc (i / 16)
  (∀ r : BitVec 256, let d := decodeDelay (s.inF (bits 63 0 r.toNat) i) r.toNat
    let live := { s.dict with live := s.dict.live.set (fun _ => []) (ob (inIdx i) 0x10) (toBytes 32 r.toNat) }
    (q.live = false ∨ d.eff ≤ q.cur.eff → completes (.delayRecord i r) s fun t =>
      Frame [.filt, .so, .dict] s t ∧ filtButInput i s t ∧ t.dict = live ∧ raisedOnly [(e, 3, i)] s t ∧ t.gain i = s.gain i ∧
      t.cond i = { q with discarded := satAdd 32 q.discarded 1 }) ∧
    (q.live = true ∧ q.cur.eff < d.eff ∧ q.next = none → completes (.delayRecord i r) s fun t =>
      Frame [.filt, .dict] s t ∧ filtButInput i s t ∧ t.dict = live ∧ t.gain i = s.gain i ∧ t.cond i = { q with next := some d }) ∧
    (q.live = true ∧ q.cur.eff < d.eff ∧ q.next ≠ none → completes (.delayRecord i r) s fun t =>
      Frame [.filt, .so, .dict] s t ∧ filtButInput i s t ∧ t.dict = live ∧ raisedOnly [(e, 2, i)] s t ∧ t.gain i = s.gain i ∧
      t.cond i = { q with next := some d, replaced := true, replacedN := satAdd 32 q.replacedN 1 })) ∧
  (∀ x : BitVec 64, s.frameDue i x.toNat = true → (q.nextOut = none ∨ q.nextOut = some x.toNat) →
    s.outDue i x.toNat = true → 0 < s.inF x.toNat i →
    completes (.delayFrameStart i x) s fun t =>
      let q' := t.cond i
      let src := s.inCfg x.toNat i 8
      let st := s.inCfg x.toNat i 9
      let top := if s.cplxIn x.toNat i then 32767 else 65535
      let switched := q.live = true ∧ src ≠ 0 ∧ ∃ r, q.next = some r ∧ r.eff ≤ x.toNat
      Frame [.filt, .so] s t ∧ filtButInput i s t ∧ t.gain i = s.gain i ∧
      q' = { q with live := q'.live, cur := q'.cur, next := q'.next, replaced := q'.replaced, stale := q'.stale,
                    range := q'.range, d := q'.d, late := q'.late, steps := q'.steps, frame := some x.toNat,
                    frames := q'.frames } ∧
      q'.steps = (if q'.d = q.d then q.steps else satAdd 32 q.steps 1) ∧
      (q'.frames.get frameInit x.toNat).dr = (if q'.live then q'.cur else { eff := x.toNat }) ∧
      ((q'.frames.get frameInit x.toNat).marked = true ↔
        (q'.live = true ∧ q'.stale = true ∧ s.cfgAt x.toNat (ob 0x5000 3) = 1) ∨ s.inCfg x.toNat i 1 = 0) ∧
      (q.live = false ∧ src = 1 → q'.live = true ∧ q'.cur = { eff := x.toNat, dint := st } ∧ q'.next = none ∧ q'.d = st) ∧
      (q.live = true ∧ src = 0 → q'.live = false ∧ q'.cur = { eff := x.toNat, dint := st } ∧ q'.next = none ∧ q'.d = st ∧
        q'.replaced = false ∧ q'.stale = false) ∧
      (q.live = false ∧ src ≠ 1 → q'.live = false ∧ q'.next = q.next ∧ q'.d = st) ∧
      (∀ r, q.live = true → src ≠ 0 → q.next = some r → r.eff ≤ x.toNat →
        q'.live = true ∧ q'.cur = r ∧ q'.next = none ∧ q'.replaced = false ∧ q'.d = min r.dint top ∧
        q'.late = (if r.eff < x.toNat then satAdd 32 q.late 1 else q.late)) ∧
      (q.live = true ∧ src ≠ 0 ∧ ¬ switched → q'.live = true ∧ q'.cur = q.cur ∧ q'.next = q.next ∧ q'.d = q.d ∧
        q'.late = q.late ∧
        (q'.stale = true ↔ q.stale = true ∨ q.cur.eff + ms (s.cfgAt x.toNat (ob 0x5000 2)) < x.toNat))) ∧
  (∀ x : BitVec 64, ¬ (s.frameDue i x.toNat = true ∧ (q.nextOut = none ∨ q.nextOut = some x.toNat) ∧ s.outDue i x.toNat = true) →
    exec (.delayFrameStart i x) s = .next s)

/-- 04 R97, R98, R101, R102, R113, R548; 02 R45: the spike test and its spread; the next sample of an input enters its filter where it
does not overlap the one before, and is discarded where it does, with one Postcard for a run of such samples (assumption 126); the
delay line produces the output stamp whose turn it is. -/
def Obligations.TheSpikeFilterAndTheDelayLine : Prop :=
  (∀ l : List Int, l.length % 2 = 1 → median l ∈ l ∧ 2 * (l.filter fun y => y < median l).length < l.length ∧
    2 * (l.filter fun y => median l < y).length < l.length) ∧
  (∀ (k floor shift sp : Nat) (xs : List Int) (x : Int), sp ≤ 2 ^ 24 → x.natAbs ≤ 2047 → (median xs).natAbs ≤ 2047 →
    (spikeTest k floor shift sp xs x).1 = decide (spikeThr k floor sp < (x - median xs).natAbs * 4096) ∧
    (spikeTest k floor shift sp xs x).2.1 = median xs ∧ (spikeTest k floor shift sp xs x).2.2 ≤ 2 ^ 24) ∧
  (∀ (i : Fin 384) (s : State) (x : RxSample) (p : Nat) (r : List Chunk), takeSample (s.ingestQ i) = some (x, p, r) →
    let q := s.cond i
    let e := engSrc (i / 16)
    (∀ y, q.win.getLast? = some y → x.stamp < y.stamp + s.inP y.stamp i →
      completes (.engineSampleIn i) s fun t => Frame [.so, .lanes, .filt] s t ∧ filtButInput i s t ∧ t.gain i = s.gain i ∧
      t.lanes.lane = s.lanes.lane ∧ t.lanes.logical = s.lanes.logical ∧
      (∀ k, t.ingestQ k = if k = i then r else s.ingestQ k) ∧ t.cond i = { q with overlap := true } ∧
      raisedOnly (if q.overlap then [] else [(e, gapKind e, 0)]) s t) ∧
    ((∀ y, q.win.getLast? = some y → y.stamp + s.inP y.stamp i ≤ x.stamp) →
      completes (.engineSampleIn i) s fun t => Frame [.so, .lanes, .filt] s t ∧ filtButInput i s t ∧ t.gain i = s.gain i ∧
      t.lanes.lane = s.lanes.lane ∧ t.lanes.logical = s.lanes.logical ∧
      (∀ k, t.ingestQ k = if k = i then r else s.ingestQ k) ∧
      (t.cond i).win = ((s.cond i).win ++ [x]).drop ((s.cond i).win.length + 1 - 17) ∧
      (t.cond i).live = (s.cond i).live ∧ (t.cond i).cur = (s.cond i).cur ∧ (t.cond i).next = (s.cond i).next ∧
      (t.cond i).d = (s.cond i).d ∧ (t.cond i).dout = (s.cond i).dout ∧ (t.cond i).overlap = false)) ∧
  (∀ (i : Fin 384) (u : BitVec 64) (s : State), (s.cond i).nextOut = some u.toNat → s.outDue i u.toNat = true →
    s.frameOpen i u.toNat = true → s.frameDue i u.toNat = false → injFor (engSrc (i / 16)) 1 s = none →
    completes (.delayOutput i u .ok) s fun t => Frame [.filt] s t ∧ filtButInput i s t ∧ t.gain i = s.gain i ∧
      (t.cond i).nextOut = some (u.toNat + s.inP u.toNat i) ∧
      t.cond i = { s.cond i with nextOut := (t.cond i).nextOut, dout := (t.cond i).dout,
                                 missing := (s.cond i).missing.filter fun m => decide (u.toNat + s.inP u.toNat i < m.2) } ∧
      (t.cond i).dout.get (fun _ => (0, 0)) u.toNat =
        (if (s.cond i).d * s.inP u.toNat i ≤ u.toNat ∧ s.inCfg u.toNat i 1 = 1
         then (s.cond i).at (u.toNat - (s.cond i).d * s.inP u.toNat i) else (0, 0)))

/-- 04 R115: conditioning_clear clears one input's counters, or every input's and the ECC counters of every engine; every
counter saturates. -/
def Obligations.ConditioningClearClearsTheCounters : Prop := ∀ (v : BitVec 16) (s : State),
  completes (.conditioningClear v) s fun t => Frame [.filt] s t ∧
    (∀ k, k < 384 → t.cond k = if v.toNat = k ∨ v.toNat = 0xFFFF then
      { s.cond k with spikes := 0, spikesBlock := 0, spikesRun := 0, bypassed := 0, late := 0, replacedN := 0,
                      discarded := 0, steps := 0 } else s.cond k) ∧
    (∀ k, k < 384 → t.gain k = if v.toNat = k ∨ v.toNat = 0xFFFF then
      { s.gain k with sat := 0, satBlock := 0, satRun := 0, discarded := 0, invalidFrames := 0 } else s.gain k) ∧
    (∀ e, e < 24 → t.eng e = if v.toNat = 0xFFFF then
      { s.eng e with dlCorr := 0, dlUncorr := 0, coefCorr := 0, coefUncorr := 0 } else s.eng e) ∧
    t.filt.words = s.filt.words ∧ (∀ w n x, satAdd w n x ≤ 2 ^ w - 1)

/-! ### Channeliser and banks (05) -/

/-- 05 R130, R131, R132, R143, 00 R6: a gain table is held, replaces the held one or is discarded, and is the value that a read of its
object answers (14 R393); a channel sample of an owned channel leaves as a word whose components lie inside the symmetric limit, or as
the marker where the frame is not valid. A commit of N or D acts at the gain stage with the first sample stamped at or after its
Postmark. An octet's last sample takes its word to the corner-turn buffer (09 Table 09.3), whose order is the model's (assumption
224). A frame in a fade is judged over the window of the larger T (assumption 218). -/
def Obligations.GainTablesAndChannelSamples : Prop := ∀ (i : Fin 384) (s : State),
  (∀ (eff : BitVec 64) (first count seq : BitVec 16) (ws : List (BitVec 32)),
    let x := roundUp eff.toNat (s.inF eff.toNat i)
    let n : NextGain := ⟨x, seq.toNat, first.toNat, (ws.take count.toNat).map fun w => gainWord w.toNat⟩
    let bytes := toBytes 8 eff.toNat ++ toBytes 2 first.toNat ++ toBytes 2 count.toNat ++ toBytes 2 seq.toNat ++ toBytes 2 0 ++
      ((ws.take count.toNat).map BitVec.toNat).flatMap (toBytes 4)
    let live := { s.dict with live := s.dict.live.set (fun _ => []) (ob (inIdx i) 0x20) bytes }
    (x ≤ (s.gain i).eff → completes (.gainTable i eff first count seq ws) s fun t => Frame [.filt, .so, .dict] s t ∧
      t.dict = live ∧ filtButInput i s t ∧ raisedOnly [(engSrc (i / 16), 0x14, i)] s t ∧ t.cond i = s.cond i ∧
      t.gain i = { s.gain i with discarded := satAdd 32 (s.gain i).discarded 1 }) ∧
    ((s.gain i).eff < x → (s.gain i).next = none → completes (.gainTable i eff first count seq ws) s fun t =>
      Frame [.filt, .dict] s t ∧ t.dict = live ∧ filtButInput i s t ∧ t.cond i = s.cond i ∧
      t.gain i = { s.gain i with next := some n }) ∧
    ((s.gain i).eff < x → (s.gain i).next ≠ none → completes (.gainTable i eff first count seq ws) s fun t =>
      Frame [.filt, .so, .dict] s t ∧ t.dict = live ∧ filtButInput i s t ∧ raisedOnly [(engSrc (i / 16), 0x15, i)] s t ∧ t.cond i = s.cond i ∧
      t.gain i = { s.gain i with next := some n })) ∧
  (∀ (n : Nat) (x : BitVec 64) (dec : FrameDec), (s.eng (i / 16)).decFor x.toNat = some dec →
    x.toNat % s.inF x.toNat i = 0 → n < s.channels x.toNat i →
    (∃ u, (s.cond i).nextOut = some u ∧ x.toNat + s.inF x.toNat i ≤ u) →
    let owned := s.cfgAt x.toNat (ob 0x5000 0x13) ≤ n ∧
      n < s.cfgAt x.toNat (ob 0x5000 0x13) + s.cfgAt x.toNat (ob 0x5000 0x14)
    let g := s.gain i
    let a := 384 * s.rankIn (s.setAt x.toNat) + i
    let key := chanKey n a x.toNat
    completes (.channelSampleOut i n x) s fun t => Frame [.filt, .so, .mm] s t ∧
      t.mm = (cornerWrite n a x.toNat s).mm ∧ t.mm = { s.mm with stack := t.mm.stack } ∧ (a % 8 ≠ 7 → t.mm = s.mm) ∧
      (∀ k, k ≠ i.val → t.gain k = s.gain k) ∧ t.filt.cond = s.filt.cond ∧ t.filt.eng = s.filt.eng ∧
      (t.gain i).outFrame = some x.toNat ∧
      (∀ p, g.cut = some p → p ≤ x.toNat → (t.gain i).cut = none ∧
        (g.next = none → (t.gain i).gains = [] ∧ (t.gain i).eff = p ∧ (t.gain i).seq = 0) ∧
        (∀ w, g.next = some w → w.eff < p → (t.gain i).gains = [] ∧ (t.gain i).eff = p ∧ (t.gain i).seq = 0 ∧
          (t.gain i).next = none ∧ (t.gain i).discarded = satAdd 32 g.discarded 1)) ∧
      ((∀ p, g.cut = some p → x.toNat < p) → (t.gain i).cut = g.cut ∧ (t.gain i).discarded = g.discarded ∧
        (∀ w, g.next = some w → w.eff ≤ x.toNat → (t.gain i).eff = w.eff ∧ (t.gain i).seq = w.seq ∧ (t.gain i).next = none) ∧
        ((∀ w, g.next = some w → x.toNat < w.eff) →
          (t.gain i).gains = g.gains ∧ (t.gain i).eff = g.eff ∧ (t.gain i).seq = g.seq ∧ (t.gain i).next = g.next)) ∧
      (∀ k, k ≠ key → t.filt.words.get (fun _ => 0) k = s.filt.words.get (fun _ => 0) k) ∧
      (¬ owned → t.filt.words = s.filt.words) ∧
      (owned → s.frameValid i x.toNat dec = false → t.filt.words.get (fun _ => 0) key = marker (s.c8 x.toNat) + 1) ∧
      (owned → s.frameValid i x.toNat dec = true → ∃ re im : Int,
        re.natAbs ≤ (if s.c8 x.toNat then 127 else 7) ∧ im.natAbs ≤ (if s.c8 x.toNat then 127 else 7) ∧
        t.filt.words.get (fun _ => 0) key = sampleCode (s.c8 x.toNat) re im + 1))

/-- 05 R125, R134 to R138, Table 05.4: how an image, a ROM load, its completion and a processed window move a bank, and that an
active, fading or held bank refuses a load, as does plain_force (R150, log entry 180). A bank in LOADING takes the segments of its
image and no other load; the segments behind one that was not taken belong to its image and are passed over. A certified profile is
read from the enclave's store, where an error that no copy corrects makes it DAMAGED (17 R499). READY comes (S + 1)F after the frame
boundary at which the chain started (log entry 214). -/
def Obligations.BanksLoadWarmAndGetReady : Prop := ∀ (e : Fin 24) (b : Bool) (s : State),
  let v := s.eng e
  let k := v.bank b
  let put (k' : Bank) (cs : List (Nat × Nat × Nat)) (t : State) : Prop :=
    Frame [.filt, .dict, .so] s t ∧ filtButEngine e s t ∧ t.eng e = v.setBank b k' ∧ raisedOnly cs s t
  (s.loadRefused e b = (v.bankBusy b || s.cfg (ob 0x5000 0x16) == 1)) ∧
  (∀ seg last, k.skip = true → completes (.bankImage e b seg last) s (put { k with skip := !last } [])) ∧
  (∀ seg last, k.skip = false → k.st ≠ .loading → s.loadRefused e b = true →
    completes (.bankImage e b seg last) s (put { k with skip := !last } [(engSrc e, 0x0E, b2n b)])) ∧
  (∀ seg last, k.skip = false → k.st = .loading → k.loaded ≠ none → completes (.bankImage e b seg last) s
    (put { k with skip := !last } (if v.swapHeld b then [(engSrc e, 0x0E, b2n b)] else []))) ∧
  (∀ w : BitVec 16, bit 0 w.toNat = b → romCode (bits 15 8 w.toNat) = true →
    (s.loadRefused e b = true → exec (.bankLoadRom e ⟨w, .ok⟩) s = .next (raise (engSrc e) 0x0E (b2n b) s)) ∧
    (s.loadRefused e b = false → k.st = .loading → exec (.bankLoadRom e ⟨w, .ok⟩) s = .next s) ∧
    (0x80 ≤ bits 15 8 w.toNat → k.st ≠ .loading → s.loadRefused e b = false →
      s.encl.damaged.contains (ob (0x3010 + (bits 15 8 w.toNat - 0x80)) 1) = false →
      completes (.bankLoadRom e ⟨w, .uncorrectable⟩) s fun t => Frame [.filt, .dict, .so, .encl] s t ∧ filtButEngine e s t ∧
        t.eng e = v.setBank b { k with st := .empty, bytes := [], loaded := none } ∧
        t.encl = { s.encl with damaged := ob (0x3010 + (bits 15 8 w.toNat - 0x80)) 1 :: s.encl.damaged })) ∧
  (k.skip = false → (k.st = .loading ∧ k.loaded = none) ∨ (k.st ≠ .loading ∧ s.loadRefused e b = false) →
    let bytes (seg : List Byte) := if k.st = .loading then k.bytes ++ seg else seg
    let image (seg : List Byte) := checkImage (s.fftN lastSet) (s.decD lastSet) (s.engPmin lastSet e) false (bytes seg)
    (∀ seg, completes (.bankImage e b seg false) s (put { k with st := .loading, bytes := bytes seg, loaded := none } [])) ∧
    (∀ seg p, image seg = some p →
      completes (.bankImage e b seg true) s (put { k with st := .loading, bytes := [], loaded := some p } [])) ∧
    (∀ seg, image seg = none → completes (.bankImage e b seg true) s
      (put { k with st := .empty, bytes := [], loaded := none } [(engSrc e, 0x0F, b2n b)]))) ∧
  (k.st ≠ .loading → s.loadRefused e b = false → (∀ w : BitVec 16, bit 0 w.toNat = b →
      (bits 15 8 w.toNat = 1 → completes (.bankLoadRom e ⟨w, .ok⟩) s
        (put { k with st := .loading, bytes := [], loaded := some (plainProfile (s.fftN lastSet) (s.decD lastSet)) } [])) ∧
      (bits 15 8 w.toNat = 2 → completes (.bankLoadRom e ⟨w, .ok⟩) s
        (put { k with st := .loading, bytes := [], loaded := some (sharpProfile (s.fftN lastSet) (s.decD lastSet)) } [])) ∧
      (∀ p, romCode (bits 15 8 w.toNat) = true → s.romSource e (bits 15 8 w.toNat) = some p →
        completes (.bankLoadRom e ⟨w, .ok⟩) s (put { k with st := .loading, bytes := [], loaded := some p } [])) ∧
      (romCode (bits 15 8 w.toNat) = true → s.romSource e (bits 15 8 w.toNat) = none → completes (.bankLoadRom e ⟨w, .ok⟩) s
        (put { k with st := .empty, bytes := [], loaded := none } [(engSrc e, 0x0F, b2n b)])))) ∧
  (∀ p, k.st = .loading → k.loaded = some p → completes (.bankLoadComplete e b) s
    (put { st := .warming, prof := p, start := (s.dataPm / s.engF lastSet e + 1) * s.engF lastSet e } [])) ∧
  (k.st = .warming → k.start + (settle k.prof.coef.T (s.decD lastSet) + 1) * s.engF lastSet e ≤ s.dataPm + 8 →
    completes (.bankReady e b) s (put { k with st := .ready } []))

/-- 05 R139, R142, Table 05.5: a request holds, replaces, latches or drops on every engine its mask selects, and on no other. -/
def Obligations.SwapRequestsActOnTheSelectedEngines : Prop := ∀ (r : BitVec 128) (s : State),
  let w := r.toNat
  let q (e : Nat) := (roundUp (bits 63 0 w) (s.engF (bits 63 0 w) e), bits 91 88 w,
    match (s.eng e).lastFrame with
    | some x => decide (roundUp (bits 63 0 w) (s.engF (bits 63 0 w) e) ≤ x)
    | none => false)
  let outside (t : State) : Prop := Frame [.filt, .dict, .so] s t ∧ t.filt.cond = s.filt.cond ∧ t.filt.gain = s.filt.gain ∧
    t.filt.words = s.filt.words ∧ t.dict = { s.dict with blks := t.dict.blks } ∧
    (∀ e, e < 24 → bit (64 + e) w = false → t.eng e = s.eng e)
  (bit 96 w = false → bits 91 88 w ≤ 12 → completes (.swapRequest r) s fun t => outside t ∧
    raisedOnly ((List.range 24).filterMap fun e =>
      if bit (64 + e) w = true ∧ (if (s.eng e).fading then (s.eng e).latched.isSome else (s.eng e).pending.isSome) = true
      then some (engSrc e, 0x0C, b2n (!(s.eng e).active)) else none) s t ∧
    ∀ e, e < 24 → bit (64 + e) w = true → t.eng e =
      if (s.eng e).fading then
        (if (s.eng e).latched = none then { s.eng e with latched := some (q e) }
         else { s.eng e with latched := some (q e), swapsReplaced := satAdd 32 (s.eng e).swapsReplaced 1, reqReplaced := true })
      else if (s.eng e).pending = none then { s.eng e with pending := some (q e), fadeK := bits 91 88 w }
      else { s.eng e with pending := some (q e), fadeK := bits 91 88 w,
                          swapsReplaced := satAdd 32 (s.eng e).swapsReplaced 1, reqReplaced := true }) ∧
  completes (.swapCancel r) s (fun t => outside t ∧ t.so = s.so ∧
    ∀ e, e < 24 → bit (64 + e) w = true → t.eng e = { s.eng e with pending := none, latched := none }) ∧
  (bit 96 w = false → 12 < bits 91 88 w → exec (.swapRequest r) s = .next s)

/-- 05 R140, R142: the frame-start rows of Table 05.5 on a frame that has come, with no set to apply and nothing wrong in the
coefficient memory; every such frame is decided. A request made before the engine's first frame for a boundary that is past is late
too. The engine's block is RUNNING where it has an active set (02 R27). -/
def Obligations.FrameStartsApplySwapsAndEndFades : Prop :=
  ∀ (e : Fin 24) (x : BitVec 64) (addr : Nat) (s : State),
    let v := s.eng e
    let n := v.bank (!v.active)
    let f := s.engF x.toNat e
    let late (q : Nat × Nat × Bool) := q.2.2 || (v.lastFrame.isNone && decide (q.1 < x.toNat))
    x.toNat % f = 0 → x.toNat ≤ s.dataPm → (∀ y, v.lastFrame = some y → y < x.toNat) → s.dueSet (engSrc e) x.toNat = none →
    injFor (engSrc e) 2 s = none → (∀ p ∈ v.syncs, x.toNat < p) → (∀ r, v.recovery = some r → x.toNat < r.1) →
    completes (.channeliserFrameStart e x .ok .ok addr) s fun t =>
      let w := t.eng e
      Frame [.filt, .dict, .so] s t ∧ filtButEngine e (s.noteUnit (engSrc e) x.toNat) t ∧ w.lastFrame = some x.toNat ∧
      ((t.blk (engSrc e)).running = ((s.blk (engSrc e)).running || (s.blk (engSrc e)).activeValid)) ∧
      (∃ d, w.decs = ((x.toNat, d) :: v.decs).take 16 ∧ d.new = (w.bank w.active).prof) ∧
      w.syncs = v.syncs ∧ w.recovery = v.recovery ∧ w.swapsReplaced = v.swapsReplaced ∧
      (v.fading = false → v.pending = none → w.active = v.active ∧ w.a = v.a ∧ w.b = v.b ∧ w.fading = false ∧ t.so = s.so) ∧
      (∀ q, v.fading = false → v.pending = some q → x.toNat < q.1 →
        w.active = v.active ∧ w.a = v.a ∧ w.b = v.b ∧ w.pending = some q ∧ t.so = s.so) ∧
      (∀ q, v.fading = false → v.pending = some q → q.1 ≤ x.toNat → n.st = .ready →
        w.active = (!v.active) ∧ w.pending = none ∧ w.swapApplied = x.toNat ∧ w.reqReplaced = false ∧ w.late = late q ∧
        w.fading = decide (0 < q.2.1) ∧ w.fadeX = x.toNat ∧ w.fadeE = x.toNat + 2 ^ q.2.1 * f ∧
        w.bank (!v.active) = { n with st := .active } ∧
        w.bank v.active = { v.bank v.active with st := if 0 < q.2.1 then .fadingOut else .ready } ∧
        raisedOnly (if late q then [(engSrc e, 9, b2n (!v.active))] else []) s t) ∧
      (∀ q, v.fading = false → v.pending = some q → q.1 ≤ x.toNat → n.st = .warming →
        w.active = (!v.active) ∧ w.pending = none ∧ w.swapApplied = x.toNat ∧ w.cold = true ∧ w.fading = false ∧
        w.bank (!v.active) = { n with st := .active } ∧ w.bank v.active = { v.bank v.active with st := .ready } ∧
        raisedOnly ((if late q then [(engSrc e, 9, b2n (!v.active))] else []) ++ [(engSrc e, 0x0A, b2n (!v.active))]) s t) ∧
      (∀ q, v.fading = false → v.pending = some q → q.1 ≤ x.toNat → n.st = .empty ∨ n.st = .loading →
        w.active = v.active ∧ w.pending = none ∧ w.a = v.a ∧ w.b = v.b ∧
        raisedOnly [(engSrc e, 0x0B, b2n (!v.active))] s t) ∧
      (v.fading = true → x.toNat < v.fadeE → w.fading = true ∧ w.a = v.a ∧ w.b = v.b ∧ w.active = v.active ∧ t.so = s.so) ∧
      (v.fading = true → v.fadeE ≤ x.toNat → v.latched = none → w.fading = false ∧ w.active = v.active ∧
        w.bank (!v.active) = { n with st := .ready } ∧ w.bank v.active = v.bank v.active ∧ t.so = s.so) ∧
      (∀ q, v.fading = true → v.fadeE ≤ x.toNat → v.latched = some q → v.fadeE < q.1 →
        w.fading = false ∧ w.active = v.active ∧ w.pending = some q ∧ w.latched = none ∧ t.so = s.so)

/-- 05 R144, R145, R151, 04 R99: a synchronising reset is scheduled for every engine at its own boundary; at it the chains and
the inputs' filters restart, but for inputs whose samples from the boundary on came first, and a fade ends; a coefficient recovery puts Plain into the failed bank and restarts the chains. -/
def Obligations.SynchronisingResetsAndCoefficientRecovery : Prop := ∀ (s : State),
  (∀ p : BitVec 64, completes (.syncResetAt p) s fun t => Frame [.filt, .dict] s t ∧ t.filt.cond = s.filt.cond ∧
    t.filt.gain = s.filt.gain ∧ ∀ e, e < 24 →
      t.eng e = { s.eng e with syncs := (s.eng e).syncs ++ [roundUp p.toNat (s.engF p.toNat e)] }) ∧
  (∀ (e : Fin 24) (p : Nat), leastOf (s.eng e).syncs = some p → s.boundaryDue e p = true →
    (s.eng e).latched = none →
    completes (.syncResetApply e) s fun t => Frame [.filt, .dict] s t ∧ (∀ k, k ≠ e.val → t.eng k = s.eng k) ∧
      (t.eng e).fading = false ∧ (t.eng e).active = (s.eng e).active ∧ (t.eng e).pending = (s.eng e).pending ∧
      p ∉ (t.eng e).syncs ∧
      (∀ b, ((t.eng e).bank b).st ≠ .empty → ((t.eng e).bank b).st ≠ .loading → ((t.eng e).bank b).start = p) ∧
      (∀ b, ((t.eng e).bank b).st ≠ .ready ∧ ((t.eng e).bank b).st ≠ .fadingOut) ∧
      ∀ k, t.cond k = if k / 16 = e.val ∧ (s.cond k).syncAt < p then { s.cond k with syncAt := p, spreadFrom := some p } else s.cond k) ∧
  (∀ (e : Fin 24) (x : Nat) (b : Bool), (s.eng e).recovery = some (x, b) →
    s.boundaryDue e x = true →
    completes (.coefRecoveryRestart e) s fun t => Frame [.filt, .dict] s t ∧ filtButEngine e s t ∧
      (t.eng e).active = b ∧ (t.eng e).recovery = none ∧
      (t.eng e).bank b = { st := .active, prof := plainProfile (s.fftN x) (s.decD x), start := x } ∧
      ((t.eng e).bank (!b)).st ≠ .active)

/-! ### Relay torus (06) -/

/-- 06 R174, R175, R180, R181, Table 06.8: a control packet that no lane hears is not received, one with a bad CRC or CTYPE is counted
and reported, a repeated one is dropped, and HELLO, PING, PONG, the 1 ms timer, the lanes coming up and the time-outs move a port
through its states. What a port sends leaves at once, or waits while 16 packets have left within 10 µs or no lane carries it (log
entry 184); a PING then has the Postmark of its sending and a PONG its hold (log entry 28). A port that goes down loses what waits to
cross it. -/
def Obligations.RelayPortsFollowTheirTable : Prop := ∀ (p : Fin 4) (c : Ctl) (s : State),
  let v := s.port p
  let w := s.heard p c
  let r := s.relay.rank
  let rows := [Instr.hello p c, .ping p c, .pong p c, .coord p c, .barrierUp p c, .barrierDown p c, .bcast p c, .laneMove p c,
    .laneMoveAck p c]
  let only (v' : Port) (cs : List (Nat × Nat × Nat)) (t : State) : Prop :=
    Frame [.relay, .so] s t ∧ relayButPort p s t ∧ t.port p = v' ∧ raisedOnly cs s t
  let down (v' : Port) (t : State) : Prop :=
    Frame [.relay, .so] s t ∧ relayButPort p (dropTransit p s) t ∧ t.port p = v' ∧ raisedOnly [(portSrc p, 1, v.nRank)] s t
  let sends (v' : Port) (i : CtlItem) (t : State) : Prop :=
    Frame [.relay, .lanes, .outbox] s t ∧ relayButPort p s t ∧ ctlGoes p v' i s t
  let hello : CtlItem := ⟨1, Config.serialNumber, s.helloArg p, r, s.now⟩
  let ping : CtlItem := ⟨2, s.pm, 0, r, s.now⟩
  (s.ctlHeard p = false → ∀ k ∈ rows, exec k s = .next s) ∧
  (s.ctlHeard p = true → crc32 (ctlCovered c) ≠ c.crc.toNat ∨ c.ctype.toNat = 0 ∨ 9 < c.ctype.toNat →
    ∀ k ∈ rows, completes k s (only { v with ctlDropped := satAdd 32 v.ctlDropped 1 } [(portSrc p, 7, v.nRank)])) ∧
  (s.ctlHeard p = true → crc32 (ctlCovered c) = c.crc.toNat → 1 ≤ c.ctype.toNat → c.ctype.toNat ≤ 9 →
    ¬ (1 ≤ (c.cseq.toNat + 256 - v.rxSeq) % 256 ∧ (c.cseq.toNat + 256 - v.rxSeq) % 256 ≤ 127) →
    ∀ k ∈ rows, exec k s = .next s) ∧
  (v.st = .down → (goodCtl 1 p c s → completes (.hello p c) s (only w [])) ∧ (goodCtl 2 p c s → completes (.ping p c) s (only w [])) ∧
    (goodCtl 3 p c s → completes (.pong p c) s (only w []))) ∧
  (goodCtl 1 p c s →
    let nr := if c.arg0.toNat = v.neighbour then v.nRank else 255
    (v.st = .hello → c.arg1.toNat % 4 = oppPort p → c.arg1.toNat / 4 % 256 = s.helloArg p / 4 % 256 →
      completes (.hello p c) s
        (sends { w with lastHello := s.now, neighbour := c.arg0.toNat, miswired := false, nRank := nr } ping)) ∧
    (v.st = .hello → c.arg1.toNat % 4 ≠ oppPort p → completes (.hello p c) s fun t =>
      only { w with lastHello := s.now, miswired := true, nRank := nr } [(portSrc p, 2, nr)] t) ∧
    (v.st = .hello → c.arg1.toNat % 4 = oppPort p → c.arg1.toNat / 4 % 256 ≠ s.helloArg p / 4 % 256 →
      completes (.hello p c) s (only { w with lastHello := s.now, nRank := nr } [(portSrc p, 3, nr)])) ∧
    (v.st.linkedUp = true → c.arg0.toNat = v.neighbour → completes (.hello p c) s (only { w with lastHello := s.now } [])) ∧
    (v.st.linkedUp = true → c.arg0.toNat ≠ v.neighbour → completes (.hello p c) s
      (down { w with lastHello := s.now, st := .hello, exch := [], nRank := 255 }))) ∧
  (goodCtl 2 p c s → v.st ≠ .down → completes (.ping p c) s (sends w ⟨3, s.pm, 0, r, s.now⟩)) ∧
  (goodCtl 3 p c s →
    let rt : Int := (s.pm : Int) - v.pingAt - c.arg1.toNat
    let x : Port := { w with exch := ((rt, (c.arg0.toNat : Int) - v.pingAt - rt) :: v.exch).take 64 }
    let n := x.sums.1
    let tooLong := ((20 * n : Nat) : Int) < x.sums.2.1
    let far := 128 * n < x.sums.2.2.natAbs
    (v.st = .hello → ¬ tooLong → ¬ far → v.neighbour ≠ 0 →
      completes (.pong p c) s (only { x with st := .linked, tooLong := false } [])) ∧
    (v.st = .hello → ¬ tooLong → far ∨ v.neighbour = 0 → completes (.pong p c) s (only x [])) ∧
    (v.st = .hello → tooLong → completes (.pong p c) s (only { x with tooLong := true } [(portSrc p, 4, v.nRank)])) ∧
    (v.st.linkedUp = true → ¬ far → completes (.pong p c) s (only x [])) ∧
    (v.st.linkedUp = true → far → completes (.pong p c) s fun t => Frame [.relay, .so] s t ∧
      relayButPort p s t ∧ t.port p = x ∧ t.so = (raiseLim 250000000 (portSrc p) 13 0 v.nRank s).so)) ∧
  (v.st = .down → exec (.helloTimer p) s = .next s) ∧
  (v.st = .hello → completes (.helloTimer p) s (sends v hello)) ∧
  (v.st.linkedUp = true → completes (.helloTimer p) s fun t => Frame [.relay, .lanes, .outbox] s t ∧ relayButPort p s t ∧
    ∃ u, Frame [.relay, .lanes, .outbox] s u ∧ relayButPort p s u ∧ ctlGoes p v hello s u ∧ ctlGoes p (u.port p) ping u t) ∧
  (v.st = .down → s.cfg (ob 0x6100 3) = 1 → portUnused s.disc p = false → s.served p 0 = true → s.served p 1 = true →
    completes (.relayPortUp p) s (sends { v with st := .hello, lastHello := s.now, exch := [] } hello)) ∧
  (v.st ≠ .down → (s.unserved100 p 0 = true ∧ s.unserved100 p 1 = true) ∨ v.lastHello + ms 10 ≤ s.now →
    completes (.portDownTimeout p) s (down { v with st := .down, exch := [] }))

/-- 06 R182, R183: a round floods the map, the last one checks it; a valid map gives rank, coordinates and coordinator and
moves LINKED ports to MAPPED, an invalid one is reported and restarted after 1 s; COORD is checked and passed on once, as it
came. Discovery works with the shadow set's torus (log entry 181); while a valid map holds the rounds go on flooding it, and one that
no longer tells the torus is made anew (182). The
source of the map's Postcards is log entry 64, the way of COORD log entry 67. -/
def Obligations.TheMapElectsTheCoordinator : Prop := ∀ (s : State),
  let a := torA s.disc
  let b := torB s.disc
  let m := mergeEntry s.relay.map s.ownEntry
  let flood (m : List MapEntry) (p : Nat) : List SvcParcel :=
    (pieces (pMax (s.gen (portLane p 0)) / 40) 64 m).zipIdx.map fun q =>
      { type := 2, stamp := q.2, src := s.relay.rank, pseq := 0, payload := q.1.flatMap MapEntry.bytes }
  (a * b ≠ 1 → s.relay.mapBad = none → (∀ p ∈ s.usedPorts, (s.port p).st.linkedUp = true) →
    (s.relay.mapValid = false → s.relay.mapRound < a / 2 + b / 2 → completes .mapFloodRound s fun t => Frame [.relay] s t ∧
      t.relay = { s.relay with map := m, mapRound := s.relay.mapRound + 1, port := t.relay.port } ∧
      ∀ p, t.port p = if p ∈ s.usedPorts then { s.port p with service := (s.port p).service ++ flood m p } else s.port p) ∧
    (s.relay.mapValid = false → a / 2 + b / 2 ≤ s.relay.mapRound → mapOk a b m = false →
      completes .mapFloodRound s fun t => Frame [.relay, .so] s t ∧
      raisedOnly [(0x120, 3, 255)] s t ∧ t.relay = { s.relay with map := [], mapRound := 0, mapBad := some s.now }) ∧
    (∀ root, s.relay.mapValid = false → a / 2 + b / 2 ≤ s.relay.mapRound → mapOk a b m = true →
      leastOf (m.map MapEntry.serial) = some root →
      completes .mapFloodRound s fun t => Frame [.relay, .lanes, .outbox] s t ∧ t.relay.mapValid = true ∧
        t.relay.coordinator = root ∧ t.relay.map = m ∧ t.relay.diameter = a / 2 + b / 2 ∧
        (∀ x y, coordsOf a b m root Config.serialNumber = some (x, y) →
          t.relay.x = x ∧ t.relay.y = y ∧ t.relay.rank = x + a * y) ∧
        (∀ p, p < 4 → (t.port p).st = if (s.port p).st = .linked then .mapped else (s.port p).st) ∧
        (∀ p, p < 4 → (s.port p).st.linkedUp = true → (t.port p).nRank = neighbourRank a b m root (s.port p).neighbour) ∧
        (root ≠ Config.serialNumber → t.outbox = s.outbox ∧ t.lanes = s.lanes ∧ t.relay.coordSeen = s.relay.coordSeen)) ∧
    (s.relay.mapValid = true → s.mapHolds = true → completes .mapFloodRound s fun t => Frame [.relay] s t ∧
      t.relay = { s.relay with port := t.relay.port } ∧
      ∀ p, p < 4 → let v := s.port p
        t.port p = { v with
          st := if v.st = .linked then .mapped else v.st
          nRank := if v.st.linkedUp then neighbourRank a b s.relay.map s.relay.coordinator v.neighbour else v.nRank
          service := v.service ++ if p ∈ s.usedPorts then flood s.relay.map p else [] }) ∧
    (s.relay.mapValid = true → s.mapHolds = false → 0 < a / 2 + b / 2 → completes .mapFloodRound s fun t => Frame [.relay] s t ∧
      t.relay = { s.relay with mapValid := false, map := [s.ownEntry], mapRound := 1, coordSeen := false,
                               port := t.relay.port })) ∧
  (∀ x, s.relay.mapBad = some x → x + 250000000 ≤ s.now → completes .mapRestart s fun t => Frame [.relay] s t ∧
    t.relay = { s.relay with mapBad := none }) ∧
  (∀ (p : Fin 4) (c : Ctl), goodCtl 9 p c s → completes (.coord p c) s fun t => Frame [.relay, .so, .lanes, .outbox] s t ∧
    t.relay.coordSeen = true ∧
    (s.relay.mapValid = true ∧ c.arg0.toNat ≠ s.relay.coordinator →
      t.relay.rank = 255 ∧ t.relay.x = 255 ∧ t.relay.y = 255 ∧ raisedOnly [(portSrc p, 3, (s.port p).nRank)] s t) ∧
    (¬ (s.relay.mapValid = true ∧ c.arg0.toNat ≠ s.relay.coordinator) → t.relay.rank = s.relay.rank ∧ t.so = s.so) ∧
    (s.relay.coordSeen = true → t.outbox = s.outbox ∧ t.lanes = s.lanes) ∧
    (s.relay.coordSeen = false → ctlFans (s.usedPorts.filter fun q => q != p.val)
      ⟨9, c.arg0.toNat, c.arg1.toNat, c.origin.toNat, s.now⟩ (s.setPort p (s.heard p c)) t))

/-- 06 R177 to R179: a failed Relay lane asks for a spare where no move of its logical lane is under way, the far part accepts or refuses
the move, a refused one is tried again, and at SB the lane changes: a spare in SYNC runs from then on, one that has left SYNC as soon as
it is aligned (log entry 176). A lane that gives up its logical lane waits in SYNC (log entry 66). -/
def Obligations.RelayLanesMoveToTheirSpares : Prop := ∀ (p : Fin 4) (s : State),
  let v := s.port p
  let r := s.relay.rank
  let sb := roundUp (s.pm + us 50) 512
  let asks (l k : Nat) (u t : State) : Prop := relayButPort p s t ∧
    ctlGoes p { v with moves := ⟨l, k, sb, none⟩ :: v.moves.filter (fun m => m.l != l) } ⟨7, sb, l + 256 * k, r, s.now⟩ u t
  (∀ c : Ctl, goodCtl 7 p c s →
    let l := c.arg1.toNat % 256
    let k := c.arg1.toNat / 256 % 256
    let ok := s.pm + us 10 ≤ c.arg0.toNat ∧ l < 24 ∧ (k = 24 ∨ k = 25 ∨ k = l)
    (ok → completes (.laneMove p c) s fun t => Frame [.relay, .lanes, .outbox] s t ∧ relayButPort p s t ∧
      ctlGoes p { s.heard p c with txMoves := (l, k, c.arg0.toNat) :: v.txMoves.take 63 }
        ⟨8, c.arg0.toNat, c.arg1.toNat % 2 ^ 31 + 2 ^ 31, r, s.now⟩ s t) ∧
    (¬ ok → completes (.laneMove p c) s fun t => Frame [.relay, .lanes, .outbox] s t ∧ relayButPort p s t ∧
      ctlGoes p (s.heard p c) ⟨8, c.arg0.toNat, c.arg1.toNat % 2 ^ 31, r, s.now⟩ s t)) ∧
  (∀ c : Ctl, goodCtl 8 p c s → completes (.laneMoveAck p c) s fun t => Frame [.relay] s t ∧ relayButPort p s t ∧
    t.port p = { s.heard p c with moves := v.moves.map fun m =>
      if m.sb = c.arg0.toNat ∧ m.l = c.arg1.toNat % 256 ∧ m.phys = c.arg1.toNat / 256 % 256
      then { m with ack := some (bit 31 c.arg1.toNat) } else m }) ∧
  (∀ (l : Fin 24) (m : Move), v.moves.find? (fun m => m.l == l.val && m.ack == some false) = some m →
    completes (.laneMoveRetry p l) s fun t => Frame [.relay, .lanes, .outbox] s t ∧ asks l m.phys s t) ∧
  (∀ (l : Fin 24) (m : Move), v.moves.find? (fun m => m.l == l.val) = some m → m.sb ≤ s.pm → m.ack ≠ some false →
    m.phys < 26 → m.phys ≠ s.rxPhys p l →
    completes (.laneMoveSwitch p l) s fun t => Frame [.relay, .lanes, .so] s t ∧ relayButPort p s t ∧
      (t.port p).moves = v.moves.filter (fun x => x.l != l.val) ∧
      (m.phys = 24 → (t.port p).rx24 = some l.val) ∧ (m.phys = 25 → (t.port p).rx25 = some l.val) ∧
      (let a := s.lane (portLane p m.phys)
       t.lane (portLane p m.phys) =
         if a.rx = .sync then
           { a with rx := .running, resume := true, startPm := s.pm, leftAt := none, failed := false, crcTimes := [] }
         else if a.rx = .running then a else { a with resume := true }) ∧
      (let b := s.lane (portLane p (s.rxPhys p l))
       t.lane (portLane p (s.rxPhys p l)) =
         { b with rx := if b.rx = .running then .sync else b.rx, resume := false, leftAt := none }) ∧
      raisedOnly ((portSrc p, 8, v.nRank) :: if m.ack = none then [(portSrc p, 9, v.nRank)] else []) s t ∧
      (∀ n, n ≠ portLane p m.phys → n ≠ portLane p (s.rxPhys p l) → t.lane n = s.lane n)) ∧
  (∀ (n : Fin 222) (l : Fin 24), n.val = portLane p l → s.failDue n = true → s.rxPhys p l = l.val →
    let u := s.setLane n { s.lane n with failed := true, crcTimes := [] }
    let auto := s.cfg (ob 0x6100 6) = 1 ∧ v.moves.any (fun m => m.l == l.val) = false
    completes (.laneFailTimeout n) s fun t => Frame [.lanes, .relay, .so, .outbox] s t ∧ raisedOnly [(n.val, 0x0B, 0)] s t ∧
      (auto → s.relaySpareFree p 24 = true → asks l 24 u t) ∧
      (auto → s.relaySpareFree p 24 = false → s.relaySpareFree p 25 = true → asks l 25 u t) ∧
      (¬ auto ∨ (s.relaySpareFree p 24 = false ∧ s.relaySpareFree p 25 = false) →
        t.relay = s.relay ∧ t.outbox = s.outbox ∧ t.lanes = u.lanes)) ∧
  (∀ (n : Fin 222) (a : LaneArgs) (k l : Nat), n.val = portLane p k → (k = 24 ∧ v.rx24 = some l ∨ k = 25 ∧ v.rx25 = some l) →
    (s.lane (portLane p l)).rx = .sync → s.latched n = false → s.latched (portLane p l) = false →
    completes (.spareOut n a) s fun t => Frame [.relay, .lanes, .outbox] s t ∧ asks l l s t)

/-- 06 R162 to R164, R168 to R173, R177: a scheduled parcel leaves at its slot while its lane is free and carries the protocol (03 R68),
no earlier one waits and credits allow, and is held otherwise; across a port that is not SCHEDULED it is lost (R180). A stall is counted
after 2 µs, CRED is sent in place of an idle word and taken with its CHK, received parcels are counted by the first failed check and
free their credits, a late or incomplete one is lost, and a service parcel leaves once a slot. A parcel's failures, its credits and
the service parcels are log entries 62, 68, 69 and 185; which lanes carry the protocol is log entry 219. -/
def Obligations.ParcelsAndCredits : Prop := ∀ (p : Fin 4) (s : State),
  let v := s.port p
  let busy (n : Nat) : Nat := s.now + cdiv ((n + 40) * 400) (tickUnits (portGen s.active p))
  let held (l win : Nat) : Cred :=
    if (s.crd p l).heldSince = none then { s.crd p l with heldSince := some s.now, heldWin := win } else s.crd p l
  let leaves (l : Nat) (fields : List Nat) (pay : List Byte) (t : State) : Prop :=
    let k := s.txPhys p l
    let crc := crc32 (sentCovered fields pay)
    t.lanes = (moveWords (portLane p k)
      ((true, 0x1C) :: dataSyms (sentCovered fields pay ++ toBytes 4 crc) ++ List.replicate 4 (true, 0xF7)) s).lanes ∧
    t.outbox = (if s.lineOpen (portLane p k) then .parcel p k fields pay crc :: s.outbox else s.outbox)
  let spent (c : Cred) (n : Nat) : Cred :=
    { c with used := (c.used + creditNeed n) % 65536, heldSince := none, stalled := false, busy := busy n }
  (∀ (n : SlotName) (k : SlotPos), s.slotOf (s.rankIn (s.setAt n.x)) p n = some k →
    let start := slotStart (s.setAt n.x) p n.x k
    let c := s.crd p k.lane
    c.unsent start = true → start ≤ s.pm →
    (v.st ≠ .scheduled → exec (.parcelSend p n) s = .next (releaseTransit n s)) ∧
    (v.st = .scheduled → n.hop = 0 →
      let cut := (setCuts (s.setAt n.x) n.src n.dst).getD n.pseq (0, 0, 0, 0)
      let pay := (cutSamples (s.setAt n.x) n.src n.dst cut).flatMap fun c =>
        toBytes (setBytes (s.setAt n.x)) (s.chanWord c.1 c.2 n.x)
      let fields := slotHeader (s.setAt n.x) n false
      (s.laneReady p k.lane = false ∨ s.waitsFor p n k = true → exec (.parcelSend p n) s = .next s) ∧
      (s.laneReady p k.lane = true → s.waitsFor p n k = false → s.relay.transit.find? (fun t => t.name == n) = none →
        c.allows (creditNeed pay.length) = true → completes (.parcelSend p n) s fun t => Frame [.relay, .lanes, .outbox] s t ∧
        t.crd p k.lane = { spent c pay.length with last := some (n.x, start) } ∧
        t.port p = { v with sent := satAdd 64 v.sent 1 } ∧ (∀ q, q ≠ p.val → t.port q = s.port q) ∧
        leaves k.lane fields pay t) ∧
      (s.laneReady p k.lane = true → s.waitsFor p n k = false → c.allows (creditNeed pay.length) = false →
        completes (.parcelSend p n) s fun t => Frame [.relay] s t ∧ t.relay = { s.relay with cred := t.relay.cred } ∧
        t.crd p k.lane = held k.lane (relayWindow n.x (setF (s.setAt n.x)) n.hop))) ∧
    (∀ i : Transit, v.st = .scheduled → n.hop ≠ 0 → s.relay.transit.find? (fun t => t.name == n) = some i →
      s.laneReady p k.lane = true → s.waitsFor p n k = false →
      let pay := i.payload.getD []
      let fields := slotHeader (s.setAt n.x) n i.payload.isNone
      c.allows (creditNeed pay.length) = true → (i.inPort, i.inLane) ≠ (p.val, k.lane) → i.inLane < 32 → k.lane < 32 →
        completes (.parcelSend p n) s fun t => Frame [.relay, .lanes, .outbox] s t ∧
        t.relay.transit = s.relay.transit.filter (fun u => u.name != n) ∧
        t.crd i.inPort i.inLane =
          { s.crd i.inPort i.inLane with freed := ((s.crd i.inPort i.inLane).freed + i.credits) % 65536 } ∧
        t.crd p k.lane = { spent c pay.length with last := some (n.x, start) } ∧
        t.port p = { v with sent := satAdd 64 v.sent 1 } ∧ leaves k.lane fields pay t)) ∧
  (∀ (l : Fin 24) (since : Nat), (s.crd p l).heldSince = some since → (s.crd p l).stalled = false → since + 500 < s.now →
    completes (.creditStall p l) s fun t => Frame [.relay, .so] s t ∧ t.crd p l = { s.crd p l with stalled := true } ∧
      t.port p = { v with stalls := satAdd 32 v.stalls 1, stallWin := ((s.crd p l).heldWin :: v.stallWin).take 16 } ∧
      raisedOnly (if v.stallWin.contains (s.crd p l).heldWin then [] else [(portSrc p, 6, v.nRank)]) s t) ∧
  (∀ l : Fin 24, let n := portLane p (s.rxPhys p l)
    let c := (s.crd p l).freed
    let chk := c % 256 ^^^ c / 256 ^^^ 0xA5
    ((s.lane n).tx = .active ∧ s.idleNow p (s.rxPhys p l) = true → completes (.creditWordSend p l) s fun t =>
      Frame [.lanes, .outbox] s t ∧
      t.lanes = (moveWords n [(true, 0xDC), (false, c % 256), (false, c / 256), (false, chk)] s).lanes ∧
      t.outbox = if s.lineOpen n then .credit p l c chk :: s.outbox else s.outbox) ∧
    (¬ ((s.lane n).tx = .active ∧ s.idleNow p (s.rxPhys p l) = true) → exec (.creditWordSend p l) s = .next s)) ∧
  (∀ (l : Fin 24) (cred : BitVec 16) (chk : BitVec 8), completes (.creditWord p l cred chk) s fun t => Frame [.relay] s t ∧
    t.relay = { s.relay with cred := t.relay.cred } ∧ t.crd p l =
      if s.served p l = true ∧ chk.toNat = cred.toNat % 256 ^^^ cred.toNat / 256 ^^^ 0xA5 then { s.crd p l with cred := cred.toNat } else s.crd p l) ∧
  (∀ (l : Fin 24) (c : Parcel), s.served p l = true → injFor (portLane p (s.rxPhys p l)) 3 s = none →
    let n := portLane p (s.rxPhys p l)
    let fails := s.now :: (s.lane n).crcTimes.filter fun x => s.now < x + ms 1
    let freed := { s.crd p l with freed := ((s.crd p l).freed + creditNeed c.payload.length) % 65536 }
    (s.parcelVerdict p l c 0 = .symbol → completes (.parcelReceive p l c) s fun t => Frame [.relay, .lanes] s t ∧
      relayPortAndCredits p s t ∧ t.crd p l = freed ∧ t.port p = { v with crcErrors := satAdd 32 v.crcErrors 1 } ∧
      lanesBut n s t ∧ t.lane n = { s.lane n with codeErrors := satAdd 32 (s.lane n).codeErrors c.invalid,
                                                  dispErrors := satAdd 32 (s.lane n).dispErrors c.disparity }) ∧
    (s.parcelVerdict p l c 0 = .crc → (s.lane n).failed = true ∨ fails.length < s.cfg (ob 0x6100 5) →
      completes (.parcelReceive p l c) s fun t => Frame [.relay, .lanes] s t ∧ relayPortAndCredits p s t ∧ t.crd p l = freed ∧
      t.port p = { v with crcErrors := satAdd 32 v.crcErrors 1 } ∧ lanesBut n s t ∧
      t.lane n = { s.lane n with crcTimes := fails, lastCrc := some s.now }) ∧
    (s.parcelVerdict p l c 0 = .header → completes (.parcelReceive p l c) s fun t => Frame [.relay] s t ∧
      relayPortAndCredits p s t ∧ t.crd p l = freed ∧ t.port p = { v with crcErrors := satAdd 32 v.crcErrors 1 }) ∧
    (s.parcelVerdict p l c 0 = .late → completes (.parcelReceive p l c) s fun t => Frame [.relay] s t ∧
      relayPortAndCredits p s t ∧ t.crd p l = freed ∧ t.port p = { v with late := satAdd 32 v.late 1 }) ∧
    (∀ k q, s.parcelVerdict p l c 0 = .data k → bit 1 c.flags = false → c.dst ≠ s.rankIn (s.setAt c.stamp) →
      (setPath (s.setAt c.stamp) c.src c.dst)[c.hop + 1]? = some q → (s.port q.2).st = .scheduled →
      completes (.parcelReceive p l c) s fun t => Frame [.relay] s t ∧
      t.port p = { v with received := satAdd 64 v.received 1 } ∧ t.isDone p (parcelName c) = true ∧
      t.relay.transit = s.relay.transit ++
        [⟨{ parcelName c with hop := c.hop + 1 }, p, l, creditNeed c.payload.length, some c.payload⟩] ∧
      t.crd p l = s.crd p l) ∧
    (s.parcelVerdict p l c 0 = .service → c.type = 3 → s.relay.seen.contains (c.src, c.stamp, c.pseq) = true →
      completes (.parcelReceive p l c) s fun t => Frame [.relay] s t ∧ relayPortAndCredits p s t ∧ t.crd p l = freed ∧
      t.port p = v)) ∧
  (∀ (n : SlotName) (k : SlotPos) (q : Nat × Nat), s.rxSlot p n = some k →
    torA (s.setAt n.x) * torB (s.setAt n.x) ≠ 1 → s.relay.rank ≠ 255 →
    s.isDone p n = false → slotEnd (s.setAt n.x) p n.x k + 1024 < s.pm → n.dst ≠ s.rankIn (s.setAt n.x) →
    (setPath (s.setAt n.x) n.src n.dst)[n.hop + 1]? = some q → (s.port q.2).st = .scheduled →
    completes (.parcelDeadline p n) s fun t => Frame [.relay, .so] s t ∧ (t.port p).lost = satAdd 32 v.lost 1 ∧
      t.isDone p n = true ∧ (∀ q, q ≠ p.val → t.port q = s.port q) ∧
      t.relay.transit = s.relay.transit ++ [⟨{ n with hop := n.hop + 1 }, p, k.lane, 0, none⟩]) ∧
  (∀ (c : SvcParcel) (r : List SvcParcel), v.service = c :: r → s.serviceOpen p = true → s.laneReady p 0 = true →
    ((s.crd p 0).allows (creditNeed c.payload.length) = true →
      completes (.serviceSlot p) s fun t => Frame [.relay, .lanes, .outbox] s t ∧
      t.port p = { v with service := r, lastSlot := s.serviceSlot p, sent := satAdd 64 v.sent 1 } ∧
      (∀ q, q ≠ p.val → t.port q = s.port q) ∧ t.crd p 0 = spent (s.crd p 0) c.payload.length ∧
      leaves 0 (c.header (s.c8 lastSet)) c.payload t) ∧
    ((s.crd p 0).allows (creditNeed c.payload.length) = false →
      completes (.serviceSlot p) s fun t => Frame [.relay] s t ∧ t.relay = { s.relay with cred := t.relay.cred } ∧
      t.crd p 0 = held 0 (s.pm - s.pm % s.chipF s.pm))) ∧
  (∀ (src st : Nat) (c : ConfMsg), s.confOf src st = some c → c.start + ms 10 ≤ s.now →
    completes (.configMessageTimeout src st) s fun t => Frame [.relay, .so] s t ∧
      t.port c.port = { s.port c.port with lost := satAdd 32 (s.port c.port).lost 1 } ∧ t.confOf src st = none ∧
      (∀ q, q ≠ c.port → t.port q = s.port q) ∧ raisedOnly [(portSrc c.port, 5, (s.port c.port).nRank)] s t)

/-- 06 R186 to R188, 14 Table 14.10: votes go up the tree, the result goes down it and ends the local vote; a barrier that is not complete in
time fails; a part without a result 5 µs before P keeps its set; a global operation is broadcast and applied, or refused. A
global operation written while control service is interrupted waits (13 R385). A part whose checks still run holds a result until they
end. The time-out counts from the part's own vote (log entry 70); the Postcards' source and what a global operation does on arrival are
log entries 64 and 71. -/
def Obligations.BarriersAndGlobalOperations : Prop := ∀ (s : State),
  (∀ (p : Fin 4) (c : Ctl), goodCtl 4 p c s → s.rank ≠ 0 → completes (.barrierUp p c) s fun t =>
    Frame [.relay, .lanes, .outbox] s t ∧ (∃ b, t.relay.barrier = some b ∧
      b.number = (s.openBarrier (bits 47 32 c.arg0.toNat)).number ∧ b.vote = (s.openBarrier (bits 47 32 c.arg0.toNat)).vote ∧
      b.ups = (p.val, c.arg1.toNat % 2 == 1, c.arg0.toNat % 2 ^ 32) ::
        (s.openBarrier (bits 47 32 c.arg0.toNat)).ups.filter fun u => u.1 != p.val) ∧
    ((s.openBarrier (bits 47 32 c.arg0.toNat)).vote = none → t.outbox = s.outbox ∧ t.lanes = s.lanes)) ∧
  (∀ (p : Fin 4) (c : Ctl) (b : Barrier), goodCtl 5 p c s → s.relay.barrier = some b → b.number = bits 47 32 c.arg0.toNat →
    s.tt.barrier = b.number → s.tt.st = .voting → completes (.barrierDown p c) s fun t =>
      Frame [.relay, .lanes, .outbox, .dict, .so] s t ∧ t.relay.barrier = none ∧
      ctlFans s.children ⟨5, b.number * 2 ^ 32, b2n (bit 0 c.arg1.toNat), 0, s.now⟩ (s.setPort p (s.heard p c)) t ∧
      (bit 0 c.arg1.toNat = true → s.tt.dry = false → t.tt = { s.tt with
        st := .loading, result := 1, reject := 0, commitPm := s.tt.p, accepted := satAdd 32 s.tt.accepted 1 }) ∧
      (bit 0 c.arg1.toNat = true → s.tt.dry = true → t.tt = { s.tt with st := .idle, result := 1, reject := 0, cand := none }) ∧
      (bit 0 c.arg1.toNat = false → t.tt = { s.tt with
        st := .idle, result := 2, reject := if s.tt.own.1 = 0 then 2 else s.tt.own.1,
        detail := if s.tt.own.1 = 0 then 0xFFFFFFFF else s.tt.own.2, cand := none,
        rejected := satAdd 32 s.tt.rejected 1 })) ∧
  (∀ (p : Fin 4) (c : Ctl), goodCtl 5 p c s → s.tt.st = .checking → s.tt.system = true → s.tt.barrier = bits 47 32 c.arg0.toNat →
    completes (.barrierDown p c) s fun t => Frame [.relay, .lanes, .outbox, .dict] s t ∧
      t.tt = { s.tt with down := some (bit 0 c.arg1.toNat) } ∧
      ctlFans s.children ⟨5, s.tt.barrier * 2 ^ 32, b2n (bit 0 c.arg1.toNat), 0, s.now⟩ (s.setPort p (s.heard p c)) t) ∧
  (∀ b, s.relay.barrier = some b → s.rank = 0 → s.alone = false →
    (b.vote ≠ none ∧ b.start + ms (s.cfg (ob 0x6100 4)) ≤ s.now) ∨ s.tt.p ≤ s.pm + torD s.active * s.tHop + us 10 →
    completes .barrierTimeout s fun t => Frame [.relay, .lanes, .outbox, .dict, .so] s t ∧
      t.relay.barrier = none ∧ ctlFans s.children ⟨5, b.number * 2 ^ 32, 0, 0, s.now⟩ s t ∧ (s.tt.st = .voting → t.tt.st = .idle ∧ t.tt.result = 2)) ∧
  (s.tt.st = .voting → s.tt.p ≤ s.pm + us 5 → completes .commitVoteDeadline s fun t => Frame [.dict, .so] s t ∧
    raisedOnly [(0x120, 0xB, (s.port 0).nRank)] s t ∧
    t.tt = { s.tt with st := .idle, result := 3, cand := none, rejected := satAdd 32 s.tt.rejected 1 }) ∧
  (∀ (r : BitVec 128), s.dict.up = true → s.servesNow = false →
    let waits (op : Nat) : State := s.setDict { s.dict with waiting := s.dict.waiting ++ [.globalOp op r.toNat] }
    exec (.globalSnapshot r) s = .next (waits 1) ∧ exec (.globalSyncReset r) s = .next (waits 2) ∧
      exec (.globalCoefSwap r) s = .next (waits 3) ∧ exec (.globalStart r) s = .next (waits 4)) ∧
  (∀ (r : BitVec 128), s.dict.up = true → s.servesNow = true →
    let at_ := bits 63 0 r.toNat
    (s.globalInTime at_ = false → ∀ k ∈ [Instr.globalSnapshot r, .globalSyncReset r, .globalStart r],
      exec k s = .next (raise 0x120 0xC (s.port 0).nRank s)) ∧
    (s.globalInTime at_ = false → bits 71 68 r.toNat ≤ 12 →
      exec (.globalCoefSwap r) s = .next (raise 0x120 0xC (s.port 0).nRank s)) ∧
    (s.globalInTime at_ = true →
      let sent (op : Nat) := globalSend (withOp op r.toNat) at_ s
      (s.dict.snap.st ≠ 1 → completes (.globalSnapshot r) s fun t => t = { sent 1 with
        relay := { (sent 1).relay with lastGlobal := at_ },
        dict := { s.dict with snap := { st := 1, isGlobal := true, at_ := at_, left := allBlocks, vals := [] } } }) ∧
      (completes (.globalSyncReset r) s fun t => t.relay.lastGlobal = at_ ∧ t.outbox = (sent 2).outbox ∧
        ∀ e, e < 24 → (t.eng e).syncs =
          if bit (72 + e) r.toNat then (s.eng e).syncs ++ [roundUp at_ (s.engF at_ e)] else (s.eng e).syncs) ∧
      (bits 71 68 r.toNat ≤ 12 → completes (.globalCoefSwap r) s fun t => t.relay.lastGlobal = at_ ∧
        t.outbox = (sent 3).outbox ∧ ∀ e, e < 24 → bit (72 + e) r.toNat = false → t.eng e = s.eng e) ∧
      (s.startAnswer at_ = 0 → completes (.globalStart r) s fun t => t.relay.lastGlobal = at_ ∧ t.outbox = (sent 4).outbox ∧
        t.pwr = (startOp at_ s).pwr))) ∧
  (∀ (p : Fin 4) (c : Ctl), goodCtl 6 p c s → c.arg1.toNat % 16 = 2 → completes (.bcast p c) s fun t =>
    t.relay.lastGlobal = c.arg0.toNat ∧
    ctlFans (s.treeOut c.origin.toNat (some p.val)) ⟨6, c.arg0.toNat, c.arg1.toNat, c.origin.toNat, s.now⟩ (s.setPort p (s.heard p c)) t ∧
    ∀ e, e < 24 → (t.eng e).syncs = if bit (8 + e) c.arg1.toNat then
      (s.eng e).syncs ++ [roundUp c.arg0.toNat (s.engF c.arg0.toNat e)] else (s.eng e).syncs)

/-! ### Sets, stamps and blocks (02) -/

/-- 02 R28: the first unit stamped at or after a set's Postmark makes a block apply the set; APPLIED_PM is copied. A lane
whose quad's generation changes goes to ACQUIRE (03 R64), a Relay port goes DOWN and forgets the map or becomes SCHEDULED, a
stack runs with full buckets, a cluster with a new schedule restarts its generator, an engine whose N, D or reload changes
restarts with Plain, and one whose sample period changes warms its inactive bank again. A coefficient bank in LOADING stays there (log
entry 213); a generation change leaves RUNNING (log entry 42), and relay_enable 0 gives up the map (log entry 182). -/
def Obligations.ACommittedSetTakesEffectAtItsStamp : Prop := ∀ (n : BitVec 12) (x : BitVec 64) (s : State),
  let b := n.toNat
  (blockType b ≠ some 0x20 → s.dueSet b x.toNat = none → exec (.applyCommittedSet n x) s = .next s) ∧
  (∀ p old new k, s.dueSet b x.toNat = some (p, old, new, k) →
    let noted (t : State) : Prop := p ≤ x.toNat ∧ (p, new) ∈ s.dict.sets ∧ t.dict.sets = s.dict.sets ∧ (t.blk b).taken = k ∧
      (t.blk b).appliedPm = p ∧ (t.blk b).activeValid = true ∧ (t.blk b).running = true ∧
      ∀ m, m ≠ b → blockType m ≠ some 0x21 → t.blk m = s.blk m
    completes (.applyCommittedSet n x) s (fun t => noted t ∧
      Frame (touches (.applyCommittedSet n x)) s t) ∧
    (b < 222 → completes (.applyCommittedSet n x) s fun t => noted t ∧ Frame [.so, .lanes, .dict] s t ∧
      (setVal old (ob 0x4001 (quadSub b)) = setVal new (ob 0x4001 (quadSub b)) → Frame [.dict] s t) ∧
      (setVal old (ob 0x4001 (quadSub b)) ≠ setVal new (ob 0x4001 (quadSub b)) → 
        t.lane b = (s.lane b).regen (setVal old (ob 0x4001 (quadSub b))) s.lanes.since s.now ∧
        ((s.lane b).rx.listening = true → homeLeaves b s t ∧ raisedOnly (returnCards b s) s t) ∧
        ((s.lane b).rx.listening = false → lanesBut b s t ∧ t.so = s.so))) ∧
    (∀ q : Fin 4, b = 0x120 + q → setVal new (ob 0x6100 3) ≠ 0 → completes (.applyCommittedSet n x) s fun t => noted t ∧
      Frame [.relay, .dict] s t ∧ relayButPort q s t ∧ t.port q =
        if (s.port q).st = .mapped ∧ portUnused new q = false then { s.port q with st := .scheduled, from_ := p } else s.port q) ∧
    (∀ q : Fin 4, b = 0x120 + q → setVal new (ob 0x6100 3) = 0 → completes (.applyCommittedSet n x) s fun t => noted t ∧
      Frame [.relay, .dict] s t ∧ (∀ j, t.port j = if j = q.val then { s.port q with st := .down, service := [], ctlq := [] }
        else s.port j) ∧ t.relay.mapValid = false ∧ t.relay.map = [] ∧ t.relay.rank = 255) ∧
    (∀ q : Fin 4, b = 0x900 + q → (s.stk q).queue = [] → completes (.applyCommittedSet n x) s fun t => noted t ∧
      Frame [.mm, .dict] s t ∧ t.mm.mem = s.mm.mem ∧ t.mm.bad = s.mm.bad ∧ (∀ j, j ≠ q.val → t.stk j = s.stk j) ∧
      (t.stk q).st = if (s.stk q).st = .ready then .running else (s.stk q).st) ∧
    (∀ e : Fin 24, b = 0x100 + e → completes (.applyCommittedSet n x) s fun t => noted t ∧ Frame [.so, .filt, .dict] s t ∧
      (∀ j, j ≠ e.val → t.eng j = s.eng j) ∧ t.filt.words = s.filt.words ∧
      (setVal old (ob 0x5000 0x10) = setVal new (ob 0x5000 0x10) → setVal old (ob 0x5000 0x11) = setVal new (ob 0x5000 0x11) →
        (setVal new (ob 0x5000 0x16) ≠ 1 ∨ setVal old (ob 0x5000 0x16) ≠ 0) → t.so = s.so ∧ t.eng e =
          if ∃ j : Fin 4, setVal old (ob (0x4200 + 4 * e + j) 4) ≠ setVal new (ob (0x4200 + 4 * e + j) 4)
          then (s.eng e).rewarm p else s.eng e) ∧
      (setVal old (ob 0x5000 0x10) ≠ setVal new (ob 0x5000 0x10) → (t.eng e).a.st = .active ∧ (t.eng e).active = false ∧
        (t.eng e).b.st = .warming ∧ (t.eng e).pending = none ∧ (t.eng e).a.prof.coef =
          .rom false (setVal new (ob 0x5000 0x10)) (setVal new (ob 0x5000 0x11)))) ∧
    (∀ k' : Fin 96, b = 0x140 + k' → (s.dueSet (cellSrc k' 0) x.toNat).isSome = true → completes (.applyCommittedSet n x) s fun t =>
      (t.blk (cellSrc k' 0)).taken = k ∧ Frame [.so, .fab, .dict] s t ∧ ∀ j, (t.cl j).gen =
        if j = k'.val ∧ startsAnew old new = true ∧ s.fab.start.isSome = true
        then some (rngSeed (setVal new (ob 0x7100 6)) k') else (s.cl j).gen))

/-- 02 R45, Table 02.10: the stamp expected is the last one plus the unit's length. A unit at it is taken; a later one is taken
after a gap of not-valid samples; an earlier one is taken in part or, more than a unit early, discarded; all but the first raise
a Postcard (assumption 24 names the kind). 02 R44, 04 R103, 05 R133: at a block's end, once, the counts of that block stand in their
status and start anew; a count is of the units stamped in the block, so it is complete with the first unit after it or a block
later (log entry 178). That the boundary is a command of its own and acts once is the model's choice (assumption 60), as are the units that
a block checks (126), what a gap stands for in each block (197) and a discarded unit's stamp (175). -/
def Obligations.StampsAreCheckedAndBlockBoundariesCloseTheCounts : Prop :=
  (∀ (n : BitVec 12) (x : BitVec 64) (len : Nat) (s : State),
   let b := n.toNat
   let t0 := x.toNat
   let u := s.noteUnit b t0
   let gap (e i : Nat) : Chunk := .gap e (s.cfgAt t0 (ob (0x4200 + i / 4) 4)) (s.cplxIn t0 i) (s.lane (s.serving (i / 4))).startPm
     ((t0 - e) / max 1 (s.cfgAt t0 (ob (0x4200 + i / 4) 4)))
   let go (t : State) : Prop := completes (.unitArrival n x len) s (· = t)
   (blockType b = none → go s) ∧
   (blockType b ≠ none → s.expectedAt b = none ∨ s.expectedAt b = some t0 → go (setExpected b (t0 + len) u)) ∧
   (∀ e, blockType b ≠ none → s.expectedAt b = some e → e < t0 → completes (.unitArrival n x len) s fun t =>
     Frame [.so, .lanes, .dict] s t ∧ t.so = (raise b (gapKind b) 0 s).so ∧ t.expectedAt b = some (t0 + len) ∧
     (t.blk b).running = ((s.blk b).running || (s.blk b).activeValid) ∧
     (100 ≤ b → blockType b ≠ some 0x10 → Frame [.so, .dict] s t) ∧
     (∀ lg i, b < 100 → s.servedBy b = some lg → t.ingestQ i =
       if i / 4 = lg then s.ingestQ i ++ [gap e i] else s.ingestQ i) ∧
     (∀ k i, blockType b = some 0x10 → b = 0x100 + k → t.ingestQ i =
       if i / 16 = k then s.ingestQ i ++ [gap e i] else s.ingestQ i)) ∧
   (∀ e, blockType b ≠ none → s.expectedAt b = some e → t0 < e → e ≤ t0 + len →
     go (setExpected b (max e (t0 + len)) (raise b (gapKind b) 0 u))) ∧
   (∀ e, blockType b ≠ none → s.expectedAt b = some e → t0 + len < e → go (raise b (gapKind b) 0 u))) ∧
  (∀ (x : BitVec 64) (s : State),
   let at_ := x.toNat
   ((at_ ≤ s.filt.lastBlock ∨ s.pm < at_) → completes (.timeBlockBoundary x) s (· = s)) ∧
   (s.filt.lastBlock < at_ → at_ ≤ s.pm → completes (.timeBlockBoundary x) s fun t =>
     Frame [.so, .filt, .fab, .out] s t ∧ t.filt.lastBlock = at_ ∧ t.filt.words = s.filt.words ∧ t.filt.eng = s.filt.eng ∧
     (∀ i, i < 384 → let q := s.cond i
       let g := s.gain i
       let c := at_ - 8192 * s.inF at_ i
       let tb := 8192 * s.inF c i
       let e := (c / tb + 1) * tb
       if at_ % (8192 * s.inF at_ i) = 0 ∧ 8192 * s.inF at_ i ≤ at_ then
         let near (last : Option Nat) : Bool := match last with | some d => decide (e ≤ d + 2 * tb) | none => false
         let new (last : Option Nat) : Bool := match last with | some d => decide (d < c) | none => true
         t.cond i = (if q.spikeEnd ≠ e ∧ new q.done = true then { q with
           spikeEnd := e, spikesRun := 0, spikesBlock := if near q.done then q.spikesRun else 0 } else q) ∧
         t.gain i = (if g.satEnd ≠ e ∧ new g.outFrame = true then { g with
           satEnd := e, satRun := 0, satBlock := if near g.outFrame then g.satRun else 0 } else g)
       else t.cond i = q ∧ t.gain i = g) ∧
     (at_ % s.tb at_ = 0 → t.fab.beamSatBlock = s.fab.beamSatRun ∧ t.fab.beamSatRun = 0 ∧
       ∀ k, k < 96 → (t.cl k).beamCut = (s.cl k).beamCutRun ∧ (t.cl k).beamCutRun = false) ∧
     (at_ % s.tb at_ ≠ 0 → Frame [.so, .filt] s t)))

/-! ### Timetable and snapshot (14) -/

/-- 14 R408, R409, R414, Table 14.10: an accepted request takes k and copies the shadow set into the candidate; it is BUSY
unless IDLE, and a SYSTEM request needs the coordinator, which opens a barrier; a part that is not IDLE votes 0 on a proposal
with PART_BUSY
(assumption 140). While control service is interrupted a request waits (13 R385). -/
def Obligations.CommitRequestsTakeACandidate : Prop := ∀ (x : BitVec 64) (sys dry : Bool) (s : State),
  s.dict.up = true →
  let waits (w : Waiting) : Host.Outcome State Fault Refusal := .next (s.setDict { s.dict with waiting := s.dict.waiting ++ [w] })
  (s.servesNow = false → exec (.commitRequest x) s = waits (.commit x.toNat false false) ∧
    exec (.dryRun x sys) s = waits (.commit x.toNat sys true) ∧ exec (.systemCommit x dry) s = waits (.commit x.toNat true dry) ∧
    ∀ (n : BitVec 16) (crc : BitVec 32),
      exec (.commitProposal x n dry crc) s = waits (.proposal x.toNat n.toNat dry crc.toNat)) ∧
  (s.servesNow = true → injFor 0xA50 1 s = none →
  let taken (system dry : Bool) : Timetable :=
    { s.tt with st := .checking, dry := dry, system := system, number := s.tt.seq, seq := (s.tt.seq + 1) % 2 ^ 32,
                cand := some s.dict.shadow, at_ := x.toNat, p := roundUp x.toNat (setTB s.dict.shadow), startAt := s.now,
                proposal := false,
                own := (0, 0), down := none }
  let here (v : Timetable) (t : State) : Prop :=
    t.tt = v ∧ t.dict.shadow = s.dict.shadow ∧ t.dict.sets = s.dict.sets ∧ t.dict.blks = s.dict.blks
  let next := (s.relay.barrierNo + 1) % 65536
  let alone (k : Instr) (system dry : Bool) : Prop := completes k s fun t => Frame [.dict] s t ∧ here (taken system dry) t
  let several (k : Instr) (dry : Bool) : Prop := completes k s fun t => Frame [.relay, .dict] s t ∧
    here { taken true dry with barrier := next } t ∧ t.relay.barrierNo = next ∧ t.relay.confNo = s.relay.confNo + 1 ∧
    t.relay.barrier = some { number := next, start := s.now }
  (s.tt.st = .idle → alone (.commitRequest x) false false ∧ alone (.dryRun x false) false true) ∧
  (s.tt.st = .idle → s.alone = true → alone (.dryRun x true) true true ∧ alone (.systemCommit x dry) true dry) ∧
  (s.tt.st = .idle → s.alone = false → s.isCoordinator = true → s.confRoom (proposalBytes 0 0 false 0) = true →
    several (.dryRun x true) true ∧ several (.systemCommit x dry) dry) ∧
  (s.tt.st ≠ .idle → ∀ k ∈ [Instr.commitRequest x, .dryRun x sys, .systemCommit x dry], exec k s = .next s) ∧
  (s.isCoordinator = false → exec (.dryRun x true) s = .next s ∧ exec (.systemCommit x dry) s = .next s) ∧
  (∀ (n : BitVec 16) (crc : BitVec 32),
    (s.tt.st = .idle → completes (.commitProposal x n dry crc) s fun t => Frame [.dict] s t ∧
      here { taken true dry with p := x.toNat, proposal := true, barrier := n.toNat, propCrc := crc.toNat } t) ∧
    (s.tt.st ≠ .idle → completes (.commitProposal x n dry crc) s fun t => Frame [.relay, .lanes, .outbox, .dict] s t ∧
      t.dict = { s.dict with tt := { s.tt with reject := 4, detail := 0xFFFFFFFF } } ∧
      ∃ b, t.relay.barrier = some b ∧ b.number = n.toNat ∧ b.vote = some false)))

/-- 14 R410, R411, Table 14.10: the checks end in a rejection with the first failing code and its block, in an acceptance or in a
vote, or end with a result that came while they ran (06 R188); an accepted set has passed every check of R411; a loaded set stands in
the shadow windows (02 R24) and is PENDING until the counter reaches P. Checks and loading are the service's work and rest while it is
interrupted (13 R385). Which blocks take a set at the latch is assumption 60's, the order of the last check 121's. -/
def Obligations.CommitsAreCheckedLoadedAndLatched : Prop := ∀ (s : State),
  let m := s.tt.cand.getD []
  let f := s.commitFault m (s.newPlace m)
  let v : Timetable := { s.tt with place := s.newPlace m, checkTime := min ((s.now - s.tt.startAt + 125) / 250) (2 ^ 32 - 1) }
  let done (w : Timetable) (cs : List (Nat × Nat × Nat)) (t : State) : Prop :=
    Frame [.so, .dict] s t ∧ t.tt = w ∧ t.dict = { s.dict with tt := w } ∧ raisedOnly cs s t
  (s.ctrl.pair.serves = false → exec (.commitChecksDone []) s = .next s ∧ exec .commitLoaded s = .next s) ∧
  (s.ctrl.pair.serves = true → s.tt.st = .checking →
    (s.multi = false → f.1 ≠ 0 → completes (.commitChecksDone []) s
      (done { v with st := .idle, result := 2, reject := f.1, detail := f.2, cand := none, rejected := satAdd 32 s.tt.rejected 1 }
        [(0x940, 2, s.tt.number % 2 ^ 32)])) ∧
    (s.multi = false → f.1 = 0 → s.tt.dry = true →
      completes (.commitChecksDone []) s (done { v with st := .idle, result := 1, reject := 0, cand := none } [])) ∧
    (s.multi = false → f.1 = 0 → s.tt.dry = false → completes (.commitChecksDone []) s
      (done { v with st := .loading, result := 1, reject := 0, commitPm := s.tt.p, accepted := satAdd 32 s.tt.accepted 1 } [])) ∧
    (∀ r, s.multi = true → s.tt.down = some r → completes (.commitChecksDone []) s fun t => Frame [.so, .dict] s t ∧
      (r = false → t.tt.st = .idle ∧ t.tt.result = 2 ∧ t.tt.reject = if f.1 = 0 then 2 else f.1) ∧
      (r = true → t.tt.result = 1 ∧ t.tt.st = if s.tt.dry then .idle else .loading)) ∧
    (s.multi = true → s.tt.down = none → s.rank ≠ 0 → completes (.commitChecksDone []) s fun t =>
      Frame [.relay, .lanes, .dict, .outbox] s t ∧
      t.tt = { v with st := .voting, own := f, reject := f.1, detail := if f.1 = 0 then s.tt.detail else f.2 } ∧
      ∃ b, t.relay.barrier = some b ∧ b.number = s.tt.barrier ∧ b.vote = some (f.1 == 0) ∧ b.crc = commonCrc m) ∧
    (f.1 = 0 → (∀ x ∈ s.dict.marked, x.2 < 2) ∧ (∀ n ∈ allBlocks, s.dict.sets.length - (s.blk n).taken < 4) ∧
      genSplit m = none ∧ s.genRunning m = none ∧ s.laneUnfit m = none ∧ s.tapsUnfit m = none ∧ complexBad m = false ∧
      channelsBad m = false ∧ s.filterLate m = false ∧ delayUnfit m = none ∧ s.topologyBad m = false ∧
      setVal m (ob 0x5000 0x14) % setM m = 0 ∧ s.relayGen m = none ∧ s.portNotReady m = none ∧ s.relayLoad m = none ∧
      relayPack m = none ∧ s.relayBuffer m = none ∧ torD m * (setF m + 1024) + 511 ≤ 250000 ∧
      fabricCheck m s.unserved (setChans m) (biasInUser m (s.newPlace m)) = 0 ∧ s.dramFault m (s.newPlace m) = 0 ∧
      s.outUnserved = none ∧ outVolume m ≤ outCapacity m ∧ beamOutBad m = false ∧
      s.pm + 2500000 + cdiv (torD m * s.tHopNs + 10000) 4 ≤ s.tt.p ∧ (s.tt.proposal = true → s.tt.propCrc = commonCrc m))) ∧
  (s.ctrl.pair.serves = true → s.tt.st = .loading → completes .commitLoaded s
    (· = { s with dict := { s.dict with loaded := m, tt := { s.tt with st := .pending } } })) ∧
  (s.tt.st = .pending → s.tt.p ≤ s.pm →
    (∀ n ∈ allBlocks, (s.blk n).taken ≤ s.dict.sets.length) → completes .commitLatch s fun t =>
      Frame (touches .commitLatch) s t ∧
      t.tt = { s.tt with st := .idle, cand := none } ∧ t.dict.sets = s.dict.sets ++ [(s.tt.p, m)] ∧ t.active = m ∧
      ((∀ q : Fin 4, (s.stk q).queue = []) → t.mm.mem = s.mm.mem) ∧
      t.acc = { s.acc with starts := if s.fab.start.isSome && startsAnew s.active m then s.acc.starts ++ [s.tt.p] else s.acc.starts } ∧
      (∀ n ∈ allBlocks, (latchSets s).dataDriven n = true → t.blk n = s.blk n) ∧
      (∀ n ∈ allBlocks, (latchSets s).dataDriven n = false → (t.blk n).appliedPm = s.tt.p ∧
        (t.blk n).taken = s.dict.sets.length + 1 ∧ (t.blk n).activeValid = true) ∧
      ∃ u : State, (u.so.waiting.filter fun c => c.src == 0x940) = (s.so.waiting.filter fun c => c.src == 0x940) ∧
        t.so = (raise 0x940 1 (s.tt.number % 2 ^ 32) u).so)

/-- 14 R418, R419, R425: a snapshot request in time discards the last snapshot and waits for every block, a late one raises
SNAPSHOT_LATE, one under way keeps going; a block copies its ro objects once at its snapshot point (with the counter, or with its first
unit stamped at or after AT; one whose data stopped is assumption 230's), after a latch that is due by AT (15 R447) and a set that a
unit stamped AT makes it apply, and with none left the snapshot is COMPLETE. What is read at that instant is assumption 123's. -/
def Obligations.SnapshotsCopyEveryBlockOnce : Prop := ∀ (s : State),
  (∀ x : BitVec 64, s.dict.up = true → s.servesNow = false →
    exec (.snapshotAt x) s = .next (s.setDict { s.dict with waiting := s.dict.waiting ++ [.snapshot x.toNat] })) ∧
  (∀ x : BitVec 64, s.dict.up = true → s.servesNow = true →
    (x.toNat < s.pm → exec (.snapshotAt x) s = .next (raise 0xA50 3 (0x2000 + 65536 * 0x10) s)) ∧
    (s.pm ≤ x.toNat → s.dict.snap.st = 1 → exec (.snapshotAt x) s = .next s) ∧
    (s.pm ≤ x.toNat → s.dict.snap.st ≠ 1 → completes (.snapshotAt x) s (· = { s with dict :=
      { s.dict with snap := { st := 1, isGlobal := false, at_ := x.toNat, left := allBlocks, vals := [] } } }))) ∧
  (∀ n, copiesWithData n = false → s.snapPoint n = decide (s.dict.snap.at_ ≤ s.pm)) ∧
  (∀ n, copiesWithData n = true → s.dataDriven n = true → (s.blk n).running = true → s.pm < s.dict.snap.at_ + s.tb s.dict.snap.at_ →
    s.fab.win = none → s.snapPoint n = decide (s.dict.snap.at_ ≤ (s.blk n).reached)) ∧
  (∀ n : BitVec 12, s.dict.snap.st = 1 → s.snapPoint n.toNat = true → n.toNat ∈ s.dict.snap.left →
    let v := beforeCopy n.toNat s
    (¬ (s.tt.st = .pending ∧ s.tt.p ≤ s.pm ∧ s.tt.p ≤ s.dict.snap.at_) →
      (∀ ty, blockType n.toNat = some ty → ty ∉ [0x10, 0x11, 0x20, 0x21]) ∨ s.dueSet n.toNat s.dict.snap.at_ = none → v = s) ∧
    completes (.snapshotCapture n) s fun t => Frame [.dict, .fresh] v t ∧ t.dict = { v.dict with snap := t.dict.snap } ∧
      t.dict.snap.st = v.dict.snap.st ∧ t.dict.snap.at_ = v.dict.snap.at_ ∧ n.toNat ∉ t.dict.snap.left ∧
      (∀ b, b ≠ n.toNat → (b ∈ t.dict.snap.left ↔ b ∈ v.dict.snap.left)) ∧
      (∀ k ∈ roObjects n.toNat, ∃ u : State,
        Frame [.dict, .fresh] v u ∧ u.dict = { v.dict with snap := { v.dict.snap with vals := u.dict.snap.vals } } ∧
        t.dict.snap.vals.get (fun _ => []) (ob k.1 k.2) = (roValue k.1 k.2 u).1) ∧
      (∀ o, (∀ k ∈ roObjects n.toNat, ob k.1 k.2 ≠ o) →
        t.dict.snap.vals.get (fun _ => []) o = v.dict.snap.vals.get (fun _ => []) o)) ∧
  (∀ n : BitVec 12, n.toNat ∉ s.dict.snap.left ∨ s.snapPoint n.toNat = false ∨ s.dict.snap.st ≠ 1 →
    exec (.snapshotCapture n) s = .next s) ∧
  (s.dict.snap.st = 1 → s.dict.snap.left = [] →
    completes .snapshotComplete s (· = { s with dict := { s.dict with snap := { s.dict.snap with st := 2 } } }))

/-! ### Fabric (07, 08) -/

/-- 07 R202, R203, R210, 08 R233, 16 R479: a window opens 500,000 ticks after the block that follows its own, its passes the channels
that dump first; at its end what has not run is withdrawn by notices, and every cluster with unrun work raises WINDOW_OVERRUN and sets
its OVERRUN bit. Channels left out are folded nowhere; the schedule that leaves them out is worked out anew where an unserved position is
served again, with a new set, and at START (16 R480; log 87, 221). -/
def Obligations.WindowsOpenAndCloseAtTheirTicks : Prop := ∀ (s : State),
  (∀ x : BitVec 64,
    let x0 := x.toNat
    let m := s.setAt x0
    let fab :=
      if (s.fab.removed.any fun p => !s.unserved.contains p) ∨
          ((s.fab.start = some x0 ∨ s.setAt (natSub x0 1) ≠ m) ∧ s.fab.removed ≠ []) then
        if s.unserved = [] then { s.fab with removed := [], dropped := 0, beamsOff := false, newSched := none }
        else { s.fab with removed := s.unserved, dropped := (s.reduced m).2.1, beamsOff := (s.reduced m).2.2, newSched := none }
      else s.fab
    let cs := List.range (setChans m - fab.dropped)
    let n := setN m
    let b := x0 / setTB m
    (s.fab.win.isSome = true ∨ s.fab.start = none ∨ (∃ b0, s.fab.start = some b0 ∧ x0 < b0) ∨ x0 % setTB m ≠ 0 ∨
      s.dataPm < x0 + setTB m + 500000 → exec (.fabricWindowStart x) s = .next s) ∧
    (∀ b0, s.fab.start = some b0 → b0 ≤ x0 → x0 % setTB m = 0 → x0 + setTB m + 500000 ≤ s.dataPm → s.fab.win = none →
      completes (.fabricWindowStart x) s fun t => Frame [.fab, .acc] s t ∧
        t.fab = { fab with pos := [],
                           win := some ⟨b, x0, cs.filter (fun c => b % n == c % n) ++ cs.filter fun c => b % n != c % n⟩ } ∧
        t.acc = { s.acc with noFold := t.acc.noFold } ∧
        (∀ c i, (c, i) ∈ t.acc.noFold ↔ (c, i) ∈ s.acc.noFold ∨
          (c < setChans m ∧ setChans m - fab.dropped ≤ c ∧ i = s.intAt m c x0)))) ∧
  (s.fab.win = none → exec .fabricWindowEnd s = .next s) ∧
  (∀ w, s.fab.win = some w →
    let m := s.winSet w
    let left (k : Nat) : List Notice := (List.range 16).flatMap fun p => if isBeam m k p then [] else leftOver s w m k p false
    let unrun := (List.range 96).filter fun k => !(left k).isEmpty
    (s.dataPm < w.x0 + 2 * setTB m + 500000 → exec .fabricWindowEnd s = .next s) ∧
    (w.x0 + 2 * setTB m + 500000 ≤ s.dataPm → completes .fabricWindowEnd s fun t => Frame (touches .fabricWindowEnd) s t ∧
      t.fab = dropStaging w.block { s.fab with
        cl := t.fab.cl, win := none, pos := [], passBase := s.fab.passBase + w.chans.length,
        overruns := if unrun = [] then s.fab.overruns else satAdd 32 s.fab.overruns 1,
        notices := s.fab.notices ++ (List.range 96).flatMap fun k => (s.cl k).wd ++ left k } ∧
      (∀ k, k < 96 → t.cl k = { s.cl k with
        wd := [], overrun := decide (k ∈ unrun), late := (s.cl k).lateRun, lateRun := false,
        seenBad := (s.cl k).seenBad.filter fun e => decide (w.block < e.2.1) }) ∧
      (∀ k, 96 ≤ k → t.cl k = s.cl k) ∧
      (∀ e, e ∈ t.fab.loaded ↔ e ∈ s.fab.loaded ∧ e.2.1 ≠ w.block) ∧
      (s.dueSet 0x910 w.x0 = none → s.acc.due = none → (∀ c, c < setChans m → (∀ tl b, s.book c tl = some b → s.intAt m c w.x0 ≤ b.int) ∧
          ∀ d, s.dumpOf c = some d → s.intAt m c w.x0 ≤ d.p0) →
        raisedOnly (unrun.map fun k => (clSrc k, 3, 0xFFFF)) s t)))

/-- 07 R199 to R201, 08 R232: a tile-sum component is the sum of the products while that stays in its range, and never leaves the
range; a marker adds nothing; the count is that of the pairs with both valid. -/
def Obligations.TileSumsAddTheProducts : Prop := ∀ (a b : List Smp), a.length = b.length →
  let r := pairSum a b ((0, false), (0, false), 0)
  let re : List Int := List.zipWith (fun (x y : Smp) => x.1 * y.1 + x.2.1 * y.2.1) a b
  let im : List Int := List.zipWith (fun (x y : Smp) => x.2.1 * y.1 - x.1 * y.2.1) a b
  (r.1.1.natAbs ≤ 8388607 ∧ r.2.1.1.natAbs ≤ 8388607) ∧
  ((∀ n, ((re.take n).sum).natAbs ≤ 8388607) → r.1 = (re.sum, false)) ∧
  ((∀ n, ((im.take n).sum).natAbs ≤ 8388607) → r.2.1 = (im.sum, false)) ∧
  r.2.2 = ((a.zip b).filter fun q => q.1.2.2.1 && q.2.2.2.1).length ∧
  ((∀ x ∈ a, x = markerSmp) → r = ((0, false), (0, false), 0)) ∧
  ((pairSum a a ((0, false), (0, false), 0)).2.1 = (0, false))

/-- 07 R199, R206, R207, 08 R232, R233, 09 R266: a segment end makes one fold with the tile's sums over the segment, in the cluster's queue
or, once nothing holds it, among the released ones; a position under withdrawal makes a withdrawn run of it. A position that stalls,
has nothing left or is ahead of the strip that the fabric works closes none. u is the state with the runs of unserved positions
spread as their strip starts (16 R478). -/
def Obligations.ASegmentEndMakesOneFold : Prop :=
  ∀ (k : Fin 96) (p : Fin 16) (ecc : List (Nat × Nat × Ecc)) (s : State),
  (s.fab.win = none → exec (.segmentEnd k p ecc) s = .next s) ∧
  (∀ (w : Win), s.fab.win = some w →
    let m := s.winSet w
    let q := setQ m
    let no (v : PosSt) := stripNo (8192 / max 1 q) v
    let u := match s.front w m with | some n => spreadDue w m n s | none => s
    ((∀ c ∈ s.fab.cl, c.2.fallback = []) → u = s) ∧
    (u.posStalled k p = true ∨ u.workOf w m k p = none ∨
      (∃ v, u.workOf w m k p = some v ∧ s.front w m ≠ some (no v)) → exec (.segmentEnd k p ecc) s = .next u) ∧
    (∀ (v : PosSt) (a b : Nat) (r : List (Nat × Nat)), u.posStalled k p = false → u.workOf w m k p = some v →
      s.front w m = some (no v) → v.todo = some ((a, b) :: r) →
      let e := segEnd q (setLf m) v.strip a b
      let s1 := u.setPos k p { v with todo := some ((e, b) :: r) }
      let c := w.chans.getD v.pass 0
      let gh := tileOf m (a / q)
      let q0 := v.strip * q + a % q
      let qs := (List.range (e - a)).map fun n => q0 + n
      let rows := readGroup m k c w.block gh.1 ecc qs s1
      let cols := if gh.1 = gh.2 then rows else readGroup m k c w.block gh.2 ecc qs rows.2
      let z := tileSums rows.1 cols.1
      let held := (u.cl k).audits_ p (u.fab.passBase + v.pass)
      (p.val ∈ (u.cl k).withdraw → completes (.segmentEnd k p ecc) s fun t => Frame [.fab] s t ∧
        t.posSt k p = { v with todo := some ((e, b) :: r) } ∧ t.fab.folds = u.fab.folds ∧ t.fab.seq = u.fab.seq ∧
        ∃ n ∈ (t.cl k).wd, n.c = c ∧ n.x0 = w.x0 ∧ n.j = posIndex m k p ∧ n.strip = v.strip ∧ n.last = e - 1 ∧
          (n.first = a ∨ ∃ o ∈ (u.cl k).wd, o.j = n.j ∧ o.last + 1 = a ∧ n.first = o.first)) ∧
      (p.val ∉ (u.cl k).withdraw → completes (.segmentEnd k p ecc) s fun t => Frame [.so, .fab, .acc, .fresh] s t ∧
        t.posSt k p = { v with todo := some ((e, b) :: r) } ∧ t.fab.seq = u.fab.seq + 1 ∧ t.fab.win = some w ∧
        ∃ f : FoldItem, (f ∈ (t.cl k).queue ∨ f ∈ t.fab.folds) ∧
          (held = true → f ∈ (t.cl k).queue) ∧
          (held = false → (∀ g ∈ (u.cl k).queue, g.held = false) → (t.cl k).queue = [] ∧ f ∈ t.fab.folds ∧ f.rnd.length = 128) ∧
          { f with rnd := [] } = { seq := u.fab.seq, k := k, p := p, j := posIndex m k p, slot := (u.cl k).slots.getD p 0, c := c,
                                   block := w.block, x0 := w.x0, strip := v.strip, e0 := a, e1 := e - 1, tile := a / q,
                                   first := q0, last := q0 + (e - a) - 1, sums := z.1, counts := z.2.1, sat := z.2.2,
                                   held := held })))

/-- 08 R252, 09 R269, Table 09.6: a strip that is loaded joins the staged ones, whole again but for the words that its reports call
uncorrectable, streams its bytes' tokens from every stack and opens the rows of its groups' octet words, and adds its valid samples to
N, S1 and S2 of every input of the channel's open integration (in C8 a bad word makes all of its octet markers, log 220; how a transfer
takes tokens and where an octet word lies are the model's choices, log 188, 224). -/
def Obligations.StagingALoadedStripCountsItsSamples : Prop :=
  ∀ (c : Nat) (x : BitVec 64) (strip : Nat) (ecc : List (Nat × Nat × Nat × Nat × Ecc)) (s : State),
  let x0 := x.toNat
  let m := s.setAt x0
  let b := x0 / setTB m
  let i := s.intAt m c x0
  let inStrip (k : Nat) : Bool := k / 2 / (4096 * 8192) == b * 16384 + c && k / 2 % 8192 / max 1 (setQ m) == strip
  let word (e : Nat × Nat × Nat × Nat × Ecc) : Nat :=
    wordKey b c (e.2.2.1 / octHalves m) e.2.2.2.1 (e.2.2.1 % octHalves m)
  let ok : Prop := x0 % setTB m = 0 ∧ s.fab.start.isSome = true ∧ c < setChans m ∧ 0 < setQ m ∧ (c, b, strip) ∉ s.fab.loaded
  (¬ ok → exec (.stagingLoadDone c x strip ecc) s = .next s) ∧
  (ok → completes (.stagingLoadDone c x strip ecc) s fun t => Frame [.so, .fab, .acc, .mm, .fresh] s t ∧
    t.fab = { s.fab with loaded := (c, b, strip) :: s.fab.loaded, poison := t.fab.poison } ∧
    t.acc = { s.acc with stats := t.acc.stats, excls := t.acc.excls, exclOver := t.acc.exclOver } ∧
    (∀ y, t.byteAt y = s.byteAt y) ∧
    (∀ key, State.tabMark s.fab.poison key = true → inStrip key = false → State.tabMark t.fab.poison key = true) ∧
    (∀ e ∈ ecc, e.2.2.2.2 = .uncorrectable → State.tabMark t.fab.poison (word e) = true) ∧
    (∀ key, State.tabMark t.fab.poison key = true →
      (State.tabMark s.fab.poison key = true ∧ inStrip key = false) ∨ ∃ e ∈ ecc, key = word e) ∧
    (ecc = [] → t.so = s.so ∧ t.fresh = s.fresh ∧ t.acc.excls = s.acc.excls ∧ t.acc.exclOver = s.acc.exclOver ∧
      t.mm = ((List.range (setG m)).foldl (fun u g =>
          touchInter (cornerOff m (s.placeFor x0) c b g (strip * setQ m)) (8 * setQ m * setBytes m) u)
        (streamTokens 4 (setNs m * setQ m * setBytes m) s)).mm) ∧
    (∀ key, (∀ a, a < setNs m → key ≠ statKey c i a) → t.acc.stats.get statInit key = s.acc.stats.get statInit key) ∧
    ∀ a, a < setNs m →
      let d := ((List.range (setQ m)).map fun k => (strip * setQ m + k,
          decodeSmp (setC8 m) (s.chanWord (s.absChan m c) a ((8192 * b + (strip * setQ m + k)) * setF m)))).filter fun y =>
        y.2.2.2.1 && !t.octBad m c b (a / 8) y.1
      let w := d.map fun y => (y.2.1 * y.2.1 + y.2.2.1 * y.2.2.1).toNat
      let old := s.acc.stats.get statInit (statKey c i a)
      t.acc.stats.get statInit (statKey c i a) = (old.1 + d.length, old.2.1 + w.sum, old.2.2 + (w.map fun y => y * y).sum))

/-! ### Beams and weights (07) -/

/-- 07 R218 to R221, Table 07.7: a write that reaches the buffer in use, or the other one while a record is held, is discarded;
a swap record is PENDING until t_prep, then ARMED with a valid header or dropped; a record too late, in the past or held twice
is moved, discarded or replaces the first. The record is what a READ of 0x7040.0B gives from then on (14 R393); of a cancelling one the
command carries no EFF and SEQ (log 228). -/
def Obligations.WeightBuffersAndSwaps : Prop := ∀ (s : State),
  let w := s.fab.w
  let card (cs : List (Nat × Nat × Nat)) (w' : Weights) (t : State) : Prop :=
    Frame [.so, .fab] s t ∧ t.fab = { s.fab with w := w' } ∧ raisedOnly cs s t
  let kept (v : State) (bs : List Byte) (cs : List (Nat × Nat × Nat)) (w' : Weights) (t : State) : Prop :=
    Frame [.so, .fab, .dict, .fresh] s t ∧ t.fab = { s.fab with w := w' } ∧ raisedOnly cs s t ∧
      t.dict = { s.dict with live := s.dict.live.set (fun _ => []) (ob 0x7040 0xB) bs } ∧ t.fresh = v.fresh
  (∀ (a : BitVec 40) (bs : List Byte),
    let n := a.toNat
    let busy := s.inBuffer w.active n bs.length = true ∨ (w.st ≠ 0 ∧ s.inBuffer (!w.active) n bs.length = true)
    (s.inBuffer false n bs.length = false → s.inBuffer true n bs.length = false → exec (.weightBufferWrite a bs) s = .next s) ∧
    (busy → completes (.weightBufferWrite a bs) s fun t => Frame [.so, .fab] s t ∧
      t.fab = { s.fab with w := { w with refused := satAdd 32 w.refused 1 } } ∧
      t.so = (raiseLim 250000 0x140 0x0C 0 0xFFFF s).so) ∧
    (¬ busy → (s.inBuffer false n bs.length = true ∨ s.inBuffer true n bs.length = true) →
      completes (.weightBufferWrite a bs) s fun t => Frame [.mm] s t ∧ stored n bs s t ∧ t.mm.stack = s.mm.stack ∧
        t.mm.place = s.mm.place)) ∧
  (∀ (x : BitVec 64) (q : BitVec 16),
    let f := 32 * setF (s.setAt x.toNat)
    let e := roundUp x.toNat f
    let held (e' : Nat) (l : Bool) : Weights := { w with st := 1, eff := e', seq := q.toNat, late := l }
    let past := roundUp (s.pm + 500000) f
    let card := kept s (toBytes 8 x.toNat ++ toBytes 2 q.toNat ++ toBytes 6 0)
    (w.st = 2 ∨ e ≤ w.curEff → completes (.weightSwap x q) s
      (card [(0x140, 0x0A, 0xFFFF)] { w with discarded := satAdd 32 w.discarded 1 })) ∧
    (w.st = 0 → w.curEff < e → s.pm + 500000 < e → completes (.weightSwap x q) s (card [] (held e w.late))) ∧
    (w.st = 0 → w.curEff < e → e ≤ s.pm + 500000 → completes (.weightSwap x q) s (card [(0x140, 8, 0xFFFF)] (held past true))) ∧
    (w.st = 1 → w.curEff < e → s.pm + 500000 < e → completes (.weightSwap x q) s
      (card [(0x140, 9, 0xFFFF)] { held e w.late with replaced := true, nReplaced := satAdd 32 w.nReplaced 1 })) ∧
    (w.st = 1 → w.curEff < e → e ≤ s.pm + 500000 → completes (.weightSwap x q) s
      (card [(0x140, 8, 0xFFFF), (0x140, 9, 0xFFFF)]
        { held past true with replaced := true, nReplaced := satAdd 32 w.nReplaced 1 }))) ∧
  (∃ r : List Byte, r.length = 16 ∧ (ofBytes r).testBit 80 = true ∧
    (let card := kept s.draw.2 r
     (w.st = 1 → completes .weightSwapCancel s (card [] { w with st := 0 })) ∧
     (w.st = 2 → completes .weightSwapCancel s (card [(0x140, 0x0A, 0xFFFF)] { w with discarded := satAdd 32 w.discarded 1 })) ∧
     (w.st = 0 → completes .weightSwapCancel s (card [] w)))) ∧
  (w.st = 1 → w.eff ≤ s.pm + 500000 →
    (s.headerOk (s.committedAt w.eff).1 (s.committedAt w.eff).2 (!w.active) = true →
      completes .weightPrep s (card [] { w with st := 2 })) ∧
    (s.headerOk (s.committedAt w.eff).1 (s.committedAt w.eff).2 (!w.active) = false →
      completes .weightPrep s (card [(0x140, 0x0B, 0xFFFF)] { w with st := 0, setBad := true }))) ∧
  (w.st ≠ 1 ∨ s.pm + 500000 < w.eff → exec .weightPrep s = .next s)

/-- 07 R213: a beam sum is the sum of weight times sample over the inputs of the set; R215: a voltage component is rounded half
up by the shift and saturates at ±127. -/
def Obligations.BeamSumsAddWeightedSamples : Prop := ∀ (w : Nat → Int × Int) (l : List Smp),
  (beamSum w 0 l).1 = ((List.range l.length).map fun i =>
    (w i).1 * (l.getD i markerSmp).1 - (w i).2 * (l.getD i markerSmp).2.1).sum ∧
  (beamSum w 0 l).2 = ((List.range l.length).map fun i =>
    (w i).1 * (l.getD i markerSmp).2.1 + (w i).2 * (l.getD i markerSmp).1).sum ∧
  (∀ (sh : Nat) (v : Int), let r := (v + (2 ^ sh / 2 : Nat)) / (2 ^ sh : Nat)
    (beamQuant sh v).1 = max (-127) (min 127 r) ∧ ((beamQuant sh v).2 = true ↔ r < -127 ∨ 127 < r))

/-- 07 R213 to R216, R222, R223, R229: a batch starts once its frames have come, under the set due for it, which ends WEIGHTS_VALID where
the layout changes, and with an armed weight set exchanged at its stamp; at its end its sums go out as voltages or powers, and the
clusters that were cut raise BEAM_INCOMPLETE and set BEAM_CUT; at the deadline a batch is cut, the sums that were complete stay. The
positions left out, WEIGHTS_VALID and whether beams are off are those of the batch's start (log 222). Log 86, 88, 186 and 188 hold what the
spec leaves open here: when a start is due, how far a cut position came, how the beam port takes its tokens. -/
def Obligations.BeamBatchesStartEndAndAreCut : Prop := ∀ (s : State),
  let ends (x : Nat) (cut0 : List (Nat × Nat × Nat)) (ecc : BeamEcc) (u t : State) : Prop :=
    let m := u.setAt x
    let cut := u.reallyCut m cut0
    let lost := weightReads m x ecc u
    let rows := beamRows m x cut lost.1 ecc lost.2
    let w := if beamPower m = true then addPowers m x rows.1 rows.2 else emitVoltages m x rows.1 rows.2
    let hit := (List.range 96).filter fun k => cut.any fun p => p.1 == k
    t.fab = { w.fab with cl := t.fab.cl, batch := none, batchDone := some x, cutNow := [],
                         beamIncomplete := satAdd 32 s.fab.beamIncomplete (if hit = [] then 0 else 1) } ∧
    raisedOnly (hit.map fun k => (clSrc k, 6, 0xFFFF)) w t ∧ t.out = w.out ∧ t.acc = w.acc ∧ t.mm = w.mm ∧ t.mm.mem = s.mm.mem ∧
    (∀ k, k < 96 → t.cl k = { w.cl k with beamCutRun := (w.cl k).beamCutRun || hit.contains k } ∧
      (t.cl k).beamCutRun = ((s.cl k).beamCutRun || hit.contains k)) ∧
    ∀ r ∈ rows.1, r.volt.length = beamB m ∧ (r.count = 0 ∨ u.fab.batchValid = false ∨ u.fab.batchOff = true → ∀ o ∈ r.volt, o = none)
  let swapped (x : Nat) (w : Weights) : Weights :=
    if w.st = 2 ∧ w.eff ≤ x then
      { w with st := 0, active := !w.active, valid := true, curSeq := w.seq, curEff := w.eff, replaced := false,
               setBad := false, late := false }
    else w
  (∀ x : BitVec 64,
    let m := s.setAt x.toNat
    let u := weightApply x.toNat s
    let w := s.fab.w
    let o := batchOpen x.toNat s
    o.fab = { u.fab with
      batch := some x.toNat, batchAt := s.now, w := swapped x.toNat u.fab.w,
      lastSwap := if u.fab.w.st = 2 ∧ u.fab.w.eff ≤ x.toNat then some x.toNat else u.fab.lastSwap,
      batchOut := s.fab.removed ++ s.unserved.filter (fun p => !s.fab.removed.contains p),
      batchValid := (swapped x.toNat u.fab.w).valid, batchOff := s.fab.beamsOff, cutNow := s.beamsOut m } ∧
    (s.dueSet 0x140 x.toNat = none → u.fab = s.fab ∧ u.so = s.so) ∧
    (∀ p old new k, s.dueSet 0x140 x.toNat = some (p, old, new, k) →
      let layout := layoutObjs.any fun o => setVal old o != setVal new o
      let bad := layout && w.st == 2 && decide (p ≤ w.eff) && !s.headerOk new (s.placeFor p) (!w.active)
      u.fab.w = (if bad then { w with valid := false, st := 0, setBad := true } else if layout then { w with valid := false } else w) ∧
      raisedOnly (if bad then [(0x140, 0x0B, 0xFFFF)] else []) s u) ∧
    (s.batchDue m x.toNat = true → s.fab.batch = none → batchEnd m x.toNat ≤ s.dataPm → completes (.beamBatchStart x) s fun t =>
      Frame [.so, .fab, .mm, .dict] s t ∧ t.so = u.so ∧ t.dict = u.dict ∧
      t.fab = o.fab ∧ t.mm = (beamLoads m x.toNat o).mm) ∧
    (s.batchDue m x.toNat = false ∨ s.fab.batch ≠ none ∨ s.dataPm < batchEnd m x.toNat → exec (.beamBatchStart x) s = .next s)) ∧
  (∀ (smp wgt : List (Nat × Nat × Nat × Ecc)) (dram : List (Nat × Nat × Ecc)),
    (s.fab.batch = none → exec (.beamBatchDone smp wgt dram) s = .next s) ∧
    (∀ x, s.fab.batch = some x → completes (.beamBatchDone smp wgt dram) s fun t => Frame (touches (.beamBatchDone smp wgt dram)) s t ∧
      ends x (beamCuts (s.setAt x) s.fab.cutNow) ⟨smp, wgt, dram⟩ s t)) ∧
  (∀ (x : BitVec 64) (late : List (Nat × Nat × Nat)),
    let m := s.setAt x.toNat
    (s.batchDue m x.toNat = false ∨ s.dataPm < batchEnd m x.toNat + 562500 ∨ (∃ y, s.fab.batch = some y ∧ y ≠ x.toNat) →
      exec (.beamDeadline x late) s = .next s) ∧
    (s.batchDue m x.toNat = true → batchEnd m x.toNat + 562500 ≤ s.dataPm →
      (s.fab.batch = some x.toNat → completes (.beamDeadline x late) s fun t => Frame (touches (.beamDeadline x late)) s t ∧
        ends x.toNat (beamCuts m (s.fab.cutNow ++ late)) ⟨[], [], []⟩ s t) ∧
      (s.fab.batch = none → completes (.beamDeadline x late) s fun t => Frame (touches (.beamDeadline x late)) s t ∧
        ends x.toNat ((beamList m (batchOpen x.toNat s).fab.batchOut).map fun p => (p.1, p.2, 0)) ⟨[], [], []⟩
          (batchOpen x.toNat s) t)))

/-! ### Accumulation (08) -/

/-- 08 R234: adding a tile-sum component is exact where the sum is a binary32 value; else the random value chooses between its
two neighbours. No −0.0 and no infinity is ever stored. R237: integers below 2^24 add exactly. -/
def Obligations.FoldArithmeticIsExactOrChoosesANeighbour : Prop := ∀ (acc r : Nat) (part : Int),
  acc < 2 ^ 32 → f32Finite acc = true → (f32Units acc + part * 2 ^ 149).natAbs < 2 ^ 63 * 2 ^ 149 → part.natAbs ≤ 8388607 → r < 65536 →
  let value (b : Nat) (x : Int) : Prop := b < 2 ^ 32 ∧ f32Finite b = true ∧ f32Units b = x
  let x := f32Units acc + part * 2 ^ 149
  let y := f32Add acc part r
  y < 2 ^ 32 ∧ f32Finite y = true ∧ y ≠ 2 ^ 31 ∧ (x = 0 → y = 0) ∧
  ((∃ b, value b x) → f32Units y = x) ∧
  ((¬ ∃ b, value b x) → ∃ lo hi : Int, (∃ b, value b lo) ∧ (∃ b, value b hi) ∧ lo < x ∧ x < hi ∧
    (∀ b v, value b v → v ≤ lo ∨ hi ≤ v) ∧
    f32Units y = if (r : Int) < ((x - lo) * 2 ^ 17 + (hi - lo)) / (2 * (hi - lo)) then hi else lo) ∧
  (∀ n : Int, f32Units acc = n * 2 ^ 149 → (n + part).natAbs < 2 ^ 24 → f32Units y = (n + part) * 2 ^ 149) ∧
  (∀ w, noNegZero w % 2 ^ 32 ≠ 2 ^ 31 ∧ noNegZero w / 2 ^ 32 ≠ 2 ^ 31)

/-- 08 R236, R240, R243, Table 08.3, 09 R266: an engine takes its stack's earliest fold, under the set due for it; it waits with
DUMP_QUEUE_FULL while the channel's slot or the dumps owed under a commit hold it, and for the old set's folds before a commit. A fold of the tile's integration is added to the
64 accumulators and the bookkeeping and nothing else changes; the first one of a later integration emits the tile into its dump and
starts the new one; an IDLE tile starts. Requests that wait for the same accesses of the stack come first (09 R267): s is the state after
them. The places of the bookkeeping entry are assumption 187's. -/
def Obligations.FoldsFollowTheTileTable : Prop := ∀ (st : Fin 4) (ecc : List (Nat × Ecc)) (o : State),
  (o.nextFold st = none → exec (.fold st ecc) o = .next o) ∧
  (∀ f : FoldItem, o.nextFold st = some f →
    let s := foldWay st o
    s.nextFold st = some f ∧ Frame [.so, .fab, .mm, .ctrl, .fresh, .outbox] o s ∧ s.fab = { o.fab with w := s.fab.w } ∧
    ((o.stk st).queue = [] → Frame [.mm] o s ∧ s.mm = { o.mm with stack := s.mm.stack } ∧ ∀ k, s.stk k = o.stk k) ∧
    let u := accApply f.x0 s
    let p := s.intAt (s.setAt f.x0) f.c f.x0
    let m := s.setAt p
    let pl := s.placeFor p
    let rest := s.fab.folds.filter fun g => g.seq != f.seq
    let len := f.last + 1 - f.first
    let first (x : Nat) : Book :=
      { int := p, folds := 1, weight := len, pairSum := f.counts.sum % 2 ^ 24, maxExp := x, sat := f.sat }
    let more (b : Book) (x : Nat) : Book :=
      { b with folds := b.folds + 1, weight := b.weight + len, pairSum := (b.pairSum + f.counts.sum) % 2 ^ 24, maxExp := x, sat := b.sat || f.sat }
    let sums (w : Nat → Nat) (t : State) : Prop := ∀ k, k < 64 →
      let q := f.sums.getD k (0, 0)
      t.numAt (accAddr m pl f.c f.tile k) 8 =
        if w k % 2 ^ 32 = damagedMarker ∧ w k / 2 ^ 32 = damagedMarker then w k
        else (f32Add (w k % 2 ^ 32) q.1 (f.rnd.getD (2 * k) 0) + 2 ^ 32 * f32Add (w k / 2 ^ 32) q.2 (f.rnd.getD (2 * k + 1) 0)) % 2 ^ 64
    (s.dueSet 0x910 f.x0 = none → s.acc.due = none → u.fab = s.fab ∧ u.acc = s.acc ∧ u.mm = s.mm ∧ u.so = s.so ∧ u.out = s.out) ∧
    (u.acc.waits = true → u.accWaits f.x0 = true → exec (.fold st ecc) o = .next u) ∧
    (u.foldHeld f = true → u.acc.waits = false ∨ u.accWaits f.x0 = false → completes (.fold st ecc) o fun t => Frame (touches (.fold st ecc)) s t ∧ t.fab = s.fab ∧
      t.mm = u.mm ∧ t.out = u.out ∧ t.acc = { u.acc with dumps := t.acc.dumps } ∧ (u.dumpOf f.c = none → t = u) ∧
      ∀ d, u.dumpOf f.c = some d → t.dumpOf f.c = some { d with full := true } ∧
        raisedOnly (if d.full then [] else [(0x910, 6, f.c + 0xFFFFFF * 65536)]) u t) ∧
    (u.foldHeld f = false →
      let r := openTile f.c f.tile p ecc { u with fab := { s.fab with folds := rest } }
      let w := (List.range 64).map fun k => foldProduct f k (r.2.1.getD k 0)
      ((∀ b, u.book f.c f.tile = some b → b.int ≤ p) → r.1.int = p) ∧
      (r.1.int = p → completes (.fold st ecc) o fun t => Frame (touches (.fold st ecc)) s t ∧
        t.fab = { s.fab with folds := rest } ∧ t.out = r.2.2.out ∧ t.so = r.2.2.so ∧
        t.acc = { r.2.2.acc with book := t.acc.book } ∧ t.book f.c f.tile = some (foldBook f r.1 w) ∧
        ∀ c l, tileKey c l ≠ tileKey f.c f.tile → t.book c l = u.book c l) ∧
      (r.1.int ≠ p → exec (.fold st ecc) o = .next { u with fab := { s.fab with folds := rest } })) ∧
    (u.foldHeld f = false → s.dueSet 0x910 f.x0 = none → s.acc.due = none → ecc = [] → f.tile % 4 = st.val → s.mm.bad = [] →
      injFor (stackSrc st) 1 s = none → f.c < setChans m → f.tile < setT m → accOff m pl f.c f.tile 64 ≤ stackSize →
      bookOff m pl f.c f.tile + 16 ≤ stackSize →
      (∀ b, s.book f.c f.tile = some b → b.int = p → b.idle = false → completes (.fold st ecc) o fun t =>
        Frame [.fab, .acc, .mm, .dict] s t ∧ t.fab = { s.fab with folds := rest } ∧
        t.acc = { s.acc with book := t.acc.book } ∧
        (∃ x, t.book f.c f.tile = some (more b x) ∧ b.maxExp ≤ x) ∧
        sums (fun k => if b.bad then damagedWord else s.numAt (accAddr m pl f.c f.tile k) 8) t ∧
        (∀ y, (∀ k, k < 512 → accAddr m pl f.c f.tile 0 + k ≠ canon y) →
          (∀ k, k < 16 → dramAddr (f.tile % 4) (bookOff m pl f.c f.tile) + k ≠ canon y) → t.byteAt y = s.byteAt y)) ∧
      (∀ b, s.book f.c f.tile = some b → b.int < p → setVal m (ob 0x7100 1) = 0 →
        completes (.fold st ecc) o fun t => Frame [.so, .fab, .acc, .mm, .dict, .fresh] s t ∧ t.fab = { s.fab with folds := rest } ∧
          (∃ d, t.dumpOf f.c = some d ∧ d.p0 = b.int ∧ d.emitted.get (fun _ => 0) f.tile = 1) ∧
          (∃ x, t.book f.c f.tile = some (first x)) ∧ sums (fun _ => 0) t) ∧
      ((s.book f.c f.tile = none ∨ ∃ b, s.book f.c f.tile = some b ∧ b.int = p ∧ b.idle = true) →
        setVal m (ob 0x7100 1) = 0 → completes (.fold st ecc) o fun t =>
          Frame [.fab, .acc, .mm, .dict] s t ∧ t.fab = { s.fab with folds := rest } ∧ t.acc = { s.acc with book := t.acc.book } ∧
          (∃ x, t.book f.c f.tile = some (first x)) ∧ sums (fun _ => 0) t)))

/-- 08 R233, R240, R243, R249, 16 R472: a withdrawn notice waits behind the folds of earlier windows of its tiles; of an open integration it
leaves the accumulators as they are and records a RUN exclusion, and a tile of an older integration is emitted and started; one that
needs a held slot waits. 09 R266: a dump whose Envelopes are all acknowledged frees its slot, for the dumps owed under a commit. -/
def Obligations.NoticesExcludeAndSlotsAreFreed : Prop := ∀ (s : State),
  (s.fab.notices = [] → exec .withdrawnNotice s = .next s) ∧
  (∀ (n : Notice) (r : List Notice), s.fab.notices = n :: r →
    let m := s.setAt n.x0
    let p := s.intAt m n.c n.x0
    let x := n.block * setTB m
    let i := s.intAt m n.c x
    let ts := runTiles m n.first n.last
    let u := accApply n.x0 s
    let free : Prop := u.accWaits n.x0 = false ∧ ∀ l ∈ ts, u.tileFree n.c l p = true
    (s.foldsBefore n.c n.x0 ts = true → exec .withdrawnNotice s = .next s) ∧
    (s.dueSet 0x910 n.x0 = none → s.acc.due = none → u.fab = s.fab ∧ u.acc = s.acc ∧ u.mm = s.mm ∧ u.so = s.so ∧ u.out = s.out) ∧
    (s.foldsBefore n.c n.x0 ts = false → free → completes .withdrawnNotice s fun t => Frame (touches .withdrawnNotice) s t ∧
      t.fab = { s.fab with notices := r } ∧ t.out = u.out ∧
      ∀ l ∈ ts, ∃ b, t.book n.c l = some b ∧ p ≤ b.int ∧ b.idle = false) ∧
    (s.foldsBefore n.c n.x0 ts = false → free → s.dueSet 0x910 n.x0 = none → s.acc.due = none →
      (∀ l ∈ ts, ∃ b, s.book n.c l = some b ∧ p ≤ b.int ∧ b.idle = false) →
      completes .withdrawnNotice s fun t => Frame [.so, .fab, .acc, .dict] s t ∧ t.fab = { s.fab with notices := r } ∧
        t.acc = { s.acc with excls := t.acc.excls, exclOver := t.acc.exclOver } ∧
        ((s.runStart x).isSome = true → n.c < setChans m → t.exclOf n.c i =
          addRecord (exclRec 1 (n.block - i / setTB m) n.strip n.j n.first n.last 0) (s.exclOf n.c i)) ∧
        ((s.runStart x).isNone = true ∨ setChans m ≤ n.c → t.acc = s.acc ∧ t.so = s.so) ∧
        (∀ k, k ≠ exclKey n.c i → t.acc.excls.get exclInit k = s.acc.excls.get exclInit k)) ∧
    (s.foldsBefore n.c n.x0 ts = false → u.acc.waits = true → u.accWaits n.x0 = true → exec .withdrawnNotice s = .next u) ∧
    (s.foldsBefore n.c n.x0 ts = false → ¬ free → u.acc.waits = false ∨ u.accWaits n.x0 = false → completes .withdrawnNotice s fun t => Frame (touches .withdrawnNotice) s t ∧
      t.fab = s.fab ∧ t.mm = u.mm ∧ t.acc = { u.acc with dumps := t.acc.dumps } ∧ (u.dumpOf n.c = none → t = u) ∧
      ∀ d, u.dumpOf n.c = some d → t.dumpOf n.c = some { d with full := true } ∧
        raisedOnly (if d.full then [] else [(0x910, 6, n.c + 0xFFFFFF * 65536)]) u t)) ∧
  (∀ c : Nat,
    (∀ d, s.dumpOf c = some d → d.complete = true → s.dumpDone (c, d.p0) = true →
      let u := { s with acc := { s.acc with dumps := s.acc.dumps.filter fun e => e.c != c }
                        out := { s.out with queued := s.out.queued.filter fun k => k != (c, d.p0) } }
      exec (.dumpSlotFreed c) s = .next (sweepOwed u) ∧ (s.acc.due = none → sweepOwed u = u) ∧ u.dumpOf c = none ∧
      ∀ c', c' ≠ c → u.dumpOf c' = s.dumpOf c') ∧
    (s.dumpOf c = none → exec (.dumpSlotFreed c) s = .next s) ∧
    (∀ d, s.dumpOf c = some d → d.complete = false ∨ s.dumpDone (c, d.p0) = false → exec (.dumpSlotFreed c) s = .next s))

/-! ### Stacked DRAM (09) -/

/-- 09 Table 09.7, R267, R268, R275: an OFF stack trains; with a pass it is READY, all zero; a failure or 400 ms raises TRAIN_FAIL with address 0 (log 91).
Refreshes run up to 4 ahead of an idle bank; a bank falls behind only while hits on its open row wait, by 4 at most, when one is forced (log
190); a temperature rise above 85 °C raises DRAM_HOT once; the scrubber goes word by word. -/
def Obligations.StacksTrainRefreshAndScrub : Prop := ∀ (n : Fin 4) (s : State),
  let v := s.stk n
  let up := v.st = .ready ∨ v.st = .running
  let only (v' : Stack) (cs : List (Nat × Nat × Nat)) (t : State) : Prop :=
    Frame [.so, .mm] s t ∧ t.stk n = v' ∧ (∀ k, k ≠ n.val → t.stk k = s.stk k) ∧ t.mm.mem = s.mm.mem ∧ t.mm.bad = s.mm.bad ∧
      t.mm.place = s.mm.place ∧ raisedOnly cs s t
  let failed : State → Prop := only { v with st := .failed } [(stackSrc n, 3, 0)]
  (v.st = .off → s.pwr.inReset = false → completes (.dramTrainStart n) s (only { v with st := .training, trainAt := s.now } [])) ∧
  (v.st ≠ .off ∨ s.pwr.inReset = true → exec (.dramTrainStart n) s = .next s) ∧
  (v.st = .training → completes (.dramTrainDone n true) s fun t => Frame [.mm] s t ∧ (t.stk n).st = .ready ∧
    (t.stk n).scrubAt = 0 ∧ (∀ k, k ≠ n.val → t.stk k = s.stk k) ∧
    (∀ y, dramAddr n 0 ≤ canon y → canon y < dramAddr n 0 + stackSize → t.byteAt y = 0 ∧ t.badWord y = false) ∧
    (∀ y, canon y < dramAddr n 0 ∨ dramAddr n 0 + stackSize ≤ canon y → t.byteAt y = s.byteAt y)) ∧
  (v.st = .training → completes (.dramTrainDone n false) s failed) ∧
  (v.st = .training → v.trainAt + 100000000 ≤ s.now → completes (.dramTrainTimeout n) s failed) ∧
  (v.st ≠ .training → exec (.dramTrainDone n true) s = .next s ∧ exec (.dramTrainTimeout n) s = .next s) ∧
  (∀ (pc : Fin 32) (b : Fin 48), up →
    let k := bankKey pc b
    let x := (v.bank k).behind
    let idle := v.wanted k = false
    let issued (y : Int) : Stack := v.setBank k { row := none, behind := y }
    let owed : Stack := v.setBank k { v.bank k with behind := x + 1 }
    (idle → -4 < x → completes (.refresh n pc b true) s (only (issued (x - 1)) [])) ∧
    (¬ idle ∨ x ≤ -4 → exec (.refresh n pc b true) s = .next s) ∧
    (x < 0 → completes (.refresh n pc b false) s (only owed [])) ∧
    (0 ≤ x → v.hitWaits k = false → completes (.refresh n pc b false) s (only (issued x) [])) ∧
    (0 ≤ x → v.hitWaits k = true →
      (x < 3 → completes (.refresh n pc b false) s (only owed [])) ∧
      (3 ≤ x → completes (.refresh n pc b false) s (only { issued x with forced := satAdd 64 v.forced 1 } [])))) ∧
  (∀ (pc : Fin 32) (b : Fin 48) (i : Bool), ¬ up → exec (.refresh n pc b i) s = .next s) ∧
  (∀ c : Int, 85 < c → completes (.dramTempRise n c) s
    (only { v with temp := c, hot := true } (if v.hot = true then [] else [(stackSrc n, 4, 0)]))) ∧
  (∀ c : Int, c ≤ 85 → completes (.dramTempFall n c) s (only { v with temp := c, hot := false } [])) ∧
  (up → injFor (stackSrc n) 1 s = none →
    let nx := if stackSize ≤ v.scrubAt + 8 then 0 else v.scrubAt + 8
    let passes := if stackSize ≤ v.scrubAt + 8 then satAdd 32 v.passes 1 else v.passes
    let addr := v.scrubAt + 15 * 2 ^ 36
    (s.badWord (dramAddr n v.scrubAt) = false →
      completes (.scrubStep n .ok) s (only { v with scrubAt := nx, passes := passes } []) ∧
      completes (.scrubStep n .corrected) s (only { v with scrubAt := nx, passes := passes, corr := satAdd 32 v.corr 1 }
        [(stackSrc n, 1, addr)])) ∧
    completes (.scrubStep n .uncorrectable) s fun t => Frame [.so, .mm] s t ∧
      t.stk n = { v with scrubAt := nx, passes := passes, uncorr := satAdd 32 v.uncorr 1, lastErr := v.scrubAt } ∧
      (∀ k, k ≠ n.val → t.stk k = s.stk k) ∧ t.mm.mem = s.mm.mem ∧ t.mm.place = s.mm.place ∧
      (∀ y, t.badWord y = (s.badWord y || canon y / 8 == canon (dramAddr n v.scrubAt) / 8)) ∧ raisedOnly [(stackSrc n, 2, addr)] s t)

/-- 09 R264, R267, R269, R273, R274, Table 09.7, 13 R370, R373, R375, R381: a request waits in its stack's queue, counted once, until its
port's bucket holds its bytes; of those that may issue, none behind an older one of its port or to the same access, the port of highest
priority goes first. Its bytes are read or written, the access opens its rows, and a bus request is answered under its ID; a write to the
system area is refused but to a Steward, one to a weight buffer in use is discarded; a stack that is not up answers with an error.
A request of the control or the Courier port is one of a master on the bus matrix: it takes the port of its master, and where Table 13.2
or R373 stops it, it goes to the dead-letter target. Log 144, 188 and 190 hold the model's choices on states, waits and row hits. -/
def Obligations.DramRequestsIssueOnTokens : Prop :=
  ∀ (n : Fin 4) (p : Fin 7) (q : BusTag) (x : Fin 51539607552) (late : Bool) (ecc : List (Nat × Ecc)) (s : State),
  let v := s.stk n
  let m := q.m
  let a := dramAddr n x
  let up := v.st = .ready ∨ v.st = .running
  let bus : Prop := p.val = 0 ∨ p.val = 6
  let P : Nat := if p.val = 0 ∨ p.val = 6 then dramPort m else p
  let takes (len : Nat) (write : Bool) : Prop :=
    bus → s.mayRequest m = true ∧ s.ctrl.reqs = [] ∧ s.routed m a len write = true
  let req (len : Nat) (wr : Option (List Byte)) : DramReq :=
    { port := P, x := x, len := len, wr := wr, tag := (m, q.id.toNat, s.epochOf m), late := late, ecc := ecc }
  let sent (len : Nat) (wr : Option (List Byte)) : MReq :=
    { m := m, id := q.id.toNat, epoch := s.epochOf m, write := wr.isSome, priv := false, addr := a,
      data := wr.getD (List.replicate len 0), beat := min len 16, remap := s.ctrl.remap, ecc := ecc, late := late, stage := .dram }
  let ctrlWith (l : List MReq) (t : State) : Prop :=
    (bus → t.ctrl = { (noteGrant m 7 s).ctrl with reqs := l }) ∧ (¬ bus → t.ctrl = s.ctrl) ∧ t.tap = (debugTap m s).tap
  let zeros (len : Nat) : List Byte := List.replicate len 0
  let beats (bs : List (List Byte)) (resp : Nat) : List Sent := bs.zipIdx.flatMap fun b =>
    (if m.val = 0 ∧ s.ctrl.pair = .lockstep then [0, 1] else [m.val]).map fun k =>
      .busReply k q.id.toNat resp (b.2 + 1 == bs.length) (s.epochOf m) b.1
  let answered (bs : List (List Byte)) (resp : Nat) (t : State) : Prop :=
    ctrlWith [] t ∧ (bus → t.outbox = (beats bs resp).reverse ++ s.outbox) ∧ (¬ bus → t.outbox = s.outbox)
  let bytes (d : List Byte) : List (List Byte) := pieces 16 (max 1 d.length) d
  let lateCard : List (Nat × Nat × Nat) := if late then [(stackSrc n, 6, x / 8 * 8 + P * 2 ^ 36)] else []
  let used (len : Nat) (t : State) : Prop :=
    let v1 := (v.take P len s.now).touch x len
    t.stk n = { v1 with queue := [], waits := satAdd 64 v1.waits 0 }
  let others (t : State) : Prop := ∀ k, k ≠ n.val → t.stk k = s.stk k
  (∀ (len : Nat) (wr : Option (List Byte)),
    let size := match wr with | some d => d.length | none => len
    let r := req size wr
    let c : Instr := .dramRequestIssue n p q x len wr late ecc
    (bus → s.mayRequest m = false → exec c s = .next (debugTap m s)) ∧
    (bus → s.mayRequest m = true → s.ctrl.reqs = [] → s.routed m a size wr.isSome = false → completes c s fun t =>
      Frame [.so, .ctrl, .tap, .outbox] s t ∧ t.so = (raiseLim 250000 0xA30 1 m a s).so ∧
      t.outbox = (beats (if wr.isSome then [[]] else pieces (min size 16) (max 1 size) (zeros size)) 1).reverse ++ s.outbox ∧
      t.ctrl = { (noteGrant m 0 s).ctrl with
        reqs := [], deadTotal := satAdd 64 s.ctrl.deadTotal 1, deadAddr := a, deadMaster := m, deadPm := s.pm,
        dead := s.ctrl.dead.set zeroTab m (satAdd 32 (s.ctrl.dead.get zeroTab m) 1) }) ∧
    (takes size wr.isSome → ¬ up → completes c s fun t => Frame [.ctrl, .tap, .outbox] s t ∧
      answered (if wr.isSome then [[]] else bytes (zeros size)) 2 t) ∧
    (takes size wr.isSome → up → ∃ u : State, Frame [.ctrl, .tap] s u ∧ ctrlWith [sent size wr] u ∧
      exec c s = .next (serveStack n (u.setStk n { v with queue := v.queue ++ [r] }))) ∧
    (takes size wr.isSome → up → v.queue = [] → v.pays r s.now = false → completes c s fun t => Frame [.mm, .ctrl, .tap] s t ∧
      t.mm = { s.mm with stack := t.mm.stack } ∧ ctrlWith [sent size wr] t ∧
      t.stk n = { v with queue := [{ r with counted := true }], waits := satAdd 64 v.waits 1 } ∧ others t)) ∧
  (∀ (l : List DramReq) (q : DramReq), (q ∈ v.mayIssue s.now [] l ↔ ∃ a b, l = a ++ q :: b ∧ v.pays q s.now = true ∧
    ∀ o ∈ a, o.port ≠ q.port ∧ o.meets q = false) ∧ (firstReq l = some q → q ∈ l ∧ ∀ o ∈ l, q.port ≤ o.port)) ∧
  (∀ len : Nat, takes len false → up → v.queue = [] → v.pays (req len none) s.now = true →
    let c : Instr := .dramRequestIssue n p q x len none late ecc
    let ok (w : Nat) : Bool := !s.badWord (dramAddr n w) && eccAt ecc w != .uncorrectable
    (injFor (stackSrc n) 1 s = none → (∀ w ∈ wordsIn x len, ok w = true) →
      completes c s fun t => Frame [.so, .mm, .ctrl, .tap, .outbox] s t ∧ t.mm = { s.mm with stack := t.mm.stack } ∧ others t ∧
        answered (bytes (s.bytesAt a len)) 0 t ∧ (ecc = [] → used len t) ∧
        raisedOnly (lateCard ++ ((wordsIn x len).filter fun w => eccAt ecc w == .corrected).map fun w =>
          (stackSrc n, 1, w + P * 2 ^ 36)) s t) ∧
    ((∃ w ∈ wordsIn x len, ok w = false) →
      completes c s fun t => Frame [.so, .mm, .ctrl, .tap, .fresh, .outbox] s t ∧ t.mm.mem = s.mm.mem ∧
        t.mm.place = s.mm.place ∧ others t ∧ answered (bytes (zeros len)) 2 t)) ∧
  (∀ (len : Nat) (data : List Byte), takes data.length true → up → v.queue = [] → v.pays (req data.length (some data)) s.now = true →
    let c : Instr := .dramRequestIssue n p q x len (some data) late ecc
    let steward := m.val ≤ 1
    let refused := inSystem n x data.length = true
    let w := s.fab.w
    let busy := s.inBuffer w.active a data.length = true ∨ (w.st ≠ 0 ∧ s.inBuffer (!w.active) a data.length = true)
    let clean := injFor (stackSrc n) 1 s = none ∧
      ∀ k ∈ partWords x data.length, eccAt ecc k = .ok ∧ s.badWord (dramAddr n k) = false
    (¬ steward → refused → completes c s fun t => Frame [.so, .mm, .ctrl, .tap, .outbox] s t ∧ t.mm = { s.mm with stack := t.mm.stack } ∧
      used data.length t ∧ others t ∧ answered [[]] 2 t ∧ raisedOnly (lateCard ++ [(stackSrc n, 5, x / 8 * 8 + P * 2 ^ 36)]) s t) ∧
    (steward ∨ ¬ refused → ¬ busy → completes c s fun t => Frame [.so, .mm, .ctrl, .tap, .fresh, .outbox] s t ∧
      t.mm.place = s.mm.place ∧ others t ∧ answered [[]] 0 t ∧
      (clean → stored a data s t ∧ used data.length t ∧ raisedOnly lateCard s t)) ∧
    (steward ∨ ¬ refused → busy → completes c s fun t => Frame [.so, .fab, .mm, .ctrl, .tap, .fresh, .outbox] s t ∧
      others t ∧ answered [[]] 0 t ∧ t.mm.place = s.mm.place ∧ t.fab = { s.fab with w := { w with refused := satAdd 32 w.refused 1 } } ∧
      (clean → t.mm = { s.mm with stack := t.mm.stack } ∧ used data.length t)))

/-! ### Compression and Envelope output (10) -/

/-- 10 R284, R286, R287, R292, R294, R297, R298, R309: a compressor codes the next Envelope of its work, beam powers first, then the
substream it has begun; the first coded one of a substream carries HRESET; it keeps the raw one where coding is off, does not shrink it,
its history is lost or verification fails; and it fills the free ones of the 1,024 segments and stalls while they are too few. The assembler
never takes more than are free and builds what it can, that of a held compressor too. A stall of more than 100 µs is reported once; taking a freed segment ends it.
The ESEQ in a compressor's Postcard is assumption 191's; log 97 and 162 hold when an Envelope is built and the state its history leaves. -/
def Obligations.EnvelopesAreBuiltInFreeSegments : Prop := ∀ (s : State),
  (∀ (k : Fin 8) (hist : Ecc) (bad : Bool) (reads : List (Nat × Nat × Ecc)),
    let u := takeDumps s
    let c : Instr := .compressEnvelope k hist bad reads
    let power := firstStream (fun y => y.unit == k.val && y.etype == 7) u.out.streams
    let begun := firstStream (fun y => y.unit == k.val && y.dump.isSome && y.dump == (u.comp k).of_) u.out.streams
    let any_ := firstStream (fun y => y.unit == k.val) u.out.streams
    u.compWork k = (if power.isSome then power else if begun.isSome then begun else any_) ∧
    ((u.blk (compSrc k)).held = true → exec c s = .next (assemble u)) ∧
    ((u.blk (compSrc k)).held = false → u.compWork k = none → exec c s = .next u) ∧
    (∀ x : Stream, (u.blk (compSrc k)).held = false → u.compWork k = some x →
      let w := match x.dump.bind u.dumpKeyed with
        | some d => dumpReads d reads (dumpPort d (x.next * x.per) (min x.per (x.total - x.next * x.per)) u)
        | none => u
      let e := w.rawEnv x
      let els := elemsOf x.esize e.count e.payload
      let v := (w.comp k).ready x
      let reset := x.codec == 1 && (x.each || v.forced x || (w.comp k).fresh x)
      let past := if reset then [] else v.past x
      let read : Prop := x.codec = 1 ∧ past ≠ []
      let lost : Prop := read ∧ hist = .uncorrectable
      let fails : Prop := x.codec ≠ 0 ∧ ¬ lost ∧ bad = true
      let nat := nativeCode x.esize ⟨if x.etype = 1 then 8 else 0, x.sCh, x.sDump⟩ past els
      let code := if x.codec = 1 then nat.1 else legacyCode x.esize els
      let raw : Prop := x.codec = 0 ∨ lost ∨ fails ∨ e.payload.length ≤ code.length
      let pay := if raw then e.payload else code
      let v1 : Comp := if read ∧ hist = .corrected then { v with corr := satAdd 32 v.corr 1 }
        else if lost then { v with uncorr := satAdd 32 v.uncorr 1 } else v
      let v2 : Comp := if raw ∨ x.codec ≠ 1 then v1 else { v1 with coded := satAdd 64 v1.coded nat.2.1, raw := satAdd 64 v1.raw nat.2.2 }
      let v3 : Comp := { v2 with envRaw := satAdd 32 v.envRaw (if raw ∧ x.codec ≠ 0 ∧ ¬ lost then 1 else 0),
                                 verify := satAdd 32 v.verify (if fails then 1 else 0), part := 0, stall := none, stallSaid := false }
      injFor (compSrc k) 1 w = none →
      (segsOf pay ≤ (w.setComp k v).segsFree + v.part → ∃ y : State, exec c s = .next (assemble y) ∧
        Frame [.so, .acc, .mm, .out, .fresh] s y ∧ y.mm = w.mm ∧ y.acc = w.acc ∧
        raisedOnly ((if read ∧ hist = .corrected then [(compSrc k, 2, s.compAddr x.local)] else []) ++
          (if lost then [(compSrc k, 3, s.compAddr x.local)] else []) ++ if fails then [(compSrc k, 1, s.compAddr x.local)] else []) w y ∧
        y.out.ready = s.out.ready ++ [{ e with payload := pay, codec := if raw then 0 else x.codec, hreset := reset }] ∧
        e.etype = x.etype ∧ e.stamp = x.stamp ∧ e.chan = x.chan ∧ e.first = x.next * x.per ∧
        e.count = min x.per (x.total - x.next * x.per) ∧ e.eseq = none ∧
        (x.etype = 1 ∨ x.etype = 7 → y.out.bytesRaw = satAdd 64 s.out.bytesRaw e.payload.length ∧
          y.out.bytesCoded = satAdd 64 s.out.bytesCoded pay.length) ∧
        y.comp k = v3.setPast x ((els.reverse ++ past).take (histCap x.esize)) (decide lost) ∧ ∀ j, j ≠ k.val → y.comp j = s.comp j) ∧
      ((w.setComp k v).segsFree + v.part < segsOf pay → ∃ l, l = u.comp k ∧ exec c s = .next (u.setComp k
        { l with part := l.part + u.segsFree, stall := some (if 0 < u.segsFree then s.now else l.stall.getD s.now),
                 stallSaid := l.stallSaid && u.segsFree == 0, stallChan := x.local })))) ∧
  (completes .segmentAvailable s fun t => Frame [.out] s t ∧ (∃ l, t.out.ready = s.out.ready ++ l ∧ ∀ e ∈ l, e.eseq = none) ∧
    (s.segsUsed ≤ 1024 → t.segsUsed ≤ 1024) ∧ t.out.lane = s.out.lane ∧ t.out.eseq = s.out.eseq ∧
    (t.out.stall = none → ∀ x ∈ t.out.streams, t.asmBuilds x = false)) ∧
  (∀ (k : Fin 8) (at_ : Nat), (s.comp k).stall = some at_ → (s.comp k).stallSaid = false → at_ + 25000 < s.now → s.segsFree = 0 →
    completes (.segmentStallTimeout (k.castLE (by decide))) s fun t => Frame [.so, .out] s t ∧
      raisedOnly [(compSrc k, 4, s.compAddr (s.comp k).stallChan)] s t ∧ t.comp k = { s.comp k with stallSaid := true } ∧
      t.out = { s.out with comp := t.out.comp }) ∧
  (∀ at_ : Nat, s.out.stall = some at_ → s.out.stallSaid = false → at_ + 25000 < s.now → s.segsFree = 0 →
    completes (.segmentStallTimeout 8) s fun t => Frame [.so, .out] s t ∧ raisedOnly [(asmSrc, 8, 0)] s t ∧
      t.out = { s.out with stallSaid := true }) ∧
  (0 < s.segsFree ∨ s.out.stall = none ∨ s.out.stallSaid = true ∨ s.now ≤ s.out.stall.getD 0 + 25000 → exec (.segmentStallTimeout 8) s = .next s) ∧
  (∀ k : Fin 8, 0 < s.segsFree ∨ (s.comp k).stall = none ∨ (s.comp k).stallSaid = true ∨ s.now ≤ (s.comp k).stall.getD 0 + 25000 →
    exec (.segmentStallTimeout (k.castLE (by decide))) s = .next s)

/-- 10 R281, R301, R303: the first ready Envelope that has a free lane goes to the lowest one with the next ESEQ and that lane's LSEQ, and waits
there for its acknowledgement; one that turns late is flagged and raises ENVELOPE_LATE once; its words are checked as it leaves, and reach the line where it is open (03 R73). 10 R296: a decode request runs, or is refused. -/
def Obligations.EnvelopesAreAssignedAndDecoded : Prop := ∀ (s : State),
  let u := assemble s
  let choice := firstEnv (fun e => (u.freeLane e.etype).isSome) u.out.ready
  (∀ ecc, choice = none → exec (.envelopeAssign ecc) s = .next u) ∧
  (∀ (e : Env) (l p : Nat) (ecc : List (Nat × Ecc)), choice = some e → u.freeLane e.etype = some l → (u.olane l).phys = some p →
    let v := u.olane l
    let q := e.eseq.getD u.out.eseq
    let late := decide (e.due < u.pm + u.symTicks (e.payload.length + 36)) && !e.late
    let out0 := { u.out with ready := u.out.ready.erase e, late := satAdd 32 u.out.late (b2n late),
                             eseq := if e.eseq = none then (u.out.eseq + 1) % 2 ^ 32 else u.out.eseq,
                             sent := satAdd 64 u.out.sent (b2n e.eseq.isNone) }
    let w := if late then raise asmSrc 1 (asmAddr l q) (u.setOut out0) else u.setOut out0
    let z := ecc.foldl (fun (y : Env × State) d => segmentCheck l y.1 d.1 d.2 y.2)
      ({ e with eseq := some q, lseq := v.lseq, late := e.late || late, resends := 0 }, w)
    let sent := z.1
    completes (.envelopeAssign ecc) s fun t => Frame (touches (.envelopeAssign ecc)) s t ∧ t.so = z.2.so ∧
      raisedOnly (if late then [(asmSrc, 1, asmAddr l q)] else []) u w ∧
      t.out.eseq = out0.eseq ∧ t.out.late = out0.late ∧ t.out.sent = out0.sent ∧
      (t.olane l).lseq = (v.lseq + 1) % 256 ∧
      (∃ r, (t.olane l).unacked = v.unacked ++ [r] ∧ r.eseq = some q ∧ r.lseq = v.lseq ∧ r.payload = sent.payload ∧ r.resends = 0) ∧
      (ecc = [] → sent.payload = e.payload ∧ t.fresh = s.fresh) ∧ sent.eseq = some q ∧ sent.lseq = v.lseq ∧
      sent.late = (e.late || late) ∧ (∀ k, k ≠ l → t.olane k = u.olane k) ∧
      t.lanes = (moveWords (outSrc p) ((true, 0xFB) :: dataSyms (sent.covered u.rank l ++ toBytes 4 (crc32 (sent.covered u.rank l))) ++
        List.replicate 4 (true, 0xFD)) s).lanes ∧
      t.outbox = (if s.lineOpen (outSrc p) then [.envelope p [sent.etype, sent.flags, u.rank, sent.stamp, q, sent.chan, sent.count,
        sent.first, sent.payload.length, l, v.lseq, crc32 (sent.covered u.rank l)] sent.payload] else []) ++ s.outbox) ∧
  (∀ r : BitVec 128,
    let a := bits 39 0 r.toNat
    let n := bits 55 40 r.toNat
    let ty := bits 63 56 r.toNat
    let fits := (ty = 1 ∨ ty = 7) ∧ inUser s.place a n = true
    (s.out.decode = none → fits → completes (.decodeRequest r) s fun t => Frame [.out] s t ∧
      t.out = { s.out with status := 15, decode := some ⟨a, n, ty, bits 79 64 r.toNat, bits 81 80 r.toNat⟩ }) ∧
    (s.out.decode ≠ none ∨ ¬ fits → exec (.decodeRequest r) s = .next s)) ∧
  (∀ q, s.out.decode = some q → completes .decodeDone s fun t => Frame [.out] s t ∧
    let d := decodePayload q.codec (if q.etype = 1 then 8 else 4) q.count (s.bytesAt q.addr q.plen)
    t.out = { s.out with decode := none, status := d.err + 16 + 256 * (d.at_ % 2 ^ 24) + 2 ^ 32 * crc32 d.bytes })

/-- 10 R299, R302, R303, R304, 03 R68: a back-channel word with a good CHK acknowledges, pauses and ends a move to a spare, one with a bad CHK
counts; pauses of more than 15 ms in a block are reported once. An Envelope unacknowledged past retry_timeout is sent again with all
after it until its lane has failed; a lane that does not send its protocol owes the resends. A lane that served and heard no good word for
100 µs fails: it serves no more, with the card of its failure. -/
def Obligations.BackChannelWordsAcknowledge : Prop := ∀ (s : State),
  (∀ (p : Fin 18) (ack st chk : Byte),
    let w : Instr := .backchannelWord p ack st chk
    ((s.lane (outSrc p)).rx ≠ .running ∨ s.outServed p = none → exec w s = .next s) ∧
    (∀ l, (s.lane (outSrc p)).rx = .running → s.outServed p = some l →
      let v := s.olane l
      let split := ackSplit ack.toNat v.unacked
      (chk ≠ ack ^^^ st ^^^ 0x3C → completes w s fun t => Frame [.so, .out] s t ∧
        t.out = { s.out with lane := t.out.lane } ∧ t.olane l = { v with badWords := satAdd 32 v.badWords 1 } ∧
        (∀ k, k ≠ l → t.olane k = s.olane k) ∧ t.so = (raiseLim 250000 asmSrc 4 l l s).so) ∧
      (chk = ack ^^^ st ^^^ 0x3C →
        let long := v.pauseOver == false && decide (3750000 < v.pauseNow s.now)
        let v1 : OutLane := { v with
          unacked := split.2, acked := satAdd 64 v.acked split.1.length, lastWord := s.now, asking := none,
          pauseSum := v.pauseNow s.now, pauseAt := s.now, paused := st.toNat % 2 == 1, pauseOver := v.pauseOver || long }
        let cs : List (Nat × Nat × Nat) := (if v.asking = none then [] else [(outSrc p, 0x0C, 0)]) ++
          if long then [(asmSrc, 2, asmAddr l ((split.2.head?.bind Env.eseq).getD 0))] else []
        let stays (v' : OutLane) (cs' : List (Nat × Nat × Nat)) (t : State) : Prop := Frame [.so, .out] s t ∧
          t.out = { s.out with lane := t.out.lane } ∧ t.olane l = v' ∧ (∀ k, k ≠ l → t.olane k = s.olane k) ∧ raisedOnly cs' s t
        (v.leaving = false ∨ split.2 ≠ [] → completes w s (stays v1 cs)) ∧
        (v.leaving = true → split.2 = [] → (s.lane (outSrc l)).rx ≠ .sync →
          completes w s (stays { v1 with leaving := false } (cs ++ [(outSrc p, 0x0E, 0)]))) ∧
        (v.leaving = true → split.2 = [] → (s.lane (outSrc l)).rx = .sync → completes w s fun t => Frame [.so, .lanes, .out] s t ∧
          t.olane l = { v1 with leaving := false, phys := some l, busy := s.now } ∧ (∀ k, k ≠ l → t.olane k = s.olane k) ∧
          (t.lane (outSrc l)).rx = .running ∧ (t.lane (outSrc p)).rx ≠ .running ∧
          (∀ j, j ≠ outSrc l → j ≠ outSrc p → t.lane j = s.lane j) ∧ raisedOnly cs s t)) ∧
      v.unacked = split.1 ++ split.2 ∧ ((∀ e ∈ v.unacked, e.lseq ≠ ack.toNat) → split.1 = []) ∧
      ((∃ e ∈ v.unacked, e.lseq = ack.toNat) → (split.1.getLast?).map Env.lseq = some ack.toNat))) ∧
  (∀ (l : Fin 16) (p : Nat) (e : Env) (r : List Env),
    let v := s.olane l
    v.phys = some p → v.unacked = e :: r →
    ∀ ecc, (v.owed = true ∨ s.now ≤ e.endAt + us (s.cfg (ob 0x8100 4)) → exec (.retryTimeout l ecc) s = .next s) ∧
    (v.owed = false → e.endAt + us (s.cfg (ob 0x8100 4)) < s.now → e.resends < s.cfg (ob 0x8100 5) →
      (s.outSends p = true → completes (.retryTimeout l ecc) s fun t =>
        Frame [.so, .lanes, .out, .fresh, .outbox] s t ∧
        t.outbox.length = s.outbox.length + (if s.lineOpen (outSrc p) then v.unacked.length else 0) ∧
        (∀ k, k ≠ l.val → t.olane k = s.olane k) ∧ (t.olane l).phys = some p ∧ (t.olane l).lseq = v.lseq ∧
        (t.olane l).retries = satAdd 32 v.retries v.unacked.length ∧
        (t.olane l).unacked.map (fun e => (e.eseq, e.lseq, e.retry, e.resends)) =
          v.unacked.map (fun e => (e.eseq, e.lseq, true, e.resends + 1)) ∧
        (ecc = [] → (t.olane l).unacked.map Env.payload = v.unacked.map Env.payload)) ∧
      (s.outSends p = false → completes (.retryTimeout l ecc) s fun t => Frame [.out] s t ∧
        t.out = { s.out with lane := t.out.lane } ∧ t.olane l = { v with owed := true, recount := true } ∧
        ∀ k, k ≠ l.val → t.olane k = s.olane k))) ∧
  (∀ (l : Fin 16) (p : Nat),
    let v := s.olane l
    let due : Prop := v.phys = some p ∧ (s.lane (outSrc p)).rx = .running ∧ (s.lane (outSrc p)).failed = false ∧ v.asking = none ∧
      v.lastWord + 25000 ≤ s.now ∧ (s.lane (outSrc p)).startPm + 25000 ≤ s.pm
    (due → completes (.backchannelTimeout l) s fun t => Frame [.so, .lanes, .out, .outbox] s t ∧ (t.lane (outSrc p)).failed = true ∧
      (t.olane l).phys ≠ some p ∧ (t.olane l).lseq = v.lseq ∧ ∀ k, k ≠ l.val → t.olane k = s.olane k) ∧
    (v.phys = none ∨ (v.phys = some p ∧ ¬ due) → exec (.backchannelTimeout l) s = .next s)) ∧
  (∀ (l : Fin 16) (p since : Nat) (f : Option Nat), (s.olane l).phys = some p → (s.olane l).asking = some (since, f) →
    since + us (s.cfg (ob 0x8100 7)) ≤ s.now → completes (.outputSpareTimeout l) s fun t =>
      Frame [.so, .lanes, .out, .outbox] s t ∧ (t.olane l).phys = f ∧ (t.olane l).asking = none ∧
      (t.lane (outSrc p)).resume = false ∧ ∀ k, k ≠ l.val → t.olane k = s.olane k)

/-- 10 R304, R305, 03 R68: an output lane that has failed is taken over by a free spare, if output_spare_auto is 1 and not otherwise, or its logical lane goes out of service and
its Envelopes are assigned anew; SPARE_IN and SPARE_OUT do the same by command, or are refused. What a time-out after SPARE_IN
does is assumption 95's; log 99 and 102 hold the rest of what the spec leaves open here. -/
def Obligations.OutputSparesTakeOverFailedLanes : Prop := ∀ (s : State),
  let taken (l p : Nat) (from_ : Option Nat) (t : State) : Prop :=
    (t.olane l).phys = some p ∧ (t.olane l).asking = some (s.now, from_) ∧ (t.olane l).lseq = (s.olane l).lseq ∧
    (t.lane (outSrc p)).rx = .running ∧ (t.lane (outSrc p)).resume = true ∧
    ((s.lane (outSrc p)).tx = .active →
      t.outbox.length = s.outbox.length + (if s.lineOpen (outSrc p) then (s.olane l).unacked.length else 0) ∧
      (t.olane l).unacked.map (fun e => (e.eseq, e.lseq, e.payload, e.retry, e.resends)) =
        (s.olane l).unacked.map fun e => (e.eseq, e.lseq, e.payload, true, 0)) ∧
    ((s.lane (outSrc p)).tx ≠ .active → t.outbox = s.outbox ∧ (t.olane l).unacked = (s.olane l).unacked ∧
      (t.olane l).owed = !(s.olane l).unacked.isEmpty) ∧ ∀ k, k ≠ l → t.olane k = s.olane k
  let out (l : Nat) (cs : List (Nat × Nat × Nat)) (t : State) : Prop :=
    (t.olane l).phys = none ∧ (t.olane l).unacked = [] ∧ (∀ k, k ≠ l → t.olane k = s.olane k) ∧ t.outbox = s.outbox ∧
    t.out.ready = s.out.ready ++ (s.olane l).unacked.map (fun e => { e with retry := true, resends := 0 }) ∧
    raisedOnly (cs ++ [(asmSrc, 7, asmAddr l (((s.olane l).unacked.head?.bind Env.eseq).getD 0))]) s t
  let fails (k : Instr) (l p : Nat) : Prop :=
    (s.cfg (ob 0x8100 6) = 1 → s.outSpareOk 16 = true → p ≠ 16 → completes k s fun t =>
      Frame [.so, .lanes, .out, .outbox] s t ∧ taken l 16 none t ∧ (t.lane (outSrc p)).failed = true) ∧
    (s.cfg (ob 0x8100 6) = 1 → s.outSpareOk 16 = false → s.outSpareOk 17 = true → p ≠ 17 → completes k s fun t =>
      Frame [.so, .lanes, .out, .outbox] s t ∧ taken l 17 none t ∧ (t.lane (outSrc p)).failed = true) ∧
    (s.cfg (ob 0x8100 6) ≠ 1 ∨ (s.outSpareOk 16 = false ∧ s.outSpareOk 17 = false) → completes k s fun t =>
      Frame [.so, .lanes, .out] s t ∧ out l [(outSrc p, 0x0B, 0)] t ∧ lanesBut (outSrc p) s t ∧
      t.lane (outSrc p) = { s.lane (outSrc p) with failed := true, crcTimes := [] })
  (∀ (n : Fin 222) (l p : Nat), n.val = outSrc p → s.failDue n = true → s.outServed p = some l → fails (.laneFailTimeout n) l p) ∧
  (∀ (l : Fin 16) (p : Nat), (s.olane l).phys = some p → (s.lane (outSrc p)).rx = .running → (s.lane (outSrc p)).failed = false →
    (s.olane l).asking = none → (s.olane l).lastWord + 25000 ≤ s.now → (s.lane (outSrc p)).startPm + 25000 ≤ s.pm →
    fails (.backchannelTimeout l) l p) ∧
  (∀ (l : Fin 16) (p : Nat) (e : Env) (r : List Env) (ecc : List (Nat × Nat × Ecc)), (s.olane l).phys = some p →
    (s.olane l).unacked = e :: r → (s.olane l).owed = false → e.endAt + us (s.cfg (ob 0x8100 4)) < s.now →
    s.cfg (ob 0x8100 5) ≤ e.resends → fails (.retryTimeout l ecc) l p) ∧
  (∀ (l : Fin 16) (p since : Nat), (s.olane l).phys = some p → (s.olane l).asking = some (since, none) →
    since + us (s.cfg (ob 0x8100 7)) ≤ s.now → completes (.outputSpareTimeout l) s fun t =>
      Frame [.so, .lanes, .out] s t ∧ out l [(outSrc p, 0x0D, 0)] t ∧ (t.lane (outSrc p)).rx ≠ .running) ∧
  (∀ (l : Fin 16) (p h since : Nat), (s.olane l).phys = some p → (s.olane l).asking = some (since, some h) →
    since + us (s.cfg (ob 0x8100 7)) ≤ s.now → completes (.outputSpareTimeout l) s fun t =>
      Frame [.so, .lanes, .out, .outbox] s t ∧ (t.olane l).phys = some h ∧ (t.olane l).asking = none ∧
        (t.olane l).unacked.map Env.eseq = (s.olane l).unacked.map Env.eseq ∧ (t.lane (outSrc p)).rx ≠ .running ∧
        ∀ k, k ≠ l.val → t.olane k = s.olane k) ∧
  (∀ (l : Fin 16), (s.olane l).phys = none ∨ (s.olane l).asking = none ∨
    (∃ since f, (s.olane l).asking = some (since, f) ∧ s.now < since + us (s.cfg (ob 0x8100 7))) →
      exec (.outputSpareTimeout l) s = .next s) ∧
  (∀ (n : Fin 222) (a : LaneArgs) (p : Nat), n.val = outSrc p →
    (a.arg.toNat ≤ 15 → s.outSpareOk p = true → completes (.spareIn n a) s fun t => Frame [.so, .lanes, .out, .outbox] s t ∧
      ∃ f, taken a.arg.toNat p f t) ∧
    (15 < a.arg.toNat ∨ s.outSpareOk p = false → exec (.spareIn n a) s = .next (raise n 0x0E 0 s)) ∧
    (s.outServed p = none ∨ p < 16 → exec (.spareOut n a) s = .next (raise n 0x0E 0 s)) ∧
    (∀ l, s.outServed p = some l → l < 16 → 16 ≤ p → (s.olane l).asking = none → s.latched (outSrc p) = false →
      s.latched (outSrc l) = false →
      ((s.olane l).unacked ≠ [] → completes (.spareOut n a) s fun t => Frame [.out] s t ∧
        t.olane l = { s.olane l with leaving := true } ∧ ∀ k, k ≠ l → t.olane k = s.olane k) ∧
      ((s.olane l).unacked = [] → (s.lane (outSrc l)).rx = .sync → completes (.spareOut n a) s fun t =>
        Frame [.lanes, .out] s t ∧ (t.olane l).phys = some l ∧ (t.olane l).leaving = false ∧
        (t.lane (outSrc l)).rx = .running ∧ (t.lane (outSrc p)).rx ≠ .running) ∧
      ((s.olane l).unacked = [] → (s.lane (outSrc l)).rx ≠ .sync → completes (.spareOut n a) s fun t =>
        Frame [.so, .out] s t ∧ (t.olane l).phys = some p ∧ (t.olane l).leaving = false ∧ raisedOnly [(outSrc p, 0x0E, 0)] s t)))

/-! ### The Courier (11) -/

/-- 11 R312, R318, R319, R322, R313: ring commands and Letterbox writes act on a ring as its table says, those that its state does not list
or that only the firmware may send are refused, and a free slot goes to the head of the highest list that is not empty. 13 R385: a ring
command waits while control service is interrupted, and behind requests that wait. Log 103 holds that a refused Letterbox write counts and
that a lost context refuses DISABLE and SET_PRIO. -/
def Obligations.RingCommandsFollowTheirTable : Prop := ∀ (s : State) (r : Fin 262144) (fw : Bool),
  let v := s.ring r
  let mine := 4096 ≤ r.val ∨ fw = true
  let back := s.cour.ready.filter (fun x => x != r.val) ++ [r.val]
  let ringBut (t : State) : Prop := (∀ k, k ≠ r.val → t.ring k = s.ring k) ∧
    t.cour = { s.cour with ring := t.cour.ring, ready := t.cour.ready }
  let now : Prop := s.dict.up = false ∨ s.servesNow = true
  let waits (c : Instr) (w : Waiting) : Prop :=
    ¬ now → exec c s = .next { s with dict := { s.dict with waiting := s.dict.waiting ++ [w] } }
  let does (c : Instr) (w : Ring) (l : List Nat) : Prop := now → completes c s fun t => Frame [.cour] s t ∧ ringBut t ∧
    t.ring r = w ∧ t.cour.ready = l
  let counted := satAdd 64 s.cour.doorbells 1
  let refusedNow (c : Instr) (n : Nat) : Prop := completes c s fun t => Frame [.so, .cour] s t ∧ raisedOnly [(0xA20, 5, r)] s t ∧
    t.cour = { s.cour with refused := satAdd 32 s.cour.refused 1, doorbells := n }
  let refused (c : Instr) (n : Nat) : Prop := now → refusedNow c n
  (∀ (prio : Fin 4) (addr : BitVec 40), waits (.ringStart r prio addr fw) (ringWait (ringRecord 1 r prio addr.toNat) fw) ∧
    waits (.ringStop r fw) (ringWait (ringRecord 2 r 0 0) fw) ∧ waits (.ringDisable r fw) (ringWait (ringRecord 3 r 0 0) fw) ∧
    waits (.setPrio r prio fw) (ringWait (ringRecord 4 r prio 0) fw)) ∧
  (∀ (prio : Fin 4) (addr : BitVec 40),
    let c : Instr := .ringStart r prio addr fw
    (mine → addr.toNat % 32 = 0 → addr ≠ 0 → (v.st = .disabled ∨ v.st = .stopped ∨ v.st = .error) →
      does c { v with st := .running, cur := addr.toNat, atLink := false, done := 0, prio := prio, pending := false, stopReq := false,
                      resetStop := false, error := 0, desc := none, link := false, wake := false, lost := false } back) ∧
    (mine → addr = 0 → (v.st = .stopped ∨ v.st = .error) → v.lost = false →
      does c { v with st := .running, prio := prio, resetStop := false, error := 0, desc := none, wake := false, link := v.atLink }
        (if v.atLink then s.cour.ready else back)) ∧
    (¬ mine ∨ addr.toNat % 32 ≠ 0 ∨ v.st = .running ∨ v.st = .parked ∨ (addr = 0 ∧ (v.st = .disabled ∨ v.lost = true)) → refused c s.cour.doorbells)) ∧
  (mine → v.st = .running → does (.ringStop r fw) { v with stopReq := true } s.cour.ready) ∧
  (mine → v.st = .parked → does (.ringStop r fw) { v with st := .stopped } s.cour.ready) ∧
  (mine → v.st = .stopped → now → exec (.ringStop r fw) s = .next s) ∧
  (¬ mine ∨ v.st = .disabled ∨ v.st = .error → refused (.ringStop r fw) s.cour.doorbells) ∧
  (mine → (v.st = .stopped ∨ v.st = .error) → v.lost = false → does (.ringDisable r fw) {} s.cour.ready) ∧
  (¬ mine ∨ v.st = .disabled ∨ v.st = .running ∨ v.st = .parked ∨ v.lost = true → refused (.ringDisable r fw) s.cour.doorbells) ∧
  (∀ prio : Fin 4, (mine → v.lost = false →
      does (.setPrio r prio fw) { v with prio := prio } (if r.val ∈ s.cour.ready then back else s.cour.ready)) ∧
    (¬ mine ∨ v.lost = true → refused (.setPrio r prio fw) s.cour.doorbells)) ∧
  (mine → completes (.letterbox r fw) s fun t => Frame [.cour] s t ∧ (∀ k, k ≠ r.val → t.ring k = s.ring k) ∧
    t.cour = { s.cour with ring := t.cour.ring, doorbells := counted } ∧
    t.ring r = (if v.st = .running then { v with pending := true }
      else if v.st = .parked then { v with st := .running, link := true, wake := true } else v)) ∧
  (¬ mine → refusedNow (.letterbox r fw) counted) ∧
  (∀ (l₁ l₂ : List Nat) (q k : Nat), s.cour.ready = l₁ ++ q :: l₂ → (∀ x ∈ l₁, (s.ring x).prio < (s.ring q).prio) →
    (∀ x ∈ l₂, (s.ring x).prio ≤ (s.ring q).prio) → k < 16 → s.cour.slot.get noSlot k = none →
    (∀ j, j < k → s.cour.slot.get noSlot j ≠ none) → completes .slotGrant s fun t => Frame [.cour] s t ∧
      t.cour = { s.cour with ready := s.cour.ready.filter (fun x => x != q), slot := t.cour.slot } ∧
      t.cour.slot.get noSlot k = some q ∧ ∀ j, j ≠ k → t.cour.slot.get noSlot j = s.cour.slot.get noSlot j) ∧
  (s.cour.ready = [] ∨ (∀ j, j < 16 → s.cour.slot.get noSlot j ≠ none) → exec .slotGrant s = .next s)

/-- 11 R319, R325, R326, R327, R330, R331, R332: a running ring fetches its descriptor, moves the source bytes to the destination, counts and
signals the completion, goes on to the next or reads the link word, and goes to ERROR with the cause and the address where an access
fails; what a lost context had moved by then stays moved. That a descriptor without BARRIER whose last write answers with an error is
complete first is assumption 195's; log 33 holds how much of a failed transfer was moved, log 103 when its bytes move. -/
def Obligations.DescriptorsFetchMoveAndComplete : Prop := ∀ (s : State) (r : Fin 262144),
  let v := s.ring r
  let runs := v.st = .running ∧ s.inSlot r = true
  let others (s1 t : State) : Prop := ∀ k, k ≠ r.val → t.ring k = s1.ring k
  let noReady (l : List Nat) : List Nat := l.filter fun x => x != r.val
  let fails (c : Instr) (code kind addr : Nat) (link : Bool) (s1 : State) : Prop := completes c s fun t =>
    Frame [.so, .cour] s1 t ∧ raisedOnly [(0xA20, kind, r)] s1 t ∧ others s1 t ∧
    t.ring r = { v with st := .error, error := code, atLink := link, desc := none, link := false, wake := false } ∧
    t.cour = { s.cour with ring := t.cour.ring, ready := noReady s.cour.ready, slot := s.cour.slot.filter (fun e => e.2 != some r.val),
                           errors := satAdd 32 s.cour.errors 1, lastRing := r, lastAddr := addr }
  let moves (c : Instr) (w : Ring) (l : List Nat) (wakes : Nat) (s1 : State) : Prop := completes c s fun t =>
    Frame [.cour] s1 t ∧ others s1 t ∧ t.ring r = w ∧
    t.cour = { s.cour with ring := t.cour.ring, ready := l, wakes := wakes }
  (∀ (ecc : List (Nat × Ecc)) (s1 : State), runs → v.desc = none → v.link = false →
    (∀ b, courRead r v.cur 32 1 ecc s = (.ok b, s1) →
      let d := descOf (ofBytes b)
      (descBad r d = false → moves (.descriptorFetched r ecc) { v with desc := some d } s.cour.ready s.cour.wakes s1) ∧
      (descBad r d = true → fails (.descriptorFetched r ecc) 5 4 v.cur false s1)) ∧
    (∀ code kind a, courRead r v.cur 32 1 ecc s = (.error (code, a), s1) → (code = 1 ∧ kind = 1) ∨ (code = 4 ∧ kind = 3) →
      fails (.descriptorFetched r ecc) code kind a false s1)) ∧
  (∀ (ecc : List (Nat × Ecc)), ¬ runs → exec (.descriptorFetched r ecc) s = .next s ∧ exec (.descriptorComplete r ecc) s = .next s) ∧
  (∀ (ecc : List (Nat × Ecc)) (s1 : State) (b : List Byte), v.st = .running → v.link = true →
    courRead r v.cur 8 1 ecc s = (.ok b, s1) →
    let c : Instr := .linkReadDone r ecc
    let w := ofBytes b
    (v.stopReq = true → moves c { v with st := .stopped, stopReq := false, pending := false, link := false, wake := false } s.cour.ready s.cour.wakes s1) ∧
    (v.stopReq = false → w % 2 = 0 → moves c { v with cur := w / 32 % 2 ^ 35 * 32, atLink := false, link := false, wake := false }
      (noReady s.cour.ready ++ [r.val]) (if v.wake then satAdd 64 s.cour.wakes 1 else s.cour.wakes) s1) ∧
    (v.stopReq = false → w % 2 = 1 → v.pending = true → moves c { v with pending := false, wake := true } s.cour.ready s.cour.wakes s1) ∧
    (v.stopReq = false → w % 2 = 1 → v.pending = false → moves c { v with st := .parked, link := false, wake := false } s.cour.ready s.cour.wakes s1)) ∧
  (∀ (ecc : List (Nat × Ecc)) (s1 : State) (code kind a : Nat), v.st = .running → v.link = true →
    courRead r v.cur 8 1 ecc s = (.error (code, a), s1) → (code = 1 ∧ kind = 1) ∨ (code = 4 ∧ kind = 3) →
    fails (.linkReadDone r ecc) code kind a true s1) ∧
  (∀ ecc : List (Nat × Ecc), v.st ≠ .running ∨ v.link = false → exec (.linkReadDone r ecc) s = .next s) ∧
  (∀ (d : Desc) (ecc : List (Nat × Ecc)) (s1 : State), transfer r d ecc s = (none, s1) → s.ctrl.reqs = [] → (∀ k, k < 4 → (s.stk k).queue = []) →
    (∀ k, k < 4 → injFor (stackSrc k) 1 s = none) → dramBase ≤ d.src →
    d.src + d.len ≤ dramBase + 8 * stackSize → dramBase ≤ d.dst → d.dst + d.len ≤ dramBase + 8 * stackSize →
    (∀ b, s.inBuffer b d.dst d.len = false) → ¬ (d.src < d.dst ∧ d.dst < d.src + d.len) → stored d.dst (s.bytesAt d.src d.len) s s1) ∧
  (∀ (d : Desc) (ecc : List (Nat × Ecc)) (s1 : State), runs → v.desc = some d → transfer r d ecc s = (none, s1) →
    let w := { v with done := (v.done + 1) % 2 ^ 32, lastTag := d.tag, desc := none }
    let after (t : State) : Prop := t.cour.done = satAdd 64 s.cour.done 1 ∧ t.cour.moved = satAdd 64 s.cour.moved d.len ∧
      (∀ e ∈ t.cour.slot, e.2 ≠ some r.val) ∧ (t.ring r).done = w.done ∧ (t.ring r).lastTag = d.tag
    (d.evtEn = false → completes (.descriptorComplete r ecc) s fun t => Frame [.cour] s1 t ∧ after t ∧ others s1 t ∧
      t.ring r = (if v.stopReq then { w with st := .stopped, stopReq := false, pending := false, atLink := true }
        else if d.eoc then { w with atLink := true, pending := false, link := true, wake := false } else { w with cur := d.next }) ∧
      t.cour.ready = (if v.stopReq || d.eoc then s.cour.ready else noReady s.cour.ready ++ [r.val])) ∧
    (d.evtEn = true → d.evtClass = 0 → completes (.descriptorComplete r ecc) s fun t => Frame [.cour, .tally] s1 t ∧ after t ∧
      let c := d.evtNum / 16 % 4
      let k := d.evtNum % 16
      t.core c = (if (s1.core c).ipend.getLsbD k then { s1.core c with merged := satAdd 32 (s1.core c).merged 1 }
        else { s1.core c with ipend := (s1.core c).ipend ||| BitVec.ofNat 32 (2 ^ k) }) ∧ ∀ x, x ≠ c → t.core x = s1.core x) ∧
    (d.evtEn = true → d.evtClass = 1 → d.evtNum ≠ r.val → (s.ring d.evtNum).st = .parked →
      completes (.descriptorComplete r ecc) s fun t => Frame [.cour] s1 t ∧ after t ∧
        t.ring d.evtNum = { s.ring d.evtNum with st := .running, link := true, wake := true } ∧
        t.cour.doorbells = satAdd 64 s.cour.doorbells 1) ∧
    (d.evtEn = true → d.evtClass = 1 → d.evtNum ≠ r.val → (s.ring d.evtNum).st = .running →
      completes (.descriptorComplete r ecc) s fun t => Frame [.cour] s1 t ∧ after t ∧
        t.ring d.evtNum = { s.ring d.evtNum with pending := true } ∧ t.cour.doorbells = satAdd 64 s.cour.doorbells 1) ∧
    (d.evtEn = true → d.evtClass = 2 → completes (.descriptorComplete r ecc) s fun t => Frame [.cour] s1 t ∧ after t ∧
      t.cour.marks.get zeroTab (d.evtNum % 16) = s1.out.eseq % 2 ^ 32 + 2 ^ 32 * r + 2 ^ 56 * d.tag + 2 ^ 64 * s1.pm)) ∧
  (∀ (d : Desc) (ecc : List (Nat × Ecc)) (s1 : State) (code kind a : Nat), runs → v.desc = some d →
    transfer r d ecc s = (some (code, a), s1) → (code = 4 ∧ kind = 3) ∨ ((code = 2 ∨ code = 3) ∧ kind = 2) →
    (lastWrite d (code, a) = false → fails (.descriptorComplete r ecc) code kind a false s1) ∧
    (lastWrite d (code, a) = true → completes (.descriptorComplete r ecc) s fun t => Frame (touches (.descriptorComplete r ecc)) s t ∧
      (t.ring r).st = .error ∧ (t.ring r).error = code ∧ (t.ring r).cur = v.cur ∧ (t.ring r).atLink = false ∧
      (t.ring r).done = (v.done + 1) % 2 ^ 32 ∧ (t.ring r).lastTag = d.tag ∧ r.val ∉ t.cour.ready ∧
      t.cour.done = satAdd 64 s.cour.done 1 ∧ t.cour.moved = satAdd 64 s.cour.moved d.len ∧
      t.cour.errors = satAdd 32 s.cour.errors 1 ∧ t.cour.lastRing = r ∧ t.cour.lastAddr = a) ∧
    (injFor 0xA20 1 s = none → (lastWrite d (code, a) = false → fails (.ringError r .ok ecc) code kind a false s1) ∧
      (lastWrite d (code, a) = true → exec (.ringError r .ok ecc) s = .next s))) ∧
  (∀ ecc : List (Nat × Ecc), injFor 0xA20 1 s = none →
    let u := cutTransfer r ecc s
    (v.desc = none ∨ ¬ runs → u = s ∧ exec (.ringError r .ok ecc) s = .next s) ∧
    (completes (.ringError r .corrected ecc) s fun t => Frame [.so, .cour] s t ∧ raisedOnly [(0xA20, 6, r)] s t ∧
      t.cour = { s.cour with ctxCorr := satAdd 32 s.cour.ctxCorr 1 }) ∧
    (completes (.ringError r .uncorrectable ecc) s fun t => Frame [.so, .cour] u t ∧ raisedOnly [(0xA20, 7, r)] u t ∧
      t.ring r = { st := .error, error := 6, lost := true } ∧ (∀ k, k ≠ r.val → t.ring k = s.ring k) ∧
      t.cour = { s.cour with ring := t.cour.ring, ready := noReady s.cour.ready, slot := s.cour.slot.filter (fun e => e.2 != some r.val),
                             ctxUncorr := satAdd 32 s.cour.ctxUncorr 1, errors := satAdd 32 s.cour.errors 1, lastRing := r,
                             lastAddr := 0 }))

/-! ### Tally cores (12) -/

/-- 12 R342, R344 to R347, R359: every ALU and immediate instruction writes its result to GD (a write of G0 is discarded) and Z, N, C and V,
the MAC instructions add their products to the accumulators with symmetric saturation, EXT, MFA and MTA move them, and NOP and FENCE
change nothing but the pc and the cycles. The C that ABS leaves is free (log 34). -/
def Obligations.TallyArithmeticWritesResultsFlagsAndAccumulators : Prop :=
    ∀ (s : State) (c : Fin 4) (e : TEnv) (gd gs gt : Fin 16) (imm : BitVec 18) (n : Fin 32) (a : Fin 4) (sub clr h k : Bool),
  let v := s.core c
  let w := v.spent e
  let x := v.reg gs
  let y := v.reg gt
  let cin := b2n (srBit v.sr 2)
  let i := imm.signExtend 32
  let z := imm.zeroExtend 32
  let does (i : Instr) (o : TOp) (u : Core) : Prop := s.executes c e o → completes i s fun t => Frame [.tally] s t ∧ coreIs c u.onward s t
  let alu (i : Instr) (o : TOp) (r : Word) (cf vf : Bool) : Prop :=
    does i o ({ w with sr := srFlags v.sr (decide (r = 0)) r.msb cf vf }.setReg gd r)
  let lo (q : Word) : Int := (q.truncate 16).toInt
  let hi (q : Word) : Int := ((q >>> 16).truncate 16).toInt
  let part (q : Word) (up : Bool) : Int := if up then hi q else lo q
  let wide (up : Bool) : Int := (x.toInt * part y up + 2 ^ 14) / 2 ^ 15
  let put (b : Nat) (term : Int) (u : Core) : Core :=
    let r := (if clr then 0 else (v.accum b).toInt) + (if sub then -term else term)
    let q := max (-(2 ^ 39 - 1)) (min (2 ^ 39 - 1) r)
    { u.setAccum b (BitVec.ofInt 40 q) with sr := if r = q then u.sr else u.sr ||| 0x40 }
  let other : Nat := a.val ^^^ 1
  (does (.tNop c e) .nop w ∧ does (.tFence c e) .fence w) ∧
  (alu (.tAdd c e gd gs gt) (.alu 0 gd gs gt) (x + y) (decide (2 ^ 32 ≤ x.toNat + y.toNat)) (decide ((x + y).toInt ≠ x.toInt + y.toInt)) ∧
    (let r := x + y + BitVec.ofNat 32 cin
     alu (.tAddc c e gd gs gt) (.alu 1 gd gs gt) r (decide (2 ^ 32 ≤ x.toNat + y.toNat + cin)) (decide (r.toInt ≠ x.toInt + y.toInt + cin))) ∧
    alu (.tSub c e gd gs gt) (.alu 2 gd gs gt) (x - y) (decide (y.toNat ≤ x.toNat)) (decide ((x - y).toInt ≠ x.toInt - y.toInt)) ∧
    (let b := 1 - cin
     let r := x - y - BitVec.ofNat 32 b
     alu (.tSubb c e gd gs gt) (.alu 3 gd gs gt) r (decide (y.toNat + b ≤ x.toNat)) (decide (r.toInt ≠ x.toInt - y.toInt - b))) ∧
    alu (.tAnd c e gd gs gt) (.alu 4 gd gs gt) (x &&& y) false false ∧ alu (.tOr c e gd gs gt) (.alu 5 gd gs gt) (x ||| y) false false ∧
    alu (.tXor c e gd gs gt) (.alu 6 gd gs gt) (x ^^^ y) false false ∧
    alu (.tShl c e gd gs gt) (.alu 7 gd gs gt) (x <<< (y.toNat % 32)) false false ∧
    alu (.tShr c e gd gs gt) (.alu 8 gd gs gt) (x >>> (y.toNat % 32)) false false ∧
    alu (.tSar c e gd gs gt) (.alu 9 gd gs gt) (x.sshiftRight (y.toNat % 32)) false false ∧
    alu (.tMin c e gd gs gt) (.alu 10 gd gs gt) (if x.toInt < y.toInt then x else y) false false ∧
    alu (.tMax c e gd gs gt) (.alu 11 gd gs gt) (if x.toInt < y.toInt then y else x) false false ∧
    alu (.tClz c e gd gs) (.alu 13 gd gs 0) (if x = 0 then 32 else BitVec.ofNat 32 (31 - x.toNat.log2)) false false ∧
    alu (.tMul c e gd gs gt) (.alu 14 gd gs gt) (x * y) false false ∧
    alu (.tMulh c e gd gs gt) (.alu 15 gd gs gt) (((x.signExtend 64 * y.signExtend 64) >>> 32).truncate 32) false false ∧
    alu (.tMulhu c e gd gs gt) (.alu 16 gd gs gt) (((x.zeroExtend 64 * y.zeroExtend 64) >>> 32).truncate 32) false false) ∧
  (s.executes c e (.alu 12 gd gs 0) → completes (.tAbs c e gd gs) s fun t => Frame [.tally, .fresh] s t ∧ ∃ cf : Bool,
    let r : Word := BitVec.ofInt 32 (min (2 ^ 31 - 1) x.toInt.natAbs)
    coreIs c ({ w with sr := srFlags v.sr (decide (r = 0)) r.msb cf (decide (x = 0x80000000)) }.setReg gd r).onward s t) ∧
  (alu (.tAddi c e gd gs imm) (.immOp 0 gd gs imm) (x + i) (decide (2 ^ 32 ≤ x.toNat + i.toNat)) (decide ((x + i).toInt ≠ x.toInt + i.toInt)) ∧
    alu (.tAndi c e gd gs imm) (.immOp 1 gd gs imm) (x &&& z) false false ∧
    alu (.tOri c e gd gs imm) (.immOp 2 gd gs imm) (x ||| z) false false ∧
    alu (.tXori c e gd gs imm) (.immOp 3 gd gs imm) (x ^^^ z) false false ∧
    alu (.tShiShl c e gd gs n) (.shi 0 gd gs n) (x <<< n.val) false false ∧
    alu (.tShiShr c e gd gs n) (.shi 1 gd gs n) (x >>> n.val) false false ∧
    alu (.tShiSar c e gd gs n) (.shi 2 gd gs n) (x.sshiftRight n.val) false false ∧
    does (.tLui c e gd imm) (.lui gd imm) (w.setReg gd (BitVec.ofNat 32 (imm.toNat * 2 ^ 14))) ∧
    does (.tCmpi c e gs imm) (.cmpi gs imm) { w with
      sr := srFlags v.sr (decide (x = i)) (x - i).msb (decide (i.toNat ≤ x.toNat)) (decide ((x - i).toInt ≠ x.toInt - i.toInt)) }) ∧
  (does (.tMac c e a sub clr gs gt h k) (.mac a sub clr gs gt h k) (put a (part x h * part y k) w) ∧
    does (.tMacDual c e a sub clr gs gt k) (.macDual a sub clr gs gt k)
      (put other (if k then hi x * lo y else hi x * hi y) (put a (if k then lo x * hi y else lo x * lo y) w)) ∧
    does (.tMacw c e a sub clr gs gt k) (.macw a sub clr gs gt k) (put a (wide k) w) ∧
    does (.tMacwDual c e a sub clr gs gt) (.macwDual a sub clr gs gt) (put other (wide true) (put a (wide false) w)) ∧
    (let top : Int := if h then 32767 else 2 ^ 31 - 1
     let r : Int := ((v.accum a).toInt + 2 ^ n.val / 2) / 2 ^ n.val
     let q := max (-top) (min top r)
     does (.tExt c e gd a n h) (.ext gd a n h) ({ w with sr := if r = q then v.sr else v.sr ||| 0x20 }.setReg gd (BitVec.ofInt 32 q))) ∧
    does (.tMfa c e gd a false) (.mfa gd a false) (w.setReg gd ((v.accum a).truncate 32)) ∧
    does (.tMfa c e gd a true) (.mfa gd a true) (w.setReg gd (((v.accum a >>> 32).truncate 8).signExtend 32)) ∧
    does (.tMta c e gd a false) (.mta gd a false) (w.setAccum a (((v.accum a >>> 32).truncate 8) ++ v.reg gd)) ∧
    does (.tMta c e gd a true) (.mta gd a true) (w.setAccum a (((v.reg gd).truncate 8) ++ (v.accum a).truncate 32)))

/-- 12 R337, R338, R339, R358, R359, R360: loads and stores reach the byte, halfword or word at ea and step GS on with POST = 1, POST queues the
record or refuses it, each word of the record checked, and a misaligned ea, an ea outside the data space and an error answer enter FAULT
with none of the effect. The check of alignment before range is log 106's, that of the header as a
core load log 109's. -/
def Obligations.TallyLoadsStoresAndPostsReachMemory : Prop :=
    ∀ (s : State) (c : Fin 4) (e : TEnv) (gd gs : Fin 16) (post : Bool) (off : BitVec 17),
  let v := s.core c
  let w := v.spent e
  let x := v.reg gs
  let far : Word := x + off.signExtend 32
  let ea := (if post then x else far).toNat
  let stepped (u : Core) : Core := u.setReg gs (if post then far else x)
  let bus := v.seg.toNat % 65536 * 2 ^ 24 + ea % 2 ^ 24
  let isFar := 0x1000000 ≤ ea ∧ ea < 0x2000000
  let s0 := tallyCycles c e s
  let lost (t : State) : Prop := (t.core c).st = .fault ∧ (t.core c).faultCode = 4 ∧ (t.core c).faultPc = v.pc
  let own := dmBase c + ea
  let load (i : Instr) (o : TOp) (n : Nat) (ext : Nat → Word) : Prop := s.executes c e o →
    (ea % n = 0 → ea < 0x80000 → e.data = .ok → injFor (coreSrc c) 1 s = none →
      completes i s fun t => Frame [.tally] s t ∧ coreIs c ((stepped w).setReg gd (ext (ofBytes (s.bytesAt own n)))).onward s t) ∧
    (ea % n = 0 → ea < 0x80000 → e.data = .corrected → injFor (coreSrc c) 1 s = none → completes i s fun t =>
      Frame [.so, .tally] s t ∧ raisedOnly [(coreSrc c, 7, ea)] s t ∧ (t.core c).dmCorr = satAdd 32 v.dmCorr 1 ∧
      (gd ≠ 0 → (t.core c).reg gd = ext (ofBytes (s.bytesAt own n)))) ∧
    (ea % n = 0 → ea < 0x80000 → e.data = .uncorrectable → injFor (coreSrc c) 1 s = none → completes i s fun t =>
      Frame [.so, .tally] s t ∧ raisedOnly [(coreSrc c, 8, ea)] s t ∧ (t.core c).st = .fault ∧ (t.core c).faultCode = 8 ∧
      (t.core c).faultPc = v.pc ∧ (t.core c).uncorr = satAdd 32 v.uncorr 1 ∧ ∀ g, (t.core c).reg g = v.reg g) ∧
    (∀ (d : List Byte) (s1 : State), ea % n = 0 → isFar → farRead c bus n e.data s0 = (0, d, s1) → completes i s fun t =>
      Frame [.tally] s1 t ∧ coreIs c ((stepped (s1.core c)).setReg gd (ext (ofBytes d))).onward s1 t) ∧
    (ea % n = 0 → isFar → (farRead c bus n e.data s0).1 ≠ 0 → completes i s lost) ∧
    (ea % n ≠ 0 → completes i s (coreFaults c e 3 (v.pc + ea % 2 ^ 24 * 65536) s)) ∧
    (ea % n = 0 → 0x80000 ≤ ea → (ea < 0x1000000 ∨ 0x2000000 ≤ ea) → completes i s (coreFaults c e 2 (v.pc + ea % 2 ^ 24 * 65536) s))
  let store (i : Instr) (o : TOp) (n : Nat) : Prop := s.executes c e o →
    (ea % n = 0 → ea < 0x80000 → completes i s fun t => Frame [.tally, .mm] s t ∧ coreIs c (stepped w).onward s t ∧
      stored own (toBytes n (v.reg gd).toNat) s t) ∧
    (∀ s1 : State, ea % n = 0 → isFar → masterWrite (2 + c) 0 bus false (toBytes n (v.reg gd).toNat) s0 = (0, s1) → completes i s fun t =>
      Frame [.tally] s1 t ∧ coreIs c (stepped (s1.core c)).onward s1 t) ∧
    (ea % n = 0 → isFar → (masterWrite (2 + c) 0 bus false (toBytes n (v.reg gd).toNat) s0).1 ≠ 0 → completes i s lost) ∧
    (ea % n ≠ 0 → completes i s (coreFaults c e 3 (v.pc + ea % 2 ^ 24 * 65536) s)) ∧
    (ea % n = 0 → 0x80000 ≤ ea → (ea < 0x1000000 ∨ 0x2000000 ≤ ea) → completes i s (coreFaults c e 2 (v.pc + ea % 2 ^ 24 * 65536) s))
  load (.tLdw c e gd gs post off) (.load 0 gd gs post off) 4 (BitVec.ofNat 32) ∧
  load (.tLdh c e gd gs post off) (.load 1 gd gs post off) 2 (fun b => (BitVec.ofNat 16 b).signExtend 32) ∧
  load (.tLdhu c e gd gs post off) (.load 2 gd gs post off) 2 (fun b => (BitVec.ofNat 16 b).zeroExtend 32) ∧
  load (.tLdb c e gd gs post off) (.load 3 gd gs post off) 1 (fun b => (BitVec.ofNat 8 b).signExtend 32) ∧
  load (.tLdbu c e gd gs post off) (.load 4 gd gs post off) 1 (fun b => (BitVec.ofNat 8 b).zeroExtend 32) ∧
  store (.tStw c e gd gs post off) (.store 0 gd gs post off) 4 ∧ store (.tSth c e gd gs post off) (.store 1 gd gs post off) 2 ∧
  store (.tStb c e gd gs post off) (.store 2 gd gs post off) 1 ∧
  (s.executes c e (.post gd gs) →
    let i : Instr := .tPost c e gd gs
    let at_ := x.toNat
    let h := s.numAt (dmBase c + at_) 8
    let len := h / 2 ^ 24 % 256
    let words := wordsIn (at_ + 8) len
    let damaged (t : State) : Prop := (t.core c).st = .fault ∧ (t.core c).faultCode = 8 ∧ (t.core c).faultPc = v.pc ∧
      (t.core c).posts = v.posts ∧ (t.core c).uncorr = satAdd 32 v.uncorr 1 ∧ ∀ g, (t.core c).reg g = v.reg g
    (at_ % 8 ≠ 0 → completes i s (coreFaults c e 3 (v.pc + at_ % 2 ^ 24 * 65536) s)) ∧
    (at_ % 8 = 0 → 0x80000 ≤ at_ → completes i s (coreFaults c e 2 (v.pc + at_ % 2 ^ 24 * 65536) s)) ∧
    (at_ % 8 = 0 → at_ < 0x80000 → e.data = .uncorrectable → completes i s damaged) ∧
    (at_ % 8 = 0 → at_ < 0x80000 → e.data = .ok → injFor (coreSrc c) 1 s = none →
      (len = 0 ∨ 56 < len → completes i s fun t => Frame [.so, .tally, .mm] s t ∧ stored (dmBase c + at_ + 4) [4] s t ∧
        t.so = (raiseLim (ms 1) (coreSrc c) 0xA 0 0 s).so ∧ (t.core c).pc = w.onward.pc ∧
        (t.core c).refused = satAdd 32 v.refused 1 ∧ (t.core c).ipend.getLsbD 14 = true ∧ (t.core c).posts = v.posts ∧
        (gd ≠ 0 → (t.core c).reg gd = 2) ∧ (∀ g, g ≠ gd → (t.core c).reg g = v.reg g) ∧ ∀ d, d ≠ c.val → t.core d = s.core d) ∧
      (1 ≤ len → len ≤ 56 → 0x80000 < at_ + 8 + len → completes i s (coreFaults c e 2 (v.pc + at_ % 2 ^ 24 * 65536) s)) ∧
      (1 ≤ len → len ≤ 56 → at_ + 8 + len ≤ 0x80000 → 16 ≤ v.posts.length → completes i s fun t => Frame [.tally] s t ∧
        coreIs c (w.setReg gd 0).onward s t) ∧
      (1 ≤ len → len ≤ 56 → at_ + 8 + len ≤ 0x80000 → v.posts.length < 16 → (∃ d ∈ words, eccAt e.more d = .uncorrectable) →
        completes i s damaged) ∧
      (1 ≤ len → len ≤ 56 → at_ + 8 + len ≤ 0x80000 → v.posts.length < 16 → (∀ d ∈ words, eccAt e.more d = .ok) → completes i s fun t => Frame [.tally, .mm] s t ∧
        stored (dmBase c + at_ + 4) [0] s t ∧ (t.core c).queued = satAdd 64 v.queued 1 ∧
        (t.core c).posts = v.posts ++ [⟨at_, h % 65536, h / 65536 % 256, s.bytesAt (dmBase c + at_ + 8) len⟩] ∧
        (t.core c).pc = w.onward.pc ∧ (t.core c).cycles = w.cycles + (8 + len + 7) / 8 ∧ (gd ≠ 0 → (t.core c).reg gd = 1) ∧
        (∀ g, g ≠ gd → (t.core c).reg g = v.reg g) ∧ ∀ d, d ≠ c.val → t.core d = s.core d)))

/-- 12 R339, R341, R343, R348 to R350, R355, R356, R359: jumps act after their delay slot and link, a target outside program memory enters FAULT,
RPT repeats its body, MFC and MTC reach the control registers (bits that 12 Tables 12.3 and 12.4 do not give read as any value), WAIT, HALT and ILL leave RUN, an instruction that may not stand in a
delay slot is illegal there, and a core that does not execute ignores instructions. Log 108 holds the model's choices on links, targets
and the end of program memory, log 109 that on a body that may not be repeated. -/
def Obligations.TallyControlFlowJumpsRepeatsAndStops : Prop :=
    ∀ (s : State) (c : Fin 4) (e : TEnv) (gd gs : Fin 16) (cond : Fin 13) (off : BitVec 22) (n : BitVec 12) (k : Fin 14),
  let v := s.core c
  let w := v.spent e
  let x := v.reg gs
  let good := v.executes = true ∧ e.fetch = .ok ∧ injFor (coreSrc c) 2 s = none
  let does (i : Instr) (o : TOp) (u : Core) : Prop := s.executes c e o → completes i s fun t => Frame [.tally] s t ∧ coreIs c u s t
  let jumps (i : Instr) (o : TOp) (dest : Int) (sr : Option Word) (u : Core) : Prop :=
    (0 ≤ dest ∧ dest ≤ 0xFFFF → does i o { u with pc := v.pc + 1, slot := some ⟨dest.toNat, sr⟩ }) ∧
    (dest < 0 ∨ 0xFFFF < dest → s.executes c e o → completes i s (coreFaults c e 2 v.pc s))
  let z := srBit v.sr 0
  let ng := srBit v.sr 1
  let cf := srBit v.sr 2
  let vf := srBit v.sr 3
  let taken := [true, z, !z, ng != vf, ng == vf, !z && ng == vf, z || ng != vf, !cf, cf, ng, !ng, vf, !vf].getD cond false
  let link := BitVec.ofNat 32 (v.pc + 2)
  (taken = true → jumps (.tB c e cond off) (.branch cond off) (v.pc + off.toInt) none w) ∧
  (taken = false → does (.tB c e cond off) (.branch cond off) { w with pc := v.pc + 1, slot := some ⟨v.pc + 2, none⟩ }) ∧
  jumps (.tBal c e off) (.bal off) (v.pc + off.toInt) none (w.setReg 15 link) ∧
  jumps (.tJr c e gs) (.jr gs) x.toNat none w ∧ jumps (.tJalr c e gd gs) (.jalr gd gs) x.toNat none (w.setReg gd link) ∧
  jumps (.tReti c e) .reti v.epc.toNat (some (v.esr &&& 0x7F)) w ∧
  (∀ j : Slot, v.slot = some j → v.rpt = none → v.haltReq = false →
    does (.tNop c e) .nop { w with slot := none, pc := j.target, sr := j.sr.getD v.sr }) ∧
  (good → v.slot ≠ none → ∀ i ∈ [Instr.tB c e cond off, .tBal c e off, .tJr c e gs, .tJalr c e gd gs, .tReti c e, .tRpt c e gs n, .tWait c e,
    .tHalt c e], completes i s (coreFaults c e 1 v.pc s)) ∧
  (let body := tallyDecode (s.pmWord c (v.pc + 1))
   let times := if gs = 0 then n.toNat + 1 else (x - 1).toNat % 4096 + 1
   ((∀ o, body = some o → topNoBody o = false) → does (.tRpt c e gs n) (.rpt gs n) { w with pc := v.pc + 1, rpt := some times }) ∧
   (∀ o, body = some o → topNoBody o = true → s.executes c e (.rpt gs n) → completes (.tRpt c e gs n) s (coreFaults c e 1 v.pc s))) ∧
  (∀ m, v.rpt = some m → v.haltReq = false →
    does (.tNop c e) .nop (if 1 < m then { w with rpt := some (m - 1) } else { w with rpt := none, pc := v.pc + 1 })) ∧
  (let value := [v.sr, v.esr, v.epc, v.vbase, v.ien, v.ipend, v.seg, v.cmpLo, v.cmpHi, BitVec.ofNat 32 s.pm, v.pmHi, BitVec.ofNat 32 w.cycles,
     v.cycHi, BitVec.ofNat 32 c].getD k 0
   let latched := if k = 9 then { w with pmHi := BitVec.ofNat 32 (s.pm / 2 ^ 32) }
     else if k = 11 then { w with cycHi := BitVec.ofNat 32 (w.cycles / 2 ^ 32) } else w
   let free : Word := if k ≤ 1 then 0xFFFFFF80 else if 3 ≤ k ∧ k ≤ 6 then 0xFFFF0000 else 0
   s.executes c e (.mfc gd k) → completes (.tMfc c e gd k) s fun t => Frame [.tally, .fresh] s t ∧
     ∃ r : Word, r &&& ~~~free = value &&& ~~~free ∧ coreIs c (latched.setReg gd r).onward s t) ∧
  does (.tMtc c e k gs) (.mtc k gs) (([{ w with sr := x &&& 0x7F }, { w with esr := x }, { w with epc := x }, { w with vbase := x &&& 0xFFC0 },
    { w with ien := x &&& 0xFFFF }, { w with ipend := v.ipend &&& ~~~x }, { w with seg := x &&& 0xFFFF }, { w with cmpLo := x },
    { w with cmpHi := x, armed := true }] : List Core).getD k w).onward ∧
  (v.ipend &&& v.ien ≠ 0 → does (.tWait c e) .wait w.onward) ∧
  (v.ipend &&& v.ien = 0 → does (.tWait c e) .wait
    (if v.haltReq then { w with st := .halt, haltReq := false, pc := v.pc + 1 } else { w with st := .wait })) ∧
  does (.tHalt c e) .halt { w with st := .halt, haltReq := false, pc := v.pc + 1 } ∧
  (good → completes (.tIll c e) s (coreFaults c e 1 v.pc s)) ∧
  (v.executes = true → injFor (coreSrc c) 2 s = none → e.fetch = .uncorrectable → completes (.tNop c e) s fun t => Frame [.so, .tally] s t ∧
    raisedOnly [(coreSrc c, 6, 4 * v.pc)] s t ∧ (t.core c).st = .fault ∧ (t.core c).faultCode = 6 ∧ (t.core c).faultPc = v.pc ∧
    (t.core c).uncorr = satAdd 32 v.uncorr 1) ∧
  (v.executes = true → injFor (coreSrc c) 2 s = none → e.fetch = .corrected → placeFault (some .nop) v = none → completes (.tNop c e) s fun t =>
    Frame [.so, .tally] s t ∧ raisedOnly [(coreSrc c, 5, 4 * v.pc)] s t ∧ (t.core c).pmCorr = satAdd 32 v.pmCorr 1 ∧
    (t.core c).cycles = w.cycles + 1 ∧ (t.core c).pc = w.onward.pc) ∧
  (v.executes = false → ∀ i ∈ [Instr.tIll c e, .tNop c e, .tB c e cond off, .tBal c e off, .tJr c e gs, .tJalr c e gd gs, .tReti c e, .tRpt c e gs n,
    .tMfc c e gd k, .tMtc c e k gs, .tWait c e, .tHalt c e, .tPost c e gd gs], exec i s = .next s)

/-- 12 R351 to R356, R360 to R363, R365: events set pending flags or merge, an interrupt is entered on the lowest pending and enabled input unless a
delay slot or a repeat holds it off, a wait ends at its vector or after the WAIT, posts are taken in order while control service runs
and answered in STATUS, and the commands follow the table of core
states, with refusals counted; what the service writes waits while control service is interrupted (13 R385). A set or a snapshot copy due
by a compare's Postmark acts before it (15 R447). Log 109, 110 and 199 hold the model's choices on STEP over a WAIT, on the cycles of WAIT and
on RESUME in RESET. -/
def Obligations.TallyInterruptsEventsAndCommands : Prop := ∀ (s : State) (c : Fin 4),
  let v := s.core c
  let does (i : Instr) (u : Core) : Prop := completes i s fun t => Frame [.tally] s t ∧ coreIs c u s t
  let pulsed (k : Nat) (u : Core) : Core := if u.ipend.getLsbD k then { u with merged := satAdd 32 u.merged 1 }
    else { u with ipend := u.ipend ||| BitVec.ofNat 32 (2 ^ k) }
  let refused (i : Instr) : Prop := completes i s fun t => Frame [.so, .tally] s t ∧ raisedOnly [(coreSrc c, 0xB, 0)] s t ∧
    coreIs c { v with cmdRefused := satAdd 32 v.cmdRefused 1 } s t
  let now : Prop := s.dict.up = false ∨ s.servesNow = true
  let waits (i : Instr) (w : Nat) : Prop :=
    ¬ now → exec i s = .next { s with dict := { s.dict with waiting := s.dict.waiting ++ [tallyWait c w] } }
  let event (k : Nat) : Prop := v.ipend.getLsbD k = true ∧ v.ien.getLsbD k = true
  (∀ latency k, k < 16 → event k → (∀ j, j < k → ¬ event j) →
    (v.executes = true → v.slot = none → v.rpt = none → srBit v.sr 4 = true → does (.interruptEntry c latency)
      { v with epc := BitVec.ofNat 32 v.pc, esr := v.sr, sr := v.sr &&& 0x6F, ipend := v.ipend &&& ~~~(BitVec.ofNat 32 (2 ^ k)),
               pc := v.vbase.toNat + 4 * k, cycles := v.cycles + 3, cyclesRun := satAdd 64 v.cyclesRun 3,
               latency := max v.latency (min latency 0xFFFF) }) ∧
    (v.executes = false ∨ v.slot ≠ none ∨ v.rpt ≠ none ∨ srBit v.sr 4 = false → exec (.interruptEntry c latency) s = .next s)) ∧
  (v.ipend &&& v.ien = 0 → ∀ n, exec (.interruptEntry c n) s = .next s ∧ exec (.waitWake c n) s = .next s) ∧
  (∀ n, v.st ≠ .wait → exec (.waitWake c n) s = .next s) ∧
  (∀ n, v.st = .wait → v.ipend &&& v.ien ≠ 0 → srBit v.sr 4 = false →
    does (.waitWake c n) { v with st := .run, pc := v.pc + 1, cycles := v.cycles + n }) ∧
  (∀ n k, v.st = .wait → srBit v.sr 4 = true → k < 16 → event k → (∀ j, j < k → ¬ event j) → does (.waitWake c n)
    { v with st := .run, epc := BitVec.ofNat 32 (v.pc + 1), esr := v.sr, sr := v.sr &&& 0x6F, cycles := v.cycles + n,
             ipend := v.ipend &&& ~~~(BitVec.ofNat 32 (2 ^ k)), pc := v.vbase.toNat + 4 * k, latency := max v.latency 4 }) ∧
  (v.armed = true → v.cmpLo.toNat + 2 ^ 32 * v.cmpHi.toNat ≤ s.pm → completes (.pmCompare c) s fun t =>
    Frame [.tally] (dueBy (v.cmpLo.toNat + 2 ^ 32 * v.cmpHi.toNat) s) t ∧ coreIs c (pulsed 12 { v with armed := false }) s t) ∧
  (∀ x, s.tt.st ≠ .pending → s.dict.snap.st ≠ 1 → dueBy x s = s) ∧
  (v.armed = false ∨ s.pm < v.cmpLo.toNat + 2 ^ 32 * v.cmpHi.toNat → exec (.pmCompare c) s = .next s) ∧
  (completes .msTick s fun t => Frame [.tally] s t ∧ t.core c = (if v.msSeen = s.pm / 250000 then v else
    pulsed 13 { v with msSeen := s.pm / 250000 }) ∧ ∀ d, 4 ≤ d → t.core d = s.core d) ∧
  does (.tallyDoorbell c) (pulsed 15 v) ∧
  (v.posts = [] ∨ s.dict.up = false ∨ s.ctrl.pair.serves = false → exec (.postTaken c) s = .next s) ∧
  (∀ p rest, v.posts = p :: rest → s.dict.up = true → s.ctrl.pair.serves = true →
    let at_ := dmBase c + p.addr + 4
    let answers (u : State) (f : State → Prop) : Prop := ∃ y, f y ∧ exec (.postTaken c) s = .next (softGo y) ∧
      (u.pwr.softDue = false → softGo y = y)
    (accOf p.idx p.sub = 5 → answers s fun t => Frame [.so, .tally, .mm] s t ∧ stored at_ [3] s t ∧
      (t.core c).posts = rest ∧ (t.core c).ipend.getLsbD 14 = true ∧ (t.core c).refused = satAdd 32 v.refused 1 ∧
      t.so = (raiseLim (ms 1) (coreSrc c) 0xA 0 0 s).so ∧ ∀ d, d ≠ c.val → t.core d = s.core d) ∧
    (∀ s2, accOf p.idx p.sub ≠ 5 → writeObj ⟨.tally, c, 0⟩ p.idx p.sub 0 p.data false (s.setCore c { v with posts := rest }) = (0, s2) →
      answers s2 fun t => Frame [.tally, .mm] s2 t ∧ stored at_ [1] s2 t ∧ coreIs c (pulsed 14 (s2.core c)) s2 t) ∧
    (∀ s2 r, accOf p.idx p.sub ≠ 5 → writeObj ⟨.tally, c, 0⟩ p.idx p.sub 0 p.data false (s.setCore c { v with posts := rest }) = (r, s2) →
      r ≠ 0 → answers s2 fun t => Frame [.so, .tally, .mm, .fresh] s2 t ∧
        (∃ b : Byte, stored at_ [b] s2 t ∧ (r = 1 → b = 2) ∧ (r = 2 ∨ r = 6 → b = 3) ∧ (r = 3 → b = 4)) ∧
        coreIs c { pulsed 14 (s2.core c) with refused := satAdd 32 (s2.core c).refused 1 } s2 t)) ∧
  (∀ (addr : BitVec 16) (e : TEnv), waits (.tallyRun c addr) (1 + 65536 * addr.toNat) ∧ waits (.tallyResume ⟨c, addr⟩) (257 + 65536 * addr.toNat) ∧
    waits (.tallyHalt c) 2 ∧ waits (.tallyStep c e) 3 ∧ waits (.tallyReset c) 4 ∧ waits (.tallyClearCounters c) 5) ∧
  (now →
  (∀ addr : BitVec 16,
    (v.st = .reset → v.clearing = false → does (.tallyRun c addr) { v.cleared with st := .run, crc := true, pc := addr.toNat }) ∧
    (v.st = .halt ∨ v.st = .fault → does (.tallyRun c addr)
      { v with st := .run, crc := true, pc := addr.toNat, faultCode := 0, inRpt := false, slot := none, rpt := none }) ∧
    (v.busy = true ∨ (v.st = .reset ∧ v.clearing = true) → refused (.tallyRun c addr))) ∧
  (∀ addr : BitVec 16,
    (v.st = .reset → v.clearing = false → does (.tallyResume ⟨c, addr⟩) { v.cleared with st := .run, crc := true, pc := addr.toNat }) ∧
    (v.st = .halt → does (.tallyResume ⟨c, addr⟩) { v with st := .run, crc := true, inRpt := false }) ∧
    (v.busy = true ∨ v.st = .fault ∨ (v.st = .reset ∧ v.clearing = true) → refused (.tallyResume ⟨c, addr⟩))) ∧
  (v.st = .run → does (.tallyHalt c) (if v.slot = none ∧ v.rpt = none then { v with st := .halt, crc := false } else { v with haltReq := true })) ∧
  (v.st = .wait → does (.tallyHalt c) { v with st := .halt, pc := v.pc + 1 }) ∧ (v.busy = false → refused (.tallyHalt c)) ∧
  (∀ e : TEnv, v.st ≠ .halt → refused (.tallyStep c e)) ∧
  (∀ e : TEnv, v.st = .halt → v.slot = none → v.rpt = none → v.haltReq = false → v.pc < 0xFFFF → e.fetch = .ok →
    injFor (coreSrc c) 2 s = none →
    let w := { v.spent e with inRpt := false, pc := v.pc + 1 }
    (tallyDecode (s.pmWord c v.pc) = some .nop → does (.tallyStep c e) w) ∧
    (∀ gd i, tallyDecode (s.pmWord c v.pc) = some (.lui gd i) → does (.tallyStep c e) (w.setReg gd (BitVec.ofNat 32 (i.toNat * 2 ^ 14))))) ∧
  does (.tallyReset c) { v.cleared with st := .reset } ∧
  does (.tallyClearCounters c) { v with cyclesRun := 0, cyclesStalled := 0, latency := 0, merged := 0, queued := 0, refused := 0,
                                        pmCorr := 0, dmCorr := 0, uncorr := 0, cmdRefused := 0 }) ∧
  (v.st = .run → v.crc = true → does (.pmCrcDone c) (haltBoundary { v with
    crc := false, imageCrc := crc32 (s.bytesAt (pmBase c) 262144), cycles := v.cycles + 32768, cyclesRun := satAdd 64 v.cyclesRun 32768 })) ∧
  (v.st ≠ .run ∨ v.crc = false → exec (.pmCrcDone c) s = .next s) ∧
  (∀ b, does (.tallyProgram c b false) { v with image := v.image ++ b }) ∧
  (∀ (b words : List Byte) (load count : Nat), v.busy = false → 1 ≤ count → load < 65536 → load + count ≤ 65536 → words.length = 4 * count →
    v.image ++ b = toBytes 16 (1 + 2 ^ 16 * load + 2 ^ 32 * count + 2 ^ 64 * crc32 words) ++ words →
    completes (.tallyProgram c b true) s fun t => Frame [.tally, .mm] s t ∧ coreIs c { v with image := [] } s t ∧
      stored (pmBase c + 4 * load) words s t) ∧
  (∀ b, v.busy = true ∨ tallyImageOk (v.image ++ b) = false → completes (.tallyProgram c b true) s fun t => Frame [.so, .tally] s t ∧
    coreIs c { v with image := [] } s t ∧ raisedOnly [(coreSrc c, if v.busy then 9 else 0xC, 0)] s t) ∧
  (v.clearing = true → completes (.tallyClearDone c) s fun t => Frame [.tally, .mm] s t ∧ coreIs c { v with clearing := false } s t ∧
    (∀ y, dmBase c ≤ y → y < dmBase c + 0xC0000 → t.byteAt y = 0) ∧
    ∀ y, canon y < dmBase c ∨ dmBase c + 0xC0000 ≤ canon y → t.byteAt y = s.byteAt y) ∧
  (v.clearing = false → exec (.tallyClearDone c) s = .next s)

/-- 12 R358, R359: the words of the Tally instructions. Decoding the word of a well-formed instruction gives the instruction back, with every operand
at every value; the word has 32 bits; no bit of an instruction is dropped, so two of them never share a word. -/
def Obligations.TallyDecodingUndoesEncoding : Prop :=
  (∀ o : TOp, TOp.wf o = true → TOp.encode o < 2 ^ 32 ∧ tallyDecode (TOp.encode o) = some o) ∧
  (∀ o p : TOp, TOp.wf o = true → TOp.wf p = true → TOp.encode o = TOp.encode p → o = p) ∧
  (∀ (w : Nat) (o : TOp), w < 2 ^ 32 → tallyDecode w = some o → TOp.wf o = true ∧ TOp.encode o / 2 ^ 26 = w / 2 ^ 26)

/-! ### The dictionary (14) -/

/-- 14 R391 to R403, R405, R407, R414, R418: a message whose length or CRC fails is dropped and counted; a good one is answered once, by path, with
its header echoed: READ, READ with SNAP or ACTIVE, WRITE with the class and range checks, the repeat of a kept WRITE without a second
effect, FANOUT, LIST; ARP and ICMP echo for the part's address are answered; a segment that does not come for 1 s ends its write. Answers
leave from the address that the message was received at. A datagram to another address or port, with options or fragmented, is dropped and
counted. Without control service, or behind messages that wait, a message waits (13 R385; the order of those that wait is log 201's). A soft
reset that the message writes starts behind its answer (18 R516); no other state has one due. Log 36, 113, 117 and 118 hold the model's
choices on the SEQ of a refused write, on header fields, on repeats and on ARP and ICMP for other addresses. -/
def Obligations.DictionaryMessagesAreAnsweredOnce : Prop := ∀ (s : State) (r : Req) (e : Ecc),
  let c := reqClient r
  let i := r.idx.toNat
  let k := r.sub.toNat
  let key := ob i k
  let rows : List (Instr × Nat × Nat) := [(.read r e, 1, 0), (.readSnap r e, 1, 2), (.readActive r e, 1, 4), (.write r, 2, 0), (.fanoutWrite r, 2, 8),
    (.list r, 3, 0)]
  let good (op flags : Nat) : Prop := r.payload.length = r.len.toNat ∧ crc32 ((reqBytes r op flags).take (20 + r.len.toNat)) = r.crc.toNat
  let at_ := s.addrOf r.path
  let ready := s.dict.up = true ∧ s.servesNow = true ∧ r.ver = 1 ∧ (r.path = .mgmt ∨ r.path = .field) ∧ datagramOk r s = true ∧
    (at_.nextHop r.ip.toNat).isSome = true
  let answers (q : Instr) (s : State) (f : State → Prop) : Prop :=
    ∃ y, f y ∧ exec q s = .next (if s.pwr.softDue then softEffect y else y)
  let reply (op status : Nat) (p : List Byte) (more : Bool) : List Byte :=
    withCrc (headerBytes 1 (op + 0x80) r.id.toNat i k status r.element.toNat r.offset.toNat p.length (b2n more) ++ p)
  let answer (q : Instr) (op flags status : Nat) (p : List Byte) (more : Bool) : Prop := ready → good op flags → answers q s fun t =>
    Frame [.dict, .outbox] s t ∧ t.outbox = .response c at_.ip at_.port (reply op status p more) :: s.outbox ∧
    t.dict = { s.dict with received := satAdd 64 s.dict.received 1, clients := t.dict.clients }
  let written (q : Instr) (flags status : Nat) (shadow : Tab Nat) (seq : Option Nat) : Prop := ready → good 2 flags → r.len.toNat ≤ 1400 →
    (∀ w ∈ s.keptOf c, ¬ (w.id = r.id.toNat ∧ w.idx = i ∧ w.sub = k ∧ w.offset = r.offset.toNat)) → answers q s fun t =>
      Frame [.dict, .fresh, .outbox] s t ∧ (∃ n, (seq = some n ∨ seq = none) ∧ t.outbox = .response c at_.ip at_.port (reply 2 status (toBytes 4 n) false) :: s.outbox ∧
        (t.keptOf c).head? = some ⟨r.id.toNat, i, k, r.offset.toNat, status, n⟩) ∧
      t.dict = { s.dict with received := satAdd 64 s.dict.received 1, clients := t.dict.clients, shadow := shadow, marked := t.dict.marked }
  (∀ x ∈ rows, r.path ≠ .bus → datagramOk r s = true → s.dict.up = true → s.servesNow = true →
    messageOk (reqBytes r x.2.1 x.2.2) = false → completes x.1 s fun t => Frame [.so, .dict] s t ∧
    t.dict = { s.dict with dropped := satAdd 32 s.dict.dropped 1 } ∧ t.so = (raiseLim (ms 1000) 0xA50 1 0 (i + 65536 * k) s).so) ∧
  (∀ x ∈ rows, r.path ≠ .bus → datagramOk r s = false → s.dict.up = true → exec x.1 s = .next
    { s with dict := { s.dict with dropped := satAdd 32 s.dict.dropped 1 } }) ∧
  (∀ x ∈ rows, (r.path ≠ .bus ∨ s.busOn = true) → datagramOk r s = true → s.dict.up = true → s.servesNow = false → exec x.1 s = .next (s.setDict
    { s.dict with waiting := s.dict.waiting ++ [.msg c at_ (reqBytes r x.2.1 x.2.2) (if x.2.1 = 1 then e else .ok)] })) ∧
  (∀ x ∈ rows, (s.dict.up = false ∧ s.pwr.softBusy = false) ∨ (r.path = .bus ∧ s.busOn = false) → exec x.1 s = .next s) ∧
  (r.len = 0 → (nextObj i k = none → answer (.list r) 3 0 1 [] false) ∧
    (∀ j l o, nextObj i k = some (j, l) → objAt j l = some o → answer (.list r) 3 0 0
      (toBytes 2 j ++ toBytes 1 l ++ toBytes 1 o.typ ++ toBytes 1 o.acc ++
        toBytes 3 (b2n (commonObjs.contains (ob j l)) + 2 * b2n (decide (1 < o.count))) ++ toBytes 4 o.size ++ toBytes 4 o.count) false)) ∧
  (∀ x ∈ rows, x.2.1 ≠ 2 → r.len ≠ 0 → answer x.1 x.2.1 x.2.2 3 [] false) ∧
  (∀ x ∈ rows, x.2.1 = 1 → r.len = 0 → (objAt i k = none → answer x.1 1 x.2.2 1 [] false) ∧
    (∀ o, objAt i k = some o → o.acc = 4 → answer x.1 1 x.2.2 2 [] false)) ∧
  (∀ o, objAt i k = some o → r.len = 0 → o.count = 1 →
    (o.acc = 2 → o.typ < 9 → e = .ok → injFor 0xA50 1 s = none →
      answer (.read r e) 1 0 0 (settingBytes key (setVal s.dict.shadow key)) false ∧
      answer (.readActive r e) 1 4 0 (settingBytes key (s.cfg key)) false) ∧
    (o.acc = 1 → o.typ < 9 → ready → good 1 0 → exec (.read r e) s =
      let (b, s1) := roValue i k (touchClient c (s.keptOf c) (s.setDict { s.dict with received := satAdd 64 s.dict.received 1 }))
      .next (softGo (s1.send (.response c at_.ip at_.port (reply 1 0 b false))))) ∧
    (o.acc = 3 → o.typ = 10 → let b := s.dict.live.get (fun _ => []) key
      (r.offset.toNat ≤ b.length → answer (.read r e) 1 0 0 ((b.drop r.offset.toNat).take 1400) (decide (r.offset.toNat + 1400 < b.length))) ∧
      (b.length < r.offset.toNat → answer (.read r e) 1 0 4 [] false)) ∧
    (o.acc ≠ 1 → answer (.readSnap r e) 1 2 2 [] false) ∧
    (o.acc = 1 → s.dict.snap.st ≠ 2 → answer (.readSnap r e) 1 2 9 [] false) ∧
    (o.acc = 1 → s.dict.snap.st = 2 → o.typ < 9 → answer (.readSnap r e) 1 2 0 (s.dict.snap.vals.get (fun _ => []) key) false)) ∧
  (objAt i k = none → written (.write r) 0 1 s.dict.shadow (some 0)) ∧
  (∀ o, objAt i k = some o → (o.acc = 1 → written (.write r) 0 2 s.dict.shadow (some 0)) ∧
    (o.acc = 2 →
      (r.payload.length ≠ o.size → written (.write r) 0 3 s.dict.shadow none) ∧
      (r.payload.length = o.size → o.ranges ≠ [] → (∀ g ∈ o.ranges, ¬ (g.1 ≤ ofBytes r.payload ∧ ofBytes r.payload ≤ g.2)) →
        written (.write r) 0 4 s.dict.shadow none) ∧
      (r.payload.length = o.size → o.ranges = [] ∨ (∃ g ∈ o.ranges, g.1 ≤ ofBytes r.payload ∧ ofBytes r.payload ≤ g.2) →
        written (.write r) 0 0 (s.dict.shadow.set objDefault key (ofBytes r.payload)) (some s.tt.seq) ∧
        (s.isCoordinator = true → s.alone = true →
          written (.fanoutWrite r) 8 0 (s.dict.shadow.set objDefault key (ofBytes r.payload)) (some s.tt.seq))) ∧
      (s.isCoordinator = false → written (.fanoutWrite r) 8 7 s.dict.shadow none))) ∧
  (∀ w : Kept, (s.keptOf c).find? (fun w => w.id == r.id.toNat && w.idx == i && w.sub == k && w.offset == r.offset.toNat) = some w → w.status ≠ 5 →
    ready → good 2 0 → answers (.write r) s fun t => Frame [.dict, .outbox] s t ∧
      t.outbox = .response c at_.ip at_.port (reply 2 w.status (toBytes 4 w.seq) false) :: s.outbox ∧
      t.dict = { s.dict with received := satAdd 64 s.dict.received 1, clients := t.dict.clients, duplicates := satAdd 32 s.dict.duplicates 1 }) ∧
  (let node := s.cfg (ob 0x1030 2)
   let frame := stuff (BitVec.ofNat 8 node :: reqBytes r 3 0)
   (s.busOn = true → s.dict.up = true → s.servesNow = true → node < 128 → frame.length ≤ 598 → r.ver = 1 → r.len = 0 → good 3 0 → nextObj i k = none →
     answers (.fieldBusFrame frame) s fun t => Frame [.dict, .outbox] s t ∧
       t.outbox = .busFrame (0x7E :: stuff (BitVec.ofNat 8 (node + 0x80) :: reply 3 1 [] false) ++ [0x7E]) :: s.outbox) ∧
   (∀ b : List Byte, s.busOn = false ∨ 598 < b.length ∨ (∀ a m, unstuff b = a :: m → a.toNat ≠ node) → exec (.fieldBusFrame b) s = .next s)) ∧
  (∀ a : Assembly, s.openWrite i k = some a → i < 0x5300 ∨ (0x5317 < i ∧ i < 0x9100) → a.last + ms 1000 ≤ s.now →
    completes (.segmentTimeout r.idx r.sub) s fun t => Frame [.so, .dict] s t ∧ raisedOnly [(0xA50, 2, i + 65536 * k)] s t ∧
      t.openWrite i k = none ∧ t.dict = { s.dict with open_ := t.dict.open_ } ∧
      ∀ b ∈ s.dict.open_, (b.idx ≠ i ∨ b.sub ≠ k) → b ∈ t.dict.open_) ∧
  (s.openWrite i k = none ∨ (∃ a, s.openWrite i k = some a ∧ s.now < a.last + ms 1000) → exec (.segmentTimeout r.idx r.sub) s = .next s) ∧
  (∀ (p : Path) (x : Nat) (ip from_ : BitVec 32) (mac : BitVec 48) (data : List Byte), s.dict.up = true →
    (p = .mgmt ∧ x = 0x1010) ∨ (p = .field ∧ x = 0x1020) →
    (ip.toNat = s.cfg (ob x 1) → completes (.arpRequest p ip mac from_) s fun t => Frame [.outbox] s t ∧
      t.outbox = .arpReply p ip.toNat (pathMac p) mac.toNat from_.toNat :: s.outbox) ∧
    (ip.toNat ≠ s.cfg (ob x 1) → (completes (.arpRequest p ip mac from_) s fun t => Frame [.dict] s t ∧
        t.dict = { s.dict with dropped := satAdd 32 s.dict.dropped 1 }) ∧
      completes (.icmpEcho p from_ ip data) s fun t => Frame [.dict] s t ∧ t.dict = { s.dict with dropped := satAdd 32 s.dict.dropped 1 }) ∧
    (∀ hop, ip.toNat = s.cfg (ob x 1) → (s.addrOf p).nextHop from_.toNat = some hop → completes (.icmpEcho p from_ ip data) s fun t =>
      Frame [.outbox] s t ∧ t.outbox = .icmpReply p from_.toNat hop data :: s.outbox))

/-! ### The control plane (13) -/

/-- 13 R369, R371, R373, R375, R378 to R380: REMAP with the boot copy, requests of the masters with their IDs and responses, the grants of a target,
dead letters and master resets. R381 to R386: the Steward pair compares its requests and follows its table through divergence,
diagnostic, solo running, restart and rejoin, and a mirror read takes a copy without an uncorrectable error. Log 104 and 111 hold the model's
choices on writes of the shadow windows and on the pair's Postcards, 200 the resets of the cores that count, 201 the requests that wait. -/
def Obligations.TheControlPlaneResetsMastersAndPairsStewards : Prop := ∀ (s : State),
  let k := s.ctrl
  let inverted (ms : List Nat) (t : State) : Prop :=
    (∀ m ∈ ms, t.ctrl.epoch.get zeroTab m = 1 - k.epoch.get zeroTab m ∧ t.ctrl.resets.get zeroTab m = satAdd 32 (k.resets.get zeroTab m) 1) ∧
    ∀ j, j ∉ ms → t.ctrl.epoch.get zeroTab j = k.epoch.get zeroTab j ∧ t.ctrl.resets.get zeroTab j = k.resets.get zeroTab j
  let reset (ms : List Nat) (t : State) (k' : Ctrl) : Prop := inverted ms t ∧
    t.ctrl = { k' with epoch := t.ctrl.epoch, resets := t.ctrl.resets, grants := t.ctrl.grants,
                       reqs := k.reqs.filter fun r => !ms.contains r.m }
  let answers (m id resp : Nat) (d : List Byte) (out : List Sent) : List Sent :=
    if m = 0 ∧ k.pair = .lockstep then
      .busReply 1 id resp true (s.epochOf 0) d :: .busReply 0 id resp true (s.epochOf 0) d :: out
    else .busReply m id resp true (s.epochOf m) d :: out
  let ctrlIs (c : Instr) (k' : Ctrl) : Prop := completes c s fun t => Frame [.ctrl] s t ∧ t.ctrl = k'
  let cardAnd (c : Instr) (cs : List (Nat × Nat × Nat)) (k' : Ctrl) : Prop := completes c s fun t => Frame [.so, .ctrl] s t ∧
    raisedOnly cs s t ∧ t.ctrl = k'
  let quiet : Prop := ∀ r ∈ k.reqs, r.stage ≠ .ready
  let single (m : Fin 11) : Prop := m.val = 0 → k.pair = .lockstep → injFor 0xA10 5 s = none
  let sized (q : BusReq) (n : Nat) : Prop := n = 2 ^ q.size.toNat ∨ q.size = 4
  let granted (k' : Ctrl) (t : State) : Prop := t.ctrl = { k' with grants := t.ctrl.grants }
  let inSram (a n : Nat) : Prop := (n = 1 ∨ n = 2 ∨ n = 4 ∨ n = 8 ∨ n = 16) ∧ a % n = 0 ∧ 0x20000000 ≤ a ∧ a + n ≤ 0x206C0000
  let waits (m id : Nat) : Prop := (∃ q ∈ k.reqs, q.m = m ∧ (q.id = id ∨ q.stage = .held)) ∧ ∀ q ∈ k.reqs, q.stage = .dram ∨
    (q.stage = .held ∧ q.m = m ∧ ∃ o ∈ k.reqs, o.stage = .dram ∧ o.m = m ∧ o.id = q.id)
  let outage := min ((s.now - k.stopAt + 125) / 250) (2 ^ 32 - 1)
  (k.remap = true → ctrlIs .remapSet k) ∧
  (k.remap = false → completes .remapSet s fun t => Frame [.mm, .ctrl] s t ∧ t.ctrl = { k with remap := true } ∧
    stored 0x20000000 imageBytes s t) ∧
  (∀ (m : Fin 11) (id : BitVec 4) (a : BitVec 40) (w : Bool) (n : Nat), s.mayRequest m = true → k.reqs = [] →
    (completes (.deadLetterAccess ⟨m, id⟩ a w n) s fun t => Frame [.so, .ctrl, .tap, .outbox] s t ∧ t.tap = (debugTap m s).tap ∧
      (w = true → t.outbox = answers m id.toNat 1 [] s.outbox) ∧
      (w = false → 1 ≤ n → n ≤ 16 → t.outbox = answers m id.toNat 1 (List.replicate n 0) s.outbox) ∧
      (w = false → m.val ≠ 0 → ∀ q, 1 ≤ q → n = 16 * q → t.outbox =
        ((List.range q).reverse.map fun j => .busReply m id.toNat 1 (j + 1 == q) (s.epochOf m) (List.replicate 16 0)) ++ s.outbox) ∧
      t.so = (raiseLim (ms 1) 0xA30 1 m a.toNat s).so ∧
      granted { k with deadTotal := satAdd 64 k.deadTotal 1, dead := t.ctrl.dead, deadAddr := a.toNat, deadMaster := m, deadPm := s.pm } t ∧
      t.ctrl.dead.get zeroTab m = satAdd 32 (k.dead.get zeroTab m) 1 ∧ ∀ j, j ≠ m.val → t.ctrl.dead.get zeroTab j = k.dead.get zeroTab j)) ∧
  (∀ (m : Fin 11) (id : BitVec 4) (a : BitVec 40) (w : Bool) (n : Nat),
    (s.mayRequest m = false → exec (.deadLetterAccess ⟨m, id⟩ a w n) s = .next s) ∧
    (s.mayRequest m = true → waits m id.toNat → completes (.deadLetterAccess ⟨m, id⟩ a w n) s fun t => Frame [.ctrl, .tap] s t ∧
      t.tap = (debugTap m s).tap ∧
      t.ctrl = { k with reqs := k.reqs ++ [
        { m := m, id := id.toNat, epoch := s.epochOf m, write := w, priv := false, addr := a.toNat, data := List.replicate n 0, dead := true,
          remap := k.remap }] })) ∧
  (∀ (m : Fin 11) (acc : List (BitVec 4)), quiet → completes (.masterReset m acc) s fun t => Frame [.ctrl] s t ∧ reset [m] t { k with grants := t.ctrl.grants } ∧
    t.ctrl.grants = k.grants) ∧
  (∀ (m : Fin 11) (acc : List (BitVec 4)) (q : MReq), (k.reqs.filter fun r => r.m == m.val) = [q] → q.stage = .ready → q.write = true →
    ((∀ i ∈ acc, i.toNat ≠ q.id) → completes (.masterReset m acc) s fun t => Frame [.ctrl] s t ∧ reset [m] t k) ∧
    (m.val ≤ 1 → (∃ i ∈ acc, i.toNat = q.id) → q.strb = [] → q.legal = true → inSram q.addr q.data.length →
      completes (.masterReset m acc) s fun t => Frame [.mm, .ctrl] s t ∧ stored q.addr q.data s t ∧ reset [m] t k)) ∧
  (∀ (m : Fin 11) (q : BusReq), s.mayRequest m = true → single m →
    let c : Instr := .registerWrite (.bus m q)
    let a := q.addr.toNat
    let n := q.data.length
    let does (f : State → Prop) : Prop := completes c s fun t => t.tap = (debugTap m s).tap ∧ f t
    (k.reqs = [] → q.write = true → q.strb = [] → sized q n → inSram a n →
      (m.val ≤ 1 ∨ (m.val = 7 ∧ q.priv = true) → does fun t => Frame [.mm, .ctrl, .tap, .outbox] s t ∧ stored a q.data s t ∧
        granted k t ∧ t.outbox = answers m q.id.toNat 0 [] s.outbox) ∧
      (m.val = 6 ∨ (m.val = 7 ∧ q.priv = false) ∨ m.val = 8 ∨ m.val = 9 → does fun t => Frame [.so, .ctrl, .tap, .outbox] s t ∧
        t.outbox = answers m q.id.toNat (if m.val = 6 then 1 else 2) [] s.outbox)) ∧
    (k.reqs = [] → q.write = false → sized q (busLen q) → inSram a (busLen q) → a + busLen q ≤ 0x20680000 →
      m.val ≤ 1 ∨ (m.val = 6 ∧ q.priv = true) ∨ m.val = 10 → does fun t => Frame [.ctrl, .tap, .outbox] s t ∧
        granted k t ∧ t.outbox = answers m q.id.toNat 0 (s.bytesAt a (busLen q)) s.outbox) ∧
    (k.reqs = [] → q.write = true → ¬ sized q n ∨ s.routed m a n true = false → does fun t => Frame [.so, .ctrl, .tap, .outbox] s t ∧
        t.outbox = answers m q.id.toNat 1 [] s.outbox ∧ t.so = (raiseLim (ms 1) 0xA30 1 m a s).so ∧
        t.ctrl.deadTotal = satAdd 64 k.deadTotal 1 ∧ t.ctrl.deadAddr = a ∧ t.ctrl.deadMaster = m) ∧
    (0x10100000 ≤ a → a < 0x20000000 → s.routed m a n true = false) ∧
    (waits m q.id.toNat → does fun t => Frame [.ctrl, .tap] s t ∧
      t.ctrl = { k with reqs := k.reqs ++ [
        { m := m, id := q.id.toNat, epoch := s.epochOf m, write := q.write, priv := q.priv, addr := a,
          data := if q.write then q.data else List.replicate (busLen q) 0, strb := q.strb, beat := 2 ^ q.size.toNat, remap := k.remap }] })) ∧
  (∀ (m : Fin 11) (q : BusReq), (s.mayRequest m = false → exec (.registerWrite (.bus m q)) s = .next s) ∧
    (s.mayRequest m = true → m.val = 0 → k.pair = .lockstep →
      exec (.registerWrite (.bus m q)) s = exec (.stewardMismatch (.both q q [])) s)) ∧
  (∀ (last : Nat) (l : List MReq), (l ≠ [] → ∃ q, pickReq last l = some q) ∧ ∀ q, pickReq last l = some q → q ∈ l ∧
    (q.m ≤ 1 → (∃ r ∈ l, 2 ≤ r.m) → last % 2 = 0) ∧
    (2 ≤ q.m → ((∃ r ∈ l, r.m ≤ 1) → last % 2 = 1) ∧ ∀ r ∈ l, 2 ≤ r.m → (q.m + 10 - last / 2) % 11 ≤ (r.m + 10 - last / 2) % 11)) ∧
  (∀ (i : BitVec 16) (j : BitVec 8) (d : List Byte), s.dict.up = true →
    (s.servesNow = true → ∀ o, objAt i.toNat j.toNat = some o → o.acc = 2 → d.length = o.size →
      (o.ranges = [] ∨ ∃ g ∈ o.ranges, g.1 ≤ ofBytes d ∧ ofBytes d ≤ g.2) →
      ∃ y, exec (.registerWrite (.object i j d)) s = .next (softGo y) ∧ (s.pwr.softDue = false → softGo y = y) ∧ Frame [.dict] s y ∧
        y.dict = { s.dict with shadow := s.dict.shadow.set objDefault (ob i.toNat j.toNat) (ofBytes d), marked := y.dict.marked }) ∧
    (s.servesNow = false → exec (.registerWrite (.object i j d)) s = .next (s.setDict { s.dict with waiting := s.dict.waiting ++ [.object i.toNat j.toNat d] }))) ∧
  (∀ i j d, s.dict.up = false → exec (.registerWrite (.object i j d)) s = .next s) ∧
  (k.pair = .lockstep →
    let stop (c : Instr) (at_ : Nat) (held : Option (BusReq × BusReq)) (hurt : Option Bool) : Prop := cardAnd c [(0xA10, 1, at_)]
      { k with pair := .diag, held := held, hurt := hurt, stopAt := s.now, tested := false, divergences := satAdd 32 k.divergences 1 }
    (∀ (a b : BusReq) (ecc : List (Nat × Ecc)), (injFor 0xA10 5 s = none →
        (a ≠ b → stop (.stewardMismatch (.both a b ecc)) a.addr.toNat (some (a, b)) none) ∧
        (a = b → k.reqs = [] → a.write = true → a.strb = [] → sized a a.data.length → inSram a.addr.toNat a.data.length →
          completes (.stewardMismatch (.both a b ecc)) s fun t => Frame [.mm, .ctrl, .outbox] s t ∧ stored a.addr.toNat a.data s t ∧
            granted k t ∧ t.outbox = answers 0 a.id.toNat 0 [] s.outbox)) ∧
      (∀ i, injFor 0xA10 5 s = some i → completes (.stewardMismatch (.both a b ecc)) s fun t => Frame [.so, .ctrl] s t ∧
        t.ctrl = { k with pair := .diag, held := some (a, b), hurt := none, stopAt := s.now, tested := false,
                          divergences := satAdd 32 k.divergences 1 })) ∧
    (∀ b q, stop (.stewardMismatch (.error b q)) (match q with | some q => q.addr.toNat | none => 0) (q.map fun q => (q, q)) (some b))) ∧
  (k.pair ≠ .lockstep → (∀ a b e, exec (.stewardMismatch (.both a b e)) s = .next s) ∧ ∀ b q, exec (.stewardMismatch (.error b q)) s = .next s) ∧
  (∀ b : Bool, (k.cond b = .ok → completes (.stewardMismatch (.corrected b)) s fun t => Frame [.so] s t ∧
      raisedOnly [(if b then 0xA11 else 0xA10, 9, 0)] s t) ∧
    (k.cond b ≠ .ok → exec (.stewardMismatch (.corrected b)) s = .next s)) ∧
  (k.pair = .diag → quiet → ∀ x y : Bool, let pA := x && k.hurt != some false
    let pB := y && k.hurt != some true
    (∀ b : Bool, pA = b → pB = !b →
      let gone (t : State) : Prop := raisedOnly [(if b then 0xA11 else 0xA10, 2, 0)] s t ∧
        reset [b2n b] t { k.drop b with pair := if b then .soloA else .soloB, issuer := !b, tested := false, lastOutage := outage, held := none,
                                        hurt := none }
      (k.held = none → completes (.diagDone x y) s fun t => Frame [.so, .ctrl] s t ∧ gone t) ∧
      (∀ qA qB : BusReq, k.held = some (qA, qB) → let q := if b then qA else qB
        k.reqs = [] → q.write = true → q.strb = [] → sized q q.data.length → inSram q.addr.toNat q.data.length → completes (.diagDone x y) s fun t =>
        Frame [.so, .mm, .ctrl, .outbox] s t ∧ gone t ∧ stored q.addr.toNat q.data s t ∧
        t.outbox = .busReply (b2n !b) q.id.toNat 0 true (s.epochOf (b2n !b)) [] :: s.outbox)) ∧
    (pA = true → pB = true → completes (.diagDone x y) s fun t => Frame [.so, .ctrl] s t ∧ raisedOnly [(0xA10, 3, 0)] s t ∧
      reset [0, 1] t { k with pair := .restart, held := none, restarts := satAdd 32 k.restarts 1 }) ∧
    (pA = false → pB = false → completes (.diagDone x y) s fun t => Frame [.so, .ctrl] s t ∧ raisedOnly [(0xA10, 4, 0), (0xA11, 4, 0)] s t ∧
      reset [0, 1] t { (k.drop false).drop true with pair := .halted, held := none, hurt := none, tested := false })) ∧
  (k.pair ≠ .diag → ∀ a b, exec (.diagDone a b) s = .next s) ∧
  (k.pair = .restart → ctrlIs .restartDone { k with pair := .lockstep, issuer := false, lastOutage := outage, syncAt := none }) ∧
  (k.pair ≠ .restart → exec .restartDone s = .next s) ∧
  (∀ b : Bool, let src := if b then 0xA11 else 0xA10
    (k.cond b = .testing → k.pair = (if b then .soloA else .soloB) →
      ctrlIs (.stewardTestDone b true) { k with tested := true } ∧
      cardAnd (.stewardTestDone b false) [(src, 5, 0)] (k.setCond b .offline)) ∧
    (k.cond b = .testing → k.pair = .halted → ctrlIs (.stewardTestDone b true)
        { k.setCond b .ok with pair := if b then .soloB else .soloA, issuer := b, tested := false, lastOutage := outage, syncAt := none } ∧
      ctrlIs (.stewardTestDone b false) (k.setCond b .offline)) ∧
    (k.cond b ≠ .testing ∨ (k.pair ≠ .halted ∧ k.pair ≠ (if b then .soloA else .soloB)) → ∀ p, exec (.stewardTestDone b p) s = .next s) ∧
    (k.pair = (if b then .soloA else .soloB) → quiet → completes .survivorFault s fun t => Frame [.so, .ctrl] s t ∧
      raisedOnly [(if b then 0xA10 else 0xA11, 4, 0)] s t ∧
      (let k' : Ctrl := { k.drop !b with pair := .halted, held := none, hurt := none, tested := false, stopAt := s.now }
       reset [b2n !b] t (if k.tested = true then { k'.setCond b .ok with pair := if b then .soloB else .soloA, issuer := b, lastOutage := 0, syncAt := none }
        else k')))) ∧
  (let k1 := { k with syncMax := max k.syncMax (match k.syncAt with | some t => min ((s.now - t + 125) / 250) 0xFFFF | none => 0),
                      syncAt := some s.now }
   (k.pair = .lockstep ∨ k.pair = .resync → ctrlIs .stewardSyncPoint k1) ∧
   (k.pair = .soloA ∨ k.pair = .soloB → ctrlIs .stewardSyncPoint (if k.tested then { k1 with pair := .resync, tested := false } else k1))) ∧
  (k.pair = .diag ∨ k.pair = .restart ∨ k.pair = .halted → exec .stewardSyncPoint s = .next s) ∧
  (k.pair ≠ .soloA → k.pair ≠ .soloB → exec .survivorFault s = .next s) ∧
  (k.pair = .resync → cardAnd .resyncDone [(if k.issuer then 0xA10 else 0xA11, 6, 0)]
    { k with pair := .lockstep, condA := .ok, condB := .ok, issuer := false, rejoins := satAdd 32 k.rejoins 1 }) ∧
  (k.pair ≠ .resync → exec .resyncDone s = .next s) ∧
  (∀ (a : BitVec 40) (one two : Ecc), 0x20680000 ≤ a.toNat → a.toNat < 0x206C0000 → a.toNat % 8 = 0 →
    let m := if k.pair = .lockstep then 0 else b2n k.issuer
    (k.pair = .lockstep → ∃ q ecc, exec (.mirrorRead a one two) s = exec (.stewardMismatch (.both q q ecc)) s) ∧
    (k.pair.serves = false → exec (.mirrorRead a one two) s = .next s) ∧
    (k.pair.serves = true → k.reqs = [] → (k.pair = .lockstep → injFor 0xA10 5 s = none) →
      (one = .ok → two = .ok → completes (.mirrorRead a one two) s fun t => Frame [.ctrl, .outbox] s t ∧ granted k t ∧
        t.outbox = answers m 0 0 (s.bytesAt a.toNat 8) s.outbox) ∧
      (one ≠ .ok ∨ two ≠ .ok → one ≠ .uncorrectable ∨ two ≠ .uncorrectable → completes (.mirrorRead a one two) s fun t =>
        Frame [.so, .ctrl, .outbox] s t ∧ t.outbox = answers m 0 0 (s.bytesAt a.toNat 8) s.outbox ∧ raisedOnly [(0xA10, 7, a.toNat)] s t ∧
        granted { k with mirrorCorr := satAdd 32 k.mirrorCorr 1 } t) ∧
      (one = .uncorrectable → two = .uncorrectable → completes (.mirrorRead a one two) s fun t => Frame [.so, .ctrl, .outbox] s t ∧
        granted k t ∧ t.outbox = answers m 0 2 (List.replicate 8 0) s.outbox ∧ raisedOnly [(0xA10, 8, a.toNat)] s t))) ∧
  (∀ (a : BitVec 40) (one two : Ecc), ¬ (0x20680000 ≤ a.toNat ∧ a.toNat < 0x206C0000 ∧ a.toNat % 8 = 0) → exec (.mirrorRead a one two) s = .next s)

/-! ### Faults and sparing (16) -/

/-- 16 R454, R457, R460 to R462, R464, R465: the Sorting Office accepts the waiting Postcards in order of SOURCE and KIND, queues or drops them,
puts the source into RECOVERING, holds it or latches it, returns it to OK at the end of its quiet period, releases a latched one by
command, frees entries by pc_ack and takes one injection at a time. What the service writes waits while control service is interrupted
(13 R385). -/
def Obligations.TheSortingOfficeAcceptsReactsAndRecovers : Prop := ∀ (s : State),
  let so := s.so
  let srcBut (n : Nat) (t : State) : Prop := ∀ j, j ≠ n → t.srcState j = s.srcState j
  let recent (n : Nat) : Nat := ((s.srcState n).recTimes.filter fun x => decide (s.tbk < x + 1000 * s.cfg (ob 0x2300 2))).length
  let quiet := s.tbk + s.cfg (ob 0x2300 1)
  let now : Prop := s.dict.up = false ∨ s.servesNow = true
  let waits (q : Instr) (sub : Nat) (b : List Byte) : Prop :=
    ¬ now → exec q s = .next { s with dict := { s.dict with waiting := s.dict.waiting ++ [.object 0x2300 sub b] } }
  (s.pwr.inReset = true ∨ so.waiting = [] → exec .postcardAccept s = .next s) ∧
  (∀ (c : WaitCard) (l₁ l₂ : List WaitCard), s.pwr.inReset = false → so.waiting = l₁ ++ c :: l₂ →
    (∀ d ∈ l₁, c.src < d.src ∨ (c.src = d.src ∧ c.kind < d.kind)) → (∀ d ∈ l₂, c.src < d.src ∨ (c.src = d.src ∧ c.kind ≤ d.kind)) →
    let cr := if c.test then (0xE, Reaction.note) else reactionOf c.src c.kind
    let v := s.srcState c.src
    let noted := { v with lastKind := c.kind, lastClass := cr.1, lastTbk := s.tbk }
    let so' := if so.next - so.acked < 4096 then
        { so with waiting := l₁ ++ l₂, queue := so.queue.set (fun _ => {}) (so.next % 4096) ⟨c.src, c.kind, cr.1, c.addr, s.pm⟩, next := so.next + 1 }
      else { so with waiting := l₁ ++ l₂, dropped := satAdd 32 so.dropped 1, dropsSince := satAdd 32 so.dropsSince 1 }
    let soIs (t : State) : Prop := t.so = { so' with srcs := t.so.srcs } ∧ srcBut c.src t
    let held := (s.blk c.src).held
    (cr.2 = .note → completes .postcardAccept s fun t => Frame [.so] s t ∧ t.so = so') ∧
    (cr.2 ≠ .note → v.st = 2 → completes .postcardAccept s fun t => Frame [.so] s t ∧ soIs t ∧ t.srcState c.src = noted) ∧
    (cr.2 ≠ .note → v.st ≠ 2 → recent c.src < s.cfg (ob 0x2300 3) → (cr.2 ≠ .isolate ∧ cr.2 ≠ .promote) ∨ held = true →
      completes .postcardAccept s fun t => Frame [.so] s t ∧ soIs t ∧ t.srcState c.src = { noted with st := 1, quietEnd := some quiet }) ∧
    (cr.2 ≠ .note → v.st ≠ 2 → s.cfg (ob 0x2300 3) ≤ recent c.src → held = false →
      (∀ k, k < 8 → c.src = compSrc k → completes .postcardAccept s fun t => Frame [.so, .out, .dict] s t ∧
        t.srcState c.src = { noted with st := 2, quietEnd := none } ∧ (t.blk c.src).held = true ∧
        t.comp k = { s.comp k with force := true, powForce := true, part := 0, stall := none, stallSaid := false }) ∧
      (∀ e, e < 24 → c.src = 0x100 + e → completes .postcardAccept s fun t => Frame [.so, .filt, .dict] s t ∧
        t.srcState c.src = { noted with st := 2, quietEnd := none } ∧ (t.blk c.src).held = true ∧ (t.eng e).b.st = .warming) ∧
      (∀ k n, k < 96 → n < 18 → c.src = cellSrc k n → completes .postcardAccept s fun t => Frame [.so, .fab, .dict] s t ∧
        t.srcState c.src = { noted with st := 2, quietEnd := none } ∧ (t.blk c.src).held = true ∧ (t.cl k).slot n = .held)) ∧
    (∀ b : Bool, cr.2 ≠ .note → v.st ≠ 2 → s.cfg (ob 0x2300 3) ≤ recent c.src → c.src = (if b then 0xA11 else 0xA10) → completes .postcardAccept s fun t =>
      Frame [.so, .ctrl] s t ∧ t.srcState c.src = { noted with st := 2, quietEnd := none } ∧
      t.ctrl = if s.ctrl.cond b = .ok then s.ctrl else s.ctrl.setCond b .latched) ∧
    (cr.2 = .isolate ∨ cr.2 = .promote → v.st ≠ 2 → recent c.src < s.cfg (ob 0x2300 3) → held = false →
      (∀ k n, k < 96 → n < 18 → c.src = cellSrc k n → completes .postcardAccept s fun t => Frame [.so, .fab, .dict] s t ∧ soIs t ∧
        (t.srcState c.src).st = 1 ∧ (t.blk c.src).held = true ∧ (t.cl k).slot n = .held)) ∧
    (cr.2 ≠ .note → v.st ≠ 2 → s.cfg (ob 0x2300 3) ≤ recent c.src → (held = true ∧ blockType c.src ≠ some 0x61) ∨
        (∀ ty ∈ [0x10, 0x21, 0x40, 0x61], blockType c.src ≠ some ty) →
      completes .postcardAccept s fun t => Frame [.so] s t ∧ t.srcState c.src = { noted with st := 2, quietEnd := none } ∧ srcBut c.src t ∧
        t.so.next = so'.next ∧ ∃ u : State, u.so = { so' with srcs := t.so.srcs } ∧ t.so = (raise 0xA40 2 c.src u).so)) ∧
  (∀ a : BitVec 64, let n := a.toNat
    waits (.pcAck a) 6 (toBytes 8 n) ∧ (now →
    (n < so.acked ∨ so.next < n → exec (.pcAck a) s = .next s) ∧
    (so.acked ≤ n → n ≤ so.next → n = so.acked ∨ so.dropsSince = 0 → completes (.pcAck a) s fun t => Frame [.so] s t ∧
      t.so = { so with acked := n }) ∧
    (so.acked < n → n ≤ so.next → 0 < so.dropsSince → so.next - so.acked ≤ 4096 → completes (.pcAck a) s fun t => Frame [.so] s t ∧
      t.so = { so with acked := n, dropsSince := 0, next := so.next + 1,
                       queue := so.queue.set (fun _ => {}) (so.next % 4096) ⟨0xA40, 1, 8, so.dropsSince % 2 ^ 32, s.pm⟩ }))) ∧
  (∀ n : BitVec 12, let v := s.srcState n.toNat
    (∀ t, v.st = 1 → v.quietEnd = some t → t ≤ s.tbk → (s.blk n.toNat).held = false → n ≠ 0xA10 → n ≠ 0xA11 →
      completes (.quietPeriodEnd n) s fun t => Frame [.so] s t ∧ srcBut n.toNat t ∧ t.so = { so with srcs := t.so.srcs } ∧
        t.srcState n.toNat = { v with st := 0, quietEnd := none, recTimes := s.tbk :: v.recTimes, recoveries := satAdd 32 v.recoveries 1 }) ∧
    (∀ t k m, v.st = 1 → v.quietEnd = some t → t ≤ s.tbk → (s.blk n.toNat).held = true → k < 96 → m < 18 → n.toNat = cellSrc k m →
      completes (.quietPeriodEnd n) s fun t => Frame [.so, .fab, .dict] s t ∧ (t.srcState n.toNat).st = 0 ∧ (t.blk n.toNat).held = false ∧
        (t.cl k).slot m = .selfTest) ∧
    (v.st ≠ 1 ∨ v.quietEnd = none ∨ (∃ t, v.quietEnd = some t ∧ s.tbk < t) → exec (.quietPeriodEnd n) s = .next s) ∧
    (completes (.recoveryWindowExpiry n) s fun t => Frame [.so] s t ∧ srcBut n.toNat t ∧ t.so = { so with srcs := t.so.srcs } ∧
      t.srcState n.toNat = { v with recTimes := v.recTimes.filter fun x => decide (s.tbk < x + 1000 * s.cfg (ob 0x2300 2)) })) ∧
  (∀ (b : Bool) (t : Nat), let n := if b then 0xA11 else 0xA10
    let v := s.srcState n
    v.st = 1 → v.quietEnd = some t → t ≤ s.tbk → (s.blk n).held = false → s.ctrl.cond b = .offline →
      s.ctrl.pair = (if b then .soloA else .soloB) ∨ s.ctrl.pair = .halted → completes (.stewardQuietEnd b) s fun t => Frame [.so, .ctrl] s t ∧
        (t.srcState n).st = 0 ∧ srcBut n t ∧ t.ctrl = s.ctrl.setCond b .testing) ∧
  (∀ n : BitVec 16, let v := s.srcState n.toNat
    let may := (blockType n.toNat).isSome = true ∧ n.toNat ≠ 0xA10 ∧ n.toNat ≠ 0xA11 ∧ v.st = 2
    waits (.faultRelease n) 9 (toBytes 2 n.toNat) ∧ (now →
    (¬ may → exec (.faultRelease n) s = .next s) ∧
    (may → (s.blk n.toNat).held = true →
      (∀ k m, k < 96 → m < 18 → n.toNat = cellSrc k m → completes (.faultRelease n) s fun t => Frame [.so, .fab, .dict] s t ∧
        (t.srcState n.toNat).st = 0 ∧ (t.blk n.toNat).held = false ∧ (t.cl k).slot m = .selfTest) ∧
      (∀ k, k < 8 → n.toNat = compSrc k → completes (.faultRelease n) s fun t => Frame [.so, .out, .dict] s t ∧
        (t.srcState n.toNat).st = 0 ∧ (t.blk n.toNat).held = false ∧
        t.comp k = { s.comp k with force := true, powForce := true, part := 0, stall := none, stallSaid := false })) ∧
    (may → (s.blk n.toNat).held = false → completes (.faultRelease n) s fun t => Frame [.so] s t ∧ srcBut n.toNat t ∧
      t.srcState n.toNat = { v with st := 0, recTimes := [] } ∧
      ∃ u : State, u.so = { so with srcs := t.so.srcs } ∧ t.so = (raise 0xA40 3 n.toNat u).so))) ∧
  (∀ r : BitVec 128, let w := r.toNat
    waits (.injectRequest r) 0xA (toBytes 16 w) ∧ (now →
    (injOk w = true → so.inj = none → completes (.injectRequest r) s fun t => Frame [.so] s t ∧ t.so = { so with
      inj := some ⟨w % 4096, w / 4096 % 256, w / 2 ^ 20 % 2 == 1, w / 2 ^ 32 % 2 ^ 32, w / 2 ^ 64 % 65536⟩ }) ∧
    (injOk w = false ∨ so.inj ≠ none → exec (.injectRequest r) s = .next s)))

/-- 16 R467 to R476, R478, R479: the Rambler's comparison passes an audited fold, or withdraws it and reports its slot or, after reports against
two slots within 16 passes, the Rambler; a standby takes a position over, a repaired slot takes its home back after its self-test, a
rotation brings the standby in the same way, and without a standby the position's work is spread, the schedule checked anew
and put in force at a strip boundary. Both copies of the slot map, and the Stewards', follow. The model's choices stand in the log:
channels dropped by a fallback (87), a rotation timer that passes over a cluster (127) and a rotation as a move that CELL_REJOIN completes
(205), and that in the audit after a takeover the slot is at fault and a beam position's passes are the fabric's (223). -/
def Obligations.CellSlotsAreAuditedPromotedAndRotated : Prop := ∀ (s : State) (k : Fin 96),
  let v := s.cl k
  let clBut (t : State) : Prop := ∀ j, j ≠ k.val → t.cl j = s.cl j
  let counted (b : Bool) : Cluster := { v with audits := satAdd 64 v.audits 1, mismatches := satAdd 32 v.mismatches (b2n b) }
  (∀ (f : FoldItem) (bad : Bool), v.queue.find? (fun f => f.held) = some f →
    let inj := injFor (cellSrc k f.slot) 4 s
    let u := match inj with | some i => injCount i s | none => s
    let test := match inj with | some i => !i.react | none => false
    let pass := match s.fab.win with | some w => s.fab.passBase + w.chans.idxOf f.c | none => s.fab.passBase
    let accused := (∃ h ∈ v.hist, h.1 ≠ f.slot ∧ pass < h.2 + 16) ∧ ∀ last, v.audit = some (f.p, last) → last < pass
    (bad = false → inj = none → completes (.ramblerCompare k bad) s fun t => Frame [.fab] s t ∧ clBut t ∧
      let q := v.queue.map fun g => if g = f then { g with held := false } else g
      ∃ n, v.queue.idxOf f < n ∧ (∀ g ∈ q.take n, g.held = false ∧ ∃ r, { g with rnd := r } ∈ t.fab.folds) ∧
        (∀ g, (q.drop n).head? = some g → g.held = true) ∧ t.fab.folds.length = s.fab.folds.length + min n q.length ∧
        t.cl k = { counted false with queue := q.drop n, gen := (t.cl k).gen, segments := satAdd 64 v.segments (min n q.length) }) ∧
    (bad = true ∨ inj.isSome = true → completes (.ramblerCompare k bad) s fun t => Frame [.so, .fab] s t ∧ clBut t ∧
      (t.cl k).audits = satAdd 64 v.audits 1 ∧ (t.cl k).mismatches = satAdd 32 v.mismatches 1 ∧ (t.cl k).slots = v.slots ∧
      (t.cl k).hist = (f.slot, pass) :: v.hist.filter (fun h => decide (pass < h.2 + 16)) ∧
      (∃ n ∈ (t.cl k).wd ++ t.fab.notices, n.c = f.c ∧ n.j = f.j) ∧
      (accused → t.so = (raiseT test (cellSrc k 17) 6 (f.p % 16 + 16 * (f.c % 65536)) u).so) ∧
      (¬ accused → t.so = (raiseT test (cellSrc k f.slot) 1 (f.p % 16 + 16 * (f.c % 65536)) u).so) ∧
      (accused ∨ test = true → (t.cl k).withdraw = v.withdraw) ∧
      (¬ accused → test = false → f.p ∈ (t.cl k).withdraw ∧ ∀ g ∈ (t.cl k).queue, g.p ≠ f.p))) ∧
  (∀ bad : Bool, v.queue.find? (fun f => f.held) = none →
    let pass := s.curPass
    let p := v.auditPos pass
    let may := v.slot 17 = .ok ∧ v.rambFrom ≤ pass ∧ s.fab.batch.isSome = true ∧ isBeam s.active k p = true
    let slot := v.slotAt p
    let inj := injFor (cellSrc k slot) 4 s
    let u := match inj with | some i => injCount i s | none => s
    let test := match inj with | some i => !i.react | none => false
    let accused := (∃ h ∈ v.hist, h.1 ≠ slot ∧ pass < h.2 + 16) ∧ ∀ last, v.audit = some (p, last) → last < pass
    (may → bad = false → inj = none → completes (.ramblerCompare k bad) s fun t => Frame [.fab] s t ∧ clBut t ∧ t.cl k = counted false) ∧
    (may → bad = true ∨ inj.isSome = true → completes (.ramblerCompare k bad) s fun t => Frame [.so, .fab] s t ∧ clBut t ∧
      t.cl k = { counted true with hist := (slot, pass) :: v.hist.filter (fun h => decide (pass < h.2 + 16)) } ∧
      (accused → t.so = (raiseT test (cellSrc k 17) 6 (p % 16 + 16 * 0xFFFF) u).so) ∧
      (¬ accused → t.so = (raiseT test (cellSrc k slot) 1 (p % 16 + 16 * 0xFFFF) u).so) ∧
      ∀ x, s.fab.batch = some x → isBeam (s.setAt x) k p = true → ∃ e ∈ t.fab.cutNow, e.1 = k.val ∧ e.2.1 = p) ∧
    (¬ may → exec (.ramblerCompare k bad) s = .next s)) ∧
  (∀ x, v.move = some x →
    let addr := x.pos % 16 + 16 * (s.passChan k x.pos % 65536)
    let slots := v.slots.set x.pos x.slot
    let mapped (t : State) : Prop := (t.cl k).slots = slots ∧ (t.cl k).copy = v.copy.set x.pos x.slot ∧
      t.fab.kept.get (fun _ => List.range 16) k = (t.cl k).copy
    let old := v.slotAt x.pos
    (x.phase = 0 → completes (.standbyPowerGood k) s fun t => Frame [.fab] s t ∧ clBut t ∧ t.cl k = { v with move := some { x with phase := 1 } }) ∧
    (x.phase ≠ 0 → exec (.standbyPowerGood k) s = .next s) ∧
    (x.phase = 1 → completes (.standbyConfigured k) s fun t => Frame [.fab] s t ∧ clBut t ∧ t.cl k = { v with move := some { x with phase := 2 } }) ∧
    (x.phase ≠ 1 → exec (.standbyConfigured k) s = .next s) ∧
    (x.promotion = true → x.phase = 2 → completes (.promotionTakeover k) s fun t => Frame [.so, .fab] s t ∧ clBut t ∧
      mapped t ∧ (t.cl k).promotions = satAdd 32 v.promotions 1 ∧ (t.cl k).withdraw = v.withdraw.filter (fun p => p != x.pos) ∧
      raisedOnly [(cellSrc k x.slot, 2, addr)] s t ∧ (t.cl k).audit = some (x.pos, s.passNo k x.pos + 1) ∧
      t.fab.notices = s.fab.notices ++ v.wd.filter (fun n => n.j == posIndex s.active k x.pos) ∧
      ((∀ n, n < 17 → v.slot n = .ok → n ∈ slots) → (∀ u ∈ v.fallback, v.slot u.slot = .ok → slots.idxOf u.slot ≠ u.pos) → (t.cl k).standby = none ∧ (t.cl k).move = none)) ∧
    (x.promotion = false ∨ x.phase ≠ 2 → exec (.promotionTakeover k) s = .next s) ∧
    (x.promotion = false → completes (.cellRejoin k) s fun t => Frame [.so, .fab] s t ∧ clBut t ∧ mapped t ∧
      (v.slot old = .ok → old ≠ x.slot → (t.cl k).standby = some old) ∧ (old = x.slot → v.standby.isSome = true → (t.cl k).standby = v.standby) ∧
      (t.cl k).rotations = satAdd 32 v.rotations (if x.rotation then 1 else 0) ∧ (∀ u ∈ (t.cl k).fallback, u.pos ≠ x.pos) ∧
      raisedOnly [(cellSrc k x.slot, if x.rotation then 7 else 4, addr)] s t ∧
      (t.cl k).audit = some (x.pos, s.passNo k x.pos + 1)) ∧
    (x.promotion = true → exec (.cellRejoin k) s = .next s)) ∧
  (v.move = none → exec (.standbyPowerGood k) s = .next s ∧ exec (.standbyConfigured k) s = .next s ∧ exec (.promotionTakeover k) s = .next s ∧
    exec (.cellRejoin k) s = .next s) ∧
  (∀ n : Fin 18, (v.slot n ≠ .selfTest → ∀ p, exec (.cellSelftestDone k n p) s = .next s) ∧
    (v.slot n = .selfTest → (n ≠ 17 → completes (.cellSelftestDone k n true) s fun t => Frame [.fab] s t ∧ clBut t ∧ (t.cl k).slot n = .ok ∧
        (t.cl k).slots = v.slots ∧ (t.cl k).fallback = v.fallback ∧ (t.cl k).withdraw = v.withdraw ∧
        (∀ u ∈ v.fallback, u.slot = n.val → v.posOf n = some u.pos → v.move = none → (∀ w ∈ v.fallback, w.slot = n.val ∨ v.slot w.slot ≠ .ok) →
          (t.cl k).move = some ⟨false, u.pos, n, s.now, 0, false⟩ ∧ (t.cl k).standby = v.standby) ∧
        (v.idle = none → v.comesBack = none → n.val ∉ v.slots → v.standby ≠ some n.val → v.move = none →
          (n.val < 16 → v.slotAt n ≠ n.val → (t.cl k).move = some ⟨false, n, n, s.now, 0, false⟩ ∧ (t.cl k).standby = v.standby) ∧
          (n.val = 16 → (t.cl k).move = none ∧ (t.cl k).standby = if v.standby.isSome then v.standby else some 16))) ∧
      (n = 17 → completes (.cellSelftestDone k n true) s fun t => Frame [.fab] s t ∧ clBut t ∧
        t.cl k = { v.setSlot 17 .ok with rambFrom := s.nextPass k }) ∧
      (completes (.cellSelftestDone k n false) s fun t => Frame [.so, .fab] s t ∧ clBut t ∧ t.cl k = v.setSlot n .held ∧
        raisedOnly [if n = 17 then (cellSrc k 17, 6, v.auditPos s.curPass % 16 + 16 * 0xFFFF)
          else (cellSrc k n, 5, (v.posOf n).getD 0 % 16 + 16 * 0xFFFF)] s t))) ∧
  (let per := s.cfg (ob 0x2300 4)
   let r := s.fab.rotation
   let c := r % 96
   (per = 0 ∨ s.now < s.fab.rotAt + per * 250000000 / 96 → exec .rotationTimer s = .next s) ∧
   (per ≠ 0 → s.fab.rotAt + per * 250000000 / 96 ≤ s.now →
     let fit (b : Nat) : Prop := (s.cl c).standby = some b ∧ (s.cl c).move = none ∧ ∀ n, n < 18 → (s.cl c).slot n = .ok
     (∀ b, fit b → completes .rotationTimer s fun t => Frame [.fab] s t ∧ (∀ j, j ≠ c → t.cl j = s.cl j) ∧
       t.fab = { s.fab with rotation := r + 1, rotAt := s.now, cl := t.fab.cl } ∧
       t.cl c = { s.cl c with move := some ⟨false, r / 96 % 16, b, s.now, 0, true⟩ }) ∧
     ((∀ b, ¬ fit b) → completes .rotationTimer s fun t => Frame [.fab] s t ∧ t.fab = { s.fab with rotation := r + 1, rotAt := s.now }))) ∧
  (∀ u, v.fallback.find? (fun u => !u.spread) = some u →
    let marked := v.fallback.map fun x => if x.pos = u.pos then { x with spread := true } else x
    (s.now < u.since + us 20 → exec (.fallbackRespread k) s = .next s) ∧
    (u.since + us 20 ≤ s.now → isBeam s.active k u.pos = false → completes (.fallbackRespread k) s fun t =>
      Frame [.so, .fab] s t ∧ clBut t ∧ raisedOnly [(cellSrc k u.slot, 3, u.pos % 16 + 16 * (s.passChan k u.pos % 65536))] s t ∧
      (t.cl k).fallback = marked ∧ (t.cl k).withdraw = v.withdraw.filter (fun p => p != u.pos) ∧
      (∀ w n, s.fab.win = some w → s.front w (s.winSet w) = some n → (t.posSt k u.pos).todo = some [] ∧
        ∀ q, q < 16 → q ≠ u.pos → isBeam (s.winSet w) k q = true → t.posSt k q = s.posSt k q)) ∧
    (u.since + us 20 ≤ s.now → isBeam s.active k u.pos = true → completes (.fallbackRespread k) s fun t => Frame [.fab] s t ∧ clBut t ∧
      t.fab = { s.fab with cl := t.fab.cl, removed := s.fab.removed.filter (fun x => x != (k.val, u.pos)) ++ [(k.val, u.pos)] } ∧
      t.cl k = { v with fallback := marked })) ∧
  (v.fallback.find? (fun u => !u.spread) = none → exec (.fallbackRespread k) s = .next s) ∧
  (s.unserved = [] → exec .fallbackRecheck s = .next s) ∧
  (s.unserved ≠ [] → let r := s.reduced s.active
    completes .fallbackRecheck s fun t => Frame [.so, .fab] s t ∧ t.fab = { s.fab with newSched := some r } ∧
      raisedOnly (if 0 < r.2.1 ∨ r.2.2 = true then [(0x940, 3, r.1.length % 65536 + 65536 * (r.2.1 % 65536))] else []) s t) ∧
  (s.fab.newSched = none → exec .fallbackSchedule s = .next s) ∧
  (∀ o d b, s.fab.newSched = some (o, d, b) →
    let f := { s.fab with removed := o, dropped := d, beamsOff := b, newSched := none }
    (s.fab.win = none → completes .fallbackSchedule s fun t => Frame [.fab] s t ∧ t.fab = f) ∧
    (∀ w, s.fab.win = some w → let m := s.winSet w
      (s.atBoundary w m = false → exec .fallbackSchedule s = .next s) ∧
      (s.atBoundary w m = true → completes .fallbackSchedule s fun t => Frame [.fab, .acc] s t ∧
        let n := (s.front w m).getD 0 / max 1 (8192 / max 1 (setQ m))
        let keep (c : Nat) : Bool := decide (c < setChans m - d)
        t.fab = { f with win := some { w with chans := w.chans.take n ++ (w.chans.drop n).filter keep } } ∧
        t.acc = { s.acc with noFold := t.acc.noFold } ∧ (∀ c ∈ w.chans.drop n, keep c = false → (c, s.intAt m c w.x0) ∈ t.acc.noFold) ∧
        ∀ e ∈ t.acc.noFold, e ∈ s.acc.noFold ∨ (e.1 ∈ w.chans.drop n ∧ keep e.1 = false ∧ e.2 = s.intAt m e.1 w.x0))))

/-! ### Supplies, reset and START (18) -/

/-- 18 R504 to R507, R512 to R520: the power-up sequence, the rail and temperature monitors, main resets by power and by RST_N with their
ramp-down, the dictionary soft reset, per-block resets and START. Requests to the service wait without it (13 R385; log entry 201).
The model's choices stand in the log: the refusal of the bus matrix's reset, with a card of a free kind (105), RST_N before step 3 (150), how
samples count toward a brownout, the rails' being off and the order (151, 227), what a soft reset keeps (154), that a main reset leaves
State.reset (155), START's answer and FAC (156), that a loss of VKA drops the Hamper domain's cards (206), and the TAP (207, 226). -/
def Obligations.SuppliesResetsAndStartFollowTheirSequences : Prop := ∀ (s : State),
  let p := s.pwr
  let pwrIs (c : Instr) (q : Pwr) : Prop := completes c s fun t => Frame [.pwr] s t ∧ t.pwr = q
  let waits (c : Instr) (w : Waiting) : Prop := exec c s = .next (s.setDict { s.dict with waiting := s.dict.waiting ++ [w] })
  let wiped (t : State) : Prop := Frame [.so, .lanes, .filt, .relay, .fab, .acc, .mm, .out, .cour, .tally, .ctrl, .time, .dict, .pwr, .tap] s t ∧
    t.lanes = { State.reset.lanes with since := t.lanes.since } ∧ t.filt = State.reset.filt ∧ t.relay = State.reset.relay ∧ t.fab = State.reset.fab ∧
    t.acc = State.reset.acc ∧ t.mm = State.reset.mm ∧ t.out = State.reset.out ∧ t.cour = State.reset.cour ∧ t.tally = State.reset.tally ∧
    t.ctrl = State.reset.ctrl ∧ t.dict = State.reset.dict ∧ t.so.queue = [] ∧ t.so.srcs = [] ∧ t.so.inj = none ∧
    t.pwr.run = .idle ∧ t.pwr.rampPin = false ∧ t.pwr.rampSoft = false ∧ t.pwr.softBusy = false
  let clock (k at_ : Nat) (t : State) : Prop := t.time = { mono := s.time.mono, tbk := k, tbkAt := at_, ppsFrom := s.time.mono, tb := t.time.tb } ∧
    ∀ n, n < 3 → t.tbOf n = { since := s.time.mono }
  let pinReset (c : Instr) (pin : Bool) : Prop := completes c s fun t => wiped t ∧ clock s.time.tbk s.time.tbkAt t ∧ t.tap = s.tap ∧
    t.pwr.pinResets = satAdd 32 p.pinResets 1 ∧ t.pwr.step = min p.step 5 ∧
    (if pin = false ∧ 5 ≤ p.step then t.lanes.since = s.now ∧ t.pwr.inReset = false ∧ t.pwr.cause = p.newCause ||| 16 ∧ t.pwr.newCause = 0
      else t.pwr.inReset = true ∧ t.pwr.newCause = p.newCause ||| 16)
  let quiet : Prop := ∀ r ∈ s.ctrl.reqs, r.stage ≠ .ready
  let soft (c : Instr) : Prop := completes c s fun t => Frame (touches c) s t ∧
    ((∀ k, k < 4 → (s.stk k).queue = []) → Frame [.lanes, .filt, .relay, .fab, .acc, .mm, .out, .cour, .tally, .time, .dict, .pwr] s t ∧
      t.mm.mem = s.mm.mem) ∧ t.pwr.run = .idle ∧ t.pwr.cause = 32 ∧
    t.pwr.softResets = satAdd 32 p.softResets 1 ∧ t.dict.base = [] ∧ t.dict.sets = [] ∧ t.dict.shadow = [] ∧ t.dict.clients = [] ∧
    t.dict.up = false ∧ t.dict.tt.seq = s.dict.tt.seq ∧ t.mm.place = [] ∧ (∀ r, t.ring r = {}) ∧ t.out.eseq = s.out.eseq ∧
    t.out.ready = [] ∧ t.time.pm = s.time.pm ∧ t.time.aligned = s.time.aligned ∧ (∀ l, l < 222 → (t.lane l).rx ≠ .running) ∧
    ∀ c, c < 4 → (t.core c).st = .reset
  (p.vka = true → ∀ b, exec (.vkaRise b) s = .next s) ∧
  (p.vka = false → s.encl.st = .sealed → completes (.vkaRise true) s fun t => Frame [.time, .encl, .pwr] s t ∧
    t.pwr = { p with vka := true, step := 2, vkaAt := some s.now, newCause := p.newCause ||| 1 } ∧ t.time = { s.time with tbk := 0, tbkAt := s.now } ∧
    t.encl = { s.encl with epoch := s.encl.epoch + 1, pin := true, lock := false }) ∧
  (completes .vkaLoss s fun t => wiped t ∧ clock 0 s.now t ∧ t.tap = s.tap ∧ t.pwr.vka = false ∧
    t.pwr.newCause = (p.newCause ||| (if 5 ≤ p.step then 64 else 0)) ||| (if p.rampPin = true then 16 else 0) ∧ t.pwr.step = 0 ∧ t.pwr.inReset = true ∧ t.pwr.powerUps = 0 ∧
    t.pwr.pinResets = 0 ∧ t.pwr.softResets = 0 ∧ t.pwr.brownouts = 0) ∧
  (p.vka = true → pwrIs (.railGroupGood 0) { p with vkaAt := none }) ∧
  (∀ g : Fin 4, p.vka = true → g.val = 1 ∨ g.val = 2 → p.step = g.val + 1 → pwrIs (.railGroupGood g) { p with step := g.val + 2 }) ∧
  (p.vka = true → p.step = 4 → p.pin = true →
    pwrIs (.railGroupGood 3) { p with step := 5, powerUps := satAdd 32 p.powerUps 1, newCause := p.newCause ||| 2 }) ∧
  (p.vka = true → p.step = 4 → p.pin = false → completes (.railGroupGood 3) s fun t =>
    Frame [.so, .lanes, .time, .pwr] s t ∧ t.lanes = { s.lanes with since := s.now } ∧ clock s.time.tbk s.time.tbkAt t ∧
    t.pwr = { p with step := 5, powerUps := satAdd 32 p.powerUps 1, inReset := false, cause := p.newCause ||| 2, newCause := 0, cards := [] } ∧
    raisedOnly (p.cards.map fun c => (0xA80, c.1, c.2)) s t) ∧
  (∀ g : Fin 4, p.vka = false ∨ (g ≠ 0 ∧ p.step ≠ g.val + 1) → exec (.railGroupGood g) s = .next s) ∧
  (p.vka = true → p.step = 5 → p.inReset = false → p.rampSoft = false → completes .bootComplete s fun t => Frame [.time, .dict, .pwr] s t ∧
    t.pwr = { p with step := 6, softBusy := false } ∧ t.dict = { s.dict with up := true }) ∧
  (p.vka = false ∨ p.step ≠ 5 ∨ p.inReset = true ∨ p.rampSoft = true → exec .bootComplete s = .next s) ∧
  (∀ mv : List Nat, let v (n : Nat) := mv.getD n 0
    let tap := if 10 * v 1 < 1800 then .idcode else s.tap
    let inRange (n : Nat) : Prop := ∀ r, rails[n]? = some r → r.lo ≤ v n ∧ v n ≤ r.hi
    let off (n : Nat) (r : Rail) : Prop := 10 * v n < r.nominal
    let early (n : Nat) (r : Rail) : Prop := ¬ off n r ∧ ((r.group = 1 ∧ ∃ t, p.vkaAt = some t ∧ s.now < t + ms 2) ∨
      (2 ≤ r.group ∧ ((2 ≤ p.step ∧ p.step ≤ r.group) ∨ ∃ m q, rails[m]? = some q ∧ q.group + 1 = r.group ∧ off m q)))
    let place (n : Nat) : Nat := p.rise.get (fun _ => 0) n
    let badRise (n : Nat) (r : Rail) : Prop := place n ≠ 0 ∧
      if 9 * r.nominal ≤ 10 * v n then place n < 100 else (2 ≤ place n ∧ v n < p.mv.get (fun _ => 0) n) ∨ 10001 < place n
    let breach (n : Nat) : Prop := ∃ r, rails[n]? = some r ∧ (early n r ∨ badRise n r)
    let sram : Prop := (82 ≤ v 4 ∨ 72 ≤ v 3) ∧ v 4 + 50 < v 3
    let ordered : Prop := (∀ n, n < 9 → ¬ breach n) ∧ ¬ sram
    let brown (n : Nat) : Prop := ∃ r, rails[n]? = some r ∧ 1 ≤ r.group ∧ r.group + 2 ≤ p.step ∧ v n < r.trip ∧ 1 ≤ p.below.get (fun _ => 0) n
    let off_ (bit kind n : Nat) (t : State) : Prop := wiped t ∧ clock s.time.tbk s.time.tbkAt t ∧ t.tap = tap ∧ t.pwr.inReset = true ∧ t.pwr.step = 1 ∧
      t.pwr.brownouts = satAdd 32 p.brownouts 1 ∧ t.pwr.cards = p.cards ++ [(kind, n + 16 * (v n % 65536))] ∧
      t.pwr.newCause = ((p.newCause ||| bit) ||| (if p.rampPin = true then 16 else 0)) |||
        (if bit = 4 ∧ p.newCause / 4 % 2 = 0 then 256 * n else 0)
    let card (n kind : Nat) : Prop := completes (.railSample mv) s fun t => Frame [.so, .pwr] s t ∧ t.pwr.inReset = p.inReset ∧
      t.pwr.step = p.step ∧ (kind = 1 → n ∈ t.pwr.low) ∧ (kind = 2 → n ∈ t.pwr.high) ∧ raisedOnly [(0xA80, kind, n + 16 * (v n % 65536))] s t
    (p.vka = false → exec (.railSample mv) s = .next { s with tap := tap }) ∧
    (p.vka = true → ordered → 5 ≤ p.step → 2900 ≤ v 0 →
      ((∀ n, n < 9 → inRange n) → completes (.railSample mv) s fun t => Frame [.pwr] s t ∧ (∀ n, n < 9 → t.pwr.mv.get (fun _ => 0) n = v n ∧
        n ∉ t.pwr.low ∧ n ∉ t.pwr.high) ∧ t.pwr.step = p.step ∧ t.pwr.broken = false) ∧
      (∀ n r, rails[n]? = some r → (∀ j, j < 9 → j ≠ n → inRange j) →
        (n ∉ p.low → v n < r.lo → r.trip ≤ v n → card n 1) ∧ (n ∉ p.high → r.hi < v n → card n 2))) ∧
    (∀ n, p.vka = true → brown n → (∀ j, j < n → ¬ brown j) → completes (.railSample mv) s (off_ 4 3 n)) ∧
    (p.vka = true → p.broken = false → (∀ j, j < 9 → ¬ brown j) →
      (∀ n, n < 9 → breach n → (∀ j, j < n → ¬ breach j) → completes (.railSample mv) s (off_ 8 4 n)) ∧
      ((∀ n, n < 9 → ¬ breach n) → sram → completes (.railSample mv) s (off_ 8 4 4))) ∧
    (p.vka = true → ordered → p.step = 1 → (∀ n r, rails[n]? = some r → 1 ≤ n → off n r) → completes (.railSample mv) s fun t =>
      Frame [.so, .pwr, .tap] s t ∧ t.tap = tap ∧ t.pwr.step = (if 9999 ≤ p.offRun then 2 else 1) ∧
      t.pwr.offRun = if 9999 ≤ p.offRun then 0 else p.offRun + 1)) ∧
  (∀ (x : Int) (r : List Int),
    let tj := r.foldl max x
    let lim : Int := s.cfg (ob 0x2400 0xD)
    let alert := if lim ≤ tj then true else if tj ≤ lim - 2 then false else p.talert
    completes (.tjSample (x :: r)) s fun t => Frame [.so, .pwr] s t ∧
      t.pwr = { p with tj := tj, tjMax := some (match p.tjMax with | some m => max m tj | none => tj), hot := decide (85 < tj), talert := alert } ∧
      raisedOnly ((if 85 < tj ∧ p.hot = false then [(0xA80, 5, unsigned 16 tj)] else []) ++
        (if alert = true ∧ p.talert = false then [(0xA80, 6, unsigned 16 tj)] else [])) s t) ∧
  (∀ w : BitVec 32, let may := s.dict.up = true ∧ w = 0xA5A5 ∧ p.softBusy = false
    let cells := p.run = .ramping ∨ p.run = .running ∨ p.run = .stopping
    (s.dict.up = true → s.servesNow = false → waits (.softReset w) (.softReset w.toNat)) ∧
    (s.dict.up = false ∨ s.servesNow = true → ¬ may → exec (.softReset w) s = .next s) ∧ (s.servesNow = true → may → ¬ cells → soft (.softReset w)) ∧
    (s.servesNow = true → p.softDue = false → may → cells → completes (.softReset w) s fun t => Frame [.dict, .pwr] s t ∧ t.dict = { s.dict with up := false } ∧
      t.pwr = { p with run := .stopping, rampSoft := true, softBusy := true })) ∧
  (let cells := p.run = .ramping ∨ p.run = .running ∨ p.run = .stopping
   (p.pin = true → exec .rstNAssert s = .next s) ∧
   (p.pin = false → p.inReset = true → pwrIs .rstNAssert (if 3 ≤ p.step then
      { p with pin := true, pinResets := satAdd 32 p.pinResets 1, newCause := p.newCause ||| 16 } else { p with pin := true })) ∧
   (p.pin = false → p.inReset = false → cells → pwrIs .rstNAssert { p with pin := true, run := .stopping, rampPin := true, rampSoft := false, softBusy := false }) ∧
   (p.pin = false → p.inReset = false → ¬ cells → pinReset .rstNAssert true)) ∧
  let released := if s.tap.drives then .bypass else s.tap
  (p.pin = true → p.inReset = true → p.step = 5 → completes .rstNRelease s fun t => Frame [.so, .lanes, .time, .pwr, .tap] s t ∧ t.tap = released ∧
    t.lanes = { s.lanes with since := s.now } ∧ clock s.time.tbk s.time.tbkAt t ∧
    t.pwr = { p with pin := false, inReset := false, cause := p.newCause, newCause := 0, cards := [] } ∧
    raisedOnly (p.cards.map fun c => (0xA80, c.1, c.2)) s t) ∧
  (p.pin = false ∨ p.inReset = false ∨ p.step ≠ 5 → completes .rstNRelease s fun t => Frame [.pwr, .tap] s t ∧ t.tap = released ∧
    t.pwr = { p with pin := false }) ∧
  (p.run = .stopping → p.rampPin = true → p.cards = [] → pinReset .rampDownDone p.pin) ∧
  (p.run = .stopping → p.rampPin = false → p.rampSoft = true → soft .rampDownDone) ∧
  (p.run ≠ .stopping ∨ (p.rampPin = false ∧ p.rampSoft = false) → exec .rampDownDone s = .next s) ∧
  (∀ n : BitVec 16,
    let stopped (t : State) : Prop := t.dict = { s.dict with blks := t.dict.blks } ∧ (t.blk n.toNat).running = false ∧
      (t.blk n.toNat).held = (s.blk n.toNat).held ∧ ∀ j, j ≠ n.toNat → t.blk j = s.blk j
    (s.dict.up = true → s.servesNow = false → waits (.blockReset n) (.blockReset n.toNat)) ∧
    (s.dict.up = false ∨ (s.servesNow = true ∧ (blockType n.toNat = none ∨ n = 0x940 ∨ n = 0xA40 ∨ n = 0xA70 ∨ n = 0xA80)) →
      exec (.blockReset n) s = .next s) ∧
    (s.dict.up = true → s.servesNow = true →
      (∀ k, k < 8 → n.toNat = compSrc k → completes (.blockReset n) s fun t => Frame [.out, .dict] s t ∧ stopped t ∧
        t.comp k = { s.comp k with force := true, powForce := true, part := 0, stall := none, stallSaid := false } ∧
        ∀ j, j ≠ k → t.comp j = s.comp j) ∧
      (∀ e, e < 24 → n.toNat = 0x100 + e → completes (.blockReset n) s fun t => Frame [.filt, .dict] s t ∧ (t.blk n.toNat).running = false ∧
        (t.eng e).a.prof.isPlain = true ∧ (t.eng e).b.st = .warming) ∧
      (∀ c, c < 4 → n.toNat = 0xA00 + c → quiet → completes (.blockReset n) s fun t => Frame [.tally, .ctrl, .dict] s t ∧ stopped t ∧
        coreIs c { (s.core c).cleared with st := .reset } s t ∧ t.ctrl.epoch.get zeroTab (2 + c) = 1 - s.ctrl.epoch.get zeroTab (2 + c)) ∧
      (n = 0xDF → quiet → completes (.blockReset n) s fun t => Frame [.ctrl, .dict] s t ∧ stopped t ∧
        t.ctrl.epoch.get zeroTab 8 = 1 - s.ctrl.epoch.get zeroTab 8 ∧ t.ctrl.resets.get zeroTab 8 = satAdd 32 (s.ctrl.resets.get zeroTab 8) 1) ∧
      (n = 0xA30 → completes (.blockReset n) s fun t => Frame [.so, .dict] s t ∧ stopped t ∧ raisedOnly [(0xA30, Config.busRefusedKind, 0)] s t) ∧
      (n = 0xA20 → completes (.blockReset n) s fun t => Frame (touches (.blockReset n)) s t ∧ t.cour.ready = [] ∧ t.cour.slot = [] ∧
        ∀ r, (s.ring r).st = .running ∨ (s.ring r).st = .parked → (t.ring r).st = .stopped ∧ (t.ring r).resetStop = true))) ∧
  (∀ a : BitVec 64, let f := s.chipF lastSet
    let may := s.dict.up = true ∧ s.pm ≤ a.toNat ∧ s.dict.sets ≠ [] ∧ p.run = .idle ∧ s.dict.tt.st = .idle
    (s.dict.up = true → s.servesNow = false → waits (.startAt a) (.start a.toNat)) ∧
    (s.dict.up = false ∨ s.servesNow = true → ¬ may → exec (.startAt a) s = .next s) ∧
    (may → s.servesNow = true → 0 < f → completes (.startAt a) s fun t => Frame [.pwr] s t ∧ ∃ st b, t.pwr = { p with run := .armed, startPm := st, b0 := b } ∧
      st % f = 0 ∧ a.toNat ≤ st ∧ st < a.toNat + f ∧ b % (8192 * f) = 0 ∧ st + 26112 ≤ b ∧ b < st + 26112 + 8192 * f)) ∧
  (p.run = .armed → p.startPm ≤ s.pm → pwrIs .startRamp { p with run := .ramping }) ∧
  (p.run ≠ .armed ∨ s.pm < p.startPm → exec .startRamp s = .next s) ∧
  (p.run = .ramping → p.b0 ≤ s.pm → let m := s.setAt p.b0
    completes .startEffect s fun t => Frame [.fab, .acc, .pwr] s t ∧ t.pwr = { p with run := .running } ∧ t.fab.start = some p.b0 ∧
      t.fab.rotAt = s.now ∧ t.fab.passBase = 0 ∧ t.acc = { s.acc with starts := s.acc.starts ++ [p.b0], fac := List.range (setChans m) } ∧
      ∀ k, k < 96 → t.cl k = { s.cl k with hist := [], audit := none, rambFrom := 0, gen := some (rngSeed (setVal m (ob 0x7100 6)) k) }) ∧
  (p.run ≠ .ramping ∨ s.pm < p.b0 → exec .startEffect s = .next s)

/-! ### Time bases (15) -/

/-- 15 R428 to R445: an accepted alignment waits for a qualifying PPS edge and steps the Postmark counter at it, edges and REF10M windows are
checked, the reference state follows its table, TB-K counts, and a PTP time base listens, follows a master, steps or steers by its offset,
and holds over when the master is silent. A step forward lets the counter-driven actions that are due act. The servo's rate is a free value,
and so, within what the oscillators allow, is TBK_SUB (log 25). The model's choices: the best master and the servo (26), the extended
reading (37), the first edge (128), tb_mode (129), how stamps are compared and a peer's delay request is answered (202), and that REF10M's
loss restarts the count of errors (229). -/
def Obligations.TimeBasesAlignCheckAndFollow : Prop := ∀ (s : State),
  let m := s.time
  let timeIs (c : Instr) (q : Times) : Prop := completes c s fun t => Frame [.time] s t ∧ t.time = q
  let cardIs (c : Instr) (k a : Nat) (q : Times) : Prop := completes c s fun t => Frame [.so, .time] s t ∧ t.time = q ∧ raisedOnly [(0xA60, k, a)] s t
  let running := ∃ l, l < 0xCC ∧ (s.lane l).rx = .running
  let tol := s.cfg (ob 0x2200 5)
  let rates (locks : Bool) (t : State) : Prop := ∀ j, (t.tbOf j).st = (s.tbOf j).st ∧ (t.tbOf j).val s.now = (s.tbOf j).val s.now % 2 ^ 64 ∧
    (t.tbOf j).addend = if locks = true ∧ j < 3 ∧ (s.tbOf j).st = .holdover ∧ s.tbCfg j 8 = 1 then (s.tbOf j).ratio else (s.tbOf j).addend
  (∀ (sec ep : BitVec 64) (f : Bool), let ok := ep.toNat ≤ sec.toNat ∧ (sec.toNat - ep.toNat) * 250000000 < 2 ^ 64 ∧ (f = true ∨ ¬ running)
    (ok → timeIs (.pmAlign sec ep f) { m with align := some ⟨sec.toNat, ep.toNat, f, s.now⟩ }) ∧ (¬ ok → exec (.pmAlign sec ep f) s = .next s)) ∧
  (∀ r, m.align = some r → (r.at_ + 500000000 ≤ s.now → cardIs .pmAlignTimeout 6 0 { m with align := none }) ∧
    (s.now < r.at_ + 500000000 → exec .pmAlignTimeout s = .next s)) ∧
  (m.align = none → exec .pmAlignTimeout s = .next s) ∧
  (let good : Bool := match m.lastPps with | some p => decide (((s.now : Int) - p - 250000000).natAbs ≤ tol) | none => false
   let goodEdges := if m.ref = .acquire ∧ m.pll = true then (if m.goodEdges = 0 ∨ good = false then 1 else m.goodEdges + 1) else m.goodEdges
   let locks : Bool := decide (m.ref = .acquire) && m.pll && m.ref10m && decide (3 ≤ goodEdges)
   let cyc := (s.now - m.tbkAt) * 16 / 125
   let edge (cs : List (Nat × Nat × Nat)) (n : Times) : Prop :=
     let q := n.pm % 250000000
     let e : Option Int := if n.aligned = true then some (if q < 125000000 then (q : Int) else (q : Int) - 250000000)
       else m.lastPps.map fun p => (s.now : Int) - p - 250000000
     let bad := tol < (e.getD 0).natAbs
     ∃ t, exec .ppsEdge s = .next (if m.pm < n.pm then stepActions t else t) ∧ Frame [.so, .time, .fresh] s t ∧
     (∃ sub, sub < 32000 ∧ sub ≤ cyc + cyc / 2000 + 1 ∧ min 31999 (cyc - (cyc / 2000 + 1)) ≤ sub ∧ t.time = { n with
       ppsOk := true, lastPps := some s.now, ppsFrom := s.now, ppsLost := false, ppsError := e.getD m.ppsError, ppsTol := if e.isSome then decide (¬ bad) else m.ppsTol,
       ppsSlips := if bad then satAdd 32 m.ppsSlips 1 else m.ppsSlips, goodEdges := goodEdges, edges := (m.edges + 1) % 2 ^ 32,
       ref := if locks = true then .locked else m.ref, tb := t.time.tb,
       capture := n.pm + 2 ^ 64 * (s.setTime n).tbNow 0 + 2 ^ 96 * (s.setTime n).tbNow 1 + 2 ^ 128 * (s.setTime n).tbNow 2 +
         2 ^ 160 * (s.tbk % 2 ^ 48) + 2 ^ 208 * sub + 2 ^ 224 * ((m.edges + 1) % 2 ^ 32) }) ∧ rates locks t ∧
     (m.pmSteps < n.pmSteps → ∀ j, j < 3 → (s.tbOf j).st = .follow → (t.tbOf j).stepped = true) ∧ raisedOnly (cs ++ if bad then [(0xA60, 4, unsigned 32 (e.getD 0))] else []) s t
   (m.ref ≠ .locked ∨ m.align = none ∨ (∃ r, m.align = some r ∧ (s.now < r.at_ + 25000000 ∨ r.at_ + 500000000 < s.now)) → edge [] m) ∧
   (∀ r, m.ref = .locked → m.align = some r → r.at_ + 25000000 ≤ s.now → s.now ≤ r.at_ + 500000000 →
     let v := (r.seconds - r.epoch) * 250000000
     let q := { m with pm := v, lead := m.pm + m.lead - v, epoch := r.epoch, aligned := true, align := none }
     (r.force = false → running → edge [(0xA60, 6, 0)] { m with align := none }) ∧
     (r.force = true ∨ ¬ running → v = m.pm → edge [] q) ∧
     (r.force = true ∨ ¬ running → v ≠ m.pm → edge [(0xA60, 5, unsigned 40 ((v : Int) - m.pm))] { q with pmSteps := satAdd 32 m.pmSteps 1 }))) ∧
  (m.ppsLost = false → m.ppsFrom + 275000000 ≤ s.now → cardIs .ppsTimeout 3 0 { m with ppsOk := false, ppsLost := true }) ∧
  (m.ppsLost = true ∨ s.now < m.ppsFrom + 275000000 → exec .ppsTimeout s = .next s) ∧
  (∀ n : Nat, let good := n = 24999 ∨ n = 25000 ∨ n = 25001
    let now := m.ref10m || decide (10 ≤ m.refGood + 1)
    let locks : Bool := decide (m.ref = .acquire) && m.pll && now && decide (3 ≤ m.goodEdges)
    (good → completes (.ref10mWindow n) s fun t => Frame [.time] s t ∧ rates locks t ∧ t.time = { m with
      refGood := min (m.refGood + 1) 10, refBad := 0, ref10m := now, tb := t.time.tb, ref := if locks = true then .locked else m.ref }) ∧
    (¬ good → m.refBad + 1 < 3 → timeIs (.ref10mWindow n) { m with ratioErrors := satAdd 32 m.ratioErrors 1, refGood := 0, refBad := m.refBad + 1 }) ∧
    (¬ good → 3 ≤ m.refBad + 1 →
      cardIs (.ref10mWindow n) 2 0 { m with ratioErrors := satAdd 32 m.ratioErrors 1, refGood := 0, refBad := 0, ref10m := false })) ∧
  cardIs .ref10mAbsent 2 0 { m with ref10m := false, refBad := 0, refGood := 0 } ∧
  (∀ n : Nat, let present := 249750 ≤ n ∧ n ≤ 250250
    (m.ref = .noRef → present → timeIs (.smprefCheck n) { m with ref := .acquire, pll := false, goodEdges := 0 }) ∧
    (m.ref = .holdover → present → timeIs (.smprefCheck n)
      { m with ref := .acquire, pll := false, goodEdges := 0, holdoverTime := min (s.tbk - m.holdFrom) (2 ^ 32 - 1) }) ∧
    (m.ref = .acquire ∨ m.ref = .locked →
      (¬ present → cardIs (.smprefCheck n) 1 0 { m with ref := .holdover, pll := false, holdFrom := s.tbk }) ∧
      (present → exec (.smprefCheck n) s = .next s)) ∧
    (m.ref = .noRef ∨ m.ref = .holdover → ¬ present → exec (.smprefCheck n) s = .next s)) ∧
  (m.ref = .acquire → m.pll = false → timeIs .samplePllLock { m with pll := true, goodEdges := 0 }) ∧
  (m.ref ≠ .acquire ∨ m.pll = true → exec .samplePllLock s = .next s) ∧
  timeIs .tbkTick { m with tbk := (m.tbk + 1) % 2 ^ 64, tbkAt := s.now } ∧
  (∀ x : Int, (m.ref ≠ .locked → exec (.tbkOscMeasure x) s = .next s) ∧
    (m.ref = .locked → x.natAbs ≤ 100000 → timeIs (.tbkOscMeasure x) { m with tbkOsc := x }) ∧
    (m.ref = .locked → 100000 < x.natAbs → completes (.tbkOscMeasure x) s fun t => Frame [.so, .time] s t ∧
      t.time = { m with tbkOsc := max (-(2 ^ 31)) (min (2 ^ 31 - 1) x) } ∧ t.so = (raiseLim 900000000000 0xA60 12 0 0 s).so)) ∧
  (∀ n : Fin 3, let b := s.tbOf n
    let dom := s.tbCfg n 3
    let only (t : State) : Prop := t.time = { m with tb := t.time.tb } ∧ ∀ j, j ≠ n.val → t.tbOf j = s.tbOf j
    let tbIs (c : Instr) (q : Tb) : Prop := completes c s fun t => Frame [.time] s t ∧ only t ∧ t.tbOf n = q
    let ticks (l : Int) : Nat := if l = 127 then b.reqInt else 31250000 * 2 ^ (max 0 (min 6 (l + 3))).toNat
    let follows := b.st = .uncalibrated ∨ b.st = .slave
    let open_ := b.st ≠ .disabled ∧ b.st ≠ .follow
    let fits (f l : Bool) (ver dm : Nat) : Prop := s.tbCfg n 2 = b2n f ∧ s.tbCfg n 4 = b2n l ∧ (ver = 2 ∨ ver = 18) ∧ dm = dom ∧ open_
    let verDom (q : PtpMsg) : Nat × Nat := match q with
      | .announce v d _ _ _ | .sync v d _ _ _ _ _ _ | .followUp v d _ _ _ _ | .delayResp v d _ _ _ _ _ | .pdelayReq v d _ _ _
      | .pdelayResp v d _ _ _ _ _ _ | .pdelayRespFollowUp v d _ _ _ _ => (v, d)
    let offset (c : Instr) (t1 t2 : Int) (two : Bool) : Prop :=
      let off := tbDiff (t2 - t1 - (b.delay + s.tbCorr n 0xB))
      let reads (t : State) : Prop := only t ∧ (t.tbOf n).twoStep = two ∧ (t.tbOf n).t1 = t1 ∧ (t.tbOf n).t2 = t2 ∧ (t.tbOf n).syncWait = none ∧
        (t.tbOf n).wraps = rhu (rhu (t1 + (b.delay + s.tbCorr n 0xB)) 1000 - t.tbNow n) (2 ^ 32)
      let ns := (2 * off + 1000) / 2000
      let inRun := if off.natAbs ≤ 1000 * s.tbCfg n 6 then b.inRun + 1 else 0
      let outRun := if 4000 * s.tbCfg n 6 < off.natAbs then b.outRun + 1 else 0
      (1000 * s.tbCfg n 7 < off.natAbs → completes c s fun t => Frame [.so, .time] s t ∧ reads t ∧ raisedOnly [(0xA60, 9, n)] s t ∧
        (t.tbOf n).st = .uncalibrated ∧ (t.tbOf n).offset = ns ∧ (t.tbOf n).stepped = true ∧
        (t.tbOf n).base = unsigned 64 ((b.val s.now : Int) - (2 * (off * 2 ^ 32) + 1000) / 2000) ∧ (t.tbOf n).since = s.now ∧
        (t.tbOf n).addend = b.addend ∧ (t.tbOf n).steps = satAdd 32 b.steps 1) ∧
      (off.natAbs ≤ 1000 * s.tbCfg n 7 → completes c s fun t => Frame [.so, .time, .fresh] s t ∧ reads t ∧ (t.tbOf n).offset = ns ∧
        (t.tbOf n).base = b.val s.now ∧ (t.tbOf n).since = s.now ∧ (t.tbOf n).steps = b.steps ∧
        34342558499 ≤ (t.tbOf n).addend ∧ (t.tbOf n).addend ≤ 34376918237 ∧
        ((t.tbOf n).addend : Int) ≤ max 34342558499 (b.addend + 3435973) ∧ min 34376918237 ((b.addend : Int) - 3435973) ≤ (t.tbOf n).addend ∧
        (b.st = .uncalibrated → 16 ≤ inRun → (t.tbOf n).st = .slave ∧ raisedOnly [(0xA60, 7, n)] s t) ∧
        (b.st = .uncalibrated → inRun < 16 → (t.tbOf n).st = .uncalibrated ∧ (t.tbOf n).inRun = inRun ∧ raisedOnly [] s t) ∧
        (b.st = .slave → 4 ≤ outRun → (t.tbOf n).st = .uncalibrated ∧ raisedOnly [(0xA60, 8, n)] s t) ∧
        (b.st = .slave → outRun < 4 → (t.tbOf n).st = .slave ∧ (t.tbOf n).outRun = outRun ∧ (t.tbOf n).ratio = (t.tbOf n).addend ∧
          raisedOnly [] s t))
    (∀ f l q, ¬ fits f l (verDom q).1 (verDom q).2 → exec (.ptpMessage n ⟨f, l, q⟩) s = .next s) ∧
    (∀ f l ver dm, fits f l ver dm →
      let msg (q : PtpMsg) : Instr := .ptpMessage n ⟨f, l, q⟩
      (∀ src rank iv, b.foreign = [] → tbIs (msg (.announce ver dm src rank iv)) { b with foreign := [⟨src.toNat, rank, 1, iv, s.now⟩] }) ∧
      (∀ src rank iv last, b.foreign = [⟨BitVec.toNat src, rank, 1, iv, last⟩] → s.now ≤ last + 4 * iv →
        completes (msg (.announce ver dm src rank iv)) s fun t => Frame [.so, .time] s t ∧ only t ∧ (t.tbOf n).master = src.toNat ∧
          (t.tbOf n).st = (if b.st = .slave ∧ src.toNat = b.master then .slave else .uncalibrated) ∧
          raisedOnly (if b.st ≠ .listening ∧ src.toNat ≠ b.master then [(0xA60, 11, n)] else []) s t) ∧
      (∀ src seq two t1 corr comma, ¬ follows ∨ BitVec.toNat src ≠ b.master → exec (msg (.sync ver dm src seq two t1 corr comma)) s = .next s) ∧
      (∀ src seq t1 corr comma, BitVec.toNat src = b.master → follows →
        tbIs (msg (.sync ver dm src seq true t1 corr comma)) { b with twoStep := true, syncWait := some (seq, corr, s.rxStamp n comma) } ∧
        offset (msg (.sync ver dm src seq false t1 corr comma)) (t1 + corr) (s.rxStamp n comma) false ∧
        (∀ c t2, b.syncWait = some (seq, c, t2) → offset (msg (.followUp ver dm src seq t1 corr)) (t1 + corr + c) t2 b.twoStep) ∧
        ((∀ c t2, b.syncWait ≠ some (seq, c, t2)) → exec (msg (.followUp ver dm src seq t1 corr)) s = .next s)) ∧
      (∀ src seq t4 corr t3 l, BitVec.toNat src = b.master → follows → s.tbCfg n 5 = 0 → b.t3 = some (seq, t3) →
        tbIs (msg (.delayResp ver dm src seq t4 corr l))
          { b with t3 := none, reqInt := ticks l, delay := (2 * (tbDiff (b.t2 - b.t1) + tbDiff (t4 - corr - t3)) + 2) / 4 }) ∧
      (∀ src seq a b' d t corr l comma, s.tbCfg n 5 = 1 →
        (completes (msg (.pdelayReq ver dm src seq comma)) s fun t => Frame [.outbox] s t ∧
          t.outbox = .ptp n [4, seq, BitVec.toNat src, unsigned 64 (s.txStamp n)] ::
            .ptp n [1, seq, BitVec.toNat src, unsigned 64 (s.rxStamp n comma)] :: s.outbox) ∧
        (b.t3 = some (seq, a) → tbIs (msg (.pdelayResp ver dm src seq t corr l comma))
          { b with reqInt := ticks l, pt := some (seq, t + corr, s.rxStamp n comma) }) ∧
        (b.t3 = some (seq, a) → b.pt = some (seq, b', d) → tbIs (msg (.pdelayRespFollowUp ver dm src seq t corr))
          { b with t3 := none, pt := none, delay := (2 * (tbDiff (d - a) - tbDiff (t + corr - b')) + 2) / 4 }))) ∧
    (let silent := (b.foreign.find? fun f => f.id == b.master) = none ∨
       ∃ f, b.foreign.find? (fun f => f.id == b.master) = some f ∧ f.last + 3 * f.interval ≤ s.now
     (follows → silent → completes (.announceTimeout n) s fun t => Frame [.so, .time] s t ∧ only t ∧ raisedOnly [(0xA60, 10, n)] s t ∧
       (t.tbOf n).st = .holdover ∧ (t.tbOf n).base = b.val s.now ∧ (t.tbOf n).since = s.now ∧
       (t.tbOf n).addend = (if s.tbCfg n 8 = 1 ∧ m.ref = .locked then b.ratio else b.addend)) ∧
     (¬ follows ∨ ¬ silent → exec (.announceTimeout n) s = .next s)) ∧
    (let on := follows ∨ (b.st = .listening ∧ s.tbCfg n 5 = 1)
     let due := ∀ a, b.reqAt = some a → a + b.reqInt ≤ s.now
     (∀ tx : Nat, on → due → completes (.delayReqSend n tx) s fun t => Frame [.time, .outbox] s t ∧ only t ∧
       t.tbOf n = { b with reqAt := some s.now, t3 := some (b.reqSeq, s.txStamp n + 1000 * tx), reqSeq := (b.reqSeq + 1) % 65536 } ∧
       t.outbox = .ptp n [s.tbCfg n 5 + 2, b.reqSeq] :: s.outbox) ∧
     (∀ tx : Nat, ¬ on ∨ ¬ due → exec (.delayReqSend n tx) s = .next s)))

/-! ### The enclave (17) and the TAP (19) -/

/-- 17 R485, R487, R488, R492, R493, R495, R497, R499, 19 R538: the debounced seal link, the fuses and the copies move the enclave by Table 17.2,
with its log and its Postcards and the level compared again at the end, and nothing happens in it without VKA; a cs write reaches the
working copy in UNSEALED only. An instruction of the TAP that drives balls is taken only while RST_N is low; what it drives is free (log
226). The vendor's code in IDCODE is a constant of the part. Without control service a cs write waits (13 R385; log 201). The model's
choices: EXHAUSTED and the sealed period (146), when a lock-out ends (147), what clears DAMAGED (148), what a rise of VKA does (149). -/
def Obligations.TheEnclaveSealsAndTheTapLoads : Prop := ∀ (s : State),
  let v := s.encl
  let logIn (event detail : Nat) (w : Encl) : Encl :=
    let b := toBytes 28 (w.audit % 2 ^ 32 + 2 ^ 32 * event + 2 ^ 36 * w.count + 2 ^ 49 * (w.epoch % 2 ^ 15) + 2 ^ 64 * s.tbk +
      2 ^ 128 * csVersion w.cert + 2 ^ 160 * w.certCrc + 2 ^ 192 * detail)
    { w with log := w.log.set (fun _ => 0) (w.audit % 256) (ofBytes b + 2 ^ 224 * crc32 b), audit := w.audit + 1,
             wrapped := w.wrapped || decide (256 ≤ w.audit) }
  let wrap (w : Encl) : List (Nat × Nat × Nat) := if w.audit = 256 then [(0xA70, 9, w.count % 8192)] else []
  let card (k : Nat) (w : Encl) : Nat × Nat × Nat := (0xA70, k, w.count % 8192)
  let enclIs (c : Instr) (q : Encl) (cs : List (Nat × Nat × Nat)) : Prop :=
    completes c s fun t => Frame [.so, .encl] s t ∧ t.encl = q ∧ raisedOnly cs s t
  let sealIs (c : Instr) (w : Encl) (cs : List (Nat × Nat × Nat)) : Prop :=
    completes c s fun t => Frame [.so, .dict, .encl] s t ∧ raisedOnly cs s t ∧
      t.encl = { w with st := .sealing, c1 := false, refusedNow := false, workingCrc := csCrc w.working } ∧
      t.dict = { s.dict with open_ := s.dict.open_.filter fun a => !csKeys.contains (ob a.idx a.sub) }
  let unsealing (w : Encl) : Encl := { w with st := .unsealing, mark := true, fails := 0, count := w.count + 1 }
  (∀ c ∈ ([.sealNAsserted, .sealNDeasserted, .fuseVerify true, .fuseVerify false, .copyC1Done, .copyC2Done] : List Instr),
    s.pwr.vka = false → exec c s = .next s) ∧
  (s.pwr.vka = true →
  (let w := { v with pin := true, lock := false }
   (v.st = .unsealed → sealIs .sealNAsserted w []) ∧ (v.st ≠ .unsealed → enclIs .sealNAsserted w [])) ∧
  (let w := { v with pin := false }
   (v.pin = false → exec .sealNDeasserted s = .next s) ∧
   (v.pin = true → v.st = .sealed → v.lock = false → v.count < 4096 → enclIs .sealNDeasserted (unsealing w) []) ∧
   (v.pin = true → v.st = .sealed → v.lock = false → 4096 ≤ v.count → enclIs .sealNDeasserted (logIn 4 0 w) (wrap v ++ [card 4 v])) ∧
   (v.pin = true → v.st ≠ .sealed ∨ v.lock = true → enclIs .sealNDeasserted w [])) ∧
  (let w := { logIn 1 0 v with st := .unsealed, mark := false, working := v.cert, workingCrc := csCrc v.cert }
   (v.st = .unsealing → v.pin = false → enclIs (.fuseVerify true) w (wrap v ++ [card 1 v])) ∧
   (v.st = .unsealing → v.pin = true → sealIs (.fuseVerify true) w (wrap v ++ [card 1 v]))) ∧
  (let w := { logIn 5 (v.count - 1) v with fails := v.fails + 1 }
   (v.st = .unsealing → v.fails + 1 < 3 → v.count < 4096 → enclIs (.fuseVerify false) { w with count := v.count + 1 } (wrap v)) ∧
   (v.st = .unsealing → 3 ≤ v.fails + 1 ∨ 4096 ≤ v.count →
     enclIs (.fuseVerify false) { w with st := .sealed, mark := false, lock := !v.pin } (wrap v ++ [card 5 v]))) ∧
  (v.st ≠ .unsealing → ∀ ok, exec (.fuseVerify ok) s = .next s) ∧
  (let low := v.workingCrc ≠ v.certCrc ∧ csVersion v.working ≤ csVersion v.cert
   let w := { v with cert := v.working, certCrc := v.workingCrc, present := true, damaged := [], c1 := true,
                     sealedAt := v.epoch % 2 ^ 15 + 2 ^ 15 * (s.tbk % 2 ^ 49) }
   v.st = .sealing → v.c1 = false →
     enclIs .copyC1Done (logIn 2 (if low then 1 else 0) w) (wrap v ++ if low then [card 6 v] else [])) ∧
  (v.st ≠ .sealing ∨ v.c1 = true → exec .copyC1Done s = .next s) ∧
  (let w := { v with st := .sealed }
   v.st = .sealing → v.c1 = true →
     (v.pin = true ∨ v.lock = true → enclIs .copyC2Done w [card 2 v]) ∧
     (v.pin = false → v.lock = false → v.count < 4096 → enclIs .copyC2Done (unsealing w) [card 2 v]) ∧
     (v.pin = false → v.lock = false → 4096 ≤ v.count → enclIs .copyC2Done (logIn 4 0 w) ([card 2 v] ++ wrap v ++ [card 4 v]))) ∧
  (v.st ≠ .sealing ∨ v.c1 = false → exec .copyC2Done s = .next s)) ∧
  (∀ (idx : BitVec 16) (sub : BitVec 8) (off : BitVec 32) b more o, objAt idx.toNat sub.toNat = some o → o.acc = 5 → s.dict.up = true → s.servesNow = true →
    let k := ob idx.toNat sub.toNat
    let a := idx.toNat + 65536 * sub.toNat
    let works (w : List Byte) : Prop := completes (.csWrite idx sub off b more) s fun t => Frame [.dict, .encl] s t ∧
      t.encl = { v with working := v.working.set csDefault k w, workingCrc := csCrc (v.working.set csDefault k w) } ∧
      t.dict = { s.dict with open_ := t.dict.open_ }
    (v.st = .unsealing → exec (.csWrite idx sub off b more) s = .next s) ∧
    (v.st = .sealed ∨ v.st = .sealing → let w := { v with refused := satAdd 32 v.refused 1, refusedNow := true }
      completes (.csWrite idx sub off b more) s fun t => Frame [.so, .encl] s t ∧ t.encl = (if v.refusedNow = true then w else logIn 3 a w) ∧
        t.so = (raiseLim 250000000 0xA70 3 0 a ((if v.refusedNow = true then [] else wrap v).foldl (fun q c => raise c.1 c.2.1 c.2.2 q) s)).so) ∧
    (v.st = .unsealed → o.typ ≠ 10 → b.length = o.size → works b) ∧
    (v.st = .unsealed → o.typ ≠ 10 → b.length ≠ o.size → exec (.csWrite idx sub off b more) s = .next s) ∧
    (v.st = .unsealed → o.typ = 10 → o.size < off.toNat + b.length → exec (.csWrite idx sub off b more) s = .next s) ∧
    (v.st = .unsealed → o.typ = 10 → b.length ≤ o.size → off = 0 → works b) ∧
    (∀ q, v.st = .unsealed → o.typ = 10 → off.toNat + b.length ≤ o.size → off ≠ 0 → s.openWrite idx.toNat sub.toNat = some q →
      q.data.length = off.toNat → works ((v.working.get csDefault k).take off.toNat ++ b))) ∧
  (∀ idx sub off b more, (s.dict.up = true → s.servesNow = false → exec (.csWrite idx sub off b more) s = .next (s.setDict
      { s.dict with waiting := s.dict.waiting ++ [.cs idx.toNat sub.toNat off.toNat b more] })) ∧
    (s.dict.up = false ∨ (s.servesNow = true ∧ ∀ o, objAt idx.toNat sub.toNat = some o → o.acc ≠ 5) → exec (.csWrite idx sub off b more) s = .next s)) ∧
  (∀ x ∈ ([(.extest, .extest), (.extestPulse, .extestPulse), (.extestTrain, .extestTrain), (.clamp, .clamp)] : List (Instr × TapIr)),
    (s.pwr.pin = true → completes x.1 s fun t => Frame [.tap, .fresh, .outbox] s t ∧ t.tap = x.2 ∧ ∃ d, t.outbox = .balls x.2 d :: s.outbox) ∧
    (s.pwr.pin = false → completes x.1 s fun t => Frame [.tap] s t ∧ t.tap = .bypass)) ∧
  (completes .bypass s fun t => Frame [.tap] s t ∧ t.tap = .bypass) ∧
  (completes .idcode s fun t => Frame [.tap, .outbox] s t ∧ t.tap = .idcode ∧ ∃ n, t.outbox = .tap n :: s.outbox ∧
    n / 2 ^ 28 = 2 ∧ n / 2 ^ 12 % 2 ^ 16 = 0x8100 ∧ n / 2 % 2 ^ 11 = Config.vendorId % 2 ^ 11 ∧ n % 2 = 1)

/-! ### The machine as a whole -/

/-- A step runs the command at the front of the queue on the state with the queue's rest. On an empty queue it is one tick of the sample
clock (log entry 2, the model's choice): the Postmark counter holds 0 while the main domain is in reset (15 R426) and counts otherwise, a lane in
TEST sends its words (03 R70), a control packet leaves that waits (06 R174, R175: a PING with the Postmark at which it leaves, a PONG with the
time since its PING), and what waits for control service goes on (13 R385). -/
def Obligations.AStepRunsTheFrontCommand : Prop :=
  (∀ (c : Instr) (q : List Instr) (s : State), step { s with pending := c :: q } = exec c { s with pending := q }) ∧
  (∀ s : State, s.pending = [] →
    let u : State := { s with time := { s.time with pm := if s.pwr.inReset = true then 0 else (s.time.pm + 1) % 2 ^ 64, mono := s.time.mono + 1 } }
    let lanes := ∀ l, (s.lane l).tx ≠ .test
    let ctl := ∀ p, p < 4 → (s.port p).ctlq = []
    let queues := (∀ k, k < 4 → (s.stk k).queue = []) ∧ s.ctrl.reqs = [] ∧ ∀ k, k < 16 → (s.olane k).owed = false
    (s.pwr.inReset = true → step s = .next u) ∧
    (s.pwr.inReset = false → lanes → ctl → queues → s.dict.waiting = [] ∨ s.ctrl.pair.serves = false → step s = .next u) ∧
    (∀ w, s.pwr.inReset = false → lanes → ctl → queues → s.dict.waiting = [w] → s.ctrl.pair.serves = true →
      step s = .next (serveWaiting w (u.setDict { u.dict with waiting := [] }))) ∧
    (∀ l, s.pwr.inReset = false → ctl → queues → s.dict.waiting = [] → (s.lane l).tx = .test → (∀ j, j ≠ l → (s.lane j).tx ≠ .test) →
      (s.lanes.lane.filter fun e => e.1 == l).length = 1 → (s.lane l).driver = true → 5 ≤ s.pwr.step → s.tap.drives = false →
      (s.lane l).loopback = 0 →
      let ph := (s.lane l).phase + 5 * 2 ^ (s.gen l - 1)
      let g := (s.lane l).genWord
      16 ≤ ph → ph < 32 → ∃ t, step s = .next t ∧ Frame [.lanes, .outbox] u t ∧ lanesBut l u t ∧ (t.lane l).phase = ph % 16 ∧
        t.outbox = .testWord l (g.2.injected g.1).1 :: s.outbox) ∧
    (∀ p c r, s.pwr.inReset = false → lanes → queues → s.dict.waiting = [] → p < 4 → (∀ j, j < 4 → j ≠ p → (s.port j).ctlq = []) →
      (s.port p).ctlq = c :: r →
      (u.ctlRoom p = false → step s = .next u) ∧
      (u.ctlRoom p = true → ∃ t, step s = .next t ∧ Frame [.lanes, .relay, .outbox] u t ∧ (t.port p).ctlq = r ∧
        let n := ((s.port p).txSeq + 1) % 256
        let a0 := if c.ctype = 2 then u.pm else c.arg0
        let a1 := if c.ctype = 3 then (u.now - c.since) % 2 ^ 32 else c.arg1
        (t.port p).txSeq = n ∧ t.outbox = .ctl p ((u.ctlLanes p).filter fun k => u.lineOpen (portLane p k)) c.ctype n c.origin a0 a1
          (crc32 (ctlBytes c.ctype n c.origin a0 a1)) :: s.outbox)))

/-- The state after a power-on reset, as 03 R60, R92, 04 R117, 06 R191, 09 R277, 11 R333, 12 R365, 13 R369, 16 Table 16.6, 17 R492 and 18 Table 18.11
give it for the parts named; the memory lists nothing and is canonical. -/
def Obligations.ResetLeavesWhatTheSpecStates : Prop :=
  let s := State.reset
  (∀ l, l < 222 → (s.lane l).rx = .acquire ∧ (s.lane l).tx = .active ∧ (s.lane l).slip = 0 ∧ (s.lane l).resume = false ∧ (s.lane l).mirror = 255 ∧
    (s.lane l).loopback = 0 ∧ (s.lane l).inj = none ∧ (s.lane l).codeErrors = 0 ∧ (s.lane l).dispErrors = 0 ∧
    (s.lane l).txRd = false ∧ (s.lane l).rxRd = false) ∧
  (∀ k, k < 96 → s.serving k = k ∧ (s.logical k).framesOk = 0 ∧ (s.logical k).crcErrors = 0 ∧ (s.logical k).expected = none) ∧
  (∀ i, i < 384 → (s.cond i).live = false ∧ (s.cond i).d = 0 ∧ (s.cond i).cur.frac = 0 ∧ (s.cond i).cur.phase = 0 ∧ (s.cond i).next = none ∧
    (s.cond i).line = [] ∧ (s.cond i).spikes = 0 ∧ (s.cond i).steps = 0) ∧
  (∀ p, p < 4 → (s.port p).st = .down ∧ (s.port p).neighbour = 0 ∧ (s.port p).nRank = 255 ∧ (s.port p).txMoves = [] ∧ (s.port p).lost = 0) ∧
  s.relay.rank = 255 ∧ s.relay.mapValid = false ∧
  (∀ n, n < 4 → (s.stk n).st = .off ∧ (s.stk n).corr = 0 ∧ (s.stk n).uncorr = 0) ∧
  (∀ r, r < 64 → (s.ring r).st = .disabled ∧ (s.ring r).error = 0 ∧ (s.ring r).done = 0) ∧ s.cour.errors = 0 ∧
  (∀ c, c < 4 → (s.core c).st = .reset ∧ (s.core c).clearing = true ∧ (s.core c).ipend = 0 ∧ (s.core c).posts = [] ∧ (s.core c).armed = false ∧
    (s.core c).sr = 0 ∧ (s.core c).cyclesRun = 0) ∧
  s.ctrl.remap = false ∧ s.ctrl.pair = .lockstep ∧ s.ctrl.reqs = [] ∧ s.so.waiting = [] ∧ (∀ n, (s.srcState n).st = 0) ∧ (∀ n, (s.blk n).running = false) ∧
  s.pm = 0 ∧ s.time.aligned = false ∧ (∀ n, n < 3 → (s.tbOf n).st = .disabled) ∧ s.encl.st = .sealed ∧ s.encl.count = 0 ∧ s.encl.present = false ∧
  s.pwr.run = .idle ∧ s.dict.sets = [] ∧ s.dict.open_ = [] ∧ s.pending = [] ∧ s.mm.mem = [] ∧ Memory.wf s.mm.mem = true

/-- Every command completes on every state, with no fault and no refusal, and changes at most the parts of the state that `touches` lists for
it; the queue is none of them. -/
def Obligations.EveryCommandCompletesInsideItsParts : Prop :=
  ∀ (c : Instr) (s : State), completes c s fun t => Frame (touches c) s t ∧ t.pending = s.pending

/-- Every step keeps the memory in its canonical form: addresses strictly rising, no entry equal to what an unlisted address reads as. -/
def Obligations.EveryStepKeepsTheMemoryCanonical : Prop :=
  ∀ s t : State, Memory.wf s.mm.mem = true → step s = .next t → Memory.wf t.mm.mem = true
end

