-- ==== Sys2Proof/Laws/State.lean ====
section
/-! SUPPORT. Every update of one part of the state leaves the other parts as they were. -/

set_option Elab.async false

namespace Sys2Proof.Machine

open Sys2Proof

variable (s : State)

@[simp] theorem State.setSo_so (x : Sorting) : (s.setSo x).so = x := rfl
@[simp] theorem State.setSo_lanes (x : Sorting) : (s.setSo x).lanes = s.lanes := rfl
@[simp] theorem State.setSo_filt (x : Sorting) : (s.setSo x).filt = s.filt := rfl
@[simp] theorem State.setSo_relay (x : Sorting) : (s.setSo x).relay = s.relay := rfl
@[simp] theorem State.setSo_fab (x : Sorting) : (s.setSo x).fab = s.fab := rfl
@[simp] theorem State.setSo_acc (x : Sorting) : (s.setSo x).acc = s.acc := rfl
@[simp] theorem State.setSo_mm (x : Sorting) : (s.setSo x).mm = s.mm := rfl
@[simp] theorem State.setSo_out (x : Sorting) : (s.setSo x).out = s.out := rfl
@[simp] theorem State.setSo_cour (x : Sorting) : (s.setSo x).cour = s.cour := rfl
@[simp] theorem State.setSo_tally (x : Sorting) : (s.setSo x).tally = s.tally := rfl
@[simp] theorem State.setSo_ctrl (x : Sorting) : (s.setSo x).ctrl = s.ctrl := rfl
@[simp] theorem State.setSo_time (x : Sorting) : (s.setSo x).time = s.time := rfl
@[simp] theorem State.setSo_dict (x : Sorting) : (s.setSo x).dict = s.dict := rfl
@[simp] theorem State.setSo_encl (x : Sorting) : (s.setSo x).encl = s.encl := rfl
@[simp] theorem State.setSo_pwr (x : Sorting) : (s.setSo x).pwr = s.pwr := rfl
@[simp] theorem State.setSo_tap (x : Sorting) : (s.setSo x).tap = s.tap := rfl
@[simp] theorem State.setSo_fresh (x : Sorting) : (s.setSo x).fresh = s.fresh := rfl
@[simp] theorem State.setSo_outbox (x : Sorting) : (s.setSo x).outbox = s.outbox := rfl
@[simp] theorem State.setSo_pending (x : Sorting) : (s.setSo x).pending = s.pending := rfl

@[simp] theorem State.modSrc_lanes (n : Nat) (f : SrcState → SrcState) : (s.modSrc n f).lanes = s.lanes := rfl
@[simp] theorem State.modSrc_filt (n : Nat) (f : SrcState → SrcState) : (s.modSrc n f).filt = s.filt := rfl
@[simp] theorem State.modSrc_relay (n : Nat) (f : SrcState → SrcState) : (s.modSrc n f).relay = s.relay := rfl
@[simp] theorem State.modSrc_fab (n : Nat) (f : SrcState → SrcState) : (s.modSrc n f).fab = s.fab := rfl
@[simp] theorem State.modSrc_acc (n : Nat) (f : SrcState → SrcState) : (s.modSrc n f).acc = s.acc := rfl
@[simp] theorem State.modSrc_mm (n : Nat) (f : SrcState → SrcState) : (s.modSrc n f).mm = s.mm := rfl
@[simp] theorem State.modSrc_out (n : Nat) (f : SrcState → SrcState) : (s.modSrc n f).out = s.out := rfl
@[simp] theorem State.modSrc_cour (n : Nat) (f : SrcState → SrcState) : (s.modSrc n f).cour = s.cour := rfl
@[simp] theorem State.modSrc_tally (n : Nat) (f : SrcState → SrcState) : (s.modSrc n f).tally = s.tally := rfl
@[simp] theorem State.modSrc_ctrl (n : Nat) (f : SrcState → SrcState) : (s.modSrc n f).ctrl = s.ctrl := rfl
@[simp] theorem State.modSrc_time (n : Nat) (f : SrcState → SrcState) : (s.modSrc n f).time = s.time := rfl
@[simp] theorem State.modSrc_dict (n : Nat) (f : SrcState → SrcState) : (s.modSrc n f).dict = s.dict := rfl
@[simp] theorem State.modSrc_encl (n : Nat) (f : SrcState → SrcState) : (s.modSrc n f).encl = s.encl := rfl
@[simp] theorem State.modSrc_pwr (n : Nat) (f : SrcState → SrcState) : (s.modSrc n f).pwr = s.pwr := rfl
@[simp] theorem State.modSrc_tap (n : Nat) (f : SrcState → SrcState) : (s.modSrc n f).tap = s.tap := rfl
@[simp] theorem State.modSrc_fresh (n : Nat) (f : SrcState → SrcState) : (s.modSrc n f).fresh = s.fresh := rfl
@[simp] theorem State.modSrc_outbox (n : Nat) (f : SrcState → SrcState) : (s.modSrc n f).outbox = s.outbox := rfl
@[simp] theorem State.modSrc_pending (n : Nat) (f : SrcState → SrcState) : (s.modSrc n f).pending = s.pending := rfl

@[simp] theorem State.setLane_so (l : Nat) (v : Lane) : (s.setLane l v).so = s.so := rfl
@[simp] theorem State.setLane_filt (l : Nat) (v : Lane) : (s.setLane l v).filt = s.filt := rfl
@[simp] theorem State.setLane_relay (l : Nat) (v : Lane) : (s.setLane l v).relay = s.relay := rfl
@[simp] theorem State.setLane_fab (l : Nat) (v : Lane) : (s.setLane l v).fab = s.fab := rfl
@[simp] theorem State.setLane_acc (l : Nat) (v : Lane) : (s.setLane l v).acc = s.acc := rfl
@[simp] theorem State.setLane_mm (l : Nat) (v : Lane) : (s.setLane l v).mm = s.mm := rfl
@[simp] theorem State.setLane_out (l : Nat) (v : Lane) : (s.setLane l v).out = s.out := rfl
@[simp] theorem State.setLane_cour (l : Nat) (v : Lane) : (s.setLane l v).cour = s.cour := rfl
@[simp] theorem State.setLane_tally (l : Nat) (v : Lane) : (s.setLane l v).tally = s.tally := rfl
@[simp] theorem State.setLane_ctrl (l : Nat) (v : Lane) : (s.setLane l v).ctrl = s.ctrl := rfl
@[simp] theorem State.setLane_time (l : Nat) (v : Lane) : (s.setLane l v).time = s.time := rfl
@[simp] theorem State.setLane_dict (l : Nat) (v : Lane) : (s.setLane l v).dict = s.dict := rfl
@[simp] theorem State.setLane_encl (l : Nat) (v : Lane) : (s.setLane l v).encl = s.encl := rfl
@[simp] theorem State.setLane_pwr (l : Nat) (v : Lane) : (s.setLane l v).pwr = s.pwr := rfl
@[simp] theorem State.setLane_tap (l : Nat) (v : Lane) : (s.setLane l v).tap = s.tap := rfl
@[simp] theorem State.setLane_fresh (l : Nat) (v : Lane) : (s.setLane l v).fresh = s.fresh := rfl
@[simp] theorem State.setLane_outbox (l : Nat) (v : Lane) : (s.setLane l v).outbox = s.outbox := rfl
@[simp] theorem State.setLane_pending (l : Nat) (v : Lane) : (s.setLane l v).pending = s.pending := rfl

@[simp] theorem State.modLane_so (l : Nat) (f : Lane → Lane) : (s.modLane l f).so = s.so := rfl
@[simp] theorem State.modLane_filt (l : Nat) (f : Lane → Lane) : (s.modLane l f).filt = s.filt := rfl
@[simp] theorem State.modLane_relay (l : Nat) (f : Lane → Lane) : (s.modLane l f).relay = s.relay := rfl
@[simp] theorem State.modLane_fab (l : Nat) (f : Lane → Lane) : (s.modLane l f).fab = s.fab := rfl
@[simp] theorem State.modLane_acc (l : Nat) (f : Lane → Lane) : (s.modLane l f).acc = s.acc := rfl
@[simp] theorem State.modLane_mm (l : Nat) (f : Lane → Lane) : (s.modLane l f).mm = s.mm := rfl
@[simp] theorem State.modLane_out (l : Nat) (f : Lane → Lane) : (s.modLane l f).out = s.out := rfl
@[simp] theorem State.modLane_cour (l : Nat) (f : Lane → Lane) : (s.modLane l f).cour = s.cour := rfl
@[simp] theorem State.modLane_tally (l : Nat) (f : Lane → Lane) : (s.modLane l f).tally = s.tally := rfl
@[simp] theorem State.modLane_ctrl (l : Nat) (f : Lane → Lane) : (s.modLane l f).ctrl = s.ctrl := rfl
@[simp] theorem State.modLane_time (l : Nat) (f : Lane → Lane) : (s.modLane l f).time = s.time := rfl
@[simp] theorem State.modLane_dict (l : Nat) (f : Lane → Lane) : (s.modLane l f).dict = s.dict := rfl
@[simp] theorem State.modLane_encl (l : Nat) (f : Lane → Lane) : (s.modLane l f).encl = s.encl := rfl
@[simp] theorem State.modLane_pwr (l : Nat) (f : Lane → Lane) : (s.modLane l f).pwr = s.pwr := rfl
@[simp] theorem State.modLane_tap (l : Nat) (f : Lane → Lane) : (s.modLane l f).tap = s.tap := rfl
@[simp] theorem State.modLane_fresh (l : Nat) (f : Lane → Lane) : (s.modLane l f).fresh = s.fresh := rfl
@[simp] theorem State.modLane_outbox (l : Nat) (f : Lane → Lane) : (s.modLane l f).outbox = s.outbox := rfl
@[simp] theorem State.modLane_pending (l : Nat) (f : Lane → Lane) : (s.modLane l f).pending = s.pending := rfl

@[simp] theorem State.modLogical_so (l : Nat) (f : LogLane → LogLane) : (s.modLogical l f).so = s.so := rfl
@[simp] theorem State.modLogical_filt (l : Nat) (f : LogLane → LogLane) : (s.modLogical l f).filt = s.filt := rfl
@[simp] theorem State.modLogical_relay (l : Nat) (f : LogLane → LogLane) : (s.modLogical l f).relay = s.relay := rfl
@[simp] theorem State.modLogical_fab (l : Nat) (f : LogLane → LogLane) : (s.modLogical l f).fab = s.fab := rfl
@[simp] theorem State.modLogical_acc (l : Nat) (f : LogLane → LogLane) : (s.modLogical l f).acc = s.acc := rfl
@[simp] theorem State.modLogical_mm (l : Nat) (f : LogLane → LogLane) : (s.modLogical l f).mm = s.mm := rfl
@[simp] theorem State.modLogical_out (l : Nat) (f : LogLane → LogLane) : (s.modLogical l f).out = s.out := rfl
@[simp] theorem State.modLogical_cour (l : Nat) (f : LogLane → LogLane) : (s.modLogical l f).cour = s.cour := rfl
@[simp] theorem State.modLogical_tally (l : Nat) (f : LogLane → LogLane) : (s.modLogical l f).tally = s.tally := rfl
@[simp] theorem State.modLogical_ctrl (l : Nat) (f : LogLane → LogLane) : (s.modLogical l f).ctrl = s.ctrl := rfl
@[simp] theorem State.modLogical_time (l : Nat) (f : LogLane → LogLane) : (s.modLogical l f).time = s.time := rfl
@[simp] theorem State.modLogical_dict (l : Nat) (f : LogLane → LogLane) : (s.modLogical l f).dict = s.dict := rfl
@[simp] theorem State.modLogical_encl (l : Nat) (f : LogLane → LogLane) : (s.modLogical l f).encl = s.encl := rfl
@[simp] theorem State.modLogical_pwr (l : Nat) (f : LogLane → LogLane) : (s.modLogical l f).pwr = s.pwr := rfl
@[simp] theorem State.modLogical_tap (l : Nat) (f : LogLane → LogLane) : (s.modLogical l f).tap = s.tap := rfl
@[simp] theorem State.modLogical_fresh (l : Nat) (f : LogLane → LogLane) : (s.modLogical l f).fresh = s.fresh := rfl
@[simp] theorem State.modLogical_outbox (l : Nat) (f : LogLane → LogLane) : (s.modLogical l f).outbox = s.outbox := rfl
@[simp] theorem State.modLogical_pending (l : Nat) (f : LogLane → LogLane) : (s.modLogical l f).pending = s.pending := rfl

@[simp] theorem State.setIngest_so (i : Nat) (q : List Chunk) : (s.setIngest i q).so = s.so := rfl
@[simp] theorem State.setIngest_filt (i : Nat) (q : List Chunk) : (s.setIngest i q).filt = s.filt := rfl
@[simp] theorem State.setIngest_relay (i : Nat) (q : List Chunk) : (s.setIngest i q).relay = s.relay := rfl
@[simp] theorem State.setIngest_fab (i : Nat) (q : List Chunk) : (s.setIngest i q).fab = s.fab := rfl
@[simp] theorem State.setIngest_acc (i : Nat) (q : List Chunk) : (s.setIngest i q).acc = s.acc := rfl
@[simp] theorem State.setIngest_mm (i : Nat) (q : List Chunk) : (s.setIngest i q).mm = s.mm := rfl
@[simp] theorem State.setIngest_out (i : Nat) (q : List Chunk) : (s.setIngest i q).out = s.out := rfl
@[simp] theorem State.setIngest_cour (i : Nat) (q : List Chunk) : (s.setIngest i q).cour = s.cour := rfl
@[simp] theorem State.setIngest_tally (i : Nat) (q : List Chunk) : (s.setIngest i q).tally = s.tally := rfl
@[simp] theorem State.setIngest_ctrl (i : Nat) (q : List Chunk) : (s.setIngest i q).ctrl = s.ctrl := rfl
@[simp] theorem State.setIngest_time (i : Nat) (q : List Chunk) : (s.setIngest i q).time = s.time := rfl
@[simp] theorem State.setIngest_dict (i : Nat) (q : List Chunk) : (s.setIngest i q).dict = s.dict := rfl
@[simp] theorem State.setIngest_encl (i : Nat) (q : List Chunk) : (s.setIngest i q).encl = s.encl := rfl
@[simp] theorem State.setIngest_pwr (i : Nat) (q : List Chunk) : (s.setIngest i q).pwr = s.pwr := rfl
@[simp] theorem State.setIngest_tap (i : Nat) (q : List Chunk) : (s.setIngest i q).tap = s.tap := rfl
@[simp] theorem State.setIngest_fresh (i : Nat) (q : List Chunk) : (s.setIngest i q).fresh = s.fresh := rfl
@[simp] theorem State.setIngest_outbox (i : Nat) (q : List Chunk) : (s.setIngest i q).outbox = s.outbox := rfl
@[simp] theorem State.setIngest_pending (i : Nat) (q : List Chunk) : (s.setIngest i q).pending = s.pending := rfl

@[simp] theorem State.setCond_so (i : Nat) (v : Cond) : (s.setCond i v).so = s.so := rfl
@[simp] theorem State.setCond_lanes (i : Nat) (v : Cond) : (s.setCond i v).lanes = s.lanes := rfl
@[simp] theorem State.setCond_relay (i : Nat) (v : Cond) : (s.setCond i v).relay = s.relay := rfl
@[simp] theorem State.setCond_fab (i : Nat) (v : Cond) : (s.setCond i v).fab = s.fab := rfl
@[simp] theorem State.setCond_acc (i : Nat) (v : Cond) : (s.setCond i v).acc = s.acc := rfl
@[simp] theorem State.setCond_mm (i : Nat) (v : Cond) : (s.setCond i v).mm = s.mm := rfl
@[simp] theorem State.setCond_out (i : Nat) (v : Cond) : (s.setCond i v).out = s.out := rfl
@[simp] theorem State.setCond_cour (i : Nat) (v : Cond) : (s.setCond i v).cour = s.cour := rfl
@[simp] theorem State.setCond_tally (i : Nat) (v : Cond) : (s.setCond i v).tally = s.tally := rfl
@[simp] theorem State.setCond_ctrl (i : Nat) (v : Cond) : (s.setCond i v).ctrl = s.ctrl := rfl
@[simp] theorem State.setCond_time (i : Nat) (v : Cond) : (s.setCond i v).time = s.time := rfl
@[simp] theorem State.setCond_dict (i : Nat) (v : Cond) : (s.setCond i v).dict = s.dict := rfl
@[simp] theorem State.setCond_encl (i : Nat) (v : Cond) : (s.setCond i v).encl = s.encl := rfl
@[simp] theorem State.setCond_pwr (i : Nat) (v : Cond) : (s.setCond i v).pwr = s.pwr := rfl
@[simp] theorem State.setCond_tap (i : Nat) (v : Cond) : (s.setCond i v).tap = s.tap := rfl
@[simp] theorem State.setCond_fresh (i : Nat) (v : Cond) : (s.setCond i v).fresh = s.fresh := rfl
@[simp] theorem State.setCond_outbox (i : Nat) (v : Cond) : (s.setCond i v).outbox = s.outbox := rfl
@[simp] theorem State.setCond_pending (i : Nat) (v : Cond) : (s.setCond i v).pending = s.pending := rfl

@[simp] theorem State.setEng_so (e : Nat) (v : Engine) : (s.setEng e v).so = s.so := rfl
@[simp] theorem State.setEng_lanes (e : Nat) (v : Engine) : (s.setEng e v).lanes = s.lanes := rfl
@[simp] theorem State.setEng_relay (e : Nat) (v : Engine) : (s.setEng e v).relay = s.relay := rfl
@[simp] theorem State.setEng_fab (e : Nat) (v : Engine) : (s.setEng e v).fab = s.fab := rfl
@[simp] theorem State.setEng_acc (e : Nat) (v : Engine) : (s.setEng e v).acc = s.acc := rfl
@[simp] theorem State.setEng_mm (e : Nat) (v : Engine) : (s.setEng e v).mm = s.mm := rfl
@[simp] theorem State.setEng_out (e : Nat) (v : Engine) : (s.setEng e v).out = s.out := rfl
@[simp] theorem State.setEng_cour (e : Nat) (v : Engine) : (s.setEng e v).cour = s.cour := rfl
@[simp] theorem State.setEng_tally (e : Nat) (v : Engine) : (s.setEng e v).tally = s.tally := rfl
@[simp] theorem State.setEng_ctrl (e : Nat) (v : Engine) : (s.setEng e v).ctrl = s.ctrl := rfl
@[simp] theorem State.setEng_time (e : Nat) (v : Engine) : (s.setEng e v).time = s.time := rfl
@[simp] theorem State.setEng_dict (e : Nat) (v : Engine) : (s.setEng e v).dict = s.dict := rfl
@[simp] theorem State.setEng_encl (e : Nat) (v : Engine) : (s.setEng e v).encl = s.encl := rfl
@[simp] theorem State.setEng_pwr (e : Nat) (v : Engine) : (s.setEng e v).pwr = s.pwr := rfl
@[simp] theorem State.setEng_tap (e : Nat) (v : Engine) : (s.setEng e v).tap = s.tap := rfl
@[simp] theorem State.setEng_fresh (e : Nat) (v : Engine) : (s.setEng e v).fresh = s.fresh := rfl
@[simp] theorem State.setEng_outbox (e : Nat) (v : Engine) : (s.setEng e v).outbox = s.outbox := rfl
@[simp] theorem State.setEng_pending (e : Nat) (v : Engine) : (s.setEng e v).pending = s.pending := rfl

@[simp] theorem State.setGain_so (i : Nat) (v : GainSt) : (s.setGain i v).so = s.so := rfl
@[simp] theorem State.setGain_lanes (i : Nat) (v : GainSt) : (s.setGain i v).lanes = s.lanes := rfl
@[simp] theorem State.setGain_relay (i : Nat) (v : GainSt) : (s.setGain i v).relay = s.relay := rfl
@[simp] theorem State.setGain_fab (i : Nat) (v : GainSt) : (s.setGain i v).fab = s.fab := rfl
@[simp] theorem State.setGain_acc (i : Nat) (v : GainSt) : (s.setGain i v).acc = s.acc := rfl
@[simp] theorem State.setGain_mm (i : Nat) (v : GainSt) : (s.setGain i v).mm = s.mm := rfl
@[simp] theorem State.setGain_out (i : Nat) (v : GainSt) : (s.setGain i v).out = s.out := rfl
@[simp] theorem State.setGain_cour (i : Nat) (v : GainSt) : (s.setGain i v).cour = s.cour := rfl
@[simp] theorem State.setGain_tally (i : Nat) (v : GainSt) : (s.setGain i v).tally = s.tally := rfl
@[simp] theorem State.setGain_ctrl (i : Nat) (v : GainSt) : (s.setGain i v).ctrl = s.ctrl := rfl
@[simp] theorem State.setGain_time (i : Nat) (v : GainSt) : (s.setGain i v).time = s.time := rfl
@[simp] theorem State.setGain_dict (i : Nat) (v : GainSt) : (s.setGain i v).dict = s.dict := rfl
@[simp] theorem State.setGain_encl (i : Nat) (v : GainSt) : (s.setGain i v).encl = s.encl := rfl
@[simp] theorem State.setGain_pwr (i : Nat) (v : GainSt) : (s.setGain i v).pwr = s.pwr := rfl
@[simp] theorem State.setGain_tap (i : Nat) (v : GainSt) : (s.setGain i v).tap = s.tap := rfl
@[simp] theorem State.setGain_fresh (i : Nat) (v : GainSt) : (s.setGain i v).fresh = s.fresh := rfl
@[simp] theorem State.setGain_outbox (i : Nat) (v : GainSt) : (s.setGain i v).outbox = s.outbox := rfl
@[simp] theorem State.setGain_pending (i : Nat) (v : GainSt) : (s.setGain i v).pending = s.pending := rfl

@[simp] theorem State.setRelay_so (r : Relay) : (s.setRelay r).so = s.so := rfl
@[simp] theorem State.setRelay_lanes (r : Relay) : (s.setRelay r).lanes = s.lanes := rfl
@[simp] theorem State.setRelay_filt (r : Relay) : (s.setRelay r).filt = s.filt := rfl
@[simp] theorem State.setRelay_relay (r : Relay) : (s.setRelay r).relay = r := rfl
@[simp] theorem State.setRelay_fab (r : Relay) : (s.setRelay r).fab = s.fab := rfl
@[simp] theorem State.setRelay_acc (r : Relay) : (s.setRelay r).acc = s.acc := rfl
@[simp] theorem State.setRelay_mm (r : Relay) : (s.setRelay r).mm = s.mm := rfl
@[simp] theorem State.setRelay_out (r : Relay) : (s.setRelay r).out = s.out := rfl
@[simp] theorem State.setRelay_cour (r : Relay) : (s.setRelay r).cour = s.cour := rfl
@[simp] theorem State.setRelay_tally (r : Relay) : (s.setRelay r).tally = s.tally := rfl
@[simp] theorem State.setRelay_ctrl (r : Relay) : (s.setRelay r).ctrl = s.ctrl := rfl
@[simp] theorem State.setRelay_time (r : Relay) : (s.setRelay r).time = s.time := rfl
@[simp] theorem State.setRelay_dict (r : Relay) : (s.setRelay r).dict = s.dict := rfl
@[simp] theorem State.setRelay_encl (r : Relay) : (s.setRelay r).encl = s.encl := rfl
@[simp] theorem State.setRelay_pwr (r : Relay) : (s.setRelay r).pwr = s.pwr := rfl
@[simp] theorem State.setRelay_tap (r : Relay) : (s.setRelay r).tap = s.tap := rfl
@[simp] theorem State.setRelay_fresh (r : Relay) : (s.setRelay r).fresh = s.fresh := rfl
@[simp] theorem State.setRelay_outbox (r : Relay) : (s.setRelay r).outbox = s.outbox := rfl
@[simp] theorem State.setRelay_pending (r : Relay) : (s.setRelay r).pending = s.pending := rfl

@[simp] theorem State.setPort_so (p : Nat) (v : Port) : (s.setPort p v).so = s.so := rfl
@[simp] theorem State.setPort_lanes (p : Nat) (v : Port) : (s.setPort p v).lanes = s.lanes := rfl
@[simp] theorem State.setPort_filt (p : Nat) (v : Port) : (s.setPort p v).filt = s.filt := rfl
@[simp] theorem State.setPort_fab (p : Nat) (v : Port) : (s.setPort p v).fab = s.fab := rfl
@[simp] theorem State.setPort_acc (p : Nat) (v : Port) : (s.setPort p v).acc = s.acc := rfl
@[simp] theorem State.setPort_mm (p : Nat) (v : Port) : (s.setPort p v).mm = s.mm := rfl
@[simp] theorem State.setPort_out (p : Nat) (v : Port) : (s.setPort p v).out = s.out := rfl
@[simp] theorem State.setPort_cour (p : Nat) (v : Port) : (s.setPort p v).cour = s.cour := rfl
@[simp] theorem State.setPort_tally (p : Nat) (v : Port) : (s.setPort p v).tally = s.tally := rfl
@[simp] theorem State.setPort_ctrl (p : Nat) (v : Port) : (s.setPort p v).ctrl = s.ctrl := rfl
@[simp] theorem State.setPort_time (p : Nat) (v : Port) : (s.setPort p v).time = s.time := rfl
@[simp] theorem State.setPort_dict (p : Nat) (v : Port) : (s.setPort p v).dict = s.dict := rfl
@[simp] theorem State.setPort_encl (p : Nat) (v : Port) : (s.setPort p v).encl = s.encl := rfl
@[simp] theorem State.setPort_pwr (p : Nat) (v : Port) : (s.setPort p v).pwr = s.pwr := rfl
@[simp] theorem State.setPort_tap (p : Nat) (v : Port) : (s.setPort p v).tap = s.tap := rfl
@[simp] theorem State.setPort_fresh (p : Nat) (v : Port) : (s.setPort p v).fresh = s.fresh := rfl
@[simp] theorem State.setPort_outbox (p : Nat) (v : Port) : (s.setPort p v).outbox = s.outbox := rfl
@[simp] theorem State.setPort_pending (p : Nat) (v : Port) : (s.setPort p v).pending = s.pending := rfl

@[simp] theorem State.setCrd_so (p l : Nat) (v : Cred) : (s.setCrd p l v).so = s.so := rfl
@[simp] theorem State.setCrd_lanes (p l : Nat) (v : Cred) : (s.setCrd p l v).lanes = s.lanes := rfl
@[simp] theorem State.setCrd_filt (p l : Nat) (v : Cred) : (s.setCrd p l v).filt = s.filt := rfl
@[simp] theorem State.setCrd_fab (p l : Nat) (v : Cred) : (s.setCrd p l v).fab = s.fab := rfl
@[simp] theorem State.setCrd_acc (p l : Nat) (v : Cred) : (s.setCrd p l v).acc = s.acc := rfl
@[simp] theorem State.setCrd_mm (p l : Nat) (v : Cred) : (s.setCrd p l v).mm = s.mm := rfl
@[simp] theorem State.setCrd_out (p l : Nat) (v : Cred) : (s.setCrd p l v).out = s.out := rfl
@[simp] theorem State.setCrd_cour (p l : Nat) (v : Cred) : (s.setCrd p l v).cour = s.cour := rfl
@[simp] theorem State.setCrd_tally (p l : Nat) (v : Cred) : (s.setCrd p l v).tally = s.tally := rfl
@[simp] theorem State.setCrd_ctrl (p l : Nat) (v : Cred) : (s.setCrd p l v).ctrl = s.ctrl := rfl
@[simp] theorem State.setCrd_time (p l : Nat) (v : Cred) : (s.setCrd p l v).time = s.time := rfl
@[simp] theorem State.setCrd_dict (p l : Nat) (v : Cred) : (s.setCrd p l v).dict = s.dict := rfl
@[simp] theorem State.setCrd_encl (p l : Nat) (v : Cred) : (s.setCrd p l v).encl = s.encl := rfl
@[simp] theorem State.setCrd_pwr (p l : Nat) (v : Cred) : (s.setCrd p l v).pwr = s.pwr := rfl
@[simp] theorem State.setCrd_tap (p l : Nat) (v : Cred) : (s.setCrd p l v).tap = s.tap := rfl
@[simp] theorem State.setCrd_fresh (p l : Nat) (v : Cred) : (s.setCrd p l v).fresh = s.fresh := rfl
@[simp] theorem State.setCrd_outbox (p l : Nat) (v : Cred) : (s.setCrd p l v).outbox = s.outbox := rfl
@[simp] theorem State.setCrd_pending (p l : Nat) (v : Cred) : (s.setCrd p l v).pending = s.pending := rfl

@[simp] theorem State.setFab_so (f : Fab) : (s.setFab f).so = s.so := rfl
@[simp] theorem State.setFab_lanes (f : Fab) : (s.setFab f).lanes = s.lanes := rfl
@[simp] theorem State.setFab_filt (f : Fab) : (s.setFab f).filt = s.filt := rfl
@[simp] theorem State.setFab_relay (f : Fab) : (s.setFab f).relay = s.relay := rfl
@[simp] theorem State.setFab_fab (f : Fab) : (s.setFab f).fab = f := rfl
@[simp] theorem State.setFab_acc (f : Fab) : (s.setFab f).acc = s.acc := rfl
@[simp] theorem State.setFab_mm (f : Fab) : (s.setFab f).mm = s.mm := rfl
@[simp] theorem State.setFab_out (f : Fab) : (s.setFab f).out = s.out := rfl
@[simp] theorem State.setFab_cour (f : Fab) : (s.setFab f).cour = s.cour := rfl
@[simp] theorem State.setFab_tally (f : Fab) : (s.setFab f).tally = s.tally := rfl
@[simp] theorem State.setFab_ctrl (f : Fab) : (s.setFab f).ctrl = s.ctrl := rfl
@[simp] theorem State.setFab_time (f : Fab) : (s.setFab f).time = s.time := rfl
@[simp] theorem State.setFab_dict (f : Fab) : (s.setFab f).dict = s.dict := rfl
@[simp] theorem State.setFab_encl (f : Fab) : (s.setFab f).encl = s.encl := rfl
@[simp] theorem State.setFab_pwr (f : Fab) : (s.setFab f).pwr = s.pwr := rfl
@[simp] theorem State.setFab_tap (f : Fab) : (s.setFab f).tap = s.tap := rfl
@[simp] theorem State.setFab_fresh (f : Fab) : (s.setFab f).fresh = s.fresh := rfl
@[simp] theorem State.setFab_outbox (f : Fab) : (s.setFab f).outbox = s.outbox := rfl
@[simp] theorem State.setFab_pending (f : Fab) : (s.setFab f).pending = s.pending := rfl

@[simp] theorem State.setCl_so (k : Nat) (v : Cluster) : (s.setCl k v).so = s.so := rfl
@[simp] theorem State.setCl_lanes (k : Nat) (v : Cluster) : (s.setCl k v).lanes = s.lanes := rfl
@[simp] theorem State.setCl_filt (k : Nat) (v : Cluster) : (s.setCl k v).filt = s.filt := rfl
@[simp] theorem State.setCl_relay (k : Nat) (v : Cluster) : (s.setCl k v).relay = s.relay := rfl
@[simp] theorem State.setCl_acc (k : Nat) (v : Cluster) : (s.setCl k v).acc = s.acc := rfl
@[simp] theorem State.setCl_mm (k : Nat) (v : Cluster) : (s.setCl k v).mm = s.mm := rfl
@[simp] theorem State.setCl_out (k : Nat) (v : Cluster) : (s.setCl k v).out = s.out := rfl
@[simp] theorem State.setCl_cour (k : Nat) (v : Cluster) : (s.setCl k v).cour = s.cour := rfl
@[simp] theorem State.setCl_tally (k : Nat) (v : Cluster) : (s.setCl k v).tally = s.tally := rfl
@[simp] theorem State.setCl_ctrl (k : Nat) (v : Cluster) : (s.setCl k v).ctrl = s.ctrl := rfl
@[simp] theorem State.setCl_time (k : Nat) (v : Cluster) : (s.setCl k v).time = s.time := rfl
@[simp] theorem State.setCl_dict (k : Nat) (v : Cluster) : (s.setCl k v).dict = s.dict := rfl
@[simp] theorem State.setCl_encl (k : Nat) (v : Cluster) : (s.setCl k v).encl = s.encl := rfl
@[simp] theorem State.setCl_pwr (k : Nat) (v : Cluster) : (s.setCl k v).pwr = s.pwr := rfl
@[simp] theorem State.setCl_tap (k : Nat) (v : Cluster) : (s.setCl k v).tap = s.tap := rfl
@[simp] theorem State.setCl_fresh (k : Nat) (v : Cluster) : (s.setCl k v).fresh = s.fresh := rfl
@[simp] theorem State.setCl_outbox (k : Nat) (v : Cluster) : (s.setCl k v).outbox = s.outbox := rfl
@[simp] theorem State.setCl_pending (k : Nat) (v : Cluster) : (s.setCl k v).pending = s.pending := rfl

@[simp] theorem State.setPos_so (k p : Nat) (v : PosSt) : (s.setPos k p v).so = s.so := rfl
@[simp] theorem State.setPos_lanes (k p : Nat) (v : PosSt) : (s.setPos k p v).lanes = s.lanes := rfl
@[simp] theorem State.setPos_filt (k p : Nat) (v : PosSt) : (s.setPos k p v).filt = s.filt := rfl
@[simp] theorem State.setPos_relay (k p : Nat) (v : PosSt) : (s.setPos k p v).relay = s.relay := rfl
@[simp] theorem State.setPos_acc (k p : Nat) (v : PosSt) : (s.setPos k p v).acc = s.acc := rfl
@[simp] theorem State.setPos_mm (k p : Nat) (v : PosSt) : (s.setPos k p v).mm = s.mm := rfl
@[simp] theorem State.setPos_out (k p : Nat) (v : PosSt) : (s.setPos k p v).out = s.out := rfl
@[simp] theorem State.setPos_cour (k p : Nat) (v : PosSt) : (s.setPos k p v).cour = s.cour := rfl
@[simp] theorem State.setPos_tally (k p : Nat) (v : PosSt) : (s.setPos k p v).tally = s.tally := rfl
@[simp] theorem State.setPos_ctrl (k p : Nat) (v : PosSt) : (s.setPos k p v).ctrl = s.ctrl := rfl
@[simp] theorem State.setPos_time (k p : Nat) (v : PosSt) : (s.setPos k p v).time = s.time := rfl
@[simp] theorem State.setPos_dict (k p : Nat) (v : PosSt) : (s.setPos k p v).dict = s.dict := rfl
@[simp] theorem State.setPos_encl (k p : Nat) (v : PosSt) : (s.setPos k p v).encl = s.encl := rfl
@[simp] theorem State.setPos_pwr (k p : Nat) (v : PosSt) : (s.setPos k p v).pwr = s.pwr := rfl
@[simp] theorem State.setPos_tap (k p : Nat) (v : PosSt) : (s.setPos k p v).tap = s.tap := rfl
@[simp] theorem State.setPos_fresh (k p : Nat) (v : PosSt) : (s.setPos k p v).fresh = s.fresh := rfl
@[simp] theorem State.setPos_outbox (k p : Nat) (v : PosSt) : (s.setPos k p v).outbox = s.outbox := rfl
@[simp] theorem State.setPos_pending (k p : Nat) (v : PosSt) : (s.setPos k p v).pending = s.pending := rfl

@[simp] theorem State.setW_so (w : Weights) : (s.setW w).so = s.so := rfl
@[simp] theorem State.setW_lanes (w : Weights) : (s.setW w).lanes = s.lanes := rfl
@[simp] theorem State.setW_filt (w : Weights) : (s.setW w).filt = s.filt := rfl
@[simp] theorem State.setW_relay (w : Weights) : (s.setW w).relay = s.relay := rfl
@[simp] theorem State.setW_acc (w : Weights) : (s.setW w).acc = s.acc := rfl
@[simp] theorem State.setW_mm (w : Weights) : (s.setW w).mm = s.mm := rfl
@[simp] theorem State.setW_out (w : Weights) : (s.setW w).out = s.out := rfl
@[simp] theorem State.setW_cour (w : Weights) : (s.setW w).cour = s.cour := rfl
@[simp] theorem State.setW_tally (w : Weights) : (s.setW w).tally = s.tally := rfl
@[simp] theorem State.setW_ctrl (w : Weights) : (s.setW w).ctrl = s.ctrl := rfl
@[simp] theorem State.setW_time (w : Weights) : (s.setW w).time = s.time := rfl
@[simp] theorem State.setW_dict (w : Weights) : (s.setW w).dict = s.dict := rfl
@[simp] theorem State.setW_encl (w : Weights) : (s.setW w).encl = s.encl := rfl
@[simp] theorem State.setW_pwr (w : Weights) : (s.setW w).pwr = s.pwr := rfl
@[simp] theorem State.setW_tap (w : Weights) : (s.setW w).tap = s.tap := rfl
@[simp] theorem State.setW_fresh (w : Weights) : (s.setW w).fresh = s.fresh := rfl
@[simp] theorem State.setW_outbox (w : Weights) : (s.setW w).outbox = s.outbox := rfl
@[simp] theorem State.setW_pending (w : Weights) : (s.setW w).pending = s.pending := rfl

@[simp] theorem State.setAcc_so (a : Acc) : (s.setAcc a).so = s.so := rfl
@[simp] theorem State.setAcc_lanes (a : Acc) : (s.setAcc a).lanes = s.lanes := rfl
@[simp] theorem State.setAcc_filt (a : Acc) : (s.setAcc a).filt = s.filt := rfl
@[simp] theorem State.setAcc_relay (a : Acc) : (s.setAcc a).relay = s.relay := rfl
@[simp] theorem State.setAcc_fab (a : Acc) : (s.setAcc a).fab = s.fab := rfl
@[simp] theorem State.setAcc_acc (a : Acc) : (s.setAcc a).acc = a := rfl
@[simp] theorem State.setAcc_mm (a : Acc) : (s.setAcc a).mm = s.mm := rfl
@[simp] theorem State.setAcc_out (a : Acc) : (s.setAcc a).out = s.out := rfl
@[simp] theorem State.setAcc_cour (a : Acc) : (s.setAcc a).cour = s.cour := rfl
@[simp] theorem State.setAcc_tally (a : Acc) : (s.setAcc a).tally = s.tally := rfl
@[simp] theorem State.setAcc_ctrl (a : Acc) : (s.setAcc a).ctrl = s.ctrl := rfl
@[simp] theorem State.setAcc_time (a : Acc) : (s.setAcc a).time = s.time := rfl
@[simp] theorem State.setAcc_dict (a : Acc) : (s.setAcc a).dict = s.dict := rfl
@[simp] theorem State.setAcc_encl (a : Acc) : (s.setAcc a).encl = s.encl := rfl
@[simp] theorem State.setAcc_pwr (a : Acc) : (s.setAcc a).pwr = s.pwr := rfl
@[simp] theorem State.setAcc_tap (a : Acc) : (s.setAcc a).tap = s.tap := rfl
@[simp] theorem State.setAcc_fresh (a : Acc) : (s.setAcc a).fresh = s.fresh := rfl
@[simp] theorem State.setAcc_outbox (a : Acc) : (s.setAcc a).outbox = s.outbox := rfl
@[simp] theorem State.setAcc_pending (a : Acc) : (s.setAcc a).pending = s.pending := rfl

@[simp] theorem State.setBook_so (c t : Nat) (b : Option Book) : (s.setBook c t b).so = s.so := rfl
@[simp] theorem State.setBook_lanes (c t : Nat) (b : Option Book) : (s.setBook c t b).lanes = s.lanes := rfl
@[simp] theorem State.setBook_filt (c t : Nat) (b : Option Book) : (s.setBook c t b).filt = s.filt := rfl
@[simp] theorem State.setBook_relay (c t : Nat) (b : Option Book) : (s.setBook c t b).relay = s.relay := rfl
@[simp] theorem State.setBook_fab (c t : Nat) (b : Option Book) : (s.setBook c t b).fab = s.fab := rfl
@[simp] theorem State.setBook_mm (c t : Nat) (b : Option Book) : (s.setBook c t b).mm = s.mm := rfl
@[simp] theorem State.setBook_out (c t : Nat) (b : Option Book) : (s.setBook c t b).out = s.out := rfl
@[simp] theorem State.setBook_cour (c t : Nat) (b : Option Book) : (s.setBook c t b).cour = s.cour := rfl
@[simp] theorem State.setBook_tally (c t : Nat) (b : Option Book) : (s.setBook c t b).tally = s.tally := rfl
@[simp] theorem State.setBook_ctrl (c t : Nat) (b : Option Book) : (s.setBook c t b).ctrl = s.ctrl := rfl
@[simp] theorem State.setBook_time (c t : Nat) (b : Option Book) : (s.setBook c t b).time = s.time := rfl
@[simp] theorem State.setBook_dict (c t : Nat) (b : Option Book) : (s.setBook c t b).dict = s.dict := rfl
@[simp] theorem State.setBook_encl (c t : Nat) (b : Option Book) : (s.setBook c t b).encl = s.encl := rfl
@[simp] theorem State.setBook_pwr (c t : Nat) (b : Option Book) : (s.setBook c t b).pwr = s.pwr := rfl
@[simp] theorem State.setBook_tap (c t : Nat) (b : Option Book) : (s.setBook c t b).tap = s.tap := rfl
@[simp] theorem State.setBook_fresh (c t : Nat) (b : Option Book) : (s.setBook c t b).fresh = s.fresh := rfl
@[simp] theorem State.setBook_outbox (c t : Nat) (b : Option Book) : (s.setBook c t b).outbox = s.outbox := rfl
@[simp] theorem State.setBook_pending (c t : Nat) (b : Option Book) : (s.setBook c t b).pending = s.pending := rfl

@[simp] theorem State.setMem_so (m : Tab Byte) : (s.setMem m).so = s.so := rfl
@[simp] theorem State.setMem_lanes (m : Tab Byte) : (s.setMem m).lanes = s.lanes := rfl
@[simp] theorem State.setMem_filt (m : Tab Byte) : (s.setMem m).filt = s.filt := rfl
@[simp] theorem State.setMem_relay (m : Tab Byte) : (s.setMem m).relay = s.relay := rfl
@[simp] theorem State.setMem_fab (m : Tab Byte) : (s.setMem m).fab = s.fab := rfl
@[simp] theorem State.setMem_acc (m : Tab Byte) : (s.setMem m).acc = s.acc := rfl
@[simp] theorem State.setMem_out (m : Tab Byte) : (s.setMem m).out = s.out := rfl
@[simp] theorem State.setMem_cour (m : Tab Byte) : (s.setMem m).cour = s.cour := rfl
@[simp] theorem State.setMem_tally (m : Tab Byte) : (s.setMem m).tally = s.tally := rfl
@[simp] theorem State.setMem_ctrl (m : Tab Byte) : (s.setMem m).ctrl = s.ctrl := rfl
@[simp] theorem State.setMem_time (m : Tab Byte) : (s.setMem m).time = s.time := rfl
@[simp] theorem State.setMem_dict (m : Tab Byte) : (s.setMem m).dict = s.dict := rfl
@[simp] theorem State.setMem_encl (m : Tab Byte) : (s.setMem m).encl = s.encl := rfl
@[simp] theorem State.setMem_pwr (m : Tab Byte) : (s.setMem m).pwr = s.pwr := rfl
@[simp] theorem State.setMem_tap (m : Tab Byte) : (s.setMem m).tap = s.tap := rfl
@[simp] theorem State.setMem_fresh (m : Tab Byte) : (s.setMem m).fresh = s.fresh := rfl
@[simp] theorem State.setMem_outbox (m : Tab Byte) : (s.setMem m).outbox = s.outbox := rfl
@[simp] theorem State.setMem_pending (m : Tab Byte) : (s.setMem m).pending = s.pending := rfl

@[simp] theorem State.setStk_so (n : Nat) (v : Stack) : (s.setStk n v).so = s.so := rfl
@[simp] theorem State.setStk_lanes (n : Nat) (v : Stack) : (s.setStk n v).lanes = s.lanes := rfl
@[simp] theorem State.setStk_filt (n : Nat) (v : Stack) : (s.setStk n v).filt = s.filt := rfl
@[simp] theorem State.setStk_relay (n : Nat) (v : Stack) : (s.setStk n v).relay = s.relay := rfl
@[simp] theorem State.setStk_fab (n : Nat) (v : Stack) : (s.setStk n v).fab = s.fab := rfl
@[simp] theorem State.setStk_acc (n : Nat) (v : Stack) : (s.setStk n v).acc = s.acc := rfl
@[simp] theorem State.setStk_out (n : Nat) (v : Stack) : (s.setStk n v).out = s.out := rfl
@[simp] theorem State.setStk_cour (n : Nat) (v : Stack) : (s.setStk n v).cour = s.cour := rfl
@[simp] theorem State.setStk_tally (n : Nat) (v : Stack) : (s.setStk n v).tally = s.tally := rfl
@[simp] theorem State.setStk_ctrl (n : Nat) (v : Stack) : (s.setStk n v).ctrl = s.ctrl := rfl
@[simp] theorem State.setStk_time (n : Nat) (v : Stack) : (s.setStk n v).time = s.time := rfl
@[simp] theorem State.setStk_dict (n : Nat) (v : Stack) : (s.setStk n v).dict = s.dict := rfl
@[simp] theorem State.setStk_encl (n : Nat) (v : Stack) : (s.setStk n v).encl = s.encl := rfl
@[simp] theorem State.setStk_pwr (n : Nat) (v : Stack) : (s.setStk n v).pwr = s.pwr := rfl
@[simp] theorem State.setStk_tap (n : Nat) (v : Stack) : (s.setStk n v).tap = s.tap := rfl
@[simp] theorem State.setStk_fresh (n : Nat) (v : Stack) : (s.setStk n v).fresh = s.fresh := rfl
@[simp] theorem State.setStk_outbox (n : Nat) (v : Stack) : (s.setStk n v).outbox = s.outbox := rfl
@[simp] theorem State.setStk_pending (n : Nat) (v : Stack) : (s.setStk n v).pending = s.pending := rfl

@[simp] theorem State.setOut_so (o : Out) : (s.setOut o).so = s.so := rfl
@[simp] theorem State.setOut_lanes (o : Out) : (s.setOut o).lanes = s.lanes := rfl
@[simp] theorem State.setOut_filt (o : Out) : (s.setOut o).filt = s.filt := rfl
@[simp] theorem State.setOut_relay (o : Out) : (s.setOut o).relay = s.relay := rfl
@[simp] theorem State.setOut_fab (o : Out) : (s.setOut o).fab = s.fab := rfl
@[simp] theorem State.setOut_acc (o : Out) : (s.setOut o).acc = s.acc := rfl
@[simp] theorem State.setOut_mm (o : Out) : (s.setOut o).mm = s.mm := rfl
@[simp] theorem State.setOut_out (o : Out) : (s.setOut o).out = o := rfl
@[simp] theorem State.setOut_cour (o : Out) : (s.setOut o).cour = s.cour := rfl
@[simp] theorem State.setOut_tally (o : Out) : (s.setOut o).tally = s.tally := rfl
@[simp] theorem State.setOut_ctrl (o : Out) : (s.setOut o).ctrl = s.ctrl := rfl
@[simp] theorem State.setOut_time (o : Out) : (s.setOut o).time = s.time := rfl
@[simp] theorem State.setOut_dict (o : Out) : (s.setOut o).dict = s.dict := rfl
@[simp] theorem State.setOut_encl (o : Out) : (s.setOut o).encl = s.encl := rfl
@[simp] theorem State.setOut_pwr (o : Out) : (s.setOut o).pwr = s.pwr := rfl
@[simp] theorem State.setOut_tap (o : Out) : (s.setOut o).tap = s.tap := rfl
@[simp] theorem State.setOut_fresh (o : Out) : (s.setOut o).fresh = s.fresh := rfl
@[simp] theorem State.setOut_outbox (o : Out) : (s.setOut o).outbox = s.outbox := rfl
@[simp] theorem State.setOut_pending (o : Out) : (s.setOut o).pending = s.pending := rfl

@[simp] theorem State.setComp_so (k : Nat) (v : Comp) : (s.setComp k v).so = s.so := rfl
@[simp] theorem State.setComp_lanes (k : Nat) (v : Comp) : (s.setComp k v).lanes = s.lanes := rfl
@[simp] theorem State.setComp_filt (k : Nat) (v : Comp) : (s.setComp k v).filt = s.filt := rfl
@[simp] theorem State.setComp_relay (k : Nat) (v : Comp) : (s.setComp k v).relay = s.relay := rfl
@[simp] theorem State.setComp_fab (k : Nat) (v : Comp) : (s.setComp k v).fab = s.fab := rfl
@[simp] theorem State.setComp_acc (k : Nat) (v : Comp) : (s.setComp k v).acc = s.acc := rfl
@[simp] theorem State.setComp_mm (k : Nat) (v : Comp) : (s.setComp k v).mm = s.mm := rfl
@[simp] theorem State.setComp_cour (k : Nat) (v : Comp) : (s.setComp k v).cour = s.cour := rfl
@[simp] theorem State.setComp_tally (k : Nat) (v : Comp) : (s.setComp k v).tally = s.tally := rfl
@[simp] theorem State.setComp_ctrl (k : Nat) (v : Comp) : (s.setComp k v).ctrl = s.ctrl := rfl
@[simp] theorem State.setComp_time (k : Nat) (v : Comp) : (s.setComp k v).time = s.time := rfl
@[simp] theorem State.setComp_dict (k : Nat) (v : Comp) : (s.setComp k v).dict = s.dict := rfl
@[simp] theorem State.setComp_encl (k : Nat) (v : Comp) : (s.setComp k v).encl = s.encl := rfl
@[simp] theorem State.setComp_pwr (k : Nat) (v : Comp) : (s.setComp k v).pwr = s.pwr := rfl
@[simp] theorem State.setComp_tap (k : Nat) (v : Comp) : (s.setComp k v).tap = s.tap := rfl
@[simp] theorem State.setComp_fresh (k : Nat) (v : Comp) : (s.setComp k v).fresh = s.fresh := rfl
@[simp] theorem State.setComp_outbox (k : Nat) (v : Comp) : (s.setComp k v).outbox = s.outbox := rfl
@[simp] theorem State.setComp_pending (k : Nat) (v : Comp) : (s.setComp k v).pending = s.pending := rfl

@[simp] theorem State.setOlane_so (l : Nat) (v : OutLane) : (s.setOlane l v).so = s.so := rfl
@[simp] theorem State.setOlane_lanes (l : Nat) (v : OutLane) : (s.setOlane l v).lanes = s.lanes := rfl
@[simp] theorem State.setOlane_filt (l : Nat) (v : OutLane) : (s.setOlane l v).filt = s.filt := rfl
@[simp] theorem State.setOlane_relay (l : Nat) (v : OutLane) : (s.setOlane l v).relay = s.relay := rfl
@[simp] theorem State.setOlane_fab (l : Nat) (v : OutLane) : (s.setOlane l v).fab = s.fab := rfl
@[simp] theorem State.setOlane_acc (l : Nat) (v : OutLane) : (s.setOlane l v).acc = s.acc := rfl
@[simp] theorem State.setOlane_mm (l : Nat) (v : OutLane) : (s.setOlane l v).mm = s.mm := rfl
@[simp] theorem State.setOlane_cour (l : Nat) (v : OutLane) : (s.setOlane l v).cour = s.cour := rfl
@[simp] theorem State.setOlane_tally (l : Nat) (v : OutLane) : (s.setOlane l v).tally = s.tally := rfl
@[simp] theorem State.setOlane_ctrl (l : Nat) (v : OutLane) : (s.setOlane l v).ctrl = s.ctrl := rfl
@[simp] theorem State.setOlane_time (l : Nat) (v : OutLane) : (s.setOlane l v).time = s.time := rfl
@[simp] theorem State.setOlane_dict (l : Nat) (v : OutLane) : (s.setOlane l v).dict = s.dict := rfl
@[simp] theorem State.setOlane_encl (l : Nat) (v : OutLane) : (s.setOlane l v).encl = s.encl := rfl
@[simp] theorem State.setOlane_pwr (l : Nat) (v : OutLane) : (s.setOlane l v).pwr = s.pwr := rfl
@[simp] theorem State.setOlane_tap (l : Nat) (v : OutLane) : (s.setOlane l v).tap = s.tap := rfl
@[simp] theorem State.setOlane_fresh (l : Nat) (v : OutLane) : (s.setOlane l v).fresh = s.fresh := rfl
@[simp] theorem State.setOlane_outbox (l : Nat) (v : OutLane) : (s.setOlane l v).outbox = s.outbox := rfl
@[simp] theorem State.setOlane_pending (l : Nat) (v : OutLane) : (s.setOlane l v).pending = s.pending := rfl

@[simp] theorem State.setCour_so (c : Courier) : (s.setCour c).so = s.so := rfl
@[simp] theorem State.setCour_lanes (c : Courier) : (s.setCour c).lanes = s.lanes := rfl
@[simp] theorem State.setCour_filt (c : Courier) : (s.setCour c).filt = s.filt := rfl
@[simp] theorem State.setCour_relay (c : Courier) : (s.setCour c).relay = s.relay := rfl
@[simp] theorem State.setCour_fab (c : Courier) : (s.setCour c).fab = s.fab := rfl
@[simp] theorem State.setCour_acc (c : Courier) : (s.setCour c).acc = s.acc := rfl
@[simp] theorem State.setCour_mm (c : Courier) : (s.setCour c).mm = s.mm := rfl
@[simp] theorem State.setCour_out (c : Courier) : (s.setCour c).out = s.out := rfl
@[simp] theorem State.setCour_cour (c : Courier) : (s.setCour c).cour = c := rfl
@[simp] theorem State.setCour_tally (c : Courier) : (s.setCour c).tally = s.tally := rfl
@[simp] theorem State.setCour_ctrl (c : Courier) : (s.setCour c).ctrl = s.ctrl := rfl
@[simp] theorem State.setCour_time (c : Courier) : (s.setCour c).time = s.time := rfl
@[simp] theorem State.setCour_dict (c : Courier) : (s.setCour c).dict = s.dict := rfl
@[simp] theorem State.setCour_encl (c : Courier) : (s.setCour c).encl = s.encl := rfl
@[simp] theorem State.setCour_pwr (c : Courier) : (s.setCour c).pwr = s.pwr := rfl
@[simp] theorem State.setCour_tap (c : Courier) : (s.setCour c).tap = s.tap := rfl
@[simp] theorem State.setCour_fresh (c : Courier) : (s.setCour c).fresh = s.fresh := rfl
@[simp] theorem State.setCour_outbox (c : Courier) : (s.setCour c).outbox = s.outbox := rfl
@[simp] theorem State.setCour_pending (c : Courier) : (s.setCour c).pending = s.pending := rfl

@[simp] theorem State.setRing_so (r : Nat) (v : Ring) : (s.setRing r v).so = s.so := rfl
@[simp] theorem State.setRing_lanes (r : Nat) (v : Ring) : (s.setRing r v).lanes = s.lanes := rfl
@[simp] theorem State.setRing_filt (r : Nat) (v : Ring) : (s.setRing r v).filt = s.filt := rfl
@[simp] theorem State.setRing_relay (r : Nat) (v : Ring) : (s.setRing r v).relay = s.relay := rfl
@[simp] theorem State.setRing_fab (r : Nat) (v : Ring) : (s.setRing r v).fab = s.fab := rfl
@[simp] theorem State.setRing_acc (r : Nat) (v : Ring) : (s.setRing r v).acc = s.acc := rfl
@[simp] theorem State.setRing_mm (r : Nat) (v : Ring) : (s.setRing r v).mm = s.mm := rfl
@[simp] theorem State.setRing_out (r : Nat) (v : Ring) : (s.setRing r v).out = s.out := rfl
@[simp] theorem State.setRing_tally (r : Nat) (v : Ring) : (s.setRing r v).tally = s.tally := rfl
@[simp] theorem State.setRing_ctrl (r : Nat) (v : Ring) : (s.setRing r v).ctrl = s.ctrl := rfl
@[simp] theorem State.setRing_time (r : Nat) (v : Ring) : (s.setRing r v).time = s.time := rfl
@[simp] theorem State.setRing_dict (r : Nat) (v : Ring) : (s.setRing r v).dict = s.dict := rfl
@[simp] theorem State.setRing_encl (r : Nat) (v : Ring) : (s.setRing r v).encl = s.encl := rfl
@[simp] theorem State.setRing_pwr (r : Nat) (v : Ring) : (s.setRing r v).pwr = s.pwr := rfl
@[simp] theorem State.setRing_tap (r : Nat) (v : Ring) : (s.setRing r v).tap = s.tap := rfl
@[simp] theorem State.setRing_fresh (r : Nat) (v : Ring) : (s.setRing r v).fresh = s.fresh := rfl
@[simp] theorem State.setRing_outbox (r : Nat) (v : Ring) : (s.setRing r v).outbox = s.outbox := rfl
@[simp] theorem State.setRing_pending (r : Nat) (v : Ring) : (s.setRing r v).pending = s.pending := rfl

@[simp] theorem State.setCore_so (c : Nat) (v : Core) : (s.setCore c v).so = s.so := rfl
@[simp] theorem State.setCore_lanes (c : Nat) (v : Core) : (s.setCore c v).lanes = s.lanes := rfl
@[simp] theorem State.setCore_filt (c : Nat) (v : Core) : (s.setCore c v).filt = s.filt := rfl
@[simp] theorem State.setCore_relay (c : Nat) (v : Core) : (s.setCore c v).relay = s.relay := rfl
@[simp] theorem State.setCore_fab (c : Nat) (v : Core) : (s.setCore c v).fab = s.fab := rfl
@[simp] theorem State.setCore_acc (c : Nat) (v : Core) : (s.setCore c v).acc = s.acc := rfl
@[simp] theorem State.setCore_mm (c : Nat) (v : Core) : (s.setCore c v).mm = s.mm := rfl
@[simp] theorem State.setCore_out (c : Nat) (v : Core) : (s.setCore c v).out = s.out := rfl
@[simp] theorem State.setCore_cour (c : Nat) (v : Core) : (s.setCore c v).cour = s.cour := rfl
@[simp] theorem State.setCore_ctrl (c : Nat) (v : Core) : (s.setCore c v).ctrl = s.ctrl := rfl
@[simp] theorem State.setCore_time (c : Nat) (v : Core) : (s.setCore c v).time = s.time := rfl
@[simp] theorem State.setCore_dict (c : Nat) (v : Core) : (s.setCore c v).dict = s.dict := rfl
@[simp] theorem State.setCore_encl (c : Nat) (v : Core) : (s.setCore c v).encl = s.encl := rfl
@[simp] theorem State.setCore_pwr (c : Nat) (v : Core) : (s.setCore c v).pwr = s.pwr := rfl
@[simp] theorem State.setCore_tap (c : Nat) (v : Core) : (s.setCore c v).tap = s.tap := rfl
@[simp] theorem State.setCore_fresh (c : Nat) (v : Core) : (s.setCore c v).fresh = s.fresh := rfl
@[simp] theorem State.setCore_outbox (c : Nat) (v : Core) : (s.setCore c v).outbox = s.outbox := rfl
@[simp] theorem State.setCore_pending (c : Nat) (v : Core) : (s.setCore c v).pending = s.pending := rfl

@[simp] theorem State.setCtrl_so (c : Ctrl) : (s.setCtrl c).so = s.so := rfl
@[simp] theorem State.setCtrl_lanes (c : Ctrl) : (s.setCtrl c).lanes = s.lanes := rfl
@[simp] theorem State.setCtrl_filt (c : Ctrl) : (s.setCtrl c).filt = s.filt := rfl
@[simp] theorem State.setCtrl_relay (c : Ctrl) : (s.setCtrl c).relay = s.relay := rfl
@[simp] theorem State.setCtrl_fab (c : Ctrl) : (s.setCtrl c).fab = s.fab := rfl
@[simp] theorem State.setCtrl_acc (c : Ctrl) : (s.setCtrl c).acc = s.acc := rfl
@[simp] theorem State.setCtrl_mm (c : Ctrl) : (s.setCtrl c).mm = s.mm := rfl
@[simp] theorem State.setCtrl_out (c : Ctrl) : (s.setCtrl c).out = s.out := rfl
@[simp] theorem State.setCtrl_cour (c : Ctrl) : (s.setCtrl c).cour = s.cour := rfl
@[simp] theorem State.setCtrl_tally (c : Ctrl) : (s.setCtrl c).tally = s.tally := rfl
@[simp] theorem State.setCtrl_ctrl (c : Ctrl) : (s.setCtrl c).ctrl = c := rfl
@[simp] theorem State.setCtrl_time (c : Ctrl) : (s.setCtrl c).time = s.time := rfl
@[simp] theorem State.setCtrl_dict (c : Ctrl) : (s.setCtrl c).dict = s.dict := rfl
@[simp] theorem State.setCtrl_encl (c : Ctrl) : (s.setCtrl c).encl = s.encl := rfl
@[simp] theorem State.setCtrl_pwr (c : Ctrl) : (s.setCtrl c).pwr = s.pwr := rfl
@[simp] theorem State.setCtrl_tap (c : Ctrl) : (s.setCtrl c).tap = s.tap := rfl
@[simp] theorem State.setCtrl_fresh (c : Ctrl) : (s.setCtrl c).fresh = s.fresh := rfl
@[simp] theorem State.setCtrl_outbox (c : Ctrl) : (s.setCtrl c).outbox = s.outbox := rfl
@[simp] theorem State.setCtrl_pending (c : Ctrl) : (s.setCtrl c).pending = s.pending := rfl

@[simp] theorem State.setTime_so (x : Times) : (s.setTime x).so = s.so := rfl
@[simp] theorem State.setTime_lanes (x : Times) : (s.setTime x).lanes = s.lanes := rfl
@[simp] theorem State.setTime_filt (x : Times) : (s.setTime x).filt = s.filt := rfl
@[simp] theorem State.setTime_relay (x : Times) : (s.setTime x).relay = s.relay := rfl
@[simp] theorem State.setTime_fab (x : Times) : (s.setTime x).fab = s.fab := rfl
@[simp] theorem State.setTime_acc (x : Times) : (s.setTime x).acc = s.acc := rfl
@[simp] theorem State.setTime_mm (x : Times) : (s.setTime x).mm = s.mm := rfl
@[simp] theorem State.setTime_out (x : Times) : (s.setTime x).out = s.out := rfl
@[simp] theorem State.setTime_cour (x : Times) : (s.setTime x).cour = s.cour := rfl
@[simp] theorem State.setTime_tally (x : Times) : (s.setTime x).tally = s.tally := rfl
@[simp] theorem State.setTime_ctrl (x : Times) : (s.setTime x).ctrl = s.ctrl := rfl
@[simp] theorem State.setTime_time (x : Times) : (s.setTime x).time = x := rfl
@[simp] theorem State.setTime_dict (x : Times) : (s.setTime x).dict = s.dict := rfl
@[simp] theorem State.setTime_encl (x : Times) : (s.setTime x).encl = s.encl := rfl
@[simp] theorem State.setTime_pwr (x : Times) : (s.setTime x).pwr = s.pwr := rfl
@[simp] theorem State.setTime_tap (x : Times) : (s.setTime x).tap = s.tap := rfl
@[simp] theorem State.setTime_fresh (x : Times) : (s.setTime x).fresh = s.fresh := rfl
@[simp] theorem State.setTime_outbox (x : Times) : (s.setTime x).outbox = s.outbox := rfl
@[simp] theorem State.setTime_pending (x : Times) : (s.setTime x).pending = s.pending := rfl

@[simp] theorem State.setTb_so (n : Nat) (v : Tb) : (s.setTb n v).so = s.so := rfl
@[simp] theorem State.setTb_lanes (n : Nat) (v : Tb) : (s.setTb n v).lanes = s.lanes := rfl
@[simp] theorem State.setTb_filt (n : Nat) (v : Tb) : (s.setTb n v).filt = s.filt := rfl
@[simp] theorem State.setTb_relay (n : Nat) (v : Tb) : (s.setTb n v).relay = s.relay := rfl
@[simp] theorem State.setTb_fab (n : Nat) (v : Tb) : (s.setTb n v).fab = s.fab := rfl
@[simp] theorem State.setTb_acc (n : Nat) (v : Tb) : (s.setTb n v).acc = s.acc := rfl
@[simp] theorem State.setTb_mm (n : Nat) (v : Tb) : (s.setTb n v).mm = s.mm := rfl
@[simp] theorem State.setTb_out (n : Nat) (v : Tb) : (s.setTb n v).out = s.out := rfl
@[simp] theorem State.setTb_cour (n : Nat) (v : Tb) : (s.setTb n v).cour = s.cour := rfl
@[simp] theorem State.setTb_tally (n : Nat) (v : Tb) : (s.setTb n v).tally = s.tally := rfl
@[simp] theorem State.setTb_ctrl (n : Nat) (v : Tb) : (s.setTb n v).ctrl = s.ctrl := rfl
@[simp] theorem State.setTb_dict (n : Nat) (v : Tb) : (s.setTb n v).dict = s.dict := rfl
@[simp] theorem State.setTb_encl (n : Nat) (v : Tb) : (s.setTb n v).encl = s.encl := rfl
@[simp] theorem State.setTb_pwr (n : Nat) (v : Tb) : (s.setTb n v).pwr = s.pwr := rfl
@[simp] theorem State.setTb_tap (n : Nat) (v : Tb) : (s.setTb n v).tap = s.tap := rfl
@[simp] theorem State.setTb_fresh (n : Nat) (v : Tb) : (s.setTb n v).fresh = s.fresh := rfl
@[simp] theorem State.setTb_outbox (n : Nat) (v : Tb) : (s.setTb n v).outbox = s.outbox := rfl
@[simp] theorem State.setTb_pending (n : Nat) (v : Tb) : (s.setTb n v).pending = s.pending := rfl

@[simp] theorem State.setDict_so (d : Dict) : (s.setDict d).so = s.so := rfl
@[simp] theorem State.setDict_lanes (d : Dict) : (s.setDict d).lanes = s.lanes := rfl
@[simp] theorem State.setDict_filt (d : Dict) : (s.setDict d).filt = s.filt := rfl
@[simp] theorem State.setDict_relay (d : Dict) : (s.setDict d).relay = s.relay := rfl
@[simp] theorem State.setDict_fab (d : Dict) : (s.setDict d).fab = s.fab := rfl
@[simp] theorem State.setDict_acc (d : Dict) : (s.setDict d).acc = s.acc := rfl
@[simp] theorem State.setDict_mm (d : Dict) : (s.setDict d).mm = s.mm := rfl
@[simp] theorem State.setDict_out (d : Dict) : (s.setDict d).out = s.out := rfl
@[simp] theorem State.setDict_cour (d : Dict) : (s.setDict d).cour = s.cour := rfl
@[simp] theorem State.setDict_tally (d : Dict) : (s.setDict d).tally = s.tally := rfl
@[simp] theorem State.setDict_ctrl (d : Dict) : (s.setDict d).ctrl = s.ctrl := rfl
@[simp] theorem State.setDict_time (d : Dict) : (s.setDict d).time = s.time := rfl
@[simp] theorem State.setDict_dict (d : Dict) : (s.setDict d).dict = d := rfl
@[simp] theorem State.setDict_encl (d : Dict) : (s.setDict d).encl = s.encl := rfl
@[simp] theorem State.setDict_pwr (d : Dict) : (s.setDict d).pwr = s.pwr := rfl
@[simp] theorem State.setDict_tap (d : Dict) : (s.setDict d).tap = s.tap := rfl
@[simp] theorem State.setDict_fresh (d : Dict) : (s.setDict d).fresh = s.fresh := rfl
@[simp] theorem State.setDict_outbox (d : Dict) : (s.setDict d).outbox = s.outbox := rfl
@[simp] theorem State.setDict_pending (d : Dict) : (s.setDict d).pending = s.pending := rfl

@[simp] theorem State.setTt_so (x : Timetable) : (s.setTt x).so = s.so := rfl
@[simp] theorem State.setTt_lanes (x : Timetable) : (s.setTt x).lanes = s.lanes := rfl
@[simp] theorem State.setTt_filt (x : Timetable) : (s.setTt x).filt = s.filt := rfl
@[simp] theorem State.setTt_relay (x : Timetable) : (s.setTt x).relay = s.relay := rfl
@[simp] theorem State.setTt_fab (x : Timetable) : (s.setTt x).fab = s.fab := rfl
@[simp] theorem State.setTt_acc (x : Timetable) : (s.setTt x).acc = s.acc := rfl
@[simp] theorem State.setTt_mm (x : Timetable) : (s.setTt x).mm = s.mm := rfl
@[simp] theorem State.setTt_out (x : Timetable) : (s.setTt x).out = s.out := rfl
@[simp] theorem State.setTt_cour (x : Timetable) : (s.setTt x).cour = s.cour := rfl
@[simp] theorem State.setTt_tally (x : Timetable) : (s.setTt x).tally = s.tally := rfl
@[simp] theorem State.setTt_ctrl (x : Timetable) : (s.setTt x).ctrl = s.ctrl := rfl
@[simp] theorem State.setTt_time (x : Timetable) : (s.setTt x).time = s.time := rfl
@[simp] theorem State.setTt_encl (x : Timetable) : (s.setTt x).encl = s.encl := rfl
@[simp] theorem State.setTt_pwr (x : Timetable) : (s.setTt x).pwr = s.pwr := rfl
@[simp] theorem State.setTt_tap (x : Timetable) : (s.setTt x).tap = s.tap := rfl
@[simp] theorem State.setTt_fresh (x : Timetable) : (s.setTt x).fresh = s.fresh := rfl
@[simp] theorem State.setTt_outbox (x : Timetable) : (s.setTt x).outbox = s.outbox := rfl
@[simp] theorem State.setTt_pending (x : Timetable) : (s.setTt x).pending = s.pending := rfl

@[simp] theorem State.modBlk_so (n : Nat) (f : Blk → Blk) : (s.modBlk n f).so = s.so := rfl
@[simp] theorem State.modBlk_lanes (n : Nat) (f : Blk → Blk) : (s.modBlk n f).lanes = s.lanes := rfl
@[simp] theorem State.modBlk_filt (n : Nat) (f : Blk → Blk) : (s.modBlk n f).filt = s.filt := rfl
@[simp] theorem State.modBlk_relay (n : Nat) (f : Blk → Blk) : (s.modBlk n f).relay = s.relay := rfl
@[simp] theorem State.modBlk_fab (n : Nat) (f : Blk → Blk) : (s.modBlk n f).fab = s.fab := rfl
@[simp] theorem State.modBlk_acc (n : Nat) (f : Blk → Blk) : (s.modBlk n f).acc = s.acc := rfl
@[simp] theorem State.modBlk_mm (n : Nat) (f : Blk → Blk) : (s.modBlk n f).mm = s.mm := rfl
@[simp] theorem State.modBlk_out (n : Nat) (f : Blk → Blk) : (s.modBlk n f).out = s.out := rfl
@[simp] theorem State.modBlk_cour (n : Nat) (f : Blk → Blk) : (s.modBlk n f).cour = s.cour := rfl
@[simp] theorem State.modBlk_tally (n : Nat) (f : Blk → Blk) : (s.modBlk n f).tally = s.tally := rfl
@[simp] theorem State.modBlk_ctrl (n : Nat) (f : Blk → Blk) : (s.modBlk n f).ctrl = s.ctrl := rfl
@[simp] theorem State.modBlk_time (n : Nat) (f : Blk → Blk) : (s.modBlk n f).time = s.time := rfl
@[simp] theorem State.modBlk_encl (n : Nat) (f : Blk → Blk) : (s.modBlk n f).encl = s.encl := rfl
@[simp] theorem State.modBlk_pwr (n : Nat) (f : Blk → Blk) : (s.modBlk n f).pwr = s.pwr := rfl
@[simp] theorem State.modBlk_tap (n : Nat) (f : Blk → Blk) : (s.modBlk n f).tap = s.tap := rfl
@[simp] theorem State.modBlk_fresh (n : Nat) (f : Blk → Blk) : (s.modBlk n f).fresh = s.fresh := rfl
@[simp] theorem State.modBlk_outbox (n : Nat) (f : Blk → Blk) : (s.modBlk n f).outbox = s.outbox := rfl
@[simp] theorem State.modBlk_pending (n : Nat) (f : Blk → Blk) : (s.modBlk n f).pending = s.pending := rfl

@[simp] theorem State.setEncl_so (e : Encl) : (s.setEncl e).so = s.so := rfl
@[simp] theorem State.setEncl_lanes (e : Encl) : (s.setEncl e).lanes = s.lanes := rfl
@[simp] theorem State.setEncl_filt (e : Encl) : (s.setEncl e).filt = s.filt := rfl
@[simp] theorem State.setEncl_relay (e : Encl) : (s.setEncl e).relay = s.relay := rfl
@[simp] theorem State.setEncl_fab (e : Encl) : (s.setEncl e).fab = s.fab := rfl
@[simp] theorem State.setEncl_acc (e : Encl) : (s.setEncl e).acc = s.acc := rfl
@[simp] theorem State.setEncl_mm (e : Encl) : (s.setEncl e).mm = s.mm := rfl
@[simp] theorem State.setEncl_out (e : Encl) : (s.setEncl e).out = s.out := rfl
@[simp] theorem State.setEncl_cour (e : Encl) : (s.setEncl e).cour = s.cour := rfl
@[simp] theorem State.setEncl_tally (e : Encl) : (s.setEncl e).tally = s.tally := rfl
@[simp] theorem State.setEncl_ctrl (e : Encl) : (s.setEncl e).ctrl = s.ctrl := rfl
@[simp] theorem State.setEncl_time (e : Encl) : (s.setEncl e).time = s.time := rfl
@[simp] theorem State.setEncl_dict (e : Encl) : (s.setEncl e).dict = s.dict := rfl
@[simp] theorem State.setEncl_encl (e : Encl) : (s.setEncl e).encl = e := rfl
@[simp] theorem State.setEncl_pwr (e : Encl) : (s.setEncl e).pwr = s.pwr := rfl
@[simp] theorem State.setEncl_tap (e : Encl) : (s.setEncl e).tap = s.tap := rfl
@[simp] theorem State.setEncl_fresh (e : Encl) : (s.setEncl e).fresh = s.fresh := rfl
@[simp] theorem State.setEncl_outbox (e : Encl) : (s.setEncl e).outbox = s.outbox := rfl
@[simp] theorem State.setEncl_pending (e : Encl) : (s.setEncl e).pending = s.pending := rfl

@[simp] theorem State.setPwr_so (p : Pwr) : (s.setPwr p).so = s.so := rfl
@[simp] theorem State.setPwr_lanes (p : Pwr) : (s.setPwr p).lanes = s.lanes := rfl
@[simp] theorem State.setPwr_filt (p : Pwr) : (s.setPwr p).filt = s.filt := rfl
@[simp] theorem State.setPwr_relay (p : Pwr) : (s.setPwr p).relay = s.relay := rfl
@[simp] theorem State.setPwr_fab (p : Pwr) : (s.setPwr p).fab = s.fab := rfl
@[simp] theorem State.setPwr_acc (p : Pwr) : (s.setPwr p).acc = s.acc := rfl
@[simp] theorem State.setPwr_mm (p : Pwr) : (s.setPwr p).mm = s.mm := rfl
@[simp] theorem State.setPwr_out (p : Pwr) : (s.setPwr p).out = s.out := rfl
@[simp] theorem State.setPwr_cour (p : Pwr) : (s.setPwr p).cour = s.cour := rfl
@[simp] theorem State.setPwr_tally (p : Pwr) : (s.setPwr p).tally = s.tally := rfl
@[simp] theorem State.setPwr_ctrl (p : Pwr) : (s.setPwr p).ctrl = s.ctrl := rfl
@[simp] theorem State.setPwr_time (p : Pwr) : (s.setPwr p).time = s.time := rfl
@[simp] theorem State.setPwr_dict (p : Pwr) : (s.setPwr p).dict = s.dict := rfl
@[simp] theorem State.setPwr_encl (p : Pwr) : (s.setPwr p).encl = s.encl := rfl
@[simp] theorem State.setPwr_pwr (p : Pwr) : (s.setPwr p).pwr = p := rfl
@[simp] theorem State.setPwr_tap (p : Pwr) : (s.setPwr p).tap = s.tap := rfl
@[simp] theorem State.setPwr_fresh (p : Pwr) : (s.setPwr p).fresh = s.fresh := rfl
@[simp] theorem State.setPwr_outbox (p : Pwr) : (s.setPwr p).outbox = s.outbox := rfl
@[simp] theorem State.setPwr_pending (p : Pwr) : (s.setPwr p).pending = s.pending := rfl

@[simp] theorem State.send_so (m : Sent) : (s.send m).so = s.so := rfl
@[simp] theorem State.send_lanes (m : Sent) : (s.send m).lanes = s.lanes := rfl
@[simp] theorem State.send_filt (m : Sent) : (s.send m).filt = s.filt := rfl
@[simp] theorem State.send_relay (m : Sent) : (s.send m).relay = s.relay := rfl
@[simp] theorem State.send_fab (m : Sent) : (s.send m).fab = s.fab := rfl
@[simp] theorem State.send_acc (m : Sent) : (s.send m).acc = s.acc := rfl
@[simp] theorem State.send_mm (m : Sent) : (s.send m).mm = s.mm := rfl
@[simp] theorem State.send_out (m : Sent) : (s.send m).out = s.out := rfl
@[simp] theorem State.send_cour (m : Sent) : (s.send m).cour = s.cour := rfl
@[simp] theorem State.send_tally (m : Sent) : (s.send m).tally = s.tally := rfl
@[simp] theorem State.send_ctrl (m : Sent) : (s.send m).ctrl = s.ctrl := rfl
@[simp] theorem State.send_time (m : Sent) : (s.send m).time = s.time := rfl
@[simp] theorem State.send_dict (m : Sent) : (s.send m).dict = s.dict := rfl
@[simp] theorem State.send_encl (m : Sent) : (s.send m).encl = s.encl := rfl
@[simp] theorem State.send_pwr (m : Sent) : (s.send m).pwr = s.pwr := rfl
@[simp] theorem State.send_tap (m : Sent) : (s.send m).tap = s.tap := rfl
@[simp] theorem State.send_fresh (m : Sent) : (s.send m).fresh = s.fresh := rfl
@[simp] theorem State.send_pending (m : Sent) : (s.send m).pending = s.pending := rfl

@[simp] theorem State.setPending_so (q : List Instr) : (s.setPending q).so = s.so := rfl
@[simp] theorem State.setPending_lanes (q : List Instr) : (s.setPending q).lanes = s.lanes := rfl
@[simp] theorem State.setPending_filt (q : List Instr) : (s.setPending q).filt = s.filt := rfl
@[simp] theorem State.setPending_relay (q : List Instr) : (s.setPending q).relay = s.relay := rfl
@[simp] theorem State.setPending_fab (q : List Instr) : (s.setPending q).fab = s.fab := rfl
@[simp] theorem State.setPending_acc (q : List Instr) : (s.setPending q).acc = s.acc := rfl
@[simp] theorem State.setPending_mm (q : List Instr) : (s.setPending q).mm = s.mm := rfl
@[simp] theorem State.setPending_out (q : List Instr) : (s.setPending q).out = s.out := rfl
@[simp] theorem State.setPending_cour (q : List Instr) : (s.setPending q).cour = s.cour := rfl
@[simp] theorem State.setPending_tally (q : List Instr) : (s.setPending q).tally = s.tally := rfl
@[simp] theorem State.setPending_ctrl (q : List Instr) : (s.setPending q).ctrl = s.ctrl := rfl
@[simp] theorem State.setPending_time (q : List Instr) : (s.setPending q).time = s.time := rfl
@[simp] theorem State.setPending_dict (q : List Instr) : (s.setPending q).dict = s.dict := rfl
@[simp] theorem State.setPending_encl (q : List Instr) : (s.setPending q).encl = s.encl := rfl
@[simp] theorem State.setPending_pwr (q : List Instr) : (s.setPending q).pwr = s.pwr := rfl
@[simp] theorem State.setPending_tap (q : List Instr) : (s.setPending q).tap = s.tap := rfl
@[simp] theorem State.setPending_fresh (q : List Instr) : (s.setPending q).fresh = s.fresh := rfl
@[simp] theorem State.setPending_outbox (q : List Instr) : (s.setPending q).outbox = s.outbox := rfl
@[simp] theorem State.setPending_pending (q : List Instr) : (s.setPending q).pending = q := rfl

@[simp] theorem State.send_outbox (m : Sent) : (s.send m).outbox = m :: s.outbox := rfl
@[simp] theorem State.setMem_mem (m : Tab Byte) : (s.setMem m).mm.mem = m := rfl

/-! ### Drawing a free value only advances its counter -/

@[simp] theorem State.draw_fst : s.draw.1 = s.fresh := rfl
@[simp] theorem State.draw_snd : s.draw.2 = { s with fresh := s.fresh + 1 } := rfl

end Sys2Proof.Machine
end

