-- ==== Sys2Proof/Laws/Raise.lean ====
section
/-! SUPPORT. Raising a Postcard and counting an injection change the Sorting Office alone (16 R455, R465); a check draws at
most one free value beside. -/

set_option Elab.async false

namespace Sys2Proof.Machine

open Sys2Proof

variable (s : State)

theorem raiseT_only (test : Bool) (src kind addr : Nat) : raiseT test src kind addr s = { s with so := (raiseT test src kind addr s).so } := by
  unfold raiseT; dsimp only; split <;> split <;> rfl
@[simp] theorem raiseT_lanes (test : Bool) (src kind addr : Nat) : (raiseT test src kind addr s).lanes = s.lanes := by rw [raiseT_only]
@[simp] theorem raiseT_filt (test : Bool) (src kind addr : Nat) : (raiseT test src kind addr s).filt = s.filt := by rw [raiseT_only]
@[simp] theorem raiseT_relay (test : Bool) (src kind addr : Nat) : (raiseT test src kind addr s).relay = s.relay := by rw [raiseT_only]
@[simp] theorem raiseT_fab (test : Bool) (src kind addr : Nat) : (raiseT test src kind addr s).fab = s.fab := by rw [raiseT_only]
@[simp] theorem raiseT_acc (test : Bool) (src kind addr : Nat) : (raiseT test src kind addr s).acc = s.acc := by rw [raiseT_only]
@[simp] theorem raiseT_mm (test : Bool) (src kind addr : Nat) : (raiseT test src kind addr s).mm = s.mm := by rw [raiseT_only]
@[simp] theorem raiseT_out (test : Bool) (src kind addr : Nat) : (raiseT test src kind addr s).out = s.out := by rw [raiseT_only]
@[simp] theorem raiseT_cour (test : Bool) (src kind addr : Nat) : (raiseT test src kind addr s).cour = s.cour := by rw [raiseT_only]
@[simp] theorem raiseT_tally (test : Bool) (src kind addr : Nat) : (raiseT test src kind addr s).tally = s.tally := by rw [raiseT_only]
@[simp] theorem raiseT_ctrl (test : Bool) (src kind addr : Nat) : (raiseT test src kind addr s).ctrl = s.ctrl := by rw [raiseT_only]
@[simp] theorem raiseT_time (test : Bool) (src kind addr : Nat) : (raiseT test src kind addr s).time = s.time := by rw [raiseT_only]
@[simp] theorem raiseT_dict (test : Bool) (src kind addr : Nat) : (raiseT test src kind addr s).dict = s.dict := by rw [raiseT_only]
@[simp] theorem raiseT_encl (test : Bool) (src kind addr : Nat) : (raiseT test src kind addr s).encl = s.encl := by rw [raiseT_only]
@[simp] theorem raiseT_pwr (test : Bool) (src kind addr : Nat) : (raiseT test src kind addr s).pwr = s.pwr := by rw [raiseT_only]
@[simp] theorem raiseT_tap (test : Bool) (src kind addr : Nat) : (raiseT test src kind addr s).tap = s.tap := by rw [raiseT_only]
@[simp] theorem raiseT_fresh (test : Bool) (src kind addr : Nat) : (raiseT test src kind addr s).fresh = s.fresh := by rw [raiseT_only]
@[simp] theorem raiseT_outbox (test : Bool) (src kind addr : Nat) : (raiseT test src kind addr s).outbox = s.outbox := by rw [raiseT_only]
@[simp] theorem raiseT_pending (test : Bool) (src kind addr : Nat) : (raiseT test src kind addr s).pending = s.pending := by rw [raiseT_only]

theorem raise_only (src kind addr : Nat) : raise src kind addr s = { s with so := (raise src kind addr s).so } := by
  exact raiseT_only ..
@[simp] theorem raise_lanes (src kind addr : Nat) : (raise src kind addr s).lanes = s.lanes := by rw [raise_only]
@[simp] theorem raise_filt (src kind addr : Nat) : (raise src kind addr s).filt = s.filt := by rw [raise_only]
@[simp] theorem raise_relay (src kind addr : Nat) : (raise src kind addr s).relay = s.relay := by rw [raise_only]
@[simp] theorem raise_fab (src kind addr : Nat) : (raise src kind addr s).fab = s.fab := by rw [raise_only]
@[simp] theorem raise_acc (src kind addr : Nat) : (raise src kind addr s).acc = s.acc := by rw [raise_only]
@[simp] theorem raise_mm (src kind addr : Nat) : (raise src kind addr s).mm = s.mm := by rw [raise_only]
@[simp] theorem raise_out (src kind addr : Nat) : (raise src kind addr s).out = s.out := by rw [raise_only]
@[simp] theorem raise_cour (src kind addr : Nat) : (raise src kind addr s).cour = s.cour := by rw [raise_only]
@[simp] theorem raise_tally (src kind addr : Nat) : (raise src kind addr s).tally = s.tally := by rw [raise_only]
@[simp] theorem raise_ctrl (src kind addr : Nat) : (raise src kind addr s).ctrl = s.ctrl := by rw [raise_only]
@[simp] theorem raise_time (src kind addr : Nat) : (raise src kind addr s).time = s.time := by rw [raise_only]
@[simp] theorem raise_dict (src kind addr : Nat) : (raise src kind addr s).dict = s.dict := by rw [raise_only]
@[simp] theorem raise_encl (src kind addr : Nat) : (raise src kind addr s).encl = s.encl := by rw [raise_only]
@[simp] theorem raise_pwr (src kind addr : Nat) : (raise src kind addr s).pwr = s.pwr := by rw [raise_only]
@[simp] theorem raise_tap (src kind addr : Nat) : (raise src kind addr s).tap = s.tap := by rw [raise_only]
@[simp] theorem raise_fresh (src kind addr : Nat) : (raise src kind addr s).fresh = s.fresh := by rw [raise_only]
@[simp] theorem raise_outbox (src kind addr : Nat) : (raise src kind addr s).outbox = s.outbox := by rw [raise_only]
@[simp] theorem raise_pending (src kind addr : Nat) : (raise src kind addr s).pending = s.pending := by rw [raise_only]

theorem raiseLimT_only (test : Bool) (iv src kind sub addr : Nat) : raiseLimT test iv src kind sub addr s = { s with so := (raiseLimT test iv src kind sub addr s).so } := by
  unfold raiseLimT; dsimp only; split
  · conv_lhs => rw [raiseT_only]
  · rfl
@[simp] theorem raiseLimT_lanes (test : Bool) (iv src kind sub addr : Nat) : (raiseLimT test iv src kind sub addr s).lanes = s.lanes := by rw [raiseLimT_only]
@[simp] theorem raiseLimT_filt (test : Bool) (iv src kind sub addr : Nat) : (raiseLimT test iv src kind sub addr s).filt = s.filt := by rw [raiseLimT_only]
@[simp] theorem raiseLimT_relay (test : Bool) (iv src kind sub addr : Nat) : (raiseLimT test iv src kind sub addr s).relay = s.relay := by rw [raiseLimT_only]
@[simp] theorem raiseLimT_fab (test : Bool) (iv src kind sub addr : Nat) : (raiseLimT test iv src kind sub addr s).fab = s.fab := by rw [raiseLimT_only]
@[simp] theorem raiseLimT_acc (test : Bool) (iv src kind sub addr : Nat) : (raiseLimT test iv src kind sub addr s).acc = s.acc := by rw [raiseLimT_only]
@[simp] theorem raiseLimT_mm (test : Bool) (iv src kind sub addr : Nat) : (raiseLimT test iv src kind sub addr s).mm = s.mm := by rw [raiseLimT_only]
@[simp] theorem raiseLimT_out (test : Bool) (iv src kind sub addr : Nat) : (raiseLimT test iv src kind sub addr s).out = s.out := by rw [raiseLimT_only]
@[simp] theorem raiseLimT_cour (test : Bool) (iv src kind sub addr : Nat) : (raiseLimT test iv src kind sub addr s).cour = s.cour := by rw [raiseLimT_only]
@[simp] theorem raiseLimT_tally (test : Bool) (iv src kind sub addr : Nat) : (raiseLimT test iv src kind sub addr s).tally = s.tally := by rw [raiseLimT_only]
@[simp] theorem raiseLimT_ctrl (test : Bool) (iv src kind sub addr : Nat) : (raiseLimT test iv src kind sub addr s).ctrl = s.ctrl := by rw [raiseLimT_only]
@[simp] theorem raiseLimT_time (test : Bool) (iv src kind sub addr : Nat) : (raiseLimT test iv src kind sub addr s).time = s.time := by rw [raiseLimT_only]
@[simp] theorem raiseLimT_dict (test : Bool) (iv src kind sub addr : Nat) : (raiseLimT test iv src kind sub addr s).dict = s.dict := by rw [raiseLimT_only]
@[simp] theorem raiseLimT_encl (test : Bool) (iv src kind sub addr : Nat) : (raiseLimT test iv src kind sub addr s).encl = s.encl := by rw [raiseLimT_only]
@[simp] theorem raiseLimT_pwr (test : Bool) (iv src kind sub addr : Nat) : (raiseLimT test iv src kind sub addr s).pwr = s.pwr := by rw [raiseLimT_only]
@[simp] theorem raiseLimT_tap (test : Bool) (iv src kind sub addr : Nat) : (raiseLimT test iv src kind sub addr s).tap = s.tap := by rw [raiseLimT_only]
@[simp] theorem raiseLimT_fresh (test : Bool) (iv src kind sub addr : Nat) : (raiseLimT test iv src kind sub addr s).fresh = s.fresh := by rw [raiseLimT_only]
@[simp] theorem raiseLimT_outbox (test : Bool) (iv src kind sub addr : Nat) : (raiseLimT test iv src kind sub addr s).outbox = s.outbox := by rw [raiseLimT_only]
@[simp] theorem raiseLimT_pending (test : Bool) (iv src kind sub addr : Nat) : (raiseLimT test iv src kind sub addr s).pending = s.pending := by rw [raiseLimT_only]

theorem raiseLim_only (iv src kind sub addr : Nat) : raiseLim iv src kind sub addr s = { s with so := (raiseLim iv src kind sub addr s).so } := by
  exact raiseLimT_only ..
@[simp] theorem raiseLim_lanes (iv src kind sub addr : Nat) : (raiseLim iv src kind sub addr s).lanes = s.lanes := by rw [raiseLim_only]
@[simp] theorem raiseLim_filt (iv src kind sub addr : Nat) : (raiseLim iv src kind sub addr s).filt = s.filt := by rw [raiseLim_only]
@[simp] theorem raiseLim_relay (iv src kind sub addr : Nat) : (raiseLim iv src kind sub addr s).relay = s.relay := by rw [raiseLim_only]
@[simp] theorem raiseLim_fab (iv src kind sub addr : Nat) : (raiseLim iv src kind sub addr s).fab = s.fab := by rw [raiseLim_only]
@[simp] theorem raiseLim_acc (iv src kind sub addr : Nat) : (raiseLim iv src kind sub addr s).acc = s.acc := by rw [raiseLim_only]
@[simp] theorem raiseLim_mm (iv src kind sub addr : Nat) : (raiseLim iv src kind sub addr s).mm = s.mm := by rw [raiseLim_only]
@[simp] theorem raiseLim_out (iv src kind sub addr : Nat) : (raiseLim iv src kind sub addr s).out = s.out := by rw [raiseLim_only]
@[simp] theorem raiseLim_cour (iv src kind sub addr : Nat) : (raiseLim iv src kind sub addr s).cour = s.cour := by rw [raiseLim_only]
@[simp] theorem raiseLim_tally (iv src kind sub addr : Nat) : (raiseLim iv src kind sub addr s).tally = s.tally := by rw [raiseLim_only]
@[simp] theorem raiseLim_ctrl (iv src kind sub addr : Nat) : (raiseLim iv src kind sub addr s).ctrl = s.ctrl := by rw [raiseLim_only]
@[simp] theorem raiseLim_time (iv src kind sub addr : Nat) : (raiseLim iv src kind sub addr s).time = s.time := by rw [raiseLim_only]
@[simp] theorem raiseLim_dict (iv src kind sub addr : Nat) : (raiseLim iv src kind sub addr s).dict = s.dict := by rw [raiseLim_only]
@[simp] theorem raiseLim_encl (iv src kind sub addr : Nat) : (raiseLim iv src kind sub addr s).encl = s.encl := by rw [raiseLim_only]
@[simp] theorem raiseLim_pwr (iv src kind sub addr : Nat) : (raiseLim iv src kind sub addr s).pwr = s.pwr := by rw [raiseLim_only]
@[simp] theorem raiseLim_tap (iv src kind sub addr : Nat) : (raiseLim iv src kind sub addr s).tap = s.tap := by rw [raiseLim_only]
@[simp] theorem raiseLim_fresh (iv src kind sub addr : Nat) : (raiseLim iv src kind sub addr s).fresh = s.fresh := by rw [raiseLim_only]
@[simp] theorem raiseLim_outbox (iv src kind sub addr : Nat) : (raiseLim iv src kind sub addr s).outbox = s.outbox := by rw [raiseLim_only]
@[simp] theorem raiseLim_pending (iv src kind sub addr : Nat) : (raiseLim iv src kind sub addr s).pending = s.pending := by rw [raiseLim_only]

theorem injCount_only (i : Injection) : injCount i s = { s with so := (injCount i s).so } := by
  unfold injCount; split
  · conv_lhs => rw [raise_only]
  · rfl
@[simp] theorem injCount_lanes (i : Injection) : (injCount i s).lanes = s.lanes := by rw [injCount_only]
@[simp] theorem injCount_filt (i : Injection) : (injCount i s).filt = s.filt := by rw [injCount_only]
@[simp] theorem injCount_relay (i : Injection) : (injCount i s).relay = s.relay := by rw [injCount_only]
@[simp] theorem injCount_fab (i : Injection) : (injCount i s).fab = s.fab := by rw [injCount_only]
@[simp] theorem injCount_acc (i : Injection) : (injCount i s).acc = s.acc := by rw [injCount_only]
@[simp] theorem injCount_mm (i : Injection) : (injCount i s).mm = s.mm := by rw [injCount_only]
@[simp] theorem injCount_out (i : Injection) : (injCount i s).out = s.out := by rw [injCount_only]
@[simp] theorem injCount_cour (i : Injection) : (injCount i s).cour = s.cour := by rw [injCount_only]
@[simp] theorem injCount_tally (i : Injection) : (injCount i s).tally = s.tally := by rw [injCount_only]
@[simp] theorem injCount_ctrl (i : Injection) : (injCount i s).ctrl = s.ctrl := by rw [injCount_only]
@[simp] theorem injCount_time (i : Injection) : (injCount i s).time = s.time := by rw [injCount_only]
@[simp] theorem injCount_dict (i : Injection) : (injCount i s).dict = s.dict := by rw [injCount_only]
@[simp] theorem injCount_encl (i : Injection) : (injCount i s).encl = s.encl := by rw [injCount_only]
@[simp] theorem injCount_pwr (i : Injection) : (injCount i s).pwr = s.pwr := by rw [injCount_only]
@[simp] theorem injCount_tap (i : Injection) : (injCount i s).tap = s.tap := by rw [injCount_only]
@[simp] theorem injCount_fresh (i : Injection) : (injCount i s).fresh = s.fresh := by rw [injCount_only]
@[simp] theorem injCount_outbox (i : Injection) : (injCount i s).outbox = s.outbox := by rw [injCount_only]
@[simp] theorem injCount_pending (i : Injection) : (injCount i s).pending = s.pending := by rw [injCount_only]

theorem crcInject_only (src : Nat) : (crcInject src s).2.2 = { s with so := (crcInject src s).2.2.so } := by
  unfold crcInject; split
  · exact injCount_only ..
  · rfl
theorem eccCheck_only (src c : Nat) (e : Ecc) : (eccCheck src c e s).2.2 =
    { s with so := (eccCheck src c e s).2.2.so, fresh := (eccCheck src c e s).2.2.fresh } := by
  unfold eccCheck; split
  · simp only [injCount_fresh]; conv_lhs => rw [injCount_only]
    rfl
  · rfl
@[simp] theorem crcInject_lanes (src : Nat) : (crcInject src s).2.2.lanes = s.lanes := by rw [crcInject_only]
@[simp] theorem crcInject_filt (src : Nat) : (crcInject src s).2.2.filt = s.filt := by rw [crcInject_only]
@[simp] theorem crcInject_relay (src : Nat) : (crcInject src s).2.2.relay = s.relay := by rw [crcInject_only]
@[simp] theorem crcInject_fab (src : Nat) : (crcInject src s).2.2.fab = s.fab := by rw [crcInject_only]
@[simp] theorem crcInject_acc (src : Nat) : (crcInject src s).2.2.acc = s.acc := by rw [crcInject_only]
@[simp] theorem crcInject_mm (src : Nat) : (crcInject src s).2.2.mm = s.mm := by rw [crcInject_only]
@[simp] theorem crcInject_out (src : Nat) : (crcInject src s).2.2.out = s.out := by rw [crcInject_only]
@[simp] theorem crcInject_cour (src : Nat) : (crcInject src s).2.2.cour = s.cour := by rw [crcInject_only]
@[simp] theorem crcInject_tally (src : Nat) : (crcInject src s).2.2.tally = s.tally := by rw [crcInject_only]
@[simp] theorem crcInject_ctrl (src : Nat) : (crcInject src s).2.2.ctrl = s.ctrl := by rw [crcInject_only]
@[simp] theorem crcInject_time (src : Nat) : (crcInject src s).2.2.time = s.time := by rw [crcInject_only]
@[simp] theorem crcInject_dict (src : Nat) : (crcInject src s).2.2.dict = s.dict := by rw [crcInject_only]
@[simp] theorem crcInject_encl (src : Nat) : (crcInject src s).2.2.encl = s.encl := by rw [crcInject_only]
@[simp] theorem crcInject_pwr (src : Nat) : (crcInject src s).2.2.pwr = s.pwr := by rw [crcInject_only]
@[simp] theorem crcInject_tap (src : Nat) : (crcInject src s).2.2.tap = s.tap := by rw [crcInject_only]
@[simp] theorem crcInject_fresh (src : Nat) : (crcInject src s).2.2.fresh = s.fresh := by rw [crcInject_only]
@[simp] theorem crcInject_outbox (src : Nat) : (crcInject src s).2.2.outbox = s.outbox := by rw [crcInject_only]
@[simp] theorem crcInject_pending (src : Nat) : (crcInject src s).2.2.pending = s.pending := by rw [crcInject_only]
@[simp] theorem eccCheck_lanes (src c : Nat) (e : Ecc) : (eccCheck src c e s).2.2.lanes = s.lanes := by
  rw [eccCheck_only]
@[simp] theorem eccCheck_filt (src c : Nat) (e : Ecc) : (eccCheck src c e s).2.2.filt = s.filt := by
  rw [eccCheck_only]
@[simp] theorem eccCheck_relay (src c : Nat) (e : Ecc) : (eccCheck src c e s).2.2.relay = s.relay := by
  rw [eccCheck_only]
@[simp] theorem eccCheck_fab (src c : Nat) (e : Ecc) : (eccCheck src c e s).2.2.fab = s.fab := by
  rw [eccCheck_only]
@[simp] theorem eccCheck_acc (src c : Nat) (e : Ecc) : (eccCheck src c e s).2.2.acc = s.acc := by
  rw [eccCheck_only]
@[simp] theorem eccCheck_mm (src c : Nat) (e : Ecc) : (eccCheck src c e s).2.2.mm = s.mm := by
  rw [eccCheck_only]
@[simp] theorem eccCheck_out (src c : Nat) (e : Ecc) : (eccCheck src c e s).2.2.out = s.out := by
  rw [eccCheck_only]
@[simp] theorem eccCheck_cour (src c : Nat) (e : Ecc) : (eccCheck src c e s).2.2.cour = s.cour := by
  rw [eccCheck_only]
@[simp] theorem eccCheck_tally (src c : Nat) (e : Ecc) : (eccCheck src c e s).2.2.tally = s.tally := by
  rw [eccCheck_only]
@[simp] theorem eccCheck_ctrl (src c : Nat) (e : Ecc) : (eccCheck src c e s).2.2.ctrl = s.ctrl := by
  rw [eccCheck_only]
@[simp] theorem eccCheck_time (src c : Nat) (e : Ecc) : (eccCheck src c e s).2.2.time = s.time := by
  rw [eccCheck_only]
@[simp] theorem eccCheck_dict (src c : Nat) (e : Ecc) : (eccCheck src c e s).2.2.dict = s.dict := by
  rw [eccCheck_only]
@[simp] theorem eccCheck_encl (src c : Nat) (e : Ecc) : (eccCheck src c e s).2.2.encl = s.encl := by
  rw [eccCheck_only]
@[simp] theorem eccCheck_pwr (src c : Nat) (e : Ecc) : (eccCheck src c e s).2.2.pwr = s.pwr := by
  rw [eccCheck_only]
@[simp] theorem eccCheck_tap (src c : Nat) (e : Ecc) : (eccCheck src c e s).2.2.tap = s.tap := by
  rw [eccCheck_only]
@[simp] theorem eccCheck_outbox (src c : Nat) (e : Ecc) : (eccCheck src c e s).2.2.outbox = s.outbox := by
  rw [eccCheck_only]
@[simp] theorem eccCheck_pending (src c : Nat) (e : Ecc) : (eccCheck src c e s).2.2.pending = s.pending := by
  rw [eccCheck_only]

/-- A raised Postcard only touches what waits and what is dropped. -/
theorem raise_so (src kind addr : Nat) :
    (raise src kind addr s).so =
      { s.so with waiting := (raise src kind addr s).so.waiting, dropped := (raise src kind addr s).so.dropped } := by
  unfold raise raiseT; dsimp only; split <;> split <;> rfl

end Sys2Proof.Machine
end

