-- ==== Sys2Proof/Laws/Frame.lean ====
section
/-! SUPPORT. How frames compose: through a chain of operations, a branch, a fold, the state inside a pair. -/

set_option Elab.async false

namespace Sys2Proof.Machine

open Sys2Proof

variable {ps qs : List Part} {s t u : State}

theorem Frame.refl (ps : List Part) (s : State) : Frame ps s s :=
  ⟨fun p _ => by cases p <;> rfl⟩

theorem Part.same_trans {p : Part} (h : p.same s t) (k : p.same t u) : p.same s u := by
  cases p <;> exact Eq.trans k h

/-- One more operation, whose frame is inside the frame asked for. -/
theorem Frame.step (h : Frame ps s t) (k : Frame qs t u) (le : qs ⊆ ps) : Frame ps s u :=
  ⟨fun p hp => Part.same_trans (h.same p hp) (k.same p fun hq => hp (le hq))⟩

theorem Frame.weaken (h : Frame qs s t) (le : qs ⊆ ps) : Frame ps s t :=
  ⟨fun p hp => h.same p fun hq => hp (le hq)⟩

theorem Frame.weaken2 (h : Frame ps s t) (k : Frame qs t u) : Frame (ps ++ qs) s u :=
  (h.weaken (List.subset_append_left _ _)).step k (List.subset_append_right _ _)

theorem Frame.ite {c : Prop} [Decidable c] (h : c → Frame ps s t) (k : ¬ c → Frame ps s u) :
    Frame ps s (if c then t else u) := by
  split
  · exact h ‹_›
  · exact k ‹_›

theorem Frame.ite2 {α : Type} {c : Prop} [Decidable c] {a b : α × State} (h : c → Frame ps s a.2) (k : ¬ c → Frame ps s b.2) :
    Frame ps s (if c then a else b).2 := by
  split
  · exact h ‹_›
  · exact k ‹_›
theorem Frame.ite22 {α β : Type} {c : Prop} [Decidable c] {a b : α × β × State} (h : c → Frame ps s a.2.2)
    (k : ¬ c → Frame ps s b.2.2) : Frame ps s (if c then a else b).2.2 := by
  split
  · exact h ‹_›
  · exact k ‹_›

/-- The state an operation answers beside a value. -/
theorem Frame.pair2 {α : Type} {r : α × State} {a : α} (e : r = (a, u)) (h : Frame ps s t) (k : Frame qs t r.2)
    (le : qs ⊆ ps) : Frame ps s u := by subst e; exact h.step k le
theorem Frame.pair22 {α β : Type} {r : α × β × State} {a : α} {b : β} (e : r = (a, b, u)) (h : Frame ps s t)
    (k : Frame qs t r.2.2) (le : qs ⊆ ps) : Frame ps s u := by subst e; exact h.step k le

theorem Frame.foldl {α : Type} {f : State → α → State} {l : List α} (h : Frame ps s t) (k : ∀ v x, Frame ps v (f v x)) :
    Frame ps s (l.foldl f t) := by
  induction l generalizing t with
  | nil => exact h
  | cons x r ih => exact ih (h.step (k t x) (List.Subset.refl _))

theorem Frame.foldl2 {α β : Type} {f : β × State → α → β × State} {l : List α} {r : β × State} (h : Frame ps s r.2)
    (k : ∀ v x, Frame ps v.2 (f v x).2) : Frame ps s (l.foldl f r).2 := by
  induction l generalizing r with
  | nil => exact h
  | cons x q ih => exact ih (h.step (k r x) (List.Subset.refl _))

theorem Frame.foldl22 {α β γ : Type} {f : β × γ × State → α → β × γ × State} {l : List α} {r : β × γ × State}
    (h : Frame ps s r.2.2) (k : ∀ v x, Frame ps v.2.2 (f v x).2.2) : Frame ps s (l.foldl f r).2.2 := by
  induction l generalizing r with
  | nil => exact h
  | cons x q ih => exact ih (h.step (k r x) (List.Subset.refl _))

theorem Frame.forRange {n : Nat} {f : Nat → State → State} (h : Frame ps s t) (k : ∀ x v, Frame ps v (f x v)) :
    Frame ps s (forRange n f t) := Frame.foldl h fun v x => k x v

/-- What a frame says about a part it does not list. -/
theorem Frame.get (h : Frame ps s t) (p : Part) (hp : p ∉ ps := by decide) : p.same s t := h.same p hp

/-! ### One part written -/

theorem Frame.with_so (t : State) (x : Sorting) : Frame [.so] t { t with so := x } := by
  refine ⟨fun p hp => ?_⟩; cases p <;> first | rfl | exact absurd (by decide) hp
theorem Frame.with_lanes (t : State) (x : Lanes) : Frame [.lanes] t { t with lanes := x } := by
  refine ⟨fun p hp => ?_⟩; cases p <;> first | rfl | exact absurd (by decide) hp
theorem Frame.with_filt (t : State) (x : Filt) : Frame [.filt] t { t with filt := x } := by
  refine ⟨fun p hp => ?_⟩; cases p <;> first | rfl | exact absurd (by decide) hp
theorem Frame.with_relay (t : State) (x : Relay) : Frame [.relay] t { t with relay := x } := by
  refine ⟨fun p hp => ?_⟩; cases p <;> first | rfl | exact absurd (by decide) hp
theorem Frame.with_fab (t : State) (x : Fab) : Frame [.fab] t { t with fab := x } := by
  refine ⟨fun p hp => ?_⟩; cases p <;> first | rfl | exact absurd (by decide) hp
theorem Frame.with_acc (t : State) (x : Acc) : Frame [.acc] t { t with acc := x } := by
  refine ⟨fun p hp => ?_⟩; cases p <;> first | rfl | exact absurd (by decide) hp
theorem Frame.with_mm (t : State) (x : Mems) : Frame [.mm] t { t with mm := x } := by
  refine ⟨fun p hp => ?_⟩; cases p <;> first | rfl | exact absurd (by decide) hp
theorem Frame.with_out (t : State) (x : Out) : Frame [.out] t { t with out := x } := by
  refine ⟨fun p hp => ?_⟩; cases p <;> first | rfl | exact absurd (by decide) hp
theorem Frame.with_cour (t : State) (x : Courier) : Frame [.cour] t { t with cour := x } := by
  refine ⟨fun p hp => ?_⟩; cases p <;> first | rfl | exact absurd (by decide) hp
theorem Frame.with_tally (t : State) (x : Tab Core) : Frame [.tally] t { t with tally := x } := by
  refine ⟨fun p hp => ?_⟩; cases p <;> first | rfl | exact absurd (by decide) hp
theorem Frame.with_ctrl (t : State) (x : Ctrl) : Frame [.ctrl] t { t with ctrl := x } := by
  refine ⟨fun p hp => ?_⟩; cases p <;> first | rfl | exact absurd (by decide) hp
theorem Frame.with_time (t : State) (x : Times) : Frame [.time] t { t with time := x } := by
  refine ⟨fun p hp => ?_⟩; cases p <;> first | rfl | exact absurd (by decide) hp
theorem Frame.with_dict (t : State) (x : Dict) : Frame [.dict] t { t with dict := x } := by
  refine ⟨fun p hp => ?_⟩; cases p <;> first | rfl | exact absurd (by decide) hp
theorem Frame.with_encl (t : State) (x : Encl) : Frame [.encl] t { t with encl := x } := by
  refine ⟨fun p hp => ?_⟩; cases p <;> first | rfl | exact absurd (by decide) hp
theorem Frame.with_pwr (t : State) (x : Pwr) : Frame [.pwr] t { t with pwr := x } := by
  refine ⟨fun p hp => ?_⟩; cases p <;> first | rfl | exact absurd (by decide) hp
theorem Frame.with_tap (t : State) (x : TapIr) : Frame [.tap] t { t with tap := x } := by
  refine ⟨fun p hp => ?_⟩; cases p <;> first | rfl | exact absurd (by decide) hp
theorem Frame.with_fresh (t : State) (x : Nat) : Frame [.fresh] t { t with fresh := x } := by
  refine ⟨fun p hp => ?_⟩; cases p <;> first | rfl | exact absurd (by decide) hp
theorem Frame.with_outbox (t : State) (x : List Sent) : Frame [.outbox] t { t with outbox := x } := by
  refine ⟨fun p hp => ?_⟩; cases p <;> first | rfl | exact absurd (by decide) hp
theorem Frame.with_pending (t : State) (x : List Instr) : Frame [.pending] t { t with pending := x } := by
  refine ⟨fun p hp => ?_⟩; cases p <;> first | rfl | exact absurd (by decide) hp

end Sys2Proof.Machine
end

