-- ==== Sys2Proof/Laws/FrameOps.lean ====
section
/-! SUPPORT. What each operation of Machine/Ops.lean may change. -/

set_option Elab.async false

namespace Sys2Proof.Machine

open Sys2Proof

theorem State.modBlk_frame (s n f) : Frame [.dict] s (State.modBlk s n f) := by
  refine ⟨fun p hp => ?_⟩; cases p <;> first | rfl | exact absurd (by decide) hp

theorem raiseT_frame (test src kind addr s) : Frame [.so] s (raiseT test src kind addr s) := by
  refine ⟨fun p hp => ?_⟩; cases p <;> first | exact absurd (by decide) hp | simp [Part.same]

theorem raise_frame (src kind addr s) : Frame [.so] s (raise src kind addr s) := by
  unfold raise
  repeat' first
    | with_reducible apply Frame.refl
    | with_reducible apply Frame.ite <;> intro _
    | refine Frame.step ?_ (by with_reducible apply raiseT_frame) (by decide)
    | split
    | dsimp only

theorem raiseLimT_frame (test interval src kind sub addr s) : Frame [.so] s (raiseLimT test interval src kind sub addr s) := by
  unfold raiseLimT
  repeat' first
    | with_reducible apply Frame.refl
    | with_reducible apply Frame.ite <;> intro _
    | refine Frame.step ?_ (by with_reducible apply raiseT_frame) (by decide)
    | refine Frame.step ?_ (by with_reducible apply Frame.with_so) (by decide)
    | split
    | dsimp only

theorem raiseLim_frame (interval src kind sub addr s) : Frame [.so] s (raiseLim interval src kind sub addr s) := by
  unfold raiseLim
  repeat' first
    | with_reducible apply Frame.refl
    | with_reducible apply Frame.ite <;> intro _
    | refine Frame.step ?_ (by with_reducible apply raiseLimT_frame) (by decide)
    | split
    | dsimp only

theorem State.draw_frame (s) : Frame [.fresh] s (State.draw s).2 := by
  unfold State.draw
  repeat' first
    | with_reducible apply Frame.refl
    | with_reducible apply Frame.ite <;> intro _
    | with_reducible apply Frame.ite2 <;> intro _
    | refine Frame.step ?_ (by with_reducible apply Frame.with_fresh) (by decide)
    | split
    | dsimp only

theorem injCount_frame (i s) : Frame [.so] s (injCount i s) := by
  refine ⟨fun p hp => ?_⟩; cases p <;> first | exact absurd (by decide) hp | simp [Part.same]

theorem eccCheck_frame (src checker e s) : Frame [.so, .fresh] s (eccCheck src checker e s).2.2 := by
  unfold eccCheck
  repeat' first
    | with_reducible apply Frame.refl
    | with_reducible apply Frame.ite <;> intro _
    | with_reducible apply Frame.ite22 <;> intro _
    | refine Frame.step ?_ (by with_reducible apply State.draw_frame) (by decide)
    | refine Frame.pair2 (by assumption) ?_ (by with_reducible apply State.draw_frame) (by decide)
    | refine Frame.step ?_ (by with_reducible apply injCount_frame) (by decide)
    | split
    | dsimp only

theorem crcInject_frame (src s) : Frame [.so] s (crcInject src s).2.2 := by
  unfold crcInject
  repeat' first
    | with_reducible apply Frame.refl
    | with_reducible apply Frame.ite <;> intro _
    | with_reducible apply Frame.ite22 <;> intro _
    | refine Frame.step ?_ (by with_reducible apply injCount_frame) (by decide)
    | split
    | dsimp only

theorem crcReached_frame (reached src s) : Frame [.so] s (crcReached reached src s).2.2 := by
  unfold crcReached
  repeat' first
    | with_reducible apply Frame.refl
    | with_reducible apply Frame.ite <;> intro _
    | with_reducible apply Frame.ite22 <;> intro _
    | refine Frame.step ?_ (by with_reducible apply crcInject_frame) (by decide)
    | refine Frame.pair22 (by assumption) ?_ (by with_reducible apply crcInject_frame) (by decide)
    | split
    | dsimp only

theorem State.send_frame (s m) : Frame [.outbox] s (State.send s m) := by
  refine ⟨fun p hp => ?_⟩; cases p <;> first | rfl | exact absurd (by decide) hp

theorem State.setLane_frame (s l v) : Frame [.lanes] s (State.setLane s l v) := by
  refine ⟨fun p hp => ?_⟩; cases p <;> first | rfl | exact absurd (by decide) hp

theorem State.modLane_frame (s l f) : Frame [.lanes] s (State.modLane s l f) := by
  refine ⟨fun p hp => ?_⟩; cases p <;> first | rfl | exact absurd (by decide) hp

theorem State.modLogical_frame (s l f) : Frame [.lanes] s (State.modLogical s l f) := by
  refine ⟨fun p hp => ?_⟩; cases p <;> first | rfl | exact absurd (by decide) hp

theorem State.setIngest_frame (s i q) : Frame [.lanes] s (State.setIngest s i q) := by
  refine ⟨fun p hp => ?_⟩; cases p <;> first | rfl | exact absurd (by decide) hp

theorem State.setCond_frame (s i v) : Frame [.filt] s (State.setCond s i v) := by
  refine ⟨fun p hp => ?_⟩; cases p <;> first | rfl | exact absurd (by decide) hp

theorem State.setEng_frame (s e v) : Frame [.filt] s (State.setEng s e v) := by
  refine ⟨fun p hp => ?_⟩; cases p <;> first | rfl | exact absurd (by decide) hp

theorem State.setGain_frame (s i v) : Frame [.filt] s (State.setGain s i v) := by
  refine ⟨fun p hp => ?_⟩; cases p <;> first | rfl | exact absurd (by decide) hp

theorem State.modSrc_frame (s n f) : Frame [.so] s (State.modSrc s n f) := by
  refine ⟨fun p hp => ?_⟩; cases p <;> first | rfl | exact absurd (by decide) hp


theorem keepLive_frame (o b s) : Frame [.dict] s (keepLive o b s) := by
  unfold keepLive
  repeat' first
    | with_reducible apply Frame.refl
    | with_reducible apply Frame.ite <;> intro _
    | refine Frame.step ?_ (by with_reducible apply Frame.with_dict) (by decide)
    | split
    | dsimp only

end Sys2Proof.Machine
end

