-- ==== Sys2Proof/Laws/FrameLineCode.lean ====
section
/-! SUPPORT. What each operation of Machine/LineCode.lean may change. -/

set_option Elab.async false

namespace Sys2Proof.Machine

open Sys2Proof

theorem moveWords_frame (l syms s) : Frame [.lanes] s (moveWords l syms s) := by
  unfold moveWords
  repeat' first
    | with_reducible apply Frame.refl
    | with_reducible apply Frame.ite <;> intro _
    | refine Frame.step ?_ (by with_reducible apply State.modLane_frame) (by decide)
    | split
    | dsimp only

theorem sendWords_frame (l syms m s) : Frame [.lanes, .outbox] s (sendWords l syms m s) := by
  unfold sendWords
  repeat' first
    | with_reducible apply Frame.refl
    | with_reducible apply Frame.ite <;> intro _
    | refine Frame.step ?_ (by with_reducible apply moveWords_frame) (by decide)
    | refine Frame.step ?_ (by with_reducible apply State.send_frame) (by decide)
    | split
    | dsimp only

end Sys2Proof.Machine
end

