-- ==== Sys2Proof/Laws/FrameLanes.lean ====
section
/-! SUPPORT. What each operation of Machine/Lanes.lean may change. -/

set_option Elab.async false

namespace Sys2Proof.Machine

open Sys2Proof

theorem abandonLeave_frame (l s) : Frame [.so, .lanes] s (abandonLeave l s) := by
  unfold abandonLeave
  repeat' first
    | with_reducible apply Frame.refl
    | with_reducible apply Frame.ite <;> intro _
    | refine Frame.step ?_ (by with_reducible apply raise_frame) (by decide)
    | refine Frame.step ?_ (by with_reducible apply State.modLane_frame) (by decide)
    | split
    | dsimp only

theorem laneRefuse_frame (l s) : Frame [.so] s (laneRefuse l s) := by
  unfold laneRefuse
  repeat' first
    | with_reducible apply Frame.refl
    | with_reducible apply Frame.ite <;> intro _
    | refine Frame.step ?_ (by with_reducible apply raise_frame) (by decide)
    | split
    | dsimp only

theorem slipCmd_frame (l a s) : Frame [.so, .lanes] s (slipCmd l a s) := by
  unfold slipCmd
  repeat' first
    | with_reducible apply Frame.refl
    | with_reducible apply Frame.ite <;> intro _
    | refine Frame.step ?_ (by with_reducible apply State.setLane_frame) (by decide)
    | refine Frame.step ?_ (by with_reducible apply abandonLeave_frame) (by decide)
    | refine Frame.step ?_ (by with_reducible apply laneRefuse_frame) (by decide)
    | split
    | dsimp only

theorem txSleepCmd_frame (l s) : Frame [.so, .lanes, .outbox] s (txSleepCmd l s) := by
  unfold txSleepCmd
  repeat' first
    | with_reducible apply Frame.refl
    | with_reducible apply Frame.ite <;> intro _
    | refine Frame.step ?_ (by with_reducible apply sendWords_frame) (by decide)
    | refine Frame.step ?_ (by with_reducible apply State.modLane_frame) (by decide)
    | refine Frame.step ?_ (by with_reducible apply laneRefuse_frame) (by decide)
    | split
    | dsimp only

theorem txWakeCmd_frame (l s) : Frame [.so, .lanes] s (txWakeCmd l s) := by
  unfold txWakeCmd
  repeat' first
    | with_reducible apply Frame.refl
    | with_reducible apply Frame.ite <;> intro _
    | refine Frame.step ?_ (by with_reducible apply State.setLane_frame) (by decide)
    | refine Frame.step ?_ (by with_reducible apply laneRefuse_frame) (by decide)
    | split
    | dsimp only

theorem rxSleepCmd_frame (l s) : Frame [.so, .lanes] s (rxSleepCmd l s) := by
  unfold rxSleepCmd
  repeat' first
    | with_reducible apply Frame.refl
    | with_reducible apply Frame.ite <;> intro _
    | refine Frame.step ?_ (by with_reducible apply State.setLane_frame) (by decide)
    | refine Frame.step ?_ (by with_reducible apply abandonLeave_frame) (by decide)
    | refine Frame.step ?_ (by with_reducible apply laneRefuse_frame) (by decide)
    | split
    | dsimp only

theorem rxWakeCmd_frame (l s) : Frame [.so, .lanes] s (rxWakeCmd l s) := by
  unfold rxWakeCmd
  repeat' first
    | with_reducible apply Frame.refl
    | with_reducible apply Frame.ite <;> intro _
    | refine Frame.step ?_ (by with_reducible apply State.setLane_frame) (by decide)
    | refine Frame.step ?_ (by with_reducible apply laneRefuse_frame) (by decide)
    | split
    | dsimp only

theorem testEnterCmd_frame (l a s0) : Frame [.so, .lanes, .fresh] s0 (testEnterCmd l a s0) := by
  unfold testEnterCmd
  repeat' first
    | with_reducible apply Frame.refl
    | with_reducible apply Frame.ite <;> intro _
    | refine Frame.step ?_ (by with_reducible apply State.draw_frame) (by decide)
    | refine Frame.pair2 (by assumption) ?_ (by with_reducible apply State.draw_frame) (by decide)
    | refine Frame.step ?_ (by with_reducible apply laneRefuse_frame) (by decide)
    | refine Frame.step ?_ (by with_reducible apply State.setLane_frame) (by decide)
    | refine Frame.step ?_ (by with_reducible apply abandonLeave_frame) (by decide)
    | split
    | dsimp only

theorem testExitCmd_frame (l a s) : Frame [.so, .lanes] s (testExitCmd l a s) := by
  unfold testExitCmd
  repeat' first
    | with_reducible apply Frame.refl
    | with_reducible apply Frame.ite <;> intro _
    | refine Frame.step ?_ (by with_reducible apply State.setLane_frame) (by decide)
    | refine Frame.step ?_ (by with_reducible apply laneRefuse_frame) (by decide)
    | split
    | dsimp only

theorem startCmd_frame (l s) : Frame [.so, .lanes] s (startCmd l s) := by
  unfold startCmd
  repeat' first
    | with_reducible apply Frame.refl
    | with_reducible apply Frame.ite <;> intro _
    | refine Frame.step ?_ (by with_reducible apply abandonLeave_frame) (by decide)
    | refine Frame.step ?_ (by with_reducible apply State.setLane_frame) (by decide)
    | refine Frame.step ?_ (by with_reducible apply State.modLogical_frame) (by decide)
    | refine Frame.step ?_ (by with_reducible apply laneRefuse_frame) (by decide)
    | split
    | dsimp only

theorem stopCmd_frame (l s) : Frame [.so, .lanes] s (stopCmd l s) := by
  unfold stopCmd
  repeat' first
    | with_reducible apply Frame.refl
    | with_reducible apply Frame.ite <;> intro _
    | refine Frame.step ?_ (by with_reducible apply State.setLane_frame) (by decide)
    | refine Frame.step ?_ (by with_reducible apply laneRefuse_frame) (by decide)
    | split
    | dsimp only

theorem injectCmd_frame (l a s) : Frame [.so, .lanes] s (injectCmd l a s) := by
  unfold injectCmd
  repeat' first
    | with_reducible apply Frame.refl
    | with_reducible apply Frame.ite <;> intro _
    | refine Frame.step ?_ (by with_reducible apply State.setLane_frame) (by decide)
    | refine Frame.step ?_ (by with_reducible apply laneRefuse_frame) (by decide)
    | split
    | dsimp only

theorem loopbackCmd_frame (l a s) : Frame [.so, .lanes] s (loopbackCmd l a s) := by
  unfold loopbackCmd
  repeat' first
    | with_reducible apply Frame.refl
    | with_reducible apply Frame.ite <;> intro _
    | refine Frame.step ?_ (by with_reducible apply State.setLane_frame) (by decide)
    | refine Frame.step ?_ (by with_reducible apply laneRefuse_frame) (by decide)
    | split
    | dsimp only

theorem clearCmd_frame (l s) : Frame [.lanes] s (clearCmd l s) := by
  unfold clearCmd
  repeat' first
    | with_reducible apply Frame.refl
    | with_reducible apply Frame.ite <;> intro _
    | refine Frame.step ?_ (by with_reducible apply State.modLane_frame) (by decide)
    | refine Frame.step ?_ (by with_reducible apply State.modLogical_frame) (by decide)
    | split
    | dsimp only

theorem startSparing_frame (l sp s) : Frame [.lanes] s (startSparing l sp s) := by
  unfold startSparing
  repeat' first
    | with_reducible apply Frame.refl
    | with_reducible apply Frame.ite <;> intro _
    | refine Frame.step ?_ (by with_reducible apply State.modLane_frame) (by decide)
    | split
    | dsimp only

theorem ingestSpareIn_frame (sp l s) : Frame [.so, .lanes] s (ingestSpareIn sp l s) := by
  unfold ingestSpareIn
  repeat' first
    | with_reducible apply Frame.refl
    | with_reducible apply Frame.ite <;> intro _
    | refine Frame.step ?_ (by with_reducible apply startSparing_frame) (by decide)
    | refine Frame.step ?_ (by with_reducible apply raise_frame) (by decide)
    | split
    | dsimp only

theorem ingestSpareOut_frame (sp s) : Frame [.so, .lanes] s (ingestSpareOut sp s) := by
  unfold ingestSpareOut
  repeat' first
    | with_reducible apply Frame.refl
    | with_reducible apply Frame.ite <;> intro _
    | refine Frame.step ?_ (by with_reducible apply State.modLane_frame) (by decide)
    | refine Frame.step ?_ (by with_reducible apply raise_frame) (by decide)
    | split
    | dsimp only

theorem ingestFailed_frame (l s) : Frame [.so, .lanes] s (ingestFailed l s) := by
  unfold ingestFailed
  repeat' first
    | with_reducible apply Frame.refl
    | with_reducible apply Frame.ite <;> intro _
    | refine Frame.step ?_ (by with_reducible apply raise_frame) (by decide)
    | refine Frame.step ?_ (by with_reducible apply State.modLane_frame) (by decide)
    | refine Frame.step ?_ (by with_reducible apply startSparing_frame) (by decide)
    | refine Frame.step ?_ (by with_reducible apply State.modLogical_frame) (by decide)
    | split
    | dsimp only

theorem countCode_frame (l invalid disparity s) : Frame [.lanes] s (countCode l invalid disparity s) := by
  unfold countCode
  repeat' first
    | with_reducible apply Frame.refl
    | with_reducible apply Frame.ite <;> intro _
    | refine Frame.step ?_ (by with_reducible apply State.modLane_frame) (by decide)
    | split
    | dsimp only

theorem codeErrorOp_frame (l rd w s) : Frame [.lanes] s (codeErrorOp l rd w s) := by
  unfold codeErrorOp
  repeat' first
    | with_reducible apply Frame.refl
    | with_reducible apply Frame.ite <;> intro _
    | refine Frame.step ?_ (by with_reducible apply State.modLane_frame) (by decide)
    | refine Frame.step ?_ (by with_reducible apply countCode_frame) (by decide)
    | split
    | dsimp only

theorem testWordIn_frame (l w s) : Frame [.lanes] s (testWordIn l w s) := by
  unfold testWordIn
  repeat' first
    | with_reducible apply Frame.refl
    | with_reducible apply Frame.ite <;> intro _
    | refine Frame.step ?_ (by with_reducible apply State.modLane_frame) (by decide)
    | refine Frame.step ?_ (by with_reducible apply countCode_frame) (by decide)
    | refine Frame.step ?_ (by with_reducible apply State.setLane_frame) (by decide)
    | split
    | dsimp only

theorem prbsWordOp_frame (l w s) : Frame [.lanes] s (prbsWordOp l w s) := by
  unfold prbsWordOp
  repeat' first
    | with_reducible apply Frame.refl
    | with_reducible apply Frame.ite <;> intro _
    | refine Frame.step ?_ (by with_reducible apply testWordIn_frame) (by decide)
    | split
    | dsimp only

theorem testWordOut_frame (l s) : Frame [.lanes, .outbox] s (testWordOut l s) := by
  unfold testWordOut
  repeat' first
    | with_reducible apply Frame.refl
    | with_reducible apply Frame.ite <;> intro _
    | refine Frame.step ?_ (by with_reducible apply State.setLane_frame) (by decide)
    | refine Frame.step ?_ (by with_reducible apply State.send_frame) (by decide)
    | refine Frame.step ?_ (by with_reducible apply testWordIn_frame) (by decide)
    | split
    | dsimp only

theorem laneTick_frame (l s) : Frame [.lanes, .outbox] s (laneTick l s) := by
  unfold laneTick
  repeat' first
    | with_reducible apply Frame.refl
    | with_reducible apply Frame.ite <;> intro _
    | refine Frame.step ?_ (by with_reducible apply testWordOut_frame) (by decide)
    | refine Frame.step ?_ (by with_reducible apply State.setLane_frame) (by decide)
    | with_reducible refine Frame.forRange ?_ (fun _ _ => ?_)
    | split
    | dsimp only

theorem testTick_frame (s) : Frame [.lanes, .outbox] s (testTick s) := by
  unfold testTick
  repeat' first
    | with_reducible apply Frame.refl
    | with_reducible apply Frame.ite <;> intro _
    | refine Frame.step ?_ (by with_reducible apply laneTick_frame) (by decide)
    | with_reducible refine Frame.foldl ?_ (fun _ _ => ?_)
    | with_reducible refine Frame.foldl2 ?_ (fun _ _ => ?_)
    | split
    | dsimp only

theorem pushChunk_frame (i c s) : Frame [.lanes] s (pushChunk i c s) := by
  unfold pushChunk
  repeat' first
    | with_reducible apply Frame.refl
    | with_reducible apply Frame.ite <;> intro _
    | refine Frame.step ?_ (by with_reducible apply State.setIngest_frame) (by decide)
    | split
    | dsimp only

theorem beginHistory_frame (lg t s) : Frame [.filt] s (beginHistory lg t s) := by
  unfold beginHistory
  repeat' first
    | with_reducible apply Frame.refl
    | with_reducible apply Frame.ite <;> intro _
    | refine Frame.step ?_ (by with_reducible apply State.setCond_frame) (by decide)
    | with_reducible refine Frame.forRange ?_ (fun _ _ => ?_)
    | split
    | dsimp only

theorem deliver_frame (lg start f s) : Frame [.lanes, .filt] s (deliver lg start f s) := by
  unfold deliver
  repeat' first
    | with_reducible apply Frame.refl
    | with_reducible apply Frame.ite <;> intro _
    | refine Frame.step ?_ (by with_reducible apply pushChunk_frame) (by decide)
    | refine Frame.step ?_ (by with_reducible apply beginHistory_frame) (by decide)
    | refine Frame.step ?_ (by with_reducible apply State.modLogical_frame) (by decide)
    | with_reducible refine Frame.forRange ?_ (fun _ _ => ?_)
    | split
    | dsimp only

theorem useFrame_frame (l lg f s) : Frame [.so, .lanes, .filt] s (useFrame l lg f s) := by
  unfold useFrame
  repeat' first
    | with_reducible apply Frame.refl
    | with_reducible apply Frame.ite <;> intro _
    | refine Frame.step ?_ (by with_reducible apply State.modLogical_frame) (by decide)
    | refine Frame.step ?_ (by with_reducible apply raiseLim_frame) (by decide)
    | refine Frame.step ?_ (by with_reducible apply deliver_frame) (by decide)
    | split
    | dsimp only

theorem takeFrame_frame (l lg f s) : Frame [.so, .lanes, .filt] s (takeFrame l lg f s) := by
  unfold takeFrame
  repeat' first
    | with_reducible apply Frame.refl
    | with_reducible apply Frame.ite <;> intro _
    | refine Frame.step ?_ (by with_reducible apply useFrame_frame) (by decide)
    | refine Frame.step ?_ (by with_reducible apply State.modLogical_frame) (by decide)
    | split
    | dsimp only

theorem jumpFrame_frame (l lg f s) : Frame [.so, .lanes, .filt] s (jumpFrame l lg f s) := by
  unfold jumpFrame
  repeat' first
    | with_reducible apply Frame.refl
    | with_reducible apply Frame.ite <;> intro _
    | refine Frame.step ?_ (by with_reducible apply raise_frame) (by decide)
    | refine Frame.step ?_ (by with_reducible apply State.modLogical_frame) (by decide)
    | refine Frame.step ?_ (by with_reducible apply useFrame_frame) (by decide)
    | split
    | dsimp only

theorem checkedFrame_frame (l lg f s) : Frame [.so, .lanes, .filt] s (checkedFrame l lg f s) := by
  unfold checkedFrame
  repeat' first
    | with_reducible apply Frame.refl
    | with_reducible apply Frame.ite <;> intro _
    | refine Frame.step ?_ (by with_reducible apply takeFrame_frame) (by decide)
    | refine Frame.step ?_ (by with_reducible apply jumpFrame_frame) (by decide)
    | split
    | dsimp only

theorem crcFailed_frame (l s) : Frame [.so, .lanes] s (crcFailed l s) := by
  unfold crcFailed
  repeat' first
    | with_reducible apply Frame.refl
    | with_reducible apply Frame.ite <;> intro _
    | refine Frame.step ?_ (by with_reducible apply State.setLane_frame) (by decide)
    | refine Frame.step ?_ (by with_reducible apply ingestFailed_frame) (by decide)
    | split
    | dsimp only

theorem servedFrame_frame (l lg f s) : Frame [.so, .lanes, .filt] s (servedFrame l lg f s) := by
  unfold servedFrame
  repeat' first
    | with_reducible apply Frame.refl
    | with_reducible apply Frame.ite <;> intro _
    | refine Frame.step ?_ (by with_reducible apply crcReached_frame) (by decide)
    | refine Frame.pair22 (by assumption) ?_ (by with_reducible apply crcReached_frame) (by decide)
    | refine Frame.step ?_ (by with_reducible apply raiseLimT_frame) (by decide)
    | refine Frame.step ?_ (by with_reducible apply countCode_frame) (by decide)
    | refine Frame.step ?_ (by with_reducible apply raise_frame) (by decide)
    | refine Frame.step ?_ (by with_reducible apply State.modLogical_frame) (by decide)
    | refine Frame.step ?_ (by with_reducible apply crcFailed_frame) (by decide)
    | refine Frame.step ?_ (by with_reducible apply State.modLane_frame) (by decide)
    | refine Frame.step ?_ (by with_reducible apply jumpFrame_frame) (by decide)
    | refine Frame.step ?_ (by with_reducible apply takeFrame_frame) (by decide)
    | split
    | dsimp only

theorem spareTakes_frame (l lg f s) : Frame [.so, .lanes, .filt] s (spareTakes l lg f s) := by
  unfold spareTakes
  repeat' first
    | with_reducible apply Frame.refl
    | with_reducible apply Frame.ite <;> intro _
    | refine Frame.step ?_ (by with_reducible apply State.modLane_frame) (by decide)
    | refine Frame.step ?_ (by with_reducible apply checkedFrame_frame) (by decide)
    | refine Frame.step ?_ (by with_reducible apply raise_frame) (by decide)
    | refine Frame.step ?_ (by with_reducible apply State.modLogical_frame) (by decide)
    | split
    | dsimp only

theorem homeTakes_frame (l f s) : Frame [.so, .lanes, .filt] s (homeTakes l f s) := by
  unfold homeTakes
  repeat' first
    | with_reducible apply Frame.refl
    | with_reducible apply Frame.ite <;> intro _
    | refine Frame.step ?_ (by with_reducible apply State.modLane_frame) (by decide)
    | refine Frame.step ?_ (by with_reducible apply checkedFrame_frame) (by decide)
    | refine Frame.step ?_ (by with_reducible apply State.modLogical_frame) (by decide)
    | split
    | dsimp only

theorem linkFrame_frame (l f s) : Frame [.so, .lanes, .filt] s (linkFrame l f s) := by
  unfold linkFrame
  repeat' first
    | with_reducible apply Frame.refl
    | with_reducible apply Frame.ite <;> intro _
    | refine Frame.step ?_ (by with_reducible apply countCode_frame) (by decide)
    | refine Frame.step ?_ (by with_reducible apply servedFrame_frame) (by decide)
    | refine Frame.step ?_ (by with_reducible apply homeTakes_frame) (by decide)
    | refine Frame.step ?_ (by with_reducible apply spareTakes_frame) (by decide)
    | split
    | dsimp only

theorem genChange_frame (l old s) : Frame [.so, .lanes] s (genChange l old s) := by
  unfold genChange
  repeat' first
    | with_reducible apply Frame.refl
    | with_reducible apply Frame.ite <;> intro _
    | refine Frame.step ?_ (by with_reducible apply State.setLane_frame) (by decide)
    | refine Frame.step ?_ (by with_reducible apply abandonLeave_frame) (by decide)
    | split
    | dsimp only

theorem laneReset_frame (l s) : Frame [.so, .lanes] s (laneReset l s) := by
  unfold laneReset
  repeat' first
    | with_reducible apply Frame.refl
    | with_reducible apply Frame.ite <;> intro _
    | refine Frame.step ?_ (by with_reducible apply State.setLane_frame) (by decide)
    | refine Frame.step ?_ (by with_reducible apply abandonLeave_frame) (by decide)
    | split
    | dsimp only

end Sys2Proof.Machine
end

