-- ==== Sys2Proof/Laws/FrameConditioning.lean ====
section
/-! SUPPORT. What each operation of Machine/Conditioning.lean may change. -/

set_option Elab.async false

namespace Sys2Proof.Machine

open Sys2Proof

theorem spikeBlock_frame (i c s) : Frame [.so, .filt] s (spikeBlock i c s) := by
  unfold spikeBlock
  repeat' first
    | with_reducible apply Frame.refl
    | with_reducible apply Frame.ite <;> intro _
    | refine Frame.step ?_ (by with_reducible apply State.setCond_frame) (by decide)
    | refine Frame.step ?_ (by with_reducible apply raise_frame) (by decide)
    | split
    | dsimp only

theorem spikeAdvance_frame (i p y2 s) : Frame [.so, .filt] s (spikeAdvance i p y2 s) := by
  induction y2 generalizing s with
  | nil => exact Frame.refl _ _
  | cons x r ih =>
    unfold spikeAdvance
    repeat' first
    | with_reducible apply Frame.refl
    | refine Frame.step ?_ (by with_reducible apply ih) (by decide)
    | with_reducible apply Frame.ite <;> intro _
    | refine Frame.step ?_ (by with_reducible apply spikeBlock_frame) (by decide)
    | refine Frame.step ?_ (by with_reducible apply State.setCond_frame) (by decide)
    | split
    | dsimp only

theorem sampleCheck_frame (i x s) : Frame [.so, .filt] s (sampleCheck i x s).2 := by
  unfold sampleCheck
  repeat' first
    | with_reducible apply Frame.refl
    | with_reducible apply Frame.ite <;> intro _
    | with_reducible apply Frame.ite2 <;> intro _
    | refine Frame.step ?_ (by with_reducible apply raise_frame) (by decide)
    | refine Frame.step ?_ (by with_reducible apply State.setCond_frame) (by decide)
    | split
    | dsimp only

theorem sampleTake_frame (i p x s) : Frame [.so, .filt] s (sampleTake i p x s) := by
  unfold sampleTake
  repeat' first
    | with_reducible apply Frame.refl
    | with_reducible apply Frame.ite <;> intro _
    | refine Frame.step ?_ (by with_reducible apply spikeAdvance_frame) (by decide)
    | refine Frame.step ?_ (by with_reducible apply State.setCond_frame) (by decide)
    | split
    | dsimp only

theorem sampleIn_frame (i p x s) : Frame [.so, .filt] s (sampleIn i p x s) := by
  unfold sampleIn
  repeat' first
    | with_reducible apply Frame.refl
    | with_reducible apply Frame.ite <;> intro _
    | refine Frame.step ?_ (by with_reducible apply sampleCheck_frame) (by decide)
    | refine Frame.pair2 (by assumption) ?_ (by with_reducible apply sampleCheck_frame) (by decide)
    | refine Frame.step ?_ (by with_reducible apply sampleTake_frame) (by decide)
    | split
    | dsimp only

theorem delayRecordOp_frame (i r s) : Frame [.so, .filt] s (delayRecordOp i r s) := by
  unfold delayRecordOp
  repeat' first
    | with_reducible apply Frame.refl
    | with_reducible apply Frame.ite <;> intro _
    | refine Frame.step ?_ (by with_reducible apply raise_frame) (by decide)
    | refine Frame.step ?_ (by with_reducible apply State.setCond_frame) (by decide)
    | split
    | dsimp only

theorem rangeCard_frame (e i hit s) : Frame [.so, .filt] s (rangeCard e i hit s) := by
  unfold rangeCard
  repeat' first
    | with_reducible apply Frame.refl
    | with_reducible apply Frame.ite <;> intro _
    | refine Frame.step ?_ (by with_reducible apply raise_frame) (by decide)
    | refine Frame.step ?_ (by with_reducible apply State.setCond_frame) (by decide)
    | split
    | dsimp only

theorem delayCommit_frame (i x s) : Frame [.filt] s (delayCommit i x s) := by
  unfold delayCommit
  repeat' first
    | with_reducible apply Frame.refl
    | with_reducible apply Frame.ite <;> intro _
    | refine Frame.step ?_ (by with_reducible apply State.setCond_frame) (by decide)
    | split
    | dsimp only

theorem delaySwitch_frame (i x s) : Frame [.so, .filt] s (delaySwitch i x s) := by
  unfold delaySwitch
  repeat' first
    | with_reducible apply Frame.refl
    | with_reducible apply Frame.ite <;> intro _
    | refine Frame.step ?_ (by with_reducible apply State.setCond_frame) (by decide)
    | refine Frame.step ?_ (by with_reducible apply raise_frame) (by decide)
    | refine Frame.step ?_ (by with_reducible apply rangeCard_frame) (by decide)
    | split
    | dsimp only

theorem delayStale_frame (i x s) : Frame [.so, .filt] s (delayStale i x s) := by
  unfold delayStale
  repeat' first
    | with_reducible apply Frame.refl
    | with_reducible apply Frame.ite <;> intro _
    | refine Frame.step ?_ (by with_reducible apply raise_frame) (by decide)
    | refine Frame.step ?_ (by with_reducible apply State.setCond_frame) (by decide)
    | split
    | dsimp only

theorem frameStartOp_frame (i x s) : Frame [.so, .filt] s (frameStartOp i x s) := by
  unfold frameStartOp
  repeat' first
    | with_reducible apply Frame.refl
    | with_reducible apply Frame.ite <;> intro _
    | refine Frame.step ?_ (by with_reducible apply delayStale_frame) (by decide)
    | refine Frame.step ?_ (by with_reducible apply delaySwitch_frame) (by decide)
    | refine Frame.step ?_ (by with_reducible apply delayCommit_frame) (by decide)
    | refine Frame.step ?_ (by with_reducible apply rangeCard_frame) (by decide)
    | refine Frame.step ?_ (by with_reducible apply State.setCond_frame) (by decide)
    | split
    | dsimp only

theorem produce_frame (i u e s) : Frame [.so, .filt, .fresh] s (produce i u e s) := by
  unfold produce
  repeat' first
    | with_reducible apply Frame.refl
    | with_reducible apply Frame.ite <;> intro _
    | refine Frame.step ?_ (by with_reducible apply eccCheck_frame) (by decide)
    | refine Frame.pair22 (by assumption) ?_ (by with_reducible apply eccCheck_frame) (by decide)
    | refine Frame.step ?_ (by with_reducible apply raiseT_frame) (by decide)
    | refine Frame.step ?_ (by with_reducible apply State.setEng_frame) (by decide)
    | refine Frame.step ?_ (by with_reducible apply State.setCond_frame) (by decide)
    | with_reducible refine Frame.foldl ?_ (fun _ _ => ?_)
    | with_reducible refine Frame.foldl2 ?_ (fun _ _ => ?_)
    | split
    | dsimp only

theorem delayOutputOp_frame (i u e s) : Frame [.so, .filt, .fresh] s (delayOutputOp i u e s) := by
  unfold delayOutputOp
  repeat' first
    | with_reducible apply Frame.refl
    | with_reducible apply Frame.ite <;> intro _
    | refine Frame.step ?_ (by with_reducible apply produce_frame) (by decide)
    | refine Frame.step ?_ (by with_reducible apply frameStartOp_frame) (by decide)
    | split
    | dsimp only

theorem clearInput_frame (i s) : Frame [.filt] s (clearInput i s) := by
  unfold clearInput
  repeat' first
    | with_reducible apply Frame.refl
    | with_reducible apply Frame.ite <;> intro _
    | refine Frame.step ?_ (by with_reducible apply State.setGain_frame) (by decide)
    | refine Frame.step ?_ (by with_reducible apply State.setCond_frame) (by decide)
    | split
    | dsimp only

theorem clearEngineEcc_frame (e s) : Frame [.filt] s (clearEngineEcc e s) := by
  unfold clearEngineEcc
  repeat' first
    | with_reducible apply Frame.refl
    | with_reducible apply Frame.ite <;> intro _
    | refine Frame.step ?_ (by with_reducible apply State.setEng_frame) (by decide)
    | split
    | dsimp only

theorem conditioningClearOp_frame (v s) : Frame [.filt] s (conditioningClearOp v s) := by
  unfold conditioningClearOp
  repeat' first
    | with_reducible apply Frame.refl
    | with_reducible apply Frame.ite <;> intro _
    | refine Frame.step ?_ (by with_reducible apply clearInput_frame) (by decide)
    | refine Frame.step ?_ (by with_reducible apply clearEngineEcc_frame) (by decide)
    | with_reducible refine Frame.forRange ?_ (fun _ _ => ?_)
    | split
    | dsimp only

theorem condSync_frame (i p s) : Frame [.filt] s (condSync i p s) := by
  unfold condSync
  repeat' first
    | with_reducible apply Frame.refl
    | with_reducible apply Frame.ite <;> intro _
    | refine Frame.step ?_ (by with_reducible apply State.setCond_frame) (by decide)
    | split
    | dsimp only

theorem condReset_frame (i s) : Frame [.filt] s (condReset i s) := by
  unfold condReset
  repeat' first
    | with_reducible apply Frame.refl
    | with_reducible apply Frame.ite <;> intro _
    | refine Frame.step ?_ (by with_reducible apply State.setCond_frame) (by decide)
    | split
    | dsimp only

end Sys2Proof.Machine
end

