-- ==== Sys2Proof/Laws/FrameEnclave.lean ====
section
/-! SUPPORT. What each operation of Machine/Enclave.lean may change. -/

set_option Elab.async false

namespace Sys2Proof.Machine

open Sys2Proof

theorem State.setEncl_frame (s e) : Frame [.encl] s (State.setEncl s e) := by
  refine ⟨fun p hp => ?_⟩; cases p <;> first | rfl | exact absurd (by decide) hp

theorem enclCard_frame (k s) : Frame [.so] s (enclCard k s) := by
  unfold enclCard
  repeat' first
    | with_reducible apply Frame.refl
    | with_reducible apply Frame.ite <;> intro _
    | refine Frame.step ?_ (by with_reducible apply raise_frame) (by decide)
    | split
    | dsimp only

theorem auditLog_frame (event detail s) : Frame [.so, .encl] s (auditLog event detail s) := by
  unfold auditLog
  repeat' first
    | with_reducible apply Frame.refl
    | with_reducible apply Frame.ite <;> intro _
    | refine Frame.step ?_ (by with_reducible apply State.setEncl_frame) (by decide)
    | refine Frame.step ?_ (by with_reducible apply enclCard_frame) (by decide)
    | split
    | dsimp only

theorem startSealing_frame (s) : Frame [.dict, .encl] s (startSealing s) := by
  unfold startSealing
  repeat' first
    | with_reducible apply Frame.refl
    | with_reducible apply Frame.ite <;> intro _
    | refine Frame.step ?_ (by with_reducible apply State.setEncl_frame) (by decide)
    | refine Frame.step ?_ (by with_reducible apply Frame.with_dict) (by decide)
    | refine Frame.step ?_ (by with_reducible apply Frame.with_encl) (by decide)
    | split
    | dsimp only

theorem startUnsealing_frame (s) : Frame [.so, .encl] s (startUnsealing s) := by
  unfold startUnsealing
  repeat' first
    | with_reducible apply Frame.refl
    | with_reducible apply Frame.ite <;> intro _
    | refine Frame.step ?_ (by with_reducible apply State.setEncl_frame) (by decide)
    | refine Frame.step ?_ (by with_reducible apply enclCard_frame) (by decide)
    | refine Frame.step ?_ (by with_reducible apply auditLog_frame) (by decide)
    | split
    | dsimp only

theorem compareLevel_frame (s) : Frame [.so, .dict, .encl] s (compareLevel s) := by
  unfold compareLevel
  repeat' first
    | with_reducible apply Frame.refl
    | with_reducible apply Frame.ite <;> intro _
    | refine Frame.step ?_ (by with_reducible apply startUnsealing_frame) (by decide)
    | refine Frame.step ?_ (by with_reducible apply startSealing_frame) (by decide)
    | split
    | dsimp only

theorem sealAsserted_frame (s) : Frame [.so, .dict, .encl] s (sealAsserted s) := by
  unfold sealAsserted
  repeat' first
    | with_reducible apply Frame.refl
    | with_reducible apply Frame.ite <;> intro _
    | refine Frame.step ?_ (by with_reducible apply compareLevel_frame) (by decide)
    | refine Frame.step ?_ (by with_reducible apply State.setEncl_frame) (by decide)
    | split
    | dsimp only

theorem sealDeasserted_frame (s) : Frame [.so, .dict, .encl] s (sealDeasserted s) := by
  unfold sealDeasserted
  repeat' first
    | with_reducible apply Frame.refl
    | with_reducible apply Frame.ite <;> intro _
    | refine Frame.step ?_ (by with_reducible apply compareLevel_frame) (by decide)
    | refine Frame.step ?_ (by with_reducible apply State.setEncl_frame) (by decide)
    | split
    | dsimp only

theorem fuseOp_frame (ok s) : Frame [.so, .dict, .encl] s (fuseOp ok s) := by
  unfold fuseOp
  repeat' first
    | with_reducible apply Frame.refl
    | with_reducible apply Frame.ite <;> intro _
    | refine Frame.step ?_ (by with_reducible apply auditLog_frame) (by decide)
    | refine Frame.step ?_ (by with_reducible apply compareLevel_frame) (by decide)
    | refine Frame.step ?_ (by with_reducible apply enclCard_frame) (by decide)
    | refine Frame.step ?_ (by with_reducible apply State.setEncl_frame) (by decide)
    | split
    | dsimp only

theorem copyC1Op_frame (s) : Frame [.so, .encl] s (copyC1Op s) := by
  unfold copyC1Op
  repeat' first
    | with_reducible apply Frame.refl
    | with_reducible apply Frame.ite <;> intro _
    | refine Frame.step ?_ (by with_reducible apply State.setEncl_frame) (by decide)
    | refine Frame.step ?_ (by with_reducible apply auditLog_frame) (by decide)
    | refine Frame.step ?_ (by with_reducible apply enclCard_frame) (by decide)
    | split
    | dsimp only

theorem copyC2Op_frame (s) : Frame [.so, .dict, .encl] s (copyC2Op s) := by
  unfold copyC2Op
  repeat' first
    | with_reducible apply Frame.refl
    | with_reducible apply Frame.ite <;> intro _
    | refine Frame.step ?_ (by with_reducible apply compareLevel_frame) (by decide)
    | refine Frame.step ?_ (by with_reducible apply enclCard_frame) (by decide)
    | refine Frame.step ?_ (by with_reducible apply State.setEncl_frame) (by decide)
    | split
    | dsimp only

theorem csRefused_frame (idx sub s) : Frame [.so, .encl] s (csRefused idx sub s) := by
  unfold csRefused
  repeat' first
    | with_reducible apply Frame.refl
    | with_reducible apply Frame.ite <;> intro _
    | refine Frame.step ?_ (by with_reducible apply State.setEncl_frame) (by decide)
    | refine Frame.step ?_ (by with_reducible apply auditLog_frame) (by decide)
    | refine Frame.step ?_ (by with_reducible apply raiseLim_frame) (by decide)
    | split
    | dsimp only

theorem csStore_frame (k off b s) : Frame [.encl] s (csStore k off b s) := by
  unfold csStore
  repeat' first
    | with_reducible apply Frame.refl
    | with_reducible apply Frame.ite <;> intro _
    | refine Frame.step ?_ (by with_reducible apply State.setEncl_frame) (by decide)
    | split
    | dsimp only

theorem nvBytes_frame (y0 s) : Frame [.fresh] s (nvBytes y0 s).2 := by
  induction y0 generalizing s with
  | zero => exact Frame.refl _ _
  | succ n ih =>
    unfold nvBytes
    repeat' first
    | with_reducible apply Frame.refl
    | refine Frame.step ?_ (by with_reducible apply ih) (by decide)
    | refine Frame.pair2 (by assumption) ?_ (by with_reducible apply ih) (by decide)
    | with_reducible apply Frame.ite <;> intro _
    | with_reducible apply Frame.ite2 <;> intro _
    | refine Frame.step ?_ (by with_reducible apply State.draw_frame) (by decide)
    | refine Frame.pair2 (by assumption) ?_ (by with_reducible apply State.draw_frame) (by decide)
    | split
    | dsimp only

theorem nvRead_frame (b e s) : Frame [.so, .fresh] s (nvRead b e s).2 := by
  unfold nvRead
  repeat' first
    | with_reducible apply Frame.refl
    | with_reducible apply Frame.ite <;> intro _
    | with_reducible apply Frame.ite2 <;> intro _
    | refine Frame.step ?_ (by with_reducible apply enclCard_frame) (by decide)
    | refine Frame.step ?_ (by with_reducible apply nvBytes_frame) (by decide)
    | refine Frame.pair2 (by assumption) ?_ (by with_reducible apply nvBytes_frame) (by decide)
    | split
    | dsimp only

theorem certCheck_frame (k e s) : Frame [.so, .encl] s (certCheck k e s) := by
  unfold certCheck
  repeat' first
    | with_reducible apply Frame.refl
    | with_reducible apply Frame.ite <;> intro _
    | refine Frame.step ?_ (by with_reducible apply enclCard_frame) (by decide)
    | refine Frame.step ?_ (by with_reducible apply State.setEncl_frame) (by decide)
    | split
    | dsimp only

theorem csRead_frame (k active e s) : Frame [.so, .encl, .fresh] s (csRead k active e s).2 := by
  unfold csRead
  repeat' first
    | with_reducible apply Frame.refl
    | with_reducible apply Frame.ite <;> intro _
    | with_reducible apply Frame.ite2 <;> intro _
    | refine Frame.step ?_ (by with_reducible apply nvRead_frame) (by decide)
    | refine Frame.pair2 (by assumption) ?_ (by with_reducible apply nvRead_frame) (by decide)
    | refine Frame.step ?_ (by with_reducible apply certCheck_frame) (by decide)
    | split
    | dsimp only

end Sys2Proof.Machine
end

