-- ==== Sys2Proof/Laws/FrameChanneliser.lean ====
section
/-! SUPPORT. What each operation of Machine/Channeliser.lean may change. -/

set_option Elab.async false

namespace Sys2Proof.Machine

open Sys2Proof

theorem State.noteApplied_frame (s n p k) : Frame [.dict] s (State.noteApplied s n p k) := by
  unfold State.noteApplied
  repeat' first
    | with_reducible apply Frame.refl
    | with_reducible apply Frame.ite <;> intro _
    | refine Frame.step ?_ (by with_reducible apply State.modBlk_frame) (by decide)
    | split
    | dsimp only

theorem State.noteUnit_frame (s n t) : Frame [.dict] s (State.noteUnit s n t) := by
  unfold State.noteUnit
  repeat' first
    | with_reducible apply Frame.refl
    | with_reducible apply Frame.ite <;> intro _
    | refine Frame.step ?_ (by with_reducible apply State.modBlk_frame) (by decide)
    | split
    | dsimp only

theorem State.putEng_frame (s e v) : Frame [.filt, .dict] s (State.putEng s e v) := by
  unfold State.putEng
  repeat' first
    | with_reducible apply Frame.refl
    | with_reducible apply Frame.ite <;> intro _
    | refine Frame.step ?_ (by with_reducible apply State.modBlk_frame) (by decide)
    | refine Frame.step ?_ (by with_reducible apply State.setEng_frame) (by decide)
    | split
    | dsimp only

theorem bankImageOp_frame (e b seg last s) : Frame [.so, .filt, .dict] s (bankImageOp e b seg last s) := by
  unfold bankImageOp
  repeat' first
    | with_reducible apply Frame.refl
    | with_reducible apply Frame.ite <;> intro _
    | refine Frame.step ?_ (by with_reducible apply State.putEng_frame) (by decide)
    | refine Frame.step ?_ (by with_reducible apply raise_frame) (by decide)
    | split
    | dsimp only

theorem bankAbandon_frame (e b s) : Frame [.so, .filt, .dict] s (bankAbandon e b s) := by
  unfold bankAbandon
  repeat' first
    | with_reducible apply Frame.refl
    | with_reducible apply Frame.ite <;> intro _
    | refine Frame.step ?_ (by with_reducible apply State.putEng_frame) (by decide)
    | refine Frame.step ?_ (by with_reducible apply raise_frame) (by decide)
    | split
    | dsimp only

theorem bankLoadRomOp_frame (e w s) : Frame [.so, .filt, .dict] s (bankLoadRomOp e w s) := by
  unfold bankLoadRomOp
  repeat' first
    | with_reducible apply Frame.refl
    | with_reducible apply Frame.ite <;> intro _
    | refine Frame.step ?_ (by with_reducible apply raise_frame) (by decide)
    | refine Frame.step ?_ (by with_reducible apply State.putEng_frame) (by decide)
    | split
    | dsimp only

theorem romCheck_frame (w ecc s) : Frame [.so, .encl] s (romCheck w ecc s) := by
  unfold romCheck
  repeat' first
    | with_reducible apply Frame.refl
    | with_reducible apply Frame.ite <;> intro _
    | refine Frame.step ?_ (by with_reducible apply certCheck_frame) (by decide)
    | split
    | dsimp only

theorem applySwap_frame (e x r s) : Frame [.so, .filt, .dict] s (applySwap e x r s) := by
  unfold applySwap
  repeat' first
    | with_reducible apply Frame.refl
    | with_reducible apply Frame.ite <;> intro _
    | refine Frame.step ?_ (by with_reducible apply raise_frame) (by decide)
    | refine Frame.step ?_ (by with_reducible apply State.putEng_frame) (by decide)
    | split
    | dsimp only

theorem swapAt_frame (e r s) : Frame [.so, .filt, .dict] s (swapAt e r s) := by
  unfold swapAt
  repeat' first
    | with_reducible apply Frame.refl
    | with_reducible apply Frame.ite <;> intro _
    | refine Frame.step ?_ (by with_reducible apply State.putEng_frame) (by decide)
    | refine Frame.step ?_ (by with_reducible apply raise_frame) (by decide)
    | split
    | dsimp only

theorem swapRequestOp_frame (r s) : Frame [.so, .filt, .dict] s (swapRequestOp r s) := by
  unfold swapRequestOp
  repeat' first
    | with_reducible apply Frame.refl
    | with_reducible apply Frame.ite <;> intro _
    | refine Frame.step ?_ (by with_reducible apply swapAt_frame) (by decide)
    | with_reducible refine Frame.forRange ?_ (fun _ _ => ?_)
    | split
    | dsimp only

theorem gainCommit_frame (p i s) : Frame [.so, .filt] s (gainCommit p i s) := by
  unfold gainCommit
  repeat' first
    | with_reducible apply Frame.refl
    | with_reducible apply Frame.ite <;> intro _
    | refine Frame.step ?_ (by with_reducible apply raise_frame) (by decide)
    | refine Frame.step ?_ (by with_reducible apply State.setGain_frame) (by decide)
    | split
    | dsimp only

theorem plainRestart_frame (n d p e s) : Frame [.so, .filt, .dict] s (plainRestart n d p e s) := by
  unfold plainRestart
  repeat' first
    | with_reducible apply Frame.refl
    | with_reducible apply Frame.ite <;> intro _
    | refine Frame.step ?_ (by with_reducible apply State.putEng_frame) (by decide)
    | refine Frame.step ?_ (by with_reducible apply raise_frame) (by decide)
    | refine Frame.step ?_ (by with_reducible apply State.setGain_frame) (by decide)
    | with_reducible refine Frame.forRange ?_ (fun _ _ => ?_)
    | split
    | dsimp only

theorem gainCut_frame (i x s) : Frame [.so, .filt] s (gainCut i x s) := by
  unfold gainCut
  repeat' first
    | with_reducible apply Frame.refl
    | with_reducible apply Frame.ite <;> intro _
    | refine Frame.step ?_ (by with_reducible apply gainCommit_frame) (by decide)
    | split
    | dsimp only

theorem engineCommit_frame (e p old new s) : Frame [.so, .filt, .dict] s (engineCommit e p old new s) := by
  unfold engineCommit
  repeat' first
    | with_reducible apply Frame.refl
    | with_reducible apply Frame.ite <;> intro _
    | refine Frame.step ?_ (by with_reducible apply plainRestart_frame) (by decide)
    | refine Frame.step ?_ (by with_reducible apply State.putEng_frame) (by decide)
    | refine Frame.step ?_ (by with_reducible apply State.setGain_frame) (by decide)
    | with_reducible refine Frame.forRange ?_ (fun _ _ => ?_)
    | split
    | dsimp only

theorem engineApply_frame (e t s) : Frame [.so, .filt, .dict] s (engineApply e t s) := by
  unfold engineApply
  repeat' first
    | with_reducible apply Frame.refl
    | with_reducible apply Frame.ite <;> intro _
    | refine Frame.step ?_ (by with_reducible apply State.noteUnit_frame) (by decide)
    | refine Frame.step ?_ (by with_reducible apply engineCommit_frame) (by decide)
    | refine Frame.step ?_ (by with_reducible apply State.noteApplied_frame) (by decide)
    | split
    | dsimp only

theorem coefError_frame (e x b err test addr s) : Frame [.so, .filt, .dict] s (coefError e x b err test addr s) := by
  unfold coefError
  repeat' first
    | with_reducible apply Frame.refl
    | with_reducible apply Frame.ite <;> intro _
    | refine Frame.step ?_ (by with_reducible apply raiseT_frame) (by decide)
    | refine Frame.step ?_ (by with_reducible apply State.putEng_frame) (by decide)
    | split
    | dsimp only

theorem swapFrame_frame (e x s) : Frame [.so, .filt, .dict] s (swapFrame e x s) := by
  unfold swapFrame
  repeat' first
    | with_reducible apply Frame.refl
    | with_reducible apply Frame.ite <;> intro _
    | refine Frame.step ?_ (by with_reducible apply State.putEng_frame) (by decide)
    | refine Frame.step ?_ (by with_reducible apply applySwap_frame) (by decide)
    | split
    | dsimp only

theorem decideFrame_frame (e x s) : Frame [.filt, .dict] s (decideFrame e x s) := by
  unfold decideFrame
  repeat' first
    | with_reducible apply Frame.refl
    | with_reducible apply Frame.ite <;> intro _
    | refine Frame.step ?_ (by with_reducible apply State.putEng_frame) (by decide)
    | split
    | dsimp only

theorem wrongCoef_frame (e addr b o s) : Frame [.filt, .dict] s (wrongCoef e addr b o s) := by
  unfold wrongCoef
  repeat' first
    | with_reducible apply Frame.refl
    | with_reducible apply Frame.ite <;> intro _
    | refine Frame.step ?_ (by with_reducible apply State.putEng_frame) (by decide)
    | split
    | dsimp only

theorem recoverNow_frame (e x b s) : Frame [.filt, .dict] s (recoverNow e x b s) := by
  unfold recoverNow
  repeat' first
    | with_reducible apply Frame.refl
    | with_reducible apply Frame.ite <;> intro _
    | refine Frame.step ?_ (by with_reducible apply State.putEng_frame) (by decide)
    | split
    | dsimp only

theorem recoverOp_frame (e come s) : Frame [.filt, .dict] s (recoverOp e come s) := by
  unfold recoverOp
  repeat' first
    | with_reducible apply Frame.refl
    | with_reducible apply Frame.ite <;> intro _
    | refine Frame.step ?_ (by with_reducible apply recoverNow_frame) (by decide)
    | split
    | dsimp only

theorem syncNow_frame (e p s) : Frame [.so, .filt, .dict] s (syncNow e p s) := by
  unfold syncNow
  repeat' first
    | with_reducible apply Frame.refl
    | with_reducible apply Frame.ite <;> intro _
    | refine Frame.step ?_ (by with_reducible apply State.putEng_frame) (by decide)
    | refine Frame.step ?_ (by with_reducible apply applySwap_frame) (by decide)
    | refine Frame.step ?_ (by with_reducible apply condSync_frame) (by decide)
    | with_reducible refine Frame.forRange ?_ (fun _ _ => ?_)
    | split
    | dsimp only

theorem syncApply_frame (e come s) : Frame [.so, .filt, .dict] s (syncApply e come s) := by
  unfold syncApply
  repeat' first
    | with_reducible apply Frame.refl
    | with_reducible apply Frame.ite <;> intro _
    | refine Frame.step ?_ (by with_reducible apply syncNow_frame) (by decide)
    | split
    | dsimp only

theorem engineFrame_frame (e x eccA eccB addr s) : Frame [.so, .filt, .dict, .fresh] s (engineFrame e x eccA eccB addr s) := by
  unfold engineFrame
  repeat' first
    | with_reducible apply Frame.refl
    | with_reducible apply Frame.ite <;> intro _
    | refine Frame.step ?_ (by with_reducible apply engineApply_frame) (by decide)
    | refine Frame.step ?_ (by with_reducible apply syncApply_frame) (by decide)
    | refine Frame.step ?_ (by with_reducible apply recoverOp_frame) (by decide)
    | refine Frame.step ?_ (by with_reducible apply eccCheck_frame) (by decide)
    | refine Frame.pair22 (by assumption) ?_ (by with_reducible apply eccCheck_frame) (by decide)
    | refine Frame.step ?_ (by with_reducible apply coefError_frame) (by decide)
    | refine Frame.step ?_ (by with_reducible apply wrongCoef_frame) (by decide)
    | refine Frame.step ?_ (by with_reducible apply decideFrame_frame) (by decide)
    | refine Frame.step ?_ (by with_reducible apply swapFrame_frame) (by decide)
    | with_reducible refine Frame.forRange ?_ (fun _ _ => ?_)
    | split
    | dsimp only

theorem syncResetOp_frame (mask p s) : Frame [.filt, .dict] s (syncResetOp mask p s) := by
  unfold syncResetOp
  repeat' first
    | with_reducible apply Frame.refl
    | with_reducible apply Frame.ite <;> intro _
    | refine Frame.step ?_ (by with_reducible apply State.putEng_frame) (by decide)
    | with_reducible refine Frame.forRange ?_ (fun _ _ => ?_)
    | split
    | dsimp only

theorem gainTableOp_frame (i eff first seq ws s) : Frame [.so, .filt] s (gainTableOp i eff first seq ws s) := by
  unfold gainTableOp
  repeat' first
    | with_reducible apply Frame.refl
    | with_reducible apply Frame.ite <;> intro _
    | refine Frame.step ?_ (by with_reducible apply raise_frame) (by decide)
    | refine Frame.step ?_ (by with_reducible apply State.setGain_frame) (by decide)
    | split
    | dsimp only

theorem gainSwitch_frame (i x s) : Frame [.so, .filt] s (gainSwitch i x s) := by
  unfold gainSwitch
  repeat' first
    | with_reducible apply Frame.refl
    | with_reducible apply Frame.ite <;> intro _
    | refine Frame.step ?_ (by with_reducible apply State.setGain_frame) (by decide)
    | refine Frame.step ?_ (by with_reducible apply raise_frame) (by decide)
    | split
    | dsimp only

theorem emitWord_frame (i n x w s) : Frame [.filt] s (emitWord i n x w s) := by
  unfold emitWord
  repeat' first
    | with_reducible apply Frame.refl
    | with_reducible apply Frame.ite <;> intro _
    | refine Frame.step ?_ (by with_reducible apply Frame.with_filt) (by decide)
    | split
    | dsimp only

theorem satBlock_frame (i x s) : Frame [.so, .filt] s (satBlock i x s) := by
  unfold satBlock
  repeat' first
    | with_reducible apply Frame.refl
    | with_reducible apply Frame.ite <;> intro _
    | refine Frame.step ?_ (by with_reducible apply State.setGain_frame) (by decide)
    | refine Frame.step ?_ (by with_reducible apply raise_frame) (by decide)
    | split
    | dsimp only

theorem channelSample_frame (i n x s) : Frame [.so, .filt] s (channelSample i n x s) := by
  unfold channelSample
  repeat' first
    | with_reducible apply Frame.refl
    | with_reducible apply Frame.ite <;> intro _
    | refine Frame.step ?_ (by with_reducible apply gainSwitch_frame) (by decide)
    | refine Frame.step ?_ (by with_reducible apply gainCut_frame) (by decide)
    | refine Frame.step ?_ (by with_reducible apply satBlock_frame) (by decide)
    | refine Frame.step ?_ (by with_reducible apply emitWord_frame) (by decide)
    | refine Frame.step ?_ (by with_reducible apply State.setGain_frame) (by decide)
    | split
    | dsimp only

theorem inputBlock_frame (t i s) : Frame [.so, .filt] s (inputBlock t i s) := by
  unfold inputBlock
  repeat' first
    | with_reducible apply Frame.refl
    | with_reducible apply Frame.ite <;> intro _
    | refine Frame.step ?_ (by with_reducible apply satBlock_frame) (by decide)
    | refine Frame.step ?_ (by with_reducible apply spikeBlock_frame) (by decide)
    | split
    | dsimp only

theorem engineReset_frame (e s) : Frame [.filt, .dict] s (engineReset e s) := by
  unfold engineReset
  repeat' first
    | with_reducible apply Frame.refl
    | with_reducible apply Frame.ite <;> intro _
    | refine Frame.step ?_ (by with_reducible apply State.putEng_frame) (by decide)
    | refine Frame.step ?_ (by with_reducible apply State.setGain_frame) (by decide)
    | refine Frame.step ?_ (by with_reducible apply condReset_frame) (by decide)
    | with_reducible refine Frame.forRange ?_ (fun _ _ => ?_)
    | split
    | dsimp only

end Sys2Proof.Machine
end

