-- ==== Sys2Proof/Laws/FrameTimeBases.lean ====
section
/-! SUPPORT. What each operation of Machine/TimeBases.lean may change. -/

set_option Elab.async false

namespace Sys2Proof.Machine

open Sys2Proof

theorem State.setTime_frame (s t) : Frame [.time] s (State.setTime s t) := by
  refine ⟨fun p hp => ?_⟩; cases p <;> first | rfl | exact absurd (by decide) hp

theorem pmAlignOp_frame (seconds epoch force s) : Frame [.time] s (pmAlignOp seconds epoch force s) := by
  unfold pmAlignOp
  repeat' first
    | with_reducible apply Frame.refl
    | with_reducible apply Frame.ite <;> intro _
    | refine Frame.step ?_ (by with_reducible apply State.setTime_frame) (by decide)
    | split
    | dsimp only

theorem State.setTb_frame (s n v) : Frame [.time] s (State.setTb s n v) := by
  refine ⟨fun p hp => ?_⟩; cases p <;> first | rfl | exact absurd (by decide) hp

theorem followStepped_frame (s) : Frame [.time] s (followStepped s) := by
  unfold followStepped
  repeat' first
    | with_reducible apply Frame.refl
    | with_reducible apply Frame.ite <;> intro _
    | refine Frame.step ?_ (by with_reducible apply State.setTb_frame) (by decide)
    | with_reducible refine Frame.forRange ?_ (fun _ _ => ?_)
    | split
    | dsimp only

theorem alignAtEdge_frame (s) : Frame [.so, .time] s (alignAtEdge s) := by
  unfold alignAtEdge
  repeat' first
    | with_reducible apply Frame.refl
    | with_reducible apply Frame.ite <;> intro _
    | refine Frame.step ?_ (by with_reducible apply raise_frame) (by decide)
    | refine Frame.step ?_ (by with_reducible apply State.setTime_frame) (by decide)
    | refine Frame.step ?_ (by with_reducible apply followStepped_frame) (by decide)
    | split
    | dsimp only

theorem edgeCheck_frame (e s) : Frame [.so, .time] s (edgeCheck e s) := by
  unfold edgeCheck
  repeat' first
    | with_reducible apply Frame.refl
    | with_reducible apply Frame.ite <;> intro _
    | refine Frame.step ?_ (by with_reducible apply raise_frame) (by decide)
    | refine Frame.step ?_ (by with_reducible apply State.setTime_frame) (by decide)
    | split
    | dsimp only

theorem holdRate_frame (n s) : Frame [.time] s (holdRate n s) := by
  unfold holdRate
  repeat' first
    | with_reducible apply Frame.refl
    | with_reducible apply Frame.ite <;> intro _
    | refine Frame.step ?_ (by with_reducible apply State.setTb_frame) (by decide)
    | split
    | dsimp only

theorem tryLock_frame (s) : Frame [.time] s (tryLock s) := by
  unfold tryLock
  repeat' first
    | with_reducible apply Frame.refl
    | with_reducible apply Frame.ite <;> intro _
    | refine Frame.step ?_ (by with_reducible apply holdRate_frame) (by decide)
    | refine Frame.step ?_ (by with_reducible apply State.setTime_frame) (by decide)
    | with_reducible refine Frame.forRange ?_ (fun _ _ => ?_)
    | split
    | dsimp only

theorem capturePps_frame (s) : Frame [.time, .fresh] s (capturePps s) := by
  unfold capturePps
  repeat' first
    | with_reducible apply Frame.refl
    | with_reducible apply Frame.ite <;> intro _
    | refine Frame.step ?_ (by with_reducible apply State.draw_frame) (by decide)
    | refine Frame.pair2 (by assumption) ?_ (by with_reducible apply State.draw_frame) (by decide)
    | refine Frame.step ?_ (by with_reducible apply State.setTime_frame) (by decide)
    | split
    | dsimp only

theorem ppsEdgeOp_frame (s) : Frame [.so, .time, .fresh] s (ppsEdgeOp s) := by
  unfold ppsEdgeOp
  repeat' first
    | with_reducible apply Frame.refl
    | with_reducible apply Frame.ite <;> intro _
    | refine Frame.step ?_ (by with_reducible apply alignAtEdge_frame) (by decide)
    | refine Frame.step ?_ (by with_reducible apply State.setTime_frame) (by decide)
    | refine Frame.step ?_ (by with_reducible apply edgeCheck_frame) (by decide)
    | refine Frame.step ?_ (by with_reducible apply capturePps_frame) (by decide)
    | refine Frame.step ?_ (by with_reducible apply tryLock_frame) (by decide)
    | split
    | dsimp only

theorem ppsTimeoutOp_frame (s) : Frame [.so, .time] s (ppsTimeoutOp s) := by
  unfold ppsTimeoutOp
  repeat' first
    | with_reducible apply Frame.refl
    | with_reducible apply Frame.ite <;> intro _
    | refine Frame.step ?_ (by with_reducible apply raise_frame) (by decide)
    | refine Frame.step ?_ (by with_reducible apply State.setTime_frame) (by decide)
    | split
    | dsimp only

theorem ref10mLost_frame (s) : Frame [.so, .time] s (ref10mLost s) := by
  unfold ref10mLost
  repeat' first
    | with_reducible apply Frame.refl
    | with_reducible apply Frame.ite <;> intro _
    | refine Frame.step ?_ (by with_reducible apply raise_frame) (by decide)
    | refine Frame.step ?_ (by with_reducible apply State.setTime_frame) (by decide)
    | split
    | dsimp only

theorem ref10mWindowOp_frame (count s) : Frame [.so, .time] s (ref10mWindowOp count s) := by
  unfold ref10mWindowOp
  repeat' first
    | with_reducible apply Frame.refl
    | with_reducible apply Frame.ite <;> intro _
    | refine Frame.step ?_ (by with_reducible apply tryLock_frame) (by decide)
    | refine Frame.step ?_ (by with_reducible apply State.setTime_frame) (by decide)
    | refine Frame.step ?_ (by with_reducible apply ref10mLost_frame) (by decide)
    | split
    | dsimp only

theorem smprefCheckOp_frame (present s) : Frame [.so, .time] s (smprefCheckOp present s) := by
  unfold smprefCheckOp
  repeat' first
    | with_reducible apply Frame.refl
    | with_reducible apply Frame.ite <;> intro _
    | refine Frame.step ?_ (by with_reducible apply State.setTime_frame) (by decide)
    | refine Frame.step ?_ (by with_reducible apply raise_frame) (by decide)
    | split
    | dsimp only

theorem State.tbListen_frame (s n) : Frame [.time] s (State.tbListen s n) := by
  unfold State.tbListen
  repeat' first
    | with_reducible apply Frame.refl
    | with_reducible apply Frame.ite <;> intro _
    | refine Frame.step ?_ (by with_reducible apply State.setTb_frame) (by decide)
    | split
    | dsimp only

theorem tbOffsetOp_frame (n off s) : Frame [.so, .time, .fresh] s (tbOffsetOp n off s) := by
  unfold tbOffsetOp
  repeat' first
    | with_reducible apply Frame.refl
    | with_reducible apply Frame.ite <;> intro _
    | refine Frame.step ?_ (by with_reducible apply raise_frame) (by decide)
    | refine Frame.step ?_ (by with_reducible apply State.setTb_frame) (by decide)
    | refine Frame.step ?_ (by with_reducible apply State.draw_frame) (by decide)
    | refine Frame.pair2 (by assumption) ?_ (by with_reducible apply State.draw_frame) (by decide)
    | split
    | dsimp only

theorem selectMaster_frame (n s) : Frame [.so, .time] s (selectMaster n s) := by
  unfold selectMaster
  repeat' first
    | with_reducible apply Frame.refl
    | with_reducible apply Frame.ite <;> intro _
    | refine Frame.step ?_ (by with_reducible apply State.setTb_frame) (by decide)
    | refine Frame.step ?_ (by with_reducible apply raise_frame) (by decide)
    | split
    | dsimp only

theorem extendTo_frame (n master s) : Frame [.time] s (extendTo n master s) := by
  unfold extendTo
  repeat' first
    | with_reducible apply Frame.refl
    | with_reducible apply Frame.ite <;> intro _
    | refine Frame.step ?_ (by with_reducible apply State.setTb_frame) (by decide)
    | split
    | dsimp only

theorem syncDone_frame (n t1 t2 s) : Frame [.so, .time, .fresh] s (syncDone n t1 t2 s) := by
  unfold syncDone
  repeat' first
    | with_reducible apply Frame.refl
    | with_reducible apply Frame.ite <;> intro _
    | refine Frame.step ?_ (by with_reducible apply extendTo_frame) (by decide)
    | refine Frame.step ?_ (by with_reducible apply tbOffsetOp_frame) (by decide)
    | refine Frame.step ?_ (by with_reducible apply State.setTb_frame) (by decide)
    | split
    | dsimp only

theorem ptpOp_frame (n field layer2 m s) : Frame [.so, .time, .fresh, .outbox] s (ptpOp n field layer2 m s) := by
  unfold ptpOp
  repeat' first
    | with_reducible apply Frame.refl
    | with_reducible apply Frame.ite <;> intro _
    | refine Frame.step ?_ (by with_reducible apply selectMaster_frame) (by decide)
    | refine Frame.step ?_ (by with_reducible apply State.setTb_frame) (by decide)
    | refine Frame.step ?_ (by with_reducible apply syncDone_frame) (by decide)
    | refine Frame.step ?_ (by with_reducible apply State.send_frame) (by decide)
    | split
    | dsimp only

theorem announceTimeoutOp_frame (n s) : Frame [.so, .time] s (announceTimeoutOp n s) := by
  unfold announceTimeoutOp
  repeat' first
    | with_reducible apply Frame.refl
    | with_reducible apply Frame.ite <;> intro _
    | refine Frame.step ?_ (by with_reducible apply raise_frame) (by decide)
    | refine Frame.step ?_ (by with_reducible apply State.setTb_frame) (by decide)
    | split
    | dsimp only

theorem delayReqOp_frame (n tx s) : Frame [.time, .outbox] s (delayReqOp n tx s) := by
  unfold delayReqOp
  repeat' first
    | with_reducible apply Frame.refl
    | with_reducible apply Frame.ite <;> intro _
    | refine Frame.step ?_ (by with_reducible apply State.send_frame) (by decide)
    | refine Frame.step ?_ (by with_reducible apply State.setTb_frame) (by decide)
    | split
    | dsimp only

theorem tbMode_frame (n s) : Frame [.time] s (tbMode n s) := by
  unfold tbMode
  repeat' first
    | with_reducible apply Frame.refl
    | with_reducible apply Frame.ite <;> intro _
    | refine Frame.step ?_ (by with_reducible apply State.setTb_frame) (by decide)
    | refine Frame.step ?_ (by with_reducible apply State.tbListen_frame) (by decide)
    | split
    | dsimp only

theorem timeCommit_frame (old new s) : Frame [.time] s (timeCommit old new s) := by
  unfold timeCommit
  repeat' first
    | with_reducible apply Frame.refl
    | with_reducible apply Frame.ite <;> intro _
    | refine Frame.step ?_ (by with_reducible apply tbMode_frame) (by decide)
    | refine Frame.step ?_ (by with_reducible apply State.tbListen_frame) (by decide)
    | refine Frame.step ?_ (by with_reducible apply holdRate_frame) (by decide)
    | with_reducible refine Frame.forRange ?_ (fun _ _ => ?_)
    | split
    | dsimp only

theorem timeReset_frame (s) : Frame [.time] s (timeReset s) := by
  unfold timeReset
  repeat' first
    | with_reducible apply Frame.refl
    | with_reducible apply Frame.ite <;> intro _
    | refine Frame.step ?_ (by with_reducible apply State.setTime_frame) (by decide)
    | refine Frame.step ?_ (by with_reducible apply State.tbListen_frame) (by decide)
    | with_reducible refine Frame.forRange ?_ (fun _ _ => ?_)
    | split
    | dsimp only

theorem countTick_frame (s) : Frame [.time] s (countTick s) := by
  unfold countTick
  repeat' first
    | with_reducible apply Frame.refl
    | with_reducible apply Frame.ite <;> intro _
    | refine Frame.step ?_ (by with_reducible apply State.setTime_frame) (by decide)
    | split
    | dsimp only

end Sys2Proof.Machine
end

