-- ==== Sys2Proof/Laws/FrameMemory.lean ====
section
/-! SUPPORT. What each operation of Machine/Memory.lean may change. -/

set_option Elab.async false

namespace Sys2Proof.Machine

open Sys2Proof

theorem State.setMem_frame (s m) : Frame [.mm] s (State.setMem s m) := by
  refine ⟨fun p hp => ?_⟩; cases p <;> first | rfl | exact absurd (by decide) hp

theorem putByte_frame (a b s) : Frame [.mm] s (putByte a b s) := by
  unfold putByte
  repeat' first
    | with_reducible apply Frame.refl
    | with_reducible apply Frame.ite <;> intro _
    | refine Frame.step ?_ (by with_reducible apply State.setMem_frame) (by decide)
    | split
    | dsimp only

theorem putBytes_frame (a bs s) : Frame [.mm] s (putBytes a bs s) := by
  induction bs generalizing a s with
  | nil => exact Frame.refl _ _
  | cons b r ih => exact (putByte_frame a b s).step (ih _ _) (by decide)

theorem putNum_frame (a n v s) : Frame [.mm] s (putNum a n v s) := by
  unfold putNum
  repeat' first
    | with_reducible apply Frame.refl
    | with_reducible apply Frame.ite <;> intro _
    | refine Frame.step ?_ (by with_reducible apply putBytes_frame) (by decide)
    | split
    | dsimp only

theorem setBad_frame (a b s) : Frame [.mm] s (setBad a b s) := by
  unfold setBad
  repeat' first
    | with_reducible apply Frame.refl
    | with_reducible apply Frame.ite <;> intro _
    | refine Frame.step ?_ (by with_reducible apply Frame.with_mm) (by decide)
    | split
    | dsimp only

theorem storeBytes_frame (a bs s) : Frame [.mm] s (storeBytes a bs s) := by
  unfold storeBytes
  repeat' first
    | with_reducible apply Frame.refl
    | with_reducible apply Frame.ite <;> intro _
    | refine Frame.step ?_ (by with_reducible apply putBytes_frame) (by decide)
    | refine Frame.step ?_ (by with_reducible apply setBad_frame) (by decide)
    | with_reducible refine Frame.foldl ?_ (fun _ _ => ?_)
    | with_reducible refine Frame.foldl2 ?_ (fun _ _ => ?_)
    | split
    | dsimp only

theorem flipWord_frame (a o s) : Frame [.mm] s (flipWord a o s) := by
  unfold flipWord
  repeat' first
    | with_reducible apply Frame.refl
    | with_reducible apply Frame.ite <;> intro _
    | refine Frame.step ?_ (by with_reducible apply putByte_frame) (by decide)
    | split
    | dsimp only

theorem State.setStk_frame (s n v) : Frame [.mm] s (State.setStk s n v) := by
  refine ⟨fun p hp => ?_⟩; cases p <;> first | rfl | exact absurd (by decide) hp

theorem streamTokens_frame (port n s) : Frame [.mm] s (streamTokens port n s) := by
  unfold streamTokens
  repeat' first
    | with_reducible apply Frame.refl
    | with_reducible apply Frame.ite <;> intro _
    | refine Frame.step ?_ (by with_reducible apply State.setStk_frame) (by decide)
    | with_reducible refine Frame.foldl ?_ (fun _ _ => ?_)
    | with_reducible refine Frame.foldl2 ?_ (fun _ _ => ?_)
    | split
    | dsimp only

theorem usePort_frame (k port x n s) : Frame [.mm] s (usePort k port x n s) := by
  unfold usePort
  repeat' first
    | with_reducible apply Frame.refl
    | with_reducible apply Frame.ite <;> intro _
    | refine Frame.step ?_ (by with_reducible apply State.setStk_frame) (by decide)
    | split
    | dsimp only

theorem keepBad_frame (stack x port e s) : Frame [.mm] s (keepBad stack x port e s) := by
  unfold keepBad
  repeat' first
    | with_reducible apply Frame.refl
    | with_reducible apply Frame.ite <;> intro _
    | refine Frame.step ?_ (by with_reducible apply setBad_frame) (by decide)
    | split
    | dsimp only

theorem dramCheck_frame (stack x port e s) : Frame [.so, .mm, .fresh] s (dramCheck stack x port e s).2 := by
  unfold dramCheck
  repeat' first
    | with_reducible apply Frame.refl
    | with_reducible apply Frame.ite <;> intro _
    | with_reducible apply Frame.ite2 <;> intro _
    | refine Frame.step ?_ (by with_reducible apply eccCheck_frame) (by decide)
    | refine Frame.pair22 (by assumption) ?_ (by with_reducible apply eccCheck_frame) (by decide)
    | refine Frame.step ?_ (by with_reducible apply keepBad_frame) (by decide)
    | refine Frame.step ?_ (by with_reducible apply raiseT_frame) (by decide)
    | refine Frame.step ?_ (by with_reducible apply State.setStk_frame) (by decide)
    | split
    | dsimp only

theorem touchInter_frame (lo n s) : Frame [.mm] s (touchInter lo n s) := by
  unfold touchInter
  repeat' first
    | with_reducible apply Frame.refl
    | with_reducible apply Frame.ite <;> intro _
    | refine Frame.step ?_ (by with_reducible apply State.setStk_frame) (by decide)
    | with_reducible refine Frame.foldl ?_ (fun _ _ => ?_)
    | with_reducible refine Frame.foldl2 ?_ (fun _ _ => ?_)
    | split
    | dsimp only

theorem cornerWrite_frame (n a x s) : Frame [.mm] s (cornerWrite n a x s) := by
  unfold cornerWrite
  repeat' first
    | with_reducible apply Frame.refl
    | with_reducible apply Frame.ite <;> intro _
    | refine Frame.step ?_ (by with_reducible apply usePort_frame) (by decide)
    | split
    | dsimp only

theorem channelOut_frame (i n x s) : Frame [.so, .filt, .mm] s (channelOut i n x s) := by
  unfold channelOut
  repeat' first
    | with_reducible apply Frame.refl
    | with_reducible apply Frame.ite <;> intro _
    | refine Frame.step ?_ (by with_reducible apply cornerWrite_frame) (by decide)
    | refine Frame.step ?_ (by with_reducible apply channelSample_frame) (by decide)
    | split
    | dsimp only

end Sys2Proof.Machine
end

