-- ==== Sys2Proof/Laws/FrameExclude.lean ====
section
/-! SUPPORT. What each operation of Machine/Exclude.lean may change. -/

set_option Elab.async false

namespace Sys2Proof.Machine

open Sys2Proof

theorem exclude_frame (m c b mk s) : Frame [.so, .acc] s (exclude m c b mk s) := by
  unfold exclude
  repeat' first
    | with_reducible apply Frame.refl
    | with_reducible apply Frame.ite <;> intro _
    | refine Frame.step ?_ (by with_reducible apply raise_frame) (by decide)
    | refine Frame.step ?_ (by with_reducible apply Frame.with_so) (by decide)
    | refine Frame.step ?_ (by with_reducible apply Frame.with_acc) (by decide)
    | split
    | dsimp only

theorem exclGroup_frame (x c first last s) : Frame [.so, .acc] s (exclGroup x c first last s) := by
  unfold exclGroup
  repeat' first
    | with_reducible apply Frame.refl
    | with_reducible apply Frame.ite <;> intro _
    | refine Frame.step ?_ (by with_reducible apply exclude_frame) (by decide)
    | split
    | dsimp only

theorem exclInput_frame (m c b a q s) : Frame [.so, .acc] s (exclInput m c b a q s) := by
  unfold exclInput
  repeat' first
    | with_reducible apply Frame.refl
    | with_reducible apply Frame.ite <;> intro _
    | refine Frame.step ?_ (by with_reducible apply exclude_frame) (by decide)
    | split
    | dsimp only

theorem exclRun_frame (m n s) : Frame [.so, .acc] s (exclRun m n s) := by
  unfold exclRun
  repeat' first
    | with_reducible apply Frame.refl
    | with_reducible apply Frame.ite <;> intro _
    | refine Frame.step ?_ (by with_reducible apply exclude_frame) (by decide)
    | split
    | dsimp only

end Sys2Proof.Machine
end

