-- ==== Sys2Proof/Laws/FrameRelay.lean ====
section
/-! SUPPORT. What each operation of Machine/Relay.lean may change. -/

set_option Elab.async false

namespace Sys2Proof.Machine

open Sys2Proof

theorem State.setPort_frame (s p v) : Frame [.relay] s (State.setPort s p v) := by
  refine ⟨fun p hp => ?_⟩; cases p <;> first | rfl | exact absurd (by decide) hp

theorem State.setCrd_frame (s p l v) : Frame [.relay] s (State.setCrd s p l v) := by
  refine ⟨fun p hp => ?_⟩; cases p <;> first | rfl | exact absurd (by decide) hp

theorem State.setRelay_frame (s r) : Frame [.relay] s (State.setRelay s r) := by
  refine ⟨fun p hp => ?_⟩; cases p <;> first | rfl | exact absurd (by decide) hp

theorem freeCredits_frame (p l n s) : Frame [.relay] s (freeCredits p l n s) := by
  unfold freeCredits
  repeat' first
    | with_reducible apply Frame.refl
    | with_reducible apply Frame.ite <;> intro _
    | refine Frame.step ?_ (by with_reducible apply State.setCrd_frame) (by decide)
    | split
    | dsimp only

theorem markDone_frame (k n s) : Frame [.relay] s (markDone k n s) := by
  unfold markDone
  repeat' first
    | with_reducible apply Frame.refl
    | with_reducible apply Frame.ite <;> intro _
    | refine Frame.step ?_ (by with_reducible apply State.setRelay_frame) (by decide)
    | split
    | dsimp only

theorem putWord_frame (n g x w s) : Frame [.filt] s (putWord n g x w s) := by
  unfold putWord
  repeat' first
    | with_reducible apply Frame.refl
    | with_reducible apply Frame.ite <;> intro _
    | refine Frame.step ?_ (by with_reducible apply Frame.with_filt) (by decide)
    | split
    | dsimp only

theorem putParcel_frame (p l fields pay s) : Frame [.lanes, .relay, .outbox] s (putParcel p l fields pay s) := by
  unfold putParcel
  repeat' first
    | with_reducible apply Frame.refl
    | with_reducible apply Frame.ite <;> intro _
    | refine Frame.step ?_ (by with_reducible apply sendWords_frame) (by decide)
    | refine Frame.step ?_ (by with_reducible apply State.setPort_frame) (by decide)
    | refine Frame.step ?_ (by with_reducible apply State.setCrd_frame) (by decide)
    | split
    | dsimp only

theorem holdParcel_frame (p l win s) : Frame [.relay] s (holdParcel p l win s) := by
  unfold holdParcel
  repeat' first
    | with_reducible apply Frame.refl
    | with_reducible apply Frame.ite <;> intro _
    | refine Frame.step ?_ (by with_reducible apply State.setCrd_frame) (by decide)
    | split
    | dsimp only

theorem releaseTransit_frame (n s) : Frame [.relay] s (releaseTransit n s) := by
  unfold releaseTransit
  repeat' first
    | with_reducible apply Frame.refl
    | with_reducible apply Frame.ite <;> intro _
    | refine Frame.step ?_ (by with_reducible apply freeCredits_frame) (by decide)
    | refine Frame.step ?_ (by with_reducible apply State.setRelay_frame) (by decide)
    | split
    | dsimp only

theorem parcelSendOp_frame (p n s) : Frame [.lanes, .relay, .outbox] s (parcelSendOp p n s) := by
  unfold parcelSendOp
  repeat' first
    | with_reducible apply Frame.refl
    | with_reducible apply Frame.ite <;> intro _
    | refine Frame.step ?_ (by with_reducible apply releaseTransit_frame) (by decide)
    | refine Frame.step ?_ (by with_reducible apply putParcel_frame) (by decide)
    | refine Frame.step ?_ (by with_reducible apply State.setCrd_frame) (by decide)
    | refine Frame.step ?_ (by with_reducible apply holdParcel_frame) (by decide)
    | split
    | dsimp only

theorem creditStallOp_frame (p l s) : Frame [.so, .relay] s (creditStallOp p l s) := by
  unfold creditStallOp
  repeat' first
    | with_reducible apply Frame.refl
    | with_reducible apply Frame.ite <;> intro _
    | refine Frame.step ?_ (by with_reducible apply State.setPort_frame) (by decide)
    | refine Frame.step ?_ (by with_reducible apply State.setCrd_frame) (by decide)
    | refine Frame.step ?_ (by with_reducible apply raise_frame) (by decide)
    | split
    | dsimp only

theorem creditWordOp_frame (p l cred chk s) : Frame [.relay] s (creditWordOp p l cred chk s) := by
  unfold creditWordOp
  repeat' first
    | with_reducible apply Frame.refl
    | with_reducible apply Frame.ite <;> intro _
    | refine Frame.step ?_ (by with_reducible apply State.setCrd_frame) (by decide)
    | split
    | dsimp only

theorem putSamples_frame (x sm w s) : Frame [.filt, .mm] s (putSamples x sm w s) := by
  unfold putSamples
  repeat' first
    | with_reducible apply Frame.refl
    | with_reducible apply Frame.ite <;> intro _
    | refine Frame.step ?_ (by with_reducible apply cornerWrite_frame) (by decide)
    | refine Frame.step ?_ (by with_reducible apply putWord_frame) (by decide)
    | with_reducible refine Frame.foldl ?_ (fun _ _ => ?_)
    | with_reducible refine Frame.foldl2 ?_ (fun _ _ => ?_)
    | split
    | dsimp only

theorem deliverParcel_frame (p l n credits pay s) : Frame [.so, .filt, .relay, .acc, .mm] s (deliverParcel p l n credits pay s) := by
  unfold deliverParcel
  repeat' first
    | with_reducible apply Frame.refl
    | with_reducible apply Frame.ite <;> intro _
    | refine Frame.step ?_ (by with_reducible apply freeCredits_frame) (by decide)
    | refine Frame.step ?_ (by with_reducible apply putSamples_frame) (by decide)
    | refine Frame.step ?_ (by with_reducible apply exclGroup_frame) (by decide)
    | refine Frame.step ?_ (by with_reducible apply State.setRelay_frame) (by decide)
    | with_reducible refine Frame.foldl ?_ (fun _ _ => ?_)
    | with_reducible refine Frame.foldl2 ?_ (fun _ _ => ?_)
    | split
    | dsimp only

theorem endHolds_frame (p s) : Frame [.relay] s (endHolds p s) := by
  unfold endHolds
  repeat' first
    | with_reducible apply Frame.refl
    | with_reducible apply Frame.ite <;> intro _
    | refine Frame.step ?_ (by with_reducible apply State.setCrd_frame) (by decide)
    | with_reducible refine Frame.forRange ?_ (fun _ _ => ?_)
    | split
    | dsimp only

theorem dropTransit_frame (p s0) : Frame [.relay] s0 (dropTransit p s0) := by
  unfold dropTransit
  repeat' first
    | with_reducible apply Frame.refl
    | with_reducible apply Frame.ite <;> intro _
    | refine Frame.step ?_ (by with_reducible apply endHolds_frame) (by decide)
    | refine Frame.step ?_ (by with_reducible apply releaseTransit_frame) (by decide)
    | with_reducible refine Frame.foldl ?_ (fun _ _ => ?_)
    | with_reducible refine Frame.foldl2 ?_ (fun _ _ => ?_)
    | split
    | dsimp only

theorem lostCard_frame (p x h s) : Frame [.so, .relay] s (lostCard p x h s) := by
  unfold lostCard
  repeat' first
    | with_reducible apply Frame.refl
    | with_reducible apply Frame.ite <;> intro _
    | refine Frame.step ?_ (by with_reducible apply raise_frame) (by decide)
    | refine Frame.step ?_ (by with_reducible apply State.setPort_frame) (by decide)
    | split
    | dsimp only

theorem parcelDeadlineOp_frame (p n s) : Frame [.so, .filt, .relay, .acc, .mm] s (parcelDeadlineOp p n s) := by
  unfold parcelDeadlineOp
  repeat' first
    | with_reducible apply Frame.refl
    | with_reducible apply Frame.ite <;> intro _
    | refine Frame.step ?_ (by with_reducible apply deliverParcel_frame) (by decide)
    | refine Frame.step ?_ (by with_reducible apply lostCard_frame) (by decide)
    | refine Frame.step ?_ (by with_reducible apply markDone_frame) (by decide)
    | refine Frame.step ?_ (by with_reducible apply State.setPort_frame) (by decide)
    | split
    | dsimp only

theorem relayCrcFail_frame (l s) : Frame [.lanes] s (relayCrcFail l s).1 := State.setLane_frame ..

theorem ctlOut_frame (p c0 r s) : Frame [.lanes, .relay, .outbox] s (ctlOut p c0 r s) := by
  unfold ctlOut
  repeat' first
    | with_reducible apply Frame.refl
    | with_reducible apply Frame.ite <;> intro _
    | refine Frame.step ?_ (by with_reducible apply State.setPort_frame) (by decide)
    | refine Frame.step ?_ (by with_reducible apply State.send_frame) (by decide)
    | refine Frame.step ?_ (by with_reducible apply moveWords_frame) (by decide)
    | with_reducible refine Frame.foldl ?_ (fun _ _ => ?_)
    | with_reducible refine Frame.foldl2 ?_ (fun _ _ => ?_)
    | split
    | dsimp only

theorem ctlSend_frame (p ctype arg0 arg1 origin s) : Frame [.lanes, .relay, .outbox] s (ctlSend p ctype arg0 arg1 origin s) := by
  unfold ctlSend
  repeat' first
    | with_reducible apply Frame.refl
    | with_reducible apply Frame.ite <;> intro _
    | refine Frame.step ?_ (by with_reducible apply ctlOut_frame) (by decide)
    | refine Frame.step ?_ (by with_reducible apply State.setPort_frame) (by decide)
    | split
    | dsimp only

theorem ctlPump_frame (p s) : Frame [.lanes, .relay, .outbox] s (ctlPump p s) := by
  unfold ctlPump
  repeat' first
    | with_reducible apply Frame.refl
    | with_reducible apply Frame.ite <;> intro _
    | refine Frame.step ?_ (by with_reducible apply ctlOut_frame) (by decide)
    | split
    | dsimp only

theorem ctlIn_frame {ps : List Part} (code p c f s) (h : ∀ t, Frame ps t (f t)) :
    Frame (.so :: .relay :: ps) s (ctlIn code p c f s) := by
  unfold ctlIn
  dsimp only
  refine Frame.ite (fun _ => Frame.refl _ _) (fun _ => Frame.ite (fun _ => ?_) (fun _ => Frame.ite (fun _ => ?_) (fun _ => Frame.refl _ _)))
  · exact Frame.step ((State.setPort_frame s p _).weaken (by simp)) (raise_frame ..) (by simp)
  · exact Frame.step ((State.setPort_frame s p _).weaken (by simp)) (h _) (by simp)

theorem sendHello_frame (p s) : Frame [.lanes, .relay, .outbox] s (sendHello p s) := by
  unfold sendHello
  repeat' first
    | with_reducible apply Frame.refl
    | with_reducible apply Frame.ite <;> intro _
    | refine Frame.step ?_ (by with_reducible apply ctlSend_frame) (by decide)
    | split
    | dsimp only

theorem sendPing_frame (p s) : Frame [.lanes, .relay, .outbox] s (sendPing p s) := by
  unfold sendPing
  repeat' first
    | with_reducible apply Frame.refl
    | with_reducible apply Frame.ite <;> intro _
    | refine Frame.step ?_ (by with_reducible apply ctlSend_frame) (by decide)
    | split
    | dsimp only

theorem helloOp_frame (p serial arg s) : Frame [.so, .lanes, .relay, .outbox] s (helloOp p serial arg s) := by
  unfold helloOp
  repeat' first
    | with_reducible apply Frame.refl
    | with_reducible apply Frame.ite <;> intro _
    | refine Frame.step ?_ (by with_reducible apply State.setPort_frame) (by decide)
    | refine Frame.step ?_ (by with_reducible apply raise_frame) (by decide)
    | refine Frame.step ?_ (by with_reducible apply sendPing_frame) (by decide)
    | refine Frame.step ?_ (by with_reducible apply dropTransit_frame) (by decide)
    | split
    | dsimp only

theorem pingOp_frame (p s) : Frame [.lanes, .relay, .outbox] s (pingOp p s) := by
  unfold pingOp
  repeat' first
    | with_reducible apply Frame.refl
    | with_reducible apply Frame.ite <;> intro _
    | refine Frame.step ?_ (by with_reducible apply ctlSend_frame) (by decide)
    | split
    | dsimp only

theorem pongOp_frame (p t2 hold s) : Frame [.so, .relay] s (pongOp p t2 hold s) := by
  unfold pongOp
  repeat' first
    | with_reducible apply Frame.refl
    | with_reducible apply Frame.ite <;> intro _
    | refine Frame.step ?_ (by with_reducible apply raise_frame) (by decide)
    | refine Frame.step ?_ (by with_reducible apply State.setPort_frame) (by decide)
    | refine Frame.step ?_ (by with_reducible apply raiseLim_frame) (by decide)
    | split
    | dsimp only

theorem helloTimerOp_frame (p s) : Frame [.lanes, .relay, .outbox] s (helloTimerOp p s) := by
  unfold helloTimerOp
  repeat' first
    | with_reducible apply Frame.refl
    | with_reducible apply Frame.ite <;> intro _
    | refine Frame.step ?_ (by with_reducible apply sendHello_frame) (by decide)
    | refine Frame.step ?_ (by with_reducible apply sendPing_frame) (by decide)
    | split
    | dsimp only

theorem queueService_frame (p c s) : Frame [.relay] s (queueService p c s) := by
  unfold queueService
  repeat' first
    | with_reducible apply Frame.refl
    | with_reducible apply Frame.ite <;> intro _
    | refine Frame.step ?_ (by with_reducible apply State.setPort_frame) (by decide)
    | split
    | dsimp only

theorem serviceSlotOp_frame (p s) : Frame [.lanes, .relay, .outbox] s (serviceSlotOp p s) := by
  unfold serviceSlotOp
  repeat' first
    | with_reducible apply Frame.refl
    | with_reducible apply Frame.ite <;> intro _
    | refine Frame.step ?_ (by with_reducible apply putParcel_frame) (by decide)
    | refine Frame.step ?_ (by with_reducible apply State.setPort_frame) (by decide)
    | refine Frame.step ?_ (by with_reducible apply holdParcel_frame) (by decide)
    | split
    | dsimp only

theorem floodPort_frame (p s) : Frame [.relay] s (floodPort p s) := by
  unfold floodPort
  repeat' first
    | with_reducible apply Frame.refl
    | with_reducible apply Frame.ite <;> intro _
    | refine Frame.step ?_ (by with_reducible apply queueService_frame) (by decide)
    | with_reducible refine Frame.foldl ?_ (fun _ _ => ?_)
    | with_reducible refine Frame.foldl2 ?_ (fun _ _ => ?_)
    | split
    | dsimp only

theorem mapPorts_frame (a b root s) : Frame [.relay] s (mapPorts a b root s) := by
  unfold mapPorts
  repeat' first
    | with_reducible apply Frame.refl
    | with_reducible apply Frame.ite <;> intro _
    | refine Frame.step ?_ (by with_reducible apply State.setPort_frame) (by decide)
    | with_reducible refine Frame.forRange ?_ (fun _ _ => ?_)
    | split
    | dsimp only

theorem electOp_frame (s) : Frame [.lanes, .relay, .outbox] s (electOp s) := by
  unfold electOp
  repeat' first
    | with_reducible apply Frame.refl
    | with_reducible apply Frame.ite <;> intro _
    | refine Frame.step ?_ (by with_reducible apply State.setRelay_frame) (by decide)
    | refine Frame.step ?_ (by with_reducible apply mapPorts_frame) (by decide)
    | refine Frame.step ?_ (by with_reducible apply ctlSend_frame) (by decide)
    | with_reducible refine Frame.foldl ?_ (fun _ _ => ?_)
    | with_reducible refine Frame.foldl2 ?_ (fun _ _ => ?_)
    | split
    | dsimp only

theorem restartMap_frame (s) : Frame [.relay] s (restartMap s) := by
  unfold restartMap
  repeat' first
    | with_reducible apply Frame.refl
    | with_reducible apply Frame.ite <;> intro _
    | refine Frame.step ?_ (by with_reducible apply State.setRelay_frame) (by decide)
    | split
    | dsimp only

theorem mapRoundOp_frame (s0) : Frame [.so, .lanes, .relay, .outbox] s0 (mapRoundOp s0) := by
  unfold mapRoundOp
  repeat' first
    | with_reducible apply Frame.refl
    | with_reducible apply Frame.ite <;> intro _
    | refine Frame.step ?_ (by with_reducible apply floodPort_frame) (by decide)
    | refine Frame.step ?_ (by with_reducible apply mapPorts_frame) (by decide)
    | refine Frame.step ?_ (by with_reducible apply restartMap_frame) (by decide)
    | refine Frame.step ?_ (by with_reducible apply State.setRelay_frame) (by decide)
    | refine Frame.step ?_ (by with_reducible apply electOp_frame) (by decide)
    | refine Frame.step ?_ (by with_reducible apply raise_frame) (by decide)
    | with_reducible refine Frame.foldl ?_ (fun _ _ => ?_)
    | with_reducible refine Frame.foldl2 ?_ (fun _ _ => ?_)
    | split
    | dsimp only

theorem mapParcel_frame (pay s0) : Frame [.relay] s0 (mapParcel pay s0) := by
  unfold mapParcel
  repeat' first
    | with_reducible apply Frame.refl
    | with_reducible apply Frame.ite <;> intro _
    | refine Frame.step ?_ (by with_reducible apply restartMap_frame) (by decide)
    | refine Frame.step ?_ (by with_reducible apply State.setRelay_frame) (by decide)
    | with_reducible refine Frame.foldl ?_ (fun _ _ => ?_)
    | with_reducible refine Frame.foldl2 ?_ (fun _ _ => ?_)
    | split
    | dsimp only

theorem coordOp_frame (p serial arg origin s) : Frame [.so, .lanes, .relay, .outbox] s (coordOp p serial arg origin s) := by
  unfold coordOp
  repeat' first
    | with_reducible apply Frame.refl
    | with_reducible apply Frame.ite <;> intro _
    | refine Frame.step ?_ (by with_reducible apply raise_frame) (by decide)
    | refine Frame.step ?_ (by with_reducible apply State.setRelay_frame) (by decide)
    | refine Frame.step ?_ (by with_reducible apply ctlSend_frame) (by decide)
    | with_reducible refine Frame.foldl ?_ (fun _ _ => ?_)
    | with_reducible refine Frame.foldl2 ?_ (fun _ _ => ?_)
    | split
    | dsimp only

theorem globalSend_frame (r at_ s) : Frame [.lanes, .relay, .outbox] s (globalSend r at_ s) := by
  unfold globalSend
  repeat' first
    | with_reducible apply Frame.refl
    | with_reducible apply Frame.ite <;> intro _
    | refine Frame.step ?_ (by with_reducible apply ctlSend_frame) (by decide)
    | with_reducible refine Frame.foldl ?_ (fun _ _ => ?_)
    | with_reducible refine Frame.foldl2 ?_ (fun _ _ => ?_)
    | split
    | dsimp only

theorem sendBarrierDown_frame (number result s) : Frame [.lanes, .relay, .outbox] s (sendBarrierDown number result s) := by
  unfold sendBarrierDown
  repeat' first
    | with_reducible apply Frame.refl
    | with_reducible apply Frame.ite <;> intro _
    | refine Frame.step ?_ (by with_reducible apply ctlSend_frame) (by decide)
    | with_reducible refine Frame.foldl ?_ (fun _ _ => ?_)
    | with_reducible refine Frame.foldl2 ?_ (fun _ _ => ?_)
    | split
    | dsimp only

theorem barrierUpward_frame (s) : Frame [.lanes, .relay, .outbox] s (barrierUpward s) := by
  unfold barrierUpward
  repeat' first
    | with_reducible apply Frame.refl
    | with_reducible apply Frame.ite <;> intro _
    | refine Frame.step ?_ (by with_reducible apply ctlSend_frame) (by decide)
    | refine Frame.step ?_ (by with_reducible apply State.setRelay_frame) (by decide)
    | split
    | dsimp only

theorem barrierUpOp_frame (p arg0 vote s) : Frame [.lanes, .relay, .outbox] s (barrierUpOp p arg0 vote s) := by
  unfold barrierUpOp
  repeat' first
    | with_reducible apply Frame.refl
    | with_reducible apply Frame.ite <;> intro _
    | refine Frame.step ?_ (by with_reducible apply barrierUpward_frame) (by decide)
    | refine Frame.step ?_ (by with_reducible apply State.setRelay_frame) (by decide)
    | split
    | dsimp only

theorem barrierVote_frame (number crc v s) : Frame [.lanes, .relay, .outbox] s (barrierVote number crc v s) := by
  unfold barrierVote
  repeat' first
    | with_reducible apply Frame.refl
    | with_reducible apply Frame.ite <;> intro _
    | refine Frame.step ?_ (by with_reducible apply barrierUpward_frame) (by decide)
    | refine Frame.step ?_ (by with_reducible apply State.setRelay_frame) (by decide)
    | split
    | dsimp only

theorem sendMove_frame (p l phys s) : Frame [.lanes, .relay, .outbox] s (sendMove p l phys s) := by
  unfold sendMove
  repeat' first
    | with_reducible apply Frame.refl
    | with_reducible apply Frame.ite <;> intro _
    | refine Frame.step ?_ (by with_reducible apply ctlSend_frame) (by decide)
    | refine Frame.step ?_ (by with_reducible apply State.setPort_frame) (by decide)
    | split
    | dsimp only

theorem relayFailed_frame (src s) : Frame [.so, .lanes, .relay, .outbox] s (relayFailed src s) := by
  unfold relayFailed
  repeat' first
    | with_reducible apply Frame.refl
    | with_reducible apply Frame.ite <;> intro _
    | refine Frame.step ?_ (by with_reducible apply raise_frame) (by decide)
    | refine Frame.step ?_ (by with_reducible apply State.modLane_frame) (by decide)
    | refine Frame.step ?_ (by with_reducible apply sendMove_frame) (by decide)
    | split
    | dsimp only

theorem relaySpareOut_frame (src s) : Frame [.so, .lanes, .relay, .outbox] s (relaySpareOut src s) := by
  unfold relaySpareOut
  repeat' first
    | with_reducible apply Frame.refl
    | with_reducible apply Frame.ite <;> intro _
    | refine Frame.step ?_ (by with_reducible apply sendMove_frame) (by decide)
    | refine Frame.step ?_ (by with_reducible apply raise_frame) (by decide)
    | split
    | dsimp only

theorem laneMoveOp_frame (p sb arg s) : Frame [.lanes, .relay, .outbox] s (laneMoveOp p sb arg s) := by
  unfold laneMoveOp
  repeat' first
    | with_reducible apply Frame.refl
    | with_reducible apply Frame.ite <;> intro _
    | refine Frame.step ?_ (by with_reducible apply ctlSend_frame) (by decide)
    | refine Frame.step ?_ (by with_reducible apply State.setPort_frame) (by decide)
    | split
    | dsimp only

theorem laneMoveAckOp_frame (p sb arg s) : Frame [.relay] s (laneMoveAckOp p sb arg s) := by
  unfold laneMoveAckOp
  repeat' first
    | with_reducible apply Frame.refl
    | with_reducible apply Frame.ite <;> intro _
    | refine Frame.step ?_ (by with_reducible apply State.setPort_frame) (by decide)
    | split
    | dsimp only

theorem laneMoveRetryOp_frame (p l s) : Frame [.lanes, .relay, .outbox] s (laneMoveRetryOp p l s) := by
  unfold laneMoveRetryOp
  repeat' first
    | with_reducible apply Frame.refl
    | with_reducible apply Frame.ite <;> intro _
    | refine Frame.step ?_ (by with_reducible apply sendMove_frame) (by decide)
    | split
    | dsimp only

theorem laneMoveSwitchOp_frame (p l s) : Frame [.so, .lanes, .relay] s (laneMoveSwitchOp p l s) := by
  unfold laneMoveSwitchOp
  repeat' first
    | with_reducible apply Frame.refl
    | with_reducible apply Frame.ite <;> intro _
    | refine Frame.step ?_ (by with_reducible apply State.modLane_frame) (by decide)
    | refine Frame.step ?_ (by with_reducible apply State.setPort_frame) (by decide)
    | refine Frame.step ?_ (by with_reducible apply raise_frame) (by decide)
    | split
    | dsimp only

theorem relayCommit_frame (p pm new s) : Frame [.relay] s (relayCommit p pm new s) := by
  unfold relayCommit
  repeat' first
    | with_reducible apply Frame.refl
    | with_reducible apply Frame.ite <;> intro _
    | refine Frame.step ?_ (by with_reducible apply restartMap_frame) (by decide)
    | refine Frame.step ?_ (by with_reducible apply State.setPort_frame) (by decide)
    | refine Frame.step ?_ (by with_reducible apply dropTransit_frame) (by decide)
    | refine Frame.step ?_ (by with_reducible apply State.setRelay_frame) (by decide)
    | split
    | dsimp only

theorem homeAgain_frame (p k l s) : Frame [.lanes] s (homeAgain p k l s) := by
  unfold homeAgain
  repeat' first
    | with_reducible apply Frame.refl
    | with_reducible apply Frame.ite <;> intro _
    | refine Frame.step ?_ (by with_reducible apply State.modLane_frame) (by decide)
    | split
    | dsimp only

theorem portReset_frame (p s) : Frame [.lanes, .relay] s (portReset p s) := by
  unfold portReset
  repeat' first
    | with_reducible apply Frame.refl
    | with_reducible apply Frame.ite <;> intro _
    | refine Frame.step ?_ (by with_reducible apply dropTransit_frame) (by decide)
    | refine Frame.step ?_ (by with_reducible apply homeAgain_frame) (by decide)
    | refine Frame.step ?_ (by with_reducible apply State.setCrd_frame) (by decide)
    | refine Frame.step ?_ (by with_reducible apply State.setPort_frame) (by decide)
    | with_reducible refine Frame.forRange ?_ (fun _ _ => ?_)
    | split
    | dsimp only

end Sys2Proof.Machine
end

