-- ==== Sys2Proof/Laws/FrameAccum.lean ====
section
/-! SUPPORT. What each operation of Machine/Accum.lean may change. -/

set_option Elab.async false

namespace Sys2Proof.Machine

open Sys2Proof

theorem State.setBook_frame (s c t b) : Frame [.acc] s (State.setBook s c t b) := by
  refine ⟨fun p hp => ?_⟩; cases p <;> first | rfl | exact absurd (by decide) hp

theorem State.setAcc_frame (s a) : Frame [.acc] s (State.setAcc s a) := by
  refine ⟨fun p hp => ?_⟩; cases p <;> first | rfl | exact absurd (by decide) hp

theorem putDump_frame (d s) : Frame [.acc] s (putDump d s) := by
  unfold putDump
  repeat' first
    | with_reducible apply Frame.refl
    | with_reducible apply Frame.ite <;> intro _
    | refine Frame.step ?_ (by with_reducible apply State.setAcc_frame) (by decide)
    | split
    | dsimp only

theorem openDump_frame (c p s) : Frame [.acc] s (openDump c p s).2 := by
  unfold openDump
  repeat' first
    | with_reducible apply Frame.refl
    | with_reducible apply Frame.ite <;> intro _
    | with_reducible apply Frame.ite2 <;> intro _
    | refine Frame.step ?_ (by with_reducible apply State.setAcc_frame) (by decide)
    | split
    | dsimp only

theorem putBook_frame (c t b s) : Frame [.acc, .mm] s (putBook c t b s) := by
  unfold putBook
  repeat' first
    | with_reducible apply Frame.refl
    | with_reducible apply Frame.ite <;> intro _
    | refine Frame.step ?_ (by with_reducible apply State.setBook_frame) (by decide)
    | refine Frame.step ?_ (by with_reducible apply storeBytes_frame) (by decide)
    | split
    | dsimp only

theorem putTile_frame (c t b vals s) : Frame [.acc, .mm] s (putTile c t b vals s) := by
  unfold putTile
  repeat' first
    | with_reducible apply Frame.refl
    | with_reducible apply Frame.ite <;> intro _
    | refine Frame.step ?_ (by with_reducible apply usePort_frame) (by decide)
    | refine Frame.step ?_ (by with_reducible apply putBook_frame) (by decide)
    | refine Frame.step ?_ (by with_reducible apply storeBytes_frame) (by decide)
    | split
    | dsimp only

theorem finishDump_frame (d s) : Frame [.so, .acc] s (finishDump d s) := by
  unfold finishDump
  repeat' first
    | with_reducible apply Frame.refl
    | with_reducible apply Frame.ite <;> intro _
    | refine Frame.step ?_ (by with_reducible apply raise_frame) (by decide)
    | refine Frame.step ?_ (by with_reducible apply putDump_frame) (by decide)
    | refine Frame.step ?_ (by with_reducible apply State.setAcc_frame) (by decide)
    | with_reducible refine Frame.foldl ?_ (fun _ _ => ?_)
    | with_reducible refine Frame.foldl2 ?_ (fun _ _ => ?_)
    | split
    | dsimp only

theorem writeTile_frame (d t rd vals s) : Frame [.so, .acc, .mm] s (writeTile d t rd vals s) := by
  unfold writeTile
  repeat' first
    | with_reducible apply Frame.refl
    | with_reducible apply Frame.ite <;> intro _
    | refine Frame.step ?_ (by with_reducible apply usePort_frame) (by decide)
    | refine Frame.step ?_ (by with_reducible apply storeBytes_frame) (by decide)
    | refine Frame.step ?_ (by with_reducible apply finishDump_frame) (by decide)
    | refine Frame.step ?_ (by with_reducible apply State.setAcc_frame) (by decide)
    | split
    | dsimp only

theorem emitTile_frame (c t b cut vals s) : Frame [.so, .acc, .mm] s (emitTile c t b cut vals s) := by
  unfold emitTile
  repeat' first
    | with_reducible apply Frame.refl
    | with_reducible apply Frame.ite <;> intro _
    | refine Frame.step ?_ (by with_reducible apply openDump_frame) (by decide)
    | refine Frame.pair2 (by assumption) ?_ (by with_reducible apply openDump_frame) (by decide)
    | refine Frame.step ?_ (by with_reducible apply writeTile_frame) (by decide)
    | refine Frame.step ?_ (by with_reducible apply State.setAcc_frame) (by decide)
    | split
    | dsimp only

theorem biasBad_frame (c p t s) : Frame [.acc] s (biasBad c p t s) := by
  unfold biasBad
  repeat' first
    | with_reducible apply Frame.refl
    | with_reducible apply Frame.ite <;> intro _
    | refine Frame.step ?_ (by with_reducible apply State.setAcc_frame) (by decide)
    | split
    | dsimp only

theorem biasValue_frame (m c t k p e s) : Frame [.so, .acc, .mm, .fresh] s (biasValue m c t k p e s).2 := by
  unfold biasValue
  repeat' first
    | with_reducible apply Frame.refl
    | with_reducible apply Frame.ite <;> intro _
    | with_reducible apply Frame.ite2 <;> intro _
    | refine Frame.step ?_ (by with_reducible apply usePort_frame) (by decide)
    | refine Frame.step ?_ (by with_reducible apply dramCheck_frame) (by decide)
    | refine Frame.pair2 (by assumption) ?_ (by with_reducible apply dramCheck_frame) (by decide)
    | refine Frame.step ?_ (by with_reducible apply biasBad_frame) (by decide)
    | split
    | dsimp only

theorem startTile_frame (c t p old ecc s) : Frame [.so, .acc, .mm, .fresh] s (startTile c t p old ecc s).2.2 := by
  unfold startTile
  repeat' first
    | with_reducible apply Frame.refl
    | with_reducible apply Frame.ite <;> intro _
    | with_reducible apply Frame.ite22 <;> intro _
    | refine Frame.step ?_ (by with_reducible apply biasValue_frame) (by decide)
    | refine Frame.pair2 (by assumption) ?_ (by with_reducible apply biasValue_frame) (by decide)
    | with_reducible refine Frame.foldl ?_ (fun _ _ => ?_)
    | with_reducible refine Frame.foldl2 ?_ (fun _ _ => ?_)
    | with_reducible refine Frame.foldl22 ?_ (fun _ _ => ?_)
    | split
    | dsimp only

theorem readBook_frame (c t x ecc s) : Frame [.so, .mm, .fresh] s (readBook c t x ecc s).2 := by
  unfold readBook
  repeat' first
    | with_reducible apply Frame.refl
    | with_reducible apply Frame.ite <;> intro _
    | with_reducible apply Frame.ite2 <;> intro _
    | refine Frame.step ?_ (by with_reducible apply dramCheck_frame) (by decide)
    | refine Frame.pair2 (by assumption) ?_ (by with_reducible apply dramCheck_frame) (by decide)
    | refine Frame.step ?_ (by with_reducible apply usePort_frame) (by decide)
    | split
    | dsimp only

theorem readTile_frame (c t b ecc s) : Frame [.so, .mm, .fresh] s (readTile c t b ecc s).2.2 := by
  unfold readTile
  repeat' first
    | with_reducible apply Frame.refl
    | with_reducible apply Frame.ite <;> intro _
    | with_reducible apply Frame.ite22 <;> intro _
    | refine Frame.step ?_ (by with_reducible apply readBook_frame) (by decide)
    | refine Frame.pair2 (by assumption) ?_ (by with_reducible apply readBook_frame) (by decide)
    | refine Frame.step ?_ (by with_reducible apply usePort_frame) (by decide)
    | refine Frame.step ?_ (by with_reducible apply dramCheck_frame) (by decide)
    | refine Frame.pair2 (by assumption) ?_ (by with_reducible apply dramCheck_frame) (by decide)
    | with_reducible refine Frame.foldl ?_ (fun _ _ => ?_)
    | with_reducible refine Frame.foldl2 ?_ (fun _ _ => ?_)
    | with_reducible refine Frame.foldl22 ?_ (fun _ _ => ?_)
    | split
    | dsimp only

theorem turnTile_frame (c t p b ecc s) : Frame [.so, .acc, .mm, .fresh] s (turnTile c t p b ecc s).2.2 := by
  unfold turnTile
  repeat' first
    | with_reducible apply Frame.refl
    | with_reducible apply Frame.ite <;> intro _
    | with_reducible apply Frame.ite22 <;> intro _
    | refine Frame.step ?_ (by with_reducible apply startTile_frame) (by decide)
    | refine Frame.pair22 (by assumption) ?_ (by with_reducible apply startTile_frame) (by decide)
    | refine Frame.step ?_ (by with_reducible apply emitTile_frame) (by decide)
    | refine Frame.step ?_ (by with_reducible apply readTile_frame) (by decide)
    | refine Frame.pair22 (by assumption) ?_ (by with_reducible apply readTile_frame) (by decide)
    | split
    | dsimp only

theorem startIdle_frame (c t p ecc s) : Frame [.so, .acc, .mm, .fresh] s (startIdle c t p ecc s).2.2 := by
  unfold startIdle
  repeat' first
    | with_reducible apply Frame.refl
    | with_reducible apply Frame.ite <;> intro _
    | with_reducible apply Frame.ite22 <;> intro _
    | refine Frame.step ?_ (by with_reducible apply readBook_frame) (by decide)
    | refine Frame.pair2 (by assumption) ?_ (by with_reducible apply readBook_frame) (by decide)
    | refine Frame.step ?_ (by with_reducible apply startTile_frame) (by decide)
    | refine Frame.pair22 (by assumption) ?_ (by with_reducible apply startTile_frame) (by decide)
    | split
    | dsimp only

theorem openTile_frame (c t p ecc s) : Frame [.so, .acc, .mm, .fresh] s (openTile c t p ecc s).2.2 := by
  unfold openTile
  repeat' first
    | with_reducible apply Frame.refl
    | with_reducible apply Frame.ite <;> intro _
    | with_reducible apply Frame.ite22 <;> intro _
    | refine Frame.step ?_ (by with_reducible apply startIdle_frame) (by decide)
    | refine Frame.pair22 (by assumption) ?_ (by with_reducible apply startIdle_frame) (by decide)
    | refine Frame.step ?_ (by with_reducible apply turnTile_frame) (by decide)
    | refine Frame.pair22 (by assumption) ?_ (by with_reducible apply turnTile_frame) (by decide)
    | refine Frame.step ?_ (by with_reducible apply readTile_frame) (by decide)
    | refine Frame.pair22 (by assumption) ?_ (by with_reducible apply readTile_frame) (by decide)
    | split
    | dsimp only

theorem applyFold_frame (f b vals s) : Frame [.acc, .mm] s (applyFold f b vals s) := by
  unfold applyFold
  repeat' first
    | with_reducible apply Frame.refl
    | with_reducible apply Frame.ite <;> intro _
    | refine Frame.step ?_ (by with_reducible apply putTile_frame) (by decide)
    | split
    | dsimp only

theorem queueFull_frame (c s) : Frame [.so, .acc] s (queueFull c s) := by
  unfold queueFull
  repeat' first
    | with_reducible apply Frame.refl
    | with_reducible apply Frame.ite <;> intro _
    | refine Frame.step ?_ (by with_reducible apply raise_frame) (by decide)
    | refine Frame.step ?_ (by with_reducible apply putDump_frame) (by decide)
    | split
    | dsimp only

theorem sweepTile_frame (c t p b s) : Frame [.so, .acc, .mm, .fresh] s (sweepTile c t p b s) := by
  unfold sweepTile
  repeat' first
    | with_reducible apply Frame.refl
    | with_reducible apply Frame.ite <;> intro _
    | refine Frame.step ?_ (by with_reducible apply turnTile_frame) (by decide)
    | refine Frame.pair22 (by assumption) ?_ (by with_reducible apply turnTile_frame) (by decide)
    | refine Frame.step ?_ (by with_reducible apply putTile_frame) (by decide)
    | refine Frame.step ?_ (by with_reducible apply State.setAcc_frame) (by decide)
    | split
    | dsimp only

theorem sweepOld_frame (at_ x s) : Frame [.so, .acc, .mm, .fresh] s (sweepOld at_ x s) := by
  unfold sweepOld
  repeat' first
    | with_reducible apply Frame.refl
    | with_reducible apply Frame.ite <;> intro _
    | refine Frame.step ?_ (by with_reducible apply readTile_frame) (by decide)
    | refine Frame.pair22 (by assumption) ?_ (by with_reducible apply readTile_frame) (by decide)
    | refine Frame.step ?_ (by with_reducible apply emitTile_frame) (by decide)
    | refine Frame.step ?_ (by with_reducible apply raise_frame) (by decide)
    | refine Frame.step ?_ (by with_reducible apply State.setAcc_frame) (by decide)
    | with_reducible refine Frame.foldl ?_ (fun _ _ => ?_)
    | with_reducible refine Frame.foldl2 ?_ (fun _ _ => ?_)
    | split
    | dsimp only

theorem startNew_frame (at_ s) : Frame [.so, .acc, .mm, .fresh] s (startNew at_ s) := by
  unfold startNew
  repeat' first
    | with_reducible apply Frame.refl
    | with_reducible apply Frame.ite <;> intro _
    | refine Frame.step ?_ (by with_reducible apply startTile_frame) (by decide)
    | refine Frame.pair22 (by assumption) ?_ (by with_reducible apply startTile_frame) (by decide)
    | refine Frame.step ?_ (by with_reducible apply putTile_frame) (by decide)
    | refine Frame.step ?_ (by with_reducible apply State.setAcc_frame) (by decide)
    | with_reducible refine Frame.foldl ?_ (fun _ _ => ?_)
    | with_reducible refine Frame.foldl2 ?_ (fun _ _ => ?_)
    | split
    | dsimp only

theorem owedNow_frame (at_ s) : Frame [.acc] s (owedNow at_ s) := by
  unfold owedNow
  repeat' first
    | with_reducible apply Frame.refl
    | with_reducible apply Frame.ite <;> intro _
    | refine Frame.step ?_ (by with_reducible apply State.setAcc_frame) (by decide)
    | split
    | dsimp only

theorem sweepOwed_frame (s0) : Frame [.so, .acc, .mm, .fresh] s0 (sweepOwed s0) := by
  unfold sweepOwed
  repeat' first
    | with_reducible apply Frame.refl
    | with_reducible apply Frame.ite <;> intro _
    | refine Frame.step ?_ (by with_reducible apply owedNow_frame) (by decide)
    | refine Frame.step ?_ (by with_reducible apply sweepOld_frame) (by decide)
    | refine Frame.step ?_ (by with_reducible apply startNew_frame) (by decide)
    | with_reducible refine Frame.foldl ?_ (fun _ _ => ?_)
    | with_reducible refine Frame.foldl2 ?_ (fun _ _ => ?_)
    | split
    | dsimp only

theorem dropDumps_frame (at_ s) : Frame [.acc, .out] s (dropDumps at_ s) := by
  refine ⟨fun p hp => ?_⟩; cases p <;> first | rfl | exact absurd (by decide) hp

theorem accCommit_frame (at_ old new s) : Frame [.so, .acc, .mm, .out, .fresh] s (accCommit at_ old new s) := by
  unfold accCommit
  repeat' first
    | with_reducible apply Frame.refl
    | with_reducible apply Frame.ite <;> intro _
    | refine Frame.step ?_ (by with_reducible apply dropDumps_frame) (by decide)
    | refine Frame.step ?_ (by with_reducible apply sweepOwed_frame) (by decide)
    | refine Frame.step ?_ (by with_reducible apply State.setAcc_frame) (by decide)
    | split
    | dsimp only

theorem accApply_frame (x s) : Frame [.so, .acc, .mm, .out, .dict, .fresh] s (accApply x s) := by
  unfold accApply
  repeat' first
    | with_reducible apply Frame.refl
    | with_reducible apply Frame.ite <;> intro _
    | refine Frame.step ?_ (by with_reducible apply State.noteUnit_frame) (by decide)
    | refine Frame.step ?_ (by with_reducible apply accCommit_frame) (by decide)
    | refine Frame.step ?_ (by with_reducible apply sweepOwed_frame) (by decide)
    | refine Frame.step ?_ (by with_reducible apply State.noteApplied_frame) (by decide)
    | split
    | dsimp only

theorem foldOp_frame (st ecc s0) : Frame [.so, .fab, .acc, .mm, .out, .dict, .fresh] s0 (foldOp st ecc s0) := by
  unfold foldOp
  split
  · exact Frame.refl _ _
  · next f _ =>
    have h := accApply_frame f.x0 s0
    dsimp only
    generalize accApply f.x0 s0 = s at h ⊢
    refine Frame.ite (fun _ => h.weaken (by decide)) (fun _ =>
      Frame.ite (fun _ => (h.weaken (by decide)).step (queueFull_frame ..) (by decide)) (fun _ => ?_))
    generalize s.intAt (s.setAt f.x0) f.c f.x0 = p
    generalize hs : ({ s with fab := { s.fab with folds := s.fab.folds.filter fun g => g.seq != f.seq } } : State) = s1
    have g := hs ▸ h.weaken2 (Frame.with_fab s _)
    have k := openTile_frame f.c f.tile p ecc s1
    generalize openTile f.c f.tile p ecc s1 = o at k ⊢
    obtain ⟨b, vals, s2⟩ := o
    exact Frame.ite (fun _ => ((g.weaken (by decide)).step k (by decide)).step (applyFold_frame ..) (by decide))
      (fun _ => g.weaken (by decide))

theorem noticeTile_frame (c p t s) : Frame [.so, .acc, .mm, .fresh] s (noticeTile c p t s) := by
  unfold noticeTile
  repeat' first
    | with_reducible apply Frame.refl
    | with_reducible apply Frame.ite <;> intro _
    | refine Frame.step ?_ (by with_reducible apply openTile_frame) (by decide)
    | refine Frame.pair22 (by assumption) ?_ (by with_reducible apply openTile_frame) (by decide)
    | refine Frame.step ?_ (by with_reducible apply putTile_frame) (by decide)
    | split
    | dsimp only

theorem noticeOp_frame (s0) : Frame [.so, .fab, .acc, .mm, .out, .dict, .fresh] s0 (noticeOp s0) := by
  unfold noticeOp
  split
  · exact Frame.refl _ _
  · next n r _ =>
    dsimp only
    refine Frame.ite (fun _ => Frame.refl _ _) (fun _ => ?_)
    have h := (accApply_frame n.x0 s0)
    generalize accApply n.x0 s0 = s at h ⊢
    refine Frame.ite (fun _ => ?_) (fun _ => Frame.ite (fun _ => h.weaken (by decide))
      (fun _ => (h.weaken (by decide)).step (queueFull_frame ..) (by decide)))
    exact Frame.foldl (((h.weaken (by decide)).step (Frame.with_fab s _) (by decide)).step (exclRun_frame ..) (by decide))
      (fun v t => (noticeTile_frame ..).weaken (by decide))

theorem sweepChan_frame (m x0 c s) : Frame [.so, .acc, .mm, .fresh] s (sweepChan m x0 c s) := by
  unfold sweepChan
  repeat' first
    | with_reducible apply Frame.refl
    | with_reducible apply Frame.ite <;> intro _
    | refine Frame.step ?_ (by with_reducible apply sweepTile_frame) (by decide)
    | refine Frame.step ?_ (by with_reducible apply raise_frame) (by decide)
    | with_reducible refine Frame.foldl ?_ (fun _ _ => ?_)
    | with_reducible refine Frame.foldl2 ?_ (fun _ _ => ?_)
    | split
    | dsimp only

theorem accReset_frame (st s) : Frame [.so, .acc, .mm] s (accReset st s) := by
  unfold accReset
  repeat' first
    | with_reducible apply Frame.refl
    | with_reducible apply Frame.ite <;> intro _
    | refine Frame.step ?_ (by with_reducible apply putBook_frame) (by decide)
    | refine Frame.step ?_ (by with_reducible apply State.setAcc_frame) (by decide)
    | refine Frame.step ?_ (by with_reducible apply raise_frame) (by decide)
    | with_reducible refine Frame.foldl ?_ (fun _ _ => ?_)
    | with_reducible refine Frame.foldl2 ?_ (fun _ _ => ?_)
    | split
    | dsimp only

end Sys2Proof.Machine
end

