-- ==== Sys2Proof/Laws/FrameFabric.lean ====
section
/-! SUPPORT. What each operation of Machine/Fabric.lean may change. -/

set_option Elab.async false

namespace Sys2Proof.Machine

open Sys2Proof

theorem State.setFab_frame (s f) : Frame [.fab] s (State.setFab s f) := by
  refine ⟨fun p hp => ?_⟩; cases p <;> first | rfl | exact absurd (by decide) hp

theorem State.setCl_frame (s k v) : Frame [.fab] s (State.setCl s k v) := by
  refine ⟨fun p hp => ?_⟩; cases p <;> first | rfl | exact absurd (by decide) hp

theorem State.setPos_frame (s k p v) : Frame [.fab] s (State.setPos s k p v) := by
  refine ⟨fun p hp => ?_⟩; cases p <;> first | rfl | exact absurd (by decide) hp

theorem lateRead_frame (k c b key s) : Frame [.so, .fab] s (lateRead k c b key s) := by
  unfold lateRead
  repeat' first
    | with_reducible apply Frame.refl
    | with_reducible apply Frame.ite <;> intro _
    | refine Frame.step ?_ (by with_reducible apply State.setCl_frame) (by decide)
    | refine Frame.step ?_ (by with_reducible apply raise_frame) (by decide)
    | split
    | dsimp only

theorem readLate_frame (m k c b g q s) : Frame [.so, .fab, .acc] s (readLate m k c b g q s).2 := by
  unfold readLate
  repeat' first
    | with_reducible apply Frame.refl
    | with_reducible apply Frame.ite <;> intro _
    | with_reducible apply Frame.ite2 <;> intro _
    | refine Frame.step ?_ (by with_reducible apply lateRead_frame) (by decide)
    | refine Frame.step ?_ (by with_reducible apply State.setFab_frame) (by decide)
    | refine Frame.step ?_ (by with_reducible apply exclGroup_frame) (by decide)
    | split
    | dsimp only

theorem readWord_frame (m k c b g q h e s) : Frame [.so, .fab, .acc, .fresh] s (readWord m k c b g q h e s).2 := by
  unfold readWord
  repeat' first
    | with_reducible apply Frame.refl
    | with_reducible apply Frame.ite <;> intro _
    | with_reducible apply Frame.ite2 <;> intro _
    | refine Frame.step ?_ (by with_reducible apply eccCheck_frame) (by decide)
    | refine Frame.pair22 (by assumption) ?_ (by with_reducible apply eccCheck_frame) (by decide)
    | refine Frame.step ?_ (by with_reducible apply raiseT_frame) (by decide)
    | refine Frame.step ?_ (by with_reducible apply State.setFab_frame) (by decide)
    | refine Frame.step ?_ (by with_reducible apply exclGroup_frame) (by decide)
    | split
    | dsimp only

theorem countBad_frame (m k c b a q s) : Frame [.so, .fab, .acc] s (countBad m k c b a q s) := by
  unfold countBad
  repeat' first
    | with_reducible apply Frame.refl
    | with_reducible apply Frame.ite <;> intro _
    | refine Frame.step ?_ (by with_reducible apply State.setCl_frame) (by decide)
    | refine Frame.step ?_ (by with_reducible apply exclInput_frame) (by decide)
    | refine Frame.step ?_ (by with_reducible apply raise_frame) (by decide)
    | split
    | dsimp only

theorem countBads_frame (m k c b g q l s) : Frame [.so, .fab, .acc] s (countBads m k c b g q l s) := by
  unfold countBads
  repeat' first
    | with_reducible apply Frame.refl
    | with_reducible apply Frame.ite <;> intro _
    | refine Frame.step ?_ (by with_reducible apply countBad_frame) (by decide)
    | with_reducible refine Frame.foldl ?_ (fun _ _ => ?_)
    | with_reducible refine Frame.foldl2 ?_ (fun _ _ => ?_)
    | split
    | dsimp only

theorem checkOctet_frame (m k c b g q e0 e1 s) : Frame [.so, .fab, .acc, .fresh] s (checkOctet m k c b g q e0 e1 s).2.2 := by
  unfold checkOctet
  repeat' first
    | with_reducible apply Frame.refl
    | with_reducible apply Frame.ite <;> intro _
    | with_reducible apply Frame.ite22 <;> intro _
    | refine Frame.step ?_ (by with_reducible apply readWord_frame) (by decide)
    | refine Frame.pair2 (by assumption) ?_ (by with_reducible apply readWord_frame) (by decide)
    | split
    | dsimp only

theorem readSamples_frame (m k c b g q e0 e1 s) : Frame [.so, .fab, .acc, .fresh] s (readSamples m k c b g q e0 e1 s).2 := by
  unfold readSamples
  repeat' first
    | with_reducible apply Frame.refl
    | with_reducible apply Frame.ite <;> intro _
    | with_reducible apply Frame.ite2 <;> intro _
    | refine Frame.step ?_ (by with_reducible apply readLate_frame) (by decide)
    | refine Frame.pair2 (by assumption) ?_ (by with_reducible apply readLate_frame) (by decide)
    | refine Frame.step ?_ (by with_reducible apply checkOctet_frame) (by decide)
    | refine Frame.pair22 (by assumption) ?_ (by with_reducible apply checkOctet_frame) (by decide)
    | refine Frame.step ?_ (by with_reducible apply countBads_frame) (by decide)
    | split
    | dsimp only

theorem readGroup_frame (m k c b g ecc y6 s) : Frame [.so, .fab, .acc, .fresh] s (readGroup m k c b g ecc y6 s).2 := by
  induction y6 generalizing s with
  | nil => exact Frame.refl _ _
  | cons x r ih =>
    unfold readGroup
    repeat' first
    | with_reducible apply Frame.refl
    | refine Frame.step ?_ (by with_reducible apply ih) (by decide)
    | refine Frame.pair2 (by assumption) ?_ (by with_reducible apply ih) (by decide)
    | with_reducible apply Frame.ite <;> intro _
    | with_reducible apply Frame.ite2 <;> intro _
    | refine Frame.step ?_ (by with_reducible apply readSamples_frame) (by decide)
    | refine Frame.pair2 (by assumption) ?_ (by with_reducible apply readSamples_frame) (by decide)
    | split
    | dsimp only

theorem stagingLoad_frame (c x0 strip ecc s) : Frame [.so, .fab, .acc, .mm, .fresh] s (stagingLoad c x0 strip ecc s) := by
  unfold stagingLoad
  repeat' first
    | with_reducible apply Frame.refl
    | with_reducible apply Frame.ite <;> intro _
    | refine Frame.step ?_ (by with_reducible apply touchInter_frame) (by decide)
    | refine Frame.step ?_ (by with_reducible apply streamTokens_frame) (by decide)
    | refine Frame.step ?_ (by with_reducible apply State.setFab_frame) (by decide)
    | refine Frame.step ?_ (by with_reducible apply dramCheck_frame) (by decide)
    | refine Frame.pair2 (by assumption) ?_ (by with_reducible apply dramCheck_frame) (by decide)
    | refine Frame.step ?_ (by with_reducible apply exclGroup_frame) (by decide)
    | refine Frame.step ?_ (by with_reducible apply State.setAcc_frame) (by decide)
    | with_reducible refine Frame.foldl ?_ (fun _ _ => ?_)
    | with_reducible refine Frame.foldl2 ?_ (fun _ _ => ?_)
    | split
    | dsimp only

theorem windowStart_frame (x0 s) : Frame [.fab, .acc] s (windowStart x0 s) := by
  unfold windowStart
  repeat' first
    | with_reducible apply Frame.refl
    | with_reducible apply Frame.ite <;> intro _
    | refine Frame.step ?_ (by with_reducible apply State.setFab_frame) (by decide)
    | refine Frame.step ?_ (by with_reducible apply State.setAcc_frame) (by decide)
    | split
    | dsimp only

theorem releaseFolds_frame (k s) : Frame [.fab] s (releaseFolds k s) := by
  unfold releaseFolds
  repeat' first
    | with_reducible apply Frame.refl
    | with_reducible apply Frame.ite <;> intro _
    | refine Frame.step ?_ (by with_reducible apply State.setCl_frame) (by decide)
    | refine Frame.step ?_ (by with_reducible apply State.setFab_frame) (by decide)
    | with_reducible refine Frame.foldl ?_ (fun _ _ => ?_)
    | with_reducible refine Frame.foldl2 ?_ (fun _ _ => ?_)
    | split
    | dsimp only

theorem flushNotices_frame (k p s) : Frame [.fab] s (flushNotices k p s) := by
  unfold flushNotices
  repeat' first
    | with_reducible apply Frame.refl
    | with_reducible apply Frame.ite <;> intro _
    | refine Frame.step ?_ (by with_reducible apply State.setCl_frame) (by decide)
    | refine Frame.step ?_ (by with_reducible apply State.setFab_frame) (by decide)
    | split
    | dsimp only

theorem withdraw_frame (k n s) : Frame [.fab] s (withdraw k n s) := by
  unfold withdraw
  repeat' first
    | with_reducible apply Frame.refl
    | with_reducible apply Frame.ite <;> intro _
    | refine Frame.step ?_ (by with_reducible apply State.setCl_frame) (by decide)
    | refine Frame.step ?_ (by with_reducible apply flushNotices_frame) (by decide)
    | split
    | dsimp only

theorem spreadRun_frame (w m k p n s) : Frame [.fab] s (spreadRun w m k p n s) := by
  unfold spreadRun
  repeat' first
    | with_reducible apply Frame.refl
    | with_reducible apply Frame.ite <;> intro _
    | refine Frame.step ?_ (by with_reducible apply State.setFab_frame) (by decide)
    | refine Frame.step ?_ (by with_reducible apply State.setPos_frame) (by decide)
    | with_reducible refine Frame.foldl ?_ (fun _ _ => ?_)
    | with_reducible refine Frame.foldl2 ?_ (fun _ _ => ?_)
    | split
    | dsimp only

theorem spreadDue_frame (w m n s) : Frame [.fab] s (spreadDue w m n s) := by
  unfold spreadDue
  repeat' first
    | with_reducible apply Frame.refl
    | with_reducible apply Frame.ite <;> intro _
    | refine Frame.step ?_ (by with_reducible apply spreadRun_frame) (by decide)
    | with_reducible refine Frame.foldl ?_ (fun _ _ => ?_)
    | with_reducible refine Frame.foldl2 ?_ (fun _ _ => ?_)
    | split
    | dsimp only

theorem segmentEnd_frame (k p ecc s0) : Frame [.so, .fab, .acc, .fresh] s0 (segmentEnd k p ecc s0) := by
  unfold segmentEnd
  repeat' first
    | with_reducible apply Frame.refl
    | with_reducible apply Frame.ite <;> intro _
    | refine Frame.step ?_ (by with_reducible apply spreadDue_frame) (by decide)
    | refine Frame.step ?_ (by with_reducible apply State.setPos_frame) (by decide)
    | refine Frame.step ?_ (by with_reducible apply withdraw_frame) (by decide)
    | refine Frame.step ?_ (by with_reducible apply readGroup_frame) (by decide)
    | refine Frame.pair2 (by assumption) ?_ (by with_reducible apply readGroup_frame) (by decide)
    | refine Frame.step ?_ (by with_reducible apply State.setCl_frame) (by decide)
    | refine Frame.step ?_ (by with_reducible apply State.setFab_frame) (by decide)
    | refine Frame.step ?_ (by with_reducible apply releaseFolds_frame) (by decide)
    | refine Frame.step ?_ (by with_reducible apply raise_frame) (by decide)
    | split
    | dsimp only

theorem clusterEnd_frame (w m k s) : Frame [.so, .fab] s (clusterEnd w m k s).2 := by
  unfold clusterEnd
  repeat' first
    | with_reducible apply Frame.refl
    | with_reducible apply Frame.ite <;> intro _
    | with_reducible apply Frame.ite2 <;> intro _
    | refine Frame.step ?_ (by with_reducible apply flushNotices_frame) (by decide)
    | refine Frame.step ?_ (by with_reducible apply State.setFab_frame) (by decide)
    | refine Frame.step ?_ (by with_reducible apply State.setCl_frame) (by decide)
    | refine Frame.step ?_ (by with_reducible apply raise_frame) (by decide)
    | split
    | dsimp only

theorem windowEnd_frame (s) : Frame [.so, .fab, .acc, .mm, .out, .dict, .fresh] s (windowEnd s) := by
  unfold windowEnd
  repeat' first
    | with_reducible apply Frame.refl
    | with_reducible apply Frame.ite <;> intro _
    | refine Frame.step ?_ (by with_reducible apply clusterEnd_frame) (by decide)
    | refine Frame.pair2 (by assumption) ?_ (by with_reducible apply clusterEnd_frame) (by decide)
    | refine Frame.step ?_ (by with_reducible apply accApply_frame) (by decide)
    | refine Frame.step ?_ (by with_reducible apply State.setFab_frame) (by decide)
    | refine Frame.step ?_ (by with_reducible apply sweepChan_frame) (by decide)
    | with_reducible refine Frame.foldl ?_ (fun _ _ => ?_)
    | with_reducible refine Frame.foldl2 ?_ (fun _ _ => ?_)
    | with_reducible refine Frame.foldl22 ?_ (fun _ _ => ?_)
    | split
    | dsimp only

theorem cutBeam_frame (k p s) : Frame [.fab] s (cutBeam k p s) := by
  unfold cutBeam
  repeat' first
    | with_reducible apply Frame.refl
    | with_reducible apply Frame.ite <;> intro _
    | refine Frame.step ?_ (by with_reducible apply State.setFab_frame) (by decide)
    | split
    | dsimp only

theorem clusterReset_frame (k s0) : Frame [.fab] s0 (clusterReset k s0) := by
  unfold clusterReset
  repeat' first
    | with_reducible apply Frame.refl
    | with_reducible apply Frame.ite <;> intro _
    | refine Frame.step ?_ (by with_reducible apply cutBeam_frame) (by decide)
    | refine Frame.step ?_ (by with_reducible apply State.setFab_frame) (by decide)
    | refine Frame.step ?_ (by with_reducible apply State.setPos_frame) (by decide)
    | refine Frame.step ?_ (by with_reducible apply flushNotices_frame) (by decide)
    | with_reducible refine Frame.foldl ?_ (fun _ _ => ?_)
    | with_reducible refine Frame.foldl2 ?_ (fun _ _ => ?_)
    | split
    | dsimp only

theorem seedAll_frame (m s) : Frame [.fab] s (seedAll m s) := by
  unfold seedAll
  repeat' first
    | with_reducible apply Frame.refl
    | with_reducible apply Frame.ite <;> intro _
    | refine Frame.step ?_ (by with_reducible apply State.setCl_frame) (by decide)
    | with_reducible refine Frame.forRange ?_ (fun _ _ => ?_)
    | split
    | dsimp only

theorem clusterCommit_frame (k old new s) : Frame [.fab] s (clusterCommit k old new s) := by
  unfold clusterCommit
  repeat' first
    | with_reducible apply Frame.refl
    | with_reducible apply Frame.ite <;> intro _
    | refine Frame.step ?_ (by with_reducible apply State.setCl_frame) (by decide)
    | split
    | dsimp only

end Sys2Proof.Machine
end

