-- ==== Sys2Proof/Laws/FrameOutput.lean ====
section
/-! SUPPORT. What each operation of Machine/Output.lean may change. -/

set_option Elab.async false

namespace Sys2Proof.Machine

open Sys2Proof

theorem State.setOut_frame (s o) : Frame [.out] s (State.setOut s o) := by
  refine ⟨fun p hp => ?_⟩; cases p <;> first | rfl | exact absurd (by decide) hp

theorem State.setComp_frame (s k v) : Frame [.out] s (State.setComp s k v) := by
  refine ⟨fun p hp => ?_⟩; cases p <;> first | rfl | exact absurd (by decide) hp

theorem State.setOlane_frame (s l v) : Frame [.out] s (State.setOlane s l v) := by
  refine ⟨fun p hp => ?_⟩; cases p <;> first | rfl | exact absurd (by decide) hp

theorem takeDumps_frame (s) : Frame [.out] s (takeDumps s) := by
  unfold takeDumps
  repeat' first
    | with_reducible apply Frame.refl
    | with_reducible apply Frame.ite <;> intro _
    | refine Frame.step ?_ (by with_reducible apply State.setOut_frame) (by decide)
    | with_reducible refine Frame.foldl ?_ (fun _ _ => ?_)
    | with_reducible refine Frame.foldl2 ?_ (fun _ _ => ?_)
    | split
    | dsimp only

theorem countBytes_frame (etype raw out s) : Frame [.out] s (countBytes etype raw out s) := by
  unfold countBytes
  repeat' first
    | with_reducible apply Frame.refl
    | with_reducible apply Frame.ite <;> intro _
    | refine Frame.step ?_ (by with_reducible apply State.setOut_frame) (by decide)
    | split
    | dsimp only

theorem advance_frame (x e s) : Frame [.out] s (advance x e s) := by
  unfold advance
  repeat' first
    | with_reducible apply Frame.refl
    | with_reducible apply Frame.ite <;> intro _
    | refine Frame.step ?_ (by with_reducible apply State.setOut_frame) (by decide)
    | split
    | dsimp only

theorem assembleGo_frame (y0 s) : Frame [.out] s (assembleGo y0 s) := by
  induction y0 generalizing s with
  | zero => exact Frame.refl _ _
  | succ n ih =>
    unfold assembleGo
    repeat' first
    | with_reducible apply Frame.refl
    | refine Frame.step ?_ (by with_reducible apply ih) (by decide)
    | with_reducible apply Frame.ite <;> intro _
    | refine Frame.step ?_ (by with_reducible apply State.setOut_frame) (by decide)
    | refine Frame.step ?_ (by with_reducible apply countBytes_frame) (by decide)
    | refine Frame.step ?_ (by with_reducible apply advance_frame) (by decide)
    | refine Frame.step ?_ (by with_reducible apply State.setComp_frame) (by decide)
    | split
    | dsimp only

theorem assemble_frame (s) : Frame [.out] s (assemble s) := by
  unfold assemble
  repeat' first
    | with_reducible apply Frame.refl
    | with_reducible apply Frame.ite <;> intro _
    | refine Frame.step ?_ (by with_reducible apply takeDumps_frame) (by decide)
    | refine Frame.step ?_ (by with_reducible apply assembleGo_frame) (by decide)
    | split
    | dsimp only

theorem emitStream_frame (x s) : Frame [.out] s (emitStream x s) := by
  unfold emitStream
  repeat' first
    | with_reducible apply Frame.refl
    | with_reducible apply Frame.ite <;> intro _
    | refine Frame.step ?_ (by with_reducible apply assemble_frame) (by decide)
    | refine Frame.step ?_ (by with_reducible apply State.setOut_frame) (by decide)
    | split
    | dsimp only

theorem dumpPort_frame (d first n s) : Frame [.mm] s (dumpPort d first n s) := by
  unfold dumpPort
  repeat' first
    | with_reducible apply Frame.refl
    | with_reducible apply Frame.ite <;> intro _
    | refine Frame.step ?_ (by with_reducible apply usePort_frame) (by decide)
    | with_reducible refine Frame.foldl ?_ (fun _ _ => ?_)
    | with_reducible refine Frame.foldl2 ?_ (fun _ _ => ?_)
    | split
    | dsimp only

theorem dumpReads_frame (d ecc s) : Frame [.so, .acc, .mm, .fresh] s (dumpReads d ecc s) := by
  unfold dumpReads
  repeat' first
    | with_reducible apply Frame.refl
    | with_reducible apply Frame.ite <;> intro _
    | refine Frame.step ?_ (by with_reducible apply dramCheck_frame) (by decide)
    | refine Frame.pair2 (by assumption) ?_ (by with_reducible apply dramCheck_frame) (by decide)
    | refine Frame.step ?_ (by with_reducible apply setBad_frame) (by decide)
    | refine Frame.step ?_ (by with_reducible apply State.setAcc_frame) (by decide)
    | with_reducible refine Frame.foldl ?_ (fun _ _ => ?_)
    | with_reducible refine Frame.foldl2 ?_ (fun _ _ => ?_)
    | split
    | dsimp only

theorem historyCheck_frame (k chan e s) : Frame [.so, .out, .fresh] s (historyCheck k chan e s).2 := by
  unfold historyCheck
  repeat' first
    | with_reducible apply Frame.refl
    | with_reducible apply Frame.ite <;> intro _
    | with_reducible apply Frame.ite2 <;> intro _
    | refine Frame.step ?_ (by with_reducible apply eccCheck_frame) (by decide)
    | refine Frame.pair22 (by assumption) ?_ (by with_reducible apply eccCheck_frame) (by decide)
    | refine Frame.step ?_ (by with_reducible apply raiseT_frame) (by decide)
    | refine Frame.step ?_ (by with_reducible apply State.setComp_frame) (by decide)
    | split
    | dsimp only

theorem compressOp_frame (k hist mismatch reads s0) : Frame [.so, .acc, .mm, .out, .fresh] s0 (compressOp k hist mismatch reads s0) := by
  unfold compressOp
  repeat' first
    | with_reducible apply Frame.refl
    | with_reducible apply Frame.ite <;> intro _
    | refine Frame.step ?_ (by with_reducible apply takeDumps_frame) (by decide)
    | refine Frame.step ?_ (by with_reducible apply assemble_frame) (by decide)
    | refine Frame.step ?_ (by with_reducible apply dumpReads_frame) (by decide)
    | refine Frame.step ?_ (by with_reducible apply dumpPort_frame) (by decide)
    | refine Frame.step ?_ (by with_reducible apply State.setComp_frame) (by decide)
    | refine Frame.step ?_ (by with_reducible apply historyCheck_frame) (by decide)
    | refine Frame.pair2 (by assumption) ?_ (by with_reducible apply historyCheck_frame) (by decide)
    | refine Frame.step ?_ (by with_reducible apply raise_frame) (by decide)
    | refine Frame.step ?_ (by with_reducible apply countBytes_frame) (by decide)
    | refine Frame.step ?_ (by with_reducible apply advance_frame) (by decide)
    | split
    | dsimp only

theorem segmentStallOp_frame (u s) : Frame [.so, .out] s (segmentStallOp u s) := by
  unfold segmentStallOp
  repeat' first
    | with_reducible apply Frame.refl
    | with_reducible apply Frame.ite <;> intro _
    | refine Frame.step ?_ (by with_reducible apply raise_frame) (by decide)
    | refine Frame.step ?_ (by with_reducible apply State.setComp_frame) (by decide)
    | refine Frame.step ?_ (by with_reducible apply State.setOut_frame) (by decide)
    | split
    | dsimp only

theorem segmentCheck_frame (l e n r0 s) : Frame [.so, .out, .fresh] s (segmentCheck l e n r0 s).2 := by
  unfold segmentCheck
  repeat' first
    | with_reducible apply Frame.refl
    | with_reducible apply Frame.ite <;> intro _
    | with_reducible apply Frame.ite2 <;> intro _
    | refine Frame.step ?_ (by with_reducible apply eccCheck_frame) (by decide)
    | refine Frame.pair22 (by assumption) ?_ (by with_reducible apply eccCheck_frame) (by decide)
    | refine Frame.step ?_ (by with_reducible apply raiseT_frame) (by decide)
    | refine Frame.step ?_ (by with_reducible apply State.setOut_frame) (by decide)
    | refine Frame.step ?_ (by with_reducible apply State.setComp_frame) (by decide)
    | split
    | dsimp only

theorem sendEnv_frame (l e ecc s) : Frame [.so, .lanes, .out, .fresh, .outbox] s (sendEnv l e ecc s).2 := by
  unfold sendEnv
  repeat' first
    | with_reducible apply Frame.refl
    | with_reducible apply Frame.ite <;> intro _
    | with_reducible apply Frame.ite2 <;> intro _
    | refine Frame.step ?_ (by with_reducible apply segmentCheck_frame) (by decide)
    | refine Frame.pair2 (by assumption) ?_ (by with_reducible apply segmentCheck_frame) (by decide)
    | refine Frame.step ?_ (by with_reducible apply sendWords_frame) (by decide)
    | refine Frame.step ?_ (by with_reducible apply State.setOlane_frame) (by decide)
    | with_reducible refine Frame.foldl ?_ (fun _ _ => ?_)
    | with_reducible refine Frame.foldl2 ?_ (fun _ _ => ?_)
    | with_reducible refine Frame.foldl22 ?_ (fun _ _ => ?_)
    | split
    | dsimp only

theorem assignOp_frame (ecc s0) : Frame [.so, .lanes, .out, .fresh, .outbox] s0 (assignOp ecc s0) := by
  unfold assignOp
  repeat' first
    | with_reducible apply Frame.refl
    | with_reducible apply Frame.ite <;> intro _
    | refine Frame.step ?_ (by with_reducible apply assemble_frame) (by decide)
    | refine Frame.step ?_ (by with_reducible apply State.setOut_frame) (by decide)
    | refine Frame.step ?_ (by with_reducible apply raise_frame) (by decide)
    | refine Frame.step ?_ (by with_reducible apply sendEnv_frame) (by decide)
    | refine Frame.pair2 (by assumption) ?_ (by with_reducible apply sendEnv_frame) (by decide)
    | refine Frame.step ?_ (by with_reducible apply State.setOlane_frame) (by decide)
    | split
    | dsimp only

theorem pauseCheck_frame (l s) : Frame [.so, .out] s (pauseCheck l s) := by
  unfold pauseCheck
  repeat' first
    | with_reducible apply Frame.refl
    | with_reducible apply Frame.ite <;> intro _
    | refine Frame.step ?_ (by with_reducible apply raise_frame) (by decide)
    | refine Frame.step ?_ (by with_reducible apply State.setOlane_frame) (by decide)
    | split
    | dsimp only

theorem outBlock_frame (l s0) : Frame [.so, .out] s0 (outBlock l s0) := by
  unfold outBlock
  repeat' first
    | with_reducible apply Frame.refl
    | with_reducible apply Frame.ite <;> intro _
    | refine Frame.step ?_ (by with_reducible apply pauseCheck_frame) (by decide)
    | refine Frame.step ?_ (by with_reducible apply State.setOlane_frame) (by decide)
    | split
    | dsimp only

theorem resendAll_frame (l counted ecc s) : Frame [.so, .lanes, .out, .fresh, .outbox] s (resendAll l counted ecc s) := by
  unfold resendAll
  repeat' first
    | with_reducible apply Frame.refl
    | with_reducible apply Frame.ite <;> intro _
    | refine Frame.step ?_ (by with_reducible apply State.setOlane_frame) (by decide)
    | refine Frame.step ?_ (by with_reducible apply sendEnv_frame) (by decide)
    | refine Frame.pair2 (by assumption) ?_ (by with_reducible apply sendEnv_frame) (by decide)
    | refine Frame.step ?_ (by with_reducible apply raiseLim_frame) (by decide)
    | refine Frame.step ?_ (by with_reducible apply pauseCheck_frame) (by decide)
    | with_reducible refine Frame.foldl ?_ (fun _ _ => ?_)
    | with_reducible refine Frame.foldl2 ?_ (fun _ _ => ?_)
    | split
    | dsimp only

theorem outPump_frame (l s) : Frame [.so, .lanes, .out, .fresh, .outbox] s (outPump l s) := by
  unfold outPump
  repeat' first
    | with_reducible apply Frame.refl
    | with_reducible apply Frame.ite <;> intro _
    | refine Frame.step ?_ (by with_reducible apply resendAll_frame) (by decide)
    | split
    | dsimp only

theorem outOfService_frame (l s) : Frame [.so, .out] s (outOfService l s) := by
  unfold outOfService
  repeat' first
    | with_reducible apply Frame.refl
    | with_reducible apply Frame.ite <;> intro _
    | refine Frame.step ?_ (by with_reducible apply State.setOlane_frame) (by decide)
    | refine Frame.step ?_ (by with_reducible apply raise_frame) (by decide)
    | refine Frame.step ?_ (by with_reducible apply State.setOut_frame) (by decide)
    | split
    | dsimp only

theorem startOutSpare_frame (l p from_ s) : Frame [.so, .lanes, .out, .fresh, .outbox] s (startOutSpare l p from_ s) := by
  unfold startOutSpare
  repeat' first
    | with_reducible apply Frame.refl
    | with_reducible apply Frame.ite <;> intro _
    | refine Frame.step ?_ (by with_reducible apply State.modLane_frame) (by decide)
    | refine Frame.step ?_ (by with_reducible apply resendAll_frame) (by decide)
    | refine Frame.step ?_ (by with_reducible apply State.setOlane_frame) (by decide)
    | split
    | dsimp only

theorem outFailed_frame (l s) : Frame [.so, .lanes, .out, .fresh, .outbox] s (outFailed l s) := by
  unfold outFailed
  repeat' first
    | with_reducible apply Frame.refl
    | with_reducible apply Frame.ite <;> intro _
    | refine Frame.step ?_ (by with_reducible apply raise_frame) (by decide)
    | refine Frame.step ?_ (by with_reducible apply State.modLane_frame) (by decide)
    | refine Frame.step ?_ (by with_reducible apply startOutSpare_frame) (by decide)
    | refine Frame.step ?_ (by with_reducible apply outOfService_frame) (by decide)
    | split
    | dsimp only

theorem retryOp_frame (l ecc s) : Frame [.so, .lanes, .out, .fresh, .outbox] s (retryOp l ecc s) := by
  unfold retryOp
  repeat' first
    | with_reducible apply Frame.refl
    | with_reducible apply Frame.ite <;> intro _
    | refine Frame.step ?_ (by with_reducible apply outFailed_frame) (by decide)
    | refine Frame.step ?_ (by with_reducible apply resendAll_frame) (by decide)
    | split
    | dsimp only

theorem backTimeoutOp_frame (l s) : Frame [.so, .lanes, .out, .fresh, .outbox] s (backTimeoutOp l s) := by
  unfold backTimeoutOp
  repeat' first
    | with_reducible apply Frame.refl
    | with_reducible apply Frame.ite <;> intro _
    | refine Frame.step ?_ (by with_reducible apply outFailed_frame) (by decide)
    | split
    | dsimp only

theorem outSpareTimeoutOp_frame (l s) : Frame [.so, .lanes, .out, .fresh, .outbox] s (outSpareTimeoutOp l s) := by
  unfold outSpareTimeoutOp
  repeat' first
    | with_reducible apply Frame.refl
    | with_reducible apply Frame.ite <;> intro _
    | refine Frame.step ?_ (by with_reducible apply raise_frame) (by decide)
    | refine Frame.step ?_ (by with_reducible apply State.modLane_frame) (by decide)
    | refine Frame.step ?_ (by with_reducible apply resendAll_frame) (by decide)
    | refine Frame.step ?_ (by with_reducible apply State.setOlane_frame) (by decide)
    | refine Frame.step ?_ (by with_reducible apply outOfService_frame) (by decide)
    | split
    | dsimp only

theorem outSpareIn_frame (p l s) : Frame [.so, .lanes, .out, .fresh, .outbox] s (outSpareIn p l s) := by
  unfold outSpareIn
  repeat' first
    | with_reducible apply Frame.refl
    | with_reducible apply Frame.ite <;> intro _
    | refine Frame.step ?_ (by with_reducible apply startOutSpare_frame) (by decide)
    | refine Frame.step ?_ (by with_reducible apply raise_frame) (by decide)
    | split
    | dsimp only

theorem finishSpareOut_frame (l p s) : Frame [.so, .lanes, .out] s (finishSpareOut l p s) := by
  unfold finishSpareOut
  repeat' first
    | with_reducible apply Frame.refl
    | with_reducible apply Frame.ite <;> intro _
    | refine Frame.step ?_ (by with_reducible apply State.modLane_frame) (by decide)
    | refine Frame.step ?_ (by with_reducible apply State.setOlane_frame) (by decide)
    | refine Frame.step ?_ (by with_reducible apply raise_frame) (by decide)
    | split
    | dsimp only

theorem outSpareOut_frame (p s) : Frame [.so, .lanes, .out] s (outSpareOut p s) := by
  unfold outSpareOut
  repeat' first
    | with_reducible apply Frame.refl
    | with_reducible apply Frame.ite <;> intro _
    | refine Frame.step ?_ (by with_reducible apply finishSpareOut_frame) (by decide)
    | refine Frame.step ?_ (by with_reducible apply State.setOlane_frame) (by decide)
    | refine Frame.step ?_ (by with_reducible apply raise_frame) (by decide)
    | split
    | dsimp only

theorem backWordOp_frame (p ack status chk s) : Frame [.so, .lanes, .out] s (backWordOp p ack status chk s) := by
  unfold backWordOp
  repeat' first
    | with_reducible apply Frame.refl
    | with_reducible apply Frame.ite <;> intro _
    | refine Frame.step ?_ (by with_reducible apply raiseLim_frame) (by decide)
    | refine Frame.step ?_ (by with_reducible apply State.setOlane_frame) (by decide)
    | refine Frame.step ?_ (by with_reducible apply raise_frame) (by decide)
    | refine Frame.step ?_ (by with_reducible apply finishSpareOut_frame) (by decide)
    | refine Frame.step ?_ (by with_reducible apply pauseCheck_frame) (by decide)
    | split
    | dsimp only

theorem dumpSlotFreed_frame (c s) : Frame [.so, .acc, .mm, .out, .fresh] s (dumpSlotFreed c s) := by
  unfold dumpSlotFreed
  repeat' first
    | with_reducible apply Frame.refl
    | with_reducible apply Frame.ite <;> intro _
    | refine Frame.step ?_ (by with_reducible apply State.setAcc_frame) (by decide)
    | refine Frame.step ?_ (by with_reducible apply sweepOwed_frame) (by decide)
    | refine Frame.step ?_ (by with_reducible apply State.setOut_frame) (by decide)
    | split
    | dsimp only

theorem decodeStart_frame (r s) : Frame [.out] s (decodeStart r s) := by
  unfold decodeStart
  repeat' first
    | with_reducible apply Frame.refl
    | with_reducible apply Frame.ite <;> intro _
    | refine Frame.step ?_ (by with_reducible apply State.setOut_frame) (by decide)
    | split
    | dsimp only

theorem decodeEnd_frame (s) : Frame [.out] s (decodeEnd s) := by
  unfold decodeEnd
  repeat' first
    | with_reducible apply Frame.refl
    | with_reducible apply Frame.ite <;> intro _
    | refine Frame.step ?_ (by with_reducible apply State.setOut_frame) (by decide)
    | split
    | dsimp only

theorem compReset_frame (k s) : Frame [.out] s (compReset k s) := by
  unfold compReset
  repeat' first
    | with_reducible apply Frame.refl
    | with_reducible apply Frame.ite <;> intro _
    | refine Frame.step ?_ (by with_reducible apply State.setComp_frame) (by decide)
    | split
    | dsimp only

theorem asmReset_frame (s) : Frame [.so, .lanes, .out, .fresh, .outbox] s (asmReset s) := by
  unfold asmReset
  repeat' first
    | with_reducible apply Frame.refl
    | with_reducible apply Frame.ite <;> intro _
    | refine Frame.step ?_ (by with_reducible apply resendAll_frame) (by decide)
    | with_reducible refine Frame.forRange ?_ (fun _ _ => ?_)
    | split
    | dsimp only

end Sys2Proof.Machine
end

