-- ==== Sys2Proof/Laws/FrameBeams.lean ====
section
/-! SUPPORT. What each operation of Machine/Beams.lean may change. -/

set_option Elab.async false

namespace Sys2Proof.Machine

open Sys2Proof

theorem weightRefused_frame (s) : Frame [.so, .fab] s (weightRefused s) := by
  unfold weightRefused
  repeat' first
    | with_reducible apply Frame.refl
    | with_reducible apply Frame.ite <;> intro _
    | refine Frame.step ?_ (by with_reducible apply raiseLim_frame) (by decide)
    | refine Frame.step ?_ (by with_reducible apply State.setFab_frame) (by decide)
    | split
    | dsimp only

theorem storeGuarded_frame (a bs s) : Frame [.so, .fab, .mm] s (storeGuarded a bs s) := by
  unfold storeGuarded
  repeat' first
    | with_reducible apply Frame.refl
    | with_reducible apply Frame.ite <;> intro _
    | refine Frame.step ?_ (by with_reducible apply weightRefused_frame) (by decide)
    | refine Frame.step ?_ (by with_reducible apply storeBytes_frame) (by decide)
    | split
    | dsimp only

theorem State.setW_frame (s w) : Frame [.fab] s (State.setW s w) := by
  refine ⟨fun p hp => ?_⟩; cases p <;> first | rfl | exact absurd (by decide) hp

theorem weightDiscard_frame (s) : Frame [.so, .fab] s (weightDiscard s) := by
  unfold weightDiscard
  repeat' first
    | with_reducible apply Frame.refl
    | with_reducible apply Frame.ite <;> intro _
    | refine Frame.step ?_ (by with_reducible apply raise_frame) (by decide)
    | refine Frame.step ?_ (by with_reducible apply State.setW_frame) (by decide)
    | split
    | dsimp only

theorem weightSwapOp_frame (eff seq s) : Frame [.so, .fab] s (weightSwapOp eff seq s) := by
  unfold weightSwapOp
  repeat' first
    | with_reducible apply Frame.refl
    | with_reducible apply Frame.ite <;> intro _
    | refine Frame.step ?_ (by with_reducible apply weightDiscard_frame) (by decide)
    | refine Frame.step ?_ (by with_reducible apply raise_frame) (by decide)
    | refine Frame.step ?_ (by with_reducible apply State.setW_frame) (by decide)
    | split
    | dsimp only

theorem weightCancelOp_frame (s) : Frame [.so, .fab] s (weightCancelOp s) := by
  unfold weightCancelOp
  repeat' first
    | with_reducible apply Frame.refl
    | with_reducible apply Frame.ite <;> intro _
    | refine Frame.step ?_ (by with_reducible apply State.setW_frame) (by decide)
    | refine Frame.step ?_ (by with_reducible apply weightDiscard_frame) (by decide)
    | split
    | dsimp only

theorem weightBad_frame (s) : Frame [.so, .fab] s (weightBad s) := by
  unfold weightBad
  repeat' first
    | with_reducible apply Frame.refl
    | with_reducible apply Frame.ite <;> intro _
    | refine Frame.step ?_ (by with_reducible apply raise_frame) (by decide)
    | refine Frame.step ?_ (by with_reducible apply State.setW_frame) (by decide)
    | split
    | dsimp only

theorem weightPrepOp_frame (s) : Frame [.so, .fab] s (weightPrepOp s) := by
  unfold weightPrepOp
  repeat' first
    | with_reducible apply Frame.refl
    | with_reducible apply Frame.ite <;> intro _
    | refine Frame.step ?_ (by with_reducible apply State.setW_frame) (by decide)
    | refine Frame.step ?_ (by with_reducible apply weightBad_frame) (by decide)
    | split
    | dsimp only

theorem weightCommit_frame (p old new s) : Frame [.so, .fab] s (weightCommit p old new s) := by
  unfold weightCommit
  repeat' first
    | with_reducible apply Frame.refl
    | with_reducible apply Frame.ite <;> intro _
    | refine Frame.step ?_ (by with_reducible apply State.setW_frame) (by decide)
    | refine Frame.step ?_ (by with_reducible apply weightBad_frame) (by decide)
    | split
    | dsimp only

theorem weightExchange_frame (x s) : Frame [.fab] s (weightExchange x s) := by
  unfold weightExchange
  repeat' first
    | with_reducible apply Frame.refl
    | with_reducible apply Frame.ite <;> intro _
    | refine Frame.step ?_ (by with_reducible apply State.setW_frame) (by decide)
    | refine Frame.step ?_ (by with_reducible apply State.setFab_frame) (by decide)
    | split
    | dsimp only

theorem weightApply_frame (x s) : Frame [.so, .fab, .dict] s (weightApply x s) := by
  unfold weightApply
  repeat' first
    | with_reducible apply Frame.refl
    | with_reducible apply Frame.ite <;> intro _
    | refine Frame.step ?_ (by with_reducible apply State.noteUnit_frame) (by decide)
    | refine Frame.step ?_ (by with_reducible apply weightCommit_frame) (by decide)
    | refine Frame.step ?_ (by with_reducible apply clusterCommit_frame) (by decide)
    | refine Frame.step ?_ (by with_reducible apply State.noteApplied_frame) (by decide)
    | split
    | dsimp only

theorem beamLoads_frame (m x s) : Frame [.mm] s (beamLoads m x s) := by
  unfold beamLoads
  repeat' first
    | with_reducible apply Frame.refl
    | with_reducible apply Frame.ite <;> intro _
    | refine Frame.step ?_ (by with_reducible apply touchInter_frame) (by decide)
    | refine Frame.step ?_ (by with_reducible apply streamTokens_frame) (by decide)
    | with_reducible refine Frame.foldl ?_ (fun _ _ => ?_)
    | with_reducible refine Frame.foldl2 ?_ (fun _ _ => ?_)
    | split
    | dsimp only

theorem batchOpen_frame (x s) : Frame [.so, .fab, .dict] s (batchOpen x s) := by
  unfold batchOpen
  repeat' first
    | with_reducible apply Frame.refl
    | with_reducible apply Frame.ite <;> intro _
    | refine Frame.step ?_ (by with_reducible apply weightExchange_frame) (by decide)
    | refine Frame.step ?_ (by with_reducible apply weightApply_frame) (by decide)
    | refine Frame.step ?_ (by with_reducible apply State.setFab_frame) (by decide)
    | split
    | dsimp only

theorem batchStartOp_frame (x s) : Frame [.so, .fab, .mm, .dict] s (batchStartOp x s) := by
  unfold batchStartOp
  repeat' first
    | with_reducible apply Frame.refl
    | with_reducible apply Frame.ite <;> intro _
    | refine Frame.step ?_ (by with_reducible apply beamLoads_frame) (by decide)
    | refine Frame.step ?_ (by with_reducible apply batchOpen_frame) (by decide)
    | split
    | dsimp only

theorem weightReads_frame (m x ecc s) : Frame [.so, .fab, .mm, .fresh] s (weightReads m x ecc s).2 := by
  unfold weightReads
  repeat' first
    | with_reducible apply Frame.refl
    | with_reducible apply Frame.ite <;> intro _
    | with_reducible apply Frame.ite2 <;> intro _
    | refine Frame.step ?_ (by with_reducible apply dramCheck_frame) (by decide)
    | refine Frame.pair2 (by assumption) ?_ (by with_reducible apply dramCheck_frame) (by decide)
    | refine Frame.step ?_ (by with_reducible apply eccCheck_frame) (by decide)
    | refine Frame.pair22 (by assumption) ?_ (by with_reducible apply eccCheck_frame) (by decide)
    | refine Frame.step ?_ (by with_reducible apply raiseT_frame) (by decide)
    | refine Frame.step ?_ (by with_reducible apply State.setFab_frame) (by decide)
    | with_reducible refine Frame.foldl ?_ (fun _ _ => ?_)
    | with_reducible refine Frame.foldl2 ?_ (fun _ _ => ?_)
    | with_reducible refine Frame.foldl22 ?_ (fun _ _ => ?_)
    | split
    | dsimp only

theorem beamSamples_frame (m c x frame cut ecc s) : Frame [.so, .fab, .acc, .fresh] s (beamSamples m c x frame cut ecc s).2 := by
  unfold beamSamples
  repeat' first
    | with_reducible apply Frame.refl
    | with_reducible apply Frame.ite <;> intro _
    | with_reducible apply Frame.ite2 <;> intro _
    | refine Frame.step ?_ (by with_reducible apply checkOctet_frame) (by decide)
    | refine Frame.pair22 (by assumption) ?_ (by with_reducible apply checkOctet_frame) (by decide)
    | refine Frame.step ?_ (by with_reducible apply countBads_frame) (by decide)
    | with_reducible refine Frame.foldl ?_ (fun _ _ => ?_)
    | with_reducible refine Frame.foldl2 ?_ (fun _ _ => ?_)
    | with_reducible refine Frame.foldl22 ?_ (fun _ _ => ?_)
    | split
    | dsimp only

theorem beamRow_frame (m x c frame cut lost ecc s) : Frame [.so, .fab, .acc, .fresh] s (beamRow m x c frame cut lost ecc s).2 := by
  unfold beamRow
  repeat' first
    | with_reducible apply Frame.refl
    | with_reducible apply Frame.ite <;> intro _
    | with_reducible apply Frame.ite2 <;> intro _
    | refine Frame.step ?_ (by with_reducible apply beamSamples_frame) (by decide)
    | refine Frame.pair2 (by assumption) ?_ (by with_reducible apply beamSamples_frame) (by decide)
    | split
    | dsimp only

theorem beamRows_frame (m x cut lost ecc s) : Frame [.so, .fab, .acc, .fresh] s (beamRows m x cut lost ecc s).2 := by
  unfold beamRows
  repeat' first
    | with_reducible apply Frame.refl
    | with_reducible apply Frame.ite <;> intro _
    | with_reducible apply Frame.ite2 <;> intro _
    | refine Frame.step ?_ (by with_reducible apply beamRow_frame) (by decide)
    | refine Frame.pair2 (by assumption) ?_ (by with_reducible apply beamRow_frame) (by decide)
    | with_reducible refine Frame.foldl ?_ (fun _ _ => ?_)
    | with_reducible refine Frame.foldl2 ?_ (fun _ _ => ?_)
    | with_reducible refine Frame.foldl22 ?_ (fun _ _ => ?_)
    | split
    | dsimp only

theorem emitVoltages_frame (m x rows s) : Frame [.fab, .out] s (emitVoltages m x rows s) := by
  unfold emitVoltages
  repeat' first
    | with_reducible apply Frame.refl
    | with_reducible apply Frame.ite <;> intro _
    | refine Frame.step ?_ (by with_reducible apply State.setFab_frame) (by decide)
    | refine Frame.step ?_ (by with_reducible apply emitStream_frame) (by decide)
    | split
    | dsimp only

theorem powerCounts_frame (m pw s) : Frame [.fresh] s (powerCounts m pw s).2 := by
  unfold powerCounts
  repeat' first
    | with_reducible apply Frame.refl
    | with_reducible apply Frame.ite <;> intro _
    | with_reducible apply Frame.ite2 <;> intro _
    | refine Frame.step ?_ (by with_reducible apply State.draw_frame) (by decide)
    | refine Frame.pair2 (by assumption) ?_ (by with_reducible apply State.draw_frame) (by decide)
    | with_reducible refine Frame.foldl ?_ (fun _ _ => ?_)
    | with_reducible refine Frame.foldl2 ?_ (fun _ _ => ?_)
    | with_reducible refine Frame.foldl22 ?_ (fun _ _ => ?_)
    | split
    | dsimp only

theorem emitPowers_frame (m x start pw s) : Frame [.fab, .out, .fresh] s (emitPowers m x start pw s) := by
  unfold emitPowers
  repeat' first
    | with_reducible apply Frame.refl
    | with_reducible apply Frame.ite <;> intro _
    | refine Frame.step ?_ (by with_reducible apply powerCounts_frame) (by decide)
    | refine Frame.pair2 (by assumption) ?_ (by with_reducible apply powerCounts_frame) (by decide)
    | refine Frame.step ?_ (by with_reducible apply State.setFab_frame) (by decide)
    | refine Frame.step ?_ (by with_reducible apply emitStream_frame) (by decide)
    | split
    | dsimp only

theorem addPowers_frame (m x rows s) : Frame [.fab, .out, .fresh] s (addPowers m x rows s) := by
  unfold addPowers
  repeat' first
    | with_reducible apply Frame.refl
    | with_reducible apply Frame.ite <;> intro _
    | refine Frame.step ?_ (by with_reducible apply emitPowers_frame) (by decide)
    | refine Frame.step ?_ (by with_reducible apply State.setFab_frame) (by decide)
    | split
    | dsimp only

theorem finishBatch_frame (x cut0 ecc s) : Frame [.so, .fab, .acc, .mm, .out, .fresh] s (finishBatch x cut0 ecc s) := by
  unfold finishBatch
  repeat' first
    | with_reducible apply Frame.refl
    | with_reducible apply Frame.ite <;> intro _
    | refine Frame.step ?_ (by with_reducible apply weightReads_frame) (by decide)
    | refine Frame.pair2 (by assumption) ?_ (by with_reducible apply weightReads_frame) (by decide)
    | refine Frame.step ?_ (by with_reducible apply beamRows_frame) (by decide)
    | refine Frame.pair2 (by assumption) ?_ (by with_reducible apply beamRows_frame) (by decide)
    | refine Frame.step ?_ (by with_reducible apply addPowers_frame) (by decide)
    | refine Frame.step ?_ (by with_reducible apply emitVoltages_frame) (by decide)
    | refine Frame.step ?_ (by with_reducible apply raise_frame) (by decide)
    | refine Frame.step ?_ (by with_reducible apply State.setCl_frame) (by decide)
    | refine Frame.step ?_ (by with_reducible apply State.setFab_frame) (by decide)
    | with_reducible refine Frame.foldl ?_ (fun _ _ => ?_)
    | with_reducible refine Frame.foldl2 ?_ (fun _ _ => ?_)
    | split
    | dsimp only

theorem batchDoneOp_frame (ecc s) : Frame [.so, .fab, .acc, .mm, .out, .fresh] s (batchDoneOp ecc s) := by
  unfold batchDoneOp
  repeat' first
    | with_reducible apply Frame.refl
    | with_reducible apply Frame.ite <;> intro _
    | refine Frame.step ?_ (by with_reducible apply finishBatch_frame) (by decide)
    | split
    | dsimp only

theorem beamDeadlineOp_frame (x late s) : Frame [.so, .fab, .acc, .mm, .out, .dict, .fresh] s (beamDeadlineOp x late s) := by
  unfold beamDeadlineOp
  repeat' first
    | with_reducible apply Frame.refl
    | with_reducible apply Frame.ite <;> intro _
    | refine Frame.step ?_ (by with_reducible apply finishBatch_frame) (by decide)
    | refine Frame.step ?_ (by with_reducible apply batchOpen_frame) (by decide)
    | split
    | dsimp only

theorem beamBlock_frame (s) : Frame [.so, .fab] s (beamBlock s) := by
  unfold beamBlock
  repeat' first
    | with_reducible apply Frame.refl
    | with_reducible apply Frame.ite <;> intro _
    | refine Frame.step ?_ (by with_reducible apply State.setFab_frame) (by decide)
    | refine Frame.step ?_ (by with_reducible apply State.setCl_frame) (by decide)
    | refine Frame.step ?_ (by with_reducible apply raise_frame) (by decide)
    | with_reducible refine Frame.forRange ?_ (fun _ _ => ?_)
    | split
    | dsimp only

end Sys2Proof.Machine
end

