-- ==== Sys2Proof/Laws/FrameDram.lean ====
section
/-! SUPPORT. What each operation of Machine/Dram.lean may change. -/

set_option Elab.async false

namespace Sys2Proof.Machine

open Sys2Proof

theorem wipeStack_frame (n s) : Frame [.mm] s (wipeStack n s) := by
  unfold wipeStack
  repeat' first
    | with_reducible apply Frame.refl
    | with_reducible apply Frame.ite <;> intro _
    | refine Frame.step ?_ (by with_reducible apply Frame.with_mm) (by decide)
    | split
    | dsimp only

theorem trainOp_frame (n s) : Frame [.mm] s (trainOp n s) := by
  unfold trainOp
  repeat' first
    | with_reducible apply Frame.refl
    | with_reducible apply Frame.ite <;> intro _
    | refine Frame.step ?_ (by with_reducible apply State.setStk_frame) (by decide)
    | split
    | dsimp only

theorem trainFail_frame (n s) : Frame [.so, .mm] s (trainFail n s) := by
  unfold trainFail
  repeat' first
    | with_reducible apply Frame.refl
    | with_reducible apply Frame.ite <;> intro _
    | refine Frame.step ?_ (by with_reducible apply raise_frame) (by decide)
    | refine Frame.step ?_ (by with_reducible apply State.setStk_frame) (by decide)
    | split
    | dsimp only

theorem trainDoneOp_frame (n pass s) : Frame [.so, .mm] s (trainDoneOp n pass s) := by
  unfold trainDoneOp
  repeat' first
    | with_reducible apply Frame.refl
    | with_reducible apply Frame.ite <;> intro _
    | refine Frame.step ?_ (by with_reducible apply wipeStack_frame) (by decide)
    | refine Frame.step ?_ (by with_reducible apply State.setStk_frame) (by decide)
    | refine Frame.step ?_ (by with_reducible apply trainFail_frame) (by decide)
    | split
    | dsimp only

theorem refreshOp_frame (n pc bank issue s) : Frame [.mm] s (refreshOp n pc bank issue s) := by
  unfold refreshOp
  repeat' first
    | with_reducible apply Frame.refl
    | with_reducible apply Frame.ite <;> intro _
    | refine Frame.step ?_ (by with_reducible apply State.setStk_frame) (by decide)
    | split
    | dsimp only

theorem tempOp_frame (n t s) : Frame [.so, .mm] s (tempOp n t s) := by
  unfold tempOp
  repeat' first
    | with_reducible apply Frame.refl
    | with_reducible apply Frame.ite <;> intro _
    | refine Frame.step ?_ (by with_reducible apply State.setStk_frame) (by decide)
    | refine Frame.step ?_ (by with_reducible apply raise_frame) (by decide)
    | split
    | dsimp only

theorem dramRead_frame (n x len port ecc s) : Frame [.so, .mm, .fresh] s (dramRead n x len port ecc s).2.2 := by
  unfold dramRead
  repeat' first
    | with_reducible apply Frame.refl
    | with_reducible apply Frame.ite <;> intro _
    | with_reducible apply Frame.ite22 <;> intro _
    | refine Frame.step ?_ (by with_reducible apply dramCheck_frame) (by decide)
    | refine Frame.pair2 (by assumption) ?_ (by with_reducible apply dramCheck_frame) (by decide)
    | with_reducible refine Frame.foldl ?_ (fun _ _ => ?_)
    | with_reducible refine Frame.foldl2 ?_ (fun _ _ => ?_)
    | with_reducible refine Frame.foldl22 ?_ (fun _ _ => ?_)
    | split
    | dsimp only

theorem mergeReads_frame (n x len port ecc s) : Frame [.so, .mm, .fresh] s (mergeReads n x len port ecc s) := by
  unfold mergeReads
  repeat' first
    | with_reducible apply Frame.refl
    | with_reducible apply Frame.ite <;> intro _
    | refine Frame.step ?_ (by with_reducible apply dramCheck_frame) (by decide)
    | refine Frame.pair2 (by assumption) ?_ (by with_reducible apply dramCheck_frame) (by decide)
    | with_reducible refine Frame.foldl ?_ (fun _ _ => ?_)
    | with_reducible refine Frame.foldl2 ?_ (fun _ _ => ?_)
    | split
    | dsimp only

theorem dramWrite_frame (n x port steward data ecc s) : Frame [.so, .fab, .mm, .fresh] s (dramWrite n x port steward data ecc s).2 := by
  unfold dramWrite
  repeat' first
    | with_reducible apply Frame.refl
    | with_reducible apply Frame.ite <;> intro _
    | with_reducible apply Frame.ite2 <;> intro _
    | refine Frame.step ?_ (by with_reducible apply raise_frame) (by decide)
    | refine Frame.step ?_ (by with_reducible apply storeGuarded_frame) (by decide)
    | refine Frame.step ?_ (by with_reducible apply mergeReads_frame) (by decide)
    | split
    | dsimp only

theorem State.setCtrl_frame (s c) : Frame [.ctrl] s (State.setCtrl s c) := by
  refine ⟨fun p hp => ?_⟩; cases p <;> first | rfl | exact absurd (by decide) hp

theorem busBeats_frame (m id epoch resp beat read d s) : Frame [.outbox] s (busBeats m id epoch resp beat read d s) := by
  unfold busBeats
  repeat' first
    | with_reducible apply Frame.refl
    | with_reducible apply Frame.ite <;> intro _
    | refine Frame.step ?_ (by with_reducible apply State.send_frame) (by decide)
    | with_reducible refine Frame.foldl ?_ (fun _ _ => ?_)
    | with_reducible refine Frame.foldl2 ?_ (fun _ _ => ?_)
    | split
    | dsimp only

theorem busAnswer_frame (m id epoch resp beat read d s) : Frame [.ctrl, .outbox] s (busAnswer m id epoch resp beat read d s) := by
  unfold busAnswer
  extract_lets _ s1 bs cores
  have h : Frame [.ctrl, .outbox] s s1 := (Frame.with_ctrl s _).weaken (by decide)
  clear_value s1
  exact Frame.ite (fun _ => h) (fun _ => Frame.foldl h (fun v x =>
    Frame.foldl (Frame.refl _ _) (fun w k => (State.send_frame ..).weaken (by decide))))

theorem reqReply_frame (r resp d s) : Frame [.ctrl, .outbox] s (reqReply r resp d s) := by
  unfold reqReply
  repeat' first
    | with_reducible apply Frame.refl
    | with_reducible apply Frame.ite <;> intro _
    | refine Frame.step ?_ (by with_reducible apply busAnswer_frame) (by decide)
    | split
    | dsimp only

theorem reqServe_frame (n r s) : Frame [.so, .fab, .mm, .ctrl, .fresh, .outbox] s (reqServe n r s) := by
  unfold reqServe
  repeat' first
    | with_reducible apply Frame.refl
    | with_reducible apply Frame.ite <;> intro _
    | refine Frame.step ?_ (by with_reducible apply raise_frame) (by decide)
    | refine Frame.step ?_ (by with_reducible apply dramWrite_frame) (by decide)
    | refine Frame.pair2 (by assumption) ?_ (by with_reducible apply dramWrite_frame) (by decide)
    | refine Frame.step ?_ (by with_reducible apply reqReply_frame) (by decide)
    | refine Frame.step ?_ (by with_reducible apply dramRead_frame) (by decide)
    | refine Frame.pair22 (by assumption) ?_ (by with_reducible apply dramRead_frame) (by decide)
    | split
    | dsimp only

theorem serveGo_frame (n y1 s) : Frame [.so, .fab, .mm, .ctrl, .fresh, .outbox] s (serveGo n y1 s) := by
  induction y1 generalizing s with
  | zero => exact Frame.refl _ _
  | succ n ih =>
    unfold serveGo
    repeat' first
    | with_reducible apply Frame.refl
    | refine Frame.step ?_ (by with_reducible apply ih) (by decide)
    | with_reducible apply Frame.ite <;> intro _
    | refine Frame.step ?_ (by with_reducible apply reqServe_frame) (by decide)
    | refine Frame.step ?_ (by with_reducible apply usePort_frame) (by decide)
    | refine Frame.step ?_ (by with_reducible apply State.setStk_frame) (by decide)
    | split
    | dsimp only

theorem serveNow_frame (n p s) : Frame [.so, .fab, .mm, .ctrl, .fresh, .outbox] s (serveNow n p s) := by
  unfold serveNow
  repeat' first
    | with_reducible apply Frame.refl
    | with_reducible apply Frame.ite <;> intro _
    | refine Frame.step ?_ (by with_reducible apply reqServe_frame) (by decide)
    | refine Frame.step ?_ (by with_reducible apply usePort_frame) (by decide)
    | refine Frame.step ?_ (by with_reducible apply State.setStk_frame) (by decide)
    | with_reducible refine Frame.foldl ?_ (fun _ _ => ?_)
    | with_reducible refine Frame.foldl2 ?_ (fun _ _ => ?_)
    | split
    | dsimp only

theorem serveBefore_frame (n x len s) : Frame [.so, .fab, .mm, .ctrl, .fresh, .outbox] s (serveBefore n x len s) := by
  unfold serveBefore
  repeat' first
    | with_reducible apply Frame.refl
    | with_reducible apply Frame.ite <;> intro _
    | refine Frame.step ?_ (by with_reducible apply serveNow_frame) (by decide)
    | split
    | dsimp only

theorem foldWay_frame (st s) : Frame [.so, .fab, .mm, .ctrl, .fresh, .outbox] s (foldWay st s) := by
  unfold foldWay
  repeat' first
    | with_reducible apply Frame.refl
    | with_reducible apply Frame.ite <;> intro _
    | refine Frame.step ?_ (by with_reducible apply serveBefore_frame) (by decide)
    | split
    | dsimp only

theorem serveStack_frame (n s) : Frame [.so, .fab, .mm, .ctrl, .fresh, .outbox] s (serveStack n s) := by
  unfold serveStack
  repeat' first
    | with_reducible apply Frame.refl
    | with_reducible apply Frame.ite <;> intro _
    | refine Frame.step ?_ (by with_reducible apply serveGo_frame) (by decide)
    | refine Frame.step ?_ (by with_reducible apply State.setStk_frame) (by decide)
    | split
    | dsimp only

theorem arriveReq_frame (n r s) : Frame [.so, .fab, .mm, .ctrl, .fresh, .outbox] s (arriveReq n r s) := by
  unfold arriveReq
  repeat' first
    | with_reducible apply Frame.refl
    | with_reducible apply Frame.ite <;> intro _
    | refine Frame.step ?_ (by with_reducible apply serveStack_frame) (by decide)
    | refine Frame.step ?_ (by with_reducible apply State.setStk_frame) (by decide)
    | refine Frame.step ?_ (by with_reducible apply reqReply_frame) (by decide)
    | split
    | dsimp only

theorem stackReset_frame (n s) : Frame [.so, .fab, .mm, .ctrl, .fresh, .outbox] s (stackReset n s) := by
  unfold stackReset
  repeat' first
    | with_reducible apply Frame.refl
    | with_reducible apply Frame.ite <;> intro _
    | refine Frame.step ?_ (by with_reducible apply trainOp_frame) (by decide)
    | refine Frame.step ?_ (by with_reducible apply reqServe_frame) (by decide)
    | refine Frame.step ?_ (by with_reducible apply reqReply_frame) (by decide)
    | refine Frame.step ?_ (by with_reducible apply State.setStk_frame) (by decide)
    | with_reducible refine Frame.foldl ?_ (fun _ _ => ?_)
    | with_reducible refine Frame.foldl2 ?_ (fun _ _ => ?_)
    | split
    | dsimp only

theorem stackCommit_frame (n new s) : Frame [.so, .fab, .mm, .ctrl, .fresh, .outbox] s (stackCommit n new s) := by
  unfold stackCommit
  repeat' first
    | with_reducible apply Frame.refl
    | with_reducible apply Frame.ite <;> intro _
    | refine Frame.step ?_ (by with_reducible apply serveStack_frame) (by decide)
    | refine Frame.step ?_ (by with_reducible apply State.setStk_frame) (by decide)
    | with_reducible refine Frame.foldl ?_ (fun _ _ => ?_)
    | with_reducible refine Frame.foldl2 ?_ (fun _ _ => ?_)
    | split
    | dsimp only

theorem scrubOp_frame (n e s) : Frame [.so, .mm, .fresh] s (scrubOp n e s) := by
  unfold scrubOp
  repeat' first
    | with_reducible apply Frame.refl
    | with_reducible apply Frame.ite <;> intro _
    | refine Frame.step ?_ (by with_reducible apply dramCheck_frame) (by decide)
    | refine Frame.pair2 (by assumption) ?_ (by with_reducible apply dramCheck_frame) (by decide)
    | refine Frame.step ?_ (by with_reducible apply flipWord_frame) (by decide)
    | refine Frame.step ?_ (by with_reducible apply State.setStk_frame) (by decide)
    | split
    | dsimp only

end Sys2Proof.Machine
end

