-- ==== Sys2Proof/Laws/FrameBus.lean ====
section
/-! SUPPORT. What each operation of Machine/Bus.lean may change. -/

set_option Elab.async false

namespace Sys2Proof.Machine

open Sys2Proof

theorem deadLetter_frame (m a s) : Frame [.so, .ctrl] s (deadLetter m a s) := by
  unfold deadLetter
  repeat' first
    | with_reducible apply Frame.refl
    | with_reducible apply Frame.ite <;> intro _
    | refine Frame.step ?_ (by with_reducible apply raiseLim_frame) (by decide)
    | refine Frame.step ?_ (by with_reducible apply Frame.with_so) (by decide)
    | refine Frame.step ?_ (by with_reducible apply Frame.with_ctrl) (by decide)
    | split
    | dsimp only

theorem State.setCore_frame (s c v) : Frame [.tally] s (State.setCore s c v) := by
  refine ⟨fun p hp => ?_⟩; cases p <;> first | rfl | exact absurd (by decide) hp

theorem checkTallyWord_frame (c prog x e s0) : Frame [.so, .mm, .tally, .fresh] s0 (checkTallyWord c prog x e s0).2 := by
  unfold checkTallyWord
  repeat' first
    | with_reducible apply Frame.refl
    | with_reducible apply Frame.ite <;> intro _
    | with_reducible apply Frame.ite2 <;> intro _
    | refine Frame.step ?_ (by with_reducible apply flipWord_frame) (by decide)
    | refine Frame.step ?_ (by with_reducible apply eccCheck_frame) (by decide)
    | refine Frame.pair22 (by assumption) ?_ (by with_reducible apply eccCheck_frame) (by decide)
    | refine Frame.step ?_ (by with_reducible apply raiseT_frame) (by decide)
    | refine Frame.step ?_ (by with_reducible apply State.setCore_frame) (by decide)
    | split
    | dsimp only

theorem checkTallyWords_frame (c prog x n ecc s) : Frame [.so, .mm, .tally, .fresh] s (checkTallyWords c prog x n ecc s).2 := by
  unfold checkTallyWords
  repeat' first
    | with_reducible apply Frame.refl
    | with_reducible apply Frame.ite <;> intro _
    | with_reducible apply Frame.ite2 <;> intro _
    | refine Frame.step ?_ (by with_reducible apply checkTallyWord_frame) (by decide)
    | refine Frame.pair2 (by assumption) ?_ (by with_reducible apply checkTallyWord_frame) (by decide)
    | with_reducible refine Frame.foldl ?_ (fun _ _ => ?_)
    | with_reducible refine Frame.foldl2 ?_ (fun _ _ => ?_)
    | with_reducible refine Frame.foldl22 ?_ (fun _ _ => ?_)
    | split
    | dsimp only

theorem tallyRead_frame (c prog a n ecc s) : Frame [.so, .mm, .tally, .fresh] s (tallyRead c prog a n ecc s).2.2 := by
  unfold tallyRead
  repeat' first
    | with_reducible apply Frame.refl
    | with_reducible apply Frame.ite <;> intro _
    | with_reducible apply Frame.ite22 <;> intro _
    | refine Frame.step ?_ (by with_reducible apply raise_frame) (by decide)
    | refine Frame.step ?_ (by with_reducible apply checkTallyWords_frame) (by decide)
    | refine Frame.pair2 (by assumption) ?_ (by with_reducible apply checkTallyWords_frame) (by decide)
    | split
    | dsimp only

theorem mirrorWord_frame (a one two s) : Frame [.so, .ctrl] s (mirrorWord a one two s).2 := by
  unfold mirrorWord
  repeat' first
    | with_reducible apply Frame.refl
    | with_reducible apply Frame.ite <;> intro _
    | with_reducible apply Frame.ite2 <;> intro _
    | refine Frame.step ?_ (by with_reducible apply raise_frame) (by decide)
    | refine Frame.step ?_ (by with_reducible apply State.setCtrl_frame) (by decide)
    | split
    | dsimp only

theorem sramRead_frame (x n ecc s) : Frame [.so, .ctrl] s (sramRead x n ecc s).2.2 := by
  unfold sramRead
  repeat' first
    | with_reducible apply Frame.refl
    | with_reducible apply Frame.ite <;> intro _
    | with_reducible apply Frame.ite22 <;> intro _
    | refine Frame.step ?_ (by with_reducible apply mirrorWord_frame) (by decide)
    | refine Frame.pair2 (by assumption) ?_ (by with_reducible apply mirrorWord_frame) (by decide)
    | with_reducible refine Frame.foldl ?_ (fun _ _ => ?_)
    | with_reducible refine Frame.foldl2 ?_ (fun _ _ => ?_)
    | with_reducible refine Frame.foldl22 ?_ (fun _ _ => ?_)
    | split
    | dsimp only

theorem busRead_frame (m a n priv ecc s) : Frame [.so, .fab, .mm, .tally, .ctrl, .fresh, .outbox] s (busRead m a n priv ecc s).2.2 := by
  unfold busRead
  repeat' first
    | with_reducible apply Frame.refl
    | with_reducible apply Frame.ite <;> intro _
    | with_reducible apply Frame.ite22 <;> intro _
    | refine Frame.step ?_ (by with_reducible apply deadLetter_frame) (by decide)
    | refine Frame.step ?_ (by with_reducible apply sramRead_frame) (by decide)
    | refine Frame.pair22 (by assumption) ?_ (by with_reducible apply sramRead_frame) (by decide)
    | refine Frame.step ?_ (by with_reducible apply tallyRead_frame) (by decide)
    | refine Frame.pair22 (by assumption) ?_ (by with_reducible apply tallyRead_frame) (by decide)
    | refine Frame.step ?_ (by with_reducible apply dramRead_frame) (by decide)
    | refine Frame.pair22 (by assumption) ?_ (by with_reducible apply dramRead_frame) (by decide)
    | refine Frame.step ?_ (by with_reducible apply usePort_frame) (by decide)
    | refine Frame.step ?_ (by with_reducible apply serveBefore_frame) (by decide)
    | split
    | dsimp only

theorem configIgnored_frame (a s) : Frame [.so] s (configIgnored a s) := by
  unfold configIgnored
  repeat' first
    | with_reducible apply Frame.refl
    | with_reducible apply Frame.ite <;> intro _
    | refine Frame.step ?_ (by with_reducible apply raiseLim_frame) (by decide)
    | split
    | dsimp only

theorem storeRuns_frame (a d strb s) : Frame [.mm] s (storeRuns a d strb s) := by
  unfold storeRuns
  repeat' first
    | with_reducible apply Frame.refl
    | with_reducible apply Frame.ite <;> intro _
    | refine Frame.step ?_ (by with_reducible apply storeBytes_frame) (by decide)
    | with_reducible refine Frame.foldl ?_ (fun _ _ => ?_)
    | with_reducible refine Frame.foldl2 ?_ (fun _ _ => ?_)
    | split
    | dsimp only

theorem dramStore_frame (n x port steward d strb s) : Frame [.so, .fab, .mm, .fresh] s (dramStore n x port steward d strb s).2 := by
  unfold dramStore
  repeat' first
    | with_reducible apply Frame.refl
    | with_reducible apply Frame.ite <;> intro _
    | with_reducible apply Frame.ite2 <;> intro _
    | refine Frame.step ?_ (by with_reducible apply raise_frame) (by decide)
    | refine Frame.step ?_ (by with_reducible apply storeGuarded_frame) (by decide)
    | refine Frame.step ?_ (by with_reducible apply mergeReads_frame) (by decide)
    | with_reducible refine Frame.foldl ?_ (fun _ _ => ?_)
    | with_reducible refine Frame.foldl2 ?_ (fun _ _ => ?_)
    | with_reducible refine Frame.foldl22 ?_ (fun _ _ => ?_)
    | split
    | dsimp only

theorem storeStore_frame (a d strb s) : Frame [.ctrl] s (storeStore a d strb s) := by
  unfold storeStore
  repeat' first
    | with_reducible apply Frame.refl
    | with_reducible apply Frame.ite <;> intro _
    | refine Frame.step ?_ (by with_reducible apply State.setCtrl_frame) (by decide)
    | with_reducible refine Frame.foldl ?_ (fun _ _ => ?_)
    | with_reducible refine Frame.foldl2 ?_ (fun _ _ => ?_)
    | split
    | dsimp only

theorem pageWrite_frame (o d strb s) : Frame [.encl] s (pageWrite o d strb s) := by
  unfold pageWrite
  repeat' first
    | with_reducible apply Frame.refl
    | with_reducible apply Frame.ite <;> intro _
    | refine Frame.step ?_ (by with_reducible apply Frame.with_encl) (by decide)
    | split
    | dsimp only

theorem busWrite_frame (m a priv d strb s) : Frame [.so, .fab, .mm, .ctrl, .encl, .fresh, .outbox] s (busWrite m a priv d strb s).2 := by
  have same : Frame [.so, .fab, .mm, .ctrl, .encl, .fresh, .outbox] s s := Frame.refl _ _
  unfold busWrite
  generalize busTarget s.ctrl.remap a = q
  obtain ⟨t, x⟩ := q
  refine Frame.ite2 (fun _ => (deadLetter_frame ..).weaken (by decide)) (fun _ => ?_)
  cases t with
  | sram => exact Frame.ite2 (fun _ => (storeRuns_frame ..).weaken (by decide)) (fun _ => same)
  | regs => exact Frame.ite2 (fun _ => Frame.ite (fun _ => same) (fun _ => (configIgnored_frame ..).weaken (by decide))) (fun _ => same)
  | tally c prog =>
    exact Frame.ite2 (fun _ => (raise_frame ..).weaken (by decide)) (fun _ => (storeRuns_frame ..).weaken (by decide))
  | enclave =>
    exact Frame.ite2 (fun _ => (pageWrite_frame ..).weaken (by decide)) (fun _ => same)
  | store => exact (storeStore_frame ..).weaken (by decide)
  | dram =>
    exact Frame.ite2 (fun _ => same) (fun _ =>
      (((serveBefore_frame ..).weaken (by decide)).step (usePort_frame ..) (by decide)).step (dramStore_frame ..) (by decide))
  | _ => exact (deadLetter_frame ..).weaken (by decide)

theorem noteGrant_frame (m t s) : Frame [.ctrl] s (noteGrant m t s) := by
  unfold noteGrant
  repeat' first
    | with_reducible apply Frame.refl
    | with_reducible apply Frame.ite <;> intro _
    | refine Frame.step ?_ (by with_reducible apply State.setCtrl_frame) (by decide)
    | split
    | dsimp only

theorem setRemap_frame (b s) : Frame [.ctrl] s (setRemap b s) := by
  unfold setRemap
  repeat' first
    | with_reducible apply Frame.refl
    | with_reducible apply Frame.ite <;> intro _
    | refine Frame.step ?_ (by with_reducible apply State.setCtrl_frame) (by decide)
    | split
    | dsimp only

theorem performReq_frame (r s0) : Frame [.so, .fab, .mm, .tally, .ctrl, .encl, .fresh, .outbox] s0 (performReq r s0) := by
  unfold performReq
  repeat' first
    | with_reducible apply Frame.refl
    | with_reducible apply Frame.ite <;> intro _
    | refine Frame.step ?_ (by with_reducible apply noteGrant_frame) (by decide)
    | refine Frame.step ?_ (by with_reducible apply arriveReq_frame) (by decide)
    | refine Frame.step ?_ (by with_reducible apply State.setCtrl_frame) (by decide)
    | refine Frame.step ?_ (by with_reducible apply busAnswer_frame) (by decide)
    | refine Frame.step ?_ (by with_reducible apply deadLetter_frame) (by decide)
    | refine Frame.step ?_ (by with_reducible apply busWrite_frame) (by decide)
    | refine Frame.pair2 (by assumption) ?_ (by with_reducible apply busWrite_frame) (by decide)
    | refine Frame.step ?_ (by with_reducible apply setRemap_frame) (by decide)
    | refine Frame.step ?_ (by with_reducible apply busRead_frame) (by decide)
    | refine Frame.pair22 (by assumption) ?_ (by with_reducible apply busRead_frame) (by decide)
    | split
    | dsimp only

theorem matrixGo_frame (y0 s) : Frame [.so, .fab, .mm, .tally, .ctrl, .encl, .fresh, .outbox] s (matrixGo y0 s) := by
  induction y0 generalizing s with
  | zero => exact Frame.refl _ _
  | succ n ih =>
    unfold matrixGo
    repeat' first
    | with_reducible apply Frame.refl
    | refine Frame.step ?_ (by with_reducible apply ih) (by decide)
    | with_reducible apply Frame.ite <;> intro _
    | refine Frame.step ?_ (by with_reducible apply State.setCtrl_frame) (by decide)
    | refine Frame.step ?_ (by with_reducible apply performReq_frame) (by decide)
    | split
    | dsimp only

theorem matrixRun_frame (s) : Frame [.so, .fab, .mm, .tally, .ctrl, .encl, .fresh, .outbox] s (matrixRun s) := by
  unfold matrixRun
  repeat' first
    | with_reducible apply Frame.refl
    | with_reducible apply Frame.ite <;> intro _
    | refine Frame.step ?_ (by with_reducible apply matrixGo_frame) (by decide)
    | split
    | dsimp only

theorem issueReq_frame (r s) : Frame [.so, .fab, .mm, .tally, .ctrl, .encl, .fresh, .outbox] s (issueReq r s) := by
  unfold issueReq
  repeat' first
    | with_reducible apply Frame.refl
    | with_reducible apply Frame.ite <;> intro _
    | refine Frame.step ?_ (by with_reducible apply matrixRun_frame) (by decide)
    | refine Frame.step ?_ (by with_reducible apply State.setCtrl_frame) (by decide)
    | split
    | dsimp only

theorem issueBus_frame (m q ecc s) : Frame [.so, .fab, .mm, .tally, .ctrl, .encl, .fresh, .outbox] s (issueBus m q ecc s) := by
  unfold issueBus
  repeat' first
    | with_reducible apply Frame.refl
    | with_reducible apply Frame.ite <;> intro _
    | refine Frame.step ?_ (by with_reducible apply issueReq_frame) (by decide)
    | split
    | dsimp only

theorem forceReqs_frame (k m s) : Frame [.so, .fab, .mm, .ctrl, .fresh, .outbox] s (forceReqs k m s) := by
  unfold forceReqs
  repeat' first
    | with_reducible apply Frame.refl
    | with_reducible apply Frame.ite <;> intro _
    | refine Frame.step ?_ (by with_reducible apply serveNow_frame) (by decide)
    | split
    | dsimp only

theorem settleReqs_frame (m id y2 s) : Frame [.so, .fab, .mm, .tally, .ctrl, .encl, .fresh, .outbox] s (settleReqs m id y2 s) := by
  induction y2 generalizing s with
  | zero => exact Frame.refl _ _
  | succ n ih =>
    unfold settleReqs
    repeat' first
    | with_reducible apply Frame.refl
    | refine Frame.step ?_ (by with_reducible apply ih) (by decide)
    | with_reducible apply Frame.ite <;> intro _
    | refine Frame.step ?_ (by with_reducible apply matrixRun_frame) (by decide)
    | refine Frame.step ?_ (by with_reducible apply forceReqs_frame) (by decide)
    | with_reducible refine Frame.forRange ?_ (fun _ _ => ?_)
    | split
    | dsimp only

theorem ownGrant_frame (m id a n write s) : Frame [.so, .fab, .mm, .tally, .ctrl, .encl, .fresh, .outbox] s (ownGrant m id a n write s) := by
  unfold ownGrant
  repeat' first
    | with_reducible apply Frame.refl
    | with_reducible apply Frame.ite <;> intro _
    | refine Frame.step ?_ (by with_reducible apply noteGrant_frame) (by decide)
    | refine Frame.step ?_ (by with_reducible apply settleReqs_frame) (by decide)
    | split
    | dsimp only

theorem masterRead_frame (m id a n priv ecc s) : Frame [.so, .fab, .mm, .tally, .ctrl, .encl, .fresh, .outbox] s (masterRead m id a n priv ecc s).2.2 := by
  unfold masterRead
  repeat' first
    | with_reducible apply Frame.refl
    | with_reducible apply Frame.ite <;> intro _
    | with_reducible apply Frame.ite22 <;> intro _
    | refine Frame.step ?_ (by with_reducible apply busRead_frame) (by decide)
    | refine Frame.pair22 (by assumption) ?_ (by with_reducible apply busRead_frame) (by decide)
    | refine Frame.step ?_ (by with_reducible apply ownGrant_frame) (by decide)
    | split
    | dsimp only

theorem masterWrite_frame (m id a priv d s) : Frame [.so, .fab, .mm, .tally, .ctrl, .encl, .fresh, .outbox] s (masterWrite m id a priv d s).2 :=
  Frame.step ((ownGrant_frame ..).weaken (by decide)) (busWrite_frame ..) (by decide)

theorem atService_frame {ps : List Part} (w f s) (h : Frame ps s (f s)) : Frame (.dict :: ps) s (atService w f s) :=
  Frame.ite (fun _ => (Frame.with_dict s _).weaken (by simp)) (fun _ => h.weaken (by simp))

theorem debugTap_frame (m s) : Frame [.tap] s (debugTap m s) := by
  unfold debugTap
  repeat' first
    | with_reducible apply Frame.refl
    | with_reducible apply Frame.ite <;> intro _
    | refine Frame.step ?_ (by with_reducible apply Frame.with_tap) (by decide)
    | split
    | dsimp only

theorem deadAccessOp_frame (m id a write n s) : Frame [.so, .fab, .mm, .tally, .ctrl, .encl, .fresh, .outbox] s (deadAccessOp m id a write n s) := by
  unfold deadAccessOp
  repeat' first
    | with_reducible apply Frame.refl
    | with_reducible apply Frame.ite <;> intro _
    | refine Frame.step ?_ (by with_reducible apply issueReq_frame) (by decide)
    | split
    | dsimp only

theorem requestOp_frame (n port m id x len wr late ecc s) : Frame [.so, .fab, .mm, .tally, .ctrl, .encl, .fresh, .outbox] s (requestOp n port m id x len wr late ecc s) := by
  unfold requestOp
  repeat' first
    | with_reducible apply Frame.refl
    | with_reducible apply Frame.ite <;> intro _
    | refine Frame.step ?_ (by with_reducible apply issueReq_frame) (by decide)
    | refine Frame.step ?_ (by with_reducible apply arriveReq_frame) (by decide)
    | split
    | dsimp only

theorem invertEpoch_frame (m s) : Frame [.ctrl] s (invertEpoch m s) := by
  unfold invertEpoch
  repeat' first
    | with_reducible apply Frame.refl
    | with_reducible apply Frame.ite <;> intro _
    | refine Frame.step ?_ (by with_reducible apply State.setCtrl_frame) (by decide)
    | split
    | dsimp only

theorem masterResetOp_frame (m s) : Frame [.so, .fab, .mm, .ctrl, .encl, .fresh, .outbox] s (masterResetOp m s) := by
  unfold masterResetOp
  repeat' first
    | with_reducible apply Frame.refl
    | with_reducible apply Frame.ite <;> intro _
    | refine Frame.step ?_ (by with_reducible apply State.setCtrl_frame) (by decide)
    | refine Frame.step ?_ (by with_reducible apply deadLetter_frame) (by decide)
    | refine Frame.step ?_ (by with_reducible apply setRemap_frame) (by decide)
    | refine Frame.step ?_ (by with_reducible apply busWrite_frame) (by decide)
    | refine Frame.pair2 (by assumption) ?_ (by with_reducible apply busWrite_frame) (by decide)
    | refine Frame.step ?_ (by with_reducible apply invertEpoch_frame) (by decide)
    | with_reducible refine Frame.foldl ?_ (fun _ _ => ?_)
    | with_reducible refine Frame.foldl2 ?_ (fun _ _ => ?_)
    | split
    | dsimp only

theorem dropWrites_frame (m accepted s) : Frame [.ctrl] s (dropWrites m accepted s) := by
  unfold dropWrites
  repeat' first
    | with_reducible apply Frame.refl
    | with_reducible apply Frame.ite <;> intro _
    | refine Frame.step ?_ (by with_reducible apply State.setCtrl_frame) (by decide)
    | split
    | dsimp only

theorem remapOp_frame (s) : Frame [.mm, .ctrl] s (remapOp s) := by
  unfold remapOp
  repeat' first
    | with_reducible apply Frame.refl
    | with_reducible apply Frame.ite <;> intro _
    | refine Frame.step ?_ (by with_reducible apply storeBytes_frame) (by decide)
    | refine Frame.step ?_ (by with_reducible apply State.setCtrl_frame) (by decide)
    | split
    | dsimp only

end Sys2Proof.Machine
end

