-- ==== Sys2Proof/Laws/FrameCourier.lean ====
section
/-! SUPPORT. What each operation of Machine/Courier.lean may change. -/

set_option Elab.async false

namespace Sys2Proof.Machine

open Sys2Proof

theorem State.setCour_frame (s c) : Frame [.cour] s (State.setCour s c) := by
  refine ⟨fun p hp => ?_⟩; cases p <;> first | rfl | exact absurd (by decide) hp

theorem State.setRing_frame (s r v) : Frame [.cour] s (State.setRing s r v) := by
  refine ⟨fun p hp => ?_⟩; cases p <;> first | rfl | exact absurd (by decide) hp

theorem ringRefuse_frame (r s) : Frame [.so, .cour] s (ringRefuse r s) := by
  unfold ringRefuse
  repeat' first
    | with_reducible apply Frame.refl
    | with_reducible apply Frame.ite <;> intro _
    | refine Frame.step ?_ (by with_reducible apply raise_frame) (by decide)
    | refine Frame.step ?_ (by with_reducible apply State.setCour_frame) (by decide)
    | split
    | dsimp only

theorem ready_frame (r s) : Frame [.cour] s (ready r s) := by
  unfold ready
  repeat' first
    | with_reducible apply Frame.refl
    | with_reducible apply Frame.ite <;> intro _
    | refine Frame.step ?_ (by with_reducible apply State.setCour_frame) (by decide)
    | split
    | dsimp only

theorem unready_frame (r s) : Frame [.cour] s (unready r s) := by
  unfold unready
  repeat' first
    | with_reducible apply Frame.refl
    | with_reducible apply Frame.ite <;> intro _
    | refine Frame.step ?_ (by with_reducible apply State.setCour_frame) (by decide)
    | split
    | dsimp only

theorem ringStartOp_frame (r prio addr fw s) : Frame [.so, .cour] s (ringStartOp r prio addr fw s) := by
  unfold ringStartOp
  repeat' first
    | with_reducible apply Frame.refl
    | with_reducible apply Frame.ite <;> intro _
    | refine Frame.step ?_ (by with_reducible apply ringRefuse_frame) (by decide)
    | refine Frame.step ?_ (by with_reducible apply ready_frame) (by decide)
    | refine Frame.step ?_ (by with_reducible apply State.setRing_frame) (by decide)
    | split
    | dsimp only

theorem ringStopOp_frame (r fw s) : Frame [.so, .cour] s (ringStopOp r fw s) := by
  unfold ringStopOp
  repeat' first
    | with_reducible apply Frame.refl
    | with_reducible apply Frame.ite <;> intro _
    | refine Frame.step ?_ (by with_reducible apply ringRefuse_frame) (by decide)
    | refine Frame.step ?_ (by with_reducible apply State.setRing_frame) (by decide)
    | split
    | dsimp only

theorem ringDisableOp_frame (r fw s) : Frame [.so, .cour] s (ringDisableOp r fw s) := by
  unfold ringDisableOp
  repeat' first
    | with_reducible apply Frame.refl
    | with_reducible apply Frame.ite <;> intro _
    | refine Frame.step ?_ (by with_reducible apply ringRefuse_frame) (by decide)
    | refine Frame.step ?_ (by with_reducible apply State.setRing_frame) (by decide)
    | split
    | dsimp only

theorem setPrioOp_frame (r prio fw s) : Frame [.so, .cour] s (setPrioOp r prio fw s) := by
  unfold setPrioOp
  repeat' first
    | with_reducible apply Frame.refl
    | with_reducible apply Frame.ite <;> intro _
    | refine Frame.step ?_ (by with_reducible apply ringRefuse_frame) (by decide)
    | refine Frame.step ?_ (by with_reducible apply State.setRing_frame) (by decide)
    | refine Frame.step ?_ (by with_reducible apply ready_frame) (by decide)
    | split
    | dsimp only

theorem letterboxAct_frame (r s) : Frame [.cour] s (letterboxAct r s) := by
  unfold letterboxAct
  repeat' first
    | with_reducible apply Frame.refl
    | with_reducible apply Frame.ite <;> intro _
    | refine Frame.step ?_ (by with_reducible apply State.setCour_frame) (by decide)
    | refine Frame.step ?_ (by with_reducible apply State.setRing_frame) (by decide)
    | split
    | dsimp only

theorem letterboxOp_frame (r fw s) : Frame [.so, .cour] s (letterboxOp r fw s) := by
  unfold letterboxOp
  repeat' first
    | with_reducible apply Frame.refl
    | with_reducible apply Frame.ite <;> intro _
    | refine Frame.step ?_ (by with_reducible apply ringRefuse_frame) (by decide)
    | refine Frame.step ?_ (by with_reducible apply State.setCour_frame) (by decide)
    | refine Frame.step ?_ (by with_reducible apply letterboxAct_frame) (by decide)
    | split
    | dsimp only

theorem ringCommandOp_frame (w fw s) : Frame [.so, .cour] s (ringCommandOp w fw s) := by
  unfold ringCommandOp
  repeat' first
    | with_reducible apply Frame.refl
    | with_reducible apply Frame.ite <;> intro _
    | refine Frame.step ?_ (by with_reducible apply ringStartOp_frame) (by decide)
    | refine Frame.step ?_ (by with_reducible apply ringStopOp_frame) (by decide)
    | refine Frame.step ?_ (by with_reducible apply ringDisableOp_frame) (by decide)
    | refine Frame.step ?_ (by with_reducible apply setPrioOp_frame) (by decide)
    | refine Frame.step ?_ (by with_reducible apply ringRefuse_frame) (by decide)
    | split
    | dsimp only

theorem freeSlot_frame (r s) : Frame [.cour] s (freeSlot r s) := by
  unfold freeSlot
  repeat' first
    | with_reducible apply Frame.refl
    | with_reducible apply Frame.ite <;> intro _
    | refine Frame.step ?_ (by with_reducible apply State.setCour_frame) (by decide)
    | split
    | dsimp only

theorem slotGrantOp_frame (s) : Frame [.cour] s (slotGrantOp s) := by
  unfold slotGrantOp
  repeat' first
    | with_reducible apply Frame.refl
    | with_reducible apply Frame.ite <;> intro _
    | refine Frame.step ?_ (by with_reducible apply unready_frame) (by decide)
    | refine Frame.step ?_ (by with_reducible apply State.setCour_frame) (by decide)
    | split
    | dsimp only

theorem courRead_frame (r a n err ecc s) : Frame [.so, .fab, .mm, .tally, .ctrl, .encl, .fresh, .outbox] s (courRead r a n err ecc s).2 := by
  unfold courRead
  repeat' first
    | with_reducible apply Frame.refl
    | with_reducible apply Frame.ite <;> intro _
    | with_reducible apply Frame.ite2 <;> intro _
    | refine Frame.step ?_ (by with_reducible apply masterRead_frame) (by decide)
    | refine Frame.pair22 (by assumption) ?_ (by with_reducible apply masterRead_frame) (by decide)
    | split
    | dsimp only

theorem readAll_frame (r ecc y2 s) : Frame [.so, .fab, .mm, .tally, .ctrl, .encl, .fresh, .outbox] s (readAll r ecc y2 s).2.2 := by
  induction y2 generalizing s with
  | nil => exact Frame.refl _ _
  | cons x r ih =>
    unfold readAll
    repeat' first
    | with_reducible apply Frame.refl
    | refine Frame.step ?_ (by with_reducible apply ih) (by decide)
    | refine Frame.pair22 (by assumption) ?_ (by with_reducible apply ih) (by decide)
    | with_reducible apply Frame.ite <;> intro _
    | with_reducible apply Frame.ite22 <;> intro _
    | refine Frame.step ?_ (by with_reducible apply courRead_frame) (by decide)
    | refine Frame.pair2 (by assumption) ?_ (by with_reducible apply courRead_frame) (by decide)
    | split
    | dsimp only

theorem writeAll_frame (r y1 y2 s) : Frame [.so, .fab, .mm, .tally, .ctrl, .encl, .fresh, .outbox] s (writeAll r y1 y2 s).2 := by
  induction y1 generalizing y2 s with
  | nil => exact Frame.refl _ _
  | cons x r ih =>
    unfold writeAll
    repeat' first
    | with_reducible apply Frame.refl
    | refine Frame.step ?_ (by with_reducible apply ih) (by decide)
    | refine Frame.pair2 (by assumption) ?_ (by with_reducible apply ih) (by decide)
    | with_reducible apply Frame.ite <;> intro _
    | with_reducible apply Frame.ite2 <;> intro _
    | refine Frame.step ?_ (by with_reducible apply masterWrite_frame) (by decide)
    | refine Frame.pair2 (by assumption) ?_ (by with_reducible apply masterWrite_frame) (by decide)
    | split
    | dsimp only

theorem overlapped_frame (d src s) : Frame [.fresh] s (overlapped d src s).2 := by
  unfold overlapped
  repeat' first
    | with_reducible apply Frame.refl
    | with_reducible apply Frame.ite <;> intro _
    | with_reducible apply Frame.ite2 <;> intro _
    | refine Frame.step ?_ (by with_reducible apply State.draw_frame) (by decide)
    | refine Frame.pair2 (by assumption) ?_ (by with_reducible apply State.draw_frame) (by decide)
    | split
    | dsimp only

theorem someWrites_frame (r d src s) : Frame [.so, .fab, .mm, .tally, .ctrl, .encl, .fresh, .outbox] s (someWrites r d src s) := by
  unfold someWrites
  repeat' first
    | with_reducible apply Frame.refl
    | with_reducible apply Frame.ite <;> intro _
    | refine Frame.step ?_ (by with_reducible apply overlapped_frame) (by decide)
    | refine Frame.pair2 (by assumption) ?_ (by with_reducible apply overlapped_frame) (by decide)
    | refine Frame.step ?_ (by with_reducible apply State.draw_frame) (by decide)
    | refine Frame.pair2 (by assumption) ?_ (by with_reducible apply State.draw_frame) (by decide)
    | refine Frame.step ?_ (by with_reducible apply writeAll_frame) (by decide)
    | refine Frame.pair2 (by assumption) ?_ (by with_reducible apply writeAll_frame) (by decide)
    | split
    | dsimp only

theorem transfer_frame (r d ecc s) : Frame [.so, .fab, .mm, .tally, .ctrl, .encl, .fresh, .outbox] s (transfer r d ecc s).2 := by
  unfold transfer
  repeat' first
    | with_reducible apply Frame.refl
    | with_reducible apply Frame.ite <;> intro _
    | with_reducible apply Frame.ite2 <;> intro _
    | refine Frame.step ?_ (by with_reducible apply readAll_frame) (by decide)
    | refine Frame.pair22 (by assumption) ?_ (by with_reducible apply readAll_frame) (by decide)
    | refine Frame.step ?_ (by with_reducible apply overlapped_frame) (by decide)
    | refine Frame.pair2 (by assumption) ?_ (by with_reducible apply overlapped_frame) (by decide)
    | refine Frame.step ?_ (by with_reducible apply writeAll_frame) (by decide)
    | refine Frame.pair2 (by assumption) ?_ (by with_reducible apply writeAll_frame) (by decide)
    | refine Frame.step ?_ (by with_reducible apply someWrites_frame) (by decide)
    | split
    | dsimp only

theorem cutTransfer_frame (r ecc s) : Frame [.so, .fab, .mm, .tally, .ctrl, .encl, .fresh, .outbox] s (cutTransfer r ecc s) := by
  unfold cutTransfer
  repeat' first
    | with_reducible apply Frame.refl
    | with_reducible apply Frame.ite <;> intro _
    | refine Frame.step ?_ (by with_reducible apply State.draw_frame) (by decide)
    | refine Frame.pair2 (by assumption) ?_ (by with_reducible apply State.draw_frame) (by decide)
    | refine Frame.step ?_ (by with_reducible apply readAll_frame) (by decide)
    | refine Frame.pair22 (by assumption) ?_ (by with_reducible apply readAll_frame) (by decide)
    | refine Frame.step ?_ (by with_reducible apply someWrites_frame) (by decide)
    | split
    | dsimp only

theorem tallyEvent_frame (c k s) : Frame [.tally] s (tallyEvent c k s) := by
  unfold tallyEvent
  repeat' first
    | with_reducible apply Frame.refl
    | with_reducible apply Frame.ite <;> intro _
    | refine Frame.step ?_ (by with_reducible apply State.setCore_frame) (by decide)
    | split
    | dsimp only

theorem sendEvent_frame (r d s) : Frame [.cour, .tally] s (sendEvent r d s) := by
  unfold sendEvent
  repeat' first
    | with_reducible apply Frame.refl
    | with_reducible apply Frame.ite <;> intro _
    | refine Frame.step ?_ (by with_reducible apply tallyEvent_frame) (by decide)
    | refine Frame.step ?_ (by with_reducible apply letterboxAct_frame) (by decide)
    | refine Frame.step ?_ (by with_reducible apply State.setCour_frame) (by decide)
    | split
    | dsimp only

theorem ringFail_frame (r code addr link s) : Frame [.so, .cour] s (ringFail r code addr link s) := by
  unfold ringFail
  repeat' first
    | with_reducible apply Frame.refl
    | with_reducible apply Frame.ite <;> intro _
    | refine Frame.step ?_ (by with_reducible apply unready_frame) (by decide)
    | refine Frame.step ?_ (by with_reducible apply freeSlot_frame) (by decide)
    | refine Frame.step ?_ (by with_reducible apply State.setRing_frame) (by decide)
    | refine Frame.step ?_ (by with_reducible apply raise_frame) (by decide)
    | refine Frame.step ?_ (by with_reducible apply State.setCour_frame) (by decide)
    | split
    | dsimp only

theorem fetchedOp_frame (r ecc s) : Frame [.so, .fab, .mm, .cour, .tally, .ctrl, .encl, .fresh, .outbox] s (fetchedOp r ecc s) := by
  unfold fetchedOp
  repeat' first
    | with_reducible apply Frame.refl
    | with_reducible apply Frame.ite <;> intro _
    | refine Frame.step ?_ (by with_reducible apply courRead_frame) (by decide)
    | refine Frame.pair2 (by assumption) ?_ (by with_reducible apply courRead_frame) (by decide)
    | refine Frame.step ?_ (by with_reducible apply ringFail_frame) (by decide)
    | refine Frame.step ?_ (by with_reducible apply State.setRing_frame) (by decide)
    | split
    | dsimp only

theorem completed_frame (r d s) : Frame [.cour, .tally] s (completed r d s) := by
  unfold completed
  repeat' first
    | with_reducible apply Frame.refl
    | with_reducible apply Frame.ite <;> intro _
    | refine Frame.step ?_ (by with_reducible apply State.setRing_frame) (by decide)
    | refine Frame.step ?_ (by with_reducible apply State.setCour_frame) (by decide)
    | refine Frame.step ?_ (by with_reducible apply freeSlot_frame) (by decide)
    | refine Frame.step ?_ (by with_reducible apply sendEvent_frame) (by decide)
    | refine Frame.step ?_ (by with_reducible apply ready_frame) (by decide)
    | split
    | dsimp only

theorem atDesc_frame (r cur s) : Frame [.cour] s (atDesc r cur s) := by
  unfold atDesc
  repeat' first
    | with_reducible apply Frame.refl
    | with_reducible apply Frame.ite <;> intro _
    | refine Frame.step ?_ (by with_reducible apply State.setRing_frame) (by decide)
    | split
    | dsimp only

theorem completeOp_frame (r ecc s) : Frame [.so, .fab, .mm, .cour, .tally, .ctrl, .encl, .fresh, .outbox] s (completeOp r ecc s) := by
  unfold completeOp
  repeat' first
    | with_reducible apply Frame.refl
    | with_reducible apply Frame.ite <;> intro _
    | refine Frame.step ?_ (by with_reducible apply transfer_frame) (by decide)
    | refine Frame.pair2 (by assumption) ?_ (by with_reducible apply transfer_frame) (by decide)
    | refine Frame.step ?_ (by with_reducible apply ringFail_frame) (by decide)
    | refine Frame.step ?_ (by with_reducible apply atDesc_frame) (by decide)
    | refine Frame.step ?_ (by with_reducible apply completed_frame) (by decide)
    | split
    | dsimp only

theorem linkOp_frame (r ecc s) : Frame [.so, .fab, .mm, .cour, .tally, .ctrl, .encl, .fresh, .outbox] s (linkOp r ecc s) := by
  unfold linkOp
  repeat' first
    | with_reducible apply Frame.refl
    | with_reducible apply Frame.ite <;> intro _
    | refine Frame.step ?_ (by with_reducible apply courRead_frame) (by decide)
    | refine Frame.pair2 (by assumption) ?_ (by with_reducible apply courRead_frame) (by decide)
    | refine Frame.step ?_ (by with_reducible apply ringFail_frame) (by decide)
    | refine Frame.step ?_ (by with_reducible apply State.setRing_frame) (by decide)
    | refine Frame.step ?_ (by with_reducible apply State.setCour_frame) (by decide)
    | refine Frame.step ?_ (by with_reducible apply ready_frame) (by decide)
    | split
    | dsimp only

theorem ringErrorOp_frame (r ctx ecc s) : Frame [.so, .fab, .mm, .cour, .tally, .ctrl, .encl, .fresh, .outbox] s (ringErrorOp r ctx ecc s) := by
  unfold ringErrorOp
  repeat' first
    | with_reducible apply Frame.refl
    | with_reducible apply Frame.ite <;> intro _
    | refine Frame.step ?_ (by with_reducible apply eccCheck_frame) (by decide)
    | refine Frame.pair22 (by assumption) ?_ (by with_reducible apply eccCheck_frame) (by decide)
    | refine Frame.step ?_ (by with_reducible apply unready_frame) (by decide)
    | refine Frame.step ?_ (by with_reducible apply freeSlot_frame) (by decide)
    | refine Frame.step ?_ (by with_reducible apply cutTransfer_frame) (by decide)
    | refine Frame.step ?_ (by with_reducible apply State.setRing_frame) (by decide)
    | refine Frame.step ?_ (by with_reducible apply raiseT_frame) (by decide)
    | refine Frame.step ?_ (by with_reducible apply State.setCour_frame) (by decide)
    | refine Frame.step ?_ (by with_reducible apply transfer_frame) (by decide)
    | refine Frame.pair2 (by assumption) ?_ (by with_reducible apply transfer_frame) (by decide)
    | refine Frame.step ?_ (by with_reducible apply ringFail_frame) (by decide)
    | split
    | dsimp only

theorem courReset_frame (s0) : Frame [.so, .fab, .mm, .cour, .tally, .ctrl, .encl, .fresh, .outbox] s0 (courReset s0) := by
  unfold courReset
  repeat' first
    | with_reducible apply Frame.refl
    | with_reducible apply Frame.ite <;> intro _
    | refine Frame.step ?_ (by with_reducible apply cutTransfer_frame) (by decide)
    | refine Frame.step ?_ (by with_reducible apply masterResetOp_frame) (by decide)
    | refine Frame.step ?_ (by with_reducible apply State.setCour_frame) (by decide)
    | with_reducible refine Frame.foldl ?_ (fun _ _ => ?_)
    | with_reducible refine Frame.foldl2 ?_ (fun _ _ => ?_)
    | split
    | dsimp only

theorem courSoft_frame (s) : Frame [.cour] s (courSoft s) := by
  unfold courSoft
  repeat' first
    | with_reducible apply Frame.refl
    | with_reducible apply Frame.ite <;> intro _
    | refine Frame.step ?_ (by with_reducible apply State.setCour_frame) (by decide)
    | split
    | dsimp only

end Sys2Proof.Machine
end

