-- ==== Sys2Proof/Laws/FrameSparing.lean ====
section
/-! SUPPORT. What each operation of Machine/Sparing.lean may change. -/

set_option Elab.async false

namespace Sys2Proof.Machine

open Sys2Proof

theorem dropAudit_frame (k s) : Frame [.fab] s (dropAudit k s) := by
  unfold dropAudit
  repeat' first
    | with_reducible apply Frame.refl
    | with_reducible apply Frame.ite <;> intro _
    | refine Frame.step ?_ (by with_reducible apply releaseFolds_frame) (by decide)
    | refine Frame.step ?_ (by with_reducible apply State.setCl_frame) (by decide)
    | split
    | dsimp only

theorem mismatchCard_frame (k p slot chan pass test s) : Frame [.so, .fab] s (mismatchCard k p slot chan pass test s).2 := by
  unfold mismatchCard
  repeat' first
    | with_reducible apply Frame.refl
    | with_reducible apply Frame.ite <;> intro _
    | with_reducible apply Frame.ite2 <;> intro _
    | refine Frame.step ?_ (by with_reducible apply State.setCl_frame) (by decide)
    | refine Frame.step ?_ (by with_reducible apply raiseT_frame) (by decide)
    | split
    | dsimp only

theorem compareInject_frame (k slot s) : Frame [.so] s (compareInject k slot s).2.2 := by
  unfold compareInject
  repeat' first
    | with_reducible apply Frame.refl
    | with_reducible apply Frame.ite <;> intro _
    | with_reducible apply Frame.ite22 <;> intro _
    | refine Frame.step ?_ (by with_reducible apply injCount_frame) (by decide)
    | split
    | dsimp only

theorem withdrawFold_frame (k f s) : Frame [.fab] s (withdrawFold k f s) := by
  unfold withdrawFold
  repeat' first
    | with_reducible apply Frame.refl
    | with_reducible apply Frame.ite <;> intro _
    | refine Frame.step ?_ (by with_reducible apply withdraw_frame) (by decide)
    | split
    | dsimp only

theorem compareOp_frame (k mismatch s) : Frame [.so, .fab] s (compareOp k mismatch s) := by
  unfold compareOp
  repeat' first
    | with_reducible apply Frame.refl
    | with_reducible apply Frame.ite <;> intro _
    | refine Frame.step ?_ (by with_reducible apply compareInject_frame) (by decide)
    | refine Frame.pair22 (by assumption) ?_ (by with_reducible apply compareInject_frame) (by decide)
    | refine Frame.step ?_ (by with_reducible apply withdrawFold_frame) (by decide)
    | refine Frame.step ?_ (by with_reducible apply State.setCl_frame) (by decide)
    | refine Frame.step ?_ (by with_reducible apply mismatchCard_frame) (by decide)
    | refine Frame.pair2 (by assumption) ?_ (by with_reducible apply mismatchCard_frame) (by decide)
    | refine Frame.step ?_ (by with_reducible apply releaseFolds_frame) (by decide)
    | refine Frame.step ?_ (by with_reducible apply flushNotices_frame) (by decide)
    | refine Frame.step ?_ (by with_reducible apply cutBeam_frame) (by decide)
    | with_reducible refine Frame.foldl ?_ (fun _ _ => ?_)
    | with_reducible refine Frame.foldl2 ?_ (fun _ _ => ?_)
    | split
    | dsimp only

theorem settleSlot_frame (k s) : Frame [.fab] s (settleSlot k s) := by
  unfold settleSlot
  repeat' first
    | with_reducible apply Frame.refl
    | with_reducible apply Frame.ite <;> intro _
    | refine Frame.step ?_ (by with_reducible apply State.setCl_frame) (by decide)
    | split
    | dsimp only

theorem stopWork_frame (k p s) : Frame [.fab] s (stopWork k p s) := by
  unfold stopWork
  repeat' first
    | with_reducible apply Frame.refl
    | with_reducible apply Frame.ite <;> intro _
    | refine Frame.step ?_ (by with_reducible apply cutBeam_frame) (by decide)
    | refine Frame.step ?_ (by with_reducible apply State.setCl_frame) (by decide)
    | split
    | dsimp only

theorem promoteSlot_frame (k slot s) : Frame [.fab] s (promoteSlot k slot s) := by
  unfold promoteSlot
  repeat' first
    | with_reducible apply Frame.refl
    | with_reducible apply Frame.ite <;> intro _
    | refine Frame.step ?_ (by with_reducible apply settleSlot_frame) (by decide)
    | refine Frame.step ?_ (by with_reducible apply State.setCl_frame) (by decide)
    | refine Frame.step ?_ (by with_reducible apply stopWork_frame) (by decide)
    | split
    | dsimp only

theorem movePhase_frame (k from_ s) : Frame [.fab] s (movePhase k from_ s) := by
  unfold movePhase
  repeat' first
    | with_reducible apply Frame.refl
    | with_reducible apply Frame.ite <;> intro _
    | refine Frame.step ?_ (by with_reducible apply State.setCl_frame) (by decide)
    | split
    | dsimp only

theorem auditNext_frame (k p s) : Frame [.fab] s (auditNext k p s) := by
  unfold auditNext
  repeat' first
    | with_reducible apply Frame.refl
    | with_reducible apply Frame.ite <;> intro _
    | refine Frame.step ?_ (by with_reducible apply State.setCl_frame) (by decide)
    | split
    | dsimp only

theorem takePlace_frame (k p slot s) : Frame [.fab] s (takePlace k p slot s) := by
  unfold takePlace
  repeat' first
    | with_reducible apply Frame.refl
    | with_reducible apply Frame.ite <;> intro _
    | refine Frame.step ?_ (by with_reducible apply State.setCl_frame) (by decide)
    | refine Frame.step ?_ (by with_reducible apply State.setFab_frame) (by decide)
    | split
    | dsimp only

theorem takeoverOp_frame (k s) : Frame [.so, .fab] s (takeoverOp k s) := by
  unfold takeoverOp
  repeat' first
    | with_reducible apply Frame.refl
    | with_reducible apply Frame.ite <;> intro _
    | refine Frame.step ?_ (by with_reducible apply auditNext_frame) (by decide)
    | refine Frame.step ?_ (by with_reducible apply flushNotices_frame) (by decide)
    | refine Frame.step ?_ (by with_reducible apply takePlace_frame) (by decide)
    | refine Frame.step ?_ (by with_reducible apply State.setCl_frame) (by decide)
    | refine Frame.step ?_ (by with_reducible apply settleSlot_frame) (by decide)
    | refine Frame.step ?_ (by with_reducible apply raise_frame) (by decide)
    | split
    | dsimp only

theorem servedAgain_frame (k ps s) : Frame [.fab] s (servedAgain k ps s) := by
  unfold servedAgain
  repeat' first
    | with_reducible apply Frame.refl
    | with_reducible apply Frame.ite <;> intro _
    | refine Frame.step ?_ (by with_reducible apply flushNotices_frame) (by decide)
    | refine Frame.step ?_ (by with_reducible apply State.setCl_frame) (by decide)
    | split
    | dsimp only

theorem rejoinOp_frame (k s) : Frame [.so, .fab] s (rejoinOp k s) := by
  unfold rejoinOp
  repeat' first
    | with_reducible apply Frame.refl
    | with_reducible apply Frame.ite <;> intro _
    | refine Frame.step ?_ (by with_reducible apply takePlace_frame) (by decide)
    | refine Frame.step ?_ (by with_reducible apply State.setCl_frame) (by decide)
    | refine Frame.step ?_ (by with_reducible apply servedAgain_frame) (by decide)
    | refine Frame.step ?_ (by with_reducible apply settleSlot_frame) (by decide)
    | refine Frame.step ?_ (by with_reducible apply raise_frame) (by decide)
    | refine Frame.step ?_ (by with_reducible apply auditNext_frame) (by decide)
    | split
    | dsimp only

theorem slotRelease_frame (k slot s) : Frame [.fab] s (slotRelease k slot s) := by
  unfold slotRelease
  repeat' first
    | with_reducible apply Frame.refl
    | with_reducible apply Frame.ite <;> intro _
    | refine Frame.step ?_ (by with_reducible apply State.setCl_frame) (by decide)
    | split
    | dsimp only

theorem selfTestOp_frame (k slot pass s) : Frame [.so, .fab] s (selfTestOp k slot pass s) := by
  unfold selfTestOp
  repeat' first
    | with_reducible apply Frame.refl
    | with_reducible apply Frame.ite <;> intro _
    | refine Frame.step ?_ (by with_reducible apply State.setCl_frame) (by decide)
    | refine Frame.step ?_ (by with_reducible apply settleSlot_frame) (by decide)
    | refine Frame.step ?_ (by with_reducible apply raise_frame) (by decide)
    | split
    | dsimp only

theorem slotIsolate_frame (k slot s) : Frame [.fab] s (slotIsolate k slot s) := by
  unfold slotIsolate
  repeat' first
    | with_reducible apply Frame.refl
    | with_reducible apply Frame.ite <;> intro _
    | refine Frame.step ?_ (by with_reducible apply State.setCl_frame) (by decide)
    | refine Frame.step ?_ (by with_reducible apply dropAudit_frame) (by decide)
    | refine Frame.step ?_ (by with_reducible apply promoteSlot_frame) (by decide)
    | split
    | dsimp only

theorem rotationOp_frame (s) : Frame [.fab] s (rotationOp s) := by
  unfold rotationOp
  repeat' first
    | with_reducible apply Frame.refl
    | with_reducible apply Frame.ite <;> intro _
    | refine Frame.step ?_ (by with_reducible apply State.setFab_frame) (by decide)
    | refine Frame.step ?_ (by with_reducible apply State.setCl_frame) (by decide)
    | split
    | dsimp only

theorem respreadOp_frame (k s) : Frame [.so, .fab] s (respreadOp k s) := by
  unfold respreadOp
  repeat' first
    | with_reducible apply Frame.refl
    | with_reducible apply Frame.ite <;> intro _
    | refine Frame.step ?_ (by with_reducible apply State.setCl_frame) (by decide)
    | refine Frame.step ?_ (by with_reducible apply State.setFab_frame) (by decide)
    | refine Frame.step ?_ (by with_reducible apply flushNotices_frame) (by decide)
    | refine Frame.step ?_ (by with_reducible apply spreadRun_frame) (by decide)
    | refine Frame.step ?_ (by with_reducible apply raise_frame) (by decide)
    | split
    | dsimp only

theorem recheckOp_frame (s) : Frame [.so, .fab] s (recheckOp s) := by
  unfold recheckOp
  repeat' first
    | with_reducible apply Frame.refl
    | with_reducible apply Frame.ite <;> intro _
    | refine Frame.step ?_ (by with_reducible apply State.setFab_frame) (by decide)
    | refine Frame.step ?_ (by with_reducible apply raise_frame) (by decide)
    | split
    | dsimp only

theorem newScheduleOp_frame (s) : Frame [.fab, .acc] s (newScheduleOp s) := by
  unfold newScheduleOp
  repeat' first
    | with_reducible apply Frame.refl
    | with_reducible apply Frame.ite <;> intro _
    | refine Frame.step ?_ (by with_reducible apply State.setFab_frame) (by decide)
    | refine Frame.step ?_ (by with_reducible apply State.setAcc_frame) (by decide)
    | split
    | dsimp only

end Sys2Proof.Machine
end

