-- ==== Sys2Proof/Laws/FrameOperands.lean ====
section
/-! SUPPORT. What each operation of Machine/Operands.lean may change. -/

set_option Elab.async false

namespace Sys2Proof.Machine

open Sys2Proof

theorem dmRead_frame (c ea n e s0) : Frame [.so, .mm, .tally, .fresh] s0 (dmRead c ea n e s0).2.2 := by
  unfold dmRead
  repeat' first
    | with_reducible apply Frame.refl
    | with_reducible apply Frame.ite <;> intro _
    | with_reducible apply Frame.ite22 <;> intro _
    | refine Frame.step ?_ (by with_reducible apply flipWord_frame) (by decide)
    | refine Frame.step ?_ (by with_reducible apply eccCheck_frame) (by decide)
    | refine Frame.pair22 (by assumption) ?_ (by with_reducible apply eccCheck_frame) (by decide)
    | refine Frame.step ?_ (by with_reducible apply raiseT_frame) (by decide)
    | refine Frame.step ?_ (by with_reducible apply State.setCore_frame) (by decide)
    | split
    | dsimp only

theorem farRead_frame (c a n e s) : Frame [.so, .fab, .mm, .tally, .ctrl, .encl, .fresh, .outbox] s (farRead c a n e s).2.2 := by
  unfold farRead
  repeat' first
    | with_reducible apply Frame.refl
    | with_reducible apply Frame.ite <;> intro _
    | with_reducible apply Frame.ite22 <;> intro _
    | refine Frame.step ?_ (by with_reducible apply masterRead_frame) (by decide)
    | refine Frame.pair22 (by assumption) ?_ (by with_reducible apply masterRead_frame) (by decide)
    | split
    | dsimp only

theorem loadBytes_frame (c ea n e s) : Frame [.so, .fab, .mm, .tally, .ctrl, .encl, .fresh, .outbox] s (loadBytes c ea n e s).2.2 := by
  have h := dmRead_frame c ea n e s
  have k := farRead_frame c ((s.core c).farAddr ea) n e s
  unfold loadBytes
  revert h k
  generalize dmRead c ea n e s = r
  generalize farRead c ((s.core c).farAddr ea) n e s = q
  intro h k
  obtain ⟨r1, r2, r3⟩ := r
  obtain ⟨q1, q2, q3⟩ := q
  split
  · exact Frame.refl _ _
  · refine Frame.ite22 (fun _ => ?_) (fun _ => Frame.ite22 (fun _ => ?_) (fun _ => ?_))
    · exact h.weaken (by decide)
    · exact k.weaken (by decide)
    · exact k.weaken (by decide)

theorem storeAt_frame (c ea d s) : Frame [.so, .fab, .mm, .tally, .ctrl, .encl, .fresh, .outbox] s (storeAt c ea d s).2 := by
  unfold storeAt
  split
  · exact Frame.refl _ _
  · refine Frame.ite2 (fun _ => ?_) (fun _ => ?_)
    · exact (storeBytes_frame ..).weaken (by decide)
    · have h := masterWrite_frame (2 + c) 0 ((s.core c).farAddr ea) false d s
      split
      next r s1 e =>
        rw [e] at h
        exact Frame.ite2 (fun _ => h.weaken (by decide)) (fun _ => h.weaken (by decide))

end Sys2Proof.Machine
end

