-- ==== Sys2Proof/Laws/FrameTally.lean ====
section
/-! SUPPORT. What each operation of Machine/Tally.lean may change. -/

set_option Elab.async false

namespace Sys2Proof.Machine

open Sys2Proof

theorem tallyResult_frame (c gd r sr s) : Frame [.tally] s (tallyResult c gd r sr s).2 := by
  unfold tallyResult
  repeat' first
    | with_reducible apply Frame.refl
    | with_reducible apply Frame.ite <;> intro _
    | with_reducible apply Frame.ite2 <;> intro _
    | refine Frame.step ?_ (by with_reducible apply State.setCore_frame) (by decide)
    | split
    | dsimp only

theorem tallyFlagged_frame (c gd x s) : Frame [.tally] s (tallyFlagged c gd x s).2 := by
  unfold tallyFlagged
  repeat' first
    | with_reducible apply Frame.refl
    | with_reducible apply Frame.ite <;> intro _
    | with_reducible apply Frame.ite2 <;> intro _
    | refine Frame.step ?_ (by with_reducible apply tallyResult_frame) (by decide)
    | refine Frame.pair2 (by assumption) ?_ (by with_reducible apply tallyResult_frame) (by decide)
    | split
    | dsimp only

theorem aluBody_frame (c fn gd gs gt s) : Frame [.tally, .fresh] s (aluBody c fn gd gs gt s).2 := by
  unfold aluBody
  repeat' first
    | with_reducible apply Frame.refl
    | with_reducible apply Frame.ite <;> intro _
    | with_reducible apply Frame.ite2 <;> intro _
    | refine Frame.step ?_ (by with_reducible apply State.draw_frame) (by decide)
    | refine Frame.pair2 (by assumption) ?_ (by with_reducible apply State.draw_frame) (by decide)
    | refine Frame.step ?_ (by with_reducible apply tallyFlagged_frame) (by decide)
    | refine Frame.pair2 (by assumption) ?_ (by with_reducible apply tallyFlagged_frame) (by decide)
    | split
    | dsimp only

theorem immBody_frame (c op gd gs i s) : Frame [.tally] s (immBody c op gd gs i s).2 := by
  unfold immBody
  repeat' first
    | with_reducible apply Frame.refl
    | with_reducible apply Frame.ite <;> intro _
    | with_reducible apply Frame.ite2 <;> intro _
    | refine Frame.step ?_ (by with_reducible apply tallyFlagged_frame) (by decide)
    | refine Frame.pair2 (by assumption) ?_ (by with_reducible apply tallyFlagged_frame) (by decide)
    | split
    | dsimp only

theorem shiBody_frame (c op gd gs n s) : Frame [.tally] s (shiBody c op gd gs n s).2 := by
  unfold shiBody
  repeat' first
    | with_reducible apply Frame.refl
    | with_reducible apply Frame.ite <;> intro _
    | with_reducible apply Frame.ite2 <;> intro _
    | refine Frame.step ?_ (by with_reducible apply tallyFlagged_frame) (by decide)
    | refine Frame.pair2 (by assumption) ?_ (by with_reducible apply tallyFlagged_frame) (by decide)
    | split
    | dsimp only

theorem luiBody_frame (c gd i s) : Frame [.tally] s (luiBody c gd i s).2 := by
  unfold luiBody
  repeat' first
    | with_reducible apply Frame.refl
    | with_reducible apply Frame.ite <;> intro _
    | with_reducible apply Frame.ite2 <;> intro _
    | refine Frame.step ?_ (by with_reducible apply tallyResult_frame) (by decide)
    | refine Frame.pair2 (by assumption) ?_ (by with_reducible apply tallyResult_frame) (by decide)
    | split
    | dsimp only

theorem cmpiBody_frame (c gs i s) : Frame [.tally] s (cmpiBody c gs i s).2 := by
  unfold cmpiBody
  repeat' first
    | with_reducible apply Frame.refl
    | with_reducible apply Frame.ite <;> intro _
    | with_reducible apply Frame.ite2 <;> intro _
    | refine Frame.step ?_ (by with_reducible apply tallyFlagged_frame) (by decide)
    | refine Frame.pair2 (by assumption) ?_ (by with_reducible apply tallyFlagged_frame) (by decide)
    | split
    | dsimp only

theorem loadBody_frame (c op gd gs post off e s) : Frame [.so, .fab, .mm, .tally, .ctrl, .encl, .fresh, .outbox] s (loadBody c op gd gs post off e s).2 := by
  unfold loadBody
  repeat' first
    | with_reducible apply Frame.refl
    | with_reducible apply Frame.ite <;> intro _
    | with_reducible apply Frame.ite2 <;> intro _
    | refine Frame.step ?_ (by with_reducible apply loadBytes_frame) (by decide)
    | refine Frame.pair22 (by assumption) ?_ (by with_reducible apply loadBytes_frame) (by decide)
    | refine Frame.step ?_ (by with_reducible apply State.setCore_frame) (by decide)
    | split
    | dsimp only

theorem storeBody_frame (c op gd gs post off s) : Frame [.so, .fab, .mm, .tally, .ctrl, .encl, .fresh, .outbox] s (storeBody c op gd gs post off s).2 := by
  unfold storeBody
  repeat' first
    | with_reducible apply Frame.refl
    | with_reducible apply Frame.ite <;> intro _
    | with_reducible apply Frame.ite2 <;> intro _
    | refine Frame.step ?_ (by with_reducible apply storeAt_frame) (by decide)
    | refine Frame.pair2 (by assumption) ?_ (by with_reducible apply storeAt_frame) (by decide)
    | refine Frame.step ?_ (by with_reducible apply State.setCore_frame) (by decide)
    | split
    | dsimp only

theorem macBody_frame (c a sub clr gs gt hs ht s) : Frame [.tally] s (macBody c a sub clr gs gt hs ht s).2 := by
  unfold macBody
  repeat' first
    | with_reducible apply Frame.refl
    | with_reducible apply Frame.ite <;> intro _
    | with_reducible apply Frame.ite2 <;> intro _
    | refine Frame.step ?_ (by with_reducible apply State.setCore_frame) (by decide)
    | split
    | dsimp only

theorem macDualBody_frame (c a sub clr gs gt cross s) : Frame [.tally] s (macDualBody c a sub clr gs gt cross s).2 := by
  unfold macDualBody
  repeat' first
    | with_reducible apply Frame.refl
    | with_reducible apply Frame.ite <;> intro _
    | with_reducible apply Frame.ite2 <;> intro _
    | refine Frame.step ?_ (by with_reducible apply State.setCore_frame) (by decide)
    | split
    | dsimp only

theorem macwBody_frame (c a sub clr gs gt ht s) : Frame [.tally] s (macwBody c a sub clr gs gt ht s).2 := by
  unfold macwBody
  repeat' first
    | with_reducible apply Frame.refl
    | with_reducible apply Frame.ite <;> intro _
    | with_reducible apply Frame.ite2 <;> intro _
    | refine Frame.step ?_ (by with_reducible apply State.setCore_frame) (by decide)
    | split
    | dsimp only

theorem macwDualBody_frame (c a sub clr gs gt s) : Frame [.tally] s (macwDualBody c a sub clr gs gt s).2 := by
  unfold macwDualBody
  repeat' first
    | with_reducible apply Frame.refl
    | with_reducible apply Frame.ite <;> intro _
    | with_reducible apply Frame.ite2 <;> intro _
    | refine Frame.step ?_ (by with_reducible apply State.setCore_frame) (by decide)
    | split
    | dsimp only

theorem extBody_frame (c g a sh isHalf s) : Frame [.tally] s (extBody c g a sh isHalf s).2 := by
  unfold extBody
  repeat' first
    | with_reducible apply Frame.refl
    | with_reducible apply Frame.ite <;> intro _
    | with_reducible apply Frame.ite2 <;> intro _
    | refine Frame.step ?_ (by with_reducible apply State.setCore_frame) (by decide)
    | split
    | dsimp only

theorem mfaBody_frame (c g a part s) : Frame [.tally] s (mfaBody c g a part s).2 := by
  unfold mfaBody
  repeat' first
    | with_reducible apply Frame.refl
    | with_reducible apply Frame.ite <;> intro _
    | with_reducible apply Frame.ite2 <;> intro _
    | refine Frame.step ?_ (by with_reducible apply State.setCore_frame) (by decide)
    | split
    | dsimp only

theorem mtaBody_frame (c g a part s) : Frame [.tally] s (mtaBody c g a part s).2 := by
  unfold mtaBody
  repeat' first
    | with_reducible apply Frame.refl
    | with_reducible apply Frame.ite <;> intro _
    | with_reducible apply Frame.ite2 <;> intro _
    | refine Frame.step ?_ (by with_reducible apply State.setCore_frame) (by decide)
    | split
    | dsimp only

theorem branchBody_frame (c cond off s) : Frame [] s (branchBody c cond off s).2 := by
  unfold branchBody
  repeat' first
    | with_reducible apply Frame.refl
    | with_reducible apply Frame.ite <;> intro _
    | with_reducible apply Frame.ite2 <;> intro _
    | split
    | dsimp only

theorem linked_frame (c gd n s) : Frame [.tally] s (linked c gd n s).2 := by
  unfold linked
  repeat' first
    | with_reducible apply Frame.refl
    | with_reducible apply Frame.ite <;> intro _
    | with_reducible apply Frame.ite2 <;> intro _
    | refine Frame.step ?_ (by with_reducible apply State.setCore_frame) (by decide)
    | split
    | dsimp only

theorem balBody_frame (c off s) : Frame [.tally] s (balBody c off s).2 := by
  unfold balBody
  repeat' first
    | with_reducible apply Frame.refl
    | with_reducible apply Frame.ite <;> intro _
    | with_reducible apply Frame.ite2 <;> intro _
    | refine Frame.step ?_ (by with_reducible apply linked_frame) (by decide)
    | refine Frame.pair2 (by assumption) ?_ (by with_reducible apply linked_frame) (by decide)
    | split
    | dsimp only

theorem jrBody_frame (c gs s) : Frame [] s (jrBody c gs s).2 := by
  unfold jrBody
  repeat' first
    | with_reducible apply Frame.refl
    | with_reducible apply Frame.ite <;> intro _
    | with_reducible apply Frame.ite2 <;> intro _
    | split
    | dsimp only

theorem jalrBody_frame (c gd gs s) : Frame [.tally] s (jalrBody c gd gs s).2 := by
  unfold jalrBody
  repeat' first
    | with_reducible apply Frame.refl
    | with_reducible apply Frame.ite <;> intro _
    | with_reducible apply Frame.ite2 <;> intro _
    | refine Frame.step ?_ (by with_reducible apply linked_frame) (by decide)
    | refine Frame.pair2 (by assumption) ?_ (by with_reducible apply linked_frame) (by decide)
    | split
    | dsimp only

theorem retiBody_frame (c s) : Frame [] s (retiBody c s).2 := by
  unfold retiBody
  repeat' first
    | with_reducible apply Frame.refl
    | with_reducible apply Frame.ite <;> intro _
    | with_reducible apply Frame.ite2 <;> intro _
    | split
    | dsimp only

theorem rptBody_frame (c gs n s) : Frame [] s (rptBody c gs n s).2 := by
  unfold rptBody
  repeat' first
    | with_reducible apply Frame.refl
    | with_reducible apply Frame.ite <;> intro _
    | with_reducible apply Frame.ite2 <;> intro _
    | split
    | dsimp only

theorem mfcBody_frame (c gd n s) : Frame [.tally, .fresh] s (mfcBody c gd n s).2 := by
  unfold mfcBody
  repeat' first
    | with_reducible apply Frame.refl
    | with_reducible apply Frame.ite <;> intro _
    | with_reducible apply Frame.ite2 <;> intro _
    | refine Frame.step ?_ (by with_reducible apply State.setCore_frame) (by decide)
    | refine Frame.step ?_ (by with_reducible apply State.draw_frame) (by decide)
    | refine Frame.pair2 (by assumption) ?_ (by with_reducible apply State.draw_frame) (by decide)
    | split
    | dsimp only

theorem mtcBody_frame (c n gs s) : Frame [.tally] s (mtcBody c n gs s).2 := by
  unfold mtcBody
  repeat' first
    | with_reducible apply Frame.refl
    | with_reducible apply Frame.ite <;> intro _
    | with_reducible apply Frame.ite2 <;> intro _
    | refine Frame.step ?_ (by with_reducible apply State.setCore_frame) (by decide)
    | split
    | dsimp only

theorem waitBody_frame (c s) : Frame [] s (waitBody c s).2 := by
  unfold waitBody
  repeat' first
    | with_reducible apply Frame.refl
    | with_reducible apply Frame.ite <;> intro _
    | with_reducible apply Frame.ite2 <;> intro _
    | split
    | dsimp only

theorem postRefused_frame (c s) : Frame [.so, .tally] s (postRefused c s) := by
  unfold postRefused
  repeat' first
    | with_reducible apply Frame.refl
    | with_reducible apply Frame.ite <;> intro _
    | refine Frame.step ?_ (by with_reducible apply raiseLim_frame) (by decide)
    | refine Frame.step ?_ (by with_reducible apply State.setCore_frame) (by decide)
    | split
    | dsimp only

theorem stalled_frame (c n s) : Frame [.tally] s (stalled c n s) := by
  unfold stalled
  repeat' first
    | with_reducible apply Frame.refl
    | with_reducible apply Frame.ite <;> intro _
    | refine Frame.step ?_ (by with_reducible apply State.setCore_frame) (by decide)
    | split
    | dsimp only

theorem dmWords_frame (c more ws s) : Frame [.so, .mm, .tally, .fresh] s (dmWords c more ws s).2 := by
  unfold dmWords
  repeat' first
    | with_reducible apply Frame.refl
    | with_reducible apply Frame.ite <;> intro _
    | with_reducible apply Frame.ite2 <;> intro _
    | refine Frame.step ?_ (by with_reducible apply dmRead_frame) (by decide)
    | refine Frame.pair22 (by assumption) ?_ (by with_reducible apply dmRead_frame) (by decide)
    | with_reducible refine Frame.foldl ?_ (fun _ _ => ?_)
    | with_reducible refine Frame.foldl2 ?_ (fun _ _ => ?_)
    | with_reducible refine Frame.foldl22 ?_ (fun _ _ => ?_)
    | split
    | dsimp only

theorem postBody_frame (c gd gs e s) : Frame [.so, .mm, .tally, .fresh] s (postBody c gd gs e s).2 := by
  unfold postBody
  repeat' first
    | with_reducible apply Frame.refl
    | with_reducible apply Frame.ite <;> intro _
    | with_reducible apply Frame.ite2 <;> intro _
    | refine Frame.step ?_ (by with_reducible apply dmRead_frame) (by decide)
    | refine Frame.pair22 (by assumption) ?_ (by with_reducible apply dmRead_frame) (by decide)
    | refine Frame.step ?_ (by with_reducible apply State.setCore_frame) (by decide)
    | refine Frame.step ?_ (by with_reducible apply postRefused_frame) (by decide)
    | refine Frame.step ?_ (by with_reducible apply tallyEvent_frame) (by decide)
    | refine Frame.step ?_ (by with_reducible apply storeBytes_frame) (by decide)
    | refine Frame.step ?_ (by with_reducible apply dmWords_frame) (by decide)
    | refine Frame.pair2 (by assumption) ?_ (by with_reducible apply dmWords_frame) (by decide)
    | refine Frame.step ?_ (by with_reducible apply stalled_frame) (by decide)
    | split
    | dsimp only

theorem tallyBody_frame (c e o s) : Frame [.so, .fab, .mm, .tally, .ctrl, .encl, .fresh, .outbox] s (tallyBody c e o s).2 := by
  unfold tallyBody
  repeat' first
    | with_reducible apply Frame.refl
    | with_reducible apply Frame.ite <;> intro _
    | with_reducible apply Frame.ite2 <;> intro _
    | refine Frame.step ?_ (by with_reducible apply aluBody_frame) (by decide)
    | refine Frame.pair2 (by assumption) ?_ (by with_reducible apply aluBody_frame) (by decide)
    | refine Frame.step ?_ (by with_reducible apply immBody_frame) (by decide)
    | refine Frame.pair2 (by assumption) ?_ (by with_reducible apply immBody_frame) (by decide)
    | refine Frame.step ?_ (by with_reducible apply shiBody_frame) (by decide)
    | refine Frame.pair2 (by assumption) ?_ (by with_reducible apply shiBody_frame) (by decide)
    | refine Frame.step ?_ (by with_reducible apply luiBody_frame) (by decide)
    | refine Frame.pair2 (by assumption) ?_ (by with_reducible apply luiBody_frame) (by decide)
    | refine Frame.step ?_ (by with_reducible apply cmpiBody_frame) (by decide)
    | refine Frame.pair2 (by assumption) ?_ (by with_reducible apply cmpiBody_frame) (by decide)
    | refine Frame.step ?_ (by with_reducible apply loadBody_frame) (by decide)
    | refine Frame.pair2 (by assumption) ?_ (by with_reducible apply loadBody_frame) (by decide)
    | refine Frame.step ?_ (by with_reducible apply storeBody_frame) (by decide)
    | refine Frame.pair2 (by assumption) ?_ (by with_reducible apply storeBody_frame) (by decide)
    | refine Frame.step ?_ (by with_reducible apply macBody_frame) (by decide)
    | refine Frame.pair2 (by assumption) ?_ (by with_reducible apply macBody_frame) (by decide)
    | refine Frame.step ?_ (by with_reducible apply macDualBody_frame) (by decide)
    | refine Frame.pair2 (by assumption) ?_ (by with_reducible apply macDualBody_frame) (by decide)
    | refine Frame.step ?_ (by with_reducible apply macwBody_frame) (by decide)
    | refine Frame.pair2 (by assumption) ?_ (by with_reducible apply macwBody_frame) (by decide)
    | refine Frame.step ?_ (by with_reducible apply macwDualBody_frame) (by decide)
    | refine Frame.pair2 (by assumption) ?_ (by with_reducible apply macwDualBody_frame) (by decide)
    | refine Frame.step ?_ (by with_reducible apply extBody_frame) (by decide)
    | refine Frame.pair2 (by assumption) ?_ (by with_reducible apply extBody_frame) (by decide)
    | refine Frame.step ?_ (by with_reducible apply mfaBody_frame) (by decide)
    | refine Frame.pair2 (by assumption) ?_ (by with_reducible apply mfaBody_frame) (by decide)
    | refine Frame.step ?_ (by with_reducible apply mtaBody_frame) (by decide)
    | refine Frame.pair2 (by assumption) ?_ (by with_reducible apply mtaBody_frame) (by decide)
    | refine Frame.step ?_ (by with_reducible apply branchBody_frame) (by decide)
    | refine Frame.pair2 (by assumption) ?_ (by with_reducible apply branchBody_frame) (by decide)
    | refine Frame.step ?_ (by with_reducible apply balBody_frame) (by decide)
    | refine Frame.pair2 (by assumption) ?_ (by with_reducible apply balBody_frame) (by decide)
    | refine Frame.step ?_ (by with_reducible apply jrBody_frame) (by decide)
    | refine Frame.pair2 (by assumption) ?_ (by with_reducible apply jrBody_frame) (by decide)
    | refine Frame.step ?_ (by with_reducible apply jalrBody_frame) (by decide)
    | refine Frame.pair2 (by assumption) ?_ (by with_reducible apply jalrBody_frame) (by decide)
    | refine Frame.step ?_ (by with_reducible apply retiBody_frame) (by decide)
    | refine Frame.pair2 (by assumption) ?_ (by with_reducible apply retiBody_frame) (by decide)
    | refine Frame.step ?_ (by with_reducible apply rptBody_frame) (by decide)
    | refine Frame.pair2 (by assumption) ?_ (by with_reducible apply rptBody_frame) (by decide)
    | refine Frame.step ?_ (by with_reducible apply mfcBody_frame) (by decide)
    | refine Frame.pair2 (by assumption) ?_ (by with_reducible apply mfcBody_frame) (by decide)
    | refine Frame.step ?_ (by with_reducible apply mtcBody_frame) (by decide)
    | refine Frame.pair2 (by assumption) ?_ (by with_reducible apply mtcBody_frame) (by decide)
    | refine Frame.step ?_ (by with_reducible apply waitBody_frame) (by decide)
    | refine Frame.pair2 (by assumption) ?_ (by with_reducible apply waitBody_frame) (by decide)
    | refine Frame.step ?_ (by with_reducible apply postBody_frame) (by decide)
    | refine Frame.pair2 (by assumption) ?_ (by with_reducible apply postBody_frame) (by decide)
    | split
    | dsimp only

theorem tallyFault_frame (c f s) : Frame [.so, .tally] s (tallyFault c f s) := by
  unfold tallyFault
  repeat' first
    | with_reducible apply Frame.refl
    | with_reducible apply Frame.ite <;> intro _
    | refine Frame.step ?_ (by with_reducible apply raiseT_frame) (by decide)
    | refine Frame.step ?_ (by with_reducible apply State.setCore_frame) (by decide)
    | split
    | dsimp only

theorem fetchCheck_frame (c e s0) : Frame [.so, .mm, .tally, .fresh] s0 (fetchCheck c e s0).2 := by
  unfold fetchCheck
  repeat' first
    | with_reducible apply Frame.refl
    | with_reducible apply Frame.ite <;> intro _
    | with_reducible apply Frame.ite2 <;> intro _
    | refine Frame.step ?_ (by with_reducible apply flipWord_frame) (by decide)
    | refine Frame.step ?_ (by with_reducible apply eccCheck_frame) (by decide)
    | refine Frame.pair22 (by assumption) ?_ (by with_reducible apply eccCheck_frame) (by decide)
    | refine Frame.step ?_ (by with_reducible apply raiseT_frame) (by decide)
    | refine Frame.step ?_ (by with_reducible apply stalled_frame) (by decide)
    | refine Frame.step ?_ (by with_reducible apply State.setCore_frame) (by decide)
    | split
    | dsimp only

theorem tallyGo_frame (c x) : Frame [.so, .tally] x.2 (tallyGo c x) := by
  unfold tallyGo
  dsimp only
  split
  · exact (tallyFault_frame ..).weaken (by decide)
  all_goals exact (State.setCore_frame ..).weaken (by decide)

theorem tallyCycles_frame (c v s) : Frame [.tally] s (tallyCycles c v s) := by
  unfold tallyCycles
  repeat' first
    | with_reducible apply Frame.refl
    | with_reducible apply Frame.ite <;> intro _
    | refine Frame.step ?_ (by with_reducible apply stalled_frame) (by decide)
    | refine Frame.step ?_ (by with_reducible apply State.setCore_frame) (by decide)
    | split
    | dsimp only

theorem tallyOne_frame (c v o s) : Frame [.so, .fab, .mm, .tally, .ctrl, .encl, .fresh, .outbox] s (tallyOne c v o s) := by
  unfold tallyOne
  repeat' first
    | with_reducible apply Frame.refl
    | with_reducible apply Frame.ite <;> intro _
    | refine Frame.step ?_ (by with_reducible apply fetchCheck_frame) (by decide)
    | refine Frame.pair2 (by assumption) ?_ (by with_reducible apply fetchCheck_frame) (by decide)
    | refine Frame.step ?_ (by with_reducible apply tallyCycles_frame) (by decide)
    | refine Frame.step ?_ (by with_reducible apply tallyFault_frame) (by decide)
    | refine Frame.step ?_ (by with_reducible apply tallyGo_frame) (by decide)
    | refine Frame.step ?_ (by with_reducible apply tallyBody_frame) (by decide)
    | refine Frame.pair2 (by assumption) ?_ (by with_reducible apply tallyBody_frame) (by decide)
    | split
    | dsimp only

theorem tallyOp_frame (c v o s) : Frame [.so, .fab, .mm, .tally, .ctrl, .encl, .fresh, .outbox] s (tallyOp c v o s) := by
  unfold tallyOp
  repeat' first
    | with_reducible apply Frame.refl
    | with_reducible apply Frame.ite <;> intro _
    | refine Frame.step ?_ (by with_reducible apply tallyOne_frame) (by decide)
    | split
    | dsimp only

theorem interruptOp_frame (c latency s) : Frame [.tally] s (interruptOp c latency s) := by
  unfold interruptOp
  repeat' first
    | with_reducible apply Frame.refl
    | with_reducible apply Frame.ite <;> intro _
    | refine Frame.step ?_ (by with_reducible apply State.setCore_frame) (by decide)
    | split
    | dsimp only

theorem waitWakeOp_frame (c cycles s) : Frame [.tally] s (waitWakeOp c cycles s) := by
  unfold waitWakeOp
  repeat' first
    | with_reducible apply Frame.refl
    | with_reducible apply Frame.ite <;> intro _
    | refine Frame.step ?_ (by with_reducible apply State.setCore_frame) (by decide)
    | split
    | dsimp only

theorem pmCompareOp_frame (c s) : Frame [.tally] s (pmCompareOp c s) := by
  unfold pmCompareOp
  repeat' first
    | with_reducible apply Frame.refl
    | with_reducible apply Frame.ite <;> intro _
    | refine Frame.step ?_ (by with_reducible apply tallyEvent_frame) (by decide)
    | refine Frame.step ?_ (by with_reducible apply State.setCore_frame) (by decide)
    | split
    | dsimp only

theorem msTickOne_frame (c s) : Frame [.tally] s (msTickOne c s) := by
  unfold msTickOne
  repeat' first
    | with_reducible apply Frame.refl
    | with_reducible apply Frame.ite <;> intro _
    | refine Frame.step ?_ (by with_reducible apply tallyEvent_frame) (by decide)
    | refine Frame.step ?_ (by with_reducible apply State.setCore_frame) (by decide)
    | split
    | dsimp only

theorem doorbellOp_frame (c s) : Frame [.tally] s (doorbellOp c s) := by
  unfold doorbellOp
  repeat' first
    | with_reducible apply Frame.refl
    | with_reducible apply Frame.ite <;> intro _
    | refine Frame.step ?_ (by with_reducible apply tallyEvent_frame) (by decide)
    | split
    | dsimp only

theorem tallyRefuse_frame (c s) : Frame [.so, .tally] s (tallyRefuse c s) := by
  unfold tallyRefuse
  repeat' first
    | with_reducible apply Frame.refl
    | with_reducible apply Frame.ite <;> intro _
    | refine Frame.step ?_ (by with_reducible apply raise_frame) (by decide)
    | refine Frame.step ?_ (by with_reducible apply State.setCore_frame) (by decide)
    | split
    | dsimp only

theorem tallyRunOp_frame (c addr s) : Frame [.so, .tally] s (tallyRunOp c addr s) := by
  unfold tallyRunOp
  repeat' first
    | with_reducible apply Frame.refl
    | with_reducible apply Frame.ite <;> intro _
    | refine Frame.step ?_ (by with_reducible apply tallyRefuse_frame) (by decide)
    | refine Frame.step ?_ (by with_reducible apply State.setCore_frame) (by decide)
    | split
    | dsimp only

theorem tallyResumeOp_frame (c addr s) : Frame [.so, .tally] s (tallyResumeOp c addr s) := by
  unfold tallyResumeOp
  repeat' first
    | with_reducible apply Frame.refl
    | with_reducible apply Frame.ite <;> intro _
    | refine Frame.step ?_ (by with_reducible apply tallyRunOp_frame) (by decide)
    | refine Frame.step ?_ (by with_reducible apply State.setCore_frame) (by decide)
    | refine Frame.step ?_ (by with_reducible apply tallyRefuse_frame) (by decide)
    | split
    | dsimp only

theorem tallyHaltOp_frame (c s) : Frame [.so, .tally] s (tallyHaltOp c s) := by
  unfold tallyHaltOp
  repeat' first
    | with_reducible apply Frame.refl
    | with_reducible apply Frame.ite <;> intro _
    | refine Frame.step ?_ (by with_reducible apply State.setCore_frame) (by decide)
    | refine Frame.step ?_ (by with_reducible apply tallyRefuse_frame) (by decide)
    | split
    | dsimp only

theorem stepLoop_frame (c y1 y2 s) : Frame [.so, .fab, .mm, .tally, .ctrl, .encl, .fresh, .outbox] s (stepLoop c y1 y2 s) := by
  induction y1 generalizing y2 s with
  | zero => exact Frame.refl _ _
  | succ n ih =>
    unfold stepLoop
    repeat' first
    | with_reducible apply Frame.refl
    | refine Frame.step ?_ (by with_reducible apply ih) (by decide)
    | with_reducible apply Frame.ite <;> intro _
    | refine Frame.step ?_ (by with_reducible apply tallyOne_frame) (by decide)
    | split
    | dsimp only

theorem tallyStepOp_frame (c e s) : Frame [.so, .fab, .mm, .tally, .ctrl, .encl, .fresh, .outbox] s (tallyStepOp c e s) := by
  unfold tallyStepOp
  repeat' first
    | with_reducible apply Frame.refl
    | with_reducible apply Frame.ite <;> intro _
    | refine Frame.step ?_ (by with_reducible apply stepLoop_frame) (by decide)
    | refine Frame.step ?_ (by with_reducible apply State.setCore_frame) (by decide)
    | refine Frame.step ?_ (by with_reducible apply tallyRefuse_frame) (by decide)
    | split
    | dsimp only

theorem tallyResetOp_frame (c s) : Frame [.tally] s (tallyResetOp c s) := by
  unfold tallyResetOp
  repeat' first
    | with_reducible apply Frame.refl
    | with_reducible apply Frame.ite <;> intro _
    | refine Frame.step ?_ (by with_reducible apply State.setCore_frame) (by decide)
    | split
    | dsimp only

theorem tallyBlockReset_frame (c s) : Frame [.so, .fab, .mm, .tally, .ctrl, .encl, .fresh, .outbox] s (tallyBlockReset c s) := by
  unfold tallyBlockReset
  repeat' first
    | with_reducible apply Frame.refl
    | with_reducible apply Frame.ite <;> intro _
    | refine Frame.step ?_ (by with_reducible apply masterResetOp_frame) (by decide)
    | refine Frame.step ?_ (by with_reducible apply tallyResetOp_frame) (by decide)
    | split
    | dsimp only

theorem tallyClearOp_frame (c s) : Frame [.tally] s (tallyClearOp c s) := by
  unfold tallyClearOp
  repeat' first
    | with_reducible apply Frame.refl
    | with_reducible apply Frame.ite <;> intro _
    | refine Frame.step ?_ (by with_reducible apply State.setCore_frame) (by decide)
    | split
    | dsimp only

theorem pmCrcOp_frame (c s) : Frame [.tally] s (pmCrcOp c s) := by
  unfold pmCrcOp
  repeat' first
    | with_reducible apply Frame.refl
    | with_reducible apply Frame.ite <;> intro _
    | refine Frame.step ?_ (by with_reducible apply State.setCore_frame) (by decide)
    | split
    | dsimp only

theorem tallyProgramOp_frame (c b s) : Frame [.so, .mm] s (tallyProgramOp c b s) := by
  unfold tallyProgramOp
  repeat' first
    | with_reducible apply Frame.refl
    | with_reducible apply Frame.ite <;> intro _
    | refine Frame.step ?_ (by with_reducible apply raise_frame) (by decide)
    | refine Frame.step ?_ (by with_reducible apply storeBytes_frame) (by decide)
    | split
    | dsimp only

theorem tallySegmentOp_frame (c b last s) : Frame [.so, .mm, .tally] s (tallySegmentOp c b last s) := by
  unfold tallySegmentOp
  repeat' first
    | with_reducible apply Frame.refl
    | with_reducible apply Frame.ite <;> intro _
    | refine Frame.step ?_ (by with_reducible apply tallyProgramOp_frame) (by decide)
    | refine Frame.step ?_ (by with_reducible apply State.setCore_frame) (by decide)
    | split
    | dsimp only

theorem wipeRange_frame (a n s) : Frame [.mm] s (wipeRange a n s) := by
  unfold wipeRange
  repeat' first
    | with_reducible apply Frame.refl
    | with_reducible apply Frame.ite <;> intro _
    | refine Frame.step ?_ (by with_reducible apply Frame.with_mm) (by decide)
    | split
    | dsimp only

theorem tallyClearDoneOp_frame (c s) : Frame [.mm, .tally] s (tallyClearDoneOp c s) := by
  unfold tallyClearDoneOp
  repeat' first
    | with_reducible apply Frame.refl
    | with_reducible apply Frame.ite <;> intro _
    | refine Frame.step ?_ (by with_reducible apply wipeRange_frame) (by decide)
    | refine Frame.step ?_ (by with_reducible apply State.setCore_frame) (by decide)
    | split
    | dsimp only

theorem tallyRead__frame (c sub s) : Frame [.fresh] s (tallyRead_ c sub s).2 := by
  unfold tallyRead_
  repeat' first
    | with_reducible apply Frame.refl
    | with_reducible apply Frame.ite <;> intro _
    | with_reducible apply Frame.ite2 <;> intro _
    | refine Frame.step ?_ (by with_reducible apply State.draw_frame) (by decide)
    | refine Frame.pair2 (by assumption) ?_ (by with_reducible apply State.draw_frame) (by decide)
    | split
    | dsimp only

end Sys2Proof.Machine
end

