-- ==== Sys2Proof/Laws/FrameStewards.lean ====
section
/-! SUPPORT. What each operation of Machine/Stewards.lean may change. -/

set_option Elab.async false

namespace Sys2Proof.Machine

open Sys2Proof

theorem issueHeld_frame (b s) : Frame [.so, .fab, .mm, .tally, .ctrl, .encl, .fresh, .outbox] s (issueHeld b s) := by
  unfold issueHeld
  repeat' first
    | with_reducible apply Frame.refl
    | with_reducible apply Frame.ite <;> intro _
    | refine Frame.step ?_ (by with_reducible apply issueBus_frame) (by decide)
    | refine Frame.step ?_ (by with_reducible apply State.setCtrl_frame) (by decide)
    | split
    | dsimp only

theorem diverge_frame (test held hurt s) : Frame [.so, .ctrl] s (diverge test held hurt s) := by
  unfold diverge
  repeat' first
    | with_reducible apply Frame.refl
    | with_reducible apply Frame.ite <;> intro _
    | refine Frame.step ?_ (by with_reducible apply raiseT_frame) (by decide)
    | refine Frame.step ?_ (by with_reducible apply State.setCtrl_frame) (by decide)
    | split
    | dsimp only

theorem pairRequest_frame (a b ecc s) : Frame [.so, .fab, .mm, .tally, .ctrl, .encl, .fresh, .outbox] s (pairRequest a b ecc s) := by
  unfold pairRequest
  repeat' first
    | with_reducible apply Frame.refl
    | with_reducible apply Frame.ite <;> intro _
    | refine Frame.step ?_ (by with_reducible apply diverge_frame) (by decide)
    | refine Frame.step ?_ (by with_reducible apply injCount_frame) (by decide)
    | refine Frame.step ?_ (by with_reducible apply issueBus_frame) (by decide)
    | split
    | dsimp only

theorem stewIssue_frame (q ecc s) : Frame [.so, .fab, .mm, .tally, .ctrl, .encl, .fresh, .outbox] s (stewIssue q ecc s) := by
  unfold stewIssue
  repeat' first
    | with_reducible apply Frame.refl
    | with_reducible apply Frame.ite <;> intro _
    | refine Frame.step ?_ (by with_reducible apply pairRequest_frame) (by decide)
    | refine Frame.step ?_ (by with_reducible apply issueBus_frame) (by decide)
    | split
    | dsimp only

theorem mismatchOp_frame (r s) : Frame [.so, .fab, .mm, .tally, .ctrl, .encl, .fresh, .outbox] s (mismatchOp r s) := by
  unfold mismatchOp
  repeat' first
    | with_reducible apply Frame.refl
    | with_reducible apply Frame.ite <;> intro _
    | refine Frame.step ?_ (by with_reducible apply raise_frame) (by decide)
    | refine Frame.step ?_ (by with_reducible apply pairRequest_frame) (by decide)
    | refine Frame.step ?_ (by with_reducible apply diverge_frame) (by decide)
    | split
    | dsimp only

theorem dropOut_frame (b s) : Frame [.so, .fab, .mm, .tally, .ctrl, .encl, .fresh, .outbox] s (dropOut b s) := by
  unfold dropOut
  repeat' first
    | with_reducible apply Frame.refl
    | with_reducible apply Frame.ite <;> intro _
    | refine Frame.step ?_ (by with_reducible apply masterResetOp_frame) (by decide)
    | refine Frame.step ?_ (by with_reducible apply raise_frame) (by decide)
    | refine Frame.step ?_ (by with_reducible apply State.setCtrl_frame) (by decide)
    | refine Frame.step ?_ (by with_reducible apply issueHeld_frame) (by decide)
    | split
    | dsimp only

theorem startAlone_frame (b s) : Frame [.ctrl] s (startAlone b s) := by
  unfold startAlone
  repeat' first
    | with_reducible apply Frame.refl
    | with_reducible apply Frame.ite <;> intro _
    | refine Frame.step ?_ (by with_reducible apply State.setCtrl_frame) (by decide)
    | split
    | dsimp only

theorem haltPair_frame (cores passed s) : Frame [.so, .fab, .mm, .ctrl, .encl, .fresh, .outbox] s (haltPair cores passed s) := by
  unfold haltPair
  repeat' first
    | with_reducible apply Frame.refl
    | with_reducible apply Frame.ite <;> intro _
    | refine Frame.step ?_ (by with_reducible apply raise_frame) (by decide)
    | refine Frame.step ?_ (by with_reducible apply masterResetOp_frame) (by decide)
    | refine Frame.step ?_ (by with_reducible apply State.setCtrl_frame) (by decide)
    | refine Frame.step ?_ (by with_reducible apply startAlone_frame) (by decide)
    | with_reducible refine Frame.foldl ?_ (fun _ _ => ?_)
    | with_reducible refine Frame.foldl2 ?_ (fun _ _ => ?_)
    | split
    | dsimp only

theorem diagOp_frame (a b s) : Frame [.so, .fab, .mm, .tally, .ctrl, .encl, .fresh, .outbox] s (diagOp a b s) := by
  unfold diagOp
  repeat' first
    | with_reducible apply Frame.refl
    | with_reducible apply Frame.ite <;> intro _
    | refine Frame.step ?_ (by with_reducible apply dropOut_frame) (by decide)
    | refine Frame.step ?_ (by with_reducible apply masterResetOp_frame) (by decide)
    | refine Frame.step ?_ (by with_reducible apply raise_frame) (by decide)
    | refine Frame.step ?_ (by with_reducible apply State.setCtrl_frame) (by decide)
    | refine Frame.step ?_ (by with_reducible apply haltPair_frame) (by decide)
    | split
    | dsimp only

theorem restartOp_frame (s) : Frame [.ctrl] s (restartOp s) := by
  unfold restartOp
  repeat' first
    | with_reducible apply Frame.refl
    | with_reducible apply Frame.ite <;> intro _
    | refine Frame.step ?_ (by with_reducible apply State.setCtrl_frame) (by decide)
    | split
    | dsimp only

theorem stewQuiet_frame (b s) : Frame [.ctrl] s (stewQuiet b s) := by
  unfold stewQuiet
  repeat' first
    | with_reducible apply Frame.refl
    | with_reducible apply Frame.ite <;> intro _
    | refine Frame.step ?_ (by with_reducible apply State.setCtrl_frame) (by decide)
    | split
    | dsimp only

theorem stewTest_frame (b pass s) : Frame [.so, .ctrl] s (stewTest b pass s) := by
  unfold stewTest
  repeat' first
    | with_reducible apply Frame.refl
    | with_reducible apply Frame.ite <;> intro _
    | refine Frame.step ?_ (by with_reducible apply startAlone_frame) (by decide)
    | refine Frame.step ?_ (by with_reducible apply State.setCtrl_frame) (by decide)
    | refine Frame.step ?_ (by with_reducible apply raise_frame) (by decide)
    | split
    | dsimp only

theorem syncPointOp_frame (s) : Frame [.ctrl] s (syncPointOp s) := by
  unfold syncPointOp
  repeat' first
    | with_reducible apply Frame.refl
    | with_reducible apply Frame.ite <;> intro _
    | refine Frame.step ?_ (by with_reducible apply State.setCtrl_frame) (by decide)
    | split
    | dsimp only

theorem resyncOp_frame (s) : Frame [.so, .ctrl] s (resyncOp s) := by
  unfold resyncOp
  repeat' first
    | with_reducible apply Frame.refl
    | with_reducible apply Frame.ite <;> intro _
    | refine Frame.step ?_ (by with_reducible apply raise_frame) (by decide)
    | refine Frame.step ?_ (by with_reducible apply State.setCtrl_frame) (by decide)
    | split
    | dsimp only

theorem survivorOp_frame (s) : Frame [.so, .fab, .mm, .ctrl, .encl, .fresh, .outbox] s (survivorOp s) := by
  unfold survivorOp
  repeat' first
    | with_reducible apply Frame.refl
    | with_reducible apply Frame.ite <;> intro _
    | refine Frame.step ?_ (by with_reducible apply haltPair_frame) (by decide)
    | refine Frame.step ?_ (by with_reducible apply State.setCtrl_frame) (by decide)
    | split
    | dsimp only

theorem offCore_frame (b s) : Frame [.so, .fab, .mm, .ctrl, .encl, .fresh, .outbox] s (offCore b s) := by
  unfold offCore
  repeat' first
    | with_reducible apply Frame.refl
    | with_reducible apply Frame.ite <;> intro _
    | refine Frame.step ?_ (by with_reducible apply masterResetOp_frame) (by decide)
    | refine Frame.step ?_ (by with_reducible apply raise_frame) (by decide)
    | refine Frame.step ?_ (by with_reducible apply State.setCtrl_frame) (by decide)
    | split
    | dsimp only

theorem stewReset_frame (b s) : Frame [.so, .fab, .mm, .tally, .ctrl, .encl, .fresh, .outbox] s (stewReset b s) := by
  unfold stewReset
  repeat' first
    | with_reducible apply Frame.refl
    | with_reducible apply Frame.ite <;> intro _
    | refine Frame.step ?_ (by with_reducible apply State.setCtrl_frame) (by decide)
    | refine Frame.step ?_ (by with_reducible apply dropOut_frame) (by decide)
    | refine Frame.step ?_ (by with_reducible apply haltPair_frame) (by decide)
    | refine Frame.step ?_ (by with_reducible apply survivorOp_frame) (by decide)
    | refine Frame.step ?_ (by with_reducible apply offCore_frame) (by decide)
    | split
    | dsimp only

theorem mirrorOp_frame (a one two s) : Frame [.so, .fab, .mm, .tally, .ctrl, .encl, .fresh, .outbox] s (mirrorOp a one two s) := by
  unfold mirrorOp
  repeat' first
    | with_reducible apply Frame.refl
    | with_reducible apply Frame.ite <;> intro _
    | refine Frame.step ?_ (by with_reducible apply stewIssue_frame) (by decide)
    | split
    | dsimp only

theorem abandonWrite_frame (a s) : Frame [.so, .filt, .tally, .dict] s (abandonWrite a s) := by
  unfold abandonWrite
  repeat' first
    | with_reducible apply Frame.refl
    | with_reducible apply Frame.ite <;> intro _
    | refine Frame.step ?_ (by with_reducible apply bankAbandon_frame) (by decide)
    | refine Frame.step ?_ (by with_reducible apply raise_frame) (by decide)
    | refine Frame.step ?_ (by with_reducible apply State.setCore_frame) (by decide)
    | split
    | dsimp only

theorem State.setDict_frame (s d) : Frame [.dict] s (State.setDict s d) := by
  refine ⟨fun p hp => ?_⟩; cases p <;> first | rfl | exact absurd (by decide) hp

theorem storeReset_frame (s) : Frame [.so, .filt, .tally, .dict] s (storeReset s) := by
  unfold storeReset
  repeat' first
    | with_reducible apply Frame.refl
    | with_reducible apply Frame.ite <;> intro _
    | refine Frame.step ?_ (by with_reducible apply abandonWrite_frame) (by decide)
    | refine Frame.step ?_ (by with_reducible apply State.setDict_frame) (by decide)
    | with_reducible refine Frame.foldl ?_ (fun _ _ => ?_)
    | with_reducible refine Frame.foldl2 ?_ (fun _ _ => ?_)
    | split
    | dsimp only

end Sys2Proof.Machine
end

