-- ==== Sys2Proof/Laws/FrameSorting.lean ====
section
/-! SUPPORT. What each operation of Machine/Sorting.lean may change. -/

set_option Elab.async false

namespace Sys2Proof.Machine

open Sys2Proof

theorem State.setSo_frame (s x) : Frame [.so] s (State.setSo s x) := by
  refine ⟨fun p hp => ?_⟩; cases p <;> first | rfl | exact absurd (by decide) hp

theorem setHeld_frame (n b s) : Frame [.dict] s (setHeld n b s) := by
  unfold setHeld
  repeat' first
    | with_reducible apply Frame.refl
    | with_reducible apply Frame.ite <;> intro _
    | refine Frame.step ?_ (by with_reducible apply State.modBlk_frame) (by decide)
    | split
    | dsimp only

theorem slotReset_frame (k slot s) : Frame [.so, .fab, .dict] s (slotReset k slot s) := by
  unfold slotReset
  repeat' first
    | with_reducible apply Frame.refl
    | with_reducible apply Frame.ite <;> intro _
    | refine Frame.step ?_ (by with_reducible apply slotIsolate_frame) (by decide)
    | refine Frame.step ?_ (by with_reducible apply setHeld_frame) (by decide)
    | refine Frame.step ?_ (by with_reducible apply raise_frame) (by decide)
    | refine Frame.step ?_ (by with_reducible apply State.modSrc_frame) (by decide)
    | refine Frame.step ?_ (by with_reducible apply slotRelease_frame) (by decide)
    | split
    | dsimp only

theorem State.stopUnits_frame (s n) : Frame [.dict] s (State.stopUnits s n) := by
  unfold State.stopUnits
  repeat' first
    | with_reducible apply Frame.refl
    | with_reducible apply Frame.ite <;> intro _
    | refine Frame.step ?_ (by with_reducible apply State.modBlk_frame) (by decide)
    | split
    | dsimp only

theorem blockReset_frame (n s0) : Frame [.so, .lanes, .filt, .relay, .fab, .acc, .mm, .out, .cour, .tally, .ctrl, .time, .dict, .encl, .fresh, .outbox] s0 (blockReset n s0) := by
  unfold blockReset
  repeat' first
    | with_reducible apply Frame.refl
    | with_reducible apply Frame.ite <;> intro _
    | refine Frame.step ?_ (by with_reducible apply State.stopUnits_frame) (by decide)
    | refine Frame.step ?_ (by with_reducible apply laneReset_frame) (by decide)
    | refine Frame.step ?_ (by with_reducible apply masterResetOp_frame) (by decide)
    | refine Frame.step ?_ (by with_reducible apply engineReset_frame) (by decide)
    | refine Frame.step ?_ (by with_reducible apply portReset_frame) (by decide)
    | refine Frame.step ?_ (by with_reducible apply clusterReset_frame) (by decide)
    | refine Frame.step ?_ (by with_reducible apply slotReset_frame) (by decide)
    | refine Frame.step ?_ (by with_reducible apply stackReset_frame) (by decide)
    | refine Frame.step ?_ (by with_reducible apply accReset_frame) (by decide)
    | refine Frame.step ?_ (by with_reducible apply compReset_frame) (by decide)
    | refine Frame.step ?_ (by with_reducible apply asmReset_frame) (by decide)
    | refine Frame.step ?_ (by with_reducible apply tallyBlockReset_frame) (by decide)
    | refine Frame.step ?_ (by with_reducible apply stewReset_frame) (by decide)
    | refine Frame.step ?_ (by with_reducible apply courReset_frame) (by decide)
    | refine Frame.step ?_ (by with_reducible apply raise_frame) (by decide)
    | refine Frame.step ?_ (by with_reducible apply storeReset_frame) (by decide)
    | refine Frame.step ?_ (by with_reducible apply timeReset_frame) (by decide)
    | split
    | dsimp only

theorem isolateOp_frame (n s) : Frame [.so, .lanes, .filt, .relay, .fab, .acc, .mm, .out, .cour, .tally, .ctrl, .time, .dict, .encl, .fresh, .outbox] s (isolateOp n s) := by
  unfold isolateOp
  repeat' first
    | with_reducible apply Frame.refl
    | with_reducible apply Frame.ite <;> intro _
    | refine Frame.step ?_ (by with_reducible apply setHeld_frame) (by decide)
    | refine Frame.step ?_ (by with_reducible apply slotIsolate_frame) (by decide)
    | refine Frame.step ?_ (by with_reducible apply blockReset_frame) (by decide)
    | split
    | dsimp only

theorem latchEffect_frame (n s) : Frame [.so, .lanes, .filt, .relay, .fab, .acc, .mm, .out, .cour, .tally, .ctrl, .time, .dict, .encl, .fresh, .outbox] s (latchEffect n s) := by
  unfold latchEffect
  repeat' first
    | with_reducible apply Frame.refl
    | with_reducible apply Frame.ite <;> intro _
    | refine Frame.step ?_ (by with_reducible apply isolateOp_frame) (by decide)
    | refine Frame.step ?_ (by with_reducible apply State.setCtrl_frame) (by decide)
    | split
    | dsimp only

theorem releaseOp_frame (n s) : Frame [.so, .lanes, .filt, .relay, .fab, .acc, .mm, .out, .cour, .tally, .ctrl, .time, .dict, .encl, .fresh, .outbox] s (releaseOp n s) := by
  unfold releaseOp
  repeat' first
    | with_reducible apply Frame.refl
    | with_reducible apply Frame.ite <;> intro _
    | refine Frame.step ?_ (by with_reducible apply setHeld_frame) (by decide)
    | refine Frame.step ?_ (by with_reducible apply slotRelease_frame) (by decide)
    | refine Frame.step ?_ (by with_reducible apply blockReset_frame) (by decide)
    | split
    | dsimp only

theorem reactAt_frame (n kind cls r s0) : Frame [.so, .lanes, .filt, .relay, .fab, .acc, .mm, .out, .cour, .tally, .ctrl, .time, .dict, .encl, .fresh, .outbox] s0 (reactAt n kind cls r s0) := by
  unfold reactAt
  repeat' first
    | with_reducible apply Frame.refl
    | with_reducible apply Frame.ite <;> intro _
    | refine Frame.step ?_ (by with_reducible apply State.modSrc_frame) (by decide)
    | refine Frame.step ?_ (by with_reducible apply raise_frame) (by decide)
    | refine Frame.step ?_ (by with_reducible apply latchEffect_frame) (by decide)
    | refine Frame.step ?_ (by with_reducible apply isolateOp_frame) (by decide)
    | split
    | dsimp only

theorem queueCard_frame (c s) : Frame [.so] s (queueCard c s) := by
  unfold queueCard
  repeat' first
    | with_reducible apply Frame.refl
    | with_reducible apply Frame.ite <;> intro _
    | refine Frame.step ?_ (by with_reducible apply State.setSo_frame) (by decide)
    | split
    | dsimp only

theorem acceptOp_frame (s) : Frame [.so, .lanes, .filt, .relay, .fab, .acc, .mm, .out, .cour, .tally, .ctrl, .time, .dict, .encl, .fresh, .outbox] s (acceptOp s) := by
  unfold acceptOp
  repeat' first
    | with_reducible apply Frame.refl
    | with_reducible apply Frame.ite <;> intro _
    | refine Frame.step ?_ (by with_reducible apply queueCard_frame) (by decide)
    | refine Frame.step ?_ (by with_reducible apply State.setSo_frame) (by decide)
    | refine Frame.step ?_ (by with_reducible apply reactAt_frame) (by decide)
    | split
    | dsimp only

theorem pcAckOp_frame (a s) : Frame [.so] s (pcAckOp a s) := by
  unfold pcAckOp
  repeat' first
    | with_reducible apply Frame.refl
    | with_reducible apply Frame.ite <;> intro _
    | refine Frame.step ?_ (by with_reducible apply State.setSo_frame) (by decide)
    | refine Frame.step ?_ (by with_reducible apply queueCard_frame) (by decide)
    | split
    | dsimp only

theorem quietEndOp_frame (n s) : Frame [.so, .lanes, .filt, .relay, .fab, .acc, .mm, .out, .cour, .tally, .ctrl, .time, .dict, .encl, .fresh, .outbox] s (quietEndOp n s) := by
  unfold quietEndOp
  repeat' first
    | with_reducible apply Frame.refl
    | with_reducible apply Frame.ite <;> intro _
    | refine Frame.step ?_ (by with_reducible apply releaseOp_frame) (by decide)
    | refine Frame.step ?_ (by with_reducible apply State.modSrc_frame) (by decide)
    | refine Frame.step ?_ (by with_reducible apply stewQuiet_frame) (by decide)
    | split
    | dsimp only

theorem windowOp_frame (n s) : Frame [.so] s (windowOp n s) := by
  unfold windowOp
  repeat' first
    | with_reducible apply Frame.refl
    | with_reducible apply Frame.ite <;> intro _
    | refine Frame.step ?_ (by with_reducible apply State.modSrc_frame) (by decide)
    | split
    | dsimp only

theorem faultReleaseOp_frame (n s) : Frame [.so, .lanes, .filt, .relay, .fab, .acc, .mm, .out, .cour, .tally, .ctrl, .time, .dict, .encl, .fresh, .outbox] s (faultReleaseOp n s) := by
  unfold faultReleaseOp
  repeat' first
    | with_reducible apply Frame.refl
    | with_reducible apply Frame.ite <;> intro _
    | refine Frame.step ?_ (by with_reducible apply raise_frame) (by decide)
    | refine Frame.step ?_ (by with_reducible apply releaseOp_frame) (by decide)
    | refine Frame.step ?_ (by with_reducible apply State.modSrc_frame) (by decide)
    | split
    | dsimp only

theorem injectOp_frame (r s) : Frame [.so] s (injectOp r s) := by
  unfold injectOp
  repeat' first
    | with_reducible apply Frame.refl
    | with_reducible apply Frame.ite <;> intro _
    | refine Frame.step ?_ (by with_reducible apply State.setSo_frame) (by decide)
    | split
    | dsimp only

end Sys2Proof.Machine
end

