-- ==== Sys2Proof/Laws/FrameTimetable.lean ====
section
/-! SUPPORT. What each operation of Machine/Timetable.lean may change. -/

set_option Elab.async false

namespace Sys2Proof.Machine

open Sys2Proof

theorem State.setTt_frame (s t) : Frame [.dict] s (State.setTt s t) := by
  refine ⟨fun p hp => ?_⟩; cases p <;> first | rfl | exact absurd (by decide) hp

theorem storeCard_frame (test kind o s) : Frame [.so] s (storeCard test kind o s) := by
  unfold storeCard
  repeat' first
    | with_reducible apply Frame.refl
    | with_reducible apply Frame.ite <;> intro _
    | refine Frame.step ?_ (by with_reducible apply raiseT_frame) (by decide)
    | split
    | dsimp only

theorem markObj_frame (o w s) : Frame [.dict] s (markObj o w s) := by
  unfold markObj
  repeat' first
    | with_reducible apply Frame.refl
    | with_reducible apply Frame.ite <;> intro _
    | refine Frame.step ?_ (by with_reducible apply State.setDict_frame) (by decide)
    | split
    | dsimp only

theorem storeCheck_frame (o w e s) : Frame [.so, .dict, .fresh] s (storeCheck o w e s) := by
  unfold storeCheck
  repeat' first
    | with_reducible apply Frame.refl
    | with_reducible apply Frame.ite <;> intro _
    | refine Frame.step ?_ (by with_reducible apply eccCheck_frame) (by decide)
    | refine Frame.pair22 (by assumption) ?_ (by with_reducible apply eccCheck_frame) (by decide)
    | refine Frame.step ?_ (by with_reducible apply storeCard_frame) (by decide)
    | refine Frame.step ?_ (by with_reducible apply State.setDict_frame) (by decide)
    | refine Frame.step ?_ (by with_reducible apply markObj_frame) (by decide)
    | split
    | dsimp only

theorem blockCommit_frame (n p old new s) : Frame [.so, .lanes, .filt, .relay, .fab, .acc, .mm, .out, .ctrl, .time, .dict, .fresh, .outbox] s (blockCommit n p old new s) := by
  unfold blockCommit
  repeat' first
    | with_reducible apply Frame.refl
    | with_reducible apply Frame.ite <;> intro _
    | refine Frame.step ?_ (by with_reducible apply genChange_frame) (by decide)
    | refine Frame.step ?_ (by with_reducible apply engineCommit_frame) (by decide)
    | refine Frame.step ?_ (by with_reducible apply relayCommit_frame) (by decide)
    | refine Frame.step ?_ (by with_reducible apply clusterCommit_frame) (by decide)
    | refine Frame.step ?_ (by with_reducible apply weightCommit_frame) (by decide)
    | refine Frame.step ?_ (by with_reducible apply stackCommit_frame) (by decide)
    | refine Frame.step ?_ (by with_reducible apply accCommit_frame) (by decide)
    | refine Frame.step ?_ (by with_reducible apply timeCommit_frame) (by decide)
    | split
    | dsimp only

theorem applySets_frame (n t s) : Frame [.so, .lanes, .filt, .relay, .fab, .acc, .mm, .out, .ctrl, .time, .dict, .fresh, .outbox] s (applySets n t s) := by
  unfold applySets
  repeat' first
    | with_reducible apply Frame.refl
    | with_reducible apply Frame.ite <;> intro _
    | refine Frame.step ?_ (by with_reducible apply blockCommit_frame) (by decide)
    | refine Frame.step ?_ (by with_reducible apply State.noteApplied_frame) (by decide)
    | split
    | dsimp only

theorem applyUnit_frame (n t s) : Frame [.so, .lanes, .filt, .relay, .fab, .acc, .mm, .out, .ctrl, .time, .dict, .fresh, .outbox] s (applyUnit n t s) := by
  unfold applyUnit
  repeat' first
    | with_reducible apply Frame.refl
    | with_reducible apply Frame.ite <;> intro _
    | refine Frame.step ?_ (by with_reducible apply applySets_frame) (by decide)
    | with_reducible refine Frame.forRange ?_ (fun _ _ => ?_)
    | split
    | dsimp only

theorem rejectCommit_frame (code detail s) : Frame [.so, .dict] s (rejectCommit code detail s) := by
  unfold rejectCommit
  repeat' first
    | with_reducible apply Frame.refl
    | with_reducible apply Frame.ite <;> intro _
    | refine Frame.step ?_ (by with_reducible apply raise_frame) (by decide)
    | refine Frame.step ?_ (by with_reducible apply State.setTt_frame) (by decide)
    | split
    | dsimp only

theorem acceptCommit_frame (s) : Frame [.dict] s (acceptCommit s) := by
  unfold acceptCommit
  repeat' first
    | with_reducible apply Frame.refl
    | with_reducible apply Frame.ite <;> intro _
    | refine Frame.step ?_ (by with_reducible apply State.setTt_frame) (by decide)
    | split
    | dsimp only

theorem voteResult_frame (ok s) : Frame [.so, .dict] s (voteResult ok s) := by
  unfold voteResult
  repeat' first
    | with_reducible apply Frame.refl
    | with_reducible apply Frame.ite <;> intro _
    | refine Frame.step ?_ (by with_reducible apply acceptCommit_frame) (by decide)
    | refine Frame.step ?_ (by with_reducible apply rejectCommit_frame) (by decide)
    | split
    | dsimp only

theorem settleBarrier_frame (s) : Frame [.so, .lanes, .relay, .dict, .outbox] s (settleBarrier s) := by
  unfold settleBarrier
  repeat' first
    | with_reducible apply Frame.refl
    | with_reducible apply Frame.ite <;> intro _
    | refine Frame.step ?_ (by with_reducible apply voteResult_frame) (by decide)
    | refine Frame.step ?_ (by with_reducible apply sendBarrierDown_frame) (by decide)
    | refine Frame.step ?_ (by with_reducible apply State.setRelay_frame) (by decide)
    | split
    | dsimp only

theorem commitMissed_frame (s) : Frame [.so, .dict] s (commitMissed s) := by
  unfold commitMissed
  repeat' first
    | with_reducible apply Frame.refl
    | with_reducible apply Frame.ite <;> intro _
    | refine Frame.step ?_ (by with_reducible apply raise_frame) (by decide)
    | refine Frame.step ?_ (by with_reducible apply State.setTt_frame) (by decide)
    | split
    | dsimp only

theorem checksDone_frame (ecc s0) : Frame [.so, .lanes, .relay, .dict, .fresh, .outbox] s0 (checksDone ecc s0) := by
  unfold checksDone
  repeat' first
    | with_reducible apply Frame.refl
    | with_reducible apply Frame.ite <;> intro _
    | refine Frame.step ?_ (by with_reducible apply storeCheck_frame) (by decide)
    | refine Frame.step ?_ (by with_reducible apply State.setTt_frame) (by decide)
    | refine Frame.step ?_ (by with_reducible apply voteResult_frame) (by decide)
    | refine Frame.step ?_ (by with_reducible apply settleBarrier_frame) (by decide)
    | refine Frame.step ?_ (by with_reducible apply barrierVote_frame) (by decide)
    | refine Frame.step ?_ (by with_reducible apply rejectCommit_frame) (by decide)
    | refine Frame.step ?_ (by with_reducible apply acceptCommit_frame) (by decide)
    | with_reducible refine Frame.foldl ?_ (fun _ _ => ?_)
    | with_reducible refine Frame.foldl2 ?_ (fun _ _ => ?_)
    | split
    | dsimp only

theorem loadedOp_frame (s) : Frame [.dict] s (loadedOp s) := by
  unfold loadedOp
  repeat' first
    | with_reducible apply Frame.refl
    | with_reducible apply Frame.ite <;> intro _
    | refine Frame.step ?_ (by with_reducible apply State.setDict_frame) (by decide)
    | split
    | dsimp only

theorem plcaWrites_frame (old new s) : Frame [.outbox] s (plcaWrites old new s) := by
  unfold plcaWrites
  repeat' first
    | with_reducible apply Frame.refl
    | with_reducible apply Frame.ite <;> intro _
    | refine Frame.step ?_ (by with_reducible apply State.send_frame) (by decide)
    | split
    | dsimp only

theorem latchSets_frame (s) : Frame [.acc, .mm, .dict] s (latchSets s) := by
  refine ⟨fun p hp => ?_⟩; cases p <;> first | rfl | exact absurd (by decide) hp

theorem latchOp_frame (s) :
    Frame [.so, .lanes, .filt, .relay, .fab, .acc, .mm, .out, .ctrl, .time, .dict, .fresh, .outbox] s (latchOp s) := by
  unfold latchOp
  refine Frame.ite (fun _ => ?_) (fun _ => Frame.refl _ _)
  refine Frame.step (Frame.step ?_ (plcaWrites_frame _ _ _) (by decide)) (raise_frame _ _ _ _) (by decide)
  refine Frame.foldl ((latchSets_frame s).weaken (by decide)) (fun v n => ?_)
  exact (applySets_frame n _ v).weaken (by decide)

theorem confSend_frame (kind b s) : Frame [.relay] s (confSend kind b s) := by
  unfold confSend
  repeat' first
    | with_reducible apply Frame.refl
    | with_reducible apply Frame.ite <;> intro _
    | refine Frame.step ?_ (by with_reducible apply State.setRelay_frame) (by decide)
    | refine Frame.step ?_ (by with_reducible apply queueService_frame) (by decide)
    | with_reducible refine Frame.foldl ?_ (fun _ _ => ?_)
    | with_reducible refine Frame.foldl2 ?_ (fun _ _ => ?_)
    | split
    | dsimp only

theorem takeCommit_frame (at_ system dry s0) : Frame [.so, .dict, .fresh] s0 (takeCommit at_ system dry s0) := by
  unfold takeCommit
  repeat' first
    | with_reducible apply Frame.refl
    | with_reducible apply Frame.ite <;> intro _
    | refine Frame.step ?_ (by with_reducible apply storeCheck_frame) (by decide)
    | refine Frame.step ?_ (by with_reducible apply State.setDict_frame) (by decide)
    | split
    | dsimp only

theorem commitRequestOp_frame (at_ system dry s) : Frame [.so, .relay, .dict, .fresh] s (commitRequestOp at_ system dry s) := by
  unfold commitRequestOp
  repeat' first
    | with_reducible apply Frame.refl
    | with_reducible apply Frame.ite <;> intro _
    | refine Frame.step ?_ (by with_reducible apply takeCommit_frame) (by decide)
    | refine Frame.step ?_ (by with_reducible apply State.setTt_frame) (by decide)
    | refine Frame.step ?_ (by with_reducible apply State.setRelay_frame) (by decide)
    | refine Frame.step ?_ (by with_reducible apply confSend_frame) (by decide)
    | split
    | dsimp only

theorem commitWait_frame (at_ system dry s) : Frame [.so, .relay, .dict, .fresh] s (commitWait at_ system dry s) := by
  unfold commitWait
  repeat' first
    | with_reducible apply Frame.refl
    | with_reducible apply Frame.ite <;> intro _
    | refine Frame.step ?_ (by with_reducible apply commitRequestOp_frame) (by decide)
    | split
    | dsimp only

theorem proposalOp_frame (p barrier dry crc s) : Frame [.so, .lanes, .relay, .dict, .fresh, .outbox] s (proposalOp p barrier dry crc s) := by
  unfold proposalOp
  repeat' first
    | with_reducible apply Frame.refl
    | with_reducible apply Frame.ite <;> intro _
    | refine Frame.step ?_ (by with_reducible apply takeCommit_frame) (by decide)
    | refine Frame.step ?_ (by with_reducible apply State.setTt_frame) (by decide)
    | refine Frame.step ?_ (by with_reducible apply barrierVote_frame) (by decide)
    | split
    | dsimp only

theorem proposalWait_frame (p barrier dry crc s) : Frame [.so, .lanes, .relay, .dict, .fresh, .outbox] s (proposalWait p barrier dry crc s) := by
  unfold proposalWait
  repeat' first
    | with_reducible apply Frame.refl
    | with_reducible apply Frame.ite <;> intro _
    | refine Frame.step ?_ (by with_reducible apply proposalOp_frame) (by decide)
    | split
    | dsimp only

end Sys2Proof.Machine
end

