-- ==== Sys2Proof/Laws/FramePower.lean ====
section
/-! SUPPORT. What each operation of Machine/Power.lean may change. -/

set_option Elab.async false

namespace Sys2Proof.Machine

open Sys2Proof

theorem State.setPwr_frame (s p) : Frame [.pwr] s (State.setPwr s p) := by
  refine ⟨fun p hp => ?_⟩; cases p <;> first | rfl | exact absurd (by decide) hp

theorem mainReset_frame (s) : Frame [.so, .lanes, .filt, .relay, .fab, .acc, .mm, .out, .cour, .tally, .ctrl, .time, .dict, .pwr] s (mainReset s) := by
  refine ⟨fun p hp => ?_⟩; cases p <;> first | rfl | exact absurd (by decide) hp

theorem mainStart_frame (s) : Frame [.lanes, .time, .pwr] s (mainStart s) := by
  refine ⟨fun p hp => ?_⟩; cases p <;> first | rfl | exact absurd (by decide) hp

theorem leaveReset_frame (s) : Frame [.so, .lanes, .time, .pwr] s (leaveReset s) := by
  unfold leaveReset
  repeat' first
    | with_reducible apply Frame.refl
    | with_reducible apply Frame.ite <;> intro _
    | refine Frame.step ?_ (by with_reducible apply raise_frame) (by decide)
    | refine Frame.step ?_ (by with_reducible apply mainStart_frame) (by decide)
    | with_reducible refine Frame.foldl ?_ (fun _ _ => ?_)
    | with_reducible refine Frame.foldl2 ?_ (fun _ _ => ?_)
    | split
    | dsimp only

theorem vkaRiseOp_frame (closed s) : Frame [.so, .time, .dict, .encl, .pwr] s (vkaRiseOp closed s) := by
  unfold vkaRiseOp
  repeat' first
    | with_reducible apply Frame.refl
    | with_reducible apply Frame.ite <;> intro _
    | refine Frame.step ?_ (by with_reducible apply State.setPwr_frame) (by decide)
    | refine Frame.step ?_ (by with_reducible apply State.setTime_frame) (by decide)
    | refine Frame.step ?_ (by with_reducible apply compareLevel_frame) (by decide)
    | refine Frame.step ?_ (by with_reducible apply State.setEncl_frame) (by decide)
    | split
    | dsimp only

theorem vkaLossOp_frame (s) : Frame [.so, .lanes, .filt, .relay, .fab, .acc, .mm, .out, .cour, .tally, .ctrl, .time, .dict, .pwr] s (vkaLossOp s) := by
  unfold vkaLossOp
  repeat' first
    | with_reducible apply Frame.refl
    | with_reducible apply Frame.ite <;> intro _
    | refine Frame.step ?_ (by with_reducible apply mainReset_frame) (by decide)
    | refine Frame.step ?_ (by with_reducible apply State.setPwr_frame) (by decide)
    | refine Frame.step ?_ (by with_reducible apply State.setTime_frame) (by decide)
    | refine Frame.step ?_ (by with_reducible apply Frame.with_so) (by decide)
    | refine Frame.step ?_ (by with_reducible apply Frame.with_lanes) (by decide)
    | refine Frame.step ?_ (by with_reducible apply Frame.with_filt) (by decide)
    | refine Frame.step ?_ (by with_reducible apply Frame.with_relay) (by decide)
    | refine Frame.step ?_ (by with_reducible apply Frame.with_fab) (by decide)
    | refine Frame.step ?_ (by with_reducible apply Frame.with_acc) (by decide)
    | refine Frame.step ?_ (by with_reducible apply Frame.with_mm) (by decide)
    | refine Frame.step ?_ (by with_reducible apply Frame.with_out) (by decide)
    | refine Frame.step ?_ (by with_reducible apply Frame.with_cour) (by decide)
    | refine Frame.step ?_ (by with_reducible apply Frame.with_tally) (by decide)
    | refine Frame.step ?_ (by with_reducible apply Frame.with_ctrl) (by decide)
    | refine Frame.step ?_ (by with_reducible apply Frame.with_time) (by decide)
    | refine Frame.step ?_ (by with_reducible apply Frame.with_dict) (by decide)
    | refine Frame.step ?_ (by with_reducible apply Frame.with_pwr) (by decide)
    | split
    | dsimp only

theorem groupGoodOp_frame (g s) : Frame [.so, .lanes, .time, .pwr] s (groupGoodOp g s) := by
  unfold groupGoodOp
  repeat' first
    | with_reducible apply Frame.refl
    | with_reducible apply Frame.ite <;> intro _
    | refine Frame.step ?_ (by with_reducible apply State.setPwr_frame) (by decide)
    | refine Frame.step ?_ (by with_reducible apply leaveReset_frame) (by decide)
    | split
    | dsimp only

theorem bootOp_frame (s) : Frame [.time, .dict, .pwr] s (bootOp s) := by
  unfold bootOp
  repeat' first
    | with_reducible apply Frame.refl
    | with_reducible apply Frame.ite <;> intro _
    | refine Frame.step ?_ (by with_reducible apply tbMode_frame) (by decide)
    | refine Frame.step ?_ (by with_reducible apply State.setDict_frame) (by decide)
    | refine Frame.step ?_ (by with_reducible apply State.setPwr_frame) (by decide)
    | with_reducible refine Frame.forRange ?_ (fun _ _ => ?_)
    | split
    | dsimp only

theorem railCard_frame (kind n v s) : Frame [.so] s (railCard kind n v s) := by
  unfold railCard
  repeat' first
    | with_reducible apply Frame.refl
    | with_reducible apply Frame.ite <;> intro _
    | refine Frame.step ?_ (by with_reducible apply raise_frame) (by decide)
    | split
    | dsimp only

theorem railRange_frame (n v r s) : Frame [.so, .pwr] s (railRange n v r s) := by
  unfold railRange
  repeat' first
    | with_reducible apply Frame.refl
    | with_reducible apply Frame.ite <;> intro _
    | refine Frame.step ?_ (by with_reducible apply State.setPwr_frame) (by decide)
    | refine Frame.step ?_ (by with_reducible apply railCard_frame) (by decide)
    | split
    | dsimp only

theorem vkaCheck_frame (v s) : Frame [.so, .pwr] s (vkaCheck v s) := by
  unfold vkaCheck
  repeat' first
    | with_reducible apply Frame.refl
    | with_reducible apply Frame.ite <;> intro _
    | refine Frame.step ?_ (by with_reducible apply State.setPwr_frame) (by decide)
    | refine Frame.step ?_ (by with_reducible apply railCard_frame) (by decide)
    | split
    | dsimp only

theorem railReset_frame (bit kind n v s) : Frame [.so, .lanes, .filt, .relay, .fab, .acc, .mm, .out, .cour, .tally, .ctrl, .time, .dict, .pwr] s (railReset bit kind n v s) := by
  unfold railReset
  repeat' first
    | with_reducible apply Frame.refl
    | with_reducible apply Frame.ite <;> intro _
    | refine Frame.step ?_ (by with_reducible apply mainReset_frame) (by decide)
    | refine Frame.step ?_ (by with_reducible apply State.setPwr_frame) (by decide)
    | split
    | dsimp only

theorem tapPower_frame (mv s) : Frame [.tap] s (tapPower mv s) := by
  unfold tapPower
  repeat' first
    | with_reducible apply Frame.refl
    | with_reducible apply Frame.ite <;> intro _
    | refine Frame.step ?_ (by with_reducible apply Frame.with_tap) (by decide)
    | split
    | dsimp only

theorem railSampleOp_frame (mv s) : Frame [.so, .lanes, .filt, .relay, .fab, .acc, .mm, .out, .cour, .tally, .ctrl, .time, .dict, .pwr] s (railSampleOp mv s) := by
  unfold railSampleOp
  repeat' first
    | with_reducible apply Frame.refl
    | with_reducible apply Frame.ite <;> intro _
    | refine Frame.step ?_ (by with_reducible apply State.setPwr_frame) (by decide)
    | refine Frame.step ?_ (by with_reducible apply vkaCheck_frame) (by decide)
    | refine Frame.step ?_ (by with_reducible apply railRange_frame) (by decide)
    | refine Frame.step ?_ (by with_reducible apply railReset_frame) (by decide)
    | with_reducible refine Frame.foldl ?_ (fun _ _ => ?_)
    | with_reducible refine Frame.foldl2 ?_ (fun _ _ => ?_)
    | split
    | dsimp only

theorem tjSampleOp_frame (t s) : Frame [.so, .pwr] s (tjSampleOp t s) := by
  unfold tjSampleOp
  repeat' first
    | with_reducible apply Frame.refl
    | with_reducible apply Frame.ite <;> intro _
    | refine Frame.step ?_ (by with_reducible apply State.setPwr_frame) (by decide)
    | refine Frame.step ?_ (by with_reducible apply raise_frame) (by decide)
    | with_reducible refine Frame.foldl ?_ (fun _ _ => ?_)
    | with_reducible refine Frame.foldl2 ?_ (fun _ _ => ?_)
    | split
    | dsimp only

theorem laneSoft_frame (l s) : Frame [.lanes] s (laneSoft l s) := by
  unfold laneSoft
  repeat' first
    | with_reducible apply Frame.refl
    | with_reducible apply Frame.ite <;> intro _
    | refine Frame.step ?_ (by with_reducible apply State.modLane_frame) (by decide)
    | split
    | dsimp only

theorem portSoft_frame (p s) : Frame [.relay] s (portSoft p s) := by
  unfold portSoft
  repeat' first
    | with_reducible apply Frame.refl
    | with_reducible apply Frame.ite <;> intro _
    | refine Frame.step ?_ (by with_reducible apply State.setPort_frame) (by decide)
    | split
    | dsimp only

theorem softClear_frame (s) : Frame [.lanes, .filt, .relay, .fab, .acc, .mm, .out, .pwr] s (softClear s) := by
  refine ⟨fun p hp => ?_⟩; cases p <;> first | rfl | exact absurd (by decide) hp

theorem stackSoft_frame (k s) : Frame [.so, .fab, .mm, .ctrl, .fresh, .outbox] s (stackSoft k s) := by
  unfold stackSoft
  repeat' first
    | with_reducible apply Frame.refl
    | with_reducible apply Frame.ite <;> intro _
    | refine Frame.step ?_ (by with_reducible apply serveStack_frame) (by decide)
    | refine Frame.step ?_ (by with_reducible apply State.setStk_frame) (by decide)
    | split
    | dsimp only

theorem softEffect_frame (s) : Frame [.so, .lanes, .filt, .relay, .fab, .acc, .mm, .out, .cour, .tally, .ctrl, .time, .dict, .pwr, .fresh, .outbox] s (softEffect s) := by
  unfold softEffect
  repeat' first
    | with_reducible apply Frame.refl
    | with_reducible apply Frame.ite <;> intro _
    | refine Frame.step ?_ (by with_reducible apply softClear_frame) (by decide)
    | refine Frame.step ?_ (by with_reducible apply State.setDict_frame) (by decide)
    | refine Frame.step ?_ (by with_reducible apply laneSoft_frame) (by decide)
    | refine Frame.step ?_ (by with_reducible apply tallyResetOp_frame) (by decide)
    | refine Frame.step ?_ (by with_reducible apply portSoft_frame) (by decide)
    | refine Frame.step ?_ (by with_reducible apply stackSoft_frame) (by decide)
    | refine Frame.step ?_ (by with_reducible apply engineReset_frame) (by decide)
    | refine Frame.step ?_ (by with_reducible apply holdRate_frame) (by decide)
    | refine Frame.step ?_ (by with_reducible apply tbMode_frame) (by decide)
    | refine Frame.step ?_ (by with_reducible apply courSoft_frame) (by decide)
    | with_reducible refine Frame.forRange ?_ (fun _ _ => ?_)
    | split
    | dsimp only

theorem softStart_frame (s) : Frame [.dict, .pwr] s (softStart s) := by
  unfold softStart
  repeat' first
    | with_reducible apply Frame.refl
    | with_reducible apply Frame.ite <;> intro _
    | refine Frame.step ?_ (by with_reducible apply State.setDict_frame) (by decide)
    | refine Frame.step ?_ (by with_reducible apply State.setPwr_frame) (by decide)
    | split
    | dsimp only

theorem softGo_frame (s) : Frame [.so, .lanes, .filt, .relay, .fab, .acc, .mm, .out, .cour, .tally, .ctrl, .time, .dict, .pwr, .fresh, .outbox] s (softGo s) := by
  unfold softGo
  repeat' first
    | with_reducible apply Frame.refl
    | with_reducible apply Frame.ite <;> intro _
    | refine Frame.step ?_ (by with_reducible apply softEffect_frame) (by decide)
    | split
    | dsimp only

theorem softResetOp_frame (v s) : Frame [.so, .lanes, .filt, .relay, .fab, .acc, .mm, .out, .cour, .tally, .ctrl, .time, .dict, .pwr, .fresh, .outbox] s (softResetOp v s) := by
  unfold softResetOp
  repeat' first
    | with_reducible apply Frame.refl
    | with_reducible apply Frame.ite <;> intro _
    | refine Frame.step ?_ (by with_reducible apply softGo_frame) (by decide)
    | refine Frame.step ?_ (by with_reducible apply softStart_frame) (by decide)
    | split
    | dsimp only

theorem pinEffect_frame (s) : Frame [.so, .lanes, .filt, .relay, .fab, .acc, .mm, .out, .cour, .tally, .ctrl, .time, .dict, .pwr] s (pinEffect s) := by
  unfold pinEffect
  repeat' first
    | with_reducible apply Frame.refl
    | with_reducible apply Frame.ite <;> intro _
    | refine Frame.step ?_ (by with_reducible apply mainReset_frame) (by decide)
    | refine Frame.step ?_ (by with_reducible apply State.setPwr_frame) (by decide)
    | refine Frame.step ?_ (by with_reducible apply leaveReset_frame) (by decide)
    | split
    | dsimp only

theorem rstAssertOp_frame (s) : Frame [.so, .lanes, .filt, .relay, .fab, .acc, .mm, .out, .cour, .tally, .ctrl, .time, .dict, .pwr] s (rstAssertOp s) := by
  unfold rstAssertOp
  repeat' first
    | with_reducible apply Frame.refl
    | with_reducible apply Frame.ite <;> intro _
    | refine Frame.step ?_ (by with_reducible apply State.setPwr_frame) (by decide)
    | refine Frame.step ?_ (by with_reducible apply pinEffect_frame) (by decide)
    | split
    | dsimp only

theorem tapRelease_frame (s) : Frame [.tap] s (tapRelease s) := by
  unfold tapRelease
  repeat' first
    | with_reducible apply Frame.refl
    | with_reducible apply Frame.ite <;> intro _
    | refine Frame.step ?_ (by with_reducible apply Frame.with_tap) (by decide)
    | split
    | dsimp only

theorem rstReleaseOp_frame (s) : Frame [.so, .lanes, .time, .pwr, .tap] s (rstReleaseOp s) := by
  unfold rstReleaseOp
  repeat' first
    | with_reducible apply Frame.refl
    | with_reducible apply Frame.ite <;> intro _
    | refine Frame.step ?_ (by with_reducible apply tapRelease_frame) (by decide)
    | refine Frame.step ?_ (by with_reducible apply State.setPwr_frame) (by decide)
    | refine Frame.step ?_ (by with_reducible apply leaveReset_frame) (by decide)
    | split
    | dsimp only

theorem rampDoneOp_frame (s) : Frame [.so, .lanes, .filt, .relay, .fab, .acc, .mm, .out, .cour, .tally, .ctrl, .time, .dict, .pwr, .fresh, .outbox] s (rampDoneOp s) := by
  unfold rampDoneOp
  repeat' first
    | with_reducible apply Frame.refl
    | with_reducible apply Frame.ite <;> intro _
    | refine Frame.step ?_ (by with_reducible apply pinEffect_frame) (by decide)
    | refine Frame.step ?_ (by with_reducible apply softEffect_frame) (by decide)
    | split
    | dsimp only

theorem blockResetOp_frame (n s) : Frame [.so, .lanes, .filt, .relay, .fab, .acc, .mm, .out, .cour, .tally, .ctrl, .time, .dict, .encl, .fresh, .outbox] s (blockResetOp n s) := by
  unfold blockResetOp
  repeat' first
    | with_reducible apply Frame.refl
    | with_reducible apply Frame.ite <;> intro _
    | refine Frame.step ?_ (by with_reducible apply blockReset_frame) (by decide)
    | split
    | dsimp only

theorem startOp_frame (at_ s) : Frame [.pwr] s (startOp at_ s) := by
  unfold startOp
  repeat' first
    | with_reducible apply Frame.refl
    | with_reducible apply Frame.ite <;> intro _
    | refine Frame.step ?_ (by with_reducible apply State.setPwr_frame) (by decide)
    | split
    | dsimp only

theorem startWait_frame (at_ s) : Frame [.pwr] s (startWait at_ s) := by
  unfold startWait
  repeat' first
    | with_reducible apply Frame.refl
    | with_reducible apply Frame.ite <;> intro _
    | refine Frame.step ?_ (by with_reducible apply startOp_frame) (by decide)
    | split
    | dsimp only

theorem startRampOp_frame (s) : Frame [.pwr] s (startRampOp s) := by
  unfold startRampOp
  repeat' first
    | with_reducible apply Frame.refl
    | with_reducible apply Frame.ite <;> intro _
    | refine Frame.step ?_ (by with_reducible apply State.setPwr_frame) (by decide)
    | split
    | dsimp only

theorem startEffectOp_frame (s) : Frame [.fab, .acc, .pwr] s (startEffectOp s) := by
  unfold startEffectOp
  repeat' first
    | with_reducible apply Frame.refl
    | with_reducible apply Frame.ite <;> intro _
    | refine Frame.step ?_ (by with_reducible apply State.setPwr_frame) (by decide)
    | refine Frame.step ?_ (by with_reducible apply seedAll_frame) (by decide)
    | refine Frame.step ?_ (by with_reducible apply State.setFab_frame) (by decide)
    | refine Frame.step ?_ (by with_reducible apply State.setAcc_frame) (by decide)
    | split
    | dsimp only

end Sys2Proof.Machine
end

