-- ==== Sys2Proof/Laws/FrameGlobals.lean ====
section
/-! SUPPORT. What each operation of Machine/Globals.lean may change. -/

set_option Elab.async false

namespace Sys2Proof.Machine

open Sys2Proof

theorem spareInCmd_frame (l a s) : Frame [.so, .lanes, .out, .fresh, .outbox] s (spareInCmd l a s) := by
  unfold spareInCmd
  repeat' first
    | with_reducible apply Frame.refl
    | with_reducible apply Frame.ite <;> intro _
    | refine Frame.step ?_ (by with_reducible apply ingestSpareIn_frame) (by decide)
    | refine Frame.step ?_ (by with_reducible apply raise_frame) (by decide)
    | refine Frame.step ?_ (by with_reducible apply outSpareIn_frame) (by decide)
    | split
    | dsimp only

theorem spareOutCmd_frame (l s) : Frame [.so, .lanes, .relay, .out, .outbox] s (spareOutCmd l s) := by
  unfold spareOutCmd
  repeat' first
    | with_reducible apply Frame.refl
    | with_reducible apply Frame.ite <;> intro _
    | refine Frame.step ?_ (by with_reducible apply ingestSpareOut_frame) (by decide)
    | refine Frame.step ?_ (by with_reducible apply relaySpareOut_frame) (by decide)
    | refine Frame.step ?_ (by with_reducible apply outSpareOut_frame) (by decide)
    | split
    | dsimp only

theorem laneFailOp_frame (l s) : Frame [.so, .lanes, .relay, .out, .fresh, .outbox] s (laneFailOp l s) := by
  unfold laneFailOp
  repeat' first
    | with_reducible apply Frame.refl
    | with_reducible apply Frame.ite <;> intro _
    | refine Frame.step ?_ (by with_reducible apply ingestFailed_frame) (by decide)
    | refine Frame.step ?_ (by with_reducible apply relayFailed_frame) (by decide)
    | refine Frame.step ?_ (by with_reducible apply outFailed_frame) (by decide)
    | split
    | dsimp only

theorem laneCommand_frame (l w s) : Frame [.so, .lanes, .relay, .out, .fresh, .outbox] s (laneCommand l w s) := by
  unfold laneCommand
  repeat' first
    | with_reducible apply Frame.refl
    | with_reducible apply Frame.ite <;> intro _
    | refine Frame.step ?_ (by with_reducible apply slipCmd_frame) (by decide)
    | refine Frame.step ?_ (by with_reducible apply txSleepCmd_frame) (by decide)
    | refine Frame.step ?_ (by with_reducible apply txWakeCmd_frame) (by decide)
    | refine Frame.step ?_ (by with_reducible apply rxSleepCmd_frame) (by decide)
    | refine Frame.step ?_ (by with_reducible apply rxWakeCmd_frame) (by decide)
    | refine Frame.step ?_ (by with_reducible apply testEnterCmd_frame) (by decide)
    | refine Frame.step ?_ (by with_reducible apply testExitCmd_frame) (by decide)
    | refine Frame.step ?_ (by with_reducible apply startCmd_frame) (by decide)
    | refine Frame.step ?_ (by with_reducible apply stopCmd_frame) (by decide)
    | refine Frame.step ?_ (by with_reducible apply injectCmd_frame) (by decide)
    | refine Frame.step ?_ (by with_reducible apply loopbackCmd_frame) (by decide)
    | refine Frame.step ?_ (by with_reducible apply clearCmd_frame) (by decide)
    | refine Frame.step ?_ (by with_reducible apply spareInCmd_frame) (by decide)
    | refine Frame.step ?_ (by with_reducible apply spareOutCmd_frame) (by decide)
    | refine Frame.step ?_ (by with_reducible apply laneRefuse_frame) (by decide)
    | split
    | dsimp only

theorem snapshotOp_frame (at_ isGlobal s) : Frame [.so, .dict] s (snapshotOp at_ isGlobal s) := by
  unfold snapshotOp
  repeat' first
    | with_reducible apply Frame.refl
    | with_reducible apply Frame.ite <;> intro _
    | refine Frame.step ?_ (by with_reducible apply State.setDict_frame) (by decide)
    | refine Frame.step ?_ (by with_reducible apply raise_frame) (by decide)
    | split
    | dsimp only

theorem snapshotWait_frame (at_ s) : Frame [.so, .dict] s (snapshotWait at_ s) := by
  unfold snapshotWait
  repeat' first
    | with_reducible apply Frame.refl
    | with_reducible apply Frame.ite <;> intro _
    | refine Frame.step ?_ (by with_reducible apply snapshotOp_frame) (by decide)
    | split
    | dsimp only

theorem globalApply_frame (at_ w s) : Frame [.so, .filt, .relay, .dict, .pwr] s (globalApply at_ w s) := by
  unfold globalApply
  repeat' first
    | with_reducible apply Frame.refl
    | with_reducible apply Frame.ite <;> intro _
    | refine Frame.step ?_ (by with_reducible apply State.setRelay_frame) (by decide)
    | refine Frame.step ?_ (by with_reducible apply snapshotOp_frame) (by decide)
    | refine Frame.step ?_ (by with_reducible apply syncResetOp_frame) (by decide)
    | refine Frame.step ?_ (by with_reducible apply swapRequestOp_frame) (by decide)
    | refine Frame.step ?_ (by with_reducible apply startOp_frame) (by decide)
    | refine Frame.step ?_ (by with_reducible apply raise_frame) (by decide)
    | split
    | dsimp only

theorem globalOp_frame (r s) : Frame [.so, .lanes, .filt, .relay, .dict, .pwr, .outbox] s (globalOp r s) := by
  unfold globalOp
  repeat' first
    | with_reducible apply Frame.refl
    | with_reducible apply Frame.ite <;> intro _
    | refine Frame.step ?_ (by with_reducible apply globalApply_frame) (by decide)
    | refine Frame.step ?_ (by with_reducible apply globalSend_frame) (by decide)
    | refine Frame.step ?_ (by with_reducible apply raise_frame) (by decide)
    | split
    | dsimp only

theorem globalWrite_frame (op r s) : Frame [.so, .lanes, .filt, .relay, .dict, .pwr, .outbox] s (globalWrite op r s) := by
  unfold globalWrite
  repeat' first
    | with_reducible apply Frame.refl
    | with_reducible apply Frame.ite <;> intro _
    | refine Frame.step ?_ (by with_reducible apply globalOp_frame) (by decide)
    | split
    | dsimp only

theorem bcastOp_frame (p origin at_ w s) : Frame [.so, .lanes, .filt, .relay, .dict, .pwr, .outbox] s (bcastOp p origin at_ w s) := by
  unfold bcastOp
  repeat' first
    | with_reducible apply Frame.refl
    | with_reducible apply Frame.ite <;> intro _
    | refine Frame.step ?_ (by with_reducible apply globalApply_frame) (by decide)
    | refine Frame.step ?_ (by with_reducible apply ctlSend_frame) (by decide)
    | with_reducible refine Frame.foldl ?_ (fun _ _ => ?_)
    | with_reducible refine Frame.foldl2 ?_ (fun _ _ => ?_)
    | split
    | dsimp only

end Sys2Proof.Machine
end

