-- ==== Sys2Proof/Laws/FrameReadout.lean ====
section
/-! SUPPORT. What each operation of Machine/Readout.lean may change. -/

set_option Elab.async false

namespace Sys2Proof.Machine

open Sys2Proof

theorem readField_frame (idx sub size s) : Frame [.fresh] s (readField idx sub size s).2 := by
  unfold readField
  repeat' first
    | with_reducible apply Frame.refl
    | with_reducible apply Frame.ite <;> intro _
    | with_reducible apply Frame.ite2 <;> intro _
    | refine Frame.step ?_ (by with_reducible apply tallyRead__frame) (by decide)
    | refine Frame.pair2 (by assumption) ?_ (by with_reducible apply tallyRead__frame) (by decide)
    | split
    | dsimp only

theorem readObj_frame (idx sub size s) : Frame [.fresh] s (readObj idx sub size s).2 := by
  unfold readObj
  repeat' first
    | with_reducible apply Frame.refl
    | with_reducible apply Frame.ite <;> intro _
    | with_reducible apply Frame.ite2 <;> intro _
    | refine Frame.step ?_ (by with_reducible apply readField_frame) (by decide)
    | refine Frame.pair2 (by assumption) ?_ (by with_reducible apply readField_frame) (by decide)
    | refine Frame.step ?_ (by with_reducible apply State.draw_frame) (by decide)
    | refine Frame.pair2 (by assumption) ?_ (by with_reducible apply State.draw_frame) (by decide)
    | split
    | dsimp only

theorem readElems_frame (idx first n s) : Frame [.fresh] s (readElems idx first n s).2 := by
  unfold readElems
  repeat' first
    | with_reducible apply Frame.refl
    | with_reducible apply Frame.ite <;> intro _
    | with_reducible apply Frame.ite2 <;> intro _
    | refine Frame.step ?_ (by with_reducible apply State.draw_frame) (by decide)
    | refine Frame.pair2 (by assumption) ?_ (by with_reducible apply State.draw_frame) (by decide)
    | split
    | dsimp only

theorem roValue_frame (idx sub s) : Frame [.fresh] s (roValue idx sub s).2 := by
  unfold roValue
  repeat' first
    | with_reducible apply Frame.refl
    | with_reducible apply Frame.ite <;> intro _
    | with_reducible apply Frame.ite2 <;> intro _
    | refine Frame.step ?_ (by with_reducible apply readElems_frame) (by decide)
    | refine Frame.pair2 (by assumption) ?_ (by with_reducible apply readElems_frame) (by decide)
    | refine Frame.step ?_ (by with_reducible apply readObj_frame) (by decide)
    | refine Frame.pair2 (by assumption) ?_ (by with_reducible apply readObj_frame) (by decide)
    | split
    | dsimp only

theorem snapCopy_frame (k s) : Frame [.dict, .fresh] s (snapCopy k s) := by
  unfold snapCopy
  repeat' first
    | with_reducible apply Frame.refl
    | with_reducible apply Frame.ite <;> intro _
    | refine Frame.step ?_ (by with_reducible apply roValue_frame) (by decide)
    | refine Frame.pair2 (by assumption) ?_ (by with_reducible apply roValue_frame) (by decide)
    | refine Frame.step ?_ (by with_reducible apply State.setDict_frame) (by decide)
    | split
    | dsimp only

theorem copyBlock_frame (n s) : Frame [.dict, .fresh] s (copyBlock n s) := by
  unfold copyBlock
  repeat' first
    | with_reducible apply Frame.refl
    | with_reducible apply Frame.ite <;> intro _
    | refine Frame.step ?_ (by with_reducible apply snapCopy_frame) (by decide)
    | refine Frame.step ?_ (by with_reducible apply State.setDict_frame) (by decide)
    | with_reducible refine Frame.foldl ?_ (fun _ _ => ?_)
    | with_reducible refine Frame.foldl2 ?_ (fun _ _ => ?_)
    | split
    | dsimp only

theorem latchBy_frame (x s) : Frame [.so, .lanes, .filt, .relay, .fab, .acc, .mm, .out, .ctrl, .time, .dict, .fresh, .outbox] s (latchBy x s) := by
  unfold latchBy
  repeat' first
    | with_reducible apply Frame.refl
    | with_reducible apply Frame.ite <;> intro _
    | refine Frame.step ?_ (by with_reducible apply latchOp_frame) (by decide)
    | split
    | dsimp only

theorem beforeCopy_frame (n s) : Frame [.so, .lanes, .filt, .relay, .fab, .acc, .mm, .out, .ctrl, .time, .dict, .fresh, .outbox] s (beforeCopy n s) := by
  unfold beforeCopy
  repeat' first
    | with_reducible apply Frame.refl
    | with_reducible apply Frame.ite <;> intro _
    | refine Frame.step ?_ (by with_reducible apply latchBy_frame) (by decide)
    | refine Frame.step ?_ (by with_reducible apply applySets_frame) (by decide)
    | split
    | dsimp only

theorem captureOp_frame (n s0) : Frame [.so, .lanes, .filt, .relay, .fab, .acc, .mm, .out, .ctrl, .time, .dict, .fresh, .outbox] s0 (captureOp n s0) := by
  unfold captureOp
  repeat' first
    | with_reducible apply Frame.refl
    | with_reducible apply Frame.ite <;> intro _
    | refine Frame.step ?_ (by with_reducible apply copyBlock_frame) (by decide)
    | refine Frame.step ?_ (by with_reducible apply beforeCopy_frame) (by decide)
    | split
    | dsimp only

theorem snapDone_frame (s) : Frame [.dict] s (snapDone s) := by
  unfold snapDone
  repeat' first
    | with_reducible apply Frame.refl
    | with_reducible apply Frame.ite <;> intro _
    | refine Frame.step ?_ (by with_reducible apply State.setDict_frame) (by decide)
    | split
    | dsimp only

end Sys2Proof.Machine
end

