-- ==== Sys2Proof/Laws/FrameService.lean ====
section
/-! SUPPORT. What each operation of Machine/Service.lean may change. -/

set_option Elab.async false

namespace Sys2Proof.Machine

open Sys2Proof

theorem freeBytes_frame (y0 s) : Frame [.fresh] s (freeBytes y0 s).2 := by
  induction y0 generalizing s with
  | zero => exact Frame.refl _ _
  | succ n ih =>
    unfold freeBytes
    repeat' first
    | with_reducible apply Frame.refl
    | refine Frame.step ?_ (by with_reducible apply ih) (by decide)
    | refine Frame.pair2 (by assumption) ?_ (by with_reducible apply ih) (by decide)
    | with_reducible apply Frame.ite <;> intro _
    | with_reducible apply Frame.ite2 <;> intro _
    | refine Frame.step ?_ (by with_reducible apply State.draw_frame) (by decide)
    | refine Frame.pair2 (by assumption) ?_ (by with_reducible apply State.draw_frame) (by decide)
    | split
    | dsimp only

theorem readSetting_frame (o active e s) : Frame [.so, .dict, .fresh] s (readSetting o active e s).2 := by
  unfold readSetting
  repeat' first
    | with_reducible apply Frame.refl
    | with_reducible apply Frame.ite <;> intro _
    | with_reducible apply Frame.ite2 <;> intro _
    | refine Frame.step ?_ (by with_reducible apply storeCheck_frame) (by decide)
    | refine Frame.step ?_ (by with_reducible apply freeBytes_frame) (by decide)
    | refine Frame.pair2 (by assumption) ?_ (by with_reducible apply freeBytes_frame) (by decide)
    | split
    | dsimp only

theorem readValue_frame (idx sub o active e s) : Frame [.so, .dict, .encl, .fresh] s (readValue idx sub o active e s).2 := by
  unfold readValue
  repeat' first
    | with_reducible apply Frame.refl
    | with_reducible apply Frame.ite <;> intro _
    | with_reducible apply Frame.ite2 <;> intro _
    | refine Frame.step ?_ (by with_reducible apply readSetting_frame) (by decide)
    | refine Frame.pair2 (by assumption) ?_ (by with_reducible apply readSetting_frame) (by decide)
    | refine Frame.step ?_ (by with_reducible apply csRead_frame) (by decide)
    | refine Frame.pair2 (by assumption) ?_ (by with_reducible apply csRead_frame) (by decide)
    | refine Frame.step ?_ (by with_reducible apply roValue_frame) (by decide)
    | refine Frame.pair2 (by assumption) ?_ (by with_reducible apply roValue_frame) (by decide)
    | split
    | dsimp only

theorem elemAnswer_frame {ps : List Part} (o lim first get s) (h : ∀ f n, Frame ps s (get f n).2) :
    Frame ps s (elemAnswer o lim first get s).2 := by
  unfold elemAnswer
  exact Frame.ite2 (fun _ => Frame.refl _ _) (fun _ => h _ _)

theorem arrayRead_frame (idx first n e s) : Frame [.so, .fresh] s (arrayRead idx first n e s).2 := by
  unfold arrayRead
  repeat' first
    | with_reducible apply Frame.refl
    | with_reducible apply Frame.ite <;> intro _
    | with_reducible apply Frame.ite2 <;> intro _
    | refine Frame.step ?_ (by with_reducible apply readElems_frame) (by decide)
    | refine Frame.pair2 (by assumption) ?_ (by with_reducible apply readElems_frame) (by decide)
    | refine Frame.step ?_ (by with_reducible apply nvRead_frame) (by decide)
    | refine Frame.pair2 (by assumption) ?_ (by with_reducible apply nvRead_frame) (by decide)
    | split
    | dsimp only

theorem readAnswer_frame (lim h e s) : Frame [.so, .dict, .encl, .fresh] s (readAnswer lim h e s).2 := by
  unfold readAnswer
  repeat' first
    | with_reducible apply Frame.refl
    | with_reducible apply Frame.ite <;> intro _
    | with_reducible apply Frame.ite2 <;> intro _
    | refine elemAnswer_frame _ _ _ _ _ fun _ _ => ?_
    | refine Frame.step ?_ (by with_reducible apply arrayRead_frame) (by decide)
    | refine Frame.pair2 (by assumption) ?_ (by with_reducible apply arrayRead_frame) (by decide)
    | refine Frame.step ?_ (by with_reducible apply readValue_frame) (by decide)
    | refine Frame.pair2 (by assumption) ?_ (by with_reducible apply readValue_frame) (by decide)
    | split
    | dsimp only

theorem closeWrite_frame (idx sub abandoned s) : Frame [.so, .filt, .tally, .dict] s (closeWrite idx sub abandoned s) := by
  unfold closeWrite
  repeat' first
    | with_reducible apply Frame.refl
    | with_reducible apply Frame.ite <;> intro _
    | refine Frame.step ?_ (by with_reducible apply State.setDict_frame) (by decide)
    | refine Frame.step ?_ (by with_reducible apply abandonWrite_frame) (by decide)
    | split
    | dsimp only

theorem takeSegment_frame (c idx sub max off isLive b more s) : Frame [.so, .filt, .tally, .dict] s (takeSegment c idx sub max off isLive b more s).2 := by
  unfold takeSegment
  repeat' first
    | with_reducible apply Frame.refl
    | with_reducible apply Frame.ite <;> intro _
    | with_reducible apply Frame.ite2 <;> intro _
    | refine Frame.step ?_ (by with_reducible apply closeWrite_frame) (by decide)
    | refine Frame.step ?_ (by with_reducible apply State.setDict_frame) (by decide)
    | split
    | dsimp only

theorem segmentTimeout_frame (idx sub s) : Frame [.so, .filt, .tally, .dict] s (segmentTimeout idx sub s) := by
  unfold segmentTimeout
  repeat' first
    | with_reducible apply Frame.refl
    | with_reducible apply Frame.ite <;> intro _
    | refine Frame.step ?_ (by with_reducible apply raise_frame) (by decide)
    | refine Frame.step ?_ (by with_reducible apply closeWrite_frame) (by decide)
    | split
    | dsimp only

theorem writeSetting_frame (k o b s) : Frame [.dict] s (writeSetting k o b s).2 := by
  unfold writeSetting
  repeat' first
    | with_reducible apply Frame.refl
    | with_reducible apply Frame.ite <;> intro _
    | with_reducible apply Frame.ite2 <;> intro _
    | refine Frame.step ?_ (by with_reducible apply State.setDict_frame) (by decide)
    | split
    | dsimp only

theorem writeCs_frame (c idx sub o off b more s) : Frame [.so, .filt, .tally, .dict, .encl] s (writeCs c idx sub o off b more s).2 := by
  unfold writeCs
  repeat' first
    | with_reducible apply Frame.refl
    | with_reducible apply Frame.ite <;> intro _
    | with_reducible apply Frame.ite2 <;> intro _
    | refine Frame.step ?_ (by with_reducible apply csRefused_frame) (by decide)
    | refine Frame.step ?_ (by with_reducible apply csStore_frame) (by decide)
    | refine Frame.step ?_ (by with_reducible apply takeSegment_frame) (by decide)
    | refine Frame.pair2 (by assumption) ?_ (by with_reducible apply takeSegment_frame) (by decide)
    | split
    | dsimp only

theorem deliverLive_frame (idx sub b s) : Frame [.so, .filt, .fab, .dict] s (deliverLive idx sub b s).2 := by
  unfold deliverLive
  repeat' first
    | with_reducible apply Frame.refl
    | with_reducible apply Frame.ite <;> intro _
    | with_reducible apply Frame.ite2 <;> intro _
    | refine Frame.step ?_ (by with_reducible apply keepLive_frame) (by decide)
    | refine Frame.step ?_ (by with_reducible apply weightCancelOp_frame) (by decide)
    | refine Frame.step ?_ (by with_reducible apply weightSwapOp_frame) (by decide)
    | refine Frame.step ?_ (by with_reducible apply delayRecordOp_frame) (by decide)
    | refine Frame.step ?_ (by with_reducible apply gainTableOp_frame) (by decide)
    | split
    | dsimp only

theorem writeLive_frame (c idx sub o off b more s) : Frame [.so, .filt, .fab, .tally, .dict] s (writeLive c idx sub o off b more s).2 := by
  unfold writeLive
  repeat' first
    | with_reducible apply Frame.refl
    | with_reducible apply Frame.ite <;> intro _
    | with_reducible apply Frame.ite2 <;> intro _
    | refine Frame.step ?_ (by with_reducible apply takeSegment_frame) (by decide)
    | refine Frame.pair2 (by assumption) ?_ (by with_reducible apply takeSegment_frame) (by decide)
    | refine Frame.step ?_ (by with_reducible apply deliverLive_frame) (by decide)
    | refine Frame.pair2 (by assumption) ?_ (by with_reducible apply deliverLive_frame) (by decide)
    | split
    | dsimp only

theorem tallyCommand_frame (c w s) : Frame [.so, .fab, .mm, .tally, .ctrl, .encl, .fresh, .outbox] s (tallyCommand c w s) := by
  unfold tallyCommand
  repeat' first
    | with_reducible apply Frame.refl
    | with_reducible apply Frame.ite <;> intro _
    | refine Frame.step ?_ (by with_reducible apply tallyResumeOp_frame) (by decide)
    | refine Frame.step ?_ (by with_reducible apply tallyRunOp_frame) (by decide)
    | refine Frame.step ?_ (by with_reducible apply tallyHaltOp_frame) (by decide)
    | refine Frame.step ?_ (by with_reducible apply tallyStepOp_frame) (by decide)
    | refine Frame.step ?_ (by with_reducible apply tallyResetOp_frame) (by decide)
    | refine Frame.step ?_ (by with_reducible apply tallyClearOp_frame) (by decide)
    | refine Frame.step ?_ (by with_reducible apply tallyRefuse_frame) (by decide)
    | split
    | dsimp only

theorem commandScalar_frame (idx sub v s) : Frame [.so, .lanes, .filt, .relay, .fab, .acc, .mm, .out, .cour, .tally, .ctrl, .time, .dict, .encl, .pwr, .fresh, .outbox] s (commandScalar idx sub v s).2 := by
  unfold commandScalar
  repeat' first
    | with_reducible apply Frame.refl
    | with_reducible apply Frame.ite <;> intro _
    | with_reducible apply Frame.ite2 <;> intro _
    | refine Frame.step ?_ (by with_reducible apply softStart_frame) (by decide)
    | refine Frame.step ?_ (by with_reducible apply blockReset_frame) (by decide)
    | refine Frame.step ?_ (by with_reducible apply snapshotOp_frame) (by decide)
    | refine Frame.step ?_ (by with_reducible apply startOp_frame) (by decide)
    | refine Frame.step ?_ (by with_reducible apply pcAckOp_frame) (by decide)
    | refine Frame.step ?_ (by with_reducible apply faultReleaseOp_frame) (by decide)
    | refine Frame.step ?_ (by with_reducible apply laneCommand_frame) (by decide)
    | refine Frame.step ?_ (by with_reducible apply conditioningClearOp_frame) (by decide)
    | refine Frame.step ?_ (by with_reducible apply syncResetOp_frame) (by decide)
    | refine Frame.step ?_ (by with_reducible apply bankLoadRomOp_frame) (by decide)
    | refine Frame.step ?_ (by with_reducible apply letterboxOp_frame) (by decide)
    | refine Frame.step ?_ (by with_reducible apply tallyCommand_frame) (by decide)
    | refine Frame.step ?_ (by with_reducible apply doorbellOp_frame) (by decide)
    | split
    | dsimp only

theorem commandBlob_frame (idx w s) : Frame [.so, .lanes, .filt, .relay, .out, .cour, .time, .dict, .pwr, .fresh, .outbox] s (commandBlob idx w s).2 := by
  unfold commandBlob
  repeat' first
    | with_reducible apply Frame.refl
    | with_reducible apply Frame.ite <;> intro _
    | with_reducible apply Frame.ite2 <;> intro _
    | refine Frame.step ?_ (by with_reducible apply pmAlignOp_frame) (by decide)
    | refine Frame.step ?_ (by with_reducible apply injectOp_frame) (by decide)
    | refine Frame.step ?_ (by with_reducible apply swapRequestOp_frame) (by decide)
    | refine Frame.step ?_ (by with_reducible apply commitRequestOp_frame) (by decide)
    | refine Frame.step ?_ (by with_reducible apply globalOp_frame) (by decide)
    | refine Frame.step ?_ (by with_reducible apply decodeStart_frame) (by decide)
    | refine Frame.step ?_ (by with_reducible apply ringCommandOp_frame) (by decide)
    | split
    | dsimp only

theorem writeCommandBlob_frame (c idx sub o off b more s) : Frame [.so, .lanes, .filt, .relay, .mm, .out, .cour, .tally, .time, .dict, .pwr, .fresh, .outbox] s (writeCommandBlob c idx sub o off b more s).2 := by
  unfold writeCommandBlob
  repeat' first
    | with_reducible apply Frame.refl
    | with_reducible apply Frame.ite <;> intro _
    | with_reducible apply Frame.ite2 <;> intro _
    | refine Frame.step ?_ (by with_reducible apply takeSegment_frame) (by decide)
    | refine Frame.pair2 (by assumption) ?_ (by with_reducible apply takeSegment_frame) (by decide)
    | refine Frame.step ?_ (by with_reducible apply tallySegmentOp_frame) (by decide)
    | refine Frame.step ?_ (by with_reducible apply bankImageOp_frame) (by decide)
    | refine Frame.step ?_ (by with_reducible apply commandBlob_frame) (by decide)
    | refine Frame.pair2 (by assumption) ?_ (by with_reducible apply commandBlob_frame) (by decide)
    | split
    | dsimp only

theorem writeObj_frame (c idx sub off b more s) : Frame [.so, .lanes, .filt, .relay, .fab, .acc, .mm, .out, .cour, .tally, .ctrl, .time, .dict, .encl, .pwr, .fresh, .outbox] s (writeObj c idx sub off b more s).2 := by
  unfold writeObj
  repeat' first
    | with_reducible apply Frame.refl
    | with_reducible apply Frame.ite <;> intro _
    | with_reducible apply Frame.ite2 <;> intro _
    | refine Frame.step ?_ (by with_reducible apply writeSetting_frame) (by decide)
    | refine Frame.pair2 (by assumption) ?_ (by with_reducible apply writeSetting_frame) (by decide)
    | refine Frame.step ?_ (by with_reducible apply writeLive_frame) (by decide)
    | refine Frame.pair2 (by assumption) ?_ (by with_reducible apply writeLive_frame) (by decide)
    | refine Frame.step ?_ (by with_reducible apply writeCommandBlob_frame) (by decide)
    | refine Frame.pair2 (by assumption) ?_ (by with_reducible apply writeCommandBlob_frame) (by decide)
    | refine Frame.step ?_ (by with_reducible apply commandScalar_frame) (by decide)
    | refine Frame.pair2 (by assumption) ?_ (by with_reducible apply commandScalar_frame) (by decide)
    | refine Frame.step ?_ (by with_reducible apply writeCs_frame) (by decide)
    | refine Frame.pair2 (by assumption) ?_ (by with_reducible apply writeCs_frame) (by decide)
    | split
    | dsimp only

theorem writeSeq_frame (idx sub status s) : Frame [.fresh] s (writeSeq idx sub status s).2 := by
  unfold writeSeq
  repeat' first
    | with_reducible apply Frame.refl
    | with_reducible apply Frame.ite <;> intro _
    | with_reducible apply Frame.ite2 <;> intro _
    | refine Frame.step ?_ (by with_reducible apply State.draw_frame) (by decide)
    | refine Frame.pair2 (by assumption) ?_ (by with_reducible apply State.draw_frame) (by decide)
    | split
    | dsimp only

theorem fanoutRefusal_frame (r s) : Frame [.dict] s (fanoutRefusal r s) := by
  unfold fanoutRefusal
  repeat' first
    | with_reducible apply Frame.refl
    | with_reducible apply Frame.ite <;> intro _
    | refine Frame.step ?_ (by with_reducible apply State.setDict_frame) (by decide)
    | split
    | dsimp only

theorem fanoutWrite_frame (c h msg b s) : Frame [.so, .lanes, .filt, .relay, .fab, .acc, .mm, .out, .cour, .tally, .ctrl, .time, .dict, .encl, .pwr, .fresh, .outbox] s (fanoutWrite c h msg b s).2 := by
  unfold fanoutWrite
  repeat' first
    | with_reducible apply Frame.refl
    | with_reducible apply Frame.ite <;> intro _
    | with_reducible apply Frame.ite2 <;> intro _
    | refine Frame.step ?_ (by with_reducible apply writeObj_frame) (by decide)
    | refine Frame.pair2 (by assumption) ?_ (by with_reducible apply writeObj_frame) (by decide)
    | refine Frame.step ?_ (by with_reducible apply fanoutRefusal_frame) (by decide)
    | refine Frame.step ?_ (by with_reducible apply confSend_frame) (by decide)
    | split
    | dsimp only

theorem fanoutReceived_frame (msg s) : Frame [.so, .lanes, .filt, .relay, .fab, .acc, .mm, .out, .cour, .tally, .ctrl, .time, .dict, .encl, .pwr, .fresh, .outbox] s (fanoutReceived msg s) := by
  unfold fanoutReceived
  repeat' first
    | with_reducible apply Frame.refl
    | with_reducible apply Frame.ite <;> intro _
    | refine Frame.step ?_ (by with_reducible apply writeObj_frame) (by decide)
    | refine Frame.pair2 (by assumption) ?_ (by with_reducible apply writeObj_frame) (by decide)
    | refine Frame.step ?_ (by with_reducible apply fanoutRefusal_frame) (by decide)
    | split
    | dsimp only

theorem touchClient_frame (c l s) : Frame [.dict] s (touchClient c l s) := by
  unfold touchClient
  repeat' first
    | with_reducible apply Frame.refl
    | with_reducible apply Frame.ite <;> intro _
    | refine Frame.step ?_ (by with_reducible apply State.setDict_frame) (by decide)
    | split
    | dsimp only

theorem keepWrite_frame (c k s) : Frame [.dict] s (keepWrite c k s) := by
  unfold keepWrite
  repeat' first
    | with_reducible apply Frame.refl
    | with_reducible apply Frame.ite <;> intro _
    | refine Frame.step ?_ (by with_reducible apply touchClient_frame) (by decide)
    | split
    | dsimp only

theorem writeAnswer_frame (c h msg b s) : Frame [.so, .lanes, .filt, .relay, .fab, .acc, .mm, .out, .cour, .tally, .ctrl, .time, .dict, .encl, .pwr, .fresh, .outbox] s (writeAnswer c h msg b s).2 := by
  unfold writeAnswer
  repeat' first
    | with_reducible apply Frame.refl
    | with_reducible apply Frame.ite <;> intro _
    | with_reducible apply Frame.ite2 <;> intro _
    | refine Frame.step ?_ (by with_reducible apply State.setDict_frame) (by decide)
    | refine Frame.step ?_ (by with_reducible apply fanoutWrite_frame) (by decide)
    | refine Frame.pair2 (by assumption) ?_ (by with_reducible apply fanoutWrite_frame) (by decide)
    | refine Frame.step ?_ (by with_reducible apply writeObj_frame) (by decide)
    | refine Frame.pair2 (by assumption) ?_ (by with_reducible apply writeObj_frame) (by decide)
    | refine Frame.step ?_ (by with_reducible apply writeSeq_frame) (by decide)
    | refine Frame.pair2 (by assumption) ?_ (by with_reducible apply writeSeq_frame) (by decide)
    | refine Frame.step ?_ (by with_reducible apply keepWrite_frame) (by decide)
    | split
    | dsimp only

theorem answerOf_frame (c h msg e s) : Frame [.so, .lanes, .filt, .relay, .fab, .acc, .mm, .out, .cour, .tally, .ctrl, .time, .dict, .encl, .pwr, .fresh, .outbox] s (answerOf c h msg e s).2 := by
  unfold answerOf
  repeat' first
    | with_reducible apply Frame.refl
    | with_reducible apply Frame.ite <;> intro _
    | with_reducible apply Frame.ite2 <;> intro _
    | refine Frame.step ?_ (by with_reducible apply writeAnswer_frame) (by decide)
    | refine Frame.pair2 (by assumption) ?_ (by with_reducible apply writeAnswer_frame) (by decide)
    | refine Frame.step ?_ (by with_reducible apply readAnswer_frame) (by decide)
    | refine Frame.pair2 (by assumption) ?_ (by with_reducible apply readAnswer_frame) (by decide)
    | split
    | dsimp only

theorem respond_frame (c a msg s) : Frame [.outbox] s (respond c a msg s) := by
  unfold respond
  repeat' first
    | with_reducible apply Frame.refl
    | with_reducible apply Frame.ite <;> intro _
    | refine Frame.step ?_ (by with_reducible apply State.send_frame) (by decide)
    | split
    | dsimp only

theorem dropMessage_frame (h s) : Frame [.so, .dict] s (dropMessage h s) := by
  unfold dropMessage
  repeat' first
    | with_reducible apply Frame.refl
    | with_reducible apply Frame.ite <;> intro _
    | refine Frame.step ?_ (by with_reducible apply raiseLim_frame) (by decide)
    | refine Frame.step ?_ (by with_reducible apply State.setDict_frame) (by decide)
    | split
    | dsimp only

theorem sendAnswer_frame (c p h a s) : Frame [.dict, .outbox] s (sendAnswer c p h a s) := by
  unfold sendAnswer
  repeat' first
    | with_reducible apply Frame.refl
    | with_reducible apply Frame.ite <;> intro _
    | refine Frame.step ?_ (by with_reducible apply respond_frame) (by decide)
    | refine Frame.step ?_ (by with_reducible apply State.setDict_frame) (by decide)
    | split
    | dsimp only

theorem handleNow_frame (c p msg e s) : Frame [.so, .lanes, .filt, .relay, .fab, .acc, .mm, .out, .cour, .tally, .ctrl, .time, .dict, .encl, .pwr, .fresh, .outbox] s (handleNow c p msg e s) := by
  unfold handleNow
  repeat' first
    | with_reducible apply Frame.refl
    | with_reducible apply Frame.ite <;> intro _
    | refine Frame.step ?_ (by with_reducible apply sendAnswer_frame) (by decide)
    | refine Frame.step ?_ (by with_reducible apply dropMessage_frame) (by decide)
    | refine Frame.step ?_ (by with_reducible apply touchClient_frame) (by decide)
    | refine Frame.step ?_ (by with_reducible apply State.setDict_frame) (by decide)
    | refine Frame.step ?_ (by with_reducible apply answerOf_frame) (by decide)
    | refine Frame.pair2 (by assumption) ?_ (by with_reducible apply answerOf_frame) (by decide)
    | refine Frame.step ?_ (by with_reducible apply softGo_frame) (by decide)
    | split
    | dsimp only

theorem handleMsg_frame (c msg e s) : Frame [.so, .lanes, .filt, .relay, .fab, .acc, .mm, .out, .cour, .tally, .ctrl, .time, .dict, .encl, .pwr, .fresh, .outbox] s (handleMsg c msg e s) := by
  unfold handleMsg
  repeat' first
    | with_reducible apply Frame.refl
    | with_reducible apply Frame.ite <;> intro _
    | refine (atService_frame (ps := [.so, .lanes, .filt, .relay, .fab, .acc, .mm, .out, .cour, .tally, .ctrl, .time, .dict, .encl, .pwr, .fresh, .outbox]) _ _ _ ?_).weaken (by decide)
    | refine Frame.step ?_ (by with_reducible apply handleNow_frame) (by decide)
    | split
    | dsimp only

theorem dropFrame_frame (s) : Frame [.dict] s (dropFrame s) := by
  unfold dropFrame
  repeat' first
    | with_reducible apply Frame.refl
    | with_reducible apply Frame.ite <;> intro _
    | refine Frame.step ?_ (by with_reducible apply State.setDict_frame) (by decide)
    | split
    | dsimp only

theorem request_frame (r op flags e s) : Frame [.so, .lanes, .filt, .relay, .fab, .acc, .mm, .out, .cour, .tally, .ctrl, .time, .dict, .encl, .pwr, .fresh, .outbox] s (request r op flags e s) := by
  unfold request
  repeat' first
    | with_reducible apply Frame.refl
    | with_reducible apply Frame.ite <;> intro _
    | refine Frame.step ?_ (by with_reducible apply handleMsg_frame) (by decide)
    | refine Frame.step ?_ (by with_reducible apply dropFrame_frame) (by decide)
    | split
    | dsimp only

theorem busFrameOp_frame (bytes s) : Frame [.so, .lanes, .filt, .relay, .fab, .acc, .mm, .out, .cour, .tally, .ctrl, .time, .dict, .encl, .pwr, .fresh, .outbox] s (busFrameOp bytes s) := by
  unfold busFrameOp
  repeat' first
    | with_reducible apply Frame.refl
    | with_reducible apply Frame.ite <;> intro _
    | refine Frame.step ?_ (by with_reducible apply handleMsg_frame) (by decide)
    | split
    | dsimp only

theorem arpOp_frame (p ip mac from_ s) : Frame [.dict, .outbox] s (arpOp p ip mac from_ s) := by
  unfold arpOp
  repeat' first
    | with_reducible apply Frame.refl
    | with_reducible apply Frame.ite <;> intro _
    | refine Frame.step ?_ (by with_reducible apply State.send_frame) (by decide)
    | refine Frame.step ?_ (by with_reducible apply dropFrame_frame) (by decide)
    | split
    | dsimp only

theorem echoOp_frame (p src dst data s) : Frame [.dict, .outbox] s (echoOp p src dst data s) := by
  unfold echoOp
  repeat' first
    | with_reducible apply Frame.refl
    | with_reducible apply Frame.ite <;> intro _
    | refine Frame.step ?_ (by with_reducible apply State.send_frame) (by decide)
    | refine Frame.step ?_ (by with_reducible apply dropFrame_frame) (by decide)
    | split
    | dsimp only

theorem csWriteOp_frame (idx sub off b more s) : Frame [.so, .filt, .tally, .dict, .encl] s (csWriteOp idx sub off b more s) := by
  unfold csWriteOp
  repeat' first
    | with_reducible apply Frame.refl
    | with_reducible apply Frame.ite <;> intro _
    | refine Frame.step ?_ (by with_reducible apply writeCs_frame) (by decide)
    | refine Frame.pair2 (by assumption) ?_ (by with_reducible apply writeCs_frame) (by decide)
    | split
    | dsimp only

theorem postStatus_frame (r s) : Frame [.fresh] s (postStatus r s).2 := by
  unfold postStatus
  repeat' first
    | with_reducible apply Frame.refl
    | with_reducible apply Frame.ite <;> intro _
    | with_reducible apply Frame.ite2 <;> intro _
    | refine Frame.step ?_ (by with_reducible apply State.draw_frame) (by decide)
    | refine Frame.pair2 (by assumption) ?_ (by with_reducible apply State.draw_frame) (by decide)
    | split
    | dsimp only

theorem postTakenOp_frame (c s) : Frame [.so, .lanes, .filt, .relay, .fab, .acc, .mm, .out, .cour, .tally, .ctrl, .time, .dict, .encl, .pwr, .fresh, .outbox] s (postTakenOp c s) := by
  unfold postTakenOp
  repeat' first
    | with_reducible apply Frame.refl
    | with_reducible apply Frame.ite <;> intro _
    | refine Frame.step ?_ (by with_reducible apply State.setCore_frame) (by decide)
    | refine Frame.step ?_ (by with_reducible apply writeObj_frame) (by decide)
    | refine Frame.pair2 (by assumption) ?_ (by with_reducible apply writeObj_frame) (by decide)
    | refine Frame.step ?_ (by with_reducible apply postStatus_frame) (by decide)
    | refine Frame.pair2 (by assumption) ?_ (by with_reducible apply postStatus_frame) (by decide)
    | refine Frame.step ?_ (by with_reducible apply tallyEvent_frame) (by decide)
    | refine Frame.step ?_ (by with_reducible apply storeBytes_frame) (by decide)
    | refine Frame.step ?_ (by with_reducible apply softGo_frame) (by decide)
    | refine Frame.step ?_ (by with_reducible apply postRefused_frame) (by decide)
    | split
    | dsimp only

theorem objectOp_frame (idx sub data s) : Frame [.so, .lanes, .filt, .relay, .fab, .acc, .mm, .out, .cour, .tally, .ctrl, .time, .dict, .encl, .pwr, .fresh, .outbox] s (objectOp idx sub data s) := by
  unfold objectOp
  repeat' first
    | with_reducible apply Frame.refl
    | with_reducible apply Frame.ite <;> intro _
    | refine Frame.step ?_ (by with_reducible apply softGo_frame) (by decide)
    | refine Frame.step ?_ (by with_reducible apply writeObj_frame) (by decide)
    | refine Frame.pair2 (by assumption) ?_ (by with_reducible apply writeObj_frame) (by decide)
    | split
    | dsimp only

theorem registerOp_frame (w s) : Frame [.so, .lanes, .filt, .relay, .fab, .acc, .mm, .out, .cour, .tally, .ctrl, .time, .dict, .encl, .pwr, .tap, .fresh, .outbox] s (registerOp w s) := by
  unfold registerOp
  repeat' first
    | with_reducible apply Frame.refl
    | with_reducible apply Frame.ite <;> intro _
    | refine Frame.step ?_ (by with_reducible apply pairRequest_frame) (by decide)
    | refine Frame.step ?_ (by with_reducible apply issueBus_frame) (by decide)
    | refine Frame.step ?_ (by with_reducible apply debugTap_frame) (by decide)
    | refine Frame.step ?_ (by with_reducible apply objectOp_frame) (by decide)
    | split
    | dsimp only

end Sys2Proof.Machine
end

