-- ==== Sys2Proof/Laws/FrameSystem.lean ====
section
/-! SUPPORT. What each operation of Machine/System.lean may change. -/

set_option Elab.async false

namespace Sys2Proof.Machine

open Sys2Proof

theorem setExpected_frame (n x s) : Frame [.lanes, .dict] s (setExpected n x s) := by
  unfold setExpected
  repeat' first
    | with_reducible apply Frame.refl
    | with_reducible apply Frame.ite <;> intro _
    | refine Frame.step ?_ (by with_reducible apply State.modLogical_frame) (by decide)
    | refine Frame.step ?_ (by with_reducible apply State.modBlk_frame) (by decide)
    | split
    | dsimp only

theorem gapInput_frame (e t i s) : Frame [.lanes] s (gapInput e t i s) := by
  unfold gapInput
  repeat' first
    | with_reducible apply Frame.refl
    | with_reducible apply Frame.ite <;> intro _
    | refine Frame.step ?_ (by with_reducible apply pushChunk_frame) (by decide)
    | split
    | dsimp only

theorem fillGap_frame (n e t s) : Frame [.lanes] s (fillGap n e t s) := by
  unfold fillGap
  repeat' first
    | with_reducible apply Frame.refl
    | with_reducible apply Frame.ite <;> intro _
    | refine Frame.step ?_ (by with_reducible apply gapInput_frame) (by decide)
    | with_reducible refine Frame.forRange ?_ (fun _ _ => ?_)
    | split
    | dsimp only

theorem unitOp_frame (n t len s0) : Frame [.so, .lanes, .dict] s0 (unitOp n t len s0) := by
  unfold unitOp
  repeat' first
    | with_reducible apply Frame.refl
    | with_reducible apply Frame.ite <;> intro _
    | refine Frame.step ?_ (by with_reducible apply State.noteUnit_frame) (by decide)
    | refine Frame.step ?_ (by with_reducible apply setExpected_frame) (by decide)
    | refine Frame.step ?_ (by with_reducible apply raise_frame) (by decide)
    | refine Frame.step ?_ (by with_reducible apply fillGap_frame) (by decide)
    | split
    | dsimp only

theorem mapStreams_frame (at_ y1 s) : Frame [.out] s (mapStreams at_ y1 s) := by
  induction y1 generalizing s with
  | zero => exact Frame.refl _ _
  | succ n ih =>
    unfold mapStreams
    repeat' first
    | with_reducible apply Frame.refl
    | refine Frame.step ?_ (by with_reducible apply ih) (by decide)
    | with_reducible apply Frame.ite <;> intro _
    | refine Frame.step ?_ (by with_reducible apply emitStream_frame) (by decide)
    | refine Frame.step ?_ (by with_reducible apply State.setOut_frame) (by decide)
    | split
    | dsimp only

theorem blockBoundary_frame (at_ s) : Frame [.so, .filt, .fab, .out] s (blockBoundary at_ s) := by
  unfold blockBoundary
  refine Frame.ite (fun _ => ?_) (fun _ => Frame.refl _ _)
  have h := Frame.forRange (n := 384) (f := inputBlock at_) ((Frame.with_filt s { s.filt with lastBlock := at_ }).weaken (by decide))
    (fun k v => (inputBlock_frame at_ k v).weaken (ps := [.so, .filt]) (by decide))
  extract_lets _ s1 s2
  change Frame [.so, .filt] s s2 at h
  clear_value s2
  refine Frame.ite (fun _ => ?_) (fun _ => h.weaken (by decide))
  refine Frame.step (Frame.forRange ?_ (fun k v => (outBlock_frame k v).weaken (by decide))) (mapStreams_frame _ _ _) (by decide)
  exact (h.weaken (by decide)).step (beamBlock_frame _) (by decide)

theorem dropConf_frame (src stamp s) : Frame [.relay] s (dropConf src stamp s) := by
  unfold dropConf
  repeat' first
    | with_reducible apply Frame.refl
    | with_reducible apply Frame.ite <;> intro _
    | refine Frame.step ?_ (by with_reducible apply State.setRelay_frame) (by decide)
    | split
    | dsimp only

theorem confAct_frame (kind b s) : Frame [.so, .lanes, .filt, .relay, .fab, .acc, .mm, .out, .cour, .tally, .ctrl, .time, .dict, .encl, .pwr, .fresh, .outbox] s (confAct kind b s) := by
  unfold confAct
  repeat' first
    | with_reducible apply Frame.refl
    | with_reducible apply Frame.ite <;> intro _
    | refine (atService_frame (ps := [.so, .lanes, .filt, .relay, .fab, .acc, .mm, .out, .cour, .tally, .ctrl, .time, .dict, .encl, .pwr, .fresh, .outbox]) _ _ _ ?_).weaken (by decide)
    | refine Frame.step ?_ (by with_reducible apply fanoutReceived_frame) (by decide)
    | refine Frame.step ?_ (by with_reducible apply proposalWait_frame) (by decide)
    | split
    | dsimp only

theorem confParcel_frame (p c s) : Frame [.so, .lanes, .filt, .relay, .fab, .acc, .mm, .out, .cour, .tally, .ctrl, .time, .dict, .encl, .pwr, .fresh, .outbox] s (confParcel p c s) := by
  unfold confParcel
  repeat' first
    | with_reducible apply Frame.refl
    | with_reducible apply Frame.ite <;> intro _
    | refine Frame.step ?_ (by with_reducible apply State.setRelay_frame) (by decide)
    | refine Frame.step ?_ (by with_reducible apply queueService_frame) (by decide)
    | refine Frame.step ?_ (by with_reducible apply dropConf_frame) (by decide)
    | refine Frame.step ?_ (by with_reducible apply confAct_frame) (by decide)
    | with_reducible refine Frame.foldl ?_ (fun _ _ => ?_)
    | with_reducible refine Frame.foldl2 ?_ (fun _ _ => ?_)
    | split
    | dsimp only

theorem confTimeout_frame (src stamp s) : Frame [.so, .relay] s (confTimeout src stamp s) := by
  unfold confTimeout
  repeat' first
    | with_reducible apply Frame.refl
    | with_reducible apply Frame.ite <;> intro _
    | refine Frame.step ?_ (by with_reducible apply raise_frame) (by decide)
    | refine Frame.step ?_ (by with_reducible apply State.setPort_frame) (by decide)
    | refine Frame.step ?_ (by with_reducible apply dropConf_frame) (by decide)
    | split
    | dsimp only

theorem modPort_frame (p f s) : Frame [.relay] s (modPort p f s) := by
  unfold modPort
  repeat' first
    | with_reducible apply Frame.refl
    | with_reducible apply Frame.ite <;> intro _
    | refine Frame.step ?_ (by with_reducible apply State.setPort_frame) (by decide)
    | split
    | dsimp only

theorem countCrc_frame (p s) : Frame [.relay] s (countCrc p s) := by
  unfold countCrc
  repeat' first
    | with_reducible apply Frame.refl
    | with_reducible apply Frame.ite <;> intro _
    | refine Frame.step ?_ (by with_reducible apply modPort_frame) (by decide)
    | split
    | dsimp only

theorem countReceived_frame (p s) : Frame [.relay] s (countReceived p s) := by
  unfold countReceived
  repeat' first
    | with_reducible apply Frame.refl
    | with_reducible apply Frame.ite <;> intro _
    | refine Frame.step ?_ (by with_reducible apply modPort_frame) (by decide)
    | split
    | dsimp only

theorem parcelIn_frame (p l c s0) : Frame [.so, .lanes, .filt, .relay, .fab, .acc, .mm, .out, .cour, .tally, .ctrl, .time, .dict, .encl, .pwr, .fresh, .outbox] s0 (parcelIn p l c s0) := by
  unfold parcelIn
  repeat' first
    | with_reducible apply Frame.refl
    | with_reducible apply Frame.ite <;> intro _
    | refine Frame.step ?_ (by with_reducible apply crcReached_frame) (by decide)
    | refine Frame.pair22 (by assumption) ?_ (by with_reducible apply crcReached_frame) (by decide)
    | refine Frame.step ?_ (by with_reducible apply freeCredits_frame) (by decide)
    | refine Frame.step ?_ (by with_reducible apply countCrc_frame) (by decide)
    | refine Frame.step ?_ (by with_reducible apply countCode_frame) (by decide)
    | refine Frame.step ?_ (by with_reducible apply relayCrcFail_frame) (by decide)
    | refine Frame.step ?_ (by with_reducible apply relayFailed_frame) (by decide)
    | refine Frame.step ?_ (by with_reducible apply modPort_frame) (by decide)
    | refine Frame.step ?_ (by with_reducible apply markDone_frame) (by decide)
    | refine Frame.step ?_ (by with_reducible apply countReceived_frame) (by decide)
    | refine Frame.step ?_ (by with_reducible apply deliverParcel_frame) (by decide)
    | refine Frame.step ?_ (by with_reducible apply mapParcel_frame) (by decide)
    | refine Frame.step ?_ (by with_reducible apply confParcel_frame) (by decide)
    | split
    | dsimp only

theorem barrierDownOp_frame (arg0 arg1 s) : Frame [.so, .lanes, .relay, .dict, .outbox] s (barrierDownOp arg0 arg1 s) := by
  unfold barrierDownOp
  repeat' first
    | with_reducible apply Frame.refl
    | with_reducible apply Frame.ite <;> intro _
    | refine Frame.step ?_ (by with_reducible apply State.setTt_frame) (by decide)
    | refine Frame.step ?_ (by with_reducible apply sendBarrierDown_frame) (by decide)
    | refine Frame.step ?_ (by with_reducible apply State.setRelay_frame) (by decide)
    | refine Frame.step ?_ (by with_reducible apply voteResult_frame) (by decide)
    | split
    | dsimp only

theorem barrierTimeout_frame (s) : Frame [.so, .lanes, .relay, .dict, .outbox] s (barrierTimeout s) := by
  unfold barrierTimeout
  repeat' first
    | with_reducible apply Frame.refl
    | with_reducible apply Frame.ite <;> intro _
    | refine Frame.step ?_ (by with_reducible apply raise_frame) (by decide)
    | refine Frame.step ?_ (by with_reducible apply voteResult_frame) (by decide)
    | refine Frame.step ?_ (by with_reducible apply sendBarrierDown_frame) (by decide)
    | refine Frame.step ?_ (by with_reducible apply State.setRelay_frame) (by decide)
    | split
    | dsimp only

theorem counterCopies_frame (s) : Frame [.so, .lanes, .filt, .relay, .fab, .acc, .mm, .out, .ctrl, .time, .dict, .fresh, .outbox] s (counterCopies s) := by
  unfold counterCopies
  repeat' first
    | with_reducible apply Frame.refl
    | with_reducible apply Frame.ite <;> intro _
    | refine Frame.step ?_ (by with_reducible apply captureOp_frame) (by decide)
    | with_reducible refine Frame.foldl ?_ (fun _ _ => ?_)
    | with_reducible refine Frame.foldl2 ?_ (fun _ _ => ?_)
    | split
    | dsimp only

theorem copyBy_frame (x s) : Frame [.so, .lanes, .filt, .relay, .fab, .acc, .mm, .out, .ctrl, .time, .dict, .fresh, .outbox] s (copyBy x s) := by
  unfold copyBy
  repeat' first
    | with_reducible apply Frame.refl
    | with_reducible apply Frame.ite <;> intro _
    | refine Frame.step ?_ (by with_reducible apply counterCopies_frame) (by decide)
    | split
    | dsimp only

theorem dueBy_frame (x s) : Frame [.so, .lanes, .filt, .relay, .fab, .acc, .mm, .out, .ctrl, .time, .dict, .fresh, .outbox] s (dueBy x s) := by
  unfold dueBy
  repeat' first
    | with_reducible apply Frame.refl
    | with_reducible apply Frame.ite <;> intro _
    | refine Frame.step ?_ (by with_reducible apply latchBy_frame) (by decide)
    | refine Frame.step ?_ (by with_reducible apply copyBy_frame) (by decide)
    | split
    | dsimp only

theorem compareBy_frame (c s) : Frame [.so, .lanes, .filt, .relay, .fab, .acc, .mm, .out, .tally, .ctrl, .time, .dict, .fresh, .outbox] s (compareBy c s) := by
  unfold compareBy
  repeat' first
    | with_reducible apply Frame.refl
    | with_reducible apply Frame.ite <;> intro _
    | refine Frame.step ?_ (by with_reducible apply pmCompareOp_frame) (by decide)
    | refine Frame.step ?_ (by with_reducible apply dueBy_frame) (by decide)
    | split
    | dsimp only

theorem stepActions_frame (s) : Frame [.so, .lanes, .filt, .relay, .fab, .acc, .mm, .out, .tally, .ctrl, .time, .dict, .fresh, .outbox] s (stepActions s) := by
  unfold stepActions
  repeat' first
    | with_reducible apply Frame.refl
    | with_reducible apply Frame.ite <;> intro _
    | refine Frame.step ?_ (by with_reducible apply compareBy_frame) (by decide)
    | refine Frame.step ?_ (by with_reducible apply dueBy_frame) (by decide)
    | with_reducible refine Frame.foldl ?_ (fun _ _ => ?_)
    | with_reducible refine Frame.foldl2 ?_ (fun _ _ => ?_)
    | split
    | dsimp only

theorem serveWaiting_frame (w s) : Frame [.so, .lanes, .filt, .relay, .fab, .acc, .mm, .out, .cour, .tally, .ctrl, .time, .dict, .encl, .pwr, .fresh, .outbox] s (serveWaiting w s) := by
  unfold serveWaiting
  repeat' first
    | with_reducible apply Frame.refl
    | with_reducible apply Frame.ite <;> intro _
    | refine Frame.step ?_ (by with_reducible apply handleNow_frame) (by decide)
    | refine Frame.step ?_ (by with_reducible apply csWriteOp_frame) (by decide)
    | refine Frame.step ?_ (by with_reducible apply objectOp_frame) (by decide)
    | refine Frame.step ?_ (by with_reducible apply snapshotWait_frame) (by decide)
    | refine Frame.step ?_ (by with_reducible apply globalWrite_frame) (by decide)
    | refine Frame.step ?_ (by with_reducible apply commitWait_frame) (by decide)
    | refine Frame.step ?_ (by with_reducible apply proposalWait_frame) (by decide)
    | refine Frame.step ?_ (by with_reducible apply softResetOp_frame) (by decide)
    | refine Frame.step ?_ (by with_reducible apply blockResetOp_frame) (by decide)
    | refine Frame.step ?_ (by with_reducible apply startWait_frame) (by decide)
    | refine Frame.step ?_ (by with_reducible apply fanoutReceived_frame) (by decide)
    | refine Frame.step ?_ (by with_reducible apply ringCommandOp_frame) (by decide)
    | split
    | dsimp only

theorem serviceResume_frame (s) : Frame [.so, .lanes, .filt, .relay, .fab, .acc, .mm, .out, .cour, .tally, .ctrl, .time, .dict, .encl, .pwr, .fresh, .outbox] s (serviceResume s) := by
  unfold serviceResume
  repeat' first
    | with_reducible apply Frame.refl
    | with_reducible apply Frame.ite <;> intro _
    | refine Frame.step ?_ (by with_reducible apply serveWaiting_frame) (by decide)
    | refine Frame.step ?_ (by with_reducible apply State.setDict_frame) (by decide)
    | with_reducible refine Frame.foldl ?_ (fun _ _ => ?_)
    | with_reducible refine Frame.foldl2 ?_ (fun _ _ => ?_)
    | split
    | dsimp only

theorem tick_frame (s) : Frame [.so, .lanes, .filt, .relay, .fab, .acc, .mm, .out, .cour, .tally, .ctrl, .time, .dict, .encl, .pwr, .fresh, .outbox] s (tick s) := by
  unfold tick
  repeat' first
    | with_reducible apply Frame.refl
    | with_reducible apply Frame.ite <;> intro _
    | refine Frame.step ?_ (by with_reducible apply countTick_frame) (by decide)
    | refine Frame.step ?_ (by with_reducible apply serviceResume_frame) (by decide)
    | refine Frame.step ?_ (by with_reducible apply outPump_frame) (by decide)
    | refine Frame.step ?_ (by with_reducible apply matrixRun_frame) (by decide)
    | refine Frame.step ?_ (by with_reducible apply serveStack_frame) (by decide)
    | refine Frame.step ?_ (by with_reducible apply ctlPump_frame) (by decide)
    | refine Frame.step ?_ (by with_reducible apply testTick_frame) (by decide)
    | with_reducible refine Frame.forRange ?_ (fun _ _ => ?_)
    | split
    | dsimp only

end Sys2Proof.Machine
end

