-- ==== Sys2Proof/Laws/FrameTap.lean ====
section
/-! SUPPORT. What each operation of Machine/Tap.lean may change. -/

set_option Elab.async false

namespace Sys2Proof.Machine

open Sys2Proof

theorem tapLoad_frame (i s) : Frame [.tap] s (tapLoad i s) := by
  unfold tapLoad
  repeat' first
    | with_reducible apply Frame.refl
    | with_reducible apply Frame.ite <;> intro _
    | refine Frame.step ?_ (by with_reducible apply Frame.with_tap) (by decide)
    | split
    | dsimp only

theorem tapDrive_frame (i s) : Frame [.tap, .fresh, .outbox] s (tapDrive i s) := by
  unfold tapDrive
  repeat' first
    | with_reducible apply Frame.refl
    | with_reducible apply Frame.ite <;> intro _
    | refine Frame.step ?_ (by with_reducible apply State.draw_frame) (by decide)
    | refine Frame.pair2 (by assumption) ?_ (by with_reducible apply State.draw_frame) (by decide)
    | refine Frame.step ?_ (by with_reducible apply State.send_frame) (by decide)
    | refine Frame.step ?_ (by with_reducible apply tapLoad_frame) (by decide)
    | split
    | dsimp only

end Sys2Proof.Machine
end

