-- ==== Sys2Proof/Laws/Tab.lean ====
section
/-! SUPPORT. Sparse tables: reading after writing, and the canonical form that every write keeps. -/

set_option Elab.async false

namespace Sys2Proof

variable {α : Type}

theorem Tab.get_erase (d : Nat → α) (k j : Nat) :
    ∀ t : Tab α, (Tab.erase t k).get d j = if j = k then d k else t.get d j
  | [] => by by_cases h : j = k <;> simp [Tab.erase, Tab.get, h]
  | (i, v) :: t => by
    have ih := Tab.get_erase d k j t
    by_cases hik : i = k
    · by_cases hj : j = k
      · simp [Tab.erase, hik, hj] at *; exact ih
      · have : ¬ k = j := fun e => hj e.symm
        simp [Tab.erase, hik, hj, Tab.get, this] at *; exact ih
    · by_cases hij : i = j
      · subst hij; simp [Tab.erase, hik, Tab.get]
      · simp [Tab.erase, hik, Tab.get, hij, ih]

theorem Tab.get_forget (d : Nat → α) (n k j : Nat) (t : Tab α) :
    (Tab.forget n k t).get d j = if n ≤ k ∧ j = k - n then d j else t.get d j := by
  unfold Tab.forget
  split
  · next h =>
    rw [Tab.get_erase]
    by_cases e : j = k - n
    · subst e; simp [h]
    · simp [h, e]
  · next h => simp [h]

theorem Tab.get_insert (d : Nat → α) (k j : Nat) (v : α) :
    ∀ t : Tab α, (Tab.insert k v (Tab.erase t k)).get d j = if j = k then v else t.get d j
  | [] => by
    by_cases h : j = k
    · simp [Tab.erase, Tab.insert, Tab.get, h]
    · have : ¬ k = j := fun e => h e.symm
      simp [Tab.erase, Tab.insert, Tab.get, h, this]
  | (i, w) :: t => by
    have ih := Tab.get_insert d k j v t
    by_cases hik : i = k
    · by_cases hj : j = k
      · simp [Tab.erase, hik, hj] at *; exact ih
      · have : ¬ k = j := fun e => hj e.symm
        simp [Tab.erase, hik, hj, Tab.get, this] at *; exact ih
    · by_cases hlt : k < i
      · by_cases hj : j = k
        · simp [Tab.erase, hik, Tab.insert, hlt, Tab.get, hj]
        · have h2 : ¬ k = j := fun e => hj e.symm
          simp [Tab.erase, hik, Tab.insert, hlt, Tab.get, hj, h2, Tab.get_erase]
      · by_cases hij : i = j
        · subst hij; simp [Tab.erase, hik, Tab.insert, hlt, Tab.get]
        · simp [Tab.erase, hik, Tab.insert, hlt, Tab.get, hij, ih]

/-- Reading a table after a write. -/
theorem Tab.get_set [DecidableEq α] (d : Nat → α) (t : Tab α) (k j : Nat) (v : α) :
    (t.set d k v).get d j = if j = k then v else t.get d j := by
  unfold Tab.set
  split
  · next h => rw [Tab.get_erase, ← h]
  · exact Tab.get_insert d k j v t

@[simp] theorem Tab.get_set_self [DecidableEq α] (d : Nat → α) (t : Tab α) (k : Nat) (v : α) :
    (t.set d k v).get d k = v := by simp [Tab.get_set]

theorem Tab.get_set_ne [DecidableEq α] (d : Nat → α) (t : Tab α) {k j : Nat} (v : α) (h : j ≠ k) :
    (t.set d k v).get d j = t.get d j := by simp [Tab.get_set, h]

/-- The canonical form as a statement about the list: keys rising, no default listed. -/
def Tab.Canon (d : Nat → α) (t : Tab α) : Prop :=
  t.Pairwise (fun a b => a.1 < b.1) ∧ ∀ e ∈ t, e.2 ≠ d e.1

theorem Tab.canon_cons (d : Nat → α) (e : Nat × α) (t : Tab α) :
    Tab.Canon d (e :: t) ↔ (∀ f ∈ t, e.1 < f.1) ∧ e.2 ≠ d e.1 ∧ Tab.Canon d t := by
  simp only [Tab.Canon, List.pairwise_cons, List.mem_cons, forall_eq_or_imp]; tauto

theorem Tab.wf_iff [DecidableEq α] (d : Nat → α) : ∀ t : Tab α, Tab.wf d t = true ↔ Tab.Canon d t
  | [] => by simp [Tab.wf, Tab.Canon]
  | [(j, v)] => by simp [Tab.wf, Tab.Canon]
  | (j, v) :: (j', v') :: t => by
    have ih := Tab.wf_iff d ((j', v') :: t)
    rw [Tab.canon_cons, ← ih]
    simp only [Tab.wf, Bool.and_eq_true, decide_eq_true_eq]
    constructor
    · rintro ⟨⟨h1, h2⟩, h3⟩
      refine ⟨?_, h2, h3⟩
      have hc := (Tab.canon_cons d (j', v') t).1 (ih.1 h3)
      intro f hf
      rcases List.mem_cons.1 hf with rfl | hf
      · exact h1
      · exact lt_trans h1 (hc.1 f hf)
    · rintro ⟨h1, h2, h3⟩
      exact ⟨⟨h1 _ (List.mem_cons_self ..), h2⟩, h3⟩

theorem Tab.mem_erase {k : Nat} {e : Nat × α} : ∀ {t : Tab α}, e ∈ Tab.erase t k ↔ e ∈ t ∧ e.1 ≠ k
  | [] => by simp [Tab.erase]
  | (j, v) :: t => by
    have ih := @Tab.mem_erase k e t
    by_cases h : j = k
    · simp only [Tab.erase, h, if_true, ih, List.mem_cons]
      constructor
      · rintro ⟨a, b⟩; exact ⟨Or.inr a, b⟩
      · rintro ⟨rfl | a, b⟩
        · exact absurd rfl b
        · exact ⟨a, b⟩
    · simp only [Tab.erase, h, if_false, List.mem_cons, ih]
      constructor
      · rintro (rfl | ⟨a, b⟩)
        · exact ⟨Or.inl rfl, h⟩
        · exact ⟨Or.inr a, b⟩
      · rintro ⟨rfl | a, b⟩
        · exact Or.inl rfl
        · exact Or.inr ⟨a, b⟩

theorem Tab.canon_erase (d : Nat → α) (k : Nat) : ∀ t : Tab α, Tab.Canon d t → Tab.Canon d (Tab.erase t k)
  | [], h => by simpa [Tab.erase] using h
  | (j, v) :: t, h => by
    have hc := (Tab.canon_cons d (j, v) t).1 h
    have ih := Tab.canon_erase d k t hc.2.2
    by_cases hk : j = k
    · simpa [Tab.erase, hk] using ih
    · simp only [Tab.erase, hk, if_false, Tab.canon_cons]
      exact ⟨fun f hf => hc.1 f (Tab.mem_erase.1 hf).1, hc.2.1, ih⟩

theorem Tab.mem_insert {k : Nat} {v : α} {e : Nat × α} : ∀ {t : Tab α}, e ∈ Tab.insert k v t ↔ e = (k, v) ∨ e ∈ t
  | [] => by simp [Tab.insert]
  | (j, w) :: t => by
    have ih := @Tab.mem_insert k v e t
    by_cases h : k < j
    · simp [Tab.insert, h]
    · simp only [Tab.insert, h, if_false, List.mem_cons, ih]; tauto

theorem Tab.canon_insert (d : Nat → α) (k : Nat) (v : α) (hv : v ≠ d k) :
    ∀ t : Tab α, Tab.Canon d t → (∀ e ∈ t, e.1 ≠ k) → Tab.Canon d (Tab.insert k v t)
  | [], _, _ => by simp [Tab.insert, Tab.Canon, hv]
  | (j, w) :: t, h, hk => by
    have hc := (Tab.canon_cons d (j, w) t).1 h
    by_cases hj : k < j
    · simp only [Tab.insert, hj, if_true]
      rw [Tab.canon_cons]
      refine ⟨fun f hf => ?_, hv, h⟩
      rcases List.mem_cons.1 hf with rfl | hf
      · exact hj
      · exact lt_trans hj (hc.1 f hf)
    · have ih := Tab.canon_insert d k v hv t hc.2.2 (fun e he => hk e (List.mem_cons_of_mem _ he))
      simp only [Tab.insert, hj, if_false, Tab.canon_cons]
      refine ⟨fun f hf => ?_, hc.2.1, ih⟩
      rcases Tab.mem_insert.1 hf with rfl | hf
      · have : j ≠ k := hk (j, w) (List.mem_cons_self ..)
        show j < k
        omega
      · exact hc.1 f hf

/-- Every write keeps the canonical form. -/
theorem Tab.wf_set [DecidableEq α] (d : Nat → α) (t : Tab α) (k : Nat) (v : α) (h : Tab.wf d t = true) :
    Tab.wf d (t.set d k v) = true := by
  rw [Tab.wf_iff] at *
  unfold Tab.set
  split
  · exact Tab.canon_erase d k t h
  · next hv => exact Tab.canon_insert d k v hv _ (Tab.canon_erase d k t h) (fun e he => (Tab.mem_erase.1 he).2)

/-- Dropping entries keeps it. -/
theorem Tab.wf_filter [DecidableEq α] (d : Nat → α) (t : Tab α) (p : Nat × α → Bool) (h : Tab.wf d t = true) :
    Tab.wf d (t.filter p) = true := by
  rw [Tab.wf_iff] at *
  exact ⟨h.1.filter p, fun e he => h.2 e (List.mem_filter.1 he).1⟩

end Sys2Proof
end

