-- ==== Sys2Proof/Laws/MemOk.lean ====
section
/-! SUPPORT. The canonical form of the memory through a chain of operations: what does not touch the memories keeps it, a
write keeps it. -/

set_option Elab.async false

namespace Sys2Proof.Machine

open Sys2Proof

/-- If the memory of s is canonical, that of t is. -/
structure MemOk (s t : State) : Prop where
  keep : Memory.wf s.mm.mem = true → Memory.wf t.mm.mem = true

variable {ps : List Part} {s t u : State}

theorem MemOk.refl (s : State) : MemOk s s := ⟨id⟩
theorem MemOk.step (h : MemOk s t) (k : MemOk t u) : MemOk s u := ⟨fun w => k.keep (h.keep w)⟩
theorem MemOk.of_mem (h : t.mm.mem = s.mm.mem) : MemOk s t := ⟨fun w => h ▸ w⟩
theorem MemOk.of_frame (k : Frame ps s t) (n : Part.mm ∉ ps) : MemOk s t :=
  MemOk.of_mem (congrArg Mems.mem (k.same .mm n))
theorem MemOk.frame (h : MemOk s t) (k : Frame ps t u) (n : Part.mm ∉ ps) : MemOk s u := h.step (MemOk.of_frame k n)
theorem MemOk.with_mm (t : State) (x : Mems) (h : x.mem = t.mm.mem) : MemOk t { t with mm := x } := MemOk.of_mem h

theorem MemOk.ite {c : Prop} [Decidable c] (h : c → MemOk s t) (k : ¬ c → MemOk s u) : MemOk s (if c then t else u) := by
  split
  · exact h ‹_›
  · exact k ‹_›
theorem MemOk.ite2 {α : Type} {c : Prop} [Decidable c] {a b : α × State} (h : c → MemOk s a.2) (k : ¬ c → MemOk s b.2) :
    MemOk s (if c then a else b).2 := by
  split
  · exact h ‹_›
  · exact k ‹_›
theorem MemOk.ite22 {α β : Type} {c : Prop} [Decidable c] {a b : α × β × State} (h : c → MemOk s a.2.2)
    (k : ¬ c → MemOk s b.2.2) : MemOk s (if c then a else b).2.2 := by
  split
  · exact h ‹_›
  · exact k ‹_›

theorem MemOk.pair2 {α : Type} {r : α × State} {a : α} (e : r = (a, u)) (h : MemOk s t) (k : MemOk t r.2) : MemOk s u := by
  subst e; exact h.step k
theorem MemOk.pair22 {α β : Type} {r : α × β × State} {a : α} {b : β} (e : r = (a, b, u)) (h : MemOk s t)
    (k : MemOk t r.2.2) : MemOk s u := by subst e; exact h.step k
theorem MemOk.fpair2 {α : Type} {r : α × State} {a : α} (e : r = (a, u)) (h : MemOk s t) (k : Frame ps t r.2)
    (n : Part.mm ∉ ps) : MemOk s u := by subst e; exact h.frame k n
theorem MemOk.fpair22 {α β : Type} {r : α × β × State} {a : α} {b : β} (e : r = (a, b, u)) (h : MemOk s t)
    (k : Frame ps t r.2.2) (n : Part.mm ∉ ps) : MemOk s u := by subst e; exact h.frame k n

theorem MemOk.foldl {α : Type} {f : State → α → State} {l : List α} (h : MemOk s t) (k : ∀ v x, MemOk v (f v x)) :
    MemOk s (l.foldl f t) := by
  induction l generalizing t with
  | nil => exact h
  | cons x r ih => exact ih (h.step (k t x))
theorem MemOk.foldl2 {α β : Type} {f : β × State → α → β × State} {l : List α} {r : β × State} (h : MemOk s r.2)
    (k : ∀ v x, MemOk v.2 (f v x).2) : MemOk s (l.foldl f r).2 := by
  induction l generalizing r with
  | nil => exact h
  | cons x q ih => exact ih (h.step (k r x))
theorem MemOk.foldl22 {α β γ : Type} {f : β × γ × State → α → β × γ × State} {l : List α} {r : β × γ × State}
    (h : MemOk s r.2.2) (k : ∀ v x, MemOk v.2.2 (f v x).2.2) : MemOk s (l.foldl f r).2.2 := by
  induction l generalizing r with
  | nil => exact h
  | cons x q ih => exact ih (h.step (k r x))
theorem MemOk.forRange {n : Nat} {f : Nat → State → State} (h : MemOk s t) (k : ∀ x v, MemOk v (f x v)) :
    MemOk s (forRange n f t) := MemOk.foldl h fun v x => k x v

end Sys2Proof.Machine
end

