-- ==== Sys2Proof/Laws/MemOkMemory.lean ====
section
/-! SUPPORT. The operations of Machine/Memory.lean keep the memory's canonical form. -/

set_option Elab.async false

namespace Sys2Proof.Machine

open Sys2Proof


theorem putByte_memOk (a b s) : MemOk s (putByte a b s) := ⟨fun w => Tab.wf_set _ _ _ _ w⟩

theorem putBytes_memOk (a bs s) : MemOk s (putBytes a bs s) := by
  induction bs generalizing a s with
  | nil => exact MemOk.refl _
  | cons b r ih => exact (putByte_memOk a b s).step (ih _ _)

theorem putNum_memOk (a n v s) : MemOk s (putNum a n v s) := by
  unfold putNum
  repeat' first
    | with_reducible apply MemOk.refl
    | with_reducible apply MemOk.ite <;> intro _
    | refine MemOk.step ?_ (by with_reducible apply putBytes_memOk)
    | split
    | dsimp only

theorem setBad_memOk (a b s) : MemOk s (setBad a b s) := by
  unfold setBad
  repeat' first
    | with_reducible apply MemOk.refl
    | with_reducible apply MemOk.ite <;> intro _
    | refine MemOk.step ?_ (MemOk.with_mm _ _ rfl)
    | split
    | dsimp only

theorem storeBytes_memOk (a bs s) : MemOk s (storeBytes a bs s) := by
  unfold storeBytes
  repeat' first
    | with_reducible apply MemOk.refl
    | with_reducible apply MemOk.ite <;> intro _
    | refine MemOk.step ?_ (by with_reducible apply putBytes_memOk)
    | refine MemOk.step ?_ (by with_reducible apply setBad_memOk)
    | with_reducible refine MemOk.foldl ?_ (fun _ _ => ?_)
    | with_reducible refine MemOk.foldl2 ?_ (fun _ _ => ?_)
    | split
    | dsimp only

theorem flipWord_memOk (a o s) : MemOk s (flipWord a o s) := by
  unfold flipWord
  repeat' first
    | with_reducible apply MemOk.refl
    | with_reducible apply MemOk.ite <;> intro _
    | refine MemOk.step ?_ (by with_reducible apply putByte_memOk)
    | split
    | dsimp only

theorem State.setStk_memOk (s n v) : MemOk s (State.setStk s n v) := by
  unfold State.setStk
  repeat' first
    | with_reducible apply MemOk.refl
    | with_reducible apply MemOk.ite <;> intro _
    | refine MemOk.step ?_ (MemOk.with_mm _ _ rfl)
    | split
    | dsimp only

theorem streamTokens_memOk (port n s) : MemOk s (streamTokens port n s) := by
  unfold streamTokens
  repeat' first
    | with_reducible apply MemOk.refl
    | with_reducible apply MemOk.ite <;> intro _
    | refine MemOk.step ?_ (by with_reducible apply State.setStk_memOk)
    | with_reducible refine MemOk.foldl ?_ (fun _ _ => ?_)
    | with_reducible refine MemOk.foldl2 ?_ (fun _ _ => ?_)
    | split
    | dsimp only

theorem usePort_memOk (k port x n s) : MemOk s (usePort k port x n s) := by
  unfold usePort
  repeat' first
    | with_reducible apply MemOk.refl
    | with_reducible apply MemOk.ite <;> intro _
    | refine MemOk.step ?_ (by with_reducible apply State.setStk_memOk)
    | split
    | dsimp only

theorem keepBad_memOk (stack x port e s) : MemOk s (keepBad stack x port e s) := by
  unfold keepBad
  repeat' first
    | with_reducible apply MemOk.refl
    | with_reducible apply MemOk.ite <;> intro _
    | refine MemOk.step ?_ (by with_reducible apply setBad_memOk)
    | split
    | dsimp only

theorem dramCheck_memOk (stack x port e s) : MemOk s (dramCheck stack x port e s).2 := by
  unfold dramCheck
  repeat' first
    | with_reducible apply MemOk.refl
    | with_reducible apply MemOk.ite <;> intro _
    | with_reducible apply MemOk.ite2 <;> intro _
    | refine MemOk.frame ?_ (by with_reducible apply eccCheck_frame) (by decide)
    | refine MemOk.fpair22 (by assumption) ?_ (by with_reducible apply eccCheck_frame) (by decide)
    | refine MemOk.step ?_ (by with_reducible apply keepBad_memOk)
    | refine MemOk.frame ?_ (by with_reducible apply raiseT_frame) (by decide)
    | refine MemOk.step ?_ (by with_reducible apply State.setStk_memOk)
    | split
    | dsimp only

theorem touchInter_memOk (lo n s) : MemOk s (touchInter lo n s) := by
  unfold touchInter
  repeat' first
    | with_reducible apply MemOk.refl
    | with_reducible apply MemOk.ite <;> intro _
    | refine MemOk.step ?_ (by with_reducible apply State.setStk_memOk)
    | with_reducible refine MemOk.foldl ?_ (fun _ _ => ?_)
    | with_reducible refine MemOk.foldl2 ?_ (fun _ _ => ?_)
    | split
    | dsimp only

theorem cornerWrite_memOk (n a x s) : MemOk s (cornerWrite n a x s) := by
  unfold cornerWrite
  repeat' first
    | with_reducible apply MemOk.refl
    | with_reducible apply MemOk.ite <;> intro _
    | refine MemOk.step ?_ (by with_reducible apply usePort_memOk)
    | split
    | dsimp only

theorem channelOut_memOk (i n x s) : MemOk s (channelOut i n x s) := by
  unfold channelOut
  repeat' first
    | with_reducible apply MemOk.refl
    | with_reducible apply MemOk.ite <;> intro _
    | refine MemOk.step ?_ (by with_reducible apply cornerWrite_memOk)
    | refine MemOk.frame ?_ (by with_reducible apply channelSample_frame) (by decide)
    | split
    | dsimp only

end Sys2Proof.Machine
end

