-- ==== Sys2Proof/Laws/MemOkRelay.lean ====
section
/-! SUPPORT. The operations of Machine/Relay.lean keep the memory's canonical form. -/

set_option Elab.async false

namespace Sys2Proof.Machine

open Sys2Proof

theorem putSamples_memOk (x sm w s) : MemOk s (putSamples x sm w s) := by
  unfold putSamples
  repeat' first
    | with_reducible apply MemOk.refl
    | with_reducible apply MemOk.ite <;> intro _
    | refine MemOk.step ?_ (by with_reducible apply cornerWrite_memOk)
    | refine MemOk.frame ?_ (by with_reducible apply putWord_frame) (by decide)
    | with_reducible refine MemOk.foldl ?_ (fun _ _ => ?_)
    | with_reducible refine MemOk.foldl2 ?_ (fun _ _ => ?_)
    | split
    | dsimp only

theorem deliverParcel_memOk (p l n credits pay s) : MemOk s (deliverParcel p l n credits pay s) := by
  unfold deliverParcel
  repeat' first
    | with_reducible apply MemOk.refl
    | with_reducible apply MemOk.ite <;> intro _
    | refine MemOk.frame ?_ (by with_reducible apply freeCredits_frame) (by decide)
    | refine MemOk.step ?_ (by with_reducible apply putSamples_memOk)
    | refine MemOk.frame ?_ (by with_reducible apply exclGroup_frame) (by decide)
    | refine MemOk.frame ?_ (by with_reducible apply State.setRelay_frame) (by decide)
    | with_reducible refine MemOk.foldl ?_ (fun _ _ => ?_)
    | with_reducible refine MemOk.foldl2 ?_ (fun _ _ => ?_)
    | split
    | dsimp only

theorem parcelDeadlineOp_memOk (p n s) : MemOk s (parcelDeadlineOp p n s) := by
  unfold parcelDeadlineOp
  repeat' first
    | with_reducible apply MemOk.refl
    | with_reducible apply MemOk.ite <;> intro _
    | refine MemOk.step ?_ (by with_reducible apply deliverParcel_memOk)
    | refine MemOk.frame ?_ (by with_reducible apply lostCard_frame) (by decide)
    | refine MemOk.frame ?_ (by with_reducible apply markDone_frame) (by decide)
    | refine MemOk.frame ?_ (by with_reducible apply State.setPort_frame) (by decide)
    | split
    | dsimp only

end Sys2Proof.Machine
end

