-- ==== Sys2Proof/Laws/MemOkAccum.lean ====
section
/-! SUPPORT. The operations of Machine/Accum.lean keep the memory's canonical form. -/

set_option Elab.async false

namespace Sys2Proof.Machine

open Sys2Proof

theorem putBook_memOk (c t b s) : MemOk s (putBook c t b s) := by
  unfold putBook
  repeat' first
    | with_reducible apply MemOk.refl
    | with_reducible apply MemOk.ite <;> intro _
    | refine MemOk.frame ?_ (by with_reducible apply State.setBook_frame) (by decide)
    | refine MemOk.step ?_ (by with_reducible apply storeBytes_memOk)
    | split
    | dsimp only

theorem putTile_memOk (c t b vals s) : MemOk s (putTile c t b vals s) := by
  unfold putTile
  repeat' first
    | with_reducible apply MemOk.refl
    | with_reducible apply MemOk.ite <;> intro _
    | refine MemOk.step ?_ (by with_reducible apply usePort_memOk)
    | refine MemOk.step ?_ (by with_reducible apply putBook_memOk)
    | refine MemOk.step ?_ (by with_reducible apply storeBytes_memOk)
    | split
    | dsimp only

theorem writeTile_memOk (d t rd vals s) : MemOk s (writeTile d t rd vals s) := by
  unfold writeTile
  repeat' first
    | with_reducible apply MemOk.refl
    | with_reducible apply MemOk.ite <;> intro _
    | refine MemOk.step ?_ (by with_reducible apply usePort_memOk)
    | refine MemOk.step ?_ (by with_reducible apply storeBytes_memOk)
    | refine MemOk.frame ?_ (by with_reducible apply finishDump_frame) (by decide)
    | refine MemOk.frame ?_ (by with_reducible apply State.setAcc_frame) (by decide)
    | split
    | dsimp only

theorem emitTile_memOk (c t b cut vals s) : MemOk s (emitTile c t b cut vals s) := by
  unfold emitTile
  repeat' first
    | with_reducible apply MemOk.refl
    | with_reducible apply MemOk.ite <;> intro _
    | refine MemOk.frame ?_ (by with_reducible apply openDump_frame) (by decide)
    | refine MemOk.fpair2 (by assumption) ?_ (by with_reducible apply openDump_frame) (by decide)
    | refine MemOk.step ?_ (by with_reducible apply writeTile_memOk)
    | refine MemOk.frame ?_ (by with_reducible apply State.setAcc_frame) (by decide)
    | split
    | dsimp only

theorem biasValue_memOk (m c t k p e s) : MemOk s (biasValue m c t k p e s).2 := by
  unfold biasValue
  repeat' first
    | with_reducible apply MemOk.refl
    | with_reducible apply MemOk.ite <;> intro _
    | with_reducible apply MemOk.ite2 <;> intro _
    | refine MemOk.step ?_ (by with_reducible apply usePort_memOk)
    | refine MemOk.step ?_ (by with_reducible apply dramCheck_memOk)
    | refine MemOk.pair2 (by assumption) ?_ (by with_reducible apply dramCheck_memOk)
    | refine MemOk.frame ?_ (by with_reducible apply biasBad_frame) (by decide)
    | split
    | dsimp only

theorem startTile_memOk (c t p old ecc s) : MemOk s (startTile c t p old ecc s).2.2 := by
  unfold startTile
  repeat' first
    | with_reducible apply MemOk.refl
    | with_reducible apply MemOk.ite <;> intro _
    | with_reducible apply MemOk.ite22 <;> intro _
    | refine MemOk.step ?_ (by with_reducible apply biasValue_memOk)
    | refine MemOk.pair2 (by assumption) ?_ (by with_reducible apply biasValue_memOk)
    | with_reducible refine MemOk.foldl ?_ (fun _ _ => ?_)
    | with_reducible refine MemOk.foldl2 ?_ (fun _ _ => ?_)
    | with_reducible refine MemOk.foldl22 ?_ (fun _ _ => ?_)
    | split
    | dsimp only

theorem readBook_memOk (c t x ecc s) : MemOk s (readBook c t x ecc s).2 := by
  unfold readBook
  repeat' first
    | with_reducible apply MemOk.refl
    | with_reducible apply MemOk.ite <;> intro _
    | with_reducible apply MemOk.ite2 <;> intro _
    | refine MemOk.step ?_ (by with_reducible apply dramCheck_memOk)
    | refine MemOk.pair2 (by assumption) ?_ (by with_reducible apply dramCheck_memOk)
    | refine MemOk.step ?_ (by with_reducible apply usePort_memOk)
    | split
    | dsimp only

theorem readTile_memOk (c t b ecc s) : MemOk s (readTile c t b ecc s).2.2 := by
  unfold readTile
  repeat' first
    | with_reducible apply MemOk.refl
    | with_reducible apply MemOk.ite <;> intro _
    | with_reducible apply MemOk.ite22 <;> intro _
    | refine MemOk.step ?_ (by with_reducible apply readBook_memOk)
    | refine MemOk.pair2 (by assumption) ?_ (by with_reducible apply readBook_memOk)
    | refine MemOk.step ?_ (by with_reducible apply usePort_memOk)
    | refine MemOk.step ?_ (by with_reducible apply dramCheck_memOk)
    | refine MemOk.pair2 (by assumption) ?_ (by with_reducible apply dramCheck_memOk)
    | with_reducible refine MemOk.foldl ?_ (fun _ _ => ?_)
    | with_reducible refine MemOk.foldl2 ?_ (fun _ _ => ?_)
    | with_reducible refine MemOk.foldl22 ?_ (fun _ _ => ?_)
    | split
    | dsimp only

theorem turnTile_memOk (c t p b ecc s) : MemOk s (turnTile c t p b ecc s).2.2 := by
  unfold turnTile
  repeat' first
    | with_reducible apply MemOk.refl
    | with_reducible apply MemOk.ite <;> intro _
    | with_reducible apply MemOk.ite22 <;> intro _
    | refine MemOk.step ?_ (by with_reducible apply startTile_memOk)
    | refine MemOk.pair22 (by assumption) ?_ (by with_reducible apply startTile_memOk)
    | refine MemOk.step ?_ (by with_reducible apply emitTile_memOk)
    | refine MemOk.step ?_ (by with_reducible apply readTile_memOk)
    | refine MemOk.pair22 (by assumption) ?_ (by with_reducible apply readTile_memOk)
    | split
    | dsimp only

theorem startIdle_memOk (c t p ecc s) : MemOk s (startIdle c t p ecc s).2.2 := by
  unfold startIdle
  repeat' first
    | with_reducible apply MemOk.refl
    | with_reducible apply MemOk.ite <;> intro _
    | with_reducible apply MemOk.ite22 <;> intro _
    | refine MemOk.step ?_ (by with_reducible apply readBook_memOk)
    | refine MemOk.pair2 (by assumption) ?_ (by with_reducible apply readBook_memOk)
    | refine MemOk.step ?_ (by with_reducible apply startTile_memOk)
    | refine MemOk.pair22 (by assumption) ?_ (by with_reducible apply startTile_memOk)
    | split
    | dsimp only

theorem openTile_memOk (c t p ecc s) : MemOk s (openTile c t p ecc s).2.2 := by
  unfold openTile
  repeat' first
    | with_reducible apply MemOk.refl
    | with_reducible apply MemOk.ite <;> intro _
    | with_reducible apply MemOk.ite22 <;> intro _
    | refine MemOk.step ?_ (by with_reducible apply startIdle_memOk)
    | refine MemOk.pair22 (by assumption) ?_ (by with_reducible apply startIdle_memOk)
    | refine MemOk.step ?_ (by with_reducible apply turnTile_memOk)
    | refine MemOk.pair22 (by assumption) ?_ (by with_reducible apply turnTile_memOk)
    | refine MemOk.step ?_ (by with_reducible apply readTile_memOk)
    | refine MemOk.pair22 (by assumption) ?_ (by with_reducible apply readTile_memOk)
    | split
    | dsimp only

theorem applyFold_memOk (f b vals s) : MemOk s (applyFold f b vals s) := by
  unfold applyFold
  repeat' first
    | with_reducible apply MemOk.refl
    | with_reducible apply MemOk.ite <;> intro _
    | refine MemOk.step ?_ (by with_reducible apply putTile_memOk)
    | split
    | dsimp only

theorem sweepTile_memOk (c t p b s) : MemOk s (sweepTile c t p b s) := by
  unfold sweepTile
  repeat' first
    | with_reducible apply MemOk.refl
    | with_reducible apply MemOk.ite <;> intro _
    | refine MemOk.step ?_ (by with_reducible apply turnTile_memOk)
    | refine MemOk.pair22 (by assumption) ?_ (by with_reducible apply turnTile_memOk)
    | refine MemOk.step ?_ (by with_reducible apply putTile_memOk)
    | refine MemOk.frame ?_ (by with_reducible apply State.setAcc_frame) (by decide)
    | split
    | dsimp only

theorem sweepOld_memOk (at_ x s) : MemOk s (sweepOld at_ x s) := by
  unfold sweepOld
  repeat' first
    | with_reducible apply MemOk.refl
    | with_reducible apply MemOk.ite <;> intro _
    | refine MemOk.step ?_ (by with_reducible apply readTile_memOk)
    | refine MemOk.pair22 (by assumption) ?_ (by with_reducible apply readTile_memOk)
    | refine MemOk.step ?_ (by with_reducible apply emitTile_memOk)
    | refine MemOk.frame ?_ (by with_reducible apply raise_frame) (by decide)
    | refine MemOk.frame ?_ (by with_reducible apply State.setAcc_frame) (by decide)
    | with_reducible refine MemOk.foldl ?_ (fun _ _ => ?_)
    | with_reducible refine MemOk.foldl2 ?_ (fun _ _ => ?_)
    | split
    | dsimp only

theorem startNew_memOk (at_ s) : MemOk s (startNew at_ s) := by
  unfold startNew
  repeat' first
    | with_reducible apply MemOk.refl
    | with_reducible apply MemOk.ite <;> intro _
    | refine MemOk.step ?_ (by with_reducible apply startTile_memOk)
    | refine MemOk.pair22 (by assumption) ?_ (by with_reducible apply startTile_memOk)
    | refine MemOk.step ?_ (by with_reducible apply putTile_memOk)
    | refine MemOk.frame ?_ (by with_reducible apply State.setAcc_frame) (by decide)
    | with_reducible refine MemOk.foldl ?_ (fun _ _ => ?_)
    | with_reducible refine MemOk.foldl2 ?_ (fun _ _ => ?_)
    | split
    | dsimp only

theorem sweepOwed_memOk (s0) : MemOk s0 (sweepOwed s0) := by
  unfold sweepOwed
  repeat' first
    | with_reducible apply MemOk.refl
    | with_reducible apply MemOk.ite <;> intro _
    | refine MemOk.frame ?_ (by with_reducible apply owedNow_frame) (by decide)
    | refine MemOk.step ?_ (by with_reducible apply sweepOld_memOk)
    | refine MemOk.step ?_ (by with_reducible apply startNew_memOk)
    | with_reducible refine MemOk.foldl ?_ (fun _ _ => ?_)
    | with_reducible refine MemOk.foldl2 ?_ (fun _ _ => ?_)
    | split
    | dsimp only

theorem accCommit_memOk (at_ old new s) : MemOk s (accCommit at_ old new s) := by
  unfold accCommit
  repeat' first
    | with_reducible apply MemOk.refl
    | with_reducible apply MemOk.ite <;> intro _
    | refine MemOk.frame ?_ (by with_reducible apply dropDumps_frame) (by decide)
    | refine MemOk.step ?_ (by with_reducible apply sweepOwed_memOk)
    | refine MemOk.frame ?_ (by with_reducible apply State.setAcc_frame) (by decide)
    | split
    | dsimp only

theorem accApply_memOk (x s) : MemOk s (accApply x s) := by
  unfold accApply
  repeat' first
    | with_reducible apply MemOk.refl
    | with_reducible apply MemOk.ite <;> intro _
    | refine MemOk.frame ?_ (by with_reducible apply State.noteUnit_frame) (by decide)
    | refine MemOk.step ?_ (by with_reducible apply accCommit_memOk)
    | refine MemOk.step ?_ (by with_reducible apply sweepOwed_memOk)
    | refine MemOk.frame ?_ (by with_reducible apply State.noteApplied_frame) (by decide)
    | split
    | dsimp only

theorem foldOp_memOk (st ecc s0) : MemOk s0 (foldOp st ecc s0) := by
  unfold foldOp
  split
  · exact MemOk.refl _
  · next f _ =>
    have h := accApply_memOk f.x0 s0
    dsimp only
    generalize accApply f.x0 s0 = s at h ⊢
    refine MemOk.ite (fun _ => h) (fun _ => MemOk.ite (fun _ => h.frame (queueFull_frame ..) (by decide)) (fun _ => ?_))
    generalize s.intAt (s.setAt f.x0) f.c f.x0 = p
    generalize hs : ({ s with fab := { s.fab with folds := s.fab.folds.filter fun g => g.seq != f.seq } } : State) = s1
    have g := hs ▸ h.frame (Frame.with_fab s _) (by decide)
    have k := openTile_memOk f.c f.tile p ecc s1
    generalize openTile f.c f.tile p ecc s1 = o at k ⊢
    obtain ⟨b, vals, s2⟩ := o
    exact MemOk.ite (fun _ => (g.step k).step (applyFold_memOk ..)) (fun _ => g)

theorem noticeTile_memOk (c p t s) : MemOk s (noticeTile c p t s) := by
  unfold noticeTile
  repeat' first
    | with_reducible apply MemOk.refl
    | with_reducible apply MemOk.ite <;> intro _
    | refine MemOk.step ?_ (by with_reducible apply openTile_memOk)
    | refine MemOk.pair22 (by assumption) ?_ (by with_reducible apply openTile_memOk)
    | refine MemOk.step ?_ (by with_reducible apply putTile_memOk)
    | split
    | dsimp only

theorem noticeOp_memOk (s0) : MemOk s0 (noticeOp s0) := by
  unfold noticeOp
  split
  · exact MemOk.refl _
  · next n r _ =>
    dsimp only
    refine MemOk.ite (fun _ => MemOk.refl _) (fun _ => ?_)
    have h := accApply_memOk n.x0 s0
    generalize accApply n.x0 s0 = s at h ⊢
    refine MemOk.ite (fun _ => ?_) (fun _ => MemOk.ite (fun _ => h) (fun _ => h.frame (queueFull_frame ..) (by decide)))
    exact MemOk.foldl ((h.frame (Frame.with_fab s _) (by decide)).frame (exclRun_frame ..) (by decide))
      (fun v t => noticeTile_memOk ..)

theorem sweepChan_memOk (m x0 c s) : MemOk s (sweepChan m x0 c s) := by
  unfold sweepChan
  repeat' first
    | with_reducible apply MemOk.refl
    | with_reducible apply MemOk.ite <;> intro _
    | refine MemOk.step ?_ (by with_reducible apply sweepTile_memOk)
    | refine MemOk.frame ?_ (by with_reducible apply raise_frame) (by decide)
    | with_reducible refine MemOk.foldl ?_ (fun _ _ => ?_)
    | with_reducible refine MemOk.foldl2 ?_ (fun _ _ => ?_)
    | split
    | dsimp only

theorem accReset_memOk (st s) : MemOk s (accReset st s) := by
  unfold accReset
  repeat' first
    | with_reducible apply MemOk.refl
    | with_reducible apply MemOk.ite <;> intro _
    | refine MemOk.step ?_ (by with_reducible apply putBook_memOk)
    | refine MemOk.frame ?_ (by with_reducible apply State.setAcc_frame) (by decide)
    | refine MemOk.frame ?_ (by with_reducible apply raise_frame) (by decide)
    | with_reducible refine MemOk.foldl ?_ (fun _ _ => ?_)
    | with_reducible refine MemOk.foldl2 ?_ (fun _ _ => ?_)
    | split
    | dsimp only

end Sys2Proof.Machine
end

