-- ==== Sys2Proof/Laws/MemOkFabric.lean ====
section
/-! SUPPORT. The operations of Machine/Fabric.lean keep the memory's canonical form. -/

set_option Elab.async false

namespace Sys2Proof.Machine

open Sys2Proof

theorem stagingLoad_memOk (c x0 strip ecc s) : MemOk s (stagingLoad c x0 strip ecc s) := by
  unfold stagingLoad
  repeat' first
    | with_reducible apply MemOk.refl
    | with_reducible apply MemOk.ite <;> intro _
    | refine MemOk.step ?_ (by with_reducible apply touchInter_memOk)
    | refine MemOk.step ?_ (by with_reducible apply streamTokens_memOk)
    | refine MemOk.frame ?_ (by with_reducible apply State.setFab_frame) (by decide)
    | refine MemOk.step ?_ (by with_reducible apply dramCheck_memOk)
    | refine MemOk.pair2 (by assumption) ?_ (by with_reducible apply dramCheck_memOk)
    | refine MemOk.frame ?_ (by with_reducible apply exclGroup_frame) (by decide)
    | refine MemOk.frame ?_ (by with_reducible apply State.setAcc_frame) (by decide)
    | with_reducible refine MemOk.foldl ?_ (fun _ _ => ?_)
    | with_reducible refine MemOk.foldl2 ?_ (fun _ _ => ?_)
    | split
    | dsimp only

theorem windowEnd_memOk (s) : MemOk s (windowEnd s) := by
  unfold windowEnd
  repeat' first
    | with_reducible apply MemOk.refl
    | with_reducible apply MemOk.ite <;> intro _
    | refine MemOk.frame ?_ (by with_reducible apply clusterEnd_frame) (by decide)
    | refine MemOk.fpair2 (by assumption) ?_ (by with_reducible apply clusterEnd_frame) (by decide)
    | refine MemOk.step ?_ (by with_reducible apply accApply_memOk)
    | refine MemOk.frame ?_ (by with_reducible apply State.setFab_frame) (by decide)
    | refine MemOk.step ?_ (by with_reducible apply sweepChan_memOk)
    | with_reducible refine MemOk.foldl ?_ (fun _ _ => ?_)
    | with_reducible refine MemOk.foldl2 ?_ (fun _ _ => ?_)
    | with_reducible refine MemOk.foldl22 ?_ (fun _ _ => ?_)
    | split
    | dsimp only

end Sys2Proof.Machine
end

