-- ==== Sys2Proof/Laws/MemOkOutput.lean ====
section
/-! SUPPORT. The operations of Machine/Output.lean keep the memory's canonical form. -/

set_option Elab.async false

namespace Sys2Proof.Machine

open Sys2Proof

theorem dumpPort_memOk (d first n s) : MemOk s (dumpPort d first n s) := by
  unfold dumpPort
  repeat' first
    | with_reducible apply MemOk.refl
    | with_reducible apply MemOk.ite <;> intro _
    | refine MemOk.step ?_ (by with_reducible apply usePort_memOk)
    | with_reducible refine MemOk.foldl ?_ (fun _ _ => ?_)
    | with_reducible refine MemOk.foldl2 ?_ (fun _ _ => ?_)
    | split
    | dsimp only

theorem dumpReads_memOk (d ecc s) : MemOk s (dumpReads d ecc s) := by
  unfold dumpReads
  repeat' first
    | with_reducible apply MemOk.refl
    | with_reducible apply MemOk.ite <;> intro _
    | refine MemOk.step ?_ (by with_reducible apply dramCheck_memOk)
    | refine MemOk.pair2 (by assumption) ?_ (by with_reducible apply dramCheck_memOk)
    | refine MemOk.step ?_ (by with_reducible apply setBad_memOk)
    | refine MemOk.frame ?_ (by with_reducible apply State.setAcc_frame) (by decide)
    | with_reducible refine MemOk.foldl ?_ (fun _ _ => ?_)
    | with_reducible refine MemOk.foldl2 ?_ (fun _ _ => ?_)
    | split
    | dsimp only

theorem compressOp_memOk (k hist mismatch reads s0) : MemOk s0 (compressOp k hist mismatch reads s0) := by
  unfold compressOp
  repeat' first
    | with_reducible apply MemOk.refl
    | with_reducible apply MemOk.ite <;> intro _
    | refine MemOk.frame ?_ (by with_reducible apply takeDumps_frame) (by decide)
    | refine MemOk.frame ?_ (by with_reducible apply assemble_frame) (by decide)
    | refine MemOk.step ?_ (by with_reducible apply dumpReads_memOk)
    | refine MemOk.step ?_ (by with_reducible apply dumpPort_memOk)
    | refine MemOk.frame ?_ (by with_reducible apply State.setComp_frame) (by decide)
    | refine MemOk.frame ?_ (by with_reducible apply historyCheck_frame) (by decide)
    | refine MemOk.fpair2 (by assumption) ?_ (by with_reducible apply historyCheck_frame) (by decide)
    | refine MemOk.frame ?_ (by with_reducible apply raise_frame) (by decide)
    | refine MemOk.frame ?_ (by with_reducible apply countBytes_frame) (by decide)
    | refine MemOk.frame ?_ (by with_reducible apply advance_frame) (by decide)
    | split
    | dsimp only

theorem dumpSlotFreed_memOk (c s) : MemOk s (dumpSlotFreed c s) := by
  unfold dumpSlotFreed
  repeat' first
    | with_reducible apply MemOk.refl
    | with_reducible apply MemOk.ite <;> intro _
    | refine MemOk.frame ?_ (by with_reducible apply State.setAcc_frame) (by decide)
    | refine MemOk.step ?_ (by with_reducible apply sweepOwed_memOk)
    | refine MemOk.frame ?_ (by with_reducible apply State.setOut_frame) (by decide)
    | split
    | dsimp only

end Sys2Proof.Machine
end

