-- ==== Sys2Proof/Laws/MemOkBeams.lean ====
section
/-! SUPPORT. The operations of Machine/Beams.lean keep the memory's canonical form. -/

set_option Elab.async false

namespace Sys2Proof.Machine

open Sys2Proof

theorem storeGuarded_memOk (a bs s) : MemOk s (storeGuarded a bs s) := by
  unfold storeGuarded
  repeat' first
    | with_reducible apply MemOk.refl
    | with_reducible apply MemOk.ite <;> intro _
    | refine MemOk.frame ?_ (by with_reducible apply weightRefused_frame) (by decide)
    | refine MemOk.step ?_ (by with_reducible apply storeBytes_memOk)
    | split
    | dsimp only

theorem beamLoads_memOk (m x s) : MemOk s (beamLoads m x s) := by
  unfold beamLoads
  repeat' first
    | with_reducible apply MemOk.refl
    | with_reducible apply MemOk.ite <;> intro _
    | refine MemOk.step ?_ (by with_reducible apply touchInter_memOk)
    | refine MemOk.step ?_ (by with_reducible apply streamTokens_memOk)
    | with_reducible refine MemOk.foldl ?_ (fun _ _ => ?_)
    | with_reducible refine MemOk.foldl2 ?_ (fun _ _ => ?_)
    | split
    | dsimp only

theorem batchStartOp_memOk (x s) : MemOk s (batchStartOp x s) := by
  unfold batchStartOp
  repeat' first
    | with_reducible apply MemOk.refl
    | with_reducible apply MemOk.ite <;> intro _
    | refine MemOk.step ?_ (by with_reducible apply beamLoads_memOk)
    | refine MemOk.frame ?_ (by with_reducible apply batchOpen_frame) (by decide)
    | split
    | dsimp only

theorem weightReads_memOk (m x ecc s) : MemOk s (weightReads m x ecc s).2 := by
  unfold weightReads
  repeat' first
    | with_reducible apply MemOk.refl
    | with_reducible apply MemOk.ite <;> intro _
    | with_reducible apply MemOk.ite2 <;> intro _
    | refine MemOk.step ?_ (by with_reducible apply dramCheck_memOk)
    | refine MemOk.pair2 (by assumption) ?_ (by with_reducible apply dramCheck_memOk)
    | refine MemOk.frame ?_ (by with_reducible apply eccCheck_frame) (by decide)
    | refine MemOk.fpair22 (by assumption) ?_ (by with_reducible apply eccCheck_frame) (by decide)
    | refine MemOk.frame ?_ (by with_reducible apply raiseT_frame) (by decide)
    | refine MemOk.frame ?_ (by with_reducible apply State.setFab_frame) (by decide)
    | with_reducible refine MemOk.foldl ?_ (fun _ _ => ?_)
    | with_reducible refine MemOk.foldl2 ?_ (fun _ _ => ?_)
    | with_reducible refine MemOk.foldl22 ?_ (fun _ _ => ?_)
    | split
    | dsimp only

theorem finishBatch_memOk (x cut0 ecc s) : MemOk s (finishBatch x cut0 ecc s) := by
  unfold finishBatch
  repeat' first
    | with_reducible apply MemOk.refl
    | with_reducible apply MemOk.ite <;> intro _
    | refine MemOk.step ?_ (by with_reducible apply weightReads_memOk)
    | refine MemOk.pair2 (by assumption) ?_ (by with_reducible apply weightReads_memOk)
    | refine MemOk.frame ?_ (by with_reducible apply beamRows_frame) (by decide)
    | refine MemOk.fpair2 (by assumption) ?_ (by with_reducible apply beamRows_frame) (by decide)
    | refine MemOk.frame ?_ (by with_reducible apply addPowers_frame) (by decide)
    | refine MemOk.frame ?_ (by with_reducible apply emitVoltages_frame) (by decide)
    | refine MemOk.frame ?_ (by with_reducible apply raise_frame) (by decide)
    | refine MemOk.frame ?_ (by with_reducible apply State.setCl_frame) (by decide)
    | refine MemOk.frame ?_ (by with_reducible apply State.setFab_frame) (by decide)
    | with_reducible refine MemOk.foldl ?_ (fun _ _ => ?_)
    | with_reducible refine MemOk.foldl2 ?_ (fun _ _ => ?_)
    | split
    | dsimp only

theorem batchDoneOp_memOk (ecc s) : MemOk s (batchDoneOp ecc s) := by
  unfold batchDoneOp
  repeat' first
    | with_reducible apply MemOk.refl
    | with_reducible apply MemOk.ite <;> intro _
    | refine MemOk.step ?_ (by with_reducible apply finishBatch_memOk)
    | split
    | dsimp only

theorem beamDeadlineOp_memOk (x late s) : MemOk s (beamDeadlineOp x late s) := by
  unfold beamDeadlineOp
  repeat' first
    | with_reducible apply MemOk.refl
    | with_reducible apply MemOk.ite <;> intro _
    | refine MemOk.step ?_ (by with_reducible apply finishBatch_memOk)
    | refine MemOk.frame ?_ (by with_reducible apply batchOpen_frame) (by decide)
    | split
    | dsimp only

end Sys2Proof.Machine
end

