-- ==== Sys2Proof/Laws/MemOkDram.lean ====
section
/-! SUPPORT. The operations of Machine/Dram.lean keep the memory's canonical form. -/

set_option Elab.async false

namespace Sys2Proof.Machine

open Sys2Proof

theorem wipeStack_memOk (n s) : MemOk s (wipeStack n s) := ⟨fun w => Tab.wf_filter _ _ _ w⟩

theorem trainOp_memOk (n s) : MemOk s (trainOp n s) := by
  unfold trainOp
  repeat' first
    | with_reducible apply MemOk.refl
    | with_reducible apply MemOk.ite <;> intro _
    | refine MemOk.step ?_ (by with_reducible apply State.setStk_memOk)
    | split
    | dsimp only

theorem trainFail_memOk (n s) : MemOk s (trainFail n s) := by
  unfold trainFail
  repeat' first
    | with_reducible apply MemOk.refl
    | with_reducible apply MemOk.ite <;> intro _
    | refine MemOk.frame ?_ (by with_reducible apply raise_frame) (by decide)
    | refine MemOk.step ?_ (by with_reducible apply State.setStk_memOk)
    | split
    | dsimp only

theorem trainDoneOp_memOk (n pass s) : MemOk s (trainDoneOp n pass s) := by
  unfold trainDoneOp
  repeat' first
    | with_reducible apply MemOk.refl
    | with_reducible apply MemOk.ite <;> intro _
    | refine MemOk.step ?_ (by with_reducible apply wipeStack_memOk)
    | refine MemOk.step ?_ (by with_reducible apply State.setStk_memOk)
    | refine MemOk.step ?_ (by with_reducible apply trainFail_memOk)
    | split
    | dsimp only

theorem refreshOp_memOk (n pc bank issue s) : MemOk s (refreshOp n pc bank issue s) := by
  unfold refreshOp
  repeat' first
    | with_reducible apply MemOk.refl
    | with_reducible apply MemOk.ite <;> intro _
    | refine MemOk.step ?_ (by with_reducible apply State.setStk_memOk)
    | split
    | dsimp only

theorem tempOp_memOk (n t s) : MemOk s (tempOp n t s) := by
  unfold tempOp
  repeat' first
    | with_reducible apply MemOk.refl
    | with_reducible apply MemOk.ite <;> intro _
    | refine MemOk.step ?_ (by with_reducible apply State.setStk_memOk)
    | refine MemOk.frame ?_ (by with_reducible apply raise_frame) (by decide)
    | split
    | dsimp only

theorem dramRead_memOk (n x len port ecc s) : MemOk s (dramRead n x len port ecc s).2.2 := by
  unfold dramRead
  repeat' first
    | with_reducible apply MemOk.refl
    | with_reducible apply MemOk.ite <;> intro _
    | with_reducible apply MemOk.ite22 <;> intro _
    | refine MemOk.step ?_ (by with_reducible apply dramCheck_memOk)
    | refine MemOk.pair2 (by assumption) ?_ (by with_reducible apply dramCheck_memOk)
    | with_reducible refine MemOk.foldl ?_ (fun _ _ => ?_)
    | with_reducible refine MemOk.foldl2 ?_ (fun _ _ => ?_)
    | with_reducible refine MemOk.foldl22 ?_ (fun _ _ => ?_)
    | split
    | dsimp only

theorem mergeReads_memOk (n x len port ecc s) : MemOk s (mergeReads n x len port ecc s) := by
  unfold mergeReads
  repeat' first
    | with_reducible apply MemOk.refl
    | with_reducible apply MemOk.ite <;> intro _
    | refine MemOk.step ?_ (by with_reducible apply dramCheck_memOk)
    | refine MemOk.pair2 (by assumption) ?_ (by with_reducible apply dramCheck_memOk)
    | with_reducible refine MemOk.foldl ?_ (fun _ _ => ?_)
    | with_reducible refine MemOk.foldl2 ?_ (fun _ _ => ?_)
    | split
    | dsimp only

theorem dramWrite_memOk (n x port steward data ecc s) : MemOk s (dramWrite n x port steward data ecc s).2 := by
  unfold dramWrite
  repeat' first
    | with_reducible apply MemOk.refl
    | with_reducible apply MemOk.ite <;> intro _
    | with_reducible apply MemOk.ite2 <;> intro _
    | refine MemOk.frame ?_ (by with_reducible apply raise_frame) (by decide)
    | refine MemOk.step ?_ (by with_reducible apply storeGuarded_memOk)
    | refine MemOk.step ?_ (by with_reducible apply mergeReads_memOk)
    | split
    | dsimp only

theorem reqServe_memOk (n r s) : MemOk s (reqServe n r s) := by
  unfold reqServe
  repeat' first
    | with_reducible apply MemOk.refl
    | with_reducible apply MemOk.ite <;> intro _
    | refine MemOk.frame ?_ (by with_reducible apply raise_frame) (by decide)
    | refine MemOk.step ?_ (by with_reducible apply dramWrite_memOk)
    | refine MemOk.pair2 (by assumption) ?_ (by with_reducible apply dramWrite_memOk)
    | refine MemOk.frame ?_ (by with_reducible apply reqReply_frame) (by decide)
    | refine MemOk.step ?_ (by with_reducible apply dramRead_memOk)
    | refine MemOk.pair22 (by assumption) ?_ (by with_reducible apply dramRead_memOk)
    | split
    | dsimp only

theorem serveGo_memOk (n y1 s) : MemOk s (serveGo n y1 s) := by
  induction y1 generalizing s with
  | zero => exact MemOk.refl _
  | succ n ih =>
    unfold serveGo
    repeat' first
    | with_reducible apply MemOk.refl
    | refine MemOk.step ?_ (by with_reducible apply ih)
    | with_reducible apply MemOk.ite <;> intro _
    | refine MemOk.step ?_ (by with_reducible apply reqServe_memOk)
    | refine MemOk.step ?_ (by with_reducible apply usePort_memOk)
    | refine MemOk.step ?_ (by with_reducible apply State.setStk_memOk)
    | split
    | dsimp only

theorem serveNow_memOk (n p s) : MemOk s (serveNow n p s) := by
  unfold serveNow
  repeat' first
    | with_reducible apply MemOk.refl
    | with_reducible apply MemOk.ite <;> intro _
    | refine MemOk.step ?_ (by with_reducible apply reqServe_memOk)
    | refine MemOk.step ?_ (by with_reducible apply usePort_memOk)
    | refine MemOk.step ?_ (by with_reducible apply State.setStk_memOk)
    | with_reducible refine MemOk.foldl ?_ (fun _ _ => ?_)
    | with_reducible refine MemOk.foldl2 ?_ (fun _ _ => ?_)
    | split
    | dsimp only

theorem serveBefore_memOk (n x len s) : MemOk s (serveBefore n x len s) := by
  unfold serveBefore
  repeat' first
    | with_reducible apply MemOk.refl
    | with_reducible apply MemOk.ite <;> intro _
    | refine MemOk.step ?_ (by with_reducible apply serveNow_memOk)
    | split
    | dsimp only

theorem foldWay_memOk (st s) : MemOk s (foldWay st s) := by
  unfold foldWay
  repeat' first
    | with_reducible apply MemOk.refl
    | with_reducible apply MemOk.ite <;> intro _
    | refine MemOk.step ?_ (by with_reducible apply serveBefore_memOk)
    | split
    | dsimp only

theorem serveStack_memOk (n s) : MemOk s (serveStack n s) := by
  unfold serveStack
  repeat' first
    | with_reducible apply MemOk.refl
    | with_reducible apply MemOk.ite <;> intro _
    | refine MemOk.step ?_ (by with_reducible apply serveGo_memOk)
    | refine MemOk.step ?_ (by with_reducible apply State.setStk_memOk)
    | split
    | dsimp only

theorem arriveReq_memOk (n r s) : MemOk s (arriveReq n r s) := by
  unfold arriveReq
  repeat' first
    | with_reducible apply MemOk.refl
    | with_reducible apply MemOk.ite <;> intro _
    | refine MemOk.step ?_ (by with_reducible apply serveStack_memOk)
    | refine MemOk.step ?_ (by with_reducible apply State.setStk_memOk)
    | refine MemOk.frame ?_ (by with_reducible apply reqReply_frame) (by decide)
    | split
    | dsimp only

theorem stackReset_memOk (n s) : MemOk s (stackReset n s) := by
  unfold stackReset
  repeat' first
    | with_reducible apply MemOk.refl
    | with_reducible apply MemOk.ite <;> intro _
    | refine MemOk.step ?_ (by with_reducible apply trainOp_memOk)
    | refine MemOk.step ?_ (by with_reducible apply reqServe_memOk)
    | refine MemOk.frame ?_ (by with_reducible apply reqReply_frame) (by decide)
    | refine MemOk.step ?_ (by with_reducible apply State.setStk_memOk)
    | with_reducible refine MemOk.foldl ?_ (fun _ _ => ?_)
    | with_reducible refine MemOk.foldl2 ?_ (fun _ _ => ?_)
    | split
    | dsimp only

theorem stackCommit_memOk (n new s) : MemOk s (stackCommit n new s) := by
  unfold stackCommit
  repeat' first
    | with_reducible apply MemOk.refl
    | with_reducible apply MemOk.ite <;> intro _
    | refine MemOk.step ?_ (by with_reducible apply serveStack_memOk)
    | refine MemOk.step ?_ (by with_reducible apply State.setStk_memOk)
    | with_reducible refine MemOk.foldl ?_ (fun _ _ => ?_)
    | with_reducible refine MemOk.foldl2 ?_ (fun _ _ => ?_)
    | split
    | dsimp only

theorem scrubOp_memOk (n e s) : MemOk s (scrubOp n e s) := by
  unfold scrubOp
  repeat' first
    | with_reducible apply MemOk.refl
    | with_reducible apply MemOk.ite <;> intro _
    | refine MemOk.step ?_ (by with_reducible apply dramCheck_memOk)
    | refine MemOk.pair2 (by assumption) ?_ (by with_reducible apply dramCheck_memOk)
    | refine MemOk.step ?_ (by with_reducible apply flipWord_memOk)
    | refine MemOk.step ?_ (by with_reducible apply State.setStk_memOk)
    | split
    | dsimp only

end Sys2Proof.Machine
end

