-- ==== Sys2Proof/Laws/MemOkBus.lean ====
section
/-! SUPPORT. The operations of Machine/Bus.lean keep the memory's canonical form. -/

set_option Elab.async false

namespace Sys2Proof.Machine

open Sys2Proof

theorem checkTallyWord_memOk (c prog x e s0) : MemOk s0 (checkTallyWord c prog x e s0).2 := by
  unfold checkTallyWord
  repeat' first
    | with_reducible apply MemOk.refl
    | with_reducible apply MemOk.ite <;> intro _
    | with_reducible apply MemOk.ite2 <;> intro _
    | refine MemOk.step ?_ (by with_reducible apply flipWord_memOk)
    | refine MemOk.frame ?_ (by with_reducible apply eccCheck_frame) (by decide)
    | refine MemOk.fpair22 (by assumption) ?_ (by with_reducible apply eccCheck_frame) (by decide)
    | refine MemOk.frame ?_ (by with_reducible apply raiseT_frame) (by decide)
    | refine MemOk.frame ?_ (by with_reducible apply State.setCore_frame) (by decide)
    | split
    | dsimp only

theorem checkTallyWords_memOk (c prog x n ecc s) : MemOk s (checkTallyWords c prog x n ecc s).2 := by
  unfold checkTallyWords
  repeat' first
    | with_reducible apply MemOk.refl
    | with_reducible apply MemOk.ite <;> intro _
    | with_reducible apply MemOk.ite2 <;> intro _
    | refine MemOk.step ?_ (by with_reducible apply checkTallyWord_memOk)
    | refine MemOk.pair2 (by assumption) ?_ (by with_reducible apply checkTallyWord_memOk)
    | with_reducible refine MemOk.foldl ?_ (fun _ _ => ?_)
    | with_reducible refine MemOk.foldl2 ?_ (fun _ _ => ?_)
    | with_reducible refine MemOk.foldl22 ?_ (fun _ _ => ?_)
    | split
    | dsimp only

theorem tallyRead_memOk (c prog a n ecc s) : MemOk s (tallyRead c prog a n ecc s).2.2 := by
  unfold tallyRead
  repeat' first
    | with_reducible apply MemOk.refl
    | with_reducible apply MemOk.ite <;> intro _
    | with_reducible apply MemOk.ite22 <;> intro _
    | refine MemOk.frame ?_ (by with_reducible apply raise_frame) (by decide)
    | refine MemOk.step ?_ (by with_reducible apply checkTallyWords_memOk)
    | refine MemOk.pair2 (by assumption) ?_ (by with_reducible apply checkTallyWords_memOk)
    | split
    | dsimp only

theorem busRead_memOk (m a n priv ecc s) : MemOk s (busRead m a n priv ecc s).2.2 := by
  unfold busRead
  repeat' first
    | with_reducible apply MemOk.refl
    | with_reducible apply MemOk.ite <;> intro _
    | with_reducible apply MemOk.ite22 <;> intro _
    | refine MemOk.frame ?_ (by with_reducible apply deadLetter_frame) (by decide)
    | refine MemOk.frame ?_ (by with_reducible apply sramRead_frame) (by decide)
    | refine MemOk.fpair22 (by assumption) ?_ (by with_reducible apply sramRead_frame) (by decide)
    | refine MemOk.step ?_ (by with_reducible apply tallyRead_memOk)
    | refine MemOk.pair22 (by assumption) ?_ (by with_reducible apply tallyRead_memOk)
    | refine MemOk.step ?_ (by with_reducible apply dramRead_memOk)
    | refine MemOk.pair22 (by assumption) ?_ (by with_reducible apply dramRead_memOk)
    | refine MemOk.step ?_ (by with_reducible apply usePort_memOk)
    | refine MemOk.step ?_ (by with_reducible apply serveBefore_memOk)
    | split
    | dsimp only

theorem storeRuns_memOk (a d strb s) : MemOk s (storeRuns a d strb s) := by
  unfold storeRuns
  repeat' first
    | with_reducible apply MemOk.refl
    | with_reducible apply MemOk.ite <;> intro _
    | refine MemOk.step ?_ (by with_reducible apply storeBytes_memOk)
    | with_reducible refine MemOk.foldl ?_ (fun _ _ => ?_)
    | with_reducible refine MemOk.foldl2 ?_ (fun _ _ => ?_)
    | split
    | dsimp only

theorem dramStore_memOk (n x port steward d strb s) : MemOk s (dramStore n x port steward d strb s).2 := by
  unfold dramStore
  repeat' first
    | with_reducible apply MemOk.refl
    | with_reducible apply MemOk.ite <;> intro _
    | with_reducible apply MemOk.ite2 <;> intro _
    | refine MemOk.frame ?_ (by with_reducible apply raise_frame) (by decide)
    | refine MemOk.step ?_ (by with_reducible apply storeGuarded_memOk)
    | refine MemOk.step ?_ (by with_reducible apply mergeReads_memOk)
    | with_reducible refine MemOk.foldl ?_ (fun _ _ => ?_)
    | with_reducible refine MemOk.foldl2 ?_ (fun _ _ => ?_)
    | with_reducible refine MemOk.foldl22 ?_ (fun _ _ => ?_)
    | split
    | dsimp only

theorem busWrite_memOk (m a priv d strb s) : MemOk s (busWrite m a priv d strb s).2 := by
  have same : MemOk s s := MemOk.refl _
  unfold busWrite
  generalize busTarget s.ctrl.remap a = q
  obtain ⟨t, x⟩ := q
  refine MemOk.ite2 (fun _ => MemOk.of_frame (deadLetter_frame ..) (by decide)) (fun _ => ?_)
  cases t with
  | sram => exact MemOk.ite2 (fun _ => storeRuns_memOk ..) (fun _ => same)
  | regs =>
    exact MemOk.ite2 (fun _ => MemOk.ite (fun _ => same) (fun _ => MemOk.of_frame (configIgnored_frame ..) (by decide)))
      (fun _ => same)
  | tally c prog =>
    exact MemOk.ite2 (fun _ => MemOk.of_frame (raise_frame ..) (by decide)) (fun _ => storeRuns_memOk ..)
  | enclave =>
    exact MemOk.ite2 (fun _ => MemOk.of_frame (pageWrite_frame ..) (by decide)) (fun _ => same)
  | store => exact MemOk.of_frame (storeStore_frame ..) (by decide)
  | dram => exact MemOk.ite2 (fun _ => same) (fun _ => ((serveBefore_memOk ..).step (usePort_memOk ..)).step (dramStore_memOk ..))
  | _ => exact MemOk.of_frame (deadLetter_frame ..) (by decide)

theorem performReq_memOk (r s0) : MemOk s0 (performReq r s0) := by
  unfold performReq
  repeat' first
    | with_reducible apply MemOk.refl
    | with_reducible apply MemOk.ite <;> intro _
    | refine MemOk.frame ?_ (by with_reducible apply noteGrant_frame) (by decide)
    | refine MemOk.step ?_ (by with_reducible apply arriveReq_memOk)
    | refine MemOk.frame ?_ (by with_reducible apply State.setCtrl_frame) (by decide)
    | refine MemOk.frame ?_ (by with_reducible apply busAnswer_frame) (by decide)
    | refine MemOk.frame ?_ (by with_reducible apply deadLetter_frame) (by decide)
    | refine MemOk.step ?_ (by with_reducible apply busWrite_memOk)
    | refine MemOk.pair2 (by assumption) ?_ (by with_reducible apply busWrite_memOk)
    | refine MemOk.frame ?_ (by with_reducible apply setRemap_frame) (by decide)
    | refine MemOk.step ?_ (by with_reducible apply busRead_memOk)
    | refine MemOk.pair22 (by assumption) ?_ (by with_reducible apply busRead_memOk)
    | split
    | dsimp only

theorem matrixGo_memOk (y0 s) : MemOk s (matrixGo y0 s) := by
  induction y0 generalizing s with
  | zero => exact MemOk.refl _
  | succ n ih =>
    unfold matrixGo
    repeat' first
    | with_reducible apply MemOk.refl
    | refine MemOk.step ?_ (by with_reducible apply ih)
    | with_reducible apply MemOk.ite <;> intro _
    | refine MemOk.frame ?_ (by with_reducible apply State.setCtrl_frame) (by decide)
    | refine MemOk.step ?_ (by with_reducible apply performReq_memOk)
    | split
    | dsimp only

theorem matrixRun_memOk (s) : MemOk s (matrixRun s) := by
  unfold matrixRun
  repeat' first
    | with_reducible apply MemOk.refl
    | with_reducible apply MemOk.ite <;> intro _
    | refine MemOk.step ?_ (by with_reducible apply matrixGo_memOk)
    | split
    | dsimp only

theorem issueReq_memOk (r s) : MemOk s (issueReq r s) := by
  unfold issueReq
  repeat' first
    | with_reducible apply MemOk.refl
    | with_reducible apply MemOk.ite <;> intro _
    | refine MemOk.step ?_ (by with_reducible apply matrixRun_memOk)
    | refine MemOk.frame ?_ (by with_reducible apply State.setCtrl_frame) (by decide)
    | split
    | dsimp only

theorem issueBus_memOk (m q ecc s) : MemOk s (issueBus m q ecc s) := by
  unfold issueBus
  repeat' first
    | with_reducible apply MemOk.refl
    | with_reducible apply MemOk.ite <;> intro _
    | refine MemOk.step ?_ (by with_reducible apply issueReq_memOk)
    | split
    | dsimp only

theorem forceReqs_memOk (k m s) : MemOk s (forceReqs k m s) := by
  unfold forceReqs
  repeat' first
    | with_reducible apply MemOk.refl
    | with_reducible apply MemOk.ite <;> intro _
    | refine MemOk.step ?_ (by with_reducible apply serveNow_memOk)
    | split
    | dsimp only

theorem settleReqs_memOk (m id y2 s) : MemOk s (settleReqs m id y2 s) := by
  induction y2 generalizing s with
  | zero => exact MemOk.refl _
  | succ n ih =>
    unfold settleReqs
    repeat' first
    | with_reducible apply MemOk.refl
    | refine MemOk.step ?_ (by with_reducible apply ih)
    | with_reducible apply MemOk.ite <;> intro _
    | refine MemOk.step ?_ (by with_reducible apply matrixRun_memOk)
    | refine MemOk.step ?_ (by with_reducible apply forceReqs_memOk)
    | with_reducible refine MemOk.forRange ?_ (fun _ _ => ?_)
    | split
    | dsimp only

theorem ownGrant_memOk (m id a n write s) : MemOk s (ownGrant m id a n write s) := by
  unfold ownGrant
  repeat' first
    | with_reducible apply MemOk.refl
    | with_reducible apply MemOk.ite <;> intro _
    | refine MemOk.frame ?_ (by with_reducible apply noteGrant_frame) (by decide)
    | refine MemOk.step ?_ (by with_reducible apply settleReqs_memOk)
    | split
    | dsimp only

theorem masterRead_memOk (m id a n priv ecc s) : MemOk s (masterRead m id a n priv ecc s).2.2 := by
  unfold masterRead
  repeat' first
    | with_reducible apply MemOk.refl
    | with_reducible apply MemOk.ite <;> intro _
    | with_reducible apply MemOk.ite22 <;> intro _
    | refine MemOk.step ?_ (by with_reducible apply busRead_memOk)
    | refine MemOk.pair22 (by assumption) ?_ (by with_reducible apply busRead_memOk)
    | refine MemOk.step ?_ (by with_reducible apply ownGrant_memOk)
    | split
    | dsimp only

theorem masterWrite_memOk (m id a priv d s) : MemOk s (masterWrite m id a priv d s).2 :=
  (ownGrant_memOk ..).step (busWrite_memOk ..)

theorem atService_memOk (w f s) (h : MemOk s (f s)) : MemOk s (atService w f s) :=
  MemOk.ite (fun _ => MemOk.of_frame (Frame.with_dict s _) (by decide)) (fun _ => h)

theorem deadAccessOp_memOk (m id a write n s) : MemOk s (deadAccessOp m id a write n s) := by
  unfold deadAccessOp
  repeat' first
    | with_reducible apply MemOk.refl
    | with_reducible apply MemOk.ite <;> intro _
    | refine MemOk.step ?_ (by with_reducible apply issueReq_memOk)
    | split
    | dsimp only

theorem requestOp_memOk (n port m id x len wr late ecc s) : MemOk s (requestOp n port m id x len wr late ecc s) := by
  unfold requestOp
  repeat' first
    | with_reducible apply MemOk.refl
    | with_reducible apply MemOk.ite <;> intro _
    | refine MemOk.step ?_ (by with_reducible apply issueReq_memOk)
    | refine MemOk.step ?_ (by with_reducible apply arriveReq_memOk)
    | split
    | dsimp only

theorem masterResetOp_memOk (m s) : MemOk s (masterResetOp m s) := by
  unfold masterResetOp
  repeat' first
    | with_reducible apply MemOk.refl
    | with_reducible apply MemOk.ite <;> intro _
    | refine MemOk.frame ?_ (by with_reducible apply State.setCtrl_frame) (by decide)
    | refine MemOk.frame ?_ (by with_reducible apply deadLetter_frame) (by decide)
    | refine MemOk.frame ?_ (by with_reducible apply setRemap_frame) (by decide)
    | refine MemOk.step ?_ (by with_reducible apply busWrite_memOk)
    | refine MemOk.pair2 (by assumption) ?_ (by with_reducible apply busWrite_memOk)
    | refine MemOk.frame ?_ (by with_reducible apply invertEpoch_frame) (by decide)
    | with_reducible refine MemOk.foldl ?_ (fun _ _ => ?_)
    | with_reducible refine MemOk.foldl2 ?_ (fun _ _ => ?_)
    | split
    | dsimp only

theorem remapOp_memOk (s) : MemOk s (remapOp s) := by
  unfold remapOp
  repeat' first
    | with_reducible apply MemOk.refl
    | with_reducible apply MemOk.ite <;> intro _
    | refine MemOk.step ?_ (by with_reducible apply storeBytes_memOk)
    | refine MemOk.frame ?_ (by with_reducible apply State.setCtrl_frame) (by decide)
    | split
    | dsimp only

end Sys2Proof.Machine
end

