-- ==== Sys2Proof/Laws/MemOkCourier.lean ====
section
/-! SUPPORT. The operations of Machine/Courier.lean keep the memory's canonical form. -/

set_option Elab.async false

namespace Sys2Proof.Machine

open Sys2Proof

theorem courRead_memOk (r a n err ecc s) : MemOk s (courRead r a n err ecc s).2 := by
  unfold courRead
  repeat' first
    | with_reducible apply MemOk.refl
    | with_reducible apply MemOk.ite <;> intro _
    | with_reducible apply MemOk.ite2 <;> intro _
    | refine MemOk.step ?_ (by with_reducible apply masterRead_memOk)
    | refine MemOk.pair22 (by assumption) ?_ (by with_reducible apply masterRead_memOk)
    | split
    | dsimp only

theorem readAll_memOk (r ecc y2 s) : MemOk s (readAll r ecc y2 s).2.2 := by
  induction y2 generalizing s with
  | nil => exact MemOk.refl _
  | cons x r ih =>
    unfold readAll
    repeat' first
    | with_reducible apply MemOk.refl
    | refine MemOk.step ?_ (by with_reducible apply ih)
    | refine MemOk.pair22 (by assumption) ?_ (by with_reducible apply ih)
    | with_reducible apply MemOk.ite <;> intro _
    | with_reducible apply MemOk.ite22 <;> intro _
    | refine MemOk.step ?_ (by with_reducible apply courRead_memOk)
    | refine MemOk.pair2 (by assumption) ?_ (by with_reducible apply courRead_memOk)
    | split
    | dsimp only

theorem writeAll_memOk (r y1 y2 s) : MemOk s (writeAll r y1 y2 s).2 := by
  induction y1 generalizing y2 s with
  | nil => exact MemOk.refl _
  | cons x r ih =>
    unfold writeAll
    repeat' first
    | with_reducible apply MemOk.refl
    | refine MemOk.step ?_ (by with_reducible apply ih)
    | refine MemOk.pair2 (by assumption) ?_ (by with_reducible apply ih)
    | with_reducible apply MemOk.ite <;> intro _
    | with_reducible apply MemOk.ite2 <;> intro _
    | refine MemOk.step ?_ (by with_reducible apply masterWrite_memOk)
    | refine MemOk.pair2 (by assumption) ?_ (by with_reducible apply masterWrite_memOk)
    | split
    | dsimp only

theorem someWrites_memOk (r d src s) : MemOk s (someWrites r d src s) := by
  unfold someWrites
  repeat' first
    | with_reducible apply MemOk.refl
    | with_reducible apply MemOk.ite <;> intro _
    | refine MemOk.frame ?_ (by with_reducible apply overlapped_frame) (by decide)
    | refine MemOk.fpair2 (by assumption) ?_ (by with_reducible apply overlapped_frame) (by decide)
    | refine MemOk.frame ?_ (by with_reducible apply State.draw_frame) (by decide)
    | refine MemOk.fpair2 (by assumption) ?_ (by with_reducible apply State.draw_frame) (by decide)
    | refine MemOk.step ?_ (by with_reducible apply writeAll_memOk)
    | refine MemOk.pair2 (by assumption) ?_ (by with_reducible apply writeAll_memOk)
    | split
    | dsimp only

theorem transfer_memOk (r d ecc s) : MemOk s (transfer r d ecc s).2 := by
  unfold transfer
  repeat' first
    | with_reducible apply MemOk.refl
    | with_reducible apply MemOk.ite <;> intro _
    | with_reducible apply MemOk.ite2 <;> intro _
    | refine MemOk.step ?_ (by with_reducible apply readAll_memOk)
    | refine MemOk.pair22 (by assumption) ?_ (by with_reducible apply readAll_memOk)
    | refine MemOk.frame ?_ (by with_reducible apply overlapped_frame) (by decide)
    | refine MemOk.fpair2 (by assumption) ?_ (by with_reducible apply overlapped_frame) (by decide)
    | refine MemOk.step ?_ (by with_reducible apply writeAll_memOk)
    | refine MemOk.pair2 (by assumption) ?_ (by with_reducible apply writeAll_memOk)
    | refine MemOk.step ?_ (by with_reducible apply someWrites_memOk)
    | split
    | dsimp only

theorem cutTransfer_memOk (r ecc s) : MemOk s (cutTransfer r ecc s) := by
  unfold cutTransfer
  repeat' first
    | with_reducible apply MemOk.refl
    | with_reducible apply MemOk.ite <;> intro _
    | refine MemOk.frame ?_ (by with_reducible apply State.draw_frame) (by decide)
    | refine MemOk.fpair2 (by assumption) ?_ (by with_reducible apply State.draw_frame) (by decide)
    | refine MemOk.step ?_ (by with_reducible apply readAll_memOk)
    | refine MemOk.pair22 (by assumption) ?_ (by with_reducible apply readAll_memOk)
    | refine MemOk.step ?_ (by with_reducible apply someWrites_memOk)
    | split
    | dsimp only

theorem fetchedOp_memOk (r ecc s) : MemOk s (fetchedOp r ecc s) := by
  unfold fetchedOp
  repeat' first
    | with_reducible apply MemOk.refl
    | with_reducible apply MemOk.ite <;> intro _
    | refine MemOk.step ?_ (by with_reducible apply courRead_memOk)
    | refine MemOk.pair2 (by assumption) ?_ (by with_reducible apply courRead_memOk)
    | refine MemOk.frame ?_ (by with_reducible apply ringFail_frame) (by decide)
    | refine MemOk.frame ?_ (by with_reducible apply State.setRing_frame) (by decide)
    | split
    | dsimp only

theorem completeOp_memOk (r ecc s) : MemOk s (completeOp r ecc s) := by
  unfold completeOp
  repeat' first
    | with_reducible apply MemOk.refl
    | with_reducible apply MemOk.ite <;> intro _
    | refine MemOk.step ?_ (by with_reducible apply transfer_memOk)
    | refine MemOk.pair2 (by assumption) ?_ (by with_reducible apply transfer_memOk)
    | refine MemOk.frame ?_ (by with_reducible apply ringFail_frame) (by decide)
    | refine MemOk.frame ?_ (by with_reducible apply atDesc_frame) (by decide)
    | refine MemOk.frame ?_ (by with_reducible apply completed_frame) (by decide)
    | split
    | dsimp only

theorem linkOp_memOk (r ecc s) : MemOk s (linkOp r ecc s) := by
  unfold linkOp
  repeat' first
    | with_reducible apply MemOk.refl
    | with_reducible apply MemOk.ite <;> intro _
    | refine MemOk.step ?_ (by with_reducible apply courRead_memOk)
    | refine MemOk.pair2 (by assumption) ?_ (by with_reducible apply courRead_memOk)
    | refine MemOk.frame ?_ (by with_reducible apply ringFail_frame) (by decide)
    | refine MemOk.frame ?_ (by with_reducible apply State.setRing_frame) (by decide)
    | refine MemOk.frame ?_ (by with_reducible apply State.setCour_frame) (by decide)
    | refine MemOk.frame ?_ (by with_reducible apply ready_frame) (by decide)
    | split
    | dsimp only

theorem ringErrorOp_memOk (r ctx ecc s) : MemOk s (ringErrorOp r ctx ecc s) := by
  unfold ringErrorOp
  repeat' first
    | with_reducible apply MemOk.refl
    | with_reducible apply MemOk.ite <;> intro _
    | refine MemOk.frame ?_ (by with_reducible apply eccCheck_frame) (by decide)
    | refine MemOk.fpair22 (by assumption) ?_ (by with_reducible apply eccCheck_frame) (by decide)
    | refine MemOk.frame ?_ (by with_reducible apply unready_frame) (by decide)
    | refine MemOk.frame ?_ (by with_reducible apply freeSlot_frame) (by decide)
    | refine MemOk.step ?_ (by with_reducible apply cutTransfer_memOk)
    | refine MemOk.frame ?_ (by with_reducible apply State.setRing_frame) (by decide)
    | refine MemOk.frame ?_ (by with_reducible apply raiseT_frame) (by decide)
    | refine MemOk.frame ?_ (by with_reducible apply State.setCour_frame) (by decide)
    | refine MemOk.step ?_ (by with_reducible apply transfer_memOk)
    | refine MemOk.pair2 (by assumption) ?_ (by with_reducible apply transfer_memOk)
    | refine MemOk.frame ?_ (by with_reducible apply ringFail_frame) (by decide)
    | split
    | dsimp only

theorem courReset_memOk (s0) : MemOk s0 (courReset s0) := by
  unfold courReset
  repeat' first
    | with_reducible apply MemOk.refl
    | with_reducible apply MemOk.ite <;> intro _
    | refine MemOk.step ?_ (by with_reducible apply cutTransfer_memOk)
    | refine MemOk.step ?_ (by with_reducible apply masterResetOp_memOk)
    | refine MemOk.frame ?_ (by with_reducible apply State.setCour_frame) (by decide)
    | with_reducible refine MemOk.foldl ?_ (fun _ _ => ?_)
    | with_reducible refine MemOk.foldl2 ?_ (fun _ _ => ?_)
    | split
    | dsimp only

end Sys2Proof.Machine
end

