-- ==== Sys2Proof/Laws/MemOkOperands.lean ====
section
/-! SUPPORT. The operations of Machine/Operands.lean keep the memory's canonical form. -/

set_option Elab.async false

namespace Sys2Proof.Machine

open Sys2Proof

theorem dmRead_memOk (c ea n e s0) : MemOk s0 (dmRead c ea n e s0).2.2 := by
  unfold dmRead
  repeat' first
    | with_reducible apply MemOk.refl
    | with_reducible apply MemOk.ite <;> intro _
    | with_reducible apply MemOk.ite22 <;> intro _
    | refine MemOk.step ?_ (by with_reducible apply flipWord_memOk)
    | refine MemOk.frame ?_ (by with_reducible apply eccCheck_frame) (by decide)
    | refine MemOk.fpair22 (by assumption) ?_ (by with_reducible apply eccCheck_frame) (by decide)
    | refine MemOk.frame ?_ (by with_reducible apply raiseT_frame) (by decide)
    | refine MemOk.frame ?_ (by with_reducible apply State.setCore_frame) (by decide)
    | split
    | dsimp only

theorem farRead_memOk (c a n e s) : MemOk s (farRead c a n e s).2.2 := by
  unfold farRead
  repeat' first
    | with_reducible apply MemOk.refl
    | with_reducible apply MemOk.ite <;> intro _
    | with_reducible apply MemOk.ite22 <;> intro _
    | refine MemOk.step ?_ (by with_reducible apply masterRead_memOk)
    | refine MemOk.pair22 (by assumption) ?_ (by with_reducible apply masterRead_memOk)
    | split
    | dsimp only

theorem loadBytes_memOk (c ea n e s) : MemOk s (loadBytes c ea n e s).2.2 := by
  have h := dmRead_memOk c ea n e s
  have k := farRead_memOk c ((s.core c).farAddr ea) n e s
  unfold loadBytes
  revert h k
  generalize dmRead c ea n e s = r
  generalize farRead c ((s.core c).farAddr ea) n e s = q
  intro h k
  obtain ⟨r1, r2, r3⟩ := r
  obtain ⟨q1, q2, q3⟩ := q
  split
  · exact MemOk.refl _
  · exact MemOk.ite22 (fun _ => h) (fun _ => MemOk.ite22 (fun _ => k) (fun _ => k))

theorem storeAt_memOk (c ea d s) : MemOk s (storeAt c ea d s).2 := by
  unfold storeAt
  split
  · exact MemOk.refl _
  · refine MemOk.ite2 (fun _ => storeBytes_memOk ..) (fun _ => ?_)
    have h := masterWrite_memOk (2 + c) 0 ((s.core c).farAddr ea) false d s
    split
    next r s1 e =>
      rw [e] at h
      exact MemOk.ite2 (fun _ => h) (fun _ => h)

end Sys2Proof.Machine
end

