-- ==== Sys2Proof/Laws/MemOkTally.lean ====
section
/-! SUPPORT. The operations of Machine/Tally.lean keep the memory's canonical form. -/

set_option Elab.async false

namespace Sys2Proof.Machine

open Sys2Proof

theorem loadBody_memOk (c op gd gs post off e s) : MemOk s (loadBody c op gd gs post off e s).2 := by
  unfold loadBody
  repeat' first
    | with_reducible apply MemOk.refl
    | with_reducible apply MemOk.ite <;> intro _
    | with_reducible apply MemOk.ite2 <;> intro _
    | refine MemOk.step ?_ (by with_reducible apply loadBytes_memOk)
    | refine MemOk.pair22 (by assumption) ?_ (by with_reducible apply loadBytes_memOk)
    | refine MemOk.frame ?_ (by with_reducible apply State.setCore_frame) (by decide)
    | split
    | dsimp only

theorem storeBody_memOk (c op gd gs post off s) : MemOk s (storeBody c op gd gs post off s).2 := by
  unfold storeBody
  repeat' first
    | with_reducible apply MemOk.refl
    | with_reducible apply MemOk.ite <;> intro _
    | with_reducible apply MemOk.ite2 <;> intro _
    | refine MemOk.step ?_ (by with_reducible apply storeAt_memOk)
    | refine MemOk.pair2 (by assumption) ?_ (by with_reducible apply storeAt_memOk)
    | refine MemOk.frame ?_ (by with_reducible apply State.setCore_frame) (by decide)
    | split
    | dsimp only

theorem dmWords_memOk (c more ws s) : MemOk s (dmWords c more ws s).2 := by
  unfold dmWords
  repeat' first
    | with_reducible apply MemOk.refl
    | with_reducible apply MemOk.ite <;> intro _
    | with_reducible apply MemOk.ite2 <;> intro _
    | refine MemOk.step ?_ (by with_reducible apply dmRead_memOk)
    | refine MemOk.pair22 (by assumption) ?_ (by with_reducible apply dmRead_memOk)
    | with_reducible refine MemOk.foldl ?_ (fun _ _ => ?_)
    | with_reducible refine MemOk.foldl2 ?_ (fun _ _ => ?_)
    | with_reducible refine MemOk.foldl22 ?_ (fun _ _ => ?_)
    | split
    | dsimp only

theorem postBody_memOk (c gd gs e s) : MemOk s (postBody c gd gs e s).2 := by
  unfold postBody
  repeat' first
    | with_reducible apply MemOk.refl
    | with_reducible apply MemOk.ite <;> intro _
    | with_reducible apply MemOk.ite2 <;> intro _
    | refine MemOk.step ?_ (by with_reducible apply dmRead_memOk)
    | refine MemOk.pair22 (by assumption) ?_ (by with_reducible apply dmRead_memOk)
    | refine MemOk.frame ?_ (by with_reducible apply State.setCore_frame) (by decide)
    | refine MemOk.frame ?_ (by with_reducible apply postRefused_frame) (by decide)
    | refine MemOk.frame ?_ (by with_reducible apply tallyEvent_frame) (by decide)
    | refine MemOk.step ?_ (by with_reducible apply storeBytes_memOk)
    | refine MemOk.step ?_ (by with_reducible apply dmWords_memOk)
    | refine MemOk.pair2 (by assumption) ?_ (by with_reducible apply dmWords_memOk)
    | refine MemOk.frame ?_ (by with_reducible apply stalled_frame) (by decide)
    | split
    | dsimp only

theorem tallyBody_memOk (c e o s) : MemOk s (tallyBody c e o s).2 := by
  unfold tallyBody
  repeat' first
    | with_reducible apply MemOk.refl
    | with_reducible apply MemOk.ite <;> intro _
    | with_reducible apply MemOk.ite2 <;> intro _
    | refine MemOk.frame ?_ (by with_reducible apply aluBody_frame) (by decide)
    | refine MemOk.fpair2 (by assumption) ?_ (by with_reducible apply aluBody_frame) (by decide)
    | refine MemOk.frame ?_ (by with_reducible apply immBody_frame) (by decide)
    | refine MemOk.fpair2 (by assumption) ?_ (by with_reducible apply immBody_frame) (by decide)
    | refine MemOk.frame ?_ (by with_reducible apply shiBody_frame) (by decide)
    | refine MemOk.fpair2 (by assumption) ?_ (by with_reducible apply shiBody_frame) (by decide)
    | refine MemOk.frame ?_ (by with_reducible apply luiBody_frame) (by decide)
    | refine MemOk.fpair2 (by assumption) ?_ (by with_reducible apply luiBody_frame) (by decide)
    | refine MemOk.frame ?_ (by with_reducible apply cmpiBody_frame) (by decide)
    | refine MemOk.fpair2 (by assumption) ?_ (by with_reducible apply cmpiBody_frame) (by decide)
    | refine MemOk.step ?_ (by with_reducible apply loadBody_memOk)
    | refine MemOk.pair2 (by assumption) ?_ (by with_reducible apply loadBody_memOk)
    | refine MemOk.step ?_ (by with_reducible apply storeBody_memOk)
    | refine MemOk.pair2 (by assumption) ?_ (by with_reducible apply storeBody_memOk)
    | refine MemOk.frame ?_ (by with_reducible apply macBody_frame) (by decide)
    | refine MemOk.fpair2 (by assumption) ?_ (by with_reducible apply macBody_frame) (by decide)
    | refine MemOk.frame ?_ (by with_reducible apply macDualBody_frame) (by decide)
    | refine MemOk.fpair2 (by assumption) ?_ (by with_reducible apply macDualBody_frame) (by decide)
    | refine MemOk.frame ?_ (by with_reducible apply macwBody_frame) (by decide)
    | refine MemOk.fpair2 (by assumption) ?_ (by with_reducible apply macwBody_frame) (by decide)
    | refine MemOk.frame ?_ (by with_reducible apply macwDualBody_frame) (by decide)
    | refine MemOk.fpair2 (by assumption) ?_ (by with_reducible apply macwDualBody_frame) (by decide)
    | refine MemOk.frame ?_ (by with_reducible apply extBody_frame) (by decide)
    | refine MemOk.fpair2 (by assumption) ?_ (by with_reducible apply extBody_frame) (by decide)
    | refine MemOk.frame ?_ (by with_reducible apply mfaBody_frame) (by decide)
    | refine MemOk.fpair2 (by assumption) ?_ (by with_reducible apply mfaBody_frame) (by decide)
    | refine MemOk.frame ?_ (by with_reducible apply mtaBody_frame) (by decide)
    | refine MemOk.fpair2 (by assumption) ?_ (by with_reducible apply mtaBody_frame) (by decide)
    | refine MemOk.frame ?_ (by with_reducible apply branchBody_frame) (by decide)
    | refine MemOk.fpair2 (by assumption) ?_ (by with_reducible apply branchBody_frame) (by decide)
    | refine MemOk.frame ?_ (by with_reducible apply balBody_frame) (by decide)
    | refine MemOk.fpair2 (by assumption) ?_ (by with_reducible apply balBody_frame) (by decide)
    | refine MemOk.frame ?_ (by with_reducible apply jrBody_frame) (by decide)
    | refine MemOk.fpair2 (by assumption) ?_ (by with_reducible apply jrBody_frame) (by decide)
    | refine MemOk.frame ?_ (by with_reducible apply jalrBody_frame) (by decide)
    | refine MemOk.fpair2 (by assumption) ?_ (by with_reducible apply jalrBody_frame) (by decide)
    | refine MemOk.frame ?_ (by with_reducible apply retiBody_frame) (by decide)
    | refine MemOk.fpair2 (by assumption) ?_ (by with_reducible apply retiBody_frame) (by decide)
    | refine MemOk.frame ?_ (by with_reducible apply rptBody_frame) (by decide)
    | refine MemOk.fpair2 (by assumption) ?_ (by with_reducible apply rptBody_frame) (by decide)
    | refine MemOk.frame ?_ (by with_reducible apply mfcBody_frame) (by decide)
    | refine MemOk.fpair2 (by assumption) ?_ (by with_reducible apply mfcBody_frame) (by decide)
    | refine MemOk.frame ?_ (by with_reducible apply mtcBody_frame) (by decide)
    | refine MemOk.fpair2 (by assumption) ?_ (by with_reducible apply mtcBody_frame) (by decide)
    | refine MemOk.frame ?_ (by with_reducible apply waitBody_frame) (by decide)
    | refine MemOk.fpair2 (by assumption) ?_ (by with_reducible apply waitBody_frame) (by decide)
    | refine MemOk.step ?_ (by with_reducible apply postBody_memOk)
    | refine MemOk.pair2 (by assumption) ?_ (by with_reducible apply postBody_memOk)
    | split
    | dsimp only

theorem fetchCheck_memOk (c e s0) : MemOk s0 (fetchCheck c e s0).2 := by
  unfold fetchCheck
  repeat' first
    | with_reducible apply MemOk.refl
    | with_reducible apply MemOk.ite <;> intro _
    | with_reducible apply MemOk.ite2 <;> intro _
    | refine MemOk.step ?_ (by with_reducible apply flipWord_memOk)
    | refine MemOk.frame ?_ (by with_reducible apply eccCheck_frame) (by decide)
    | refine MemOk.fpair22 (by assumption) ?_ (by with_reducible apply eccCheck_frame) (by decide)
    | refine MemOk.frame ?_ (by with_reducible apply raiseT_frame) (by decide)
    | refine MemOk.frame ?_ (by with_reducible apply stalled_frame) (by decide)
    | refine MemOk.frame ?_ (by with_reducible apply State.setCore_frame) (by decide)
    | split
    | dsimp only

theorem tallyOne_memOk (c v o s) : MemOk s (tallyOne c v o s) := by
  unfold tallyOne
  repeat' first
    | with_reducible apply MemOk.refl
    | with_reducible apply MemOk.ite <;> intro _
    | refine MemOk.step ?_ (by with_reducible apply fetchCheck_memOk)
    | refine MemOk.pair2 (by assumption) ?_ (by with_reducible apply fetchCheck_memOk)
    | refine MemOk.frame ?_ (by with_reducible apply tallyCycles_frame) (by decide)
    | refine MemOk.frame ?_ (by with_reducible apply tallyFault_frame) (by decide)
    | refine MemOk.frame ?_ (by with_reducible apply tallyGo_frame) (by decide)
    | refine MemOk.step ?_ (by with_reducible apply tallyBody_memOk)
    | refine MemOk.pair2 (by assumption) ?_ (by with_reducible apply tallyBody_memOk)
    | split
    | dsimp only

theorem tallyOp_memOk (c v o s) : MemOk s (tallyOp c v o s) := by
  unfold tallyOp
  repeat' first
    | with_reducible apply MemOk.refl
    | with_reducible apply MemOk.ite <;> intro _
    | refine MemOk.step ?_ (by with_reducible apply tallyOne_memOk)
    | split
    | dsimp only

theorem stepLoop_memOk (c y1 y2 s) : MemOk s (stepLoop c y1 y2 s) := by
  induction y1 generalizing y2 s with
  | zero => exact MemOk.refl _
  | succ n ih =>
    unfold stepLoop
    repeat' first
    | with_reducible apply MemOk.refl
    | refine MemOk.step ?_ (by with_reducible apply ih)
    | with_reducible apply MemOk.ite <;> intro _
    | refine MemOk.step ?_ (by with_reducible apply tallyOne_memOk)
    | split
    | dsimp only

theorem tallyStepOp_memOk (c e s) : MemOk s (tallyStepOp c e s) := by
  unfold tallyStepOp
  repeat' first
    | with_reducible apply MemOk.refl
    | with_reducible apply MemOk.ite <;> intro _
    | refine MemOk.step ?_ (by with_reducible apply stepLoop_memOk)
    | refine MemOk.frame ?_ (by with_reducible apply State.setCore_frame) (by decide)
    | refine MemOk.frame ?_ (by with_reducible apply tallyRefuse_frame) (by decide)
    | split
    | dsimp only

theorem tallyBlockReset_memOk (c s) : MemOk s (tallyBlockReset c s) := by
  unfold tallyBlockReset
  repeat' first
    | with_reducible apply MemOk.refl
    | with_reducible apply MemOk.ite <;> intro _
    | refine MemOk.step ?_ (by with_reducible apply masterResetOp_memOk)
    | refine MemOk.frame ?_ (by with_reducible apply tallyResetOp_frame) (by decide)
    | split
    | dsimp only

theorem tallyProgramOp_memOk (c b s) : MemOk s (tallyProgramOp c b s) := by
  unfold tallyProgramOp
  repeat' first
    | with_reducible apply MemOk.refl
    | with_reducible apply MemOk.ite <;> intro _
    | refine MemOk.frame ?_ (by with_reducible apply raise_frame) (by decide)
    | refine MemOk.step ?_ (by with_reducible apply storeBytes_memOk)
    | split
    | dsimp only

theorem tallySegmentOp_memOk (c b last s) : MemOk s (tallySegmentOp c b last s) := by
  unfold tallySegmentOp
  repeat' first
    | with_reducible apply MemOk.refl
    | with_reducible apply MemOk.ite <;> intro _
    | refine MemOk.step ?_ (by with_reducible apply tallyProgramOp_memOk)
    | refine MemOk.frame ?_ (by with_reducible apply State.setCore_frame) (by decide)
    | split
    | dsimp only

theorem wipeRange_memOk (a n s) : MemOk s (wipeRange a n s) := ⟨fun w => Tab.wf_filter _ _ _ w⟩

theorem tallyClearDoneOp_memOk (c s) : MemOk s (tallyClearDoneOp c s) := by
  unfold tallyClearDoneOp
  repeat' first
    | with_reducible apply MemOk.refl
    | with_reducible apply MemOk.ite <;> intro _
    | refine MemOk.step ?_ (by with_reducible apply wipeRange_memOk)
    | refine MemOk.frame ?_ (by with_reducible apply State.setCore_frame) (by decide)
    | split
    | dsimp only

end Sys2Proof.Machine
end

