-- ==== Sys2Proof/Laws/MemOkStewards.lean ====
section
/-! SUPPORT. The operations of Machine/Stewards.lean keep the memory's canonical form. -/

set_option Elab.async false

namespace Sys2Proof.Machine

open Sys2Proof

theorem issueHeld_memOk (b s) : MemOk s (issueHeld b s) := by
  unfold issueHeld
  repeat' first
    | with_reducible apply MemOk.refl
    | with_reducible apply MemOk.ite <;> intro _
    | refine MemOk.step ?_ (by with_reducible apply issueBus_memOk)
    | refine MemOk.frame ?_ (by with_reducible apply State.setCtrl_frame) (by decide)
    | split
    | dsimp only

theorem pairRequest_memOk (a b ecc s) : MemOk s (pairRequest a b ecc s) := by
  unfold pairRequest
  repeat' first
    | with_reducible apply MemOk.refl
    | with_reducible apply MemOk.ite <;> intro _
    | refine MemOk.frame ?_ (by with_reducible apply diverge_frame) (by decide)
    | refine MemOk.frame ?_ (by with_reducible apply injCount_frame) (by decide)
    | refine MemOk.step ?_ (by with_reducible apply issueBus_memOk)
    | split
    | dsimp only

theorem stewIssue_memOk (q ecc s) : MemOk s (stewIssue q ecc s) := by
  unfold stewIssue
  repeat' first
    | with_reducible apply MemOk.refl
    | with_reducible apply MemOk.ite <;> intro _
    | refine MemOk.step ?_ (by with_reducible apply pairRequest_memOk)
    | refine MemOk.step ?_ (by with_reducible apply issueBus_memOk)
    | split
    | dsimp only

theorem mismatchOp_memOk (r s) : MemOk s (mismatchOp r s) := by
  unfold mismatchOp
  repeat' first
    | with_reducible apply MemOk.refl
    | with_reducible apply MemOk.ite <;> intro _
    | refine MemOk.frame ?_ (by with_reducible apply raise_frame) (by decide)
    | refine MemOk.step ?_ (by with_reducible apply pairRequest_memOk)
    | refine MemOk.frame ?_ (by with_reducible apply diverge_frame) (by decide)
    | split
    | dsimp only

theorem dropOut_memOk (b s) : MemOk s (dropOut b s) := by
  unfold dropOut
  repeat' first
    | with_reducible apply MemOk.refl
    | with_reducible apply MemOk.ite <;> intro _
    | refine MemOk.step ?_ (by with_reducible apply masterResetOp_memOk)
    | refine MemOk.frame ?_ (by with_reducible apply raise_frame) (by decide)
    | refine MemOk.frame ?_ (by with_reducible apply State.setCtrl_frame) (by decide)
    | refine MemOk.step ?_ (by with_reducible apply issueHeld_memOk)
    | split
    | dsimp only

theorem haltPair_memOk (cores passed s) : MemOk s (haltPair cores passed s) := by
  unfold haltPair
  repeat' first
    | with_reducible apply MemOk.refl
    | with_reducible apply MemOk.ite <;> intro _
    | refine MemOk.frame ?_ (by with_reducible apply raise_frame) (by decide)
    | refine MemOk.step ?_ (by with_reducible apply masterResetOp_memOk)
    | refine MemOk.frame ?_ (by with_reducible apply State.setCtrl_frame) (by decide)
    | refine MemOk.frame ?_ (by with_reducible apply startAlone_frame) (by decide)
    | with_reducible refine MemOk.foldl ?_ (fun _ _ => ?_)
    | with_reducible refine MemOk.foldl2 ?_ (fun _ _ => ?_)
    | split
    | dsimp only

theorem diagOp_memOk (a b s) : MemOk s (diagOp a b s) := by
  unfold diagOp
  repeat' first
    | with_reducible apply MemOk.refl
    | with_reducible apply MemOk.ite <;> intro _
    | refine MemOk.step ?_ (by with_reducible apply dropOut_memOk)
    | refine MemOk.step ?_ (by with_reducible apply masterResetOp_memOk)
    | refine MemOk.frame ?_ (by with_reducible apply raise_frame) (by decide)
    | refine MemOk.frame ?_ (by with_reducible apply State.setCtrl_frame) (by decide)
    | refine MemOk.step ?_ (by with_reducible apply haltPair_memOk)
    | split
    | dsimp only

theorem survivorOp_memOk (s) : MemOk s (survivorOp s) := by
  unfold survivorOp
  repeat' first
    | with_reducible apply MemOk.refl
    | with_reducible apply MemOk.ite <;> intro _
    | refine MemOk.step ?_ (by with_reducible apply haltPair_memOk)
    | refine MemOk.frame ?_ (by with_reducible apply State.setCtrl_frame) (by decide)
    | split
    | dsimp only

theorem offCore_memOk (b s) : MemOk s (offCore b s) := by
  unfold offCore
  repeat' first
    | with_reducible apply MemOk.refl
    | with_reducible apply MemOk.ite <;> intro _
    | refine MemOk.step ?_ (by with_reducible apply masterResetOp_memOk)
    | refine MemOk.frame ?_ (by with_reducible apply raise_frame) (by decide)
    | refine MemOk.frame ?_ (by with_reducible apply State.setCtrl_frame) (by decide)
    | split
    | dsimp only

theorem stewReset_memOk (b s) : MemOk s (stewReset b s) := by
  unfold stewReset
  repeat' first
    | with_reducible apply MemOk.refl
    | with_reducible apply MemOk.ite <;> intro _
    | refine MemOk.frame ?_ (by with_reducible apply State.setCtrl_frame) (by decide)
    | refine MemOk.step ?_ (by with_reducible apply dropOut_memOk)
    | refine MemOk.step ?_ (by with_reducible apply haltPair_memOk)
    | refine MemOk.step ?_ (by with_reducible apply survivorOp_memOk)
    | refine MemOk.step ?_ (by with_reducible apply offCore_memOk)
    | split
    | dsimp only

theorem mirrorOp_memOk (a one two s) : MemOk s (mirrorOp a one two s) := by
  unfold mirrorOp
  repeat' first
    | with_reducible apply MemOk.refl
    | with_reducible apply MemOk.ite <;> intro _
    | refine MemOk.step ?_ (by with_reducible apply stewIssue_memOk)
    | split
    | dsimp only

end Sys2Proof.Machine
end

