-- ==== Sys2Proof/Laws/MemOkSorting.lean ====
section
/-! SUPPORT. The operations of Machine/Sorting.lean keep the memory's canonical form. -/

set_option Elab.async false

namespace Sys2Proof.Machine

open Sys2Proof

theorem blockReset_memOk (n s0) : MemOk s0 (blockReset n s0) := by
  unfold blockReset
  repeat' first
    | with_reducible apply MemOk.refl
    | with_reducible apply MemOk.ite <;> intro _
    | refine MemOk.frame ?_ (by with_reducible apply State.stopUnits_frame) (by decide)
    | refine MemOk.frame ?_ (by with_reducible apply laneReset_frame) (by decide)
    | refine MemOk.step ?_ (by with_reducible apply masterResetOp_memOk)
    | refine MemOk.frame ?_ (by with_reducible apply engineReset_frame) (by decide)
    | refine MemOk.frame ?_ (by with_reducible apply portReset_frame) (by decide)
    | refine MemOk.frame ?_ (by with_reducible apply clusterReset_frame) (by decide)
    | refine MemOk.frame ?_ (by with_reducible apply slotReset_frame) (by decide)
    | refine MemOk.step ?_ (by with_reducible apply stackReset_memOk)
    | refine MemOk.step ?_ (by with_reducible apply accReset_memOk)
    | refine MemOk.frame ?_ (by with_reducible apply compReset_frame) (by decide)
    | refine MemOk.frame ?_ (by with_reducible apply asmReset_frame) (by decide)
    | refine MemOk.step ?_ (by with_reducible apply tallyBlockReset_memOk)
    | refine MemOk.step ?_ (by with_reducible apply stewReset_memOk)
    | refine MemOk.step ?_ (by with_reducible apply courReset_memOk)
    | refine MemOk.frame ?_ (by with_reducible apply raise_frame) (by decide)
    | refine MemOk.frame ?_ (by with_reducible apply storeReset_frame) (by decide)
    | refine MemOk.frame ?_ (by with_reducible apply timeReset_frame) (by decide)
    | split
    | dsimp only

theorem isolateOp_memOk (n s) : MemOk s (isolateOp n s) := by
  unfold isolateOp
  repeat' first
    | with_reducible apply MemOk.refl
    | with_reducible apply MemOk.ite <;> intro _
    | refine MemOk.frame ?_ (by with_reducible apply setHeld_frame) (by decide)
    | refine MemOk.frame ?_ (by with_reducible apply slotIsolate_frame) (by decide)
    | refine MemOk.step ?_ (by with_reducible apply blockReset_memOk)
    | split
    | dsimp only

theorem latchEffect_memOk (n s) : MemOk s (latchEffect n s) := by
  unfold latchEffect
  repeat' first
    | with_reducible apply MemOk.refl
    | with_reducible apply MemOk.ite <;> intro _
    | refine MemOk.step ?_ (by with_reducible apply isolateOp_memOk)
    | refine MemOk.frame ?_ (by with_reducible apply State.setCtrl_frame) (by decide)
    | split
    | dsimp only

theorem releaseOp_memOk (n s) : MemOk s (releaseOp n s) := by
  unfold releaseOp
  repeat' first
    | with_reducible apply MemOk.refl
    | with_reducible apply MemOk.ite <;> intro _
    | refine MemOk.frame ?_ (by with_reducible apply setHeld_frame) (by decide)
    | refine MemOk.frame ?_ (by with_reducible apply slotRelease_frame) (by decide)
    | refine MemOk.step ?_ (by with_reducible apply blockReset_memOk)
    | split
    | dsimp only

theorem reactAt_memOk (n kind cls r s0) : MemOk s0 (reactAt n kind cls r s0) := by
  unfold reactAt
  repeat' first
    | with_reducible apply MemOk.refl
    | with_reducible apply MemOk.ite <;> intro _
    | refine MemOk.frame ?_ (by with_reducible apply State.modSrc_frame) (by decide)
    | refine MemOk.frame ?_ (by with_reducible apply raise_frame) (by decide)
    | refine MemOk.step ?_ (by with_reducible apply latchEffect_memOk)
    | refine MemOk.step ?_ (by with_reducible apply isolateOp_memOk)
    | split
    | dsimp only

theorem acceptOp_memOk (s) : MemOk s (acceptOp s) := by
  unfold acceptOp
  repeat' first
    | with_reducible apply MemOk.refl
    | with_reducible apply MemOk.ite <;> intro _
    | refine MemOk.frame ?_ (by with_reducible apply queueCard_frame) (by decide)
    | refine MemOk.frame ?_ (by with_reducible apply State.setSo_frame) (by decide)
    | refine MemOk.step ?_ (by with_reducible apply reactAt_memOk)
    | split
    | dsimp only

theorem quietEndOp_memOk (n s) : MemOk s (quietEndOp n s) := by
  unfold quietEndOp
  repeat' first
    | with_reducible apply MemOk.refl
    | with_reducible apply MemOk.ite <;> intro _
    | refine MemOk.step ?_ (by with_reducible apply releaseOp_memOk)
    | refine MemOk.frame ?_ (by with_reducible apply State.modSrc_frame) (by decide)
    | refine MemOk.frame ?_ (by with_reducible apply stewQuiet_frame) (by decide)
    | split
    | dsimp only

theorem faultReleaseOp_memOk (n s) : MemOk s (faultReleaseOp n s) := by
  unfold faultReleaseOp
  repeat' first
    | with_reducible apply MemOk.refl
    | with_reducible apply MemOk.ite <;> intro _
    | refine MemOk.frame ?_ (by with_reducible apply raise_frame) (by decide)
    | refine MemOk.step ?_ (by with_reducible apply releaseOp_memOk)
    | refine MemOk.frame ?_ (by with_reducible apply State.modSrc_frame) (by decide)
    | split
    | dsimp only

end Sys2Proof.Machine
end

