-- ==== Sys2Proof/Laws/MemOkTimetable.lean ====
section
/-! SUPPORT. The operations of Machine/Timetable.lean keep the memory's canonical form. -/

set_option Elab.async false

namespace Sys2Proof.Machine

open Sys2Proof

theorem blockCommit_memOk (n p old new s) : MemOk s (blockCommit n p old new s) := by
  unfold blockCommit
  repeat' first
    | with_reducible apply MemOk.refl
    | with_reducible apply MemOk.ite <;> intro _
    | refine MemOk.frame ?_ (by with_reducible apply genChange_frame) (by decide)
    | refine MemOk.frame ?_ (by with_reducible apply engineCommit_frame) (by decide)
    | refine MemOk.frame ?_ (by with_reducible apply relayCommit_frame) (by decide)
    | refine MemOk.frame ?_ (by with_reducible apply clusterCommit_frame) (by decide)
    | refine MemOk.frame ?_ (by with_reducible apply weightCommit_frame) (by decide)
    | refine MemOk.step ?_ (by with_reducible apply stackCommit_memOk)
    | refine MemOk.step ?_ (by with_reducible apply accCommit_memOk)
    | refine MemOk.frame ?_ (by with_reducible apply timeCommit_frame) (by decide)
    | split
    | dsimp only

theorem applySets_memOk (n t s) : MemOk s (applySets n t s) := by
  unfold applySets
  repeat' first
    | with_reducible apply MemOk.refl
    | with_reducible apply MemOk.ite <;> intro _
    | refine MemOk.step ?_ (by with_reducible apply blockCommit_memOk)
    | refine MemOk.frame ?_ (by with_reducible apply State.noteApplied_frame) (by decide)
    | split
    | dsimp only

theorem applyUnit_memOk (n t s) : MemOk s (applyUnit n t s) := by
  unfold applyUnit
  repeat' first
    | with_reducible apply MemOk.refl
    | with_reducible apply MemOk.ite <;> intro _
    | refine MemOk.step ?_ (by with_reducible apply applySets_memOk)
    | with_reducible refine MemOk.forRange ?_ (fun _ _ => ?_)
    | split
    | dsimp only

theorem latchSets_memOk (s) : MemOk s (latchSets s) := MemOk.of_mem rfl

theorem latchOp_memOk (s) : MemOk s (latchOp s) := by
  unfold latchOp
  refine MemOk.ite (fun _ => ?_) (fun _ => MemOk.refl _)
  refine MemOk.frame (MemOk.frame ?_ (plcaWrites_frame _ _ _) (by decide)) (raise_frame _ _ _ _) (by decide)
  refine MemOk.foldl (latchSets_memOk s) (fun v n => ?_)
  exact applySets_memOk n _ v

end Sys2Proof.Machine
end

