-- ==== Sys2Proof/Laws/MemOkPower.lean ====
section
/-! SUPPORT. The operations of Machine/Power.lean keep the memory's canonical form. -/

set_option Elab.async false

namespace Sys2Proof.Machine

open Sys2Proof

theorem mainReset_memOk (s) : MemOk s (mainReset s) := ⟨fun _ => rfl⟩

theorem vkaLossOp_memOk (s) : MemOk s (vkaLossOp s) := by
  unfold vkaLossOp
  repeat' first
    | with_reducible apply MemOk.refl
    | with_reducible apply MemOk.ite <;> intro _
    | refine MemOk.step ?_ (by with_reducible apply mainReset_memOk)
    | refine MemOk.frame ?_ (by with_reducible apply State.setPwr_frame) (by decide)
    | refine MemOk.frame ?_ (by with_reducible apply State.setTime_frame) (by decide)
    | refine MemOk.frame ?_ (by with_reducible apply Frame.with_so) (by decide)
    | refine MemOk.frame ?_ (by with_reducible apply Frame.with_lanes) (by decide)
    | refine MemOk.frame ?_ (by with_reducible apply Frame.with_filt) (by decide)
    | refine MemOk.frame ?_ (by with_reducible apply Frame.with_relay) (by decide)
    | refine MemOk.frame ?_ (by with_reducible apply Frame.with_fab) (by decide)
    | refine MemOk.frame ?_ (by with_reducible apply Frame.with_acc) (by decide)
    | refine MemOk.frame ?_ (by with_reducible apply Frame.with_out) (by decide)
    | refine MemOk.frame ?_ (by with_reducible apply Frame.with_cour) (by decide)
    | refine MemOk.frame ?_ (by with_reducible apply Frame.with_tally) (by decide)
    | refine MemOk.frame ?_ (by with_reducible apply Frame.with_ctrl) (by decide)
    | refine MemOk.frame ?_ (by with_reducible apply Frame.with_time) (by decide)
    | refine MemOk.frame ?_ (by with_reducible apply Frame.with_dict) (by decide)
    | refine MemOk.frame ?_ (by with_reducible apply Frame.with_pwr) (by decide)
    | refine MemOk.step ?_ (MemOk.with_mm _ _ rfl)
    | split
    | dsimp only

theorem railReset_memOk (bit kind n v s) : MemOk s (railReset bit kind n v s) := by
  unfold railReset
  repeat' first
    | with_reducible apply MemOk.refl
    | with_reducible apply MemOk.ite <;> intro _
    | refine MemOk.step ?_ (by with_reducible apply mainReset_memOk)
    | refine MemOk.frame ?_ (by with_reducible apply State.setPwr_frame) (by decide)
    | split
    | dsimp only

theorem railSampleOp_memOk (mv s) : MemOk s (railSampleOp mv s) := by
  unfold railSampleOp
  repeat' first
    | with_reducible apply MemOk.refl
    | with_reducible apply MemOk.ite <;> intro _
    | refine MemOk.frame ?_ (by with_reducible apply State.setPwr_frame) (by decide)
    | refine MemOk.frame ?_ (by with_reducible apply vkaCheck_frame) (by decide)
    | refine MemOk.frame ?_ (by with_reducible apply railRange_frame) (by decide)
    | refine MemOk.step ?_ (by with_reducible apply railReset_memOk)
    | with_reducible refine MemOk.foldl ?_ (fun _ _ => ?_)
    | with_reducible refine MemOk.foldl2 ?_ (fun _ _ => ?_)
    | split
    | dsimp only

theorem softClear_memOk (s) : MemOk s (softClear s) := MemOk.of_mem rfl

theorem stackSoft_memOk (k s) : MemOk s (stackSoft k s) := by
  unfold stackSoft
  repeat' first
    | with_reducible apply MemOk.refl
    | with_reducible apply MemOk.ite <;> intro _
    | refine MemOk.step ?_ (by with_reducible apply serveStack_memOk)
    | refine MemOk.step ?_ (by with_reducible apply State.setStk_memOk)
    | split
    | dsimp only

theorem softEffect_memOk (s) : MemOk s (softEffect s) := by
  unfold softEffect
  repeat' first
    | with_reducible apply MemOk.refl
    | with_reducible apply MemOk.ite <;> intro _
    | refine MemOk.step ?_ (by with_reducible apply softClear_memOk)
    | refine MemOk.frame ?_ (by with_reducible apply State.setDict_frame) (by decide)
    | refine MemOk.frame ?_ (by with_reducible apply laneSoft_frame) (by decide)
    | refine MemOk.frame ?_ (by with_reducible apply tallyResetOp_frame) (by decide)
    | refine MemOk.frame ?_ (by with_reducible apply portSoft_frame) (by decide)
    | refine MemOk.step ?_ (by with_reducible apply stackSoft_memOk)
    | refine MemOk.frame ?_ (by with_reducible apply engineReset_frame) (by decide)
    | refine MemOk.frame ?_ (by with_reducible apply holdRate_frame) (by decide)
    | refine MemOk.frame ?_ (by with_reducible apply tbMode_frame) (by decide)
    | refine MemOk.frame ?_ (by with_reducible apply courSoft_frame) (by decide)
    | with_reducible refine MemOk.forRange ?_ (fun _ _ => ?_)
    | split
    | dsimp only

theorem softGo_memOk (s) : MemOk s (softGo s) := by
  unfold softGo
  repeat' first
    | with_reducible apply MemOk.refl
    | with_reducible apply MemOk.ite <;> intro _
    | refine MemOk.step ?_ (by with_reducible apply softEffect_memOk)
    | split
    | dsimp only

theorem softResetOp_memOk (v s) : MemOk s (softResetOp v s) := by
  unfold softResetOp
  repeat' first
    | with_reducible apply MemOk.refl
    | with_reducible apply MemOk.ite <;> intro _
    | refine MemOk.step ?_ (by with_reducible apply softGo_memOk)
    | refine MemOk.frame ?_ (by with_reducible apply softStart_frame) (by decide)
    | split
    | dsimp only

theorem pinEffect_memOk (s) : MemOk s (pinEffect s) := by
  unfold pinEffect
  repeat' first
    | with_reducible apply MemOk.refl
    | with_reducible apply MemOk.ite <;> intro _
    | refine MemOk.step ?_ (by with_reducible apply mainReset_memOk)
    | refine MemOk.frame ?_ (by with_reducible apply State.setPwr_frame) (by decide)
    | refine MemOk.frame ?_ (by with_reducible apply leaveReset_frame) (by decide)
    | split
    | dsimp only

theorem rstAssertOp_memOk (s) : MemOk s (rstAssertOp s) := by
  unfold rstAssertOp
  repeat' first
    | with_reducible apply MemOk.refl
    | with_reducible apply MemOk.ite <;> intro _
    | refine MemOk.frame ?_ (by with_reducible apply State.setPwr_frame) (by decide)
    | refine MemOk.step ?_ (by with_reducible apply pinEffect_memOk)
    | split
    | dsimp only

theorem rampDoneOp_memOk (s) : MemOk s (rampDoneOp s) := by
  unfold rampDoneOp
  repeat' first
    | with_reducible apply MemOk.refl
    | with_reducible apply MemOk.ite <;> intro _
    | refine MemOk.step ?_ (by with_reducible apply pinEffect_memOk)
    | refine MemOk.step ?_ (by with_reducible apply softEffect_memOk)
    | split
    | dsimp only

theorem blockResetOp_memOk (n s) : MemOk s (blockResetOp n s) := by
  unfold blockResetOp
  repeat' first
    | with_reducible apply MemOk.refl
    | with_reducible apply MemOk.ite <;> intro _
    | refine MemOk.step ?_ (by with_reducible apply blockReset_memOk)
    | split
    | dsimp only

end Sys2Proof.Machine
end

