-- ==== Sys2Proof/Laws/MemOkReadout.lean ====
section
/-! SUPPORT. The operations of Machine/Readout.lean keep the memory's canonical form. -/

set_option Elab.async false

namespace Sys2Proof.Machine

open Sys2Proof

theorem latchBy_memOk (x s) : MemOk s (latchBy x s) := by
  unfold latchBy
  repeat' first
    | with_reducible apply MemOk.refl
    | with_reducible apply MemOk.ite <;> intro _
    | refine MemOk.step ?_ (by with_reducible apply latchOp_memOk)
    | split
    | dsimp only

theorem beforeCopy_memOk (n s) : MemOk s (beforeCopy n s) := by
  unfold beforeCopy
  repeat' first
    | with_reducible apply MemOk.refl
    | with_reducible apply MemOk.ite <;> intro _
    | refine MemOk.step ?_ (by with_reducible apply latchBy_memOk)
    | refine MemOk.step ?_ (by with_reducible apply applySets_memOk)
    | split
    | dsimp only

theorem captureOp_memOk (n s0) : MemOk s0 (captureOp n s0) := by
  unfold captureOp
  repeat' first
    | with_reducible apply MemOk.refl
    | with_reducible apply MemOk.ite <;> intro _
    | refine MemOk.frame ?_ (by with_reducible apply copyBlock_frame) (by decide)
    | refine MemOk.step ?_ (by with_reducible apply beforeCopy_memOk)
    | split
    | dsimp only

end Sys2Proof.Machine
end

