-- ==== Sys2Proof/Laws/MemOkService.lean ====
section
/-! SUPPORT. The operations of Machine/Service.lean keep the memory's canonical form. -/

set_option Elab.async false

namespace Sys2Proof.Machine

open Sys2Proof

theorem elemAnswer_memOk (o lim first get s) (h : ∀ f n, MemOk s (get f n).2) : MemOk s (elemAnswer o lim first get s).2 := by
  unfold elemAnswer
  exact MemOk.ite2 (fun _ => MemOk.refl _) (fun _ => h _ _)

theorem tallyCommand_memOk (c w s) : MemOk s (tallyCommand c w s) := by
  unfold tallyCommand
  repeat' first
    | with_reducible apply MemOk.refl
    | with_reducible apply MemOk.ite <;> intro _
    | refine MemOk.frame ?_ (by with_reducible apply tallyResumeOp_frame) (by decide)
    | refine MemOk.frame ?_ (by with_reducible apply tallyRunOp_frame) (by decide)
    | refine MemOk.frame ?_ (by with_reducible apply tallyHaltOp_frame) (by decide)
    | refine MemOk.step ?_ (by with_reducible apply tallyStepOp_memOk)
    | refine MemOk.frame ?_ (by with_reducible apply tallyResetOp_frame) (by decide)
    | refine MemOk.frame ?_ (by with_reducible apply tallyClearOp_frame) (by decide)
    | refine MemOk.frame ?_ (by with_reducible apply tallyRefuse_frame) (by decide)
    | split
    | dsimp only

theorem commandScalar_memOk (idx sub v s) : MemOk s (commandScalar idx sub v s).2 := by
  unfold commandScalar
  repeat' first
    | with_reducible apply MemOk.refl
    | with_reducible apply MemOk.ite <;> intro _
    | with_reducible apply MemOk.ite2 <;> intro _
    | refine MemOk.frame ?_ (by with_reducible apply softStart_frame) (by decide)
    | refine MemOk.step ?_ (by with_reducible apply blockReset_memOk)
    | refine MemOk.frame ?_ (by with_reducible apply snapshotOp_frame) (by decide)
    | refine MemOk.frame ?_ (by with_reducible apply startOp_frame) (by decide)
    | refine MemOk.frame ?_ (by with_reducible apply pcAckOp_frame) (by decide)
    | refine MemOk.step ?_ (by with_reducible apply faultReleaseOp_memOk)
    | refine MemOk.frame ?_ (by with_reducible apply laneCommand_frame) (by decide)
    | refine MemOk.frame ?_ (by with_reducible apply conditioningClearOp_frame) (by decide)
    | refine MemOk.frame ?_ (by with_reducible apply syncResetOp_frame) (by decide)
    | refine MemOk.frame ?_ (by with_reducible apply bankLoadRomOp_frame) (by decide)
    | refine MemOk.frame ?_ (by with_reducible apply letterboxOp_frame) (by decide)
    | refine MemOk.step ?_ (by with_reducible apply tallyCommand_memOk)
    | refine MemOk.frame ?_ (by with_reducible apply doorbellOp_frame) (by decide)
    | split
    | dsimp only

theorem writeCommandBlob_memOk (c idx sub o off b more s) : MemOk s (writeCommandBlob c idx sub o off b more s).2 := by
  unfold writeCommandBlob
  repeat' first
    | with_reducible apply MemOk.refl
    | with_reducible apply MemOk.ite <;> intro _
    | with_reducible apply MemOk.ite2 <;> intro _
    | refine MemOk.frame ?_ (by with_reducible apply takeSegment_frame) (by decide)
    | refine MemOk.fpair2 (by assumption) ?_ (by with_reducible apply takeSegment_frame) (by decide)
    | refine MemOk.step ?_ (by with_reducible apply tallySegmentOp_memOk)
    | refine MemOk.frame ?_ (by with_reducible apply bankImageOp_frame) (by decide)
    | refine MemOk.frame ?_ (by with_reducible apply commandBlob_frame) (by decide)
    | refine MemOk.fpair2 (by assumption) ?_ (by with_reducible apply commandBlob_frame) (by decide)
    | split
    | dsimp only

theorem writeObj_memOk (c idx sub off b more s) : MemOk s (writeObj c idx sub off b more s).2 := by
  unfold writeObj
  repeat' first
    | with_reducible apply MemOk.refl
    | with_reducible apply MemOk.ite <;> intro _
    | with_reducible apply MemOk.ite2 <;> intro _
    | refine MemOk.frame ?_ (by with_reducible apply writeSetting_frame) (by decide)
    | refine MemOk.fpair2 (by assumption) ?_ (by with_reducible apply writeSetting_frame) (by decide)
    | refine MemOk.frame ?_ (by with_reducible apply writeLive_frame) (by decide)
    | refine MemOk.fpair2 (by assumption) ?_ (by with_reducible apply writeLive_frame) (by decide)
    | refine MemOk.step ?_ (by with_reducible apply writeCommandBlob_memOk)
    | refine MemOk.pair2 (by assumption) ?_ (by with_reducible apply writeCommandBlob_memOk)
    | refine MemOk.step ?_ (by with_reducible apply commandScalar_memOk)
    | refine MemOk.pair2 (by assumption) ?_ (by with_reducible apply commandScalar_memOk)
    | refine MemOk.frame ?_ (by with_reducible apply writeCs_frame) (by decide)
    | refine MemOk.fpair2 (by assumption) ?_ (by with_reducible apply writeCs_frame) (by decide)
    | split
    | dsimp only

theorem fanoutWrite_memOk (c h msg b s) : MemOk s (fanoutWrite c h msg b s).2 := by
  unfold fanoutWrite
  repeat' first
    | with_reducible apply MemOk.refl
    | with_reducible apply MemOk.ite <;> intro _
    | with_reducible apply MemOk.ite2 <;> intro _
    | refine MemOk.step ?_ (by with_reducible apply writeObj_memOk)
    | refine MemOk.pair2 (by assumption) ?_ (by with_reducible apply writeObj_memOk)
    | refine MemOk.frame ?_ (by with_reducible apply fanoutRefusal_frame) (by decide)
    | refine MemOk.frame ?_ (by with_reducible apply confSend_frame) (by decide)
    | split
    | dsimp only

theorem fanoutReceived_memOk (msg s) : MemOk s (fanoutReceived msg s) := by
  unfold fanoutReceived
  repeat' first
    | with_reducible apply MemOk.refl
    | with_reducible apply MemOk.ite <;> intro _
    | refine MemOk.step ?_ (by with_reducible apply writeObj_memOk)
    | refine MemOk.pair2 (by assumption) ?_ (by with_reducible apply writeObj_memOk)
    | refine MemOk.frame ?_ (by with_reducible apply fanoutRefusal_frame) (by decide)
    | split
    | dsimp only

theorem writeAnswer_memOk (c h msg b s) : MemOk s (writeAnswer c h msg b s).2 := by
  unfold writeAnswer
  repeat' first
    | with_reducible apply MemOk.refl
    | with_reducible apply MemOk.ite <;> intro _
    | with_reducible apply MemOk.ite2 <;> intro _
    | refine MemOk.frame ?_ (by with_reducible apply State.setDict_frame) (by decide)
    | refine MemOk.step ?_ (by with_reducible apply fanoutWrite_memOk)
    | refine MemOk.pair2 (by assumption) ?_ (by with_reducible apply fanoutWrite_memOk)
    | refine MemOk.step ?_ (by with_reducible apply writeObj_memOk)
    | refine MemOk.pair2 (by assumption) ?_ (by with_reducible apply writeObj_memOk)
    | refine MemOk.frame ?_ (by with_reducible apply writeSeq_frame) (by decide)
    | refine MemOk.fpair2 (by assumption) ?_ (by with_reducible apply writeSeq_frame) (by decide)
    | refine MemOk.frame ?_ (by with_reducible apply keepWrite_frame) (by decide)
    | split
    | dsimp only

theorem answerOf_memOk (c h msg e s) : MemOk s (answerOf c h msg e s).2 := by
  unfold answerOf
  repeat' first
    | with_reducible apply MemOk.refl
    | with_reducible apply MemOk.ite <;> intro _
    | with_reducible apply MemOk.ite2 <;> intro _
    | refine MemOk.step ?_ (by with_reducible apply writeAnswer_memOk)
    | refine MemOk.pair2 (by assumption) ?_ (by with_reducible apply writeAnswer_memOk)
    | refine MemOk.frame ?_ (by with_reducible apply readAnswer_frame) (by decide)
    | refine MemOk.fpair2 (by assumption) ?_ (by with_reducible apply readAnswer_frame) (by decide)
    | split
    | dsimp only

theorem handleNow_memOk (c p msg e s) : MemOk s (handleNow c p msg e s) := by
  unfold handleNow
  repeat' first
    | with_reducible apply MemOk.refl
    | with_reducible apply MemOk.ite <;> intro _
    | refine MemOk.frame ?_ (by with_reducible apply sendAnswer_frame) (by decide)
    | refine MemOk.frame ?_ (by with_reducible apply dropMessage_frame) (by decide)
    | refine MemOk.frame ?_ (by with_reducible apply touchClient_frame) (by decide)
    | refine MemOk.frame ?_ (by with_reducible apply State.setDict_frame) (by decide)
    | refine MemOk.step ?_ (by with_reducible apply answerOf_memOk)
    | refine MemOk.pair2 (by assumption) ?_ (by with_reducible apply answerOf_memOk)
    | refine MemOk.step ?_ (by with_reducible apply softGo_memOk)
    | split
    | dsimp only

theorem handleMsg_memOk (c msg e s) : MemOk s (handleMsg c msg e s) := by
  unfold handleMsg
  repeat' first
    | with_reducible apply MemOk.refl
    | with_reducible apply MemOk.ite <;> intro _
    | refine atService_memOk _ _ _ ?_
    | refine MemOk.step ?_ (by with_reducible apply handleNow_memOk)
    | split
    | dsimp only

theorem request_memOk (r op flags e s) : MemOk s (request r op flags e s) := by
  unfold request
  repeat' first
    | with_reducible apply MemOk.refl
    | with_reducible apply MemOk.ite <;> intro _
    | refine MemOk.step ?_ (by with_reducible apply handleMsg_memOk)
    | refine MemOk.frame ?_ (by with_reducible apply dropFrame_frame) (by decide)
    | split
    | dsimp only

theorem busFrameOp_memOk (bytes s) : MemOk s (busFrameOp bytes s) := by
  unfold busFrameOp
  repeat' first
    | with_reducible apply MemOk.refl
    | with_reducible apply MemOk.ite <;> intro _
    | refine MemOk.step ?_ (by with_reducible apply handleMsg_memOk)
    | split
    | dsimp only

theorem postTakenOp_memOk (c s) : MemOk s (postTakenOp c s) := by
  unfold postTakenOp
  repeat' first
    | with_reducible apply MemOk.refl
    | with_reducible apply MemOk.ite <;> intro _
    | refine MemOk.frame ?_ (by with_reducible apply State.setCore_frame) (by decide)
    | refine MemOk.step ?_ (by with_reducible apply writeObj_memOk)
    | refine MemOk.pair2 (by assumption) ?_ (by with_reducible apply writeObj_memOk)
    | refine MemOk.frame ?_ (by with_reducible apply postStatus_frame) (by decide)
    | refine MemOk.fpair2 (by assumption) ?_ (by with_reducible apply postStatus_frame) (by decide)
    | refine MemOk.frame ?_ (by with_reducible apply tallyEvent_frame) (by decide)
    | refine MemOk.step ?_ (by with_reducible apply storeBytes_memOk)
    | refine MemOk.step ?_ (by with_reducible apply softGo_memOk)
    | refine MemOk.frame ?_ (by with_reducible apply postRefused_frame) (by decide)
    | split
    | dsimp only

theorem objectOp_memOk (idx sub data s) : MemOk s (objectOp idx sub data s) := by
  unfold objectOp
  repeat' first
    | with_reducible apply MemOk.refl
    | with_reducible apply MemOk.ite <;> intro _
    | refine MemOk.step ?_ (by with_reducible apply softGo_memOk)
    | refine MemOk.step ?_ (by with_reducible apply writeObj_memOk)
    | refine MemOk.pair2 (by assumption) ?_ (by with_reducible apply writeObj_memOk)
    | split
    | dsimp only

theorem registerOp_memOk (w s) : MemOk s (registerOp w s) := by
  unfold registerOp
  repeat' first
    | with_reducible apply MemOk.refl
    | with_reducible apply MemOk.ite <;> intro _
    | refine MemOk.step ?_ (by with_reducible apply pairRequest_memOk)
    | refine MemOk.step ?_ (by with_reducible apply issueBus_memOk)
    | refine MemOk.frame ?_ (by with_reducible apply debugTap_frame) (by decide)
    | refine MemOk.step ?_ (by with_reducible apply objectOp_memOk)
    | split
    | dsimp only

end Sys2Proof.Machine
end

