-- ==== Sys2Proof/Laws/MemOkSystem.lean ====
section
/-! SUPPORT. The operations of Machine/System.lean keep the memory's canonical form. -/

set_option Elab.async false

namespace Sys2Proof.Machine

open Sys2Proof

theorem confAct_memOk (kind b s) : MemOk s (confAct kind b s) := by
  unfold confAct
  repeat' first
    | with_reducible apply MemOk.refl
    | with_reducible apply MemOk.ite <;> intro _
    | refine atService_memOk _ _ _ ?_
    | refine MemOk.step ?_ (by with_reducible apply fanoutReceived_memOk)
    | refine MemOk.frame ?_ (by with_reducible apply proposalWait_frame) (by decide)
    | split
    | dsimp only

theorem confParcel_memOk (p c s) : MemOk s (confParcel p c s) := by
  unfold confParcel
  repeat' first
    | with_reducible apply MemOk.refl
    | with_reducible apply MemOk.ite <;> intro _
    | refine MemOk.frame ?_ (by with_reducible apply State.setRelay_frame) (by decide)
    | refine MemOk.frame ?_ (by with_reducible apply queueService_frame) (by decide)
    | refine MemOk.frame ?_ (by with_reducible apply dropConf_frame) (by decide)
    | refine MemOk.step ?_ (by with_reducible apply confAct_memOk)
    | with_reducible refine MemOk.foldl ?_ (fun _ _ => ?_)
    | with_reducible refine MemOk.foldl2 ?_ (fun _ _ => ?_)
    | split
    | dsimp only

theorem parcelIn_memOk (p l c s0) : MemOk s0 (parcelIn p l c s0) := by
  unfold parcelIn
  repeat' first
    | with_reducible apply MemOk.refl
    | with_reducible apply MemOk.ite <;> intro _
    | refine MemOk.frame ?_ (by with_reducible apply crcReached_frame) (by decide)
    | refine MemOk.fpair22 (by assumption) ?_ (by with_reducible apply crcReached_frame) (by decide)
    | refine MemOk.frame ?_ (by with_reducible apply freeCredits_frame) (by decide)
    | refine MemOk.frame ?_ (by with_reducible apply countCrc_frame) (by decide)
    | refine MemOk.frame ?_ (by with_reducible apply countCode_frame) (by decide)
    | refine MemOk.frame ?_ (by with_reducible apply relayCrcFail_frame) (by decide)
    | refine MemOk.frame ?_ (by with_reducible apply relayFailed_frame) (by decide)
    | refine MemOk.frame ?_ (by with_reducible apply modPort_frame) (by decide)
    | refine MemOk.frame ?_ (by with_reducible apply markDone_frame) (by decide)
    | refine MemOk.frame ?_ (by with_reducible apply countReceived_frame) (by decide)
    | refine MemOk.step ?_ (by with_reducible apply deliverParcel_memOk)
    | refine MemOk.frame ?_ (by with_reducible apply mapParcel_frame) (by decide)
    | refine MemOk.step ?_ (by with_reducible apply confParcel_memOk)
    | split
    | dsimp only

theorem counterCopies_memOk (s) : MemOk s (counterCopies s) := by
  unfold counterCopies
  repeat' first
    | with_reducible apply MemOk.refl
    | with_reducible apply MemOk.ite <;> intro _
    | refine MemOk.step ?_ (by with_reducible apply captureOp_memOk)
    | with_reducible refine MemOk.foldl ?_ (fun _ _ => ?_)
    | with_reducible refine MemOk.foldl2 ?_ (fun _ _ => ?_)
    | split
    | dsimp only

theorem copyBy_memOk (x s) : MemOk s (copyBy x s) := by
  unfold copyBy
  repeat' first
    | with_reducible apply MemOk.refl
    | with_reducible apply MemOk.ite <;> intro _
    | refine MemOk.step ?_ (by with_reducible apply counterCopies_memOk)
    | split
    | dsimp only

theorem dueBy_memOk (x s) : MemOk s (dueBy x s) := by
  unfold dueBy
  repeat' first
    | with_reducible apply MemOk.refl
    | with_reducible apply MemOk.ite <;> intro _
    | refine MemOk.step ?_ (by with_reducible apply latchBy_memOk)
    | refine MemOk.step ?_ (by with_reducible apply copyBy_memOk)
    | split
    | dsimp only

theorem compareBy_memOk (c s) : MemOk s (compareBy c s) := by
  unfold compareBy
  repeat' first
    | with_reducible apply MemOk.refl
    | with_reducible apply MemOk.ite <;> intro _
    | refine MemOk.frame ?_ (by with_reducible apply pmCompareOp_frame) (by decide)
    | refine MemOk.step ?_ (by with_reducible apply dueBy_memOk)
    | split
    | dsimp only

theorem stepActions_memOk (s) : MemOk s (stepActions s) := by
  unfold stepActions
  repeat' first
    | with_reducible apply MemOk.refl
    | with_reducible apply MemOk.ite <;> intro _
    | refine MemOk.step ?_ (by with_reducible apply compareBy_memOk)
    | refine MemOk.step ?_ (by with_reducible apply dueBy_memOk)
    | with_reducible refine MemOk.foldl ?_ (fun _ _ => ?_)
    | with_reducible refine MemOk.foldl2 ?_ (fun _ _ => ?_)
    | split
    | dsimp only

theorem serveWaiting_memOk (w s) : MemOk s (serveWaiting w s) := by
  unfold serveWaiting
  repeat' first
    | with_reducible apply MemOk.refl
    | with_reducible apply MemOk.ite <;> intro _
    | refine MemOk.step ?_ (by with_reducible apply handleNow_memOk)
    | refine MemOk.frame ?_ (by with_reducible apply csWriteOp_frame) (by decide)
    | refine MemOk.step ?_ (by with_reducible apply objectOp_memOk)
    | refine MemOk.frame ?_ (by with_reducible apply snapshotWait_frame) (by decide)
    | refine MemOk.frame ?_ (by with_reducible apply globalWrite_frame) (by decide)
    | refine MemOk.frame ?_ (by with_reducible apply commitWait_frame) (by decide)
    | refine MemOk.frame ?_ (by with_reducible apply proposalWait_frame) (by decide)
    | refine MemOk.step ?_ (by with_reducible apply softResetOp_memOk)
    | refine MemOk.step ?_ (by with_reducible apply blockResetOp_memOk)
    | refine MemOk.frame ?_ (by with_reducible apply startWait_frame) (by decide)
    | refine MemOk.step ?_ (by with_reducible apply fanoutReceived_memOk)
    | refine MemOk.frame ?_ (by with_reducible apply ringCommandOp_frame) (by decide)
    | split
    | dsimp only

theorem serviceResume_memOk (s) : MemOk s (serviceResume s) := by
  unfold serviceResume
  repeat' first
    | with_reducible apply MemOk.refl
    | with_reducible apply MemOk.ite <;> intro _
    | refine MemOk.step ?_ (by with_reducible apply serveWaiting_memOk)
    | refine MemOk.frame ?_ (by with_reducible apply State.setDict_frame) (by decide)
    | with_reducible refine MemOk.foldl ?_ (fun _ _ => ?_)
    | with_reducible refine MemOk.foldl2 ?_ (fun _ _ => ?_)
    | split
    | dsimp only

theorem tick_memOk (s) : MemOk s (tick s) := by
  unfold tick
  repeat' first
    | with_reducible apply MemOk.refl
    | with_reducible apply MemOk.ite <;> intro _
    | refine MemOk.frame ?_ (by with_reducible apply countTick_frame) (by decide)
    | refine MemOk.step ?_ (by with_reducible apply serviceResume_memOk)
    | refine MemOk.frame ?_ (by with_reducible apply outPump_frame) (by decide)
    | refine MemOk.step ?_ (by with_reducible apply matrixRun_memOk)
    | refine MemOk.step ?_ (by with_reducible apply serveStack_memOk)
    | refine MemOk.frame ?_ (by with_reducible apply ctlPump_frame) (by decide)
    | refine MemOk.frame ?_ (by with_reducible apply testTick_frame) (by decide)
    | with_reducible refine MemOk.forRange ?_ (fun _ _ => ?_)
    | split
    | dsimp only

end Sys2Proof.Machine
end

