-- ==== Sys2Proof/Laws/Nat.lean ====
section
/-! SUPPORT. The arithmetic of the spec's notation, as Lean's library has it. -/

set_option Elab.async false

namespace Sys2Proof

@[simp] theorem natSub_eq (a b : Nat) : natSub a b = a - b := by unfold natSub; omega

end Sys2Proof
end

