-- ==== Sys2Proof/Laws/Units.lean ====
section
/-! SUPPORT. Reading one unit of a repeated part after one unit has been written. -/

set_option Elab.async false

namespace Sys2Proof.Machine

open Sys2Proof

variable (s : State)

@[simp] theorem State.lane_setLane (l k : Nat) (v : Lane) : (s.setLane l v).lane k = if k = l then v else s.lane k :=
  Tab.get_set ..
@[simp] theorem State.logical_modLogical (l k : Nat) (f : LogLane → LogLane) : (s.modLogical l f).logical k = if k = l then f (s.logical l) else s.logical k :=
  Tab.get_set ..
@[simp] theorem State.ingestQ_setIngest (i k : Nat) (q : List Chunk) : (s.setIngest i q).ingestQ k = if k = i then q else s.ingestQ k :=
  Tab.get_set ..
@[simp] theorem State.cond_setCond (i k : Nat) (v : Cond) : (s.setCond i v).cond k = if k = i then v else s.cond k :=
  Tab.get_set ..
@[simp] theorem State.eng_setEng (e k : Nat) (v : Engine) : (s.setEng e v).eng k = if k = e then v else s.eng k :=
  Tab.get_set ..
@[simp] theorem State.gain_setGain (i k : Nat) (v : GainSt) : (s.setGain i v).gain k = if k = i then v else s.gain k :=
  Tab.get_set ..
@[simp] theorem State.port_setPort (p k : Nat) (v : Port) : (s.setPort p v).port k = if k = p then v else s.port k :=
  Tab.get_set ..
@[simp] theorem State.stk_setStk (n k : Nat) (v : Stack) : (s.setStk n v).stk k = if k = n then v else s.stk k :=
  Tab.get_set ..
@[simp] theorem State.ring_setRing (r k : Nat) (v : Ring) : (s.setRing r v).ring k = if k = r then v else s.ring k :=
  Tab.get_set ..
@[simp] theorem State.core_setCore (c k : Nat) (v : Core) : (s.setCore c v).core k = if k = c then v else s.core k :=
  Tab.get_set ..
@[simp] theorem State.srcState_modSrc (n k : Nat) (f : SrcState → SrcState) : (s.modSrc n f).srcState k = if k = n then f (s.srcState n) else s.srcState k :=
  Tab.get_set ..
@[simp] theorem State.blk_modBlk (n k : Nat) (f : Blk → Blk) : (s.modBlk n f).blk k = if k = n then f (s.blk n) else s.blk k :=
  Tab.get_set ..

@[simp] theorem State.lane_modLane (l k : Nat) (f : Lane → Lane) :
    (s.modLane l f).lane k = if k = l then f (s.lane l) else s.lane k := State.lane_setLane ..

end Sys2Proof.Machine
end

