-- ==== Sys2Proof/Tests/Slice0.lean ====
section
/-! SUPPORT. Tests: operands that the well-formedness checks refuse, results worked out by hand from the spec, and, for every
statement with hypotheses, states and operands that meet them. -/

set_option Elab.async false

namespace Sys2Proof.Tests

open Sys2Proof Sys2Proof.Machine

/-- The reset state with a lane. -/
def laneAt (l : Nat) (v : Lane) : State := State.reset.setLane l v
/-- The reset state with settings in force. -/
def cfgAs (l : List (Nat × Nat)) : State :=
  { State.reset with dict := { base := l.foldl (fun m e => m.set objDefault e.1 e.2) [] } }
def args (arg : Nat) (side : Bool) : LaneArgs := ⟨BitVec.ofNat 8 arg, side, false, 0⟩
/-- A control packet with a right CRC. -/
def ctlOf (ty seq : Nat) (a0 : BitVec 64) (a1 : BitVec 32) (crc : BitVec 32) : Ctl := ⟨BitVec.ofNat 8 ty, BitVec.ofNat 8 seq, 0, a0, a1, crc⟩
/-- A 2 × 1 torus, in both sets, with a port in a state, whose first two lanes run. -/
def torus (p : Nat) (v : Port) : State :=
  let s := cfgAs [(ob 0x6100 1, 2), (ob 0x6100 3, 1)]
  { s with dict := { s.dict with shadow := s.dict.base }
           lanes := { lane := [(portLane p 0, { rx := .running }), (portLane p 1, { rx := .running })] } }.setPort p v
/-- The reset state with the service up and a Timetable. -/
def withTt (t : Timetable) (s : State) : State := { s with dict := { s.dict with tt := t, up := true } }
/-- A state with bytes at bus addresses. -/
def sramAs (l : List (Nat × Byte)) (s : State) : State := l.foldl (fun s e => putByte e.1 e.2 s) s
/-! ### Lanes -/

/-- 03 R82: STATE 0x03 (ALIGNED, RUNNING), MIRROR 0xFF: CHK = 0x03 xor 0xFF xor 0x5A = 0xA6. -/
theorem test_status_word : completes (.statusWordSend 7) (laneAt 7 { rx := .running, aligned := true })
    fun t => t.outbox = [.statusWord 7 3 255 0xA6] := ⟨_, rfl, by decide⟩
/-- 03 R65: a running lane that loses lock counts it and goes to ACQUIRE. -/
theorem test_cdr_lock_loss : completes (.cdrLockLoss 3) (laneAt 3 { rx := .running, aligned := true, syncLosses := 0xFFFFFFFF })
    fun t => (t.lane 3).rx = .acquire ∧ (t.lane 3).syncLosses = 0xFFFFFFFF ∧ t.so.waiting = [⟨3, 1, 0, false⟩] :=
  ⟨_, rfl, by decide⟩
/-- 03 R84: CRC-32 of the nine characters 1 to 9 is 0xCBF4_3926. -/
theorem test_crc32 : crc32 [0x31, 0x32, 0x33, 0x34, 0x35, 0x36, 0x37, 0x38, 0x39] = 0xCBF43926 := by decide +kernel

theorem witness_lane_events :
    ((laneAt 5 { rx := .align }).lane 5).rx = .align ∧
    (let s := { laneAt 5 { rx := .align } with time := { mono := 25000 } }
     (s.lane 5).rx = .align ∧ (s.lane 5).alignRaised = false ∧ (s.lane 5).alignAt + us 100 ≤ s.now) ∧
    ((laneAt 221 { rx := .running }).lane 221).rx.listening = true ∧ (State.reset.lane 0).rx.listening = false ∧
    returning 5 (laneAt 96 { spare := .leaving 5 }) := by
  refine ⟨by decide, by decide, by decide, by decide, by decide, by decide⟩
theorem witness_lane_commands :
    ((args 39 false).arg.toNat ≤ 39 ∧ ((laneAt 221 { rx := .sync }).lane 221).rx = .sync) ∧
    ((State.reset.lane 0).tx = .active ∧ (State.reset.lane 0).rx ≠ .running) ∧
    ((laneAt 1 { tx := .sleep, rx := .sleep }).lane 1).tx = .sleep ∧
    (let s := laneAt 1 { tx := .test, rx := .test }
     (args 2 true).arg.toNat ≤ 2 ∧ (args 2 true).side = true ∧ (s.lane 1).tx = .test ∧ (s.lane 1).rx = .test) ∧
    ((args 5 true).side = true ∧ 1 ≤ (args 5 true).arg.toNat ∧ (args 5 true).arg.toNat ≤ 5) ∧
    ((laneAt 1 { rx := .running }).lane 1).rx = .running ∧ (39 < (args 40 false).arg.toNat) := by decide
theorem witness_lane_counters :
    ((laneAt 9 { rx := .sync }).lane 9).rx ≠ .acquire ∧ ((laneAt 9 { rx := .test, chkLock := true }).lane 9).rx = .test ∧
    prbsTaps 1 = some (7, 6) ∧ (State.reset.lane 99).tx = .active ∧
    ((laneAt 9 { rx := .test, chk := { pattern := 5, clean := 63 } }).lane 9).chkLock = false ∧
    wrongBits ((laneAt 9 { rx := .test, chk := { pattern := 5, clean := 63 } }).lane 9) (natBits 40 (encodeWord false idleSyms).1) = 0 ∧
    ((laneAt 3 { tx := .sleep, driver := false }).lane 3).tx ≠ .active := by decide +kernel
theorem witness_sparing :
    (let s := laneAt 99 { rx := .sync }
     (s.lane 99).rx = .sync ∧ (s.lane 99).spare = .free ∧ coverSpare 95 = 99 ∧ s.gen 99 = s.gen (s.serving 95) ∧
       s.latched 99 = false) ∧
    (let s := (laneAt 96 { spare := .serving 0 }).setLane 0 { rx := .sync }
     (s.lane 96).spare = .serving 0 ∧ (s.lane 0).rx = .sync ∧ s.latched 96 = false ∧ s.latched 0 = false) ∧
    (let s := { laneAt 96 { spare := .asking 3 0 } with time := { mono := 200000 } }
     (s.lane 96).spare = .asking 3 0 ∧ 0 + us (s.cfg (ob 0x4000 2)) ≤ s.now) ∧
    (let s := { laneAt 23 { rx := .align, leftAt := some 0 } with time := { mono := 25000 } }
     s.serving 23 = 23 ∧ s.failDue 23 = true ∧ State.reset.failDue 23 = false) := by decide

/-- A frame of one input of 4-bit samples, all zero, on logical lane 2, with stamp 0 and every V bit set. -/
def frame0 : LinkFrame :=
  ⟨0, 0, false, false, true, 2, 0, 1, 0, 0xF01, List.replicate 512 0, 0x542a2c98⟩
/-- The settings of that frame's lane. -/
def link0 : State := (cfgAs [(ob 0x4202 2, 1), (ob 0x4202 3, 1)]).setLane 2 { rx := .running }
theorem crc_append (c : Nat) (a b : List Byte) : crcRun c (a ++ b) = crcRun (crcRun c a) b := by
  induction a generalizing c with
  | nil => rfl
  | cons x r ih => exact ih _
theorem crc_zeros_1 : crcRun 0xeedcb454 (List.replicate 128 0) = 0x981314ce := by decide +kernel
theorem crc_zeros_2 : crcRun 0x981314ce (List.replicate 128 0) = 0x3bf8e362 := by decide +kernel
theorem crc_zeros_3 : crcRun 0x3bf8e362 (List.replicate 128 0) = 0x22e46ebb := by decide +kernel
theorem crc_zeros_4 : crcRun 0x22e46ebb (List.replicate 128 0) = 0xabd5d367 := by decide +kernel
theorem frame0_crc : crc32 (linkCovered frame0) = frame0.crc.toNat := by
  have e : linkCovered frame0 = [2, 0, 1, 0, 0, 0, 0, 0, 0, 0, 0, 1, 15, 0, 0] ++ (List.replicate 128 0 ++
      (List.replicate 128 0 ++ (List.replicate 128 0 ++ List.replicate 128 0))) := by decide +kernel
  have h : crcRun 0xFFFFFFFF [2, 0, 1, 0, 0, 0, 0, 0, 0, 0, 0, 1, 15, 0, 0] = 0xeedcb454 := by decide +kernel
  rw [crc32, e, crc_append, crc_append, crc_append, crc_append, h, crc_zeros_1, crc_zeros_2, crc_zeros_3, crc_zeros_4]
  decide
theorem witness_link_frame :
    link0.servedBy 2 = some 2 ∧ (link0.lane 2).rx = .running ∧ (link0.lane 2).loopback = 0 ∧ injFor 2 3 link0 = none ∧
    frame0.payload.length = payloadBytes (link0.cfgAt 0 (ob 0x4202 2)) (link0.cfgAt 0 (ob 0x4202 3)) ∧
    frame0.linkId.toNat = link0.cfgAt 0 (ob 0x4202 1) ∧ frame0.fmt.toNat % 8 = link0.cfgAt 0 (ob 0x4202 2) ∧
    frame0.fmt.toNat / 8 % 4 + 1 = link0.cfgAt 0 (ob 0x4202 3) ∧ frame0.info.toNat % 256 = link0.cfgAt 0 (ob 0x4202 4) ∧
    (link0.logical 2).expected = none ∧
    (let s := link0.modLogical 2 fun _ => { expected := some 1024 }
     s.servedBy 2 = some 2 ∧ (s.logical 2).expected = some 1024 ∧ 1024 ≤ frame0.stamp.toNat + 1024 * s.cfgAt 0 (ob 0x4202 4)) ∧
    (let s := link0.modLogical 2 fun _ => { expected := some 1025 }
     frame0.stamp.toNat + 1024 * s.cfgAt 0 (ob 0x4202 4) < 1025) := by decide +kernel
/-- A frame that does not pass its checks on a spare that asks for lane 2, and the lane. -/
theorem witness_frame_on_a_waiting_spare :
    (let s := laneAt 96 { rx := .running, spare := .asking 2 0 }
     s.servedBy 96 = none ∧ (s.lane 96).rx.listening = true ∧ (s.lane 96).loopback = 0 ∧
       wouldTake s 2 { frame0 with invalid := 1 } = false) := by
  decide +kernel

/-- Every check of 03 R89 fails alone: the link's frame with one field or one setting changed. -/
theorem witness_bad_frames :
    crc32 (linkCovered { frame0 with crc := 0 }) ≠ 0 ∧
    (let s := (cfgAs [(ob 0x4202 1, 5), (ob 0x4202 2, 1), (ob 0x4202 3, 1)]).setLane 2 { rx := .running }
     s.servedBy 2 = some 2 ∧ frame0.payload.length = payloadBytes (s.cfgAt 0 (ob 0x4202 2)) (s.cfgAt 0 (ob 0x4202 3)) ∧
       frame0.linkId.toNat ≠ s.cfgAt 0 (ob 0x4202 1)) ∧
    (let s := (cfgAs [(ob 0x4202 2, 1), (ob 0x4202 3, 1), (ob 0x4202 4, 4)]).setLane 2 { rx := .running }
     frame0.linkId.toNat = s.cfgAt 0 (ob 0x4202 1) ∧ frame0.info.toNat % 256 ≠ s.cfgAt 0 (ob 0x4202 4)) ∧
    (let s := cfgAs [(ob 0x4202 2, 1), (ob 0x4202 3, 2)]
     frame0.payload.length ≠ payloadBytes (s.cfgAt 0 (ob 0x4202 2)) (s.cfgAt 0 (ob 0x4202 3))) ∧
    (0 + us 200 < 50001 ∧ us 200 = 50000 ∧ 1 < link0.cfg (ob 0x4000 3) ∧ (link0.lane 2).crcTimes = []) ∧
    (let s := (cfgAs [(ob 0x4000 3, 1), (ob 0x4202 2, 1), (ob 0x4202 3, 1)]).setLane 2 { rx := .running }
     s.servedBy 2 = some 2 ∧ s.cfg (ob 0x4000 3) ≤ (s.now :: (s.lane 2).crcTimes.filter fun x => s.now < x + ms 1).length) ∧
    ((laneAt 2 { loopback := 1 }).lane 2).loopback ≠ 0 := by
  refine ⟨?_, by decide +kernel, by decide +kernel, by decide +kernel, by decide +kernel, by decide +kernel, by decide⟩
  rw [show linkCovered { frame0 with crc := 0 } = linkCovered frame0 from rfl, frame0_crc]
  decide
/-- The same frame at stamp 250,001, more than 1 ms early at Postmark 0. -/
def frameE : LinkFrame := { frame0 with stamp := 250001, crc := 4047374772 }
theorem crc_early_1 : crcRun 4258146719 (List.replicate 128 0) = 3936122866 := by decide +kernel
theorem crc_early_2 : crcRun 3936122866 (List.replicate 128 0) = 3321257233 := by decide +kernel
theorem crc_early_3 : crcRun 3321257233 (List.replicate 128 0) = 1613248710 := by decide +kernel
theorem crc_early_4 : crcRun 1613248710 (List.replicate 128 0) = 247592523 := by decide +kernel
theorem witness_early_frame : crc32 (linkCovered frameE) = frameE.crc.toNat ∧ link0.pm + ms 1 < frameE.stamp.toNat ∧
    frameE.info.toNat % 256 = link0.cfgAt 250001 (ob 0x4202 4) ∧ 250001 % link0.cfgAt 250001 (ob 0x4202 4) = 0 := by
  refine ⟨?_, by decide +kernel, by decide +kernel, by decide +kernel⟩
  have e : linkCovered frameE = [2, 0, 1, 145, 208, 3, 0, 0, 0, 0, 0, 1, 15, 0, 0] ++ (List.replicate 128 0 ++
      (List.replicate 128 0 ++ (List.replicate 128 0 ++ List.replicate 128 0))) := by decide +kernel
  have h : crcRun 0xFFFFFFFF [2, 0, 1, 145, 208, 3, 0, 0, 0, 0, 0, 1, 15, 0, 0] = 4258146719 := by decide +kernel
  rw [crc32, e, crc_append, crc_append, crc_append, crc_append, h, crc_early_1, crc_early_2, crc_early_3, crc_early_4]
  decide
theorem witness_takes_over :
    (let s := laneAt 96 { rx := .running, spare := .asking 2 0 }
     s.servedBy 96 = none ∧ (s.lane 96).spare = .asking 2 0) ∧
    wouldTake (cfgAs [(ob 0x4202 2, 1), (ob 0x4202 3, 1)]) 2 frame0 = true := by
  refine ⟨by decide +kernel, ?_⟩
  have h := frame0_crc
  unfold wouldTake frameVerdict
  rw [h]
  decide +kernel
theorem witness_spare_events :
    (let s := (laneAt 96 { spare := .leaving 5 }).setLane 5 { rx := .sync }
     (s.lane (coverSpare 5)).spare = .leaving 5 ∧ (s.lane 5).rx = .sync) ∧
    (let s := { laneAt 96 { rx := .align, leftAt := some 0 } with time := { mono := 25000 } }
     s.failDue 96 = true) ∧
    (let s := { (laneAt 3 { rx := .align, leftAt := some 0 }).setLane 96 { rx := .sync } with
       time := { mono := 25000 }, dict := { base := [(ob 0x4000 1, 1)] } }
     s.serving 3 = 3 ∧ s.failDue 3 = true ∧ s.cfg (ob 0x4000 1) = 1 ∧ s.spareInOk (coverSpare 3) 3 = true) ∧
    (7 : Nat) ≤ ((laneAt 9 { rx := .test, chkLock := true, chk := { pattern := 1, reg := List.replicate 7 true } }).lane 9).chk.reg.length := by
  decide +kernel

/-! ### Conditioning and channeliser -/

/-- A live input with a next record. -/
def live0 : State := ((cfgAs [(ob (inIdx 383) 8, 1)]).setCond 383 { live := true, next := some { eff := 8192, dint := 70000 } })
/-- 04 R98 by hand: k = 16, s = 4096, window 1 2 50 3 4: median 3, dev 47·4096, thr 4096, a spike; s stays. -/
theorem test_spike : spikeTest 16 0 4 4096 [1, 2, 50, 3, 4] 50 = (true, 3, 4096) := by decide +kernel
/-- 04 R101: DINT above 65,535 cannot be coded; a switch at EFF′ takes the record, clamped for a complex input. -/
theorem test_record_switch : completes (.delayFrameStart 383 8192) { live0 with time := { pm := 60000 } } fun t =>
    (t.cond 383).cur.eff = 8192 ∧ (t.cond 383).next = none ∧ (t.cond 383).steps = 1 ∧ (t.cond 383).late = 0 :=
  ⟨_, rfl, by decide +kernel⟩
theorem witness_delay_records :
    ((live0.cond 383).live = true ∧ (live0.cond 383).cur.eff < (decodeDelay (live0.inF 5 383) 5).eff ∧
      (live0.cond 383).next ≠ none ∧ (decodeDelay (live0.inF 5 383) 5).eff = 8192) ∧
    (let s := { live0 with time := { pm := 8192 } }
     s.frameDue 383 8192 = true ∧ (s.cond 383).nextOut = none ∧ 0 < s.inF 8192 383 ∧ s.inCfg 8192 383 8 = 1) ∧
    (let s := { live0 with time := { pm := 58193 } }
     s.frameDue 383 8192 = true ∧ (s.cond 383).nextOut = none ∧ s.outDue 383 8192 = true ∧ 0 < s.inF 8192 383) ∧
    State.reset.frameDue 3 5 = false ∧ (State.reset.cond 0).live = false := by decide +kernel
theorem witness_spike_filter :
    ([3, 1, 2] : List Int).length % 2 = 1 ∧ (16777216 : Nat) ≤ 2 ^ 24 ∧ (-2047 : Int).natAbs ≤ 2047 ∧
    takeSample ((State.reset.setIngest 7 [.data 0 1 false 0 [(5, 0, true)]]).ingestQ 7) = some (⟨0, 5, 0, true, false, 0⟩, 1, []) ∧
    (let s := State.reset.setCond 7 { win := [⟨9, 0, 0, true, false, 0⟩] }
     (s.cond 7).win.getLast? = some ⟨9, 0, 0, true, false, 0⟩ ∧ (0 : Nat) < 9 + s.inP 9 7) ∧
    (State.reset.cond 7).win.getLast? = none ∧
    (let s := { State.reset.setCond 1 { nextOut := some 1 } with time := { pm := 50002 } }
     (s.cond 1).nextOut = some 1 ∧ s.outDue 1 1 = true ∧ s.frameOpen 1 1 = true ∧ s.frameDue 1 1 = false ∧ injFor (engSrc (1 / 16)) 1 s = none) := by
  decide +kernel
theorem witness_gain :
    (roundUp 0 (State.reset.inF 0 0) ≤ (State.reset.gain 0).eff) ∧
    ((State.reset.gain 0).eff < roundUp 1 (State.reset.inF 1 0) ∧ (State.reset.gain 0).next = none) ∧
    (let g := (State.reset.setGain 5 { next := some ⟨8192, 0, 0, []⟩, cut := some 16384 }).gain 5
     g.next = some ⟨8192, 0, 0, []⟩ ∧ g.cut = some 16384) ∧
    (let d : FrameDec := ⟨plainProfile 8192 1, 0, none, 0, 0⟩
     let s := (State.reset.setEng 0 { decs := [(0, d)] }).setCond 0 { nextOut := some 8192 }
     (s.eng 0).decFor 0 = some d ∧ 0 % s.inF 0 0 = 0 ∧ 4095 < s.channels 0 0 ∧ 0 + s.inF 0 0 ≤ 8192 ∧
       s.frameValid 0 0 d = false) := by
  refine ⟨by decide +kernel, by decide +kernel, by decide +kernel, by decide +kernel⟩
/-- A frame whose window is wholly valid. -/
theorem witness_banks :
    (State.reset.eng 0).bankBusy false = true ∧ (State.reset.eng 0).bankBusy true = false ∧
    State.reset.loadRefused 0 false = true ∧ State.reset.loadRefused 0 true = false ∧ (cfgAs [(ob 0x5000 0x16, 1)]).loadRefused 0 true = true ∧
    State.reset.romSource 0 1 = some (plainProfile 8192 1) ∧
    romCode (bits 15 8 0x101) = true ∧ bit 0 0x101 = true ∧
    checkImage 8192 1 1 false [] = none ∧
    (State.reset.romSource 0 0x80 = none) ∧
    (let s := (State.reset.setEng 3 { b := { st := .loading, loaded := some (plainProfile 8192 1) } }).setEng 4 { b := { skip := true } }
     ((s.eng 3).bank true).skip = false ∧ ((s.eng 3).bank true).loaded ≠ none ∧ ((s.eng 4).bank true).skip = true) ∧
    (bit 0 0x8001 = true ∧ romCode (bits 15 8 0x8001) = true ∧ 0x80 ≤ bits 15 8 0x8001 ∧
      ((State.reset.eng 0).bank true).st ≠ .loading ∧ State.reset.encl.damaged.contains (ob (0x3010 + (bits 15 8 0x8001 - 0x80)) 1) = false) ∧
    (let s := State.reset.setEng 3 { b := { st := .loading, loaded := some (plainProfile 8192 1) } }
     ((s.eng 3).bank true).st = .loading ∧ ((s.eng 3).bank true).loaded = some (plainProfile 8192 1)) ∧
    (let s := { State.reset with time := { pm := 49152 } }
     ((s.eng 3).bank true).st = .warming ∧
      ((s.eng 3).bank true).start + (settle ((s.eng 3).bank true).prof.coef.T (s.decD lastSet) + 1) * s.engF lastSet 3 ≤ s.pm + 8) := by
  decide +kernel
theorem witness_swaps :
    bit 96 (2 ^ 64 : Nat) = false ∧ bits 91 88 (12 * 2 ^ 88) ≤ 12 ∧ bit (64 + 23) (2 ^ 87 : Nat) = true ∧
    12 < bits 91 88 (13 * 2 ^ 88) ∧
    (let s := { State.reset.setEng 2 { pending := some (8192, 12, false), b := { st := .ready } } with time := { pm := 8192 } }
     8192 % s.engF 8192 2 = 0 ∧ 8192 ≤ s.pm ∧ s.dueSet (engSrc 2) 8192 = none ∧ injFor (engSrc 2) 2 s = none ∧
       (s.eng 2).lastFrame = none ∧ (s.eng 2).pending = some (8192, 12, false) ∧ ((s.eng 2).bank (!(s.eng 2).active)).st = .ready) ∧
    (let s := { State.reset.setEng 2 { fading := true, fadeE := 8192, latched := some (16384, 0, false) } with time := { pm := 8192 } }
     (s.eng 2).fading = true ∧ (s.eng 2).fadeE ≤ 8192 ∧ (s.eng 2).latched = some (16384, 0, false) ∧ (s.eng 2).fadeE < 16384) ∧
    (let s := { State.reset.setEng 4 { syncs := [16384, 8192], recovery := some (8192, true) } with time := { pm := 8192 } }
     leastOf (s.eng 4).syncs = some 8192 ∧ s.boundaryDue 4 8192 = true ∧ (s.eng 4).latched = none ∧
       (s.eng 4).recovery = some (8192, true)) ∧
    (let s := { State.reset.setEng 2 { syncs := [16384], recovery := some (16384, false) } with time := { pm := 8192 } }
     (∀ p ∈ (s.eng 2).syncs, 8192 < p) ∧ (s.eng 2).recovery = some (16384, false) ∧ (s.eng 2).lastFrame = none) := by
  decide +kernel
/-- 05 R142: a held request for a ready bank swaps at the frame start with a fade of 2^12 samples. -/
theorem test_swap_with_fade :
    completes (.channeliserFrameStart 2 8192 .ok .ok 0)
      { State.reset.setEng 2 { pending := some (8192, 12, false), b := { st := .ready } } with time := { pm := 8192 } }
      fun t => (t.eng 2).active = true ∧ (t.eng 2).fadeE = 8192 + 4096 * 8192 ∧ (t.eng 2).a.st = .fadingOut ∧
        (t.eng 2).b.st = .active := ⟨_, rfl, by decide +kernel⟩

/-- The other rows of 05 Table 05.5: a bank that warms or is empty at its swap, and a fade that goes on. -/
theorem witness_swap_rows :
    (let s := { State.reset.setEng 2 { pending := some (8192, 0, true), b := { st := .warming } } with time := { pm := 8192 } }
     8192 % s.engF 8192 2 = 0 ∧ (s.eng 2).fading = false ∧ ((s.eng 2).bank (!(s.eng 2).active)).st = .warming) ∧
    (let s := State.reset.setEng 2 { pending := some (8192, 0, false), b := { st := .empty } }
     ((s.eng 2).bank (!(s.eng 2).active)).st = .empty ∧ (s.eng 2).pending = some (8192, 0, false)) ∧
    (let s := State.reset.setEng 2 { fading := true, fadeE := 16384, latched := none }
     (s.eng 2).fading = true ∧ 8192 < (s.eng 2).fadeE ∧ (s.eng 2).latched = none) ∧
    (let s := { State.reset.setEng 2 {} with dict := { blks := [(engSrc 2, { activeValid := true })] } }
     (s.blk (engSrc 2)).activeValid = true ∧ s.dueSet (engSrc 2) 8192 = none) := by decide +kernel

/-! ### Relay -/

/-- 06 R181: the port answers a PING with a PONG that carries its Postmark. -/
theorem test_ping : completes (.ping 1 (ctlOf 2 1 77 0 0x4c96e51e)) { torus 1 { st := .linked } with time := { pm := 1000 } } fun t =>
    t.outbox = [.ctl 1 [0, 1] 3 1 255 1000 0 2972981081] ∧ (t.port 1).rxSeq = 1 := ⟨_, rfl, by decide +kernel⟩
/-- 06 R171: CRED = 0x0102 has CHK = 0x02 xor 0x01 xor 0xA5 = 0xA6. -/
theorem test_credit_word : completes (.creditWord 0 3 0x0102 0xA6) (laneAt (portLane 0 3) { rx := .running }) fun t => (t.crd 0 3).cred = 0x0102 :=
  ⟨_, rfl, by decide +kernel⟩
/-- 06 R161: on a ring of 4 the part two steps away is reached east or west by the parity of the source column and the
destination row. -/
theorem test_next_port : nextPort 4 4 0 0 0 0 2 0 = some 1 ∧ nextPort 4 4 0 0 0 0 2 1 = some 3 ∧ nextPort 4 4 0 0 0 0 3 0 = some 3 ∧
    nextPort 4 4 2 1 0 0 2 1 = none := by decide
theorem witness_relay_ports :
    crc32 (ctlCovered (ctlOf 1 1 5 775 0xf415c888)) ≠ (ctlOf 1 1 5 775 0xf415c888).crc.toNat ∧
    (let s := torus 1 { st := .hello }
     goodCtl 1 1 (ctlOf 1 1 5 775 0xf415c889) s ∧ (ctlOf 1 1 5 775 0xf415c889).arg1.toNat % 4 = oppPort 1 ∧
       (ctlOf 1 1 5 775 0xf415c889).arg1.toNat / 4 % 256 = s.helloArg 1 / 4 % 256 ∧
       goodCtl 1 1 (ctlOf 1 1 5 1 0xd338290c) s ∧ (ctlOf 1 1 5 1 0xd338290c).arg1.toNat % 4 ≠ oppPort 1 ∧
       goodCtl 1 1 (ctlOf 1 1 5 3 0x7931e187) s ∧ (ctlOf 1 1 5 3 0x7931e187).arg1.toNat / 4 % 256 ≠ s.helloArg 1 / 4 % 256) ∧
    (let s := torus 1 { st := .linked, neighbour := 5 }
     goodCtl 1 1 (ctlOf 1 127 5 0 0x4a70a8ac) s ∧ (s.port 1).st.linkedUp = true ∧ (ctlOf 1 127 5 0 0x4a70a8ac).arg0.toNat = (s.port 1).neighbour ∧
       goodCtl 2 1 (ctlOf 2 1 0 0 0xe25a5300) s ∧ ¬ (1 ≤ ((ctlOf 1 128 5 0 0x75f840fd).cseq.toNat + 256 - (s.port 1).rxSeq) % 256 ∧
         ((ctlOf 1 128 5 0 0x75f840fd).cseq.toNat + 256 - (s.port 1).rxSeq) % 256 ≤ 127)) ∧
    (let s := torus 1 { st := .hello, neighbour := 5 }
     let x : Port := { s.heard 1 (ctlOf 3 1 10 0 0xb1966089) with exch := [((0 : Int), 20)] }
     goodCtl 3 1 (ctlOf 3 1 10 0 0xb1966089) s ∧ (s.port 1).neighbour ≠ 0 ∧ x.sums = (1, 0, 20)) ∧
    ({ exch := [((21 : Int), -11)] } : Port).sums.2.1 = 21 ∧ goodCtl 3 1 (ctlOf 3 1 200 0 0xd092606) (torus 1 { st := .linked }) ∧
    ({ exch := [((0 : Int), 200)] } : Port).sums.2.2.natAbs = 200 ∧ State.reset.ctlHeard 2 = false ∧
    goodCtl 1 1 (ctlOf 1 1 5 775 0xf415c889) (torus 1 {}) := by
  unfold goodCtl; decide +kernel
theorem witness_relay_port_timing :
    (let s := ((torus 1 { }).setLane (portLane 1 0) { rx := .running }).setLane (portLane 1 1) { rx := .running }
     (s.port 1).st = .down ∧ s.cfg (ob 0x6100 3) = 1 ∧ portUnused s.disc 1 = false ∧ s.served 1 0 = true ∧ s.served 1 1 = true) ∧
    (let s := { torus 1 { st := .hello } with time := { mono := 2500000 } }
     (s.port 1).st ≠ .down ∧ (s.port 1).lastHello + ms 10 ≤ s.now) ∧
    (let s := { State.reset.setPort 1 { st := .hello } with time := { mono := 25000 } }
     (s.port 1).st ≠ .down ∧ s.unserved100 1 0 = true ∧ s.unserved100 1 1 = true) := by
  decide +kernel
/-- A part with no neighbours on an unused torus of two: the map is never whole. -/
theorem witness_map :
    (let s := (torus 1 { st := .linked }).setPort 3 { st := .linked }
     s.alone = false ∧ s.relay.mapValid = false ∧ s.relay.mapBad = none ∧ s.usedPorts = [1, 3] ∧
       (∀ p ∈ s.usedPorts, (s.port p).st.linkedUp = true) ∧ s.relay.mapRound < 2 / 2 + 1 / 2) ∧
    mapOk 2 1 [⟨1, 0, 2, 0, 2⟩, ⟨2, 0, 1, 0, 1⟩] = true ∧ mapOk 2 1 [⟨1, 0, 2, 0, 2⟩] = false ∧
    leastOf [2, 1] = some 1 ∧ coordsOf 2 1 [⟨1, 0, 2, 0, 2⟩, ⟨2, 0, 1, 0, 1⟩] 1 2 = some (1, 0) ∧
    goodCtl 9 1 (ctlOf 9 1 7 1 0xf08a7b14) (torus 1 { st := .linked }) ∧
    (let s := { torus 1 { } with relay := { mapValid := true, mapBad := some 0 }, time := { mono := 250000000 } }
     s.mapHolds = false ∧ 0 + 250000000 ≤ s.now) := by unfold goodCtl; decide +kernel
/-- A map of a ring of two, seen from part z. -/
def ring2 (z : Nat) : List MapEntry := [⟨z, 0, z + 1, 0, z + 1⟩, ⟨z + 1, 0, z, 0, z⟩]
theorem ring2_ok (z : Nat) : mapOk 2 1 (ring2 z) = true := by
  simp [mapOk, ring2, findEntry, ringOk, follow]
/-- A part between two ports to one neighbour, whose map is a round old. -/
def ringed (valid : Bool) : State :=
  let v : Port := { st := .linked, neighbour := Config.serialNumber + 1 }
  { torus 1 v with relay := { port := [(1, v), (3, v)], mapValid := valid, mapRound := 1, map := ring2 Config.serialNumber } }
theorem ringed_entry (v : Bool) : (ringed v).ownEntry = ⟨Config.serialNumber, 0, Config.serialNumber + 1, 0, Config.serialNumber + 1⟩ := by
  cases v <;> rfl
theorem witness_map_holds : (ringed true).mapHolds = true ∧ (ringed true).relay.mapValid = true := by
  refine ⟨?_, rfl⟩
  unfold State.mapHolds
  rw [ringed_entry]
  have e : (ringed true).relay.map = ring2 Config.serialNumber := rfl
  have e1 : torA (ringed true).disc = 2 := by decide +kernel
  have e2 : torB (ringed true).disc = 1 := by decide +kernel
  rw [e, e1, e2, ring2_ok]
  simp [ring2]
theorem witness_map_checked :
    (ringed false).relay.mapValid = false ∧ (ringed false).usedPorts = [1, 3] ∧ 2 / 2 + 1 / 2 ≤ (ringed false).relay.mapRound ∧
    mapOk 2 1 (mergeEntry (ringed false).relay.map (ringed false).ownEntry) = true ∧
    leastOf ((mergeEntry (ringed false).relay.map (ringed false).ownEntry).map MapEntry.serial) = some Config.serialNumber := by
  have e : mergeEntry (ringed false).relay.map (ringed false).ownEntry = ring2 Config.serialNumber := by
    rw [ringed_entry]
    have e : (ringed false).relay.map = ring2 Config.serialNumber := rfl
    rw [e]
    simp [mergeEntry, ring2]
  rw [e, ring2_ok]
  refine ⟨rfl, by decide +kernel, by decide, rfl, ?_⟩
  simp [ring2, leastOf]
theorem witness_lane_moves :
    goodCtl 7 1 (ctlOf 7 1 2500 6423 0x270bc7b8) (torus 1 { st := .linked }) ∧
    (let s := torus 1 { st := .linked }
     s.pm + us 10 ≤ 2500 ∧ (23 + 256 * 25) % 256 < 24 ∧ (23 + 256 * 25) / 256 % 256 = 25) ∧
    goodCtl 8 1 (ctlOf 8 1 2500 6423 0x73830425) (torus 1 { st := .linked }) ∧
    (let s := { torus 1 { moves := [⟨3, 24, 512, none⟩] } with time := { pm := 512 } }
     (s.port 1).moves.find? (fun m => m.l == 3) = some ⟨3, 24, 512, none⟩ ∧ 512 ≤ s.pm ∧ 24 ≠ s.rxPhys 1 3) ∧
    ((torus 1 { moves := [⟨3, 24, 512, some false⟩] }).port 1).moves.find? (fun m => m.l == 3 && m.ack == some false) =
      some ⟨3, 24, 512, some false⟩ ∧
    (let s := { ((torus 1 { }).setLane (portLane 1 3) { rx := .align, leftAt := some 0 }).setLane (portLane 1 24) { rx := .sync }
       with time := { mono := 25000 } }
     s.failDue (portLane 1 3) = true ∧ s.rxPhys 1 3 = 3 ∧ (s.port 1).moves = [] ∧ s.cfg (ob 0x6100 6) = 1 ∧ s.relaySpareFree 1 24 = true) ∧
    (let s := (torus 1 { rx25 := some 3 }).setLane (portLane 1 3) { rx := .sync }
     (s.port 1).rx25 = some 3 ∧ (s.lane (portLane 1 3)).rx = .sync ∧ s.latched (portLane 1 25) = false ∧
       s.latched (portLane 1 3) = false) := by unfold goodCtl; decide +kernel
theorem witness_credits :
    (let s := { (torus 1 { }).setCrd 1 2 { heldSince := some 0 } with time := { mono := 501 } }
     (s.crd 1 2).heldSince = some 0 ∧ (s.crd 1 2).stalled = false ∧ 0 + 500 < s.now) ∧
    ((torus 1 { }).lane (portLane 1 ((torus 1 { }).rxPhys 1 2))).tx = .active ∧ (torus 1 { }).idleNow 1 2 = true ∧
    ((torus 1 { }).setCrd 1 2 { busy := 5000 }).idleNow 1 2 = false ∧
    (let s := torus 1 { st := .linked, service := [{ type := 2, stamp := 0, src := 0, pseq := 0, payload := [] }] }
     s.serviceOpen 1 = true ∧ s.laneReady 1 0 = true ∧ (s.crd 1 0).allows (creditNeed 0) = true) ∧
    ({ used := 2048 } : Cred).allows (creditNeed 1) = false ∧
    (let s := { (torus 1 { st := .linked }).setLane (portLane 1 0) { rx := .running } with
       relay := { port := [(1, { st := .linked })], seen := [(0, 4, 0)] } }
     s.served 1 0 = true ∧ injFor (portLane 1 (s.rxPhys 1 0)) 3 s = none ∧
       s.parcelVerdict 1 0 ⟨1, 0, false, 1, 0, 0, 0, 0, 0, 0, 0, 0, 0, 0, [], 0⟩ 0 = .symbol ∧
       s.parcelVerdict 1 0 ⟨0, 0, false, 1, 0, 0, 0, 0, 0, 0, 0, 0, 0, 0, [], 0xe9d3ce90⟩ 0 = .header ∧
       s.parcelVerdict 1 0 ⟨0, 0, false, 3, 0, 0, 4, 0, 255, 0, 0, 0, 0, 0, [], 0x5093658a⟩ 0 = .service ∧
       s.relay.seen.contains (0, 4, 0) = true ∧
       s.parcelVerdict 1 0 ⟨0, 0, false, 3, 0, 0, 4, 0, 255, 0, 0, 0, 0, 0, [], 0⟩ 0 = .crc ∧
       (s.now :: (s.lane (portLane 1 0)).crcTimes.filter fun x => s.now < x + ms 1).length < s.cfg (ob 0x6100 5)) ∧
    (let s := { torus 1 { } with relay := { conf := [⟨0, 4, 1, 0, [], none⟩] }, time := { mono := 2500000 } }
     (s.confOf 0 4).isSome = true ∧ 0 + ms 10 ≤ s.now) := by decide +kernel
theorem witness_barriers :
    (let s := { torus 1 { st := .mapped } with relay := { (torus 1 { st := .mapped }).relay with rank := 1, barrier := some { number := 9 }  }, dict := { (torus 1 { }).dict with tt := { st := .voting, barrier := 9 } } }
     goodCtl 4 1 (ctlOf 4 1 38654705664 1 0x6753fbbc) s ∧ s.rank ≠ 0 ∧ goodCtl 5 1 (ctlOf 5 1 38654705664 1 0xdea82054) s ∧
       (s.setTt { s.tt with st := .checking, system := true }).tt.st = .checking ∧ bits 47 32 38654705664 = 9 ∧ s.tt.barrier = 9 ∧ s.tt.st = .voting ∧ s.tt.p ≤ s.pm + us 5) ∧
    (let s := { torus 1 { st := .mapped } with relay := { rank := 0, barrier := some { number := 9, vote := some true }  }, time := { mono := 25000000000 } }
     s.rank = 0 ∧ s.alone = false ∧ 0 + ms (s.cfg (ob 0x6100 4)) ≤ s.now) ∧
    (let s := { torus 1 { } with dict := { (torus 1 { }).dict with up := true, sets := [(0, (torus 1 { }).dict.base)] } }
     s.dict.up = true ∧ s.servesNow = true ∧ (s.setDict { s.dict with waiting := [.globalOp 1 0] }).servesNow = false ∧ s.globalInTime 0 = false ∧ s.globalInTime 10000 = true ∧ s.dict.snap.st ≠ 1 ∧
       s.startAnswer 10000 = 0) ∧
    goodCtl 6 1 (ctlOf 6 1 10000 2 0x61908940) (torus 1 { }) := by unfold goodCtl; decide +kernel
/-- A scheduled ring of 4 with one channel for each part, seen by part 1 at tick pm; last is the last parcel that port 1's lane 0 sent. -/
def sched (pm : Nat) (last : Option (Nat × Nat)) : State :=
  ({ cfgAs [(ob 0x6100 1, 4), (ob 0x5000 0x14, 4)] with
    relay := { rank := 1, port := [(1, { st := .scheduled }), (3, { st := .scheduled })],
               transit := [⟨⟨0, 0, 2, 0, 1⟩, 3, 1, 6, none⟩] },
    time := { pm := pm },
    lanes := { lane := [(portLane 1 0, { rx := .running }), (portLane 3 1, { rx := .running })] } }).setCrd 1 0 { last := last }
theorem some_of {α : Type} {o : Option α} {f : α → Bool} (h : o.any f = true) : ∃ k, o = some k ∧ f k = true := by
  cases o with
  | none => cases h
  | some k => exact ⟨k, rfl, h⟩
/-- Part 1's own parcel for part 2 may leave; once it and the next window's have left, the one in transit may. -/
theorem witness_slots :
    (let s := sched 260000 none
     (∃ k, s.slotOf (s.rankIn (s.setAt 0)) 1 ⟨0, 1, 2, 0, 0⟩ = some k ∧ ((s.crd 1 k.lane).unsent (slotStart (s.setAt 0) 1 0 k) &&
       decide (slotStart (s.setAt 0) 1 0 k ≤ s.pm) && s.laneReady 1 k.lane && !s.waitsFor 1 ⟨0, 1, 2, 0, 0⟩ k &&
       (s.crd 1 k.lane).allows (creditNeed 384)) = true) ∧
     (s.port 1).st = .scheduled ∧ s.relay.transit.find? (fun t => t.name == ⟨0, 1, 2, 0, 0⟩) = none) ∧
    (let s := sched 260000 (some (8192, 141824))
     (∃ k, s.slotOf (s.rankIn (s.setAt 0)) 1 ⟨0, 0, 2, 0, 1⟩ = some k ∧ (decide (slotStart (s.setAt 0) 1 0 k ≤ s.pm ∧ k.lane < 32 ∧
       ((3 : Nat), (1 : Nat)) ≠ (1, k.lane)) && (s.crd 1 k.lane).unsent (slotStart (s.setAt 0) 1 0 k) && s.laneReady 1 k.lane &&
       !s.waitsFor 1 ⟨0, 0, 2, 0, 1⟩ k && (s.crd 1 k.lane).allows (creditNeed 0)) = true) ∧
     s.relay.transit.find? (fun t => t.name == ⟨0, 0, 2, 0, 1⟩) = some ⟨⟨0, 0, 2, 0, 1⟩, 3, 1, 6, none⟩) ∧
    (∃ k, (sched 260000 none).rxSlot 3 ⟨0, 0, 2, 0, 0⟩ = some k ∧
      decide (slotEnd ((sched 260000 none).setAt 0) 3 0 k + 1024 < (sched 260000 none).pm) = true) ∧
    torA ((sched 260000 none).setAt 0) * torB ((sched 260000 none).setAt 0) ≠ 1 ∧ (sched 260000 none).relay.rank ≠ 255 ∧ (2 : Nat) ≠ (sched 260000 none).rankIn ((sched 260000 none).setAt 0) ∧
    (setPath ((sched 260000 none).setAt 0) 0 2)[0 + 1]? = some (1, 1) :=
  ⟨⟨some_of (by decide +kernel), by decide +kernel⟩, ⟨some_of (by decide +kernel), by decide +kernel⟩,
    some_of (by decide +kernel), by decide +kernel, by decide +kernel, by decide +kernel, by decide +kernel⟩
/-- The parcel of part 0 for part 2 as part 1 receives it, all samples zero. -/
def parcel0 : Parcel := ⟨0, 0, false, 1, 0, 0, 0, 0, 2, 0, 0, 384, 2, 1, List.replicate 384 0, 0x26d30d63⟩
theorem parcel0_crc : crc32 (parcelCovered parcel0) = parcel0.crc.toNat := by
  have e : parcelCovered parcel0 = [1, 0, 0, 0, 0, 0, 0, 0, 0, 0, 0, 0, 2, 0, 0, 0, 0, 128, 1, 2, 0, 1, 0] ++ (List.replicate 128 0 ++ (List.replicate 128 0 ++ List.replicate 128 0)) := by
    decide +kernel
  have h0 : crcRun 0xFFFFFFFF [1, 0, 0, 0, 0, 0, 0, 0, 0, 0, 0, 0, 2, 0, 0, 0, 0, 128, 1, 2, 0, 1, 0] = 3733081100 := by decide +kernel
  have h1 : crcRun 3733081100 (List.replicate 128 0) = 2045295247 := by decide +kernel
  have h2 : crcRun 2045295247 (List.replicate 128 0) = 454987962 := by decide +kernel
  have h3 : crcRun 454987962 (List.replicate 128 0) = 3643601564 := by decide +kernel
  rw [crc32, e, crc_append, crc_append, crc_append, h0, h1, h2, h3]
  decide
/-- What a slot must be for the parcel to be taken in it at tick pm, or to be late there. -/
def takes (pm : Nat) (late : Bool) (k : SlotPos) : Bool :=
  decide (k.lane = 1 ∧ parcelFields parcel0 = slotHeader ((sched pm none).setAt parcel0.stamp) (parcelName parcel0) (bit 1 parcel0.flags) ∧
    parcel0.payload.length = (if bit 1 parcel0.flags then 0 else k.bytes)) &&
  decide ((sched pm none).pm > slotEnd ((sched pm none).setAt parcel0.stamp) 3 parcel0.stamp k + 1024) == late &&
  !decide ((sched pm none).pm < slotStart ((sched pm none).setAt parcel0.stamp) 3 parcel0.stamp k ∨ (sched pm none).isDone 3 (parcelName parcel0))
theorem parcel0_slot (pm : Nat) (late : Bool) (h : ((sched pm none).rxSlot 3 (parcelName parcel0)).any (takes pm late) = true)
    (hs : (sched pm none).port 3 = { st := .scheduled }) :
    ∃ k, (sched pm none).parcelVerdict 3 1 parcel0 0 = if late then .late else .data k := by
  obtain ⟨k, h1, h2⟩ := some_of h
  simp only [takes, Bool.and_eq_true, Bool.not_eq_true'] at h2
  obtain ⟨⟨a, b⟩, c⟩ := h2
  have a' := of_decide_eq_true a
  refine ⟨k, ?_⟩
  unfold State.parcelVerdict
  rw [if_neg (by decide), if_neg (by rw [parcel0_crc]; decide), if_pos (by rw [hs]; rfl)]
  simp only [h1]
  rw [if_pos a']
  cases late with
  | true => rw [if_pos (of_decide_eq_true (by simpa using b))]; rfl
  | false => rw [if_neg (of_decide_eq_false (by simpa using b)), if_neg (of_decide_eq_false c)]; rfl
theorem witness_data_parcel : (sched 134000 none).served 3 1 = true ∧ bit 1 parcel0.flags = false ∧ parcel0.dst ≠ (sched 134000 none).rankIn ((sched 134000 none).setAt 0) ∧
    (∃ k, (sched 134000 none).parcelVerdict 3 1 parcel0 0 = .data k) ∧ (sched 260000 none).parcelVerdict 3 1 parcel0 0 = .late :=
  ⟨by decide +kernel, by decide, by decide +kernel, parcel0_slot 134000 false (by decide +kernel) (by decide +kernel),
    (parcel0_slot 260000 true (by decide +kernel) (by decide +kernel)).elim fun _ h => h⟩

/-! ### Sets and stamps -/

/-- The reset state with one set latched at Postmark 5. -/
def setAs (l : List (Nat × Nat)) : State :=
  { State.reset with dict := { sets := [(5, l.foldl (fun m e => m.set objDefault e.1 e.2) [])] } }
/-- 02 R45: 1,024 ticks after a unit at 2,048 the next is expected at 3,072; one at 4,096 leaves a gap. -/
theorem test_stamp_gap : completes (.unitArrival 3 4096 1024) (State.reset.modLogical 3 fun g => { g with expected := some 3072 }) fun t =>
    t.expectedAt 3 = some 5120 ∧ (t.ingestQ 12).length = 1 ∧ t.so.waiting.length = 1 := ⟨_, rfl, by decide +kernel⟩
theorem witness_sets :
    (let s := setAs [(ob 0x4001 1, 1)]
     (s.dueSet 0 4).isNone = true ∧ (s.dueSet 0 5).map (fun q => setVal q.2.1 (ob 0x4001 (quadSub 0)) != setVal q.2.2.1 (ob 0x4001 (quadSub 0))) = some true ∧
       (s.dueSet 0x121 9).isSome = true ∧ (s.dueSet 0x903 9).isSome = true ∧ (s.dueSet 0x101 9).isSome = true ∧
       (s.dueSet 0x142 9).isSome = true ∧ (s.dueSet (cellSrc 2 0) 9).isSome = true) ∧
    ({ rx := .sync } : Lane).rx.listening = true ∧ ({ } : Lane).rx.listening = false ∧
    ((setAs [(ob 0x5000 0x10, 4096)]).dueSet 0x101 9).map (fun q => setVal q.2.1 (ob 0x5000 0x10) != setVal q.2.2.1 (ob 0x5000 0x10)) = some true := by
  decide +kernel
theorem witness_stamps :
    blockType 0x13F = none ∧ blockType 0 = some 1 ∧
    (let s := State.reset.modLogical 3 fun g => { g with expected := some 1000 }
     s.servedBy 3 = some 3 ∧ s.expectedAt 3 = some 1000) ∧ State.reset.expectedAt 3 = none ∧
    (let s := { State.reset with time := { pm := 2 ^ 27 } }
     s.filt.lastBlock < 2 ^ 26 ∧ 2 ^ 26 ≤ s.pm ∧ 2 ^ 26 % (8192 * s.inF (2 ^ 26) 0) = 0 ∧ 2 ^ 26 % s.tb (2 ^ 26) = 0 ∧
       5 % (8192 * s.inF 5 0) ≠ 0 ∧ 5 % s.tb 5 ≠ 0) := by decide +kernel

/-! ### Timetable and snapshot -/

/-- 14 R409: a request while IDLE takes k = 1, the first of set_seq, and P on the next multiple of T_B = 2^26. -/
theorem test_commit_request : completes (.commitRequest 5) (withTt {} State.reset) fun t =>
    t.tt.st = .checking ∧ t.tt.number = 1 ∧ t.tt.p = 67108864 := ⟨_, rfl, by decide +kernel⟩
theorem witness_commit_requests :
    (let s := withTt {} State.reset
     s.dict.up = true ∧ injFor 0xA50 1 s = none ∧ s.tt.st = .idle ∧ s.alone = true) ∧
    (let s := withTt {} { torus 1 { st := .mapped } with relay := { (torus 1 { }).relay with rank := 0, mapValid := true } }
     s.alone = false ∧ s.isCoordinator = true ∧ s.confRoom (proposalBytes 0 0 false 0) = true ∧ s.dict.up = true) ∧
    (withTt { st := .pending } State.reset).tt.st ≠ .idle ∧ (torus 1 { }).isCoordinator = false := by decide +kernel
/-- The default set passes every check once the stacks are READY and the output lanes in SYNC. -/
def okState : State := withTt { st := .checking, p := 2 ^ 27 }
  { State.reset with mm := { stack := (List.range 4).map fun k => (k, { st := .ready }) }, lanes := { lane := (List.range 18).map fun k => (outSrc k, { rx := .sync }) } }
theorem witness_accepted : okState.multi = false ∧ okState.commitFault [] (okState.newPlace []) = (0, 0xFFFFFFFF) := by decide +kernel
/-- An object marked in the candidate fails the set with 0x06. -/
theorem witness_commits :
    (let s := withTt { st := .checking } { State.reset with dict := { marked := [(ob 0x5000 4, 2)] } }
     s.multi = false ∧ (s.commitFault [] (s.newPlace [])).1 = 6) ∧
    (withTt { st := .checking, system := true } { torus 1 { } with relay := { (torus 1 { }).relay with rank := 1 } }).multi = true ∧
    (let s := withTt { st := .checking, system := true, down := some false } (torus 1 { })
     s.multi = true ∧ s.tt.down = some false ∧ s.ctrl.pair.serves = true) ∧
    (let s := withTt { st := .pending, p := 7 } { State.reset with time := { pm := 9 } }
     s.tt.p ≤ s.pm ∧ (∀ n ∈ allBlocks, (s.blk n).taken ≤ s.dict.sets.length) ∧ (latchSets s).dataDriven 0xA60 = false ∧
       (latchSets s).dataDriven 0x140 = true) := by decide +kernel
theorem witness_snapshots :
    (let s := withTt {} { State.reset with time := { pm := 9 } }
     (5 : Nat) < s.pm ∧ s.pm ≤ 9 ∧ s.dict.snap.st ≠ 1) ∧
    (let s := { State.reset with dict := { snap := { st := 1, left := [0x940] } } }
     s.dict.snap.st = 1 ∧ s.snapPoint 0x940 = true ∧ 0x940 ∈ s.dict.snap.left ∧ 0 ∉ s.dict.snap.left ∧ s.tt.st ≠ .pending) ∧
    (let s := { State.reset with dict := { snap := { st := 1, at_ := 7 }, blks := [(0x100, { running := true })] } }
     copiesWithData 0x100 = true ∧ s.dataDriven 0x100 = true ∧ (s.blk 0x100).running = true ∧ s.pm < 7 + s.tb 7 ∧ s.fab.win = none ∧
       s.snapPoint 0x100 = false ∧ copiesWithData 0x940 = false) ∧
    (6, 0) ∉ roObjects 0x940 ∧ (0x6000, 2) ∈ roObjects 0x940 := by decide +kernel

/-! ### Fabric -/

/-- 07 R199: (1 + 2j)·conj(3 − 1j) = 1 + 7j, and a marker adds nothing. -/
theorem test_pair_sum : pairSum [(1, 2, true, false), markerSmp] [(3, -1, true, false), (5, 5, true, false)]
    ((0, false), (0, false), 0) = ((1, false), (7, false), 1) := by decide
/-- 08 R235: one step of the generator from 1 gives the mask itself. -/
theorem test_rng : rngStep 1 = 0x80200003 ∧ rngSeed 0 0 = 1 := by decide
/-- A window of block 0 with two channels; the 16 positions of cluster 0 correlate, all others form beams. -/
def winState : State :=
  { cfgAs ((ob 0x5000 0x14, 2) :: (List.range 95).map fun j => (ob (0x7201 + j) 1, 16)) with fab := { start := some 0, win := some ⟨0, 0, [0, 1]⟩ }, time := { pm := 2 ^ 26 + 500000 } }
def win0 : Win := ⟨0, 0, [0, 1]⟩
theorem witness_windows :
    (let s := { winState with fab := { start := some 0 } }
     s.fab.win = none ∧ 0 % setTB (s.setAt 0) = 0 ∧ 0 + setTB (s.setAt 0) + 500000 ≤ s.dataPm ∧ s.fab.removed = []) ∧
    winState.dataPm < 0 + 2 * setTB (winState.winSet win0) + 500000 ∧
    (let s := { winState with time := { pm := 2 ^ 27 + 500000 } }
     0 + 2 * setTB (s.winSet win0) + 500000 ≤ s.dataPm ∧ s.dueSet 0x910 win0.x0 = none ∧ s.acc.due = none) ∧
    (let s := { winState with fab := { start := some 8192 } }
     s.fab.win = none ∧ s.fab.start ≠ none ∧ 5 % setTB (s.setAt 5) ≠ 0) := by decide +kernel
/-- No tile and no dump is open: no sweep of that window's end finds anything. -/
theorem witness_window_quiet (c : Nat) :
    (∀ tl b, winState.book c tl = some b → winState.intAt (winState.winSet win0) c 0 ≤ b.int) ∧
      ∀ d, winState.dumpOf c = some d → winState.intAt (winState.winSet win0) c 0 ≤ d.p0 :=
  ⟨fun _ _ h => (nomatch (show none = some _ from h)), fun _ h => (nomatch (show none = some _ from h))⟩
theorem witness_segments :
    winState.fab.win = some win0 ∧ (∀ c ∈ winState.fab.cl, c.2.fallback = []) ∧
    (winState.workOf win0 (winState.winSet win0) 0 5).map PosSt.todo = some (some [(3010560, 3612672)]) ∧
    (winState.workOf win0 (winState.winSet win0) 0 5).map (stripNo (8192 / max 1 (setQ (winState.winSet win0)))) =
      winState.front win0 (winState.winSet win0) ∧ 5 ∉ (winState.cl 0).withdraw ∧ winState.posStalled 0 5 = false ∧
    (winState.cl 0).queue = [] ∧ (winState.cl 0).audits_ 5 0 = false ∧
    (let s := { winState with fab := { winState.fab with win := some ⟨0, 0, []⟩ } }
     s.workOf ⟨0, 0, []⟩ (s.winSet ⟨0, 0, []⟩) 0 5 = none) ∧
    5 ∈ ((winState.setCl 0 { withdraw := [5] }).cl 0).withdraw := by decide +kernel
theorem witness_staging :
    (let s := winState
     0 % setTB (s.setAt 0) = 0 ∧ s.fab.start.isSome = true ∧ 1 < setChans (s.setAt 0) ∧ 0 < setQ (s.setAt 0) ∧
       (1, 0, 0) ∉ s.fab.loaded) ∧
    (winState.setFab { winState.fab with loaded := [(1, 0, 0)] }).fab.loaded = [(1, 0, 0)] := by decide +kernel

/-! ### Beams -/

/-- 07 R215: 383 · 2^-1 = 191.5 rounds half up to 192 and saturates at 127; −3 · 2^-1 rounds to −1. -/
theorem test_beam_quant : beamQuant 1 383 = (127, true) ∧ beamQuant 1 (-3) = (-1, false) := by decide
/-- One set latched that forms 8 beams from 8 inputs, its buffers placed at 4,096 and 8,192. -/
def beamState : State :=
  { State.reset with dict := { sets := [(0, [(ob 0x7040 1, 8)])] }, mm := { place := [(0, { w0 := 4096, w1 := 8192 })] }, fab := { start := some 0 } }
def wSt (n : Nat) : State := beamState.setFab { beamState.fab with w := { st := n, eff := 2 ^ 23, curEff := 5 } }
theorem witness_weights :
    (let a := dramBase + 4 * stackSize + 4096
     beamState.inBuffer false a 1 = true ∧ beamState.inBuffer true a 1 = false ∧ beamState.fab.w.active = false ∧
       (let s := beamState.setFab { beamState.fab with w := { active := true } }
        ¬ (s.inBuffer s.fab.w.active a 1 = true ∨ (s.fab.w.st ≠ 0 ∧ s.inBuffer (!s.fab.w.active) a 1 = true))) ∧
       beamState.inBuffer false 5 1 = false ∧ beamState.inBuffer true 5 1 = false) ∧
    (let s := wSt 0
     let f := 32 * setF (s.setAt (2 ^ 22))
     s.fab.w.st = 0 ∧ s.fab.w.curEff < roundUp (2 ^ 22) f ∧ s.pm + 500000 < roundUp (2 ^ 22) f) ∧
    (let s := { wSt 1 with time := { pm := 2 ^ 22 } }
     let f := 32 * setF (s.setAt (2 ^ 22))
     s.fab.w.st = 1 ∧ s.fab.w.curEff < roundUp (2 ^ 22) f ∧ roundUp (2 ^ 22) f ≤ s.pm + 500000) ∧
    (let s := { wSt 1 with time := { pm := 2 ^ 23 } }
     s.fab.w.st = 1 ∧ s.fab.w.eff ≤ s.pm + 500000 ∧ s.headerOk (s.committedAt s.fab.w.eff).1 (s.committedAt s.fab.w.eff).2 (!s.fab.w.active) = false) := by
  decide +kernel
/-- 07 R221: a header for 8 beams and span 1 with its CRC-32, in buffer 1. -/
theorem witness_header :
    (let s := putBytes (interAddr 8192) ([1, 0, 8, 0, 0, 0, 0, 0, 0, 0, 0, 0, 1, 0, 0, 0] ++ toBytes 4 3375801239) (wSt 1)
     s.headerOk (s.committedAt s.fab.w.eff).1 (s.committedAt s.fab.w.eff).2 (!s.fab.w.active) = true) := by decide +kernel
theorem witness_batches :
    (let s := { beamState with time := { pm := 2 ^ 30 } }
     s.batchDue (s.setAt 0) 0 = true ∧ s.fab.batch = none ∧ batchEnd (s.setAt 0) 0 ≤ s.dataPm ∧ batchEnd (s.setAt 0) 0 + 562500 ≤ s.dataPm) ∧
    beamState.batchDue (beamState.setAt 5) 5 = false ∧ State.reset.dueSet 0x140 0 = none ∧ (beamState.dueSet 0x140 0).isSome = true ∧
    (wSt 2).fab.w.st = 2 ∧ (wSt 2).fab.w.eff ≤ 2 ^ 23 ∧ roundUp 5 (32 * setF (beamState.setAt 5)) ≤ 2 ^ 18 ∧
    (beamState.setFab { beamState.fab with batch := some 0 }).fab.batch = some 0 := by decide +kernel

/-! ### Accumulation -/

/-- 08 R234: 2^24 + 1 lies half way between binary32 values: f16 is 32,768, and only a smaller random value rounds up. -/
theorem test_fold_add : f32Add 0x4B800000 1 32767 = 0x4B800001 ∧ f32Add 0x4B800000 1 32768 = 0x4B800000 ∧
    f32Add 0x3F800000 (-1) 0 = 0 := by decide +kernel
/-- A fold of 64 samples of tile 0, channel 0, block 0. -/
def fold0 : FoldItem :=
  { seq := 0, k := 0, p := 0, j := 0, slot := 0, c := 0, block := 0, x0 := 0, strip := 0, e0 := 0, e1 := 63, tile := 0, first := 0, last := 63, sat := false, sums := [(5, -5)], counts := [64], held := false }
def foldState : State := { State.reset with fab := { start := some 0, folds := [fold0] } }
/-- 08 R240: the first fold after START writes +0.0 and adds: 5 is 0x40A00000, −5 is 0xC0A00000. -/
theorem test_first_fold : completes (.fold 0 []) foldState fun t =>
    t.numAt dramBase 8 = 0xC0A0000040A00000 ∧ (t.book 0 0).map Book.weight = some 64 := ⟨_, rfl, by decide +kernel⟩
theorem witness_fold_arithmetic :
    f32Finite 0x3F800000 = true ∧ (f32Units 0x3F800000 + 1 * 2 ^ 149).natAbs < 2 ^ 63 * 2 ^ 149 ∧ f32Units 0x3F800000 = 1 * 2 ^ 149 ∧
    f32Units 0x4B800000 + 1 * 2 ^ 149 ≠ f32Units 0x4B800000 ∧ f32Units 0x4B800000 + 1 * 2 ^ 149 ≠ f32Units 0x4B800001 := by
  decide +kernel
/-- The dump of channel 0's integration with P0 = p in a slot. -/
def dumpAt (c p : Nat) (done : Bool) : Dump :=
  { c := c, chan := 0, p0 := p, tiles := 1, inputs := 1, blocks := 1, len := 1, base := 0, recBase := 0, complete := done }
theorem witness_folds :
    (let s := foldState
     s.nextFold 0 = some fold0 ∧ foldWay 0 s = s ∧ (s.stk 0).queue = [] ∧ fold0.tile % 4 = 0 ∧ s.mm.bad = [] ∧ injFor (stackSrc 0) 1 s = none ∧ s.dueSet 0x910 0 = none ∧
       accOff (s.setAt 0) (s.placeFor 0) 0 0 64 ≤ stackSize ∧ bookOff (s.setAt 0) (s.placeFor 0) 0 0 + 16 ≤ stackSize ∧
       0 < setChans (s.setAt 0) ∧ 0 < setT (s.setAt 0) ∧ s.intAt (s.setAt 0) 0 0 = 0 ∧ s.book 0 0 = none ∧
       (accApply 0 s).foldHeld fold0 = false ∧ setVal (s.setAt 0) (ob 0x7100 1) = 0 ∧ s.nextFold 1 = none) ∧
    (let s := foldState.setBook 0 0 (some { int := 0 })
     s.book 0 0 = some { int := 0 } ∧ foldWay 0 s = s ∧ (accApply 0 s).foldHeld fold0 = false) ∧
    (let s := foldState.setBook 0 0 (some { int := 0, idle := true })
     s.book 0 0 = some { int := 0, idle := true } ∧ foldWay 0 s = s ∧ (accApply 0 s).foldHeld fold0 = false) := by decide +kernel
/-- A fold of the next integration, its tile still in the first one; its slot is free, or holds another dump. -/
def fold1 : FoldItem := { fold0 with x0 := 2 ^ 29, block := 8 }
theorem witness_fold_waits :
    (let s := { foldState with fab := { start := some 0, folds := [fold1] } }.setBook 0 0 (some { int := 0 })
     s.nextFold 0 = some fold1 ∧ foldWay 0 s = s ∧ foldWay 0 (putDump (dumpAt 0 7 false) s) = putDump (dumpAt 0 7 false) s ∧ s.intAt (s.setAt (2 ^ 29)) 0 (2 ^ 29) = 2 ^ 29 ∧ s.dueSet 0x910 (2 ^ 29) = none ∧
       (accApply (2 ^ 29) s).foldHeld fold1 = false ∧ (accApply (2 ^ 29) (putDump (dumpAt 0 7 false) s)).foldHeld fold1 = true ∧
       ((accApply (2 ^ 29) (putDump (dumpAt 0 7 false) s)).dumpOf 0).isSome = true) ∧
    ({ foldState with acc := { due := some 0 } } : State).foldHeld fold0 = true ∧
    (let s : State := { foldState with acc := { due := some (2 ^ 29), waits := true } }
     let u := accApply (2 ^ 29) { s with fab := { start := some 0, folds := [fold0, fold1] } }
     u.acc.waits = true ∧ u.accWaits (2 ^ 29) = true) := by decide +kernel
theorem witness_notices :
    (let s := { (foldState.setBook 0 0 (some { int := 0 })) with fab := { start := some 0, notices := [⟨0, 0, 0, 0, 0, 0, 63⟩] } }
     runTiles (s.setAt 0) 0 63 = [0] ∧ s.book 0 0 = some { int := 0 } ∧ s.intAt (s.setAt 0) 0 0 = 0 ∧ 0 < setChans (s.setAt 0) ∧
       s.foldsBefore 0 0 [0] = false ∧ s.dueSet 0x910 0 = none ∧ (accApply 0 s).accWaits 0 = false ∧
       (accApply 0 s).tileFree 0 0 0 = true) ∧
    (let s := putDump (dumpAt 0 7 false) (foldState.setBook 0 0 (some { int := 0 }))
     s.foldsBefore 0 5 [0] = true ∧ s.foldsBefore 0 0 [0] = false ∧ s.tileFree 0 0 (2 ^ 29) = false) ∧
    (let s := putDump (dumpAt 3 7 true) State.reset
     (s.dumpOf 3).map Dump.complete = some true ∧ s.dumpOf 4 = none ∧ (s.dumpOf 3).map Dump.p0 = some 7 ∧ s.acc.due = none ∧
       ({ s with out := { queued := [(3, 7)] } } : State).dumpDone (3, 7) = true ∧ s.dumpDone (3, 7) = false) := by
  decide +kernel

/-! ### Stacked DRAM -/

/-- The reset state with stack 1 as given. -/
def stackAt (v : Stack) : State := State.reset.setStk 1 v
/-- 09 Table 09.7: training that passes leaves the stack READY. -/
theorem test_train : completes (.dramTrainDone 1 true) (stackAt { st := .training }) fun t => (t.stk 1).st = .ready :=
  ⟨_, rfl, by decide +kernel⟩
theorem witness_stacks :
    (stackAt { }).pwr.inReset = false ∧ ((stackAt { }).stk 1).st = .off ∧
    (let s := { stackAt { st := .training } with time := { mono := 100000000 } }
     (s.stk 1).st = .training ∧ (s.stk 1).trainAt + 100000000 ≤ s.now) ∧
    (let s := stackAt { st := .ready }
     (s.stk 1).st = .ready ∧ injFor (stackSrc 1) 1 s = none ∧ s.badWord (dramAddr 1 (s.stk 1).scrubAt) = false ∧
       ((s.stk 1).bank 5).behind = 0 ∧ (({ s.stk 1 with banks := [(5, { behind := 4 })] } : Stack).bank 5).behind = 4 ∧
       (({ s.stk 1 with banks := [(5, { behind := -4 })] } : Stack).bank 5).behind = -4) := by decide +kernel
theorem witness_refresh :
    (let v : Stack := { st := .ready, queue := [{ port := 6, x := 0, len := 32, wr := none, tag := (6, 0, 0), late := false, ecc := [] }] }
     v.wanted (bankKey 0 0) = true ∧ v.wanted (bankKey 1 0) = false ∧ (v.bank (bankKey 1 0)).row = none ∧
       ((v.setBank (bankKey 0 0) { row := some 0, behind := 3 }).hitWaits (bankKey 0 0)) = true ∧ v.hitWaits (bankKey 0 0) = false ∧
       ((v.setBank 5 { row := some 3, behind := 3 }).bank 5).row = some 3 ∧ ((v.setBank 5 { row := some 3, behind := 3 }).bank 5).behind = 3 ∧
       ((v.setBank 5 { row := some 3, behind := 2 }).bank 5).behind = 2) := by decide +kernel
/-- A read of 32 bytes at 64 by port 3, its stack with no bucket to wait for, or RUNNING and out of tokens. -/
def read3 : DramReq := { port := 3, x := 64, len := 32, wr := none, tag := (6, 0, 0), late := false, ecc := [] }
theorem witness_requests :
    (let s := stackAt { st := .ready }
     (s.stk 1).st = .ready ∧ (s.stk 1).queue = [] ∧ (s.stk 1).pays read3 s.now = true ∧
       (∀ w ∈ wordsIn 64 32, (!s.badWord (dramAddr 1 w) && eccAt [] w != .uncorrectable) = true) ∧ injFor (stackSrc 1) 1 s = none ∧
       s.inBuffer false (dramAddr 1 64) 1 = false ∧
       s.inBuffer true (dramAddr 1 64) 1 = false ∧ inSystem 1 64 1 = false ∧ inSystem 1 51539607551 1 = true ∧
       (∃ w ∈ wordsIn 64 32, (!(setBad (dramAddr 1 72) true s).badWord (dramAddr 1 w) && eccAt [] w != .uncorrectable) = false)) ∧
    (let s := stackAt { st := .ready }
     s.mayRequest 6 = true ∧ s.ctrl.reqs = [] ∧ s.routed 6 (dramAddr 1 64) 32 false = true ∧ s.routed 6 (dramAddr 1 64) 32 true = false ∧
       s.mayRequest 1 = false ∧ dramPort 6 = 6 ∧ s.routed 0 (dramAddr 1 64) 16 true = true ∧
       ∀ k ∈ partWords 64 12, eccAt [] k = .ok ∧ s.badWord (dramAddr 1 k) = false) ∧
    (let s := stackAt { st := .running }
     (s.stk 1).st = .running ∧ (s.stk 1).queue = [] ∧ (s.stk 1).pays read3 s.now = false ∧
       (s.stk 1).pays { read3 with len := 0 } s.now = true) ∧
    ({ } : Stack).mayIssue 0 [] [read3, { read3 with x := 4096 }, { read3 with port := 0 }, { read3 with port := 2, x := 640 }] =
      [read3, { read3 with port := 2, x := 640 }] ∧
    firstReq [read3, { read3 with port := 2, x := 640 }] = some { read3 with port := 2, x := 640 } := by decide +kernel

/-! ### Output -/

def env0 (q l : Nat) : Env := { etype := 2, stamp := 0, chan := 0, count := 1, first := 0, payload := toBytes 8 7, eseq := some q, lseq := l }
/-- 10 R299: ACK 4 acknowledges LSEQ 3 and 4. -/
theorem test_ack : ackSplit 4 [env0 0 3, env0 1 4, env0 2 5] = ([env0 0 3, env0 1 4], [env0 2 5]) := by decide
def stream0 (codec : Nat) : Stream :=
  { etype := 1, unit := 0, stamp := 0, chan := 0, total := 1, esize := 8, per := 64, stop := 1, codec := codec, data := toBytes 8 5 }
def outState (o : Out) : State := { State.reset with out := o }
theorem witness_envelopes :
    (let s := outState { streams := [stream0 0] }
     takeDumps s = s ∧ (s.blk (compSrc 0)).held = false ∧ injFor (compSrc 0) 1 s = none ∧
       firstStream (fun y => y.unit == 0 && y.etype == 7) s.out.streams = none ∧
       firstStream (fun y => y.unit == 0) s.out.streams = some (stream0 0) ∧ segsOf (s.rawEnv (stream0 0)).payload ≤ s.segsFree) ∧
    (let s := (outState { streams := [stream0 1] }).modBlk (compSrc 0) (fun v => { v with held := true })
     takeDumps s = s ∧ (s.blk (compSrc 0)).held = true ∧ State.reset.compWork 0 = none) ∧
    (let s := (outState { streams := [stream0 1] }).setComp 0 { hist := [7], of_ := some (0, 0) }
     let x := { stream0 1 with dump := some (0, 0) }
     (s.comp 0).forced x = false ∧ (s.comp 0).fresh x = false ∧ ((s.comp 0).ready x).past x = [7] ∧ (s.comp 0).fresh (stream0 1) = true ∧
       ({ s with out := { s.out with streams := [x] } } : State).compWork 0 = some x) ∧
    (let s := outState { streams := [stream0 0], ready := List.replicate 1024 (env0 0 0) }
     s.segsFree < 1 ∧ s.segsUsed ≤ 1024) ∧
    (let s := { (State.reset.setComp 3 { stall := some 0 }) with time := { mono := 25001 } }
     (s.comp 3).stall = some 0 ∧ (s.comp 3).stallSaid = false ∧ 0 + 25000 < s.now ∧ 0 < s.segsFree ∧
       ({ s with out := { s.out with ready := List.replicate 1024 (env0 0 0) } } : State).segsFree = 0) ∧
    (let s := { outState { stall := some 0 } with time := { mono := 25001 } }
     s.out.stall = some 0 ∧ s.out.stallSaid = false ∧ 0 + 25000 < s.now ∧
       ({ s with out := { s.out with ready := List.replicate 1024 (env0 0 0) } } : State).segsFree = 0) := by decide +kernel
theorem witness_assign :
    (let u := assemble ((outState { ready := [env0 0 0] }).setLane (outSrc 0) { rx := .running })
     firstEnv (fun e => (u.freeLane e.etype).isSome) u.out.ready = some (env0 0 0) ∧ u.freeLane 2 = some 0 ∧ (u.olane 0).phys = some 0) ∧
    (let u := assemble State.reset
     firstEnv (fun e => (u.freeLane e.etype).isSome) u.out.ready = none) ∧
    (let s := { State.reset with mm := { place := [(0, { user := 4096, userSize := 8192 })] } }
     s.out.decode = none ∧ inUser s.place (interAddr 4096) 16 = true) ∧
    (outState { decode := some ⟨0, 0, 1, 0, 0⟩ }).out.decode ≠ none := by decide +kernel
/-- Output lane 2 runs and has one Envelope out since tick 0. -/
def laneOut (v : OutLane) (t : Nat) : State :=
  { ((State.reset.setLane (outSrc 2) { rx := .running }).setOlane 2 v) with time := { mono := t, pm := t } }
theorem witness_words :
    (let s := laneOut { phys := some 2, unacked := [env0 0 4] } 0
     (s.lane (outSrc 2)).rx = .running ∧ s.outServed 2 = some 2 ∧ (s.olane 2).leaving = false ∧ (s.olane 2).pauseNow s.now ≤ 3750000 ∧
       (0x38 : Byte) = 4 ^^^ 0 ^^^ 0x3C ∧ (0x39 : Byte) ≠ 4 ^^^ 0 ^^^ 0x3C ∧ (s.lane (outSrc 3)).rx ≠ .running) ∧
    (let s := laneOut { phys := some 2, unacked := [env0 0 4] } 1000000
     s.outSends 2 = true ∧ (s.setLane (outSrc 2) { rx := .running, tx := .sleep }).outSends 2 = false ∧ (s.olane 2).owed = false ∧
       (laneOut { phys := some 2, owed := true } 0).now < 1000 ∧ (s.olane 2).phys = some 2 ∧ (s.olane 2).unacked = [env0 0 4] ∧ 0 + us (s.cfg (ob 0x8100 4)) < s.now ∧ 0 < s.cfg (ob 0x8100 5)) ∧
    (let s := laneOut { phys := some 2, leaving := true, unacked := [env0 0 4] } 0
     (s.olane 2).leaving = true ∧ (ackSplit 4 (s.olane 2).unacked).2 = [] ∧ (ackSplit 5 (s.olane 2).unacked).2 ≠ [] ∧
       (s.lane (outSrc 2)).rx ≠ .sync) ∧
    (let s := (laneOut { phys := some 16, leaving := true, unacked := [env0 0 4] } 0).setLane (outSrc 2) { rx := .sync }
     s.outServed 16 = some 2 ∧ (s.lane (outSrc 2)).rx = .sync) ∧
    (let s := laneOut { phys := some 2, unacked := [{ env0 0 4 with resends := 255 }] } 1000000
     0 + us (s.cfg (ob 0x8100 4)) < s.now ∧ s.cfg (ob 0x8100 5) ≤ 255) := by decide +kernel
theorem witness_out_spares :
    (let s := { (laneOut { phys := some 2 } 25000) with lanes := { lane := [(outSrc 2, { rx := .align, leftAt := some 0 }), (outSrc 16, { rx := .sync })] } }
     s.failDue (outSrc 2) = true ∧ s.outServed 2 = some 2 ∧ s.outSpareOk 16 = true ∧ s.outSpareOk 17 = false ∧ s.cfg (ob 0x8100 6) = 1) ∧
    (let s := State.reset.setLane (outSrc 17) { rx := .sync }
     s.outSpareOk 16 = false ∧ s.outSpareOk 17 = true ∧ s.outServed 17 = none) ∧
    (let s := laneOut { phys := some 2 } 25000
     (s.olane 2).phys = some 2 ∧ (s.lane (outSrc 2)).rx = .running ∧ (s.lane (outSrc 2)).failed = false ∧ (s.olane 2).asking = none ∧
       (s.olane 2).lastWord + 25000 ≤ s.now ∧ (s.lane (outSrc 2)).startPm + 25000 ≤ s.pm ∧ s.outSpareOk 16 = false) ∧
    (let s := laneOut { phys := some 16, asking := some (0, none) } 100000000
     (s.olane 2).asking = some (0, none) ∧ 0 + us (s.cfg (ob 0x8100 7)) ≤ s.now ∧ ¬ 99000000 < 0 + us (s.cfg (ob 0x8100 7))) ∧
    (laneOut { phys := some 16, asking := some (0, some 2) } 100000000).now = 100000000 ∧
    (cfgAs [(ob 0x8100 6, 2)]).cfg (ob 0x8100 6) ≠ 1 ∧
    ((laneOut { phys := some 16, unacked := [env0 0 4] } 0).olane 2).unacked ≠ [] ∧
    (let s := laneOut { phys := some 16 } 0
     s.outServed 16 = some 2 ∧ (s.olane 2).asking = none ∧ s.latched (outSrc 16) = false ∧ s.latched (outSrc 2) = false ∧
       (s.olane 2).unacked = [] ∧ (s.lane (outSrc 2)).rx ≠ .sync ∧
       ((s.setLane (outSrc 2) { rx := .sync }).lane (outSrc 2)).rx = .sync) := by decide +kernel

/-! ### The Courier -/

def ringAt (r : Nat) (v : Ring) : State := State.reset.setRing r v
theorem witness_ring_commands :
    State.reset.dict.up = false ∧
    (let s := { State.reset with dict := { up := true }, ctrl := { pair := .diag } }
     ¬ (s.dict.up = false ∨ s.servesNow = true)) ∧
    ((ringAt 5000 { st := .stopped }).ring 5000).st = .stopped ∧ ((ringAt 3 { st := .parked, lost := true }).ring 3).lost = true ∧
    (State.reset.ring 9).st = .disabled ∧ (0x8000000020#40).toNat % 32 = 0 ∧
    (let s := { ringAt 7 { prio := 2 } with cour := { (ringAt 7 { prio := 2 }).cour with ready := [5, 7, 9], slot := [(0, some 4)] } }
     s.cour.ready = [5] ++ 7 :: [9] ∧ (∀ x ∈ [5], (s.ring x).prio < (s.ring 7).prio) ∧ (∀ x ∈ [9], (s.ring x).prio ≤ (s.ring 7).prio) ∧
       s.cour.slot.get noSlot 1 = none ∧ (∀ j, j < 1 → s.cour.slot.get noSlot j ≠ none)) ∧ State.reset.cour.ready = [] := by
  decide +kernel
/-- Ring 3 runs in slot 0. -/
def running (v : Ring) : State :=
  let s := ringAt 3 { v with st := .running }
  { s with cour := { s.cour with slot := [(0, some 3)] } }
def fetched (r : Except AccErr (List Byte) × State) : Option (List Byte) := match r.1 with | .ok b => some b | .error _ => none
def failed (r : Except AccErr (List Byte) × State) : Option AccErr := match r.1 with | .ok _ => none | .error e => some e
/-- A descriptor of 16 bytes inside the working SRAM, with its event. -/
def desc0 (cls : Nat) (en : Bool) : Desc :=
  { eoc := true, next := 0, src := 0x20000000, dst := 0x20000100, len := 16, barrier := false, evtEn := en, evtClass := cls, evtNum := 5, tag := 9 }
theorem witness_descriptors :
    (let s := running { cur := 0x20000000 }
     (s.ring 3).st = .running ∧ s.inSlot 3 = true ∧ (s.ring 3).desc = none ∧
       fetched (courRead 3 0x20000000 32 1 [] s) = some (List.replicate 32 0) ∧ descBad 3 (descOf (ofBytes (List.replicate 32 0))) = false ∧
       descBad 3 (descOf (2 ^ 217 + 3 * 2 ^ 218)) = true ∧ failed (courRead 3 0x30000000 32 1 [] s) = some (1, 0x30000000) ∧
       failed (courRead 3 dramBase 32 1 [] s) = some (4, dramBase)) ∧
    (let s := sramAs [(0x20000000, 1)] (running { cur := 0x20000000, link := true, pending := true })
     (s.ring 3).st = .running ∧ (s.ring 3).link = true ∧ fetched (courRead 3 0x20000000 8 1 [] s) = some [1, 0, 0, 0, 0, 0, 0, 0]) ∧
    ((∀ cls, cls < 3 → (transfer 3 (desc0 cls true) [] (running { desc := some (desc0 cls true) })).1 = none) ∧
      (transfer 3 (desc0 0 false) [] (running { desc := some (desc0 0 false) })).1 = none ∧
      (transfer 3 { desc0 0 false with src := 0x30000000 } [] State.reset).1 = some (2, 0x30000000) ∧
      (transfer 3 { desc0 0 false with dst := 0x30000000 } [] State.reset).1 = some (3, 0x30000000) ∧
      lastWrite { desc0 0 false with dst := 0x30000000 } (3, 0x30000000) = true ∧
      lastWrite { desc0 0 false with dst := 0x30000000, barrier := true } (3, 0x30000000) = false ∧
      lastWrite (desc0 0 false) (2, 0x20000000) = false ∧
      (((running {}).setRing 5 { st := .parked }).ring 5).st = .parked ∧ injFor 0xA20 1 (running {}) = none) := by
  decide +kernel
/-- Two DRAM ranges inside a Courier window, on a stack that runs. -/
def dram0 : State :=
  { cfgAs [(ob 0x8200 0x10, dramBase), (ob 0x8200 0x18, 0x1000)] with mm := { stack := [(0, { st := .running })], mem := [(dramBase, 7)] } }
theorem witness_transfer :
    (let d : Desc := { desc0 0 false with src := dramBase, dst := dramBase + 0x100 }
     (transfer 3 d [] dram0).1 = none ∧ dramBase ≤ d.src ∧ d.src + d.len ≤ dramBase + 8 * stackSize ∧ dramBase ≤ d.dst ∧
       d.dst + d.len ≤ dramBase + 8 * stackSize ∧ (∀ b, dram0.inBuffer b d.dst d.len = false) ∧ d.src + d.len ≤ d.dst ∧ dram0.ctrl.reqs = [] ∧ (∀ k, k < 4 → (dram0.stk k).queue = []) ∧
       (∀ k, k < 4 → injFor (stackSrc k) 1 dram0 = none) ∧
       (transfer 3 d [] dram0).2.byteAt (dramBase + 0x100) = 7) := by decide +kernel

/-! ### Tally cores -/

/-- Core 0 in RUN. -/
def coreAt (v : Core) : State := State.reset.setCore 0 { v with st := .run }
def calm : TEnv := ⟨.ok, .ok, 0, 0, [], []⟩
/-- 12 Tables 12.9, 12.10: ADD G1, G2, G3; LDW G4 from G5 with POST and offset -4; MAC A2 -= hi(G1)·lo(G2); B NE, back 3; RPT 8. -/
theorem test_tally_words :
    tallyDecode 0b000010_0001_0010_0011_00000000000000 = some (.alu 0 1 2 3) ∧
    tallyDecode 0b010000_0100_0101_1_11111111111111100 = some (.load 0 4 5 true (-4)) ∧
    tallyDecode 0b100000_10_1_0_0001_0010_0_0_1_0_0000000000 = some (.mac 2 true false 1 2 true false) ∧
    tallyDecode 0b110000_0010_1111111111111111111101 = some (.branch 2 (-3)) ∧
    tallyDecode 0b111000_0000_0000000000_000000000111 = some (.rpt 0 7) ∧
    tallyDecode 0 = none ∧ tallyDecode 0b000010_0001_0010_0011_00000000001100 = none := by decide
/-- 12 R344: 0x7FFF_FFFF + 1 overflows: N and V. -/
theorem test_tally_add : completes (.tAddi 0 calm 1 1 1) (coreAt { g := [(1, 0x7FFFFFFF)] })
    fun t => (t.core 0).reg 1 = 0x80000000 ∧ (t.core 0).sr = 0b1010 := ⟨_, rfl, by decide +kernel⟩
/-- 12 R346: 2 ^ 39 − 1 plus 4 saturates. -/
theorem test_tally_mac : completes (.tMac 0 calm 0 false false 1 1 false false) (coreAt { g := [(1, 2)], acc := [(0, 0x7FFFFFFFFF)] })
    fun t => (t.core 0).accum 0 = 0x7FFFFFFFFF ∧ (t.core 0).sr = 0x40 := ⟨_, rfl, by decide +kernel⟩
theorem test_tally_store : completes (.tSth 0 calm 1 2 true 6) (coreAt { g := [(1, 0x12345678), (2, 0x100)] })
    fun t => t.byteAt 0x50000100 = 0x78 ∧ t.byteAt 0x50000101 = 0x56 ∧ t.byteAt 0x50000102 = 0 ∧ (t.core 0).reg 2 = 0x106 :=
  ⟨_, rfl, by decide +kernel⟩
theorem witness_tally_executes :
    (∀ o ∈ ([.nop, .alu 0 1 2 3, .alu 12 1 2 0, .load 0 1 2 true 4, .store 1 1 2 false 0, .post 1 2, .branch 1 0, .rpt 0 3, .mfc 1 9,
        .halt, .mac 1 true false 1 2 false true] : List TOp),
      ((coreAt {}).core 0).executes = true ∧ calm.fetch = .ok ∧ injFor (coreSrc 0) 2 (coreAt {}) = none ∧
        placeFault (some o) ((coreAt {}).core 0) = none) ∧ injFor (coreSrc 0) 1 (coreAt {}) = none ∧
    placeFault (some (.alu 0 1 2 3)) { slot := some ⟨7, none⟩ } = none ∧
    placeFault (some (.store 0 1 2 true 4)) { rpt := some 3 } = none := by decide +kernel
theorem witness_tally_memory :
    (let ea (v : Core) (off : BitVec 17) := ((v.reg 2) + off.signExtend 32).toNat
     let v : Core := { g := [(2, 0x80000)] }
     ea v (-4) % 4 = 0 ∧ ea v (-4) < 0x80000 ∧ ea v 1 % 2 ≠ 0 ∧ ea v 0 % 4 = 0 ∧ 0x80000 ≤ ea v 0 ∧ ea v 0 < 0x1000000) ∧
    (let s := tallyCycles 0 calm (coreAt { g := [(2, 0x1000000)], seg := 0x50 })
     (farRead 0 (0x50 * 2 ^ 24) 4 .ok s).1 = 0 ∧ (farRead 0 (0x30 * 2 ^ 24) 4 .ok s).1 ≠ 0 ∧
       (masterWrite 2 0 (0x50 * 2 ^ 24) false [1, 2, 3, 4] s).1 = 0 ∧ (masterWrite 2 0 (0x30 * 2 ^ 24) false [1, 2, 3, 4] s).1 ≠ 0) ∧
    eccAt [(16, .uncorrectable)] 16 = .uncorrectable ∧ 16 ∈ wordsIn 16 9 ∧ (∀ d ∈ wordsIn 16 9, eccAt [] d = .ok) ∧
    (let h (l : Byte) : State := sramAs [(dmBase 0 + 3, l)] (coreAt {})
     (h 0).numAt (dmBase 0) 8 / 2 ^ 24 % 256 = 0 ∧ (h 9).numAt (dmBase 0) 8 / 2 ^ 24 % 256 = 9 ∧
       0x80000 < 0x7FFF8 + 8 + 1 ∧ 16 ≤ (List.replicate 16 (⟨0, 0, 0, []⟩ : Post)).length) := by decide +kernel
/-- 12 R343: PM_LO latches PM_HI. -/
theorem test_tally_mfc : completes (.tMfc 0 calm 1 9) { coreAt {} with time := { pm := 0x500000007 } }
    fun t => (t.core 0).reg 1 = 7 ∧ (t.core 0).pmHi = 5 := ⟨_, rfl, by decide +kernel⟩
/-- 12 R350: RPT G2 with G2 = 0 repeats 4,096 times. -/
theorem test_tally_rpt : completes (.tRpt 0 calm 2 0) (coreAt {}) fun t => (t.core 0).rpt = some 4096 ∧ (t.core 0).pc = 1 :=
  ⟨_, rfl, by decide +kernel⟩
theorem witness_tally_flow :
    (((coreAt { slot := some ⟨9, none⟩ }).core 0).slot ≠ none ∧ ((coreAt { slot := some ⟨9, none⟩ }).core 0).executes = true) ∧
    (let s := sramAs [(pmBase 0 + 7, 0xF4)] (coreAt {})
     tallyDecode (s.pmWord 0 1) = some (.post 0 0) ∧ topNoBody (.post 0 0) = true) ∧
    tallyDecode (State.reset.pmWord 0 1) = none ∧
    ((coreAt { ipend := 0x8001, ien := 0x8000 }).core 0).ipend &&& 0x8000 ≠ 0 ∧ ((State.reset).core 0).executes = false ∧
    ((0x7FFFFFFF : Word).toNat : Int) > 0xFFFF := by decide +kernel
theorem witness_tally_commands :
    (let v := (coreAt { ipend := 6, ien := 4, sr := 0x10 }).core 0
     v.executes = true ∧ v.slot = none ∧ v.rpt = none ∧ srBit v.sr 4 = true ∧ v.ipend.getLsbD 2 = true ∧ v.ien.getLsbD 2 = true ∧
       v.ien.getLsbD 1 = false ∧ v.ien.getLsbD 0 = false) ∧
    (let s := { State.reset with tally := [(1, { st := .wait, ipend := 1, ien := 1, armed := true, cmpLo := 5, clearing := false })], time := { pm := 250005 } }
     (s.core 1).st = .wait ∧ (s.core 1).ipend &&& (s.core 1).ien ≠ 0 ∧ (s.core 1).armed = true ∧ (s.core 1).cmpLo.toNat ≤ s.pm ∧
       (s.core 1).clearing = false ∧ (s.core 1).busy = true ∧ (s.core 2).st = .reset ∧ (s.core 2).clearing = true ∧ (s.core 1).msSeen ≠ s.pm / 250000) ∧
    (let s := { coreAt { posts := [⟨0, 0xC000, 0, [1]⟩] } with dict := { up := true } }
     (s.core 0).posts = [⟨0, 0xC000, 0, [1]⟩] ∧ s.dict.up = true ∧ s.ctrl.pair.serves = true ∧ accOf 0x8030 1 ≠ 5 ∧
       (writeObj ⟨.tally, 0, 0⟩ 0x4000 1 0 [1] false (s.setCore 0 { s.core 0 with posts := [] })).1 = 0 ∧
       (writeObj ⟨.tally, 0, 0⟩ 0xC000 0 0 [1] false (s.setCore 0 { s.core 0 with posts := [] })).1 ≠ 0) ∧
    accOf 0x3000 4 = 5 ∧
    (let s := { State.reset with tally := [(1, { st := .wait, ipend := 1, ien := 1, sr := 0x10 })] }
     srBit (s.core 1).sr 4 = true ∧ (s.core 1).ipend.getLsbD 0 = true ∧ (s.core 1).ien.getLsbD 0 = true) ∧
    ((State.reset.setCore 0 { st := .reset, clearing := false }).core 0).st = .reset ∧
    (let s := sramAs [(pmBase 0 + 3, 4)] (State.reset.setCore 0 { st := .halt })
     (s.core 0).st = .halt ∧ tallyDecode (s.pmWord 0 0) = some .nop ∧ (s.core 0).pc < 0xFFFF) ∧
    (toBytes 16 (1 + 2 ^ 16 * 5 + 2 ^ 32 * 1 + 2 ^ 64 * crc32 [1, 0, 0, 4]) ++ [1, 0, 0, 4]).length = 20 ∧
    tallyImageOk [1, 2, 3] = false ∧
    tallyImageOk (toBytes 16 (1 + 2 ^ 16 * 5 + 2 ^ 32 * 1 + 2 ^ 64 * crc32 [1, 0, 0, 4]) ++ [1, 0, 0, 4]) = true := by decide +kernel

/-! ### The dictionary -/

/-- A request with a right CRC from a client on the local subnet. -/
def reqOf (op flags idx sub : Nat) (payload : List Byte) : Req :=
  let r : Req := ⟨.mgmt, 0xA9FE0102, 1000, 0xA9FE0101, 40310, false, 1, 7, BitVec.ofNat 16 idx, BitVec.ofNat 8 sub, 0, 0, 0, BitVec.ofNat 16 payload.length, false, payload, 0⟩
  { r with crc := BitVec.ofNat 32 (crc32 ((reqBytes r op flags).take (20 + payload.length))) }
def dictUp (d : Dict) : State := { State.reset with dict := { d with up := true, base := [(ob 0x1010 1, 0xA9FE0101)] } }
/-- The request is ready and good. -/
def goodReq (op flags idx sub : Nat) (payload : List Byte) (s : State) : Bool :=
  let r := reqOf op flags idx sub payload
  decide (s.dict.up = true ∧ s.servesNow = true ∧ r.ver = 1 ∧ r.path = .mgmt ∧ ((s.addrOf r.path).nextHop r.ip.toNat).isSome = true ∧
    datagramOk r s = true ∧ s.pwr.softDue = false ∧ r.payload.length = r.len.toNat ∧
    crc32 ((reqBytes r op flags).take (20 + r.len.toNat)) = r.crc.toNat ∧ s.keptOf (reqClient r) = [])
theorem witness_messages :
    goodReq 3 0 0x8100 1 [] (dictUp {}) = true ∧ nextObj 0xFFFF 1 = none ∧ (nextObj 0x8100 1).isSome = true ∧
    goodReq 1 0 0xFFFF 1 [] (dictUp {}) = true ∧ objAt 0xFFFF 1 = none ∧ accOf 0x6000 1 = 4 ∧ accOf 0x1010 1 = 2 ∧
    goodReq 1 4 0x1010 1 [] (dictUp {}) = true ∧ injFor 0xA50 1 (dictUp {}) = none ∧ accOf 0x5100 0x10 = 3 ∧ accOf 0x2110 2 = 1 ∧
    goodReq 1 2 0x2110 2 [] (dictUp { snap := { st := 2 } }) = true ∧ goodReq 1 0 0x2110 2 [0] (dictUp {}) = true ∧
    (dictUp {}).dict.snap.st ≠ 2 ∧ (dictUp { waiting := [.start 0] }).servesNow = false ∧
    datagramOk { reqOf 3 0 0x8100 1 [] with odd := true } (dictUp {}) = false ∧ State.reset.dict.up = false ∧ State.reset.pwr.softBusy = false ∧ (cfgAs [(ob 0x1030 1, 0)]).busOn = false := by decide +kernel
theorem witness_writes :
    goodReq 2 0 0x8100 4 [1, 0] (dictUp {}) = true ∧ accOf 0x8100 4 = 2 ∧ (objAt 0x8100 4).any (fun o => o.size == 2 && o.ranges.any fun g => g.1 ≤ 500 ∧ 500 ≤ g.2) = true ∧
    (objAt 0x8100 4).any (fun o => o.ranges.all fun g => ¬ (g.1 ≤ 0 ∧ 0 ≤ g.2)) = true ∧
    goodReq 2 8 0x8100 4 [0xF4, 1] (dictUp {}) = true ∧ (dictUp {}).alone = true ∧ (dictUp {}).isCoordinator = true ∧
    (torus 0 {}).isCoordinator = false ∧
    (let w : Kept := ⟨7, 0x8100, 4, 0, 0, 3⟩
     let s := dictUp { clients := [(⟨.mgmt, 0xA9FE0102, 1000⟩, [w])] }
     (s.keptOf (reqClient (reqOf 2 0 0x8100 4 [1]))).find? (fun w => w.id == 7 && w.idx == 0x8100 && w.sub == 4 && w.offset == 0) = some w) ∧
    messageOk (reqBytes { reqOf 2 0 0x8100 4 [1] with len := 2 } 2 0) = false := by decide +kernel
theorem witness_paths :
    (let s := { cfgAs [(ob 0x1030 1, 1), (ob 0x1030 2, 5)] with dict := { (cfgAs [(ob 0x1030 1, 1), (ob 0x1030 2, 5)]).dict with up := true } }
     s.busOn = true ∧ s.cfg (ob 0x1030 2) < 128 ∧ (stuff (5 :: reqBytes (reqOf 3 0 0xFFFF 1 []) 3 0)).length ≤ 598 ∧ unstuff [6, 7] = [6, 7]) ∧
    (let a : Assembly := ⟨0x5100, 0x10, ⟨.mgmt, 0, 0⟩, [], 0⟩
     let s := { dictUp { open_ := [a] } with time := { mono := 250000000 } }
     s.openWrite 0x5100 0x10 = some a ∧ a.last + ms 1000 ≤ s.now ∧ (dictUp {}).openWrite 0x5100 0x10 = none) ∧
    (((dictUp {}).addrOf .mgmt).nextHop ((dictUp {}).cfg (ob 0x1010 1))).isSome = true := by decide +kernel
/-- 14 R407: 0x7E and 0x7D are sent as two bytes. -/
theorem test_stuff : stuff [0x7E, 1, 0x7D] = [0x7D, 0x5E, 1, 0x7D, 0x5D] := by decide

/-! ### The control plane -/

def ctrlAt (k : Ctrl) : State := { State.reset with ctrl := k }
theorem witness_control :
    (let a := (0x20000010#40).toNat
     (4 = 1 ∨ 4 = 2 ∨ 4 = 4 ∨ 4 = 8 ∨ 4 = 16) ∧ a % 4 = 0 ∧ 0x20000000 ≤ a ∧ a + 4 ≤ 0x206C0000) ∧
    (0x10100000 ≤ (0x1FFFFFFF#40).toNat ∧ (0x1FFFFFFF#40).toNat < 0x20000000) ∧
    (accOf 0x8100 4 = 2 ∧ (objAt 0x8100 4).any (fun o => o.size == 2 && o.ranges.any fun g => g.1 ≤ 500 ∧ 500 ≤ g.2) = true) ∧
    (State.reset.ctrl.pair = .lockstep ∧ injFor 0xA10 5 State.reset = none ∧ State.reset.mayRequest 0 = true ∧
      State.reset.mayRequest 1 = false ∧ State.reset.mayRequest 9 = true ∧ (∀ r ∈ State.reset.ctrl.reqs, r.stage ≠ .ready)) ∧
    (⟨0, 0x20000000, true, 0, 0, false, [1], []⟩ : BusReq) ≠ ⟨0, 0x20000000, true, 0, 0, false, [2], []⟩ ∧
    busLen ⟨0, 0x20000000, false, 2, 0, false, [], []⟩ = 4 ∧ State.reset.routed 0 0x10100000 1 true = false ∧ State.reset.dict.up = false ∧
    (ctrlAt { pair := .diag }).ctrl.pair.serves = false ∧ (ctrlAt { pair := .soloB, issuer := true }).ctrl.pair.serves = true ∧
    State.reset.pwr.softDue = false ∧
    (let s := { State.reset with so := { State.reset.so with inj := some ⟨0xA10, 5, true, 0, 1⟩ } }
     (injFor 0xA10 5 s).isSome = true) ∧
    (State.reset.setDict { up := true, waiting := [.start 0] }).servesNow = false ∧
    (let k := (ctrlAt { pair := .diag, held := some (⟨0, 0x20000000, true, 1, 0, false, [1, 2], []⟩, ⟨0, 0x20000000, true, 1, 0, false, [1], []⟩) }).ctrl
     k.pair = .diag ∧ k.held.isSome = true ∧ k.reqs = []) ∧
    (let k := (ctrlAt { pair := .soloA, condB := .testing, tested := true }).ctrl
     k.cond true = .testing ∧ k.pair = .soloA ∧ k.tested = true) ∧
    (let k := (ctrlAt { pair := .halted, condA := .testing }).ctrl
     k.cond false = .testing ∧ k.pair = .halted) ∧
    (0x20680000 ≤ (0x20680008#40).toNat ∧ (0x20680008#40).toNat % 8 = 0) := by decide +kernel
/-- 13 Table 13.6: B fails: A goes on alone, and B is offline. -/
theorem test_diag : completes (.diagDone true false) (ctrlAt { pair := .diag })
    fun t => t.ctrl.pair = .soloA ∧ t.ctrl.condB = .offline ∧ t.so.waiting = [⟨0xA11, 2, 0, false⟩] := ⟨_, rfl, by decide +kernel⟩
/-- A request of master m for DRAM or for the working SRAM. -/
def reqAt (m id : Nat) (st : ReqStage) : MReq :=
  { m := m, id := id, epoch := 0, write := true, priv := false, addr := 0x20000010, data := [1, 2], stage := st }
theorem witness_queued_requests :
    (let k := (ctrlAt { reqs := [reqAt 6 3 .dram, reqAt 6 3 .held] }).ctrl
     (∃ q ∈ k.reqs, q.m = 6 ∧ (q.id = 3 ∨ q.stage = .held)) ∧ (∃ r ∈ k.reqs, r.m = 6 ∧ r.id = 3 ∧ r.stage ≠ .held) ∧
       ∀ q ∈ k.reqs, q.stage = .dram ∨ (q.stage = .held ∧ q.m = 6 ∧ ∃ o ∈ k.reqs, o.stage = .dram ∧ o.m = 6 ∧ o.id = q.id)) ∧
    (let k := (ctrlAt { reqs := [reqAt 1 3 .ready] }).ctrl
     (k.reqs.filter fun r => r.m == 1) = [reqAt 1 3 .ready] ∧ (reqAt 1 3 .ready).addr % 2 = 0 ∧ (reqAt 1 3 .ready).legal = true) ∧
    (∃ i ∈ [3#4], i.toNat = (reqAt 1 3 .ready).id) ∧ (∀ i ∈ [0#4], i.toNat ≠ (reqAt 1 3 .ready).id) ∧
    pickReq 0 [reqAt 0 0 .ready, reqAt 6 0 .ready] = some (reqAt 0 0 .ready) ∧
    pickReq 1 [reqAt 0 0 .ready, reqAt 6 0 .ready] = some (reqAt 6 0 .ready) ∧
    pickReq 13 [reqAt 6 0 .ready, reqAt 9 0 .ready] = some (reqAt 9 0 .ready) := by decide +kernel
/-- 13 R381 to R383: the core whose own error ended LOCKSTEP does not go on, whatever its test says. -/
theorem test_diag_hurt : completes (.diagDone true true) (ctrlAt { pair := .diag, hurt := some false })
    fun t => t.ctrl.pair = .soloB := ⟨_, rfl, by decide +kernel⟩

/-! ### Faults and sparing -/

def soAt (x : Sorting) : State := { State.reset with so := x, pwr := { State.reset.pwr with inReset := false } }
/-- 16 R454: of two Postcards the one with the lower SOURCE, and of one SOURCE the lower KIND, is accepted first. -/
theorem test_accept_order : completes .postcardAccept (soAt { waiting := [⟨5, 3, 1, false⟩, ⟨5, 2, 2, false⟩, ⟨4, 9, 3, false⟩] })
    fun t => t.so.waiting = [⟨5, 3, 1, false⟩, ⟨5, 2, 2, false⟩] ∧ t.so.next = 1 := ⟨_, rfl, by decide +kernel⟩
theorem witness_sorting :
    (let c : WaitCard := ⟨5, 1, 0, false⟩
     let s := soAt { waiting := [⟨6, 1, 0, false⟩, c, ⟨5, 1, 7, false⟩] }
     s.pwr.inReset = false ∧ s.so.waiting = [⟨6, 1, 0, false⟩] ++ c :: [⟨5, 1, 7, false⟩] ∧ c.src < 6 ∧ (reactionOf 5 1).2 = .hold ∧
       (reactionOf 5 2).2 = .note ∧ (s.srcState 5).st ≠ 2 ∧ 0 < s.cfg (ob 0x2300 3) ∧ blockType 5 = some 0x01) ∧
    ((reactionOf (compSrc 0) 1).2 = .correct ∧ (reactionOf (cellSrc 0 3) 1).2 = .promote ∧ (State.reset.blk (cellSrc 0 3)).held = false) ∧
    (let s := soAt { srcs := [(5, { st := 1, quietEnd := some 0, recTimes := List.replicate 255 0 }), (0xA11, { st := 1, quietEnd := some 0 }), (2571, { st := 2 })] }
     (s.srcState 5).st = 1 ∧ (s.srcState 5).quietEnd = some 0 ∧ 0 ≤ s.tbk ∧ (s.blk 5).held = false ∧ s.cfg (ob 0x2300 3) ≤ s.recent 5 ∧
       (s.srcState 0xA11).st = 1) ∧
    (let x : Sorting := { next := 5, acked := 2, dropsSince := 1 }
     x.acked < 4 ∧ 4 ≤ x.next ∧ 0 < x.dropsSince ∧ x.next - x.acked ≤ 4096) ∧
    ((blockType 5).isSome = true ∧ ((soAt { srcs := [(5, { st := 2 })] }).srcState 5).st = 2) ∧
    (soAt {}).dict.up = false ∧ ({ soAt {} with ctrl := { pair := .soloA }, dict := { up := true } } : State).servesNow = true ∧
    ({ soAt {} with ctrl := { pair := .diag }, dict := { up := true } } : State).servesNow = false ∧
    (let r := (0x100 + 2 ^ 12 + 2 ^ 32 + 2 ^ 64 : Nat)
     injOk r = true ∧ injOk 0 = false) := by decide +kernel
theorem witness_held_rambler :
    (let s := { soAt { srcs := [(cellSrc 0 17, { st := 1, quietEnd := some 0 })] } with dict := { blks := [(cellSrc 0 17, { held := true })] } }
     (s.srcState (cellSrc 0 17)).st = 1 ∧ (s.blk (cellSrc 0 17)).held = true) ∧
    (let s := { soAt { srcs := [(0xA11, { st := 1, quietEnd := some 0 })] } with ctrl := { pair := .soloA, condB := .offline } }
     (s.srcState 0xA11).quietEnd = some 0 ∧ s.ctrl.cond true = .offline ∧ s.ctrl.pair = .soloA) := by decide +kernel
def clusterAt (v : Cluster) : State := State.reset.setCl 0 v
def heldFold : FoldItem :=
  { seq := 0, k := 0, p := 3, j := 3, slot := 3, c := 0, block := 0, x0 := 0, strip := 0, e0 := 0, e1 := 0, tile := 0, first := 0, last := 0, sat := false, sums := [], counts := [], held := true }
theorem witness_sparing_cells :
    (let s := clusterAt { queue := [heldFold], hist := [(4, 0)] }
     (s.cl 0).queue.find? (fun f => f.held) = some heldFold ∧ injFor (cellSrc 0 3) 4 s = none ∧
       ((∃ h ∈ (s.cl 0).hist, h.1 ≠ 3 ∧ 0 < h.2 + 16) ∧ ∀ last, (s.cl 0).audit = some (3, last) → last < 0) ∧
       ¬ (∃ h ∈ ([] : List (Nat × Nat)), h.1 ≠ 3 ∧ 0 < h.2 + 16)) ∧
    (let s := clusterAt { move := some ⟨true, 3, 16, 0, 2, false⟩ }
     (s.cl 0).move = some ⟨true, 3, 16, 0, 2, false⟩ ∧ 3 < (s.cl 0).slots.length) ∧
    (let x : CellMove := ⟨false, 3, 16, 0, 0, true⟩
     ((clusterAt { move := some x }).cl 0).move = some x ∧ x.phase = 0 ∧ x.promotion = false ∧ ({ x with phase := 1 } : CellMove).phase = 1) ∧
    ((clusterAt { slotSt := [(3, .selfTest)] }).cl 0).slot 3 = .selfTest ∧
    (let s := { State.reset with time := { mono := 2 ^ 60 }, dict := { base := [(ob 0x2300 4, 1)] } }
     s.cfg (ob 0x2300 4) = 1 ∧ s.fab.rotAt + 1 * 250000000 / 96 ≤ s.now ∧ (s.cl 0).standby = some 16 ∧ (s.cl 0).move = none ∧
       (∀ n, n < 18 → (s.cl 0).slot n = .ok)) ∧
    (let s := clusterAt { slots := (List.range 16).set 3 16, standby := none, slotSt := [(3, .selfTest)] }
     (s.cl 0).slot 3 = .selfTest ∧ (s.cl 0).idle = none ∧ 3 ∉ (s.cl 0).slots ∧ (s.cl 0).standby ≠ some 3 ∧ (s.cl 0).move = none ∧
       (s.cl 0).slotAt 3 ≠ 3) ∧
    (let s := clusterAt { slotSt := [(16, .selfTest)], standby := none }
     (s.cl 0).slot 16 = .selfTest ∧ (s.cl 0).idle = none ∧ 16 ∉ (s.cl 0).slots ∧ (s.cl 0).standby = none ∧ (s.cl 0).comesBack = none) ∧
    (let s := clusterAt { slotSt := [(3, .selfTest)], standby := none, fallback := [⟨3, 3, 0, true⟩] }
     (s.cl 0).slot 3 = .selfTest ∧ (s.cl 0).posOf 3 = some 3 ∧ (s.cl 0).move = none ∧
       ∀ w ∈ (s.cl 0).fallback, w.slot = 3 ∨ (s.cl 0).slot w.slot ≠ .ok) ∧
    (let s := { (clusterAt { fallback := [⟨3, 3, 0, false⟩] }) with time := { mono := us 20 } }
     (s.cl 0).fallback.find? (fun u => !u.spread) = some ⟨3, 3, 0, false⟩ ∧ 0 + us 20 ≤ s.now ∧ s.fab.win = none ∧ s.unserved ≠ [] ∧
       isBeam s.active 0 3 = false ∧ isBeam [(ob 0x7200 1, 16)] 0 3 = true) := by
  refine ⟨?_, ?_, ?_, ?_, ?_, ?_, ?_, ?_, ?_⟩
  · exact ⟨by decide +kernel, by decide +kernel, ⟨⟨(4, 0), by decide +kernel, by decide, by decide⟩, fun _ h => by revert h; exact nofun⟩, by simp⟩
  all_goals decide +kernel
/-- Cluster 0's position 0 forms beams, a batch is in progress and the Rambler audits it; an injection at slot 0's comparison. -/
def beamCell (inj : Option Injection) : State :=
  { cfgAs [(ob 0x7200 1, 16)] with fab := { start := some 0, batch := some 0 }, so := { inj := inj } }
theorem witness_beam_audit :
    (let s := beamCell none
     (s.cl 0).queue.find? (fun f => f.held) = none ∧ (s.cl 0).slot 17 = .ok ∧ (s.cl 0).rambFrom ≤ s.curPass ∧ s.fab.batch.isSome = true ∧
       isBeam s.active 0 ((s.cl 0).auditPos s.curPass) = true ∧ isBeam (s.setAt 0) 0 0 = true ∧
       injFor (cellSrc 0 ((s.cl 0).slotAt ((s.cl 0).auditPos s.curPass))) 4 s = none) ∧
    (let s := beamCell (some ⟨cellSrc 0 3, 4, true, 0, 1⟩)
     (injFor (cellSrc 0 3) 4 s).isSome = true) ∧ (cfgAs []).fab.batch = none := by decide +kernel
/-- A window of channel 0 whose strip 0 no position has begun, with an unserved position that correlates. -/
def fallWin (todo : Option (List (Nat × Nat))) : State :=
  { cfgAs ((List.range 95).map fun j => (ob (0x7201 + j) 1, 16)) with
    fab := { start := some 0, win := some ⟨0, 0, [0]⟩, cl := [(0, { fallback := [⟨3, 3, 0, false⟩] })], newSched := some ([(0, 3)], 0, false),
             pos := [(0, { todo := todo })] },
    time := { mono := us 20 } }
theorem witness_fallback_window :
    (let s := fallWin none
     (s.cl 0).fallback.find? (fun u => !u.spread) = some ⟨3, 3, 0, false⟩ ∧ s.fab.win = some ⟨0, 0, [0]⟩ ∧
       (s.front ⟨0, 0, [0]⟩ (s.winSet ⟨0, 0, [0]⟩)).isSome = true ∧ s.fab.newSched = some ([(0, 3)], 0, false) ∧
       s.atBoundary ⟨0, 0, [0]⟩ (s.winSet ⟨0, 0, [0]⟩) = true) ∧
    (let s := fallWin (some [(1, 2)])
     s.atBoundary ⟨0, 0, [0]⟩ (s.winSet ⟨0, 0, [0]⟩) = false) ∧
    (cfgAs []).fab.newSched = none ∧ (cfgAs []).unserved = [] := by decide +kernel

/-! ### Supplies, reset and START -/

def pwrAt (p : Pwr) : State := { State.reset with pwr := p }
def goodRails : List Nat := [3300, 1800, 1800, 720, 820, 900, 1200, 1100, 1800]
/-- 18 Table 18.2: two samples of VLANE at 845 mV are a brownout. -/
theorem test_brownout : completes (.railSample [3300, 1800, 1800, 720, 820, 845, 1200, 1100, 1800]) (pwrAt { step := 6, below := [(5, 1)] })
    fun t => t.pwr.inReset = true ∧ t.pwr.step = 1 ∧ t.pwr.newCause = 4 + 256 * 5 := ⟨_, rfl, by decide +kernel⟩
/-- 18 R505: VCORE is at 10 % while group 1 is still off. -/
theorem test_order : completes (.railSample [3300, 0, 0, 100, 100, 0, 0, 0, 0]) (pwrAt { step := 1, inReset := true })
    fun t => t.pwr.step = 1 ∧ t.pwr.newCause = 8 ∧ t.pwr.cards = [(4, 3 + 16 * 100)] := ⟨_, rfl, by decide +kernel⟩
/-- The clauses of RAIL_SAMPLE: rails at 10 % or more in order, one out of order, VSRAM behind VCORE, and a brownout's count. -/
theorem witness_rails :
    (let p : Pwr := { step := 6 }
     orderBroken 0 p goodRails = none ∧ p.vka = true ∧ p.broken = false ∧ p.rise = [] ∧ p.vkaAt = none ∧
       ∀ n, n < 9 → ∀ r ∈ rails[n]?, ¬ (10 * goodRails.getD n 0 < r.nominal)) ∧
    (let v : List Nat := [3300, 0, 0, 100, 100]
     orderBroken 0 { step := 1 } v = some 3 ∧ (∀ r ∈ rails[3]?, ¬ (10 * 100 < r.nominal) ∧ r.group = 2) ∧ (∀ r ∈ rails[1]?, 10 * 0 < r.nominal ∧ r.group = 1)) ∧
    (let v : List Nat := [3300, 1800, 1800, 720, 600]
     82 ≤ v.getD 4 0 ∧ v.getD 4 0 + 50 < v.getD 3 0 ∧ orderBroken 0 { step := 3 } v = some 4) ∧
    (let p : Pwr := { step := 6, below := [(5, 1)] }
     (∀ r ∈ rails[5]?, 1 ≤ r.group ∧ r.group + 2 ≤ p.step ∧ 845 < r.trip) ∧ 1 ≤ p.below.get (fun _ => 0) 5) ∧
    (let p : Pwr := { step := 1, offRun := 9999 }
     orderBroken 0 p [3300] = none ∧ ∀ n, n < 9 → 1 ≤ n → ∀ r ∈ rails[n]?, 10 * ([3300] : List Nat).getD n 0 < r.nominal) := by decide +kernel
theorem witness_power :
    ((pwrAt { vka := false }).pwr.vka = false ∧ (pwrAt {}).encl.st = .sealed) ∧
    ((pwrAt { step := 4 }).pwr.step = 4 ∧ (pwrAt { step := 4 }).pwr.vka = true ∧ (pwrAt { step := 4, pin := true }).pwr.pin = true) ∧
    (let v (n : Nat) := goodRails.getD n 0
     5 ≤ (pwrAt { step := 6 }).pwr.step ∧ 2900 ≤ v 0 ∧ (∀ n, n < 9 → ∀ r ∈ rails[n]?, r.lo ≤ v n ∧ v n ≤ r.hi) ∧
       (∀ r ∈ rails[5]?, 860 < r.lo ∧ r.trip ≤ 860)) ∧
    (let s := { pwrAt { run := .running } with dict := { up := true } }
     s.dict.up = true ∧ s.servesNow = true ∧ (s.setDict { up := true, waiting := [.start 0] }).servesNow = false ∧
       (∀ k, k < 4 → (s.stk k).queue = []) ∧ (∀ r ∈ s.ctrl.reqs, r.stage ≠ .ready) ∧ s.pwr.softBusy = false ∧ s.pwr.softDue = false ∧ s.pwr.run = .running ∧ s.pwr.inReset = false ∧ s.pwr.pin = false) ∧
    (let p := (pwrAt { pin := true, inReset := true }).pwr
     p.pin = true ∧ p.inReset = true ∧ p.step = 5 ∧ 3 ≤ p.step) ∧ TapIr.drives .extest = true ∧
    (blockType 0xA20).isSome = true ∧ blockType 0x999 = none ∧
    ((pwrAt { run := .stopping, rampPin := true }).pwr.cards = [] ∧ (pwrAt { run := .stopping, rampSoft := true }).pwr.rampSoft = true) ∧
    (let s := { pwrAt { run := .ramping, b0 := 7 } with time := { pm := 9 } }
     s.pwr.run = .ramping ∧ s.pwr.b0 ≤ s.pm ∧ (pwrAt { run := .armed }).pwr.startPm ≤ (pwrAt {}).pm) ∧
    (let s : State := { State.reset with dict := { up := true, sets := [(0, [])] } }
     s.pm ≤ (5#64).toNat ∧ s.dict.sets ≠ [] ∧ s.pwr.run = .idle ∧ s.dict.tt.st = .idle ∧ 0 < s.chipF lastSet) := by decide +kernel

/-! ### Time bases -/

def timeAt (t : Times) : State := { State.reset with time := t }
def tbAt (b : Tb) : State := (timeAt { mono := 1000 }).setTb 1 b
def locked : Times := { ref := .locked, mono := 300000000, align := some ⟨12, 2, false, 0⟩ }
/-- 15 R428: the first edge of the reference more than 0.1 s after the record sets the counter to (12 − 2) · 250,000,000. -/
theorem test_align : completes .ppsEdge (timeAt locked) fun t => t.time.pm = 2500000000 ∧ t.time.epoch = 2 ∧ t.time.ppsError = 0 ∧
    t.so.waiting.length = 1 := ⟨_, rfl, by decide +kernel⟩
/-- 15 R436: the mean path delay of t1 = 0, t2 = 700, t3 = 1000, t4 = 1300 is (700 + 300) / 2. -/
theorem test_delay : completes (.ptpMessage 1 ⟨false, false, .delayResp 2 0 7 3 1300 0 1⟩)
    (tbAt { st := .slave, master := 7, t1 := 0, t2 := 700, t3 := some (3, 1000) }) fun t => (t.tbOf 1).delay = 500 ∧ (t.tbOf 1).reqInt = 500000000 := ⟨_, rfl, by decide +kernel⟩
theorem witness_time :
    (State.reset.time.align = none ∧ ¬ ∃ l, l < 0xCC ∧ (State.reset.lane l).rx = .running) ∧
    ((timeAt locked).time.align = some ⟨12, 2, false, 0⟩ ∧ 0 + 25000000 ≤ (timeAt locked).now ∧ (timeAt locked).now ≤ 0 + 500000000 ∧ (timeAt locked).time.ref = .locked ∧
      (12 - 2) * 250000000 ≠ (timeAt locked).time.pm) ∧
    (let s := timeAt { mono := 275000000 }
     s.time.ppsLost = false ∧ s.time.ppsFrom + 275000000 ≤ s.now ∧ ¬ (timeAt {}).time.ppsFrom + 275000000 ≤ (timeAt {}).now) ∧
    0 + 500000000 ≤ (timeAt { align := some ⟨12, 2, false, 0⟩, mono := 500000000 }).now ∧
    (let v := (2 - 2) * 250000000
     v = (timeAt { locked with align := some ⟨2, 2, false, 0⟩ }).time.pm) ∧
    (let n := { (tbAt { }) with lanes := { lane := [(3, { rx := .running })] } }
     (n.lane 3).rx = .running) ∧
    3 ≤ (timeAt { refBad := 2, ref10m := true }).time.refBad + 1 ∧
    ((timeAt { ref := .noRef }).time.ref = .noRef ∧ (timeAt { ref := .holdover }).time.ref = .holdover ∧
      (timeAt { ref := .acquire }).time.pll = false) ∧
    ((tbAt { st := .listening }).tbOf 1).foreign = [] ∧
    (let s := tbAt { st := .listening, foreign := [⟨7, [1], 1, 10, 990⟩] }
     (s.tbOf 1).st ≠ .disabled ∧ (s.tbOf 1).foreign = [⟨(7#64).toNat, [1], 1, 10, 990⟩] ∧ s.now ≤ 990 + 4 * 10) ∧
    (let s := tbAt { st := .slave, master := 7, syncWait := some (3, 0, 0), reqAt := some 0, reqInt := 1000, t3 := some (3, 1000), pt := some (3, 0, 0) }
     (7#64).toNat = (s.tbOf 1).master ∧ (s.tbOf 1).syncWait = some (3, 0, 0) ∧ (∀ a ∈ (s.tbOf 1).reqAt, a + (s.tbOf 1).reqInt ≤ s.now) ∧ (s.tbOf 1).t3 = some (3, 1000) ∧ s.tbCfg 1 5 = 0 ∧
       s.tbCfg 1 2 = b2n false ∧ s.tbCfg 1 4 = b2n false ∧ s.tbCfg 1 3 = 0 ∧ (s.tbOf 1).foreign.find? (fun f => f.id == (s.tbOf 1).master) = none) ∧
    (cfgAs [(ob 0x2211 5, 1)]).tbCfg 1 5 = 1 := by decide +kernel

/-! ### The enclave and the TAP -/

def enclAt (v : Encl) : State := { State.reset with encl := v, dict := { up := true } }
/-- 17 Table 17.2: a third failure ends the unsealing in SEALED; no deassertion is taken before the next assertion (R493). -/
theorem test_fuse_fault : completes (.fuseVerify false) (enclAt { st := .unsealing, count := 3, fails := 2 }) fun t =>
    t.encl.st = .sealed ∧ t.encl.lock = true ∧ t.encl.audit = 1 ∧ (sealDeasserted t).encl.st = .sealed := ⟨_, rfl, by decide +kernel⟩
/-- 17 R488: certified_version written as 7 in UNSEALED. -/
theorem test_cs_write : completes (.csWrite 0x3000 4 0 [7, 0, 0, 0] false) (enclAt { st := .unsealed }) fun t =>
    csVersion t.encl.working = 7 ∧ csVersion t.encl.cert = 0 := ⟨_, rfl, by decide +kernel⟩
theorem witness_enclave :
    ((enclAt {}).pwr.vka = true ∧ ({ enclAt {} with pwr := { vka := false } } : State).pwr.vka = false) ∧
    (enclAt { st := .sealed, pin := true }).encl.pin = true ∧ (enclAt {}).servesNow = true ∧
      ((enclAt {}).setDict { up := true, waiting := [.start 0] }).servesNow = false ∧
    ((enclAt { st := .unsealing, count := 1, pin := true }).encl.fails + 1 < 3 ∧ (enclAt { st := .unsealing, count := 4096 }).encl.st = .unsealing) ∧
    ((enclAt { st := .sealed, count := 4096 }).encl.lock = false ∧ (enclAt { st := .sealing, c1 := true, pin := true }).encl.c1 = true ∧
      (enclAt { st := .sealing, c1 := true, count := 4096 }).encl.pin = false) ∧
    ((enclAt { st := .sealing, workingCrc := 5 }).encl.workingCrc ≠ (enclAt { st := .sealing }).encl.certCrc) ∧
    ((objAt (0x3000#16).toNat (4#8).toNat).any fun o => o.acc == 5 && o.typ != 10 && o.size == 4) = true ∧
    ((objAt (0x3010#16).toNat (1#8).toNat).any fun o => o.acc == 5 && o.typ == 10 && decide (4 ≤ o.size)) = true ∧
    (let s := { enclAt { st := .unsealed } with dict := { up := true, open_ := [⟨0x3010, 1, ⟨.mgmt, 0, 0⟩, [1, 2], 0⟩] } }
     (s.openWrite (0x3010#16).toNat (1#8).toNat).any fun q => q.data.length == (2#32).toNat) = true := by decide +kernel

/-! ### Commands that are not well formed, and the machine as a whole -/

def goodParcel : Parcel := ⟨0, 0, false, 1, 0, 0, 8192, 0, 1, 0, 0, 1, 0, 1, [0, 0, 0, 0, 0, 0, 0, 0], 0⟩
def someReq : Req := ⟨.mgmt, 0x0A000001, 5000, 0, 40310, false, 1, 7, 0x1010, 1, 0, 0, 0, 0, false, [], 0⟩
def goodFrame : LinkFrame := ⟨0, 0, false, false, true, 0, 0, 0, 0, 0, [1, 2, 3, 4], 0⟩
/-- A term that each check of WellFormed refuses, beside one that it takes. -/
theorem test_wf_refuses :
    (Instr.unitArrival 0 0 0).wf = false ∧ (Instr.unitArrival 0 0 1).wf = true ∧
    (Instr.sampleLinkFrame 0 { goodFrame with payload := [1] }).wf = false ∧ (Instr.sampleLinkFrame 0 goodFrame).wf = true ∧
    (Instr.channelSampleOut 0 4096 0).wf = false ∧ (Instr.channelSampleOut 0 4095 0).wf = true ∧
    (Instr.gainTable 0 0 0 2 0 [1]).wf = false ∧ (Instr.gainTable 0 0 0 1 0 [1]).wf = true ∧
    (Instr.parcelSend 0 ⟨0, 256, 0, 0, 0⟩).wf = false ∧ (Instr.parcelSend 0 ⟨0, 255, 0, 0, 0⟩).wf = true ∧
    (Instr.parcelDeadline 0 ⟨0, 0, 0, 65536, 0⟩).wf = false := by decide +kernel
theorem test_wf_refuses_records :
    (Instr.parcelReceive 0 0 { goodParcel with type := 256 }).wf = false ∧ (Instr.parcelReceive 0 0 { goodParcel with payload := [1] }).wf = false ∧
    (Instr.parcelReceive 0 0 goodParcel).wf = true ∧ (Instr.configMessageTimeout 256 0).wf = false ∧
    (Instr.segmentEnd 0 0 [(0, 8192, .ok)]).wf = false ∧ (Instr.beamDeadline 0 [(96, 0, 0)]).wf = false ∧ (Instr.beamDeadline 0 [(95, 15, 7)]).wf = true ∧
    (Instr.dramRequestIssue 0 0 ⟨0, 0⟩ 0 0 none false []).wf = false ∧ (Instr.dramRequestIssue 0 0 ⟨0, 0⟩ 0 2 (some [1]) false []).wf = false ∧
    (Instr.dramRequestIssue 0 0 ⟨0, 0⟩ 0 1 (some [1]) false []).wf = true ∧
    (Instr.dramRequestIssue 0 0 ⟨0, 0⟩ 51539607551 2 none false []).wf = false ∧ (Instr.compressEnvelope 0 .ok false [(4, 0, .ok)]).wf = false := by
  decide +kernel
theorem test_wf_refuses_buses :
    (Instr.registerWrite (.bus 0 ⟨0, 0, true, 0, 1, false, [1, 2, 3], []⟩)).wf = false ∧
    (Instr.registerWrite (.bus 0 ⟨0, 0, true, 0, 1, false, [1, 2], []⟩)).wf = true ∧
    (Instr.registerWrite (.bus 0 ⟨0, 0, true, 2, 0, false, [1, 2, 3, 4], [true]⟩)).wf = false ∧
    (Instr.registerWrite (.bus 0 ⟨0, 0, false, 2, 0, false, [], []⟩)).wf = false ∧ (Instr.registerWrite (.object 0x1010 1 [])).wf = false ∧
    (Instr.deadLetterAccess ⟨0, 0⟩ 0 true 0).wf = false ∧ (Instr.deadLetterAccess ⟨0, 0⟩ 0 true 257).wf = false ∧ (Instr.deadLetterAccess ⟨0, 0⟩ 0 true 256).wf = true ∧
    (Instr.stewardMismatch (.error true (some ⟨0, 0, true, 0, 0, false, [], []⟩))).wf = false ∧ (Instr.stewardMismatch (.corrected false)).wf = true ∧
    (Instr.stewardMismatch (.both ⟨0, 0, false, 0, 0, false, [], []⟩ ⟨0, 0, true, 2, 0, false, [1, 2, 3], []⟩ [])).wf = false ∧
    (Instr.read { someReq with path := .tally } .ok).wf = false ∧ (Instr.read someReq .ok).wf = true ∧
    (Instr.readSnap { someReq with path := .tally } .ok).wf = false ∧ (Instr.readActive { someReq with path := .tally } .ok).wf = false ∧
    (Instr.write { someReq with path := .tally }).wf = false ∧ (Instr.fanoutWrite { someReq with path := .tally }).wf = false ∧
    (Instr.list { someReq with path := .tally }).wf = false := by decide +kernel
theorem test_wf_refuses_messages :
    (Instr.arpRequest .bus 0 0 0).wf = false ∧ (Instr.arpRequest .field 0 0 0).wf = true ∧ (Instr.icmpEcho .tally 0 0 []).wf = false ∧
    (Instr.ptpMessage 0 ⟨true, false, .announce 2 256 0 [] 1⟩).wf = false ∧ (Instr.ptpMessage 0 ⟨true, false, .sync 2 0 0 65536 false 0 0 0⟩).wf = false ∧
    (Instr.ptpMessage 0 ⟨true, false, .followUp 256 0 0 0 0 0⟩).wf = false ∧ (Instr.ptpMessage 0 ⟨true, false, .delayResp 2 0 0 0 0 0 128⟩).wf = false ∧
    (Instr.ptpMessage 0 ⟨true, false, .pdelayReq 2 0 0 65536 0⟩).wf = false ∧ (Instr.ptpMessage 0 ⟨true, false, .pdelayResp 256 0 0 0 0 0 1 0⟩).wf = false ∧
    (Instr.ptpMessage 0 ⟨true, false, .pdelayRespFollowUp 2 0 0 65536 0 0⟩).wf = false ∧ (Instr.ptpMessage 2 ⟨true, true, .announce 2 255 0 [] 1⟩).wf = true ∧
    (Instr.railSample [1]).wf = false ∧ (Instr.railSample (List.replicate 9 1)).wf = true ∧ (Instr.tjSample [1]).wf = false ∧
    (Instr.tjSample (List.replicate 8 50)).wf = true := by decide +kernel
/-- 19 R538: with RST_N high BYPASS stands in the place of CLAMP; the command leaves the queue. -/
theorem test_front_command : (match step { State.reset with pending := [.clamp, .idcode] } with
    | .next t => t.tap == .bypass && t.pending.length == 1 | _ => false) = true := by decide +kernel
theorem witness_machine : State.reset.pending = [] ∧ Memory.wf State.reset.mm.mem = true ∧ step State.reset = .next (tick State.reset) :=
  ⟨rfl, rfl, rfl⟩
/-- A state out of reset, where nothing waits that a tick could move. -/
def idle : State := { State.reset with pwr := { State.reset.pwr with inReset := false } }
theorem witness_idle (l : Nat) : (idle.lane l).tx ≠ .test := by
  have e : (idle.lane l).tx = .active := rfl
  rw [e]; decide
theorem witness_tick : ({ idle with pwr := { idle.pwr with inReset := true } } : State).pwr.inReset = true ∧ idle.pwr.inReset = false ∧ (∀ p, p < 4 → (idle.port p).ctlq = []) ∧
    (∀ k, k < 4 → (idle.stk k).queue = []) ∧ idle.ctrl.reqs = [] ∧ (∀ k, k < 16 → (idle.olane k).owed = false) ∧ idle.dict.waiting = [] ∧
    (idle.setDict { waiting := [.start 0] }).dict.waiting = [.start 0] ∧ idle.ctrl.pair.serves = true := by decide +kernel
/-- Lane 3 in TEST, a tick before it has sent another word. -/
def testing : State := idle.setLane 3 { tx := .test, phase := 4 }
theorem witness_testing (j : Nat) (h : j ≠ 3) : (testing.lane j).tx ≠ .test := by
  have e : testing.lanes.lane = [(3, { tx := .test, phase := 4 })] := by decide +kernel
  have e2 : testing.lane j = {} := by
    unfold State.lane
    rw [e]
    simp [Tab.get, Ne.symm h, laneInit]
  rw [e2]; decide
theorem witness_test_word : (testing.lane 3).tx = .test ∧ (testing.lanes.lane.filter fun e => e.1 == 3).length = 1 ∧
    (testing.lane 3).loopback = 0 ∧ (testing.lane 3).driver = true ∧ 5 ≤ testing.pwr.step ∧ testing.tap.drives = false ∧ 16 ≤ (testing.lane 3).phase + 5 * 2 ^ (testing.gen 3 - 1) ∧
    (testing.lane 3).phase + 5 * 2 ^ (testing.gen 3 - 1) < 32 := by decide +kernel
theorem witness_control_queue :
    (let s := (idle.setPort 1 { ctlq := [⟨1, 5, 7, 255, 0⟩] }).setLane (portLane 1 0) { rx := .running }
     (s.port 1).ctlq = [⟨1, 5, 7, 255, 0⟩] ∧ (∀ j, j < 4 → j ≠ 1 → (s.port j).ctlq = []) ∧ s.ctlRoom 1 = true) ∧
    (let s := idle.setPort 1 { ctlq := [⟨1, 5, 7, 255, 0⟩], ctlTimes := List.replicate 16 0 }
     s.ctlRoom 1 = false) := by decide +kernel

end Sys2Proof.Tests
end

section
/-! Sets, stamps and blocks (02): what a committed set does in the block that applies it (O22), and what arriving units and the
boundaries of time blocks do to the blocks they reach (O23). -/

namespace Sys2Proof.Machine

open Sys2Proof


/-! ### Loops over a range of units -/

theorem forRange_zero (f : Nat → State → State) (s : State) : forRange 0 f s = s := rfl

theorem forRange_succ (n : Nat) (f : Nat → State → State) (s : State) : forRange (n + 1) f s = f n (forRange n f s) := by
  simp [forRange, List.range_succ]

/-- What holds before a loop and is kept by each of its steps holds after it. -/
theorem forRange_induct {n : Nat} {f : Nat → State → State} {P : State → Prop} {s : State} (h0 : P s)
    (step : ∀ k v, k < n → P v → P (f k v)) : P (forRange n f s) := by
  induction n with
  | zero => exact h0
  | succ n ih =>
    rw [forRange_succ]
    exact step n _ n.lt_succ_self (ih fun k v hk => step k v (hk.trans n.lt_succ_self))

/-- What no step of a loop changes, the loop does not change. -/
theorem forRange_proj {α : Type} {n : Nat} {f : Nat → State → State} (g : State → α)
    (h : ∀ k v, k < n → g (f k v) = g v) (s : State) : g (forRange n f s) = g s :=
  forRange_induct (P := fun t => g t = g s) rfl fun k v hk hv => (h k v hk).trans hv

/-- A loop whose step k rewrites unit a + k alone, from what the loop keeps and from that unit, rewrites each unit of its range
once. -/
theorem forRange_read {α β : Type} {n : Nat} {f : Nat → State → State} (g : State → Nat → α) (env : State → β) (a : Nat)
    (new : Nat → α) (s : State) (keep : ∀ k v, k < n → env (f k v) = env v)
    (self : ∀ k v, k < n → env v = env s → g v (a + k) = g s (a + k) → g (f k v) (a + k) = new (a + k))
    (other : ∀ k v i, i ≠ a + k → g (f k v) i = g v i) (i : Nat) :
    g (forRange n f s) i = if a ≤ i ∧ i < a + n then new i else g s i := by
  induction n with
  | zero => rw [forRange_zero, if_neg (by omega)]
  | succ n ih =>
    have ih' := ih (fun k v hk => keep k v (hk.trans n.lt_succ_self)) (fun k v hk => self k v (hk.trans n.lt_succ_self))
    rw [forRange_succ]
    by_cases hi : i = a + n
    · subst hi
      rw [if_pos (by omega)]
      refine self n _ n.lt_succ_self (forRange_proj env (fun k v hk => keep k v (hk.trans n.lt_succ_self)) s) ?_
      rw [ih', if_neg (by omega)]
    · rw [other n _ i hi, ih']
      exact if_congr (by omega) rfl rfl

/-! ### Block numbers -/

theorem blockType_of_lane {n : Nat} (h : n < 222) : blockType n = some 0x01 ∨ blockType n = some 0x02 ∨ blockType n = some 0x03 := by
  unfold blockType
  by_cases h1 : n ≤ 0x63
  · exact .inl (if_pos h1)
  · by_cases h2 : n ≤ 0xCB
    · exact .inr (.inl (by rw [if_neg h1, if_pos h2]))
    · exact .inr (.inr (by rw [if_neg h1, if_neg h2, if_pos (by omega)]))

theorem engine_of_blockType {n : Nat} (h : blockType n = some 0x10) : 0x100 ≤ n ∧ n ≤ 0x117 := by
  simp only [blockType, ite_eq_iff, Option.some.injEq, reduceCtorEq, Nat.reduceEqDiff, and_false, false_or, or_false, and_true] at h
  omega

theorem cluster_of_blockType {n : Nat} (h : blockType n = some 0x20) : 0x140 ≤ n ∧ n ≤ 0x19F := by
  simp only [blockType, ite_eq_iff, Option.some.injEq, reduceCtorEq, Nat.reduceEqDiff, and_false, false_or, or_false, and_true] at h
  omega

theorem blockType_engine (e : Fin 24) : blockType (0x100 + e) = some 0x10 := by revert e; decide
theorem blockType_port (q : Fin 4) : blockType (0x120 + q) = some 0x11 := by revert q; decide
theorem blockType_cluster (k : Fin 96) : blockType (0x140 + k) = some 0x20 := by revert k; decide
theorem blockType_stack (q : Fin 4) : blockType (0x900 + q) = some 0x30 := by revert q; decide

theorem blockType_cellSrc {k j : Nat} (hk : k < 96) (hj : j < 18) : blockType (cellSrc k j) = some 0x21 := by
  have h : 0x200 ≤ cellSrc k j ∧ cellSrc k j ≤ 0x8BF := by unfold cellSrc; omega
  unfold blockType
  rw [if_neg (by omega), if_neg (by omega), if_neg (by omega), if_neg (by omega), if_neg (by omega), if_neg (by omega),
    if_neg (by omega), if_neg (by omega), if_pos h]

/-! ### The set that is due at a block (02 R28) -/

/-- The count is what it was, or one more than the place of a set whose Postmark has been reached. -/
theorem reachedSets_cases (t : Nat) (l : List (Nat × Tab Nat)) (i acc : Nat) :
    reachedSets t l i acc = acc ∨ ∃ j p m, l[j]? = some (p, m) ∧ p ≤ t ∧ reachedSets t l i acc = i + j + 1 := by
  induction l generalizing i acc with
  | nil => exact .inl rfl
  | cons x r ih =>
    obtain ⟨p, m⟩ := x
    simp only [reachedSets]
    rcases ih (i + 1) (if p ≤ t then i + 1 else acc) with h | ⟨j, q, w, hj, hq, h⟩
    · by_cases hp : p ≤ t
      · exact .inr ⟨0, p, m, rfl, hp, by rw [h, if_pos hp]⟩
      · exact .inl (by rw [h, if_neg hp])
    · exact .inr ⟨j + 1, q, w, hj, hq, by rw [h]; omega⟩

/-- How many of the latched sets data stamped t has reached. -/
def State.reachedBy (s : State) (t : Nat) : Nat := reachedSets t s.dict.sets 0 0

theorem State.dueSet_eq (s : State) (n t : Nat) : s.dueSet n t =
    if (s.blk n).taken < s.reachedBy t then
      (s.dict.sets[s.reachedBy t - 1]?).map fun x => (x.1, s.setIdx (s.blk n).taken, x.2, s.reachedBy t)
    else none := by
  unfold State.dueSet
  refine if_congr Iff.rfl ?_ rfl
  change (match s.dict.sets[s.reachedBy t - 1]? with | some (p, m) => _ | none => _) = _
  cases s.dict.sets[s.reachedBy t - 1]? <;> rfl

theorem State.reachedBy_get (s : State) (t : Nat) (h : s.reachedBy t ≠ 0) :
    ∃ p m, s.dict.sets[s.reachedBy t - 1]? = some (p, m) ∧ p ≤ t := by
  rcases reachedSets_cases t s.dict.sets 0 0 with e | ⟨j, p, m, hj, hp, e⟩
  · exact absurd e h
  · refine ⟨p, m, ?_, hp⟩
    rw [show s.reachedBy t - 1 = j by unfold State.reachedBy; omega]
    exact hj

theorem State.dueSet_eq_none_iff (s : State) (n t : Nat) : s.dueSet n t = none ↔ s.reachedBy t ≤ (s.blk n).taken := by
  by_cases h : (s.blk n).taken < s.reachedBy t
  · obtain ⟨p, m, hm, _⟩ := s.reachedBy_get t (by omega)
    simp [State.dueSet_eq, h, hm]
  · simp [State.dueSet_eq, h, Nat.le_of_not_lt h]

theorem State.dueSet_spec {s : State} {n t p k : Nat} {old new : Tab Nat} (h : s.dueSet n t = some (p, old, new, k)) :
    p ≤ t ∧ (p, new) ∈ s.dict.sets ∧ k = s.reachedBy t := by
  have ht : (s.blk n).taken < s.reachedBy t := by
    by_contra hle
    rw [(s.dueSet_eq_none_iff n t).2 (Nat.le_of_not_lt hle)] at h
    cases h
  obtain ⟨q, m, hm, hq⟩ := s.reachedBy_get t (by omega)
  simp only [State.dueSet_eq, ht, if_true, hm, Option.map_some, Option.some.injEq, Prod.mk.injEq] at h
  obtain ⟨rfl, -, rfl, rfl⟩ := h
  exact ⟨hq, List.mem_of_getElem? hm, rfl⟩

/-! ### What a block notes of a set -/

/-- From s to t the latched sets stay, and of the blocks only n changes, at most in its PLAIN bit. -/
def plainBut (n : Nat) (s t : State) : Prop :=
  t.dict.sets = s.dict.sets ∧ (∀ m, m ≠ n → t.blk m = s.blk m) ∧ t.blk n = { s.blk n with plain := (t.blk n).plain }

theorem plainBut_of_dict {n : Nat} {s t : State} (h : t.dict = s.dict) : plainBut n s t := by
  simp [plainBut, State.blk, h]

theorem plainBut.trans {n : Nat} {s t u : State} (h : plainBut n s t) (k : plainBut n t u) : plainBut n s u := by
  obtain ⟨hs, hb, hn⟩ := h
  obtain ⟨ks, kb, kn⟩ := k
  refine ⟨ks.trans hs, fun m hm => (kb m hm).trans (hb m hm), ?_⟩
  rw [kn, hn]

theorem plainBut_putEng (e : Nat) (v : Engine) (s : State) : plainBut (engSrc e) s (s.putEng e v) := by
  refine ⟨rfl, fun m hm => ?_, ?_⟩
  · exact (State.blk_modBlk ..).trans (if_neg hm)
  · rw [show (s.putEng e v).blk (engSrc e) = { s.blk (engSrc e) with plain := v.plain } from
      (State.blk_modBlk ..).trans (if_pos rfl)]

/-- The set at Postmark p, the k-th latched, has been applied by block b: what the block shows, and what no other block but a cell
slot of b's cluster does. -/
def Noted (b x p k : Nat) (new : Tab Nat) (s t : State) : Prop :=
  p ≤ x ∧ (p, new) ∈ s.dict.sets ∧ t.dict.sets = s.dict.sets ∧ (t.blk b).taken = k ∧
    (t.blk b).appliedPm = p ∧ (t.blk b).activeValid = true ∧ (t.blk b).running = true ∧
    ∀ m, m ≠ b → blockType m ≠ some 0x21 → t.blk m = s.blk m

/-! ### A commit at a filter engine (05 R143, R152) -/

/-- An engine whose chains start at p with Plain for n and d. -/
def Engine.plainStart (n d p : Nat) (v : Engine) : Engine :=
  { v with a := { st := .active, prof := plainProfile n d, start := p, skip := v.a.midway }
           b := { st := .warming, prof := plainProfile n d, start := p, skip := v.b.midway }
           active := false, pending := none, latched := none, fading := false, recovery := none }

/-- Apart from Postcards and gain stages, a restart with Plain changes what storing the engine does. -/
theorem plainRestart_proj {α : Type} (g : State → α) (hso : ∀ v src kind addr, g (raise src kind addr v) = g v)
    (hgain : ∀ v i x, g (State.setGain v i x) = g v) (n d p e : Nat) (s : State) :
    g (plainRestart n d p e s) = g (s.putEng e ((s.eng e).plainStart n d p)) := by
  unfold plainRestart
  refine (forRange_proj g (fun _ _ _ => hgain ..) _).trans ?_
  split
  · exact hso ..
  · rfl

/-- The set keeps N and D, and reload does not become 1 with it. -/
def keepsChains (old new : Tab Nat) : Prop :=
  setVal old (ob 0x5000 0x10) = setVal new (ob 0x5000 0x10) ∧ setVal old (ob 0x5000 0x11) = setVal new (ob 0x5000 0x11) ∧
    (setVal new (ob 0x5000 0x16) ≠ 1 ∨ setVal old (ob 0x5000 0x16) ≠ 0)

/-- The set changes the sample period of a lane of engine e. -/
abbrev changesPeriod (e : Nat) (old new : Tab Nat) : Prop :=
  ∃ j : Fin 4, setVal old (ob (0x4200 + 4 * e + j) 4) ≠ setVal new (ob (0x4200 + 4 * e + j) 4)

theorem any_period_iff (e : Nat) (old new : Tab Nat) :
    ((List.range 4).any fun q => setVal old (ob (0x4200 + 4 * e + q) 4) != setVal new (ob (0x4200 + 4 * e + q) 4)) = true ↔
      changesPeriod e old new := by
  simp [changesPeriod, Fin.exists_iff]

/-- Apart from gain stages, a set that keeps N and D warms the inactive bank where a sample period changes, and no more. -/
theorem engineCommit_proj_of_keeps {α : Type} (g : State → α) (hgain : ∀ v i x, g (State.setGain v i x) = g v) {old new : Tab Nat}
    (h : keepsChains old new) (e p : Nat) (s : State) :
    g (engineCommit e p old new s) = g (if changesPeriod e old new then s.putEng e ((s.eng e).rewarm p) else s) := by
  obtain ⟨hN, hD, hr⟩ := h
  have hf : (setVal new (ob 0x5000 0x16) == 1 && setVal old (ob 0x5000 0x16) == 0) = false := by
    rcases hr with h | h <;> simp [h]
  simp only [engineCommit, hN, hD, hf, bne_self_eq_false, Bool.or_self, Bool.false_eq_true, if_false]
  refine (forRange_proj g (fun k v _ => ?_) _).trans (congrArg g (if_congr (any_period_iff ..) rfl rfl))
  split
  · exact hgain ..
  · rfl

theorem engineCommit_of_reload {old new : Tab Nat} (h : ¬ keepsChains old new) (e p : Nat) (s : State) :
    engineCommit e p old new s = plainRestart (setVal new (ob 0x5000 0x10)) (setVal new (ob 0x5000 0x11)) p e s := by
  unfold engineCommit
  refine if_pos ?_
  simp only [Bool.or_eq_true, bne_iff_ne, Bool.and_eq_true, beq_iff_eq]
  unfold keepsChains at h
  tauto

/-- Apart from Postcards and gain stages, a commit at engine e stores that engine or changes nothing. -/
theorem engineCommit_proj {α : Type} (g : State → α) (hso : ∀ v src kind addr, g (raise src kind addr v) = g v)
    (hgain : ∀ v i x, g (State.setGain v i x) = g v) (e p : Nat) (old new : Tab Nat) (s : State) :
    g (engineCommit e p old new s) = g s ∨ ∃ v, g (engineCommit e p old new s) = g (s.putEng e v) := by
  by_cases h : keepsChains old new
  · rw [engineCommit_proj_of_keeps g hgain h]
    split
    · exact .inr ⟨_, rfl⟩
    · exact .inl rfl
  · rw [engineCommit_of_reload h]
    exact .inr ⟨_, plainRestart_proj g hso hgain ..⟩

theorem engineCommit_words (e p : Nat) (old new : Tab Nat) (s : State) : (engineCommit e p old new s).filt.words = s.filt.words := by
  rcases engineCommit_proj (·.filt.words) (fun _ _ _ _ => by simp) (fun _ _ _ => rfl) e p old new s with h | ⟨v, h⟩
  · exact h
  · exact h

theorem State.eng_putEng (s : State) (e j : Nat) (v : Engine) : (s.putEng e v).eng j = if j = e then v else s.eng j :=
  State.eng_setEng ..

theorem State.eng_raise (s : State) (src kind addr j : Nat) : (raise src kind addr s).eng j = s.eng j := by
  simp [State.eng]

theorem engineCommit_eng_other {e j : Nat} (hj : j ≠ e) (p : Nat) (old new : Tab Nat) (s : State) :
    (engineCommit e p old new s).eng j = s.eng j := by
  rcases engineCommit_proj (·.eng j) (fun _ _ _ _ => State.eng_raise ..) (fun _ _ _ => rfl) e p old new s with h | ⟨v, h⟩
  · exact h
  · exact h.trans ((State.eng_putEng ..).trans (if_neg hj))

theorem engineCommit_eng_of_keeps {old new : Tab Nat} (h : keepsChains old new) (e p : Nat) (s : State) :
    (engineCommit e p old new s).eng e = if changesPeriod e old new then (s.eng e).rewarm p else s.eng e := by
  refine (engineCommit_proj_of_keeps (·.eng e) (fun _ _ _ => rfl) h e p s).trans ?_
  split
  · exact (State.eng_putEng ..).trans (if_pos rfl)
  · rfl

theorem engineCommit_so_of_keeps {old new : Tab Nat} (h : keepsChains old new) (e p : Nat) (s : State) :
    (engineCommit e p old new s).so = s.so := by
  refine (engineCommit_proj_of_keeps (·.so) (fun _ _ _ => rfl) h e p s).trans ?_
  split <;> rfl

theorem engineCommit_eng_of_reload {old new : Tab Nat} (h : ¬ keepsChains old new) (e p : Nat) (s : State) :
    (engineCommit e p old new s).eng e = (s.eng e).plainStart (setVal new (ob 0x5000 0x10)) (setVal new (ob 0x5000 0x11)) p := by
  rw [engineCommit_of_reload h]
  exact (plainRestart_proj (·.eng e) (fun _ _ _ _ => State.eng_raise ..) (fun _ _ _ => rfl) ..).trans
    ((State.eng_putEng ..).trans (if_pos rfl))

/-! ### What any commit leaves of the blocks' state -/

theorem plainBut_engineCommit (e p : Nat) (old new : Tab Nat) (s : State) : plainBut (engSrc e) s (engineCommit e p old new s) := by
  rcases engineCommit_proj (·.dict) (fun _ _ _ _ => raise_dict ..) (fun _ _ _ => rfl) e p old new s with h | ⟨v, h⟩
  · exact plainBut_of_dict h
  · exact (plainBut_putEng e v s).trans (plainBut_of_dict h)

/-- Whatever a set does in block n, no block but n changes, and n at most in its PLAIN bit. -/
theorem plainBut_blockCommit (n p : Nat) (old new : Tab Nat) (s : State) : plainBut n s (blockCommit n p old new s) := by
  unfold blockCommit
  split
  iterate 3
    dsimp only
    split
    · exact plainBut_of_dict rfl
    · exact plainBut_of_dict ((genChange_frame ..).get .dict)
  next h =>
    have e := plainBut_engineCommit (n - 0x100) p old new s
    rwa [engSrc, Nat.add_sub_cancel' (engine_of_blockType h).1] at e
  · exact plainBut_of_dict ((relayCommit_frame ..).get .dict)
  · have hc := (clusterCommit_frame (n - 0x140) old new s).get .dict
    dsimp only
    split
    · exact plainBut_of_dict (((weightCommit_frame ..).get .dict).trans hc)
    · exact plainBut_of_dict hc
  · exact plainBut_of_dict ((stackCommit_frame ..).get .dict)
  · split
    · exact plainBut_of_dict ((accCommit_frame ..).get .dict)
    · exact plainBut_of_dict rfl
  · exact plainBut_of_dict ((timeCommit_frame ..).get .dict)
  · exact plainBut_of_dict rfl

/-! ### Applying a set at a block (02 R28) -/

theorem applySets_of_due {s : State} {n x p k : Nat} {old new : Tab Nat} (h : s.dueSet n x = some (p, old, new, k)) :
    applySets n x s = blockCommit n p old new (s.noteApplied n p k) := by
  simp [applySets, h]

theorem applySets_of_none {s : State} {n x : Nat} (h : s.dueSet n x = none) : applySets n x s = s := by
  simp [applySets, h]

theorem applyUnit_of_not_cluster {n : Nat} (h : blockType n ≠ some 0x20) (x : Nat) (s : State) : applyUnit n x s = applySets n x s := by
  simp [applyUnit, h]

theorem applyUnit_of_cluster {n : Nat} (h : blockType n = some 0x20) (x : Nat) (s : State) :
    applyUnit n x s = forRange 18 (fun j v => applySets (cellSrc (n - 0x140) j) x v) (applySets n x s) := by
  simp [applyUnit, h]

theorem State.blk_noteApplied (s : State) (n p k m : Nat) : (s.noteApplied n p k).blk m =
    if m = n then { s.blk n with taken := k, appliedPm := p, activeValid := true, running := true } else s.blk m :=
  State.blk_modBlk ..

theorem applySets_noted {s : State} {n x p k : Nat} {old new : Tab Nat} (h : s.dueSet n x = some (p, old, new, k)) :
    Noted n x p k new s (applySets n x s) := by
  obtain ⟨hp, hmem, -⟩ := State.dueSet_spec h
  obtain ⟨hsets, hother, hself⟩ := plainBut_blockCommit n p old new (s.noteApplied n p k)
  rw [applySets_of_due h]
  refine ⟨hp, hmem, hsets, ?_, ?_, ?_, ?_, fun m hm _ => (hother m hm).trans ?_⟩
  iterate 4 rw [hself, State.blk_noteApplied, if_pos rfl]
  rw [State.blk_noteApplied, if_neg hm]

/-- A block has taken every set that the data has reached. -/
theorem applySets_taken (n x : Nat) (s : State) : ((applySets n x s).blk n).taken = max (s.blk n).taken (s.reachedBy x) := by
  by_cases h : s.reachedBy x ≤ (s.blk n).taken
  · rw [applySets_of_none ((s.dueSet_eq_none_iff n x).2 h), max_eq_left h]
  · obtain ⟨⟨p, old, new, k⟩, hd⟩ := Option.ne_none_iff_exists'.1 fun e => h ((s.dueSet_eq_none_iff n x).1 e)
    obtain ⟨-, -, rfl⟩ := State.dueSet_spec hd
    obtain ⟨-, -, -, htaken, -⟩ := applySets_noted hd
    rw [htaken, max_eq_right (by omega)]

theorem applySets_sets (n x : Nat) (s : State) : (applySets n x s).dict.sets = s.dict.sets := by
  unfold applySets
  split
  · exact (plainBut_blockCommit ..).1
  · rfl

theorem applySets_blk_other {n m : Nat} (hm : m ≠ n) (x : Nat) (s : State) : (applySets n x s).blk m = s.blk m := by
  unfold applySets
  split
  · exact ((plainBut_blockCommit ..).2.1 m hm).trans ((State.blk_noteApplied ..).trans (if_neg hm))
  · rfl

/-- A cell slot that applies a set shows it and does nothing more. -/
theorem applySets_cell_frame {n : Nat} (h : blockType n = some 0x21) (x : Nat) (s : State) : Frame [.dict] s (applySets n x s) := by
  unfold applySets
  split
  · simp only [blockCommit, h]
    exact State.noteApplied_frame ..
  · exact Frame.refl ..

/-! ### A cluster and its cell slots -/

section cells
variable {k : Nat} (hk : k < 96) (x : Nat) (s : State)
include hk

theorem applyCells_frame : Frame [.dict] s (forRange 18 (fun j v => applySets (cellSrc k j) x v) s) :=
  forRange_induct (Frame.refl ..) fun _ v hj h =>
    h.step (applySets_cell_frame (blockType_cellSrc hk hj) x v) (List.Subset.refl _)

theorem applyCells_blk {m : Nat} (hm : blockType m ≠ some 0x21) :
    (forRange 18 (fun j v => applySets (cellSrc k j) x v) s).blk m = s.blk m :=
  forRange_proj (·.blk m)
    (fun _ v hj => applySets_blk_other (fun e => hm ((congrArg blockType e).trans (blockType_cellSrc hk hj))) x v) s

end cells

theorem applyCells_taken (k x : Nat) (s : State) {j : Nat} (hj : j < 18) :
    ((forRange 18 (fun j v => applySets (cellSrc k j) x v) s).blk (cellSrc k j)).taken =
      max (s.blk (cellSrc k j)).taken (s.reachedBy x) := by
  have h := forRange_read (n := 18) (f := fun j v => applySets (cellSrc k j) x v) (fun v m => (v.blk m).taken) (·.dict.sets)
    (0x200 + 18 * k) (fun m => max (s.blk m).taken (s.reachedBy x)) s (fun _ v _ => applySets_sets _ x v)
    (fun j v _ hsets htaken => (applySets_taken _ x v).trans
      (congrArg₂ max htaken (congrArg (fun l => reachedSets x l 0 0) hsets)))
    (fun _ v _ hi => congrArg Blk.taken (applySets_blk_other hi x v)) (cellSrc k j)
  rw [h, if_pos (by unfold cellSrc; omega)]

theorem applyCells_sets (k x : Nat) (s : State) :
    (forRange 18 (fun j v => applySets (cellSrc k j) x v) s).dict.sets = s.dict.sets :=
  forRange_proj (·.dict.sets) (fun _ v _ => applySets_sets _ x v) s

/-- Every block that applies a set notes it. -/
theorem applyUnit_noted {s : State} {n x p k : Nat} {old new : Tab Nat} (h : s.dueSet n x = some (p, old, new, k)) :
    Noted n x p k new s (applyUnit n x s) := by
  have h1 := applySets_noted h
  by_cases hc : blockType n = some 0x20
  · have hk : n - 0x140 < 96 := by have := cluster_of_blockType hc; omega
    obtain ⟨hp, hmem, hsets, htaken, hpm, hvalid, hrun, hother⟩ := h1
    rw [applyUnit_of_cluster hc]
    have hn := applyCells_blk hk x (applySets n x s) (m := n) (by rw [hc]; decide)
    exact ⟨hp, hmem, (applyCells_sets ..).trans hsets, (congrArg Blk.taken hn).trans htaken,
      (congrArg Blk.appliedPm hn).trans hpm, (congrArg Blk.activeValid hn).trans hvalid, (congrArg Blk.running hn).trans hrun,
      fun m hm ht => (applyCells_blk hk x _ ht).trans (hother m hm ht)⟩
  · rw [applyUnit_of_not_cluster hc]
    exact h1

/-! ### A lane whose quad changes its generation (03 R64, R80) -/

theorem raise_so_congr {s t : State} (h : t.so = s.so) (src kind addr : Nat) : (raise src kind addr t).so = (raise src kind addr s).so := by
  unfold raise raiseT
  dsimp only
  rw [h]
  split <;> split <;> rfl

theorem coverSpare_ne {l : Nat} (h : l < 96) : coverSpare l ≠ l := by unfold coverSpare; omega

theorem abandonLeave_of_not {l : Nat} {s : State} (h : ¬ returning l s) : abandonLeave l s = s := by
  unfold returning at h
  unfold abandonLeave
  split
  · exact if_neg fun e => h ⟨‹_›, e⟩
  · rfl

theorem abandonLeave_of_returning {l : Nat} {s : State} (h : returning l s) : abandonLeave l s =
    raise (coverSpare l) 0x0E 0 (s.modLane (coverSpare l) fun v => { v with spare := .serving l }) := by
  obtain ⟨hl, hs⟩ := h
  unfold abandonLeave
  rw [if_pos hl]
  exact if_pos hs

theorem returnCards_of_returning {l : Nat} {s : State} (h : returning l s) : returnCards l s = [(coverSpare l, 0x0E, 0)] := if_pos h
theorem returnCards_of_not {l : Nat} {s : State} (h : ¬ returning l s) : returnCards l s = [] := if_neg h

/-- Once lane l has become v, a return to it ends: that is all that happens beside. -/
theorem abandonLeave_setLane (l : Nat) (v : Lane) (s : State) :
    (abandonLeave l (s.setLane l v)).lane l = v ∧ homeLeaves l s (abandonLeave l (s.setLane l v)) ∧
      raisedOnly (returnCards l s) s (abandonLeave l (s.setLane l v)) := by
  have hsp : l < 96 → (s.setLane l v).lane (coverSpare l) = s.lane (coverSpare l) := fun hl => by
    rw [State.lane_setLane, if_neg (coverSpare_ne hl)]
  have hret : returning l (s.setLane l v) ↔ returning l s := and_congr_right fun hl => by rw [hsp hl]
  by_cases h : returning l s
  · have hne := coverSpare_ne h.1
    have hlane (m : Nat) : (abandonLeave l (s.setLane l v)).lane m =
        if m = coverSpare l then { s.lane m with spare := .serving l } else if m = l then v else s.lane m := by
      rw [abandonLeave_of_returning (hret.2 h), State.lane, raise_lanes, ← State.lane, State.lane_modLane, hsp h.1]
      split
      · next e => rw [e]
      · exact State.lane_setLane ..
    refine ⟨by rw [hlane, if_neg hne.symm, if_pos rfl], ⟨fun m hm u hu => ?_, ?_, ?_⟩, ?_⟩
    · subst hu
      rw [hlane, if_neg hm]
      exact ⟨fun e => if_pos e.2, fun e => if_neg fun c => e ⟨h, c⟩⟩
    · rw [abandonLeave_of_returning (hret.2 h), raise_lanes]; rfl
    · rw [abandonLeave_of_returning (hret.2 h), raise_lanes]; rfl
    · rw [abandonLeave_of_returning (hret.2 h), raisedOnly, returnCards_of_returning h]
      exact raise_so_congr (by rfl) ..
  · rw [abandonLeave_of_not (mt hret.1 h)]
    refine ⟨(State.lane_setLane ..).trans (if_pos rfl), ⟨fun m hm u hu => ?_, rfl, rfl⟩, ?_⟩
    · subst hu
      exact ⟨fun e => absurd e.1 h, fun _ => (State.lane_setLane ..).trans (if_neg hm)⟩
    · rw [raisedOnly, returnCards_of_not h]; rfl

section genChange
variable (l old : Nat) (s : State)

theorem genChange_of_listening (h : (s.lane l).rx.listening = true) :
    genChange l old s = abandonLeave l (s.setLane l ((s.lane l).regen old s.lanes.since s.now)) := if_pos h

theorem genChange_of_not_listening (h : (s.lane l).rx.listening = false) :
    genChange l old s = s.setLane l ((s.lane l).regen old s.lanes.since s.now) := if_neg (by simp [h])

theorem genChange_lane : (genChange l old s).lane l = (s.lane l).regen old s.lanes.since s.now := by
  cases h : (s.lane l).rx.listening with
  | true => rw [genChange_of_listening _ _ _ h]; exact (abandonLeave_setLane ..).1
  | false => rw [genChange_of_not_listening _ _ _ h]; exact (State.lane_setLane ..).trans (if_pos rfl)

theorem genChange_ends_return (h : (s.lane l).rx.listening = true) :
    homeLeaves l s (genChange l old s) ∧ raisedOnly (returnCards l s) s (genChange l old s) := by
  rw [genChange_of_listening _ _ _ h]
  exact (abandonLeave_setLane ..).2

theorem genChange_alone (h : (s.lane l).rx.listening = false) :
    lanesBut l s (genChange l old s) ∧ (genChange l old s).so = s.so := by
  rw [genChange_of_not_listening _ _ _ h]
  exact ⟨⟨fun m hm => (State.lane_setLane ..).trans (if_neg hm), rfl, rfl⟩, rfl⟩

end genChange

/-! ### A Relay port at a commit (06 R181) -/

/-- The Relay system but for the credits and the parcels in transit. -/
def Relay.standing (r : Relay) : Relay := { r with cred := [], transit := [] }

theorem Relay.standing_cred (r : Relay) (c : Tab Cred) : ({ r with cred := c } : Relay).standing = r.standing := rfl
theorem Relay.standing_transit (r : Relay) (l : List Transit) : ({ r with transit := l } : Relay).standing = r.standing := rfl

theorem setCrd_standing (s : State) (p l : Nat) (v : Cred) : (s.setCrd p l v).relay.standing = s.relay.standing :=
  Relay.standing_cred ..

theorem releaseTransit_standing (n : SlotName) (s : State) : (releaseTransit n s).relay.standing = s.relay.standing := by
  unfold releaseTransit
  split
  · exact (setCrd_standing ..).trans (Relay.standing_transit ..)
  · rfl

theorem endHolds_standing (p : Nat) (s : State) : (endHolds p s).relay.standing = s.relay.standing :=
  forRange_proj (·.relay.standing) (fun _ _ _ => setCrd_standing ..) s

theorem dropTransit_standing (p : Nat) (s : State) : (dropTransit p s).relay.standing = s.relay.standing := by
  have hfold (l : List Transit) (v : State) :
      (l.foldl (fun v t => releaseTransit t.name v) v).relay.standing = v.relay.standing := by
    induction l generalizing v with
    | nil => rfl
    | cons t l ih => exact (ih _).trans (releaseTransit_standing ..)
  exact (hfold ..).trans (endHolds_standing ..)

/-- 06 R176, R181: a set with relay_enable 0 takes the port DOWN, empties its queues, and ends the map. -/
theorem relayCommit_disabled {new : Tab Nat} (h : setVal new (ob 0x6100 3) = 0) (p pm : Nat) (s : State) :
    (∀ j, (relayCommit p pm new s).port j =
      if j = p then { s.port p with st := .down, service := [], ctlq := [] } else s.port j) ∧
    (relayCommit p pm new s).relay.mapValid = false ∧ (relayCommit p pm new s).relay.map = [] ∧
    (relayCommit p pm new s).relay.rank = 255 := by
  unfold relayCommit
  rw [if_pos h]
  have hs := dropTransit_standing p
  refine ⟨fun j => ?_, ?_, ?_, ?_⟩
  · exact (congrArg (fun r : Relay => r.port.get portInit j) (hs _)).trans (State.port_setPort ..)
  · exact congrArg Relay.mapValid (hs _)
  · exact congrArg Relay.map (hs _)
  · exact congrArg Relay.rank (hs _)

/-- A set with relay_enable 1 makes a MAPPED port in use SCHEDULED from its Postmark on. -/
theorem relayCommit_enabled {new : Tab Nat} (h : setVal new (ob 0x6100 3) ≠ 0) (p pm : Nat) (s : State) :
    relayButPort p s (relayCommit p pm new s) ∧ (relayCommit p pm new s).port p =
      if (s.port p).st = .mapped ∧ portUnused new p = false then { s.port p with st := .scheduled, from_ := pm } else s.port p := by
  unfold relayCommit
  dsimp only
  rw [if_neg h]
  split
  · exact ⟨⟨fun q hq => (State.port_setPort ..).trans (if_neg hq), rfl⟩, (State.port_setPort ..).trans (if_pos rfl)⟩
  · exact ⟨⟨fun _ _ => rfl, rfl⟩, rfl⟩

/-! ### A stack at a commit (09 Table 09.7) -/

/-- A stack that runs with the regulators of a set. -/
def Stack.loaded (new : Tab Nat) (now : Nat) (v : Stack) : Stack :=
  { v with st := .running
           buckets := ((portBursts new).zip (portRates new)).zipIdx.foldl (fun t b =>
             Tab.set bucketInit t b.2 ⟨b.1.1 * 1000000, now, b.1.2, b.1.1⟩) [] }

theorem serveStack_idle {n : Nat} {s : State} (h : (s.stk n).queue = []) : serveStack n s = s := if_pos (by rw [h]; rfl)

/-- Where no request waits, a stack in use is loaded, and nothing is served. -/
theorem stackCommit_idle {n : Nat} {s : State} (hst : (s.stk n).st = .ready ∨ (s.stk n).st = .running) (h : (s.stk n).queue = [])
    (new : Tab Nat) : stackCommit n new s = s.setStk n ((s.stk n).loaded new s.now) :=
  (if_pos hst).trans (serveStack_idle (by rw [State.stk_setStk, if_pos rfl]; exact h))

theorem stackCommit_out_of_use {n : Nat} {s : State} (hst : ¬ ((s.stk n).st = .ready ∨ (s.stk n).st = .running)) (new : Tab Nat) :
    stackCommit n new s = s := if_neg hst

/-- What a set does to a stack at which no request waits. -/
theorem stackCommit_effect {n : Nat} {s : State} (h : (s.stk n).queue = []) (new : Tab Nat) :
    Frame [.mm] s (stackCommit n new s) ∧ (stackCommit n new s).mm.mem = s.mm.mem ∧ (stackCommit n new s).mm.bad = s.mm.bad ∧
      (∀ j, j ≠ n → (stackCommit n new s).stk j = s.stk j) ∧
      ((stackCommit n new s).stk n).st = if (s.stk n).st = .ready then .running else (s.stk n).st := by
  by_cases hst : (s.stk n).st = .ready ∨ (s.stk n).st = .running
  · rw [stackCommit_idle hst h]
    refine ⟨State.setStk_frame .., rfl, rfl, fun j hj => (State.stk_setStk ..).trans (if_neg hj), ?_⟩
    rw [State.stk_setStk, if_pos rfl]
    rcases hst with e | e <;> simp [e, Stack.loaded]
  · rw [stackCommit_out_of_use hst]
    exact ⟨Frame.refl .., rfl, rfl, fun _ _ => rfl, (if_neg fun e => hst (.inl e)).symm⟩

/-! ### A cluster controller at a commit (08 R235, 07 R222) -/

theorem State.cl_setCl (s : State) (k j : Nat) (v : Cluster) : (s.setCl k v).cl j = if j = k then v else s.cl j := Tab.get_set ..

theorem clusterCommit_gen (k j : Nat) (old new : Tab Nat) (s : State) : ((clusterCommit k old new s).cl j).gen =
    if j = k ∧ startsAnew old new = true ∧ s.fab.start.isSome = true
    then some (rngSeed (setVal new (ob 0x7100 6)) k) else (s.cl j).gen := by
  unfold clusterCommit
  split
  · next h =>
    rw [Bool.and_eq_true] at h
    rw [State.cl_setCl]
    by_cases hj : j = k
    · rw [if_pos hj, if_pos ⟨hj, h⟩]
    · rw [if_neg hj, if_neg fun c => hj c.1]
  · next h => exact (if_neg fun c => h (by rw [Bool.and_eq_true]; exact c.2)).symm

theorem weightCommit_cl (p : Nat) (old new : Tab Nat) (s : State) : (weightCommit p old new s).fab.cl = s.fab.cl := by
  unfold weightCommit
  split
  · dsimp only
    split
    · rw [weightBad, raise_fab]; rfl
    · rfl
  · rfl

/-! ### The effect of a due set, block by block (02 R28) -/

theorem blockCommit_lane {n : Nat} (h : n < 222) (p : Nat) (old new : Tab Nat) (s : State) : blockCommit n p old new s =
    if setVal old (ob 0x4001 (quadSub n)) = setVal new (ob 0x4001 (quadSub n)) then s
    else genChange n (setVal old (ob 0x4001 (quadSub n))) s := by
  rcases blockType_of_lane h with e | e | e <;> simp only [blockCommit, e]

theorem blockCommit_port (q : Fin 4) (p : Nat) (old new : Tab Nat) (s : State) :
    blockCommit (0x120 + q) p old new s = relayCommit q p new s := by
  simp only [blockCommit, blockType_port, Nat.add_sub_cancel_left]

theorem blockCommit_stack (q : Fin 4) (p : Nat) (old new : Tab Nat) (s : State) :
    blockCommit (0x900 + q) p old new s = stackCommit q new s := by
  simp only [blockCommit, blockType_stack, Nat.add_sub_cancel_left]

theorem blockCommit_engine (e : Fin 24) (p : Nat) (old new : Tab Nat) (s : State) :
    blockCommit (0x100 + e) p old new s = engineCommit e p old new s := by
  simp only [blockCommit, blockType_engine, Nat.add_sub_cancel_left]

theorem blockCommit_cluster (k : Fin 96) (p : Nat) (old new : Tab Nat) (s : State) :
    blockCommit (0x140 + k) p old new s =
      if 0x140 + k.val = 0x140 then weightCommit p old new (clusterCommit k old new s) else clusterCommit k old new s := by
  simp only [blockCommit, blockType_cluster, Nat.add_sub_cancel_left]

section effects
variable {s : State} {x p k : Nat} {old new : Tab Nat}

/-- What a block that is no cluster controller does: it notes the set and acts on it. -/
theorem applyUnit_of_due {n : Nat} (h : s.dueSet n x = some (p, old, new, k)) (hc : blockType n ≠ some 0x20) :
    applyUnit n x s = blockCommit n p old new (s.noteApplied n p k) := by
  rw [applyUnit_of_not_cluster hc, applySets_of_due h]

theorem applyUnit_lane {n : Nat} (h : s.dueSet n x = some (p, old, new, k)) (hn : n < 222) :
    applyUnit n x s =
      if setVal old (ob 0x4001 (quadSub n)) = setVal new (ob 0x4001 (quadSub n)) then s.noteApplied n p k
      else genChange n (setVal old (ob 0x4001 (quadSub n))) (s.noteApplied n p k) := by
  rw [applyUnit_of_due h, blockCommit_lane hn]
  rcases blockType_of_lane hn with e | e | e <;> rw [e] <;> decide

theorem applyUnit_lane_kept {n : Nat} (h : s.dueSet n x = some (p, old, new, k)) (hn : n < 222)
    (hq : setVal old (ob 0x4001 (quadSub n)) = setVal new (ob 0x4001 (quadSub n))) : Frame [.dict] s (applyUnit n x s) := by
  rw [applyUnit_lane h hn, if_pos hq]
  exact State.noteApplied_frame ..

theorem applyUnit_lane_changed {n : Nat} (h : s.dueSet n x = some (p, old, new, k)) (hn : n < 222)
    (hq : setVal old (ob 0x4001 (quadSub n)) ≠ setVal new (ob 0x4001 (quadSub n))) :
    (applyUnit n x s).lane n = (s.lane n).regen (setVal old (ob 0x4001 (quadSub n))) s.lanes.since s.now ∧
      ((s.lane n).rx.listening = true → homeLeaves n s (applyUnit n x s) ∧ raisedOnly (returnCards n s) s (applyUnit n x s)) ∧
      ((s.lane n).rx.listening = false → lanesBut n s (applyUnit n x s) ∧ (applyUnit n x s).so = s.so) := by
  rw [applyUnit_lane h hn, if_neg hq]
  refine ⟨genChange_lane .., fun hl => ?_, fun hl => genChange_alone _ _ (s.noteApplied n p k) hl⟩
  obtain ⟨hhome, hcards⟩ := genChange_ends_return n (setVal old (ob 0x4001 (quadSub n))) (s.noteApplied n p k) hl
  refine ⟨hhome, hcards.trans ?_⟩
  change (List.foldl _ (s.noteApplied n p k) (returnCards n s)).so = _
  by_cases hr : returning n s
  · rw [returnCards_of_returning hr]
    exact raise_so_congr (by rfl) ..
  · rw [returnCards_of_not hr]; rfl

theorem applyUnit_lane_frame {n : Nat} (h : s.dueSet n x = some (p, old, new, k)) (hn : n < 222) :
    Frame [.so, .lanes, .dict] s (applyUnit n x s) := by
  rw [applyUnit_lane h hn]
  split
  · exact (State.noteApplied_frame ..).weaken (by decide)
  · exact ((State.noteApplied_frame ..).weaken (by decide)).step (genChange_frame ..) (by decide)

theorem applyUnit_port (q : Fin 4) (h : s.dueSet (0x120 + q) x = some (p, old, new, k)) :
    applyUnit (0x120 + q) x s = relayCommit q p new (s.noteApplied (0x120 + q) p k) := by
  rw [applyUnit_of_due h (by rw [blockType_port]; decide), blockCommit_port]

theorem applyUnit_port_frame (q : Fin 4) (h : s.dueSet (0x120 + q) x = some (p, old, new, k)) :
    Frame [.relay, .dict] s (applyUnit (0x120 + q) x s) := by
  rw [applyUnit_port q h]
  exact ((State.noteApplied_frame ..).weaken (by decide)).step (relayCommit_frame ..) (by decide)

theorem applyUnit_stack (q : Fin 4) (h : s.dueSet (0x900 + q) x = some (p, old, new, k)) :
    applyUnit (0x900 + q) x s = stackCommit q new (s.noteApplied (0x900 + q) p k) := by
  rw [applyUnit_of_due h (by rw [blockType_stack]; decide), blockCommit_stack]

theorem applyUnit_engine (e : Fin 24) (h : s.dueSet (0x100 + e) x = some (p, old, new, k)) :
    applyUnit (0x100 + e) x s = engineCommit e p old new (s.noteApplied (0x100 + e) p k) := by
  rw [applyUnit_of_due h (by rw [blockType_engine]; decide), blockCommit_engine]

theorem applyUnit_engine_frame (e : Fin 24) (h : s.dueSet (0x100 + e) x = some (p, old, new, k)) :
    Frame [.so, .filt, .dict] s (applyUnit (0x100 + e) x s) := by
  rw [applyUnit_engine e h]
  exact ((State.noteApplied_frame ..).weaken (by decide)).step (engineCommit_frame ..) (by decide)

theorem applyUnit_cluster (c : Fin 96) (h : s.dueSet (0x140 + c) x = some (p, old, new, k)) :
    applyUnit (0x140 + c) x s = forRange 18 (fun j v => applySets (cellSrc c j) x v)
      (blockCommit (0x140 + c) p old new (s.noteApplied (0x140 + c) p k)) := by
  rw [applyUnit_of_cluster (blockType_cluster c), applySets_of_due h, Nat.add_sub_cancel_left]

theorem blockCommit_cluster_frame (c : Fin 96) (s : State) : Frame [.so, .fab] s (blockCommit (0x140 + c) p old new s) := by
  rw [blockCommit_cluster]
  have hc := (clusterCommit_frame c old new s).weaken (ps := [.so, .fab]) (by decide)
  split
  · exact hc.step (weightCommit_frame ..) (by decide)
  · exact hc

theorem blockCommit_cluster_cl (c : Fin 96) (s : State) (j : Nat) :
    (blockCommit (0x140 + c) p old new s).cl j = (clusterCommit c old new s).cl j := by
  rw [blockCommit_cluster]
  split
  · exact congrArg (fun l => Tab.get clInit l j) (weightCommit_cl ..)
  · rfl

theorem applyUnit_cluster_frame (c : Fin 96) (h : s.dueSet (0x140 + c) x = some (p, old, new, k)) :
    Frame [.so, .fab, .dict] s (applyUnit (0x140 + c) x s) := by
  rw [applyUnit_cluster c h]
  exact (((State.noteApplied_frame ..).weaken (by decide)).step (blockCommit_cluster_frame ..) (by decide)).step
    (applyCells_frame c.2 ..) (by decide)

theorem applyUnit_cluster_gen (c : Fin 96) (h : s.dueSet (0x140 + c) x = some (p, old, new, k)) (j : Nat) :
    ((applyUnit (0x140 + c) x s).cl j).gen =
      if j = c.val ∧ startsAnew old new = true ∧ s.fab.start.isSome = true
      then some (rngSeed (setVal new (ob 0x7100 6)) c) else (s.cl j).gen := by
  rw [applyUnit_cluster c h]
  have hfab := (applyCells_frame c.2 x (blockCommit (0x140 + c) p old new (s.noteApplied (0x140 + c) p k))).get .fab
  rw [show State.cl _ j = Tab.get clInit _ j from congrArg (fun f : Fab => f.cl.get clInit j) hfab]
  exact (congrArg Cluster.gen (blockCommit_cluster_cl ..)).trans (clusterCommit_gen ..)

/-- The cell slots of a cluster have taken every set that its controller has. -/
theorem applyUnit_cluster_cell (c : Fin 96) (h : s.dueSet (0x140 + c) x = some (p, old, new, k))
    (hcell : (s.dueSet (cellSrc c 0) x).isSome = true) : ((applyUnit (0x140 + c) x s).blk (cellSrc c 0)).taken = k := by
  obtain ⟨-, -, rfl⟩ := State.dueSet_spec h
  have hlt : (s.blk (cellSrc c 0)).taken < s.reachedBy x := by
    by_contra hle
    rw [(s.dueSet_eq_none_iff ..).2 (Nat.le_of_not_lt hle)] at hcell
    cases hcell
  have hne : cellSrc c 0 ≠ 0x140 + c := by unfold cellSrc; omega
  have hblk := applySets_blk_other hne x s
  have hsets := applySets_sets (0x140 + c) x s
  rw [applyUnit_of_cluster (blockType_cluster c), Nat.add_sub_cancel_left, applyCells_taken _ _ _ (by decide), hblk,
    State.reachedBy, hsets]
  exact max_eq_right hlt.le

end effects

/-- Settles O22: a due set is noted by its block (`applyUnit_noted`), and does in each kind of block what the block's commit does. -/
theorem aCommittedSetTakesEffectAtItsStamp : Obligations.ACommittedSetTakesEffectAtItsStamp := by
  unfold Obligations.ACommittedSetTakesEffectAtItsStamp
  intro n x s
  refine ⟨fun hc hnone => ?_, fun p old new k h => ?_⟩
  · exact congrArg Host.Outcome.next ((applyUnit_of_not_cluster hc ..).trans (applySets_of_none hnone))
  have hnoted := applyUnit_noted h
  refine ⟨⟨_, rfl, hnoted, applyUnit_frame ..⟩, fun hn => ?_, fun q hq hen => ?_, fun q hq hdis => ?_, fun q hq hidle => ?_,
    fun e he => ?_, fun c hc hcell => ?_⟩
  · exact ⟨_, rfl, hnoted, applyUnit_lane_frame h hn, applyUnit_lane_kept h hn, applyUnit_lane_changed h hn⟩
  · refine ⟨_, rfl, hnoted, ?_⟩
    rw [hq] at h ⊢
    refine ⟨applyUnit_port_frame q h, ?_⟩
    rw [applyUnit_port q h]
    exact relayCommit_enabled hen ..
  · refine ⟨_, rfl, hnoted, ?_⟩
    rw [hq] at h ⊢
    refine ⟨applyUnit_port_frame q h, ?_⟩
    rw [applyUnit_port q h]
    exact relayCommit_disabled hdis ..
  · refine ⟨_, rfl, hnoted, ?_⟩
    rw [hq] at h ⊢
    rw [applyUnit_stack q h]
    obtain ⟨hframe, heffect⟩ := stackCommit_effect (s := s.noteApplied (0x900 + q) p k) hidle new
    exact ⟨((State.noteApplied_frame ..).weaken (by decide)).step hframe (by decide), heffect⟩
  · refine ⟨_, rfl, hnoted, ?_⟩
    rw [he] at h ⊢
    refine ⟨applyUnit_engine_frame e h, ?_⟩
    rw [applyUnit_engine e h]
    refine ⟨fun j hj => engineCommit_eng_other hj .., engineCommit_words .., fun hN hD hr => ?_, fun hN => ?_⟩
    · exact ⟨engineCommit_so_of_keeps ⟨hN, hD, hr⟩ .., engineCommit_eng_of_keeps ⟨hN, hD, hr⟩ ..⟩
    · rw [engineCommit_eng_of_reload fun hkeeps => hN hkeeps.1]
      exact ⟨rfl, rfl, rfl, rfl, rfl⟩
  · refine ⟨_, rfl, ?_⟩
    rw [hc] at h ⊢
    exact ⟨applyUnit_cluster_cell c h hcell, applyUnit_cluster_frame c h, applyUnit_cluster_gen c h⟩

/-! ### The stamp a block expects (02 R45) -/

theorem State.servedBy_of_lanes {s t : State} (hlane : t.lanes.lane = s.lanes.lane)
    (hphys : ∀ l, (t.logical l).phys = (s.logical l).phys) (l : Nat) : t.servedBy l = s.servedBy l := by
  have hserving : t.serving l = s.serving l := by unfold State.serving; rw [hphys]
  have hl : t.lane l = s.lane l := by unfold State.lane; rw [hlane]
  unfold State.servedBy
  rw [hserving, hl]

theorem State.expectedAt_noteUnit (s : State) (m n t : Nat) : (s.noteUnit m t).expectedAt n = s.expectedAt n := by
  have hb : ((s.noteUnit m t).blk n).expected = (s.blk n).expected := by
    rw [show (s.noteUnit m t).blk n = _ from State.blk_modBlk ..]
    split
    · next e => rw [e]
    · rfl
  unfold State.expectedAt
  rw [hb]
  rfl

theorem setExpected_of_ingest {n lg : Nat} (hn : n < 100) {s : State} (h : s.servedBy n = some lg) (x : Nat) :
    setExpected n x s = s.modLogical lg fun g => { g with expected := some x } := by
  simp [setExpected, hn, h]

theorem setExpected_of_block {n : Nat} (hn : 100 ≤ n) (x : Nat) (s : State) :
    setExpected n x s = s.modBlk n fun b => { b with expected := some x } := by
  simp [setExpected, Nat.not_lt.2 hn]

/-- The lane system but for what the logical lanes expect. -/
theorem setExpected_phys (n x l : Nat) (s : State) : ((setExpected n x s).logical l).phys = (s.logical l).phys := by
  unfold setExpected
  split
  · split
    · rw [State.logical_modLogical]
      split
      · next e => rw [e]
      · rfl
    · rfl
  · rfl

theorem setExpected_ingestQ (n x i : Nat) (s : State) : (setExpected n x s).ingestQ i = s.ingestQ i := by
  unfold setExpected
  split
  · split <;> rfl
  · rfl

theorem setExpected_running (n x : Nat) (s : State) : ((setExpected n x s).blk n).running = (s.blk n).running := by
  unfold setExpected
  split
  · split <;> rfl
  · rw [State.blk_modBlk, if_pos rfl]

/-- A block that expects a stamp expects the one set. -/
theorem expectedAt_setExpected {n : Nat} {s : State} (h : (s.expectedAt n).isSome = true) (x : Nat) :
    (setExpected n x s).expectedAt n = some x := by
  by_cases hn : n < 100
  · cases hs : s.servedBy n with
    | none => simp [State.expectedAt, hn, hs] at h
    | some lg =>
      have hserved : (setExpected n x s).servedBy n = some lg :=
        (State.servedBy_of_lanes (by rw [setExpected_of_ingest hn hs]; rfl) (setExpected_phys n x · s) n).trans hs
      simp only [State.expectedAt, hn, if_true, hserved]
      rw [setExpected_of_ingest hn hs, State.logical_modLogical, if_pos rfl]
  · rw [setExpected_of_block (Nat.le_of_not_lt hn), State.expectedAt, if_neg hn, State.blk_modBlk, if_pos rfl]

/-! ### The not-valid samples of a gap (02 R37, R45) -/

/-- The gap that a stretch from e to t leaves in input i. -/
def State.gapChunk (s : State) (e t i : Nat) : Chunk :=
  .gap e (s.cfgAt t (ob (0x4200 + i / 4) 4)) (s.cplxIn t i) (s.lane (s.serving (i / 4))).startPm
    ((t - e) / max 1 (s.cfgAt t (ob (0x4200 + i / 4) 4)))

theorem gapInput_ingestQ (e t i j : Nat) (s : State) : (gapInput e t i s).ingestQ j =
    if j = i then s.ingestQ i ++ [s.gapChunk e t i] else s.ingestQ j :=
  State.ingestQ_setIngest ..

theorem gapInputs_ingestQ (n a e t j : Nat) (s : State) : (forRange n (fun q v => gapInput e t (a + q) v) s).ingestQ j =
    if a ≤ j ∧ j < a + n then s.ingestQ j ++ [s.gapChunk e t j] else s.ingestQ j := by
  refine forRange_read (f := fun q v => gapInput e t (a + q) v) State.ingestQ (fun v => (v.dict, v.lanes.lane, v.lanes.logical)) a
    (fun j => s.ingestQ j ++ [s.gapChunk e t j]) s (fun _ _ _ => rfl) (fun q v _ henv hq => ?_) (fun q v i hi => ?_) j
  · obtain ⟨hdict, hlane, hlog⟩ : v.dict = s.dict ∧ v.lanes.lane = s.lanes.lane ∧ v.lanes.logical = s.lanes.logical := by
      simpa using henv
    rw [gapInput_ingestQ, if_pos rfl, hq]
    simp only [State.gapChunk, State.cfgAt, State.cplxIn, State.lane, State.serving, State.logical, hdict, hlane, hlog]
  · rw [gapInput_ingestQ, if_neg hi]

/-- A stretch that an ingest lane missed: a gap in each of the inputs of the logical lane it serves. -/
theorem fillGap_ingest {n lg : Nat} (hn : n < 100) {s : State} (h : s.servedBy n = some lg) (e t j : Nat) :
    (fillGap n e t s).ingestQ j = if j / 4 = lg then s.ingestQ j ++ [s.gapChunk e t j] else s.ingestQ j := by
  have hf : fillGap n e t s = forRange 4 (fun q v => gapInput e t (4 * lg + q) v) s := by simp [fillGap, hn, h]
  rw [hf, gapInputs_ingestQ]
  exact if_congr (by omega) rfl rfl

/-- A stretch that a filter engine missed: a gap in each of its inputs. -/
theorem fillGap_engine {k : Nat} (h : blockType (0x100 + k) = some 0x10) (e t j : Nat) (s : State) :
    (fillGap (0x100 + k) e t s).ingestQ j = if j / 16 = k then s.ingestQ j ++ [s.gapChunk e t j] else s.ingestQ j := by
  have hf : fillGap (0x100 + k) e t s = forRange 16 (fun q v => gapInput e t (16 * k + q) v) s := by
    have hn : ¬ 0x100 + k < 100 := by omega
    simp only [fillGap, hn, if_false, h, if_true, Nat.add_sub_cancel_left]
  rw [hf, gapInputs_ingestQ]
  exact if_congr (by omega) rfl rfl

theorem fillGap_elsewhere {n : Nat} (hn : 100 ≤ n) (h : blockType n ≠ some 0x10) (e t : Nat) (s : State) : fillGap n e t s = s := by
  simp [fillGap, Nat.not_lt.2 hn, h]

/-- A gap changes the samples that wait, and nothing else. -/
theorem fillGap_rest (n e t : Nat) (s : State) : fillGap n e t s =
    { s with lanes := { s.lanes with ingest := (fillGap n e t s).lanes.ingest } } := by
  have hloop (m a : Nat) : forRange m (fun q v => gapInput e t (a + q) v) s =
      { s with lanes := { s.lanes with ingest := (forRange m (fun q v => gapInput e t (a + q) v) s).lanes.ingest } } :=
    forRange_induct (P := fun v => v = { s with lanes := { s.lanes with ingest := v.lanes.ingest } }) rfl
      fun q v _ hv => by rw [hv]; rfl
  unfold fillGap
  split
  · split
    · exact hloop ..
    · rfl
  · split
    · exact hloop ..
    · rfl

/-! ### A unit arrives (02 R45, Table 02.10) -/

/-- A unit stamped t that is not in time has been noted at block n, and its Postcard raised. -/
def State.gapNoted (s : State) (n t : Nat) : State := raise n (gapKind n) 0 (s.noteUnit n t)

section arrival
variable {n t len : Nat} {s : State}

theorem unitOp_no_block (h : blockType n = none) : unitOp n t len s = s := by
  simp [unitOp, h]

theorem unitOp_in_time (h : blockType n ≠ none) (he : s.expectedAt n = none ∨ s.expectedAt n = some t) :
    unitOp n t len s = setExpected n (t + len) (s.noteUnit n t) := by
  have hn : (s.noteUnit n t).expectedAt n = s.expectedAt n := State.expectedAt_noteUnit ..
  rcases he with e | e <;> simp [unitOp, h, hn, e]

theorem unitOp_after_gap {e : Nat} (h : blockType n ≠ none) (he : s.expectedAt n = some e) (hlt : e < t) :
    unitOp n t len s = setExpected n (t + len) (fillGap n e t (s.gapNoted n t)) := by
  have hn : (s.noteUnit n t).expectedAt n = s.expectedAt n := State.expectedAt_noteUnit ..
  have hne : t ≠ e := by omega
  simp [unitOp, State.gapNoted, h, hn, he, hne, hlt]

theorem unitOp_overlap {e : Nat} (h : blockType n ≠ none) (he : s.expectedAt n = some e) (hlt : t < e) (hle : e ≤ t + len) :
    unitOp n t len s = setExpected n (max e (t + len)) (s.gapNoted n t) := by
  have hn : (s.noteUnit n t).expectedAt n = s.expectedAt n := State.expectedAt_noteUnit ..
  have hne : t ≠ e := by omega
  have hnlt : ¬ e < t := by omega
  have hnle : ¬ t + len < e := by omega
  simp [unitOp, State.gapNoted, h, hn, he, hne, hnlt, hnle]

theorem unitOp_discarded {e : Nat} (h : blockType n ≠ none) (he : s.expectedAt n = some e) (hlt : t + len < e) :
    unitOp n t len s = s.gapNoted n t := by
  have hn : (s.noteUnit n t).expectedAt n = s.expectedAt n := State.expectedAt_noteUnit ..
  have hne : t ≠ e := by omega
  have hnlt : ¬ e < t := by omega
  simp [unitOp, State.gapNoted, h, hn, he, hne, hnlt, hlt]

theorem gapNoted_only : s.gapNoted n t = { s.noteUnit n t with so := (s.gapNoted n t).so } := raise_only ..

theorem gapNoted_gapChunk (e t' i : Nat) : (s.gapNoted n t).gapChunk e t' i = s.gapChunk e t' i := by rw [gapNoted_only]; rfl
theorem gapNoted_ingestQ (i : Nat) : (s.gapNoted n t).ingestQ i = s.ingestQ i := by rw [gapNoted_only]; rfl
theorem gapNoted_servedBy (l : Nat) : (s.gapNoted n t).servedBy l = s.servedBy l := by rw [gapNoted_only]; rfl
theorem gapNoted_blk (m : Nat) : (s.gapNoted n t).blk m = (s.noteUnit n t).blk m := by rw [gapNoted_only]; rfl

theorem gapNoted_expectedAt (m : Nat) : (s.gapNoted n t).expectedAt m = s.expectedAt m := by
  rw [gapNoted_only]
  exact State.expectedAt_noteUnit ..

theorem unitOp_gap_so {e : Nat} (h : blockType n ≠ none) (he : s.expectedAt n = some e) (hlt : e < t) :
    (unitOp n t len s).so = (raise n (gapKind n) 0 s).so := by
  rw [unitOp_after_gap h he hlt]
  exact ((setExpected_frame ..).get .so).trans (((fillGap_frame ..).get .so).trans (raise_so_congr (by rfl) ..))

theorem unitOp_gap_expectedAt {e : Nat} (h : blockType n ≠ none) (he : s.expectedAt n = some e) (hlt : e < t) :
    (unitOp n t len s).expectedAt n = some (t + len) := by
  rw [unitOp_after_gap h he hlt]
  refine expectedAt_setExpected ?_ _
  rw [fillGap_rest]
  exact congrArg Option.isSome ((gapNoted_expectedAt n).trans he)

theorem unitOp_gap_running {e : Nat} (h : blockType n ≠ none) (he : s.expectedAt n = some e) (hlt : e < t) :
    ((unitOp n t len s).blk n).running = ((s.blk n).running || (s.blk n).activeValid) := by
  rw [unitOp_after_gap h he hlt, setExpected_running, fillGap_rest]
  exact congrArg Blk.running ((gapNoted_blk n).trans ((State.blk_modBlk ..).trans (if_pos rfl)))

theorem unitOp_gap_frame {e : Nat} (h : blockType n ≠ none) (he : s.expectedAt n = some e) (hlt : e < t) (hn : 100 ≤ n)
    (hb : blockType n ≠ some 0x10) : Frame [.so, .dict] s (unitOp n t len s) := by
  rw [unitOp_after_gap h he hlt, fillGap_elsewhere hn hb, setExpected_of_block hn]
  exact (((State.noteUnit_frame ..).weaken (by decide)).step (raise_frame ..) (by decide)).step (State.modBlk_frame ..) (by decide)

theorem unitOp_gap_ingest {e lg : Nat} (h : blockType n ≠ none) (he : s.expectedAt n = some e) (hlt : e < t) (hn : n < 100)
    (hs : s.servedBy n = some lg) (i : Nat) :
    (unitOp n t len s).ingestQ i = if i / 4 = lg then s.ingestQ i ++ [s.gapChunk e t i] else s.ingestQ i := by
  rw [unitOp_after_gap h he hlt, setExpected_ingestQ, fillGap_ingest hn ((gapNoted_servedBy n).trans hs),
    gapNoted_ingestQ, gapNoted_gapChunk]

theorem unitOp_gap_engine {e k : Nat} (h : blockType (0x100 + k) = some 0x10) (he : s.expectedAt (0x100 + k) = some e) (hlt : e < t)
    (i : Nat) : (unitOp (0x100 + k) t len s).ingestQ i =
      if i / 16 = k then s.ingestQ i ++ [s.gapChunk e t i] else s.ingestQ i := by
  rw [unitOp_after_gap (by rw [h]; decide) he hlt, setExpected_ingestQ, fillGap_engine h, gapNoted_ingestQ,
    gapNoted_gapChunk]

end arrival

/-! ### The counts of a block at its end (02 R44, 04 R100, 05 R133) -/

/-- The block that ends at e, tb long, is the one of the last unit or the next. -/
def nearBlock (e tb : Nat) (last : Option Nat) : Bool := match last with | some d => decide (e ≤ d + 2 * tb) | none => false
/-- No unit stamped c or later has come. -/
def newBlock (c : Nat) (last : Option Nat) : Bool := match last with | some d => decide (d < c) | none => true

/-- The spike counts when a stamp c reaches the filter, blocks being tb long: closed where c opens a block. -/
def Cond.opened (c tb : Nat) (q : Cond) : Cond :=
  let e := (c / tb + 1) * tb
  if q.spikeEnd ≠ e ∧ newBlock c q.done = true then { q with
    spikeEnd := e, spikesRun := 0, spikesBlock := if nearBlock e tb q.done then q.spikesRun else 0 } else q
/-- The same for the saturation counts of a gain stage. -/
def GainSt.opened (c tb : Nat) (g : GainSt) : GainSt :=
  let e := (c / tb + 1) * tb
  if g.satEnd ≠ e ∧ newBlock c g.outFrame = true then { g with
    satEnd := e, satRun := 0, satBlock := if nearBlock e tb g.outFrame then g.satRun else 0 } else g

theorem proj_ite_raise {α : Type} {g : State → α} (hso : ∀ v src kind addr, g (raise src kind addr v) = g v) (c : Prop) [Decidable c]
    (src kind addr : Nat) (v : State) : g (if c then raise src kind addr v else v) = g v := by
  split
  · exact hso ..
  · rfl

/-- Apart from Postcards, a stamp at the spike filter stores the opened counts. -/
theorem spikeBlock_proj {α : Type} (g : State → α) (hso : ∀ v src kind addr, g (raise src kind addr v) = g v) (i c : Nat) (s : State) :
    g (spikeBlock i c s) = g s ∧ (s.cond i).opened c (8192 * s.inF c i) = s.cond i ∨
      g (spikeBlock i c s) = g (s.setCond i ((s.cond i).opened c (8192 * s.inF c i))) := by
  by_cases h : (s.cond i).spikeEnd ≠ (c / (8192 * s.inF c i) + 1) * (8192 * s.inF c i) ∧ newBlock c (s.cond i).done = true
  · refine .inr ((congrArg g (if_pos h)).trans ((proj_ite_raise hso ..).trans (congrArg (fun q => g (s.setCond i q)) ?_)))
    exact (if_pos h).symm
  · exact .inl ⟨congrArg g (if_neg h), if_neg h⟩

theorem spikeBlock_cond (i c j : Nat) (s : State) : (spikeBlock i c s).cond j =
    if j = i then (s.cond i).opened c (8192 * s.inF c i) else s.cond j := by
  rcases spikeBlock_proj (·.cond j) (fun v _ _ _ => by simp only [State.cond, raise_filt]) i c s with ⟨h, hopen⟩ | h
  · rw [h, hopen]
    split
    · next e => rw [e]
    · rfl
  · exact h.trans (State.cond_setCond ..)

theorem spikeBlock_gain (i c j : Nat) (s : State) : (spikeBlock i c s).gain j = s.gain j := by
  rcases spikeBlock_proj (·.gain j) (fun v _ _ _ => by simp only [State.gain, raise_filt]) i c s with ⟨h, -⟩ | h
  · exact h
  · exact h

/-- Apart from Postcards, a frame at the gain stage stores the opened counts. -/
theorem satBlock_proj {α : Type} (g : State → α) (hso : ∀ v src kind addr, g (raise src kind addr v) = g v) (i c : Nat) (s : State) :
    g (satBlock i c s) = g s ∧ (s.gain i).opened c (8192 * s.inF c i) = s.gain i ∨
      g (satBlock i c s) = g (s.setGain i ((s.gain i).opened c (8192 * s.inF c i))) := by
  by_cases h : (s.gain i).satEnd ≠ (c / (8192 * s.inF c i) + 1) * (8192 * s.inF c i) ∧ newBlock c (s.gain i).outFrame = true
  · refine .inr ((congrArg g (if_pos h)).trans ((proj_ite_raise hso ..).trans (congrArg (fun q => g (s.setGain i q)) ?_)))
    exact (if_pos h).symm
  · exact .inl ⟨congrArg g (if_neg h), if_neg h⟩

theorem satBlock_gain (i c j : Nat) (s : State) : (satBlock i c s).gain j =
    if j = i then (s.gain i).opened c (8192 * s.inF c i) else s.gain j := by
  rcases satBlock_proj (·.gain j) (fun v _ _ _ => by simp only [State.gain, raise_filt]) i c s with ⟨h, hopen⟩ | h
  · rw [h, hopen]
    split
    · next e => rw [e]
    · rfl
  · exact h.trans (State.gain_setGain ..)

theorem satBlock_cond (i c j : Nat) (s : State) : (satBlock i c s).cond j = s.cond j := by
  rcases satBlock_proj (·.cond j) (fun v _ _ _ => by simp only [State.cond, raise_filt]) i c s with ⟨h, -⟩ | h
  · exact h
  · exact h

/-- The filter chain but for the inputs' conditioning and gain stages. -/
def Filt.shared (f : Filt) : Filt := { f with cond := [], gain := [] }

theorem inputBlock_shared (t i : Nat) (s : State) : (inputBlock t i s).filt.shared = s.filt.shared := by
  have hspike (c : Nat) (v : State) : (spikeBlock i c v).filt.shared = v.filt.shared := by
    rcases spikeBlock_proj (·.filt.shared) (fun v _ _ _ => by rw [raise_filt]) i c v with ⟨h, -⟩ | h
    · exact h
    · exact h
  have hsat (c : Nat) (v : State) : (satBlock i c v).filt.shared = v.filt.shared := by
    rcases satBlock_proj (·.filt.shared) (fun v _ _ _ => by rw [raise_filt]) i c v with ⟨h, -⟩ | h
    · exact h
    · exact h
  unfold inputBlock
  dsimp only
  split
  · exact (hsat ..).trans (hspike ..)
  · rfl

/-- A boundary at t is one of input i's blocks. -/
abbrev State.boundaryOf (s : State) (t i : Nat) : Prop := t % (8192 * s.inF t i) = 0 ∧ 8192 * s.inF t i ≤ t

/-- What a boundary at t makes of input i's counts. -/
def State.countsAt (s : State) (t i : Nat) : Cond × GainSt :=
  if s.boundaryOf t i then
    let c := t - 8192 * s.inF t i
    ((s.cond i).opened c (8192 * s.inF c i), (s.gain i).opened c (8192 * s.inF c i))
  else (s.cond i, s.gain i)

theorem State.inF_of_dict {s v : State} (h : v.dict = s.dict) (t i : Nat) : v.inF t i = s.inF t i := by
  simp only [State.inF, State.fftN, State.decD, State.inP, State.cfgAt, h]

theorem inputBlock_self (t i : Nat) (s : State) : ((inputBlock t i s).cond i, (inputBlock t i s).gain i) = s.countsAt t i := by
  unfold inputBlock State.countsAt
  dsimp only
  split
  · have hdict (c : Nat) : (spikeBlock i c s).dict = s.dict := (spikeBlock_frame ..).get .dict
    rw [satBlock_cond, satBlock_gain, if_pos rfl, spikeBlock_cond, if_pos rfl, spikeBlock_gain, State.inF_of_dict (hdict _)]
  · rfl

theorem inputBlock_other {i j : Nat} (h : j ≠ i) (t : Nat) (s : State) :
    ((inputBlock t i s).cond j, (inputBlock t i s).gain j) = (s.cond j, s.gain j) := by
  unfold inputBlock
  dsimp only
  split
  · rw [satBlock_cond, satBlock_gain, if_neg h, spikeBlock_cond, if_neg h, spikeBlock_gain]
  · rfl

theorem State.countsAt_congr {s v : State} {i : Nat} (hdict : v.dict = s.dict)
    (h : (v.cond i, v.gain i) = (s.cond i, s.gain i)) (t : Nat) :
    v.countsAt t i = s.countsAt t i := by
  obtain ⟨hc, hg⟩ := Prod.mk.inj h
  unfold State.countsAt State.boundaryOf
  simp only [State.inF_of_dict hdict, hc, hg]

/-- Every input's counts after a boundary at t. -/
theorem inputBlocks_read (t i : Nat) (hi : i < 384) (s : State) :
    ((forRange 384 (inputBlock t) s).cond i, (forRange 384 (inputBlock t) s).gain i) = s.countsAt t i := by
  refine (forRange_read (fun v j => (v.cond j, v.gain j)) State.dict 0 (s.countsAt t) s
    (fun _ _ _ => (inputBlock_frame ..).get .dict) (fun k v _ hdict hk => ?_) (fun k v j hj => ?_) i).trans
    (if_pos ⟨Nat.zero_le _, by omega⟩)
  · rw [Nat.zero_add] at hk ⊢
    exact (inputBlock_self ..).trans (State.countsAt_congr hdict hk t)
  · rw [Nat.zero_add] at hj
    exact inputBlock_other hj ..

/-! ### The beam counts at the end of a block of the chip (07 R215, R229) -/

/-- Every cluster shows its BEAM_CUT bit, and starts a new one. -/
def showBeamCuts (s : State) : State :=
  forRange 96 (fun k v => v.setCl k { v.cl k with beamCut := (v.cl k).beamCutRun, beamCutRun := false }) s

theorem showBeamCuts_cl (j : Nat) (hj : j < 96) (s : State) :
    (showBeamCuts s).cl j = { s.cl j with beamCut := (s.cl j).beamCutRun, beamCutRun := false } := by
  refine (forRange_read State.cl (fun _ => ()) 0
    (fun j => { s.cl j with beamCut := (s.cl j).beamCutRun, beamCutRun := false }) s
    (fun _ _ _ => rfl) (fun k v _ _ hk => ?_) (fun k v i hi => ?_) j).trans (if_pos ⟨Nat.zero_le _, by omega⟩)
  · rw [Nat.zero_add] at hk ⊢
    rw [State.cl_setCl, if_pos rfl, hk]
  · rw [Nat.zero_add] at hi
    exact (State.cl_setCl ..).trans (if_neg hi)

theorem showBeamCuts_sat (s : State) : (showBeamCuts s).fab.beamSatBlock = s.fab.beamSatBlock ∧
    (showBeamCuts s).fab.beamSatRun = s.fab.beamSatRun := by
  unfold showBeamCuts
  exact ⟨forRange_proj (·.fab.beamSatBlock) (fun _ _ _ => by rfl) s, forRange_proj (·.fab.beamSatRun) (fun _ _ _ => by rfl) s⟩

/-- Apart from the Postcard of a limit, the end of a block shows the beams' saturations and cuts. -/
theorem beamBlock_fab (s : State) :
    (beamBlock s).fab = (showBeamCuts (s.setFab { s.fab with beamSatBlock := s.fab.beamSatRun, beamSatRun := 0 })).fab := by
  unfold beamBlock showBeamCuts
  dsimp only
  split
  · exact raise_fab ..
  · rfl

theorem State.cl_of_fab {s t : State} (h : t.fab = s.fab) (k : Nat) : t.cl k = s.cl k := by
  unfold State.cl
  rw [h]

theorem beamBlock_cl {k : Nat} (hk : k < 96) (s : State) :
    (beamBlock s).cl k = { s.cl k with beamCut := (s.cl k).beamCutRun, beamCutRun := false } :=
  (State.cl_of_fab (beamBlock_fab s) k).trans (showBeamCuts_cl k hk _)

theorem beamBlock_counts (s : State) : (beamBlock s).fab.beamSatBlock = s.fab.beamSatRun ∧ (beamBlock s).fab.beamSatRun = 0 ∧
    ∀ k, k < 96 → ((beamBlock s).cl k).beamCut = (s.cl k).beamCutRun ∧ ((beamBlock s).cl k).beamCutRun = false := by
  obtain ⟨hblock, hrun⟩ := showBeamCuts_sat (s.setFab { s.fab with beamSatBlock := s.fab.beamSatRun, beamSatRun := 0 })
  refine ⟨?_, ?_, fun k hk => ?_⟩
  · rw [beamBlock_fab, hblock]; rfl
  · rw [beamBlock_fab, hrun]; rfl
  · rw [beamBlock_cl hk]; exact ⟨rfl, rfl⟩

/-! ### The boundary of a time block (02 R44) -/

section boundary
variable {t : Nat} {s : State}

theorem blockBoundary_outside (h : t ≤ s.filt.lastBlock ∨ s.pm < t) : blockBoundary t s = s := if_neg (by omega)

/-- The state in which the inputs' counts have been closed at a boundary. -/
def inputsClosed (t : Nat) (s : State) : State := forRange 384 (inputBlock t) { s with filt := { s.filt with lastBlock := t } }

theorem inputsClosed_frame : Frame [.so, .filt] s (inputsClosed t s) :=
  Frame.forRange ((Frame.with_filt ..).weaken (by decide)) fun _ _ => inputBlock_frame ..

theorem inputsClosed_shared : (inputsClosed t s).filt.shared = { s.filt.shared with lastBlock := t } :=
  forRange_proj (·.filt.shared) (fun _ _ _ => inputBlock_shared ..) _

theorem inputsClosed_read {i : Nat} (hi : i < 384) : ((inputsClosed t s).cond i, (inputsClosed t s).gain i) = s.countsAt t i :=
  inputBlocks_read t i hi _

theorem blockBoundary_of_chip (hlast : s.filt.lastBlock < t) (hpm : t ≤ s.pm) (h : t % s.tb t = 0) :
    blockBoundary t s = mapStreams t 16 (forRange 16 outBlock (beamBlock (inputsClosed t s))) :=
  (if_pos ⟨hlast, hpm⟩).trans (if_pos h)

theorem blockBoundary_of_inputs (hlast : s.filt.lastBlock < t) (hpm : t ≤ s.pm) (h : t % s.tb t ≠ 0) :
    blockBoundary t s = inputsClosed t s :=
  (if_pos ⟨hlast, hpm⟩).trans (if_neg h)

/-- After the chip's part of a boundary the output stage closes its own counts. -/
theorem closeOutputs_frame (s : State) : Frame [.so, .out] s (mapStreams t 16 (forRange 16 outBlock s)) :=
  (Frame.forRange (Frame.refl ..) fun _ _ => outBlock_frame ..).step (mapStreams_frame ..) (by decide)

theorem blockBoundary_filt (hlast : s.filt.lastBlock < t) (hpm : t ≤ s.pm) : (blockBoundary t s).filt = (inputsClosed t s).filt := by
  by_cases h : t % s.tb t = 0
  · rw [blockBoundary_of_chip hlast hpm h]
    exact ((closeOutputs_frame _).get .filt).trans ((beamBlock_frame _).get .filt)
  · rw [blockBoundary_of_inputs hlast hpm h]

theorem blockBoundary_shared (hlast : s.filt.lastBlock < t) (hpm : t ≤ s.pm) :
    (blockBoundary t s).filt.shared = { s.filt.shared with lastBlock := t } := by
  rw [blockBoundary_filt hlast hpm, inputsClosed_shared]

theorem State.countsAt_of_boundary {i : Nat} (h : s.boundaryOf t i) : s.countsAt t i =
    ((s.cond i).opened (t - 8192 * s.inF t i) (8192 * s.inF (t - 8192 * s.inF t i) i),
      (s.gain i).opened (t - 8192 * s.inF t i) (8192 * s.inF (t - 8192 * s.inF t i) i)) := if_pos h

theorem State.countsAt_of_not {i : Nat} (h : ¬ s.boundaryOf t i) : s.countsAt t i = (s.cond i, s.gain i) := if_neg h

theorem blockBoundary_counts (hlast : s.filt.lastBlock < t) (hpm : t ≤ s.pm) {i : Nat} (hi : i < 384) :
    ((blockBoundary t s).cond i, (blockBoundary t s).gain i) = s.countsAt t i :=
  (congrArg (fun f : Filt => (f.cond.get condInit i, f.gain.get gainInit i)) (blockBoundary_filt hlast hpm)).trans
    (inputsClosed_read hi)

theorem blockBoundary_beams (hlast : s.filt.lastBlock < t) (hpm : t ≤ s.pm) (h : t % s.tb t = 0) :
    (blockBoundary t s).fab.beamSatBlock = s.fab.beamSatRun ∧ (blockBoundary t s).fab.beamSatRun = 0 ∧
      ∀ k, k < 96 → ((blockBoundary t s).cl k).beamCut = (s.cl k).beamCutRun ∧ ((blockBoundary t s).cl k).beamCutRun = false := by
  have hfab : (blockBoundary t s).fab = (beamBlock (inputsClosed t s)).fab := by
    rw [blockBoundary_of_chip hlast hpm h]
    exact (closeOutputs_frame _).get .fab
  have hin : (inputsClosed t s).fab = s.fab := inputsClosed_frame.get .fab
  have hcounts := beamBlock_counts (inputsClosed t s)
  simp only [State.cl_of_fab hin] at hcounts
  simp only [State.cl_of_fab hfab]
  rwa [hin, ← hfab] at hcounts

end boundary

/-- Settles O23: where the unit stands against the expected stamp decides what the arrival does; a boundary closes the counts of every
input whose block ends and, at a block of the chip, those of the beams. -/
theorem stampsAreCheckedAndBlockBoundariesCloseTheCounts : Obligations.StampsAreCheckedAndBlockBoundariesCloseTheCounts := by
  unfold Obligations.StampsAreCheckedAndBlockBoundariesCloseTheCounts
  refine ⟨fun n x len s => ⟨fun h => ?_, fun h he => ?_, fun e h he hlt => ?_, fun e h he hlt hle => ?_, fun e h he hlt => ?_⟩,
    fun x s => ⟨fun h => ?_, fun hlast hpm => ?_⟩⟩
  · exact ⟨_, rfl, unitOp_no_block h⟩
  · exact ⟨_, rfl, unitOp_in_time h he⟩
  · refine ⟨_, rfl, unitOp_frame .., unitOp_gap_so h he hlt, unitOp_gap_expectedAt h he hlt, unitOp_gap_running h he hlt,
      unitOp_gap_frame h he hlt, fun lg i hn hs => unitOp_gap_ingest h he hlt hn hs i, fun k i hb hk => ?_⟩
    rw [hk] at hb he ⊢
    exact unitOp_gap_engine hb he hlt i
  · exact ⟨_, rfl, unitOp_overlap h he hlt hle⟩
  · exact ⟨_, rfl, unitOp_discarded h he hlt⟩
  · exact ⟨_, rfl, blockBoundary_outside h⟩
  · have hshared := blockBoundary_shared hlast hpm
    refine ⟨_, rfl, blockBoundary_frame .., (congrArg Filt.lastBlock hshared :), (congrArg Filt.words hshared :),
      (congrArg Filt.eng hshared :), fun i hi => ?_, blockBoundary_beams hlast hpm, fun h => ?_⟩
    · have hcounts := blockBoundary_counts hlast hpm hi
      by_cases hb : s.boundaryOf x.toNat i
      · rw [State.countsAt_of_boundary hb] at hcounts
        exact (if_pos hb).mpr (Prod.mk.inj hcounts)
      · rw [State.countsAt_of_not hb] at hcounts
        exact (if_neg hb).mpr (Prod.mk.inj hcounts)
    · rw [blockBoundary_of_inputs hlast hpm h]
      exact inputsClosed_frame

end Sys2Proof.Machine
end

section
/-! Serial lanes (03): what events and commands do to the lane they meet (O1 to O4). -/

namespace Sys2Proof.Machine

open Sys2Proof

/-! ### A command that acts under a condition -/

section outcome
variable {i : Instr} {s t u : State} {c : Prop} [Decidable c]

theorem exec_of_pos (e : exec i s = .next (if c then t else u)) (h : c) : exec i s = .next t := by rw [e, if_pos h]
theorem exec_of_neg (e : exec i s = .next (if c then t else u)) (h : ¬ c) : exec i s = .next u := by rw [e, if_neg h]

end outcome

/-! ### Postcards over states with the same Sorting Office -/

theorem raiseLim_so_congr {s t : State} (h : t.so = s.so) (hnow : t.now = s.now) (iv src kind sub addr : Nat) :
    (raiseLim iv src kind sub addr t).so = (raiseLim iv src kind sub addr s).so := by
  unfold raiseLim raiseLimT
  dsimp only
  rw [h, hnow]
  split
  · exact raise_so_congr (by rfl) ..
  · exact h

theorem foldl_raise_so_congr (cs : List (Nat × Nat × Nat)) {s t : State} (h : t.so = s.so) :
    (cs.foldl (fun v c => raise c.1 c.2.1 c.2.2 v) t).so = (cs.foldl (fun v c => raise c.1 c.2.1 c.2.2 v) s).so := by
  induction cs generalizing s t with
  | nil => exact h
  | cons c cs ih => exact ih (raise_so_congr h ..)

theorem raisedOnly_congr {cs : List (Nat × Nat × Nat)} {s u t : State} (h : u.so = s.so) (hr : raisedOnly cs u t) :
    raisedOnly cs s t := hr.trans (foldl_raise_so_congr cs h)

theorem raisedOnly_raise (src kind addr : Nat) {s t : State} (h : t.so = s.so) :
    raisedOnly [(src, kind, addr)] s (raise src kind addr t) := raise_so_congr h ..

theorem raisedOnly_nil {s t : State} (h : t.so = s.so) : raisedOnly [] s t := h

/-! ### One lane changes -/

section oneLane
variable {l : Nat} {v : Lane} {s u t : State}

theorem State.lane_of_lanes (h : t.lanes = s.lanes) (k : Nat) : t.lane k = s.lane k := by rw [State.lane, h]; rfl
theorem State.logical_of_lanes (h : t.lanes = s.lanes) (k : Nat) : t.logical k = s.logical k := by rw [State.logical, h]; rfl
theorem State.ingestQ_of_lanes (h : t.lanes = s.lanes) (k : Nat) : t.ingestQ k = s.ingestQ k := by rw [State.ingestQ, h]; rfl

@[simp] theorem State.lane_raise (src kind addr k : Nat) : (raise src kind addr s).lane k = s.lane k :=
  State.lane_of_lanes (raise_lanes ..) k
@[simp] theorem State.logical_raise (src kind addr k : Nat) : (raise src kind addr s).logical k = s.logical k :=
  State.logical_of_lanes (raise_lanes ..) k
@[simp] theorem State.lane_raiseLim (iv src kind sub addr k : Nat) : (raiseLim iv src kind sub addr s).lane k = s.lane k :=
  State.lane_of_lanes (raiseLim_lanes ..) k
@[simp] theorem State.logical_raiseLim (iv src kind sub addr k : Nat) :
    (raiseLim iv src kind sub addr s).logical k = s.logical k :=
  State.logical_of_lanes (raiseLim_lanes ..) k
@[simp] theorem State.logical_modLane (k m : Nat) (f : Lane → Lane) : (s.modLane k f).logical m = s.logical m := rfl

theorem State.lane_setLane_self : (s.setLane l v).lane l = v := (State.lane_setLane ..).trans (if_pos rfl)

theorem lanesBut.refl : lanesBut l s s := ⟨fun _ _ => rfl, rfl, rfl⟩
theorem lanesBut_setLane : lanesBut l s (s.setLane l v) := ⟨fun _ hm => (State.lane_setLane ..).trans (if_neg hm), rfl, rfl⟩

theorem lanesBut.of_lanes (h : lanesBut l s t) (e : u.lanes = t.lanes) : lanesBut l s u := by
  obtain ⟨hlane, hlog, hing⟩ := h
  exact ⟨fun m hm => (State.lane_of_lanes e m).trans (hlane m hm), by rw [e, hlog], by rw [e, hing]⟩

theorem homeLeaves_congr (h : u.lanes = s.lanes) (hl : homeLeaves l u t) : homeLeaves l s t := by
  unfold homeLeaves othersReturn returning at *
  simpa only [State.lane_of_lanes h, h] using hl

theorem returnCards_congr (h : u.lanes = s.lanes) : returnCards l u = returnCards l s := by
  unfold returnCards
  rw [State.lane_of_lanes h]

theorem raise_setLane (src kind addr : Nat) : raise src kind addr (s.setLane l v) = (raise src kind addr s).setLane l v := by
  conv_lhs => rw [raise_only, raise_so_congr (t := s.setLane l v) (s := s) rfl]
  conv_rhs => rw [raise_only]
  rfl

/-- Lane l becomes v with a Postcard of its own, and a return to it ends. -/
theorem abandonLeave_raise_setLane (kind : Nat) : let t := abandonLeave l (raise l kind 0 (s.setLane l v))
    homeLeaves l s t ∧ raisedOnly ((l, kind, 0) :: returnCards l s) s t ∧ t.lane l = v := by
  have hlanes : (raise l kind 0 s).lanes = s.lanes := raise_lanes ..
  rw [raise_setLane]
  obtain ⟨hlane, hhome, hcards⟩ := abandonLeave_setLane l v (raise l kind 0 s)
  rw [returnCards_congr hlanes] at hcards
  exact ⟨homeLeaves_congr hlanes hhome, hcards, hlane⟩

end oneLane

/-! ### The shapes of an event's or a command's effect -/

section shapes
variable {i : Instr} {l : Nat} {v : Lane} {s : State}

theorem completes_setLane (e : exec i s = .next (s.setLane l v)) :
    completes i s fun t => Frame [.lanes] s t ∧ lanesBut l s t ∧ t.lane l = v :=
  ⟨_, e, State.setLane_frame .., lanesBut_setLane, State.lane_setLane_self⟩

theorem completes_setLane_if {c : Prop} [Decidable c] (e : exec i s = .next (if c then s.setLane l v else s)) :
    completes i s fun t => Frame [.lanes] s t ∧ lanesBut l s t ∧ t.lane l = if c then v else s.lane l := by
  by_cases h : c
  · simp only [if_pos h]
    exact completes_setLane (exec_of_pos e h)
  · simp only [if_neg h]
    exact ⟨_, exec_of_neg e h, Frame.refl .., lanesBut.refl, rfl⟩

theorem completes_raise_setLane {kind : Nat} (e : exec i s = .next (raise l kind 0 (s.setLane l v))) :
    completes i s fun t => Frame [.lanes, .so] s t ∧ lanesBut l s t ∧ raisedOnly [(l, kind, 0)] s t ∧ t.lane l = v :=
  ⟨_, e, ((State.setLane_frame ..).weaken (by decide)).step (raise_frame ..) (by decide),
    lanesBut_setLane.of_lanes (raise_lanes ..), raisedOnly_raise _ _ _ rfl, by rw [State.lane_raise, State.lane_setLane_self]⟩

theorem completes_leave (e : exec i s = .next (abandonLeave l (s.setLane l v))) :
    completes i s fun t => Frame [.lanes, .so] s t ∧ homeLeaves l s t ∧ raisedOnly (returnCards l s) s t ∧ t.lane l = v := by
  obtain ⟨hlane, hhome, hcards⟩ := abandonLeave_setLane l v s
  exact ⟨_, e, ((State.setLane_frame ..).weaken (by decide)).step (abandonLeave_frame ..) (by decide), hhome, hcards, hlane⟩

theorem completes_raise_leave {kind : Nat} (e : exec i s = .next (abandonLeave l (raise l kind 0 (s.setLane l v)))) :
    completes i s fun t => Frame [.lanes, .so] s t ∧ homeLeaves l s t ∧
      raisedOnly ((l, kind, 0) :: returnCards l s) s t ∧ t.lane l = v :=
  ⟨_, e, (((State.setLane_frame ..).weaken (by decide)).step (raise_frame ..) (by decide)).step (abandonLeave_frame ..)
    (by decide), abandonLeave_raise_setLane kind⟩

end shapes

/-! ### Hardware events (03 Table 03.4) -/

/-- Settles O1: each event acts in the states that list it, through one of the shapes above. -/
theorem laneEventsFollowTheReceiveTable : Obligations.LaneEventsFollowTheReceiveTable := by
  unfold Obligations.LaneEventsFollowTheReceiveTable
  intro l s
  refine ⟨?cdrLock, ?laneAligned, fun h => ?alignTimeout, fun h => exec_of_neg rfl h, fun h => ⟨?cdrLockLoss, ?sleepWords⟩,
    fun h => ?notListening, fun h => ?laneSyncLoss, fun h => exec_of_neg rfl h⟩
  case cdrLock => exact completes_setLane_if rfl
  case laneAligned => exact completes_setLane_if rfl
  case alignTimeout => exact completes_raise_setLane (exec_of_pos rfl h)
  case cdrLockLoss => exact completes_raise_leave (exec_of_pos rfl h)
  case sleepWords => exact completes_leave (exec_of_pos rfl h)
  case notListening =>
    have hn : ¬ (s.lane l).rx.listening = true := by rw [h]; decide
    exact ⟨exec_of_neg rfl hn, exec_of_neg rfl hn⟩
  case laneSyncLoss => exact completes_raise_leave (exec_of_pos rfl h)

/-! ### Lane commands (03 R65) -/

section words
variable {l : Nat} {s t u : State}

theorem lanesBut.trans (h : lanesBut l s t) (k : lanesBut l t u) : lanesBut l s u := by
  obtain ⟨hlane, hlog, hing⟩ := h
  obtain ⟨klane, klog, king⟩ := k
  exact ⟨fun m hm => (klane m hm).trans (hlane m hm), klog.trans hlog, king.trans hing⟩

theorem lanesBut_modLane (f : Lane → Lane) : lanesBut l s (s.modLane l f) := lanesBut_setLane

theorem State.lane_modLane_self (f : Lane → Lane) : (s.modLane l f).lane l = f (s.lane l) := State.lane_setLane_self

variable {n : Nat} (l s) (syms : List (Bool × Nat)) (m : Sent)

theorem sendWords_lanes : (sendWords l syms m s).lanes = (moveWords l syms s).lanes := by
  unfold sendWords
  dsimp only
  split <;> rfl

theorem sendWords_outbox : (sendWords l syms m s).outbox = if s.lineOpen l then m :: s.outbox else s.outbox := by
  unfold sendWords
  dsimp only
  split <;> rfl

/-- The words of a lane move its disparity and its count, and leave it where the line is open. -/
theorem sendWords_effect (hn : syms.length / 4 = n) : let t := sendWords l syms m s
    lanesBut l s t ∧ t.outbox = (if s.lineOpen l then m :: s.outbox else s.outbox) ∧
      t.lane l = { s.lane l with txRd := rdAfter (s.lane l).txRd syms, txSent := (s.lane l).txSent + n } := by
  subst hn
  exact ⟨(lanesBut_modLane _).of_lanes (sendWords_lanes ..), sendWords_outbox ..,
    (State.lane_of_lanes (sendWords_lanes ..) l).trans (State.lane_modLane_self _)⟩

end words

section sides
variable {l : Nat} {v : Lane} {s : State}

/-- A receive side that leaves its state ends a return if that state was SYNC, and else changes alone. -/
theorem leaveSync_effect {c : Prop} [Decidable c] {u : State} (hu : u.lanes = s.lanes) (hso : u.so = s.so) :
    let t := if c then abandonLeave l (u.setLane l v) else u.setLane l v
    (if c then homeLeaves l s t ∧ raisedOnly (returnCards l s) s t else lanesBut l s t ∧ t.so = s.so) ∧ t.lane l = v := by
  by_cases h : c
  · simp only [if_pos h]
    obtain ⟨hlane, hhome, hcards⟩ := abandonLeave_setLane l v u
    rw [returnCards_congr hu] at hcards
    exact ⟨⟨homeLeaves_congr hu hhome, raisedOnly_congr hso hcards⟩, hlane⟩
  · simp only [if_neg h]
    have hbut : lanesBut l s u := lanesBut.refl.of_lanes hu
    exact ⟨⟨hbut.trans lanesBut_setLane, hso⟩, State.lane_setLane_self⟩

theorem leaveSync_frame (l : Nat) (v : Lane) (s : State) (c : Prop) [Decidable c] :
    Frame [.lanes, .so] s (if c then abandonLeave l (s.setLane l v) else s.setLane l v) :=
  Frame.ite (fun _ => ((State.setLane_frame ..).weaken (by decide)).step (abandonLeave_frame ..) (by decide))
    fun _ => (State.setLane_frame ..).weaken (by decide)

end sides

/-! ### START of a lane (03 R65, R89) -/

section start
variable {l : Nat} {s : State}

/-- Which logical lane a lane serves rests on the map of the logical lanes and on the lane's own sparing. -/
theorem State.servedBy_congr {s t : State} (hphys : ∀ k, (t.logical k).phys = (s.logical k).phys)
    (hspare : (t.lane l).spare = (s.lane l).spare) : t.servedBy l = s.servedBy l := by
  unfold State.servedBy State.serving
  rw [hphys, hspare]

/-- Change logical lane o, if it is one. -/
def State.modServed (o : Option Nat) (f : LogLane → LogLane) (s : State) : State :=
  match o with
  | some k => s.modLogical k f
  | none => s

theorem State.modServed_lane (o : Option Nat) (f : LogLane → LogLane) : (s.modServed o f).lanes.lane = s.lanes.lane := by
  cases o <;> rfl
theorem State.modServed_ingest (o : Option Nat) (f : LogLane → LogLane) : (s.modServed o f).lanes.ingest = s.lanes.ingest := by
  cases o <;> rfl
theorem State.modServed_so (o : Option Nat) (f : LogLane → LogLane) : (s.modServed o f).so = s.so := by cases o <;> rfl
theorem State.modServed_logical (o : Option Nat) (f : LogLane → LogLane) (j : Nat) :
    (s.modServed o f).logical j = if o = some j then f (s.logical j) else s.logical j := by
  cases o with
  | none => rfl
  | some k =>
    rw [show (s.modServed (some k) f).logical j = _ from State.logical_modLogical ..]
    by_cases hj : j = k
    · rw [if_pos hj, hj, if_pos rfl]
    · rw [if_neg hj, if_neg fun e => hj (Option.some.inj e).symm]

/-- Change the logical lane that ingest lane l serves, o, if it is one. -/
def State.modIngest (l : Nat) (o : Option Nat) (f : LogLane → LogLane) (s : State) : State :=
  if l < 100 then s.modServed o f else s

theorem State.modIngest_effect (l : Nat) (o : Option Nat) (f : LogLane → LogLane) (s : State) : let t := s.modIngest l o f
    t.so = s.so ∧ (∀ m, t.lane m = s.lane m) ∧ t.lanes.ingest = s.lanes.ingest ∧
      ∀ k, t.logical k = if l < 100 ∧ o = some k then f (s.logical k) else s.logical k := by
  by_cases hl : l < 100
  · have e : s.modIngest l o f = s.modServed o f := if_pos hl
    simp only [e, hl, true_and]
    exact ⟨State.modServed_so .., fun m => congrArg (Tab.get laneInit · m) (State.modServed_lane ..),
      State.modServed_ingest .., fun k => State.modServed_logical ..⟩
  · have e : s.modIngest l o f = s := if_neg hl
    simp [e, hl]

/-- The lane as START leaves it. -/
def Lane.started (pm : Nat) (v : Lane) : Lane :=
  { v with rx := .running, resume := true, startPm := pm, leftAt := none, failed := false, crcTimes := [] }

/-- START of a lane in SYNC before it comes to the logical lane. -/
def laneStarted (l : Nat) (s : State) : State := abandonLeave l (s.setLane l ((s.lane l).started s.pm))

theorem startCmd_of_sync (h : (s.lane l).rx = .sync) : startCmd l s =
    (laneStarted l s).modIngest l ((laneStarted l s).servedBy l) fun g => { g with expected := none, muted := false } := if_pos h

theorem startCmd_effect (h : (s.lane l).rx = .sync) : let t := startCmd l s
    raisedOnly (returnCards l s) s t ∧ othersReturn l s t ∧ t.lane l = (s.lane l).started s.pm ∧
      (∀ k, t.logical k = if l < 100 ∧ s.servedBy l = some k then { s.logical k with expected := none, muted := false }
        else s.logical k) ∧
      t.lanes.ingest = s.lanes.ingest := by
  obtain ⟨hlane, ⟨hothers, hlog, hing⟩, hcards⟩ := abandonLeave_setLane l ((s.lane l).started s.pm) s
  have hlogical (k : Nat) : (laneStarted l s).logical k = s.logical k := congrArg (Tab.get logInit · k) hlog
  have hserved : (laneStarted l s).servedBy l = s.servedBy l :=
    State.servedBy_congr (fun k => by rw [hlogical]) ((congrArg Lane.spare hlane :) : _ = ((s.lane l).started s.pm).spare)
  obtain ⟨tso, tlane, ting, tlog⟩ := State.modIngest_effect l (s.servedBy l)
    (fun g => { g with expected := none, muted := false }) (laneStarted l s)
  dsimp only
  rw [startCmd_of_sync h, hserved]
  refine ⟨tso.trans hcards, fun m hm v hv => ?_, (tlane l).trans hlane, fun k => ?_, ting.trans hing⟩
  · rw [tlane]
    exact hothers m hm v hv
  · rw [tlog, hlogical]

end start

theorem Lane.leave_running {v : Lane} (h : v.rx = .running) (now : Nat) :
    v.leave now = { v with leftAt := some now, downAt := now, failed := false } := if_pos h

/-- Settles O2: in the states that list it each command's guard holds, and its effect is one of the shapes above. -/
theorem laneCommandsActInTheirStates : Obligations.LaneCommandsActInTheirStates := by
  unfold Obligations.LaneCommandsActInTheirStates
  intro l a s
  refine ⟨fun ⟨ha, h⟩ => ?slipAlign, fun ⟨ha, h⟩ => ?slipSync, fun h => ?txSleep, fun h => ?txWake, fun h => ?rxSleep,
    fun h => ?rxWake, fun ⟨hside, ha, h⟩ => ?testRx, fun ⟨hside, ha, ha5, h⟩ => ?testTx, fun ⟨hside, h⟩ => ?exitRx,
    fun ⟨hside, h⟩ => ?exitTx, fun h => ?start, fun h => ?stop, fun h => ?inject, fun h => ?loopback⟩
  case slipAlign => exact completes_setLane (exec_of_pos (exec_of_pos rfl ⟨ha, .inl h⟩) h)
  case slipSync => exact completes_leave (exec_of_neg (exec_of_pos rfl ⟨ha, .inr h⟩) (by rw [h]; decide))
  case txSleep =>
    obtain ⟨hbut, hout, hlane⟩ := sendWords_effect l s (List.replicate 16 sleepSyms).flatten (.sleepWords l 16)
      (n := 16) (by decide)
    refine ⟨_, exec_of_pos rfl h, (sendWords_frame ..).step (State.modLane_frame ..) (by decide),
      hbut.trans (lanesBut_modLane _), ?_, hout⟩
    rw [State.lane_modLane_self, hlane]
  case txWake => exact completes_setLane (exec_of_pos rfl h)
  case rxSleep =>
    exact ⟨_, exec_of_pos rfl h, leaveSync_frame .., leaveSync_effect rfl rfl⟩
  case rxWake => exact completes_setLane (exec_of_pos rfl h)
  case testRx =>
    have hk : ¬ a.arg.toNat > 5 := by omega
    have hs : ¬ a.side = true := by rw [hside]; decide
    refine ⟨_, exec_of_pos (exec_of_neg (exec_of_neg rfl hk) hs) h,
      ((Frame.with_fresh s (s.fresh + 1)).weaken (by decide)).step (leaveSync_frame ..) (by decide), ?_, ?_⟩
    · exact (leaveSync_frame ..).get .fresh
    · exact leaveSync_effect rfl rfl
  case testTx =>
    have hk : ¬ a.arg.toNat > 5 := by omega
    have hz : a.arg.toNat ≠ 0 := by omega
    exact ⟨_, exec_of_pos (exec_of_pos (exec_of_neg rfl hk) hside) ⟨h, hz⟩,
      ((Frame.with_fresh s (s.fresh + 1)).weaken (by decide)).step (State.setLane_frame ..) (by decide), rfl,
      lanesBut_setLane, State.lane_setLane_self⟩
  case exitRx => exact completes_setLane (exec_of_pos (exec_of_neg rfl (by rw [hside]; decide)) h)
  case exitTx => exact completes_setLane (exec_of_pos (exec_of_pos rfl hside) h)
  case start => exact ⟨_, rfl, (startCmd_frame ..).weaken (by decide), startCmd_effect h⟩
  case stop =>
    refine completes_setLane ((exec_of_pos rfl h).trans ?_)
    rw [Lane.leave_running h]
  case inject => exact completes_setLane (exec_of_pos rfl h)
  case loopback => exact completes_setLane (exec_of_pos rfl h)

/-- Settles O3: elsewhere the command's guard fails, and the branch left refuses it. -/
theorem laneCommandsAreRefusedElsewhere : Obligations.LaneCommandsAreRefusedElsewhere := by
  unfold Obligations.LaneCommandsAreRefusedElsewhere
  intro l a s
  refine ⟨fun h => ?slip, fun h => exec_of_neg rfl h, fun h => exec_of_neg rfl h, fun h => ?rxSleep, fun h => exec_of_neg rfl h,
    fun h => ?testEnter, fun h => ?testExit, fun h => exec_of_neg rfl h, fun h => exec_of_neg rfl h, fun h => ?inject,
    fun h => ?loopback, fun h => ?spareIn⟩
  case slip => exact exec_of_neg rfl (by rintro ⟨ha, hrx⟩; exact h.elim (by omega) fun e => e hrx)
  case rxSleep => exact exec_of_neg rfl (by rcases h with h | h <;> rw [h] <;> decide)
  case testEnter =>
    by_cases hk : a.arg.toNat > 5
    · exact exec_of_pos rfl hk
    · rcases h with h | ⟨hside, h⟩ | ⟨hside, h⟩
      · omega
      · exact exec_of_neg (exec_of_pos (exec_of_neg rfl hk) hside) (by tauto)
      · refine exec_of_neg (exec_of_neg (exec_of_neg rfl hk) (by rw [hside]; decide)) ?_
        rcases h with h | h | h <;> rw [h] <;> decide
  case testExit =>
    rcases h with ⟨hside, h⟩ | ⟨hside, h⟩
    · exact exec_of_neg (exec_of_pos rfl hside) h
    · exact exec_of_neg (exec_of_neg rfl (by rw [hside]; decide)) h
  case inject => exact exec_of_neg rfl (by rintro ⟨ha, htx⟩; exact h.elim (by omega) fun e => e htx)
  case loopback => exact exec_of_neg rfl (by rintro ⟨ha, htx, hrx⟩; exact h.elim (by omega) fun e => e.elim (· htx) (· hrx))
  case spareIn => exact exec_of_pos (exec_of_neg rfl (by omega)) h.2

/-! ### Counters, the pattern checker and the status word (03 R71, R74, R82) -/

theorem clearCmd_effect (l : Nat) (s : State) : let t := clearCmd l s
    (∀ m, m ≠ l → t.lane m = s.lane m) ∧ t.lanes.ingest = s.lanes.ingest ∧ t.lane l = (s.lane l).clearCounters ∧
      ∀ k, t.logical k = if l < 100 ∧ s.servedBy l = some k then (s.logical k).clearCounters else s.logical k := by
  obtain ⟨-, hlane, hing, hlog⟩ := State.modIngest_effect l (s.servedBy l) LogLane.clearCounters (s.modLane l Lane.clearCounters)
  exact ⟨fun m hm => (hlane m).trans ((State.lane_modLane ..).trans (if_neg hm)), hing,
    (hlane l).trans (State.lane_modLane_self _), hlog⟩

/-- The errors of the last 64 words after one with the given mismatched bits. -/
def Lane.errsAfter (v : Lane) (bad : Nat) : List Bool := (decide (0 < bad) :: v.chk.errs).take 64

/-- The lane after a word with the given mismatched bits, whose register goes on as r, or starts anew as q. -/
def Lane.afterWord (v : Lane) (bits : List Bool) (bad : Nat) (r q : List Bool) : Lane :=
  if v.chkLock then
    let counted := { v with prbsBits := satAdd 64 v.prbsBits bits.length, prbsErrors := satAdd 64 v.prbsErrors bad }
    if 32 ≤ ((v.errsAfter bad).filter id).length then
      { counted with chkLock := false, syncLosses := satAdd 32 v.syncLosses 1,
                     chk := { v.chk with reg := q, clean := 0, errs := [] } }
    else { counted with chk := { v.chk with reg := r, errs := v.errsAfter bad } }
  else if bad = 0 then
    if 64 ≤ v.chk.clean + 1 then { v with chkLock := true, chk := { v.chk with reg := r, clean := 0, errs := [] } }
    else { v with chk := { v.chk with reg := r, clean := v.chk.clean + 1 } }
  else { v with chk := { v.chk with reg := q, clean := 0 } }

theorem checkWord_eq (v : Lane) (bits : List Bool) :
    ∃ r q : List Bool, checkWord v bits = v.afterWord bits (wrongBits v bits) r q := by
  unfold checkWord wrongBits
  dsimp only
  rcases prbsTaps v.chk.pattern with _ | ⟨m, n⟩
  · exact ⟨v.chk.reg, [], rfl⟩
  · by_cases h : v.chk.reg.length < m
    · simp only [if_pos h]
      exact ⟨(bits.reverse ++ v.chk.reg).take m, (bits.reverse ++ v.chk.reg).take m, rfl⟩
    · simp only [if_neg h]
      exact ⟨(prbsRun m n bits.length v.chk.reg).2, (bits.reverse ++ v.chk.reg).take m, rfl⟩

section checker
variable (v : Lane) (bits : List Bool)

/-- What the checker leaves of a lane. -/
theorem checkWord_rest : checkWord v bits = { v with
    prbsBits := (checkWord v bits).prbsBits, prbsErrors := (checkWord v bits).prbsErrors, chkLock := (checkWord v bits).chkLock
    chk := (checkWord v bits).chk, syncLosses := (checkWord v bits).syncLosses } := by
  obtain ⟨r, q, h⟩ := checkWord_eq v bits
  rw [h, Lane.afterWord]
  dsimp only
  split_ifs <;> rfl

/-- The checker leaves what the decoder has written. -/
theorem checkWord_decoder : (checkWord v bits).codeErrors = v.codeErrors ∧ (checkWord v bits).dispErrors = v.dispErrors ∧
    (checkWord v bits).rxRd = v.rxRd := by
  have h := checkWord_rest v bits
  exact ⟨(congrArg Lane.codeErrors h :), (congrArg Lane.dispErrors h :), (congrArg Lane.rxRd h :)⟩

/-- Before CHK_LOCK only words without error in a row count. -/
theorem checkWord_unlocked (hl : v.chkLock = false) : let w := checkWord v bits
    w.prbsBits = v.prbsBits ∧ w.prbsErrors = v.prbsErrors ∧ w.syncLosses = v.syncLosses ∧
      w.chkLock = decide (wrongBits v bits = 0 ∧ 64 ≤ v.chk.clean + 1) ∧
      (wrongBits v bits = 0 ∧ v.chk.clean + 1 < 64 → w.chk.clean = v.chk.clean + 1) ∧
      (wrongBits v bits ≠ 0 → w.chk.clean = 0) := by
  obtain ⟨r, q, h⟩ := checkWord_eq v bits
  rw [h, Lane.afterWord]
  simp only [hl, Bool.false_eq_true, if_false]
  by_cases hbad : wrongBits v bits = 0
  · by_cases hclean : 64 ≤ v.chk.clean + 1
    · simp [hbad, hclean]
    · simp [hbad, hclean]
  · simp [hbad]

/-- With CHK_LOCK every word counts; 32 of the last 64 with an error end it with a sync loss. -/
theorem checkWord_locked (hl : v.chkLock = true) : let w := checkWord v bits
    let errs := v.errsAfter (wrongBits v bits)
    w.prbsBits = satAdd 64 v.prbsBits bits.length ∧ w.prbsErrors = satAdd 64 v.prbsErrors (wrongBits v bits) ∧
      w.syncLosses = (if w.chkLock = false then satAdd 32 v.syncLosses 1 else v.syncLosses) ∧
      w.chkLock = decide ((errs.filter id).length < 32) ∧ ((errs.filter id).length < 32 → w.chk.errs = errs) := by
  obtain ⟨r, q, h⟩ := checkWord_eq v bits
  rw [h, Lane.afterWord]
  simp only [hl, if_true]
  by_cases herr : 32 ≤ ((v.errsAfter (wrongBits v bits)).filter id).length
  · simp [herr]
  · simp [herr, Nat.lt_of_not_le herr]

end checker

/-- The lane that the checker meets: in CODED mode the decoder has counted the word's errors. -/
def Lane.decoded (v : Lane) (w : Nat) : Lane :=
  if v.chk.coded then
    let d := decodeWord 4 v.rxRd w
    { v with codeErrors := satAdd 32 v.codeErrors d.invalid, dispErrors := satAdd 32 v.dispErrors d.disparity, rxRd := d.rd }
  else v

/-- The bits of a word that the checker compares. -/
def Lane.checkedBits (v : Lane) (w : Nat) : List Bool :=
  if v.chk.coded then (decodeWord 4 v.rxRd w).syms.flatMap fun c => natBits 8 c.2 else natBits 40 w

theorem testWordIn_effect (l w : Nat) (s : State) : lanesBut l s (testWordIn l w s) ∧
    (testWordIn l w s).lane l = checkWord ((s.lane l).decoded w) ((s.lane l).checkedBits w) := by
  unfold testWordIn Lane.decoded Lane.checkedBits
  dsimp only
  split
  · refine ⟨(lanesBut_modLane _).trans (lanesBut_modLane _), ?_⟩
    rw [State.lane_modLane_self, countCode, State.lane_modLane_self]
  · exact ⟨lanesBut_setLane, State.lane_setLane_self⟩

theorem Lane.decoded_coded {v : Lane} (h : v.chk.coded = true) (w : Nat) : v.decoded w = { v with
    codeErrors := satAdd 32 v.codeErrors (decodeWord 4 v.rxRd w).invalid
    dispErrors := satAdd 32 v.dispErrors (decodeWord 4 v.rxRd w).disparity, rxRd := (decodeWord 4 v.rxRd w).rd } := if_pos h
theorem Lane.decoded_line {v : Lane} (h : v.chk.coded = false) (w : Nat) : v.decoded w = v := if_neg (by simp [h])

section decoded
variable (v : Lane) (w : Nat)

/-- The decoder changes its counters and the disparity alone. -/
theorem Lane.decoded_only : ∃ c d r, v.decoded w = { v with codeErrors := c, dispErrors := d, rxRd := r } := by
  unfold Lane.decoded
  split
  · exact ⟨_, _, _, rfl⟩
  · exact ⟨v.codeErrors, v.dispErrors, v.rxRd, rfl⟩

theorem Lane.decoded_proj {α : Type} (g : Lane → α)
    (h : ∀ c d r, g { v with codeErrors := c, dispErrors := d, rxRd := r } = g v) : g (v.decoded w) = g v := by
  obtain ⟨c, d, r, e⟩ := v.decoded_only w
  rw [e, h]

theorem Lane.decoded_chk : (v.decoded w).chk = v.chk := v.decoded_proj w (·.chk) fun _ _ _ => rfl
theorem Lane.decoded_chkLock : (v.decoded w).chkLock = v.chkLock := v.decoded_proj w (·.chkLock) fun _ _ _ => rfl
theorem Lane.decoded_prbsBits : (v.decoded w).prbsBits = v.prbsBits := v.decoded_proj w (·.prbsBits) fun _ _ _ => rfl
theorem Lane.decoded_prbsErrors : (v.decoded w).prbsErrors = v.prbsErrors := v.decoded_proj w (·.prbsErrors) fun _ _ _ => rfl
theorem Lane.decoded_syncLosses : (v.decoded w).syncLosses = v.syncLosses := v.decoded_proj w (·.syncLosses) fun _ _ _ => rfl
theorem Lane.decoded_errsAfter (bad : Nat) : (v.decoded w).errsAfter bad = v.errsAfter bad := by
  rw [Lane.errsAfter, Lane.decoded_chk, Lane.errsAfter]
theorem wrongBits_decoded (bits : List Bool) : wrongBits (v.decoded w) bits = wrongBits v bits := by
  rw [wrongBits, Lane.decoded_chk, wrongBits]

end decoded

/-- Settles O4: the checker's clauses are those of `checkWord_unlocked`, `checkWord_locked` and `checkWord_rest`. -/
theorem laneCountersAndStatusWords : Obligations.LaneCountersAndStatusWords := by
  unfold Obligations.LaneCountersAndStatusWords
  intro l a s
  refine ⟨?clear, fun rd w h => ?code, fun w h => ?checked, fun w h => exec_of_neg rfl h, fun k h => ?status,
    fun k h => exec_of_neg rfl h⟩
  case clear => exact ⟨_, rfl, clearCmd_frame .., clearCmd_effect ..⟩
  case code =>
    refine ⟨_, exec_of_neg rfl (by tauto), (countCode_frame ..).step (State.modLane_frame ..) (by decide),
      (lanesBut_modLane _).trans (lanesBut_modLane _), ?_⟩
    rw [State.lane_modLane_self, countCode, State.lane_modLane_self]
  case checked =>
    intro d bits bad errs
    obtain ⟨hbut, hlane⟩ := testWordIn_effect l w.toNat s
    refine ⟨_, exec_of_pos rfl h, testWordIn_frame .., hbut, ?_⟩
    rw [hlane, show (s.lane l).checkedBits w.toNat = bits from rfl]
    have hd : decodeWord 4 (s.lane l).rxRd w.toNat = d := rfl
    clear_value d
    have hunlocked := checkWord_unlocked ((s.lane l).decoded w.toNat) bits
    have hlocked := checkWord_locked ((s.lane l).decoded w.toNat) bits
    have hrest := checkWord_rest ((s.lane l).decoded w.toNat) bits
    simp only [Lane.decoded_chk, Lane.decoded_chkLock, Lane.decoded_prbsBits, Lane.decoded_prbsErrors,
      Lane.decoded_syncLosses, Lane.decoded_errsAfter, wrongBits_decoded] at hunlocked hlocked
    obtain ⟨hcode, hdisp, hrd⟩ := checkWord_decoder ((s.lane l).decoded w.toNat) bits
    refine ⟨fun hl => ?_, fun hl => ?_, fun hl => ?_, fun hc => ?_, fun hc => ?_, ?_, ?_⟩
    · obtain ⟨hbits, herrors, -⟩ := hunlocked hl
      exact ⟨hbits, herrors⟩
    · obtain ⟨-, -, -, hlock, hclean, hwrong⟩ := hunlocked hl
      exact ⟨hlock, hclean, hwrong⟩
    · obtain ⟨hbits, herrors, -, hlock, hlast⟩ := hlocked hl
      exact ⟨hbits, herrors, hlock, hlast⟩
    · rw [hcode, hdisp, hrd, Lane.decoded_coded hc, hd]
      exact ⟨rfl, rfl, rfl⟩
    · rw [hcode, hdisp, hrd, Lane.decoded_line hc]
      exact ⟨rfl, rfl, rfl⟩
    · obtain ⟨c, d', r, e⟩ := (s.lane l).decoded_only w.toNat
      rw [e] at hrest hcode hdisp hrd ⊢
      rw [hcode, hdisp, hrd]
      exact hrest
    · cases hl : (s.lane l).chkLock with
      | false =>
        obtain ⟨-, -, hsync, -⟩ := hunlocked hl
        simpa using hsync
      | true =>
        obtain ⟨-, -, hsync, -⟩ := hlocked hl
        simpa using hsync
  case status =>
    obtain ⟨hbut, hout, hlane⟩ := sendWords_effect k s
      [(true, 0x5C), (false, s.statusByte k), (false, (s.lane k).mirror), (false, s.statusByte k ^^^ (s.lane k).mirror ^^^ 0x5A)]
      (.statusWord k (s.statusByte k) (s.lane k).mirror (s.statusByte k ^^^ (s.lane k).mirror ^^^ 0x5A)) (n := 1) (by simp)
    exact ⟨_, exec_of_pos rfl h, sendWords_frame .., hbut, hout, hlane⟩

/-! ### The state after a power-on reset -/

/-- Settles O58: every table of the reset state is empty, so each unit reads as its default. -/
theorem resetLeavesWhatTheSpecStates : Obligations.ResetLeavesWhatTheSpecStates := by
  unfold Obligations.ResetLeavesWhatTheSpecStates
  refine ⟨fun l _ => ?lane, fun k _ => ?logical, fun i _ => ?input, fun p _ => ?port, rfl, rfl, fun n _ => ?stack,
    fun r _ => ?ring, rfl, fun c _ => ?core, ?rest⟩
  case lane => exact ⟨rfl, rfl, rfl, rfl, rfl, rfl, rfl, rfl, rfl, rfl, rfl⟩
  case logical => exact ⟨rfl, rfl, rfl, rfl⟩
  case input => exact ⟨rfl, rfl, rfl, rfl, rfl, rfl, rfl, rfl⟩
  case port => exact ⟨rfl, rfl, rfl, rfl, rfl⟩
  case stack => exact ⟨rfl, rfl, rfl⟩
  case ring => exact ⟨rfl, rfl, rfl⟩
  case core => exact ⟨rfl, rfl, rfl, rfl, rfl, rfl, rfl⟩
  case rest =>
    exact ⟨rfl, rfl, rfl, rfl, fun _ => rfl, fun _ => rfl, rfl, rfl, fun _ _ => rfl, rfl, rfl, rfl, rfl, rfl, rfl, rfl, rfl, rfl⟩

end Sys2Proof.Machine
end

section
/-! Ingest sparing and the Sample link (03): failures and spares (O7), discarded frames (O5), taken frames (O6), and
the frames of a lane that does not serve yet (O8). -/

namespace Sys2Proof.Machine

open Sys2Proof

/-! ### What a lane serves, and whether a spare can take it (03 R76, R80) -/

section sparing
variable {l sp : Nat} {s t : State}

theorem State.serving_congr (h : (t.logical l).phys = (s.logical l).phys) : t.serving l = s.serving l := by
  unfold State.serving
  rw [h]

theorem raise_srcs (src kind addr : Nat) : (raise src kind addr s).so.srcs = s.so.srcs := by rw [raise_so]

theorem State.latched_congr (h : t.so.srcs = s.so.srcs) (n : Nat) : t.latched n = s.latched n := by
  unfold State.latched State.srcState
  rw [h]

theorem State.cfg_of_dict (h : t.dict = s.dict) (o : Nat) : t.cfg o = s.cfg o := by
  unfold State.cfg State.active
  rw [h]

theorem State.cfgAt_of_dict (h : t.dict = s.dict) (x o : Nat) : t.cfgAt x o = s.cfgAt x o := by
  unfold State.cfgAt
  rw [h]

theorem State.spareInOk_congr (hlane : t.lane sp = s.lane sp) (hphys : (t.logical l).phys = (s.logical l).phys)
    (hdict : t.dict = s.dict) (hsrcs : t.so.srcs = s.so.srcs) : t.spareInOk sp l = s.spareInOk sp l := by
  unfold State.spareInOk State.gen
  rw [hlane, State.serving_congr hphys, State.cfg_of_dict hdict, State.cfg_of_dict hdict, State.latched_congr hsrcs]

theorem State.spareInOk_iff : s.spareInOk sp l = true ↔ (96 ≤ sp ∧ sp ≤ 99) ∧ l ≤ 95 ∧ coverSpare l = sp ∧
    (s.lane sp).rx = .sync ∧ (s.lane sp).spare = .free ∧ s.gen sp = s.gen (s.serving l) ∧ s.latched sp = false := by
  simp only [State.spareInOk, Bool.and_eq_true, decide_eq_true_eq, beq_iff_eq, Bool.not_eq_true', and_assoc]

/-- The covering spare of a lane can take over where it could before the lane itself changed. -/
theorem State.spareInOk_own (hlane : ∀ m, m ≠ l → t.lane m = s.lane m) (hphys : (t.logical l).phys = (s.logical l).phys)
    (hdict : t.dict = s.dict) (hsrcs : t.so.srcs = s.so.srcs) : t.spareInOk (coverSpare l) l = s.spareInOk (coverSpare l) l := by
  by_cases hl : l < 96
  · exact State.spareInOk_congr (hlane _ (coverSpare_ne hl)) hphys hdict hsrcs
  · have hno (u : State) : u.spareInOk (coverSpare l) l = false := by
      rw [Bool.eq_false_iff, Ne, State.spareInOk_iff]
      omega
    rw [hno, hno]

end sparing

/-! ### Spares that ask, and lanes that fail (03 R77 to R80) -/

/-- A spare that asks for logical lane k. -/
def Lane.askingFor (k now pm : Nat) (v : Lane) : Lane :=
  { v with rx := .running, resume := true, mirror := k, spare := .asking k now, startPm := pm, leftAt := none, failed := false
           crcTimes := [] }

/-- The covering spare of lane l is asked to take over when the lane fails (03 R77). -/
def State.sparesItself (l : Nat) (s : State) : Prop := s.cfg (ob 0x4000 1) = 1 ∧ s.spareInOk (coverSpare l) l = true

section failure
variable {l : Nat} {s : State}

/-- Lane l declared failed. -/
def laneFailed (l : Nat) (s : State) : State := raise l 0x0B 0 (s.modLane l fun v => { v with failed := true, crcTimes := [] })

theorem laneFailed_lane (m : Nat) : (laneFailed l s).lane m =
    if m = l then { s.lane l with failed := true, crcTimes := [] } else s.lane m := by
  rw [laneFailed, State.lane_raise, State.lane_modLane]

theorem laneFailed_logical (k : Nat) : (laneFailed l s).logical k = s.logical k := State.logical_raise ..

theorem laneFailed_servedBy : (laneFailed l s).servedBy l = s.servedBy l :=
  State.servedBy_congr (fun k => by rw [laneFailed_logical]) (by rw [laneFailed_lane, if_pos rfl])

theorem laneFailed_sparesItself : (laneFailed l s).sparesItself l ↔ s.sparesItself l := by
  have hdict : (laneFailed l s).dict = s.dict := raise_dict ..
  unfold State.sparesItself
  rw [State.cfg_of_dict hdict, State.spareInOk_own (fun m hm => by rw [laneFailed_lane, if_neg hm])
    (by rw [laneFailed_logical]) hdict (raise_srcs ..)]

/-- A lane that failed and serves none: nothing more happens. -/
theorem ingestFailed_of_none (h : s.servedBy l = none) : ingestFailed l s = laneFailed l s := by
  have hs : (laneFailed l s).servedBy l = none := laneFailed_servedBy.trans h
  unfold laneFailed at hs
  simp only [ingestFailed, hs, laneFailed]

theorem ingestFailed_of_some {k : Nat} (h : s.servedBy l = some k) : ingestFailed l s =
    if (laneFailed l s).cfg (ob 0x4000 1) = 1 ∧ k = l ∧ (laneFailed l s).spareInOk (coverSpare l) l then
      startSparing l (coverSpare l) (laneFailed l s)
    else (laneFailed l s).modLogical k fun g => { g with muted := true } := by
  have hs : (laneFailed l s).servedBy l = some k := laneFailed_servedBy.trans h
  unfold laneFailed at hs
  simp only [ingestFailed, hs, laneFailed]
  rfl

theorem ingestFailed_spares (h : s.servedBy l = some l) (ha : s.sparesItself l) :
    ingestFailed l s = startSparing l (coverSpare l) (laneFailed l s) := by
  obtain ⟨hcfg, hok⟩ := laneFailed_sparesItself.2 ha
  rw [ingestFailed_of_some h, if_pos ⟨hcfg, rfl, hok⟩]

theorem ingestFailed_mutes {k : Nat} (h : s.servedBy l = some k) (ha : ¬ (k = l ∧ s.sparesItself l)) :
    ingestFailed l s = (laneFailed l s).modLogical k fun g => { g with muted := true } := by
  rw [ingestFailed_of_some h, if_neg fun ⟨hcfg, hk, hok⟩ => ha ⟨hk, laneFailed_sparesItself.1 ⟨hcfg, hok⟩⟩]

/-- What the failure of an ingest lane does (03 R77). -/
theorem ingestFailed_effect (l : Nat) (s : State) : let t := ingestFailed l s
    let auto := s.servedBy l = some l ∧ s.sparesItself l
    t.so = (raise l 0x0B 0 s).so ∧ t.lanes.ingest = s.lanes.ingest ∧
      (∀ k, (s.servedBy l = some k ∧ ¬ auto → t.logical k = { s.logical k with muted := true }) ∧
        (¬ (s.servedBy l = some k ∧ ¬ auto) → t.logical k = s.logical k)) ∧
      t.lane l = { s.lane l with failed := true, crcTimes := [] } ∧
      (auto → t.lane (coverSpare l) = (s.lane (coverSpare l)).askingFor l s.now s.pm) ∧
      ∀ m, m ≠ l → ¬ (auto ∧ m = coverSpare l) → t.lane m = s.lane m := by
  intro t auto
  have hso : (laneFailed l s).so = (raise l 0x0B 0 s).so := raise_so_congr (by rfl) ..
  have hing : (laneFailed l s).lanes.ingest = s.lanes.ingest := by rw [laneFailed, raise_lanes]; rfl
  by_cases ha : auto
  · obtain ⟨hs, hspares⟩ := id ha
    have ht : t = startSparing l (coverSpare l) (laneFailed l s) := ingestFailed_spares hs hspares
    have hne : coverSpare l ≠ l := coverSpare_ne (by have := State.spareInOk_iff.1 hspares.2; omega)
    have htime : (laneFailed l s).time = s.time := raise_time ..
    have hlane (m : Nat) : t.lane m =
        if m = coverSpare l then (s.lane m).askingFor l s.now s.pm else (laneFailed l s).lane m := by
      rw [ht, startSparing, State.lane_modLane]
      split
      · next e => rw [e, laneFailed_lane, if_neg hne, State.now, State.pm, htime]; rfl
      · rfl
    refine ⟨by rw [ht]; exact hso, by rw [ht]; exact hing, fun k => ⟨fun hk => absurd ha hk.2, fun _ => ?_⟩, ?_, fun _ => ?_,
      fun m hm hn => ?_⟩
    · rw [ht]; exact laneFailed_logical k
    · rw [hlane, if_neg hne.symm, laneFailed_lane, if_pos rfl]
    · rw [hlane, if_pos rfl]
    · rw [hlane, if_neg fun e => hn ⟨ha, e⟩, laneFailed_lane, if_neg hm]
  · cases hk : s.servedBy l with
    | none =>
      have ht : t = laneFailed l s := ingestFailed_of_none hk
      rw [ht]
      exact ⟨hso, hing, fun k => ⟨fun e => (nomatch e.1), fun _ => laneFailed_logical k⟩,
        by rw [laneFailed_lane, if_pos rfl], fun e => absurd e ha, fun m hm _ => by rw [laneFailed_lane, if_neg hm]⟩
    | some j =>
      have ht : t = (laneFailed l s).modLogical j fun g => { g with muted := true } :=
        ingestFailed_mutes hk fun ⟨hj, hspares⟩ => ha ⟨hj ▸ hk, hspares⟩
      have hlane (m : Nat) : t.lane m = (laneFailed l s).lane m := by rw [ht]; rfl
      have hlog (k : Nat) : t.logical k = if k = j then { s.logical j with muted := true } else s.logical k := by
        rw [ht, State.logical_modLogical, laneFailed_logical, laneFailed_logical]
      refine ⟨by rw [ht]; exact hso, by rw [ht]; exact hing, fun k => ⟨fun e => ?_, fun e => ?_⟩, ?_, fun e => absurd e ha,
        fun m hm _ => ?_⟩
      · obtain rfl := Option.some.inj e.1
        rw [hlog, if_pos rfl]
      · rw [hlog, if_neg fun hkj => e ⟨by rw [hkj], ha⟩]
      · rw [hlane, laneFailed_lane, if_pos rfl]
      · rw [hlane, laneFailed_lane, if_neg hm]

end failure

/-! ### SPARE_IN, SPARE_OUT and the time-out of a spare that asks (03 R78 to R80) -/

section spares
variable {l k : Nat} {s : State}

theorem ingestSpareOut_of_some (h : s.servedBy l = some k) : ingestSpareOut l s =
    if 96 ≤ l ∧ (s.lane k).rx = .sync ∧ s.latched l = false ∧ s.latched k = false then
      s.modLane l fun v => { v with spare := .leaving k }
    else raise l 0x0E 0 s := by
  simp only [ingestSpareOut, h]

theorem ingestSpareOut_of_none (h : s.servedBy l = none) : ingestSpareOut l s = raise l 0x0E 0 s := by
  simp only [ingestSpareOut, h]

/-- SPARE_OUT is refused on a home lane, and where the home lane is not in SYNC or a source is latched. -/
theorem ingestSpareOut_refused (h : l < 96 ∨ ∀ k, s.servedBy l = some k → (s.lane k).rx ≠ .sync ∨ s.latched l = true ∨
    s.latched k = true) : ingestSpareOut l s = raise l 0x0E 0 s := by
  cases hk : s.servedBy l with
  | none => exact ingestSpareOut_of_none hk
  | some k =>
    rw [ingestSpareOut_of_some hk, if_neg]
    rintro ⟨hspare, hrx, hl, hlk⟩
    rcases h with h | h
    · omega
    · simpa [hrx, hl, hlk] using h k hk

theorem exec_spareTimeout_of_asking {l : Fin 100} {since : Nat} (h : (s.lane l).spare = .asking k since) :
    exec (.spareTimeout l) s = .next (if since + us (s.cfg (ob 0x4000 2)) ≤ s.now then
      raise l 0x0D 0 (s.modLane l fun v =>
        { v with mirror := 255, spare := .free, resume := false, leftAt := none, rx := if v.rx = .running then .sync else v.rx })
      else s) := by
  change execSpareTimeout l s = _
  simp only [execSpareTimeout, h]

theorem laneFail_due {l : Fin 222} (hl : l.val < 100) (h : s.failDue l = true) :
    exec (.laneFailTimeout l) s = .next (ingestFailed l s) := exec_of_pos (exec_of_pos rfl h) hl

end spares

/-- Settles O7: SPARE_IN and SPARE_OUT by the conditions of `spareInOk` and of the home lane, failures by
`ingestFailed_effect`. -/
theorem ingestSparing : Obligations.IngestSparing := by
  unfold Obligations.IngestSparing
  intro s
  refine ⟨fun l a hlo hhi harg hcover hrx hfree hgen hlat => ?spareIn, fun l a hl h => ?spareInRefused,
    fun l a k hlo hhi hk hrx hll hlk => ?spareOut, fun l a hl h => ?spareOutRefused, fun l k since h hdue => ?timeout,
    fun l hl hserving hdue => ?homeFails, fun l hlo hhi hdue => ?spareFails, fun l h => ?notDue⟩
  case spareIn =>
    exact completes_setLane (exec_of_pos (exec_of_pos rfl hhi)
      (State.spareInOk_iff.2 ⟨by omega, harg, hcover, hrx, hfree, hgen, hlat⟩))
  case spareInRefused =>
    refine exec_of_neg (exec_of_pos rfl hl) fun hok => ?_
    obtain ⟨hsp, harg, hcover, hrx, hfree, hgen, hlat⟩ := State.spareInOk_iff.1 hok
    rcases h with h | h | h | h | h | h | h
    · omega
    · omega
    · exact h hcover
    · exact h hrx
    · exact h hfree
    · exact h hgen
    · rw [h] at hlat
      cases hlat
  case spareOut =>
    have hcmd : exec (.spareOut l a) s = .next (ingestSpareOut l s) := exec_of_pos rfl hhi
    rw [ingestSpareOut_of_some hk] at hcmd
    exact completes_setLane (exec_of_pos hcmd ⟨hlo, hrx, hll, hlk⟩)
  case spareOutRefused => exact (exec_of_pos rfl hl).trans (congrArg Host.Outcome.next (ingestSpareOut_refused h))
  case timeout => exact completes_raise_setLane (exec_of_pos (exec_spareTimeout_of_asking h) hdue)
  case homeFails =>
    have hserved : s.servedBy l = some l.val := (if_pos hl).trans (if_pos hserving)
    obtain ⟨hso, hing, hlog, hlane, hspare, hother⟩ := ingestFailed_effect l s
    simp only [hserved, true_and, Option.some.injEq] at hlog hspare hother
    refine ⟨_, laneFail_due (by omega) hdue, (ingestFailed_frame ..).weaken (by decide), hso, hing, hlane, fun k => ?_,
      fun m hm hsp => hother m hm fun e => hsp e.2, hspare, fun hn => hother _ (coverSpare_ne hl) fun e => hn e.1⟩
    split
    · next h => exact (hlog k).1 ⟨h.1.symm, h.2⟩
    · next h => exact (hlog k).2 fun e => h ⟨e.1.symm, e.2⟩
  case spareFails =>
    have hauto : ¬ (s.servedBy l = some l.val ∧ s.sparesItself l) := fun ⟨_, _, hok⟩ => by
      obtain ⟨-, hhome, -⟩ := State.spareInOk_iff.1 hok
      omega
    obtain ⟨hso, hing, hlog, hlane, -, hother⟩ := ingestFailed_effect l s
    simp only [hauto, not_false_eq_true, and_true, false_and] at hlog hother
    refine ⟨_, laneFail_due hhi hdue, (ingestFailed_frame ..).weaken (by decide), hso, hing,
      fun m hm => hother m hm trivial, fun k => ?_, hlane⟩
    split
    · next h => exact (hlog k).1 h
    · next h => exact (hlog k).2 h
  case notDue => exact exec_of_neg rfl (by rw [h]; decide)

/-! ### The checks of a Sample link frame (03 R89) -/

/-- Step 1: no symbol error and no abort. -/
def cleanFrame (f : LinkFrame) : Prop := f.invalid = 0 ∧ f.disparity = 0 ∧ f.abort = false

section checks
variable (s : State) (lg : Nat) (f : LinkFrame)

/-- A setting of logical lane lg in force for the frame's stamp. -/
def State.linkCfg (sub : Nat) : Nat := s.cfgAt f.stamp.toNat (ob (0x4200 + lg) sub)

/-- Steps 2 and 3: framed as its format says. -/
def State.framed : Prop :=
  cleanFrame f ∧ f.earlyStart = false ∧ f.endOk = true ∧ f.payload.length = payloadBytes (s.linkCfg lg f 2) (s.linkCfg lg f 3)
/-- Step 4: the CRC holds. -/
def State.intact : Prop := s.framed lg f ∧ crc32 (linkCovered f) = f.crc.toNat
/-- Step 5: the frame names the lane. -/
def State.named : Prop := s.intact lg f ∧ f.linkId.toNat = s.linkCfg lg f 1
/-- Step 6: the header agrees with the settings. -/
def State.formed : Prop :=
  s.named lg f ∧ f.fmt.toNat % 8 = s.linkCfg lg f 2 ∧ f.fmt.toNat / 8 % 4 + 1 = s.linkCfg lg f 3 ∧
    f.info.toNat % 256 = s.linkCfg lg f 4 ∧ f.stamp.toNat % s.linkCfg lg f 4 = 0

end checks

/-- Step 8, of a frame that passes steps 1 to 7. -/
def stampVerdict (f : LinkFrame) (expected : Option Nat) : Verdict :=
  match expected with
  | some e => if f.stamp.toNat = e then .ok else .jump
  | none => .ok

section verdict
variable {s : State} {lg : Nat} {f : LinkFrame} {e : Option Nat}

theorem cleanFrame.no_symbol (h : cleanFrame f) : ¬ (f.invalid > 0 ∨ f.disparity > 0) := by
  obtain ⟨hi, hd, -⟩ := h
  omega
theorem cleanFrame.no_abort (h : cleanFrame f) : ¬ f.abort = true := by
  obtain ⟨-, -, ha⟩ := h
  rw [ha]
  decide

theorem State.not_framed_iff (h : cleanFrame f) : ¬ s.framed lg f ↔ f.earlyStart = true ∨ f.endOk = false ∨
    f.payload.length ≠ payloadBytes (s.linkCfg lg f 2) (s.linkCfg lg f 3) := by
  simp only [State.framed, h, true_and, not_and_or, Bool.not_eq_false, Bool.not_eq_true]
theorem State.not_intact_iff (h : s.framed lg f) : ¬ s.intact lg f ↔ crc32 (linkCovered f) ≠ f.crc.toNat ^^^ 0 := by
  rw [State.intact, and_iff_right h, Nat.xor_zero]
theorem State.not_named_iff (h : s.intact lg f) : ¬ s.named lg f ↔ f.linkId.toNat ≠ s.linkCfg lg f 1 := by
  rw [State.named, and_iff_right h]
theorem State.not_formed_iff (h : s.named lg f) : ¬ s.formed lg f ↔ f.fmt.toNat % 8 ≠ s.linkCfg lg f 2 ∨
    f.fmt.toNat / 8 % 4 + 1 ≠ s.linkCfg lg f 3 ∨ f.info.toNat % 256 ≠ s.linkCfg lg f 4 ∨
    f.stamp.toNat % s.linkCfg lg f 4 ≠ 0 := by
  simp only [State.formed, h, true_and, not_and_or]

theorem State.framed.clean (h : s.framed lg f) : cleanFrame f := h.1
theorem State.intact.framed (h : s.intact lg f) : s.framed lg f := h.1
theorem State.named.intact (h : s.named lg f) : s.intact lg f := h.1
theorem State.formed.named (h : s.formed lg f) : s.named lg f := h.1

theorem State.framed.no_misframe (h : s.framed lg f) : ¬ (f.earlyStart = true ∨ f.endOk = false ∨
    f.payload.length ≠ payloadBytes (s.linkCfg lg f 2) (s.linkCfg lg f 3)) := fun c => (State.not_framed_iff h.clean).2 c h
theorem State.intact.no_crc (h : s.intact lg f) : ¬ crc32 (linkCovered f) ≠ f.crc.toNat ^^^ 0 :=
  fun c => (State.not_intact_iff h.framed).2 c h
theorem State.named.no_linkId (h : s.named lg f) : ¬ f.linkId.toNat ≠ s.linkCfg lg f 1 :=
  fun c => (State.not_named_iff h.intact).2 c h

theorem frameVerdict_symbol (h : 0 < f.invalid ∨ 0 < f.disparity) : frameVerdict s lg f 0 e = .symbol := if_pos h

theorem frameVerdict_abort (hi : f.invalid = 0) (hd : f.disparity = 0) (ha : f.abort = true) :
    frameVerdict s lg f 0 e = .abort := (if_neg (by omega)).trans (if_pos ha)

theorem frameVerdict_misframed (h : cleanFrame f) (hn : ¬ s.framed lg f) : frameVerdict s lg f 0 e = .format :=
  (if_neg h.no_symbol).trans <| (if_neg h.no_abort).trans <| if_pos ((State.not_framed_iff h).1 hn)

theorem frameVerdict_crc (h : s.framed lg f) (hn : ¬ s.intact lg f) : frameVerdict s lg f 0 e = .crc :=
  (if_neg h.clean.no_symbol).trans <| (if_neg h.clean.no_abort).trans <| (if_neg h.no_misframe).trans <|
    if_pos ((State.not_intact_iff h).1 hn)

theorem frameVerdict_linkId (h : s.intact lg f) (hn : ¬ s.named lg f) : frameVerdict s lg f 0 e = .linkId :=
  (if_neg h.framed.clean.no_symbol).trans <| (if_neg h.framed.clean.no_abort).trans <| (if_neg h.framed.no_misframe).trans <|
    (if_neg h.no_crc).trans <| if_pos ((State.not_named_iff h).1 hn)

/-- A frame that passes steps 1 to 5 meets the checks of its header and of its stamp. -/
theorem frameVerdict_of_named (h : s.named lg f) : frameVerdict s lg f 0 e =
    if f.fmt.toNat % 8 ≠ s.linkCfg lg f 2 ∨ f.fmt.toNat / 8 % 4 + 1 ≠ s.linkCfg lg f 3 ∨
      f.info.toNat % 256 ≠ s.linkCfg lg f 4 ∨ f.stamp.toNat % s.linkCfg lg f 4 ≠ 0 then .format
    else if f.stamp.toNat > s.pm + ms 1 then .early
    else if s.pm > f.stamp.toNat + us 200 then .late
    else stampVerdict f e :=
  have hframed := h.intact.framed
  (if_neg hframed.clean.no_symbol).trans <| (if_neg hframed.clean.no_abort).trans <| (if_neg hframed.no_misframe).trans <|
    (if_neg h.intact.no_crc).trans <| if_neg h.no_linkId

theorem frameVerdict_misformed (h : s.named lg f) (hn : ¬ s.formed lg f) : frameVerdict s lg f 0 e = .format :=
  (frameVerdict_of_named h).trans (if_pos ((State.not_formed_iff h).1 hn))

/-- A frame that passes steps 1 to 6 is early, late or in time. -/
theorem frameVerdict_of_formed (h : s.formed lg f) : frameVerdict s lg f 0 e =
    if f.stamp.toNat > s.pm + ms 1 then .early else if s.pm > f.stamp.toNat + us 200 then .late else stampVerdict f e :=
  (frameVerdict_of_named h.named).trans (if_neg fun c => (State.not_formed_iff h.named).2 c h)

theorem frameVerdict_early (h : s.formed lg f) (ht : s.pm + ms 1 < f.stamp.toNat) : frameVerdict s lg f 0 e = .early :=
  (frameVerdict_of_formed h).trans (if_pos ht)

theorem frameVerdict_late (h : s.formed lg f) (he : f.stamp.toNat ≤ s.pm + ms 1) (hl : f.stamp.toNat + us 200 < s.pm) :
    frameVerdict s lg f 0 e = .late :=
  (frameVerdict_of_formed h).trans <| (if_neg (Nat.not_lt.2 he)).trans (if_pos hl)

theorem frameVerdict_timely (h : s.formed lg f) (he : f.stamp.toNat ≤ s.pm + ms 1) (hl : s.pm ≤ f.stamp.toNat + us 200) :
    frameVerdict s lg f 0 e = stampVerdict f e :=
  (frameVerdict_of_formed h).trans <| (if_neg (Nat.not_lt.2 he)).trans (if_neg (Nat.not_lt.2 hl))

end verdict

/-! ### A frame on the lane that serves its logical lane (03 R89) -/

section served
variable {l lg : Nat} {f : LinkFrame} {s : State}

theorem linkFrame_loopback (h : (s.lane l).loopback ≠ 0) : linkFrame l f s = s := if_pos h

theorem linkFrame_served (hs : s.servedBy l = some lg) (hrun : (s.lane l).rx = .running) (hloop : (s.lane l).loopback = 0) :
    linkFrame l f s = servedFrame l lg f s := by
  simp [linkFrame, hs, hrun, hloop]

theorem crcReached_of_none (h : injFor l 3 s = none) (b : Bool) : crcReached b l s = (0, false, s) := by
  cases b <;> simp [crcReached, crcInject, h]

/-- One more CRC failure of a logical lane. -/
def crcCounted (lg : Nat) (s : State) : State := s.modLogical lg fun g => { g with crcErrors := satAdd 32 g.crcErrors 1 }

/-- What each verdict does to a frame of logical lane lg on lane l. -/
def frameEffect (l lg : Nat) (f : LinkFrame) (s : State) : Verdict → State
  | .symbol => if f.abort then raise l 0x0A 0 (countCode l f.invalid f.disparity s) else countCode l f.invalid f.disparity s
  | .abort => raise l 0x0A 0 (countCode l 1 0 s)
  | .format => raiseLim (ms 1) l 0x08 0 0 (s.modLogical lg fun g => { g with formatErrors := satAdd 32 g.formatErrors 1 })
  | .crc => raiseLim (ms 1) l 0x04 0 0 (crcFailed l (crcCounted lg s))
  | .linkId => raiseLim (ms 1) l 0x07 0 0 (s.modLogical lg fun g => { g with linkIdErrors := satAdd 32 g.linkIdErrors 1 })
  | .early => raiseLim (ms 1) l 0x06 0 0 (s.modLogical lg fun g => { g with early := satAdd 32 g.early 1 })
  | .late => raiseLim (ms 1) l 0x05 0 0 ((s.modLogical lg fun g => { g with late := satAdd 32 g.late 1 }).modLane l
      fun v => { v with lastLate := some s.now })
  | .jump => jumpFrame l lg f s
  | .ok => takeFrame l lg f s

theorem servedFrame_eq (h : injFor l 3 s = none) :
    servedFrame l lg f s = frameEffect l lg f s (frameVerdict s lg f 0 (s.logical lg).expected) := by
  unfold servedFrame
  rw [crcReached_of_none h]
  dsimp only
  cases frameVerdict s lg f 0 (s.logical lg).expected <;> rfl

theorem exec_frame_of_verdict {l : Fin 100} {v : Verdict} (hs : s.servedBy l = some lg) (hrun : (s.lane l).rx = .running)
    (hloop : (s.lane l).loopback = 0) (hinj : injFor l 3 s = none) (h : frameVerdict s lg f 0 (s.logical lg).expected = v) :
    exec (.sampleLinkFrame l f) s = .next (frameEffect l lg f s v) := by
  rw [← h, ← servedFrame_eq hinj, ← linkFrame_served hs hrun hloop]
  rfl

theorem raiseLim_lane (iv src kind sub addr : Nat) : (raiseLim iv src kind sub addr s).lanes.lane = s.lanes.lane := by
  rw [raiseLim_lanes]
theorem raiseLim_ingest (iv src kind sub addr : Nat) : (raiseLim iv src kind sub addr s).lanes.ingest = s.lanes.ingest := by
  rw [raiseLim_lanes]

/-- A discarded frame that only counts for its logical lane, with a limited Postcard. -/
theorem completes_countLogical {i : Instr} {kind : Nat} {g : LogLane → LogLane}
    (e : exec i s = .next (raiseLim (ms 1) l kind 0 0 (s.modLogical lg g))) :
    completes i s fun t => Frame [.lanes, .so] s t ∧ logicalBut lg s t ∧ t.so = (raiseLim (ms 1) l kind 0 0 s).so ∧
      t.logical lg = g (s.logical lg) := by
  refine ⟨_, e, ((State.modLogical_frame ..).weaken (by decide)).step (raiseLim_frame ..) (by decide),
    ⟨(raiseLim_lane ..).trans rfl, (raiseLim_ingest ..).trans rfl, fun k hk => ?_⟩, raiseLim_so_congr (by rfl) (by rfl) .., ?_⟩
  · rw [State.logical_raiseLim, State.logical_modLogical, if_neg hk]
  · rw [State.logical_raiseLim, State.logical_modLogical, if_pos rfl]

end served

/-! ### CRC failures (03 R77) -/

section crc
variable {l lg : Nat} {s : State}

/-- The CRC failures of lane l within the last millisecond, with one now. -/
def State.crcFails (s : State) (l : Nat) : List Nat := s.now :: (s.lane l).crcTimes.filter fun x => s.now < x + ms 1

/-- The lane with one more CRC failure. -/
def crcNoted (l : Nat) (s : State) : State := s.setLane l { s.lane l with crcTimes := s.crcFails l, lastCrc := some s.now }

theorem crcFailed_below (h : (s.crcFails l).length < s.cfg (ob 0x4000 3)) : crcFailed l s = crcNoted l s :=
  if_neg fun c => absurd c.1 (Nat.not_le.2 h)

theorem crcFailed_at_limit (hrun : (s.lane l).rx = .running) (h : s.cfg (ob 0x4000 3) ≤ (s.crcFails l).length) :
    crcFailed l s = ingestFailed l (crcNoted l s) := if_pos ⟨h, hrun⟩

theorem crcNoted_lane (m : Nat) : (crcNoted l s).lane m =
    if m = l then { s.lane l with crcTimes := s.crcFails l, lastCrc := some s.now } else s.lane m := State.lane_setLane ..

theorem crcNoted_servedBy : (crcNoted l s).servedBy l = s.servedBy l :=
  State.servedBy_congr (fun _ => rfl) (by rw [crcNoted_lane, if_pos rfl])

theorem crcNoted_sparesItself : (crcNoted l s).sparesItself l ↔ s.sparesItself l := by
  unfold State.sparesItself
  rw [State.cfg_of_dict (s := s) (t := crcNoted l s) rfl, State.spareInOk_own (s := s) (t := crcNoted l s)
    (fun m hm => by rw [crcNoted_lane, if_neg hm]) rfl rfl rfl]

theorem crcCounted_logical (k : Nat) : (crcCounted lg s).logical k =
    if k = lg then { s.logical lg with crcErrors := satAdd 32 (s.logical lg).crcErrors 1 } else s.logical k :=
  State.logical_modLogical ..

theorem crcCounted_phys (k : Nat) : ((crcCounted lg s).logical k).phys = (s.logical k).phys := by
  rw [crcCounted_logical]
  split
  · next h => rw [h]
  · rfl

theorem crcCounted_servedBy : (crcCounted lg s).servedBy l = s.servedBy l := State.servedBy_congr crcCounted_phys rfl

theorem crcCounted_sparesItself : (crcCounted lg s).sparesItself l ↔ s.sparesItself l := by
  unfold State.sparesItself
  rw [State.cfg_of_dict (s := s) (t := crcCounted lg s) rfl, State.spareInOk_own (s := s) (t := crcCounted lg s)
    (fun _ _ => rfl) (crcCounted_phys l) rfl rfl]

/-- A lane at its limit of CRC failures fails: what becomes of the logical lane that it serves, and of each lane. -/
theorem crcLimit_effect (hs : s.servedBy l = some lg) (hrun : (s.lane l).rx = .running)
    (hlim : s.cfg (ob 0x4000 3) ≤ (s.crcFails l).length) (auto : Prop) [Decidable auto]
    (hauto : auto ↔ lg = l ∧ s.sparesItself l) : let t := crcFailed l (crcCounted lg s)
    t.so = (raise l 0x0B 0 s).so ∧ t.lanes.ingest = s.lanes.ingest ∧
      (∀ k, t.logical k = if k = lg then
        { s.logical lg with crcErrors := satAdd 32 (s.logical lg).crcErrors 1
                            muted := if auto then (s.logical lg).muted else true } else s.logical k) ∧
      ∀ m, t.lane m = if m = l then { s.lane l with failed := true, crcTimes := [], lastCrc := some s.now }
        else if auto ∧ m = coverSpare l then (s.lane m).askingFor l s.now s.pm else s.lane m := by
  dsimp only
  rw [crcFailed_at_limit (s := crcCounted lg s) hrun hlim]
  obtain ⟨hso, hing, hlog, hlane, hspare, hother⟩ := ingestFailed_effect l (crcNoted l (crcCounted lg s))
  simp only [crcNoted_servedBy, crcNoted_sparesItself, crcCounted_servedBy, crcCounted_sparesItself, hs, Option.some.injEq,
    ← hauto] at hlog hspare hother
  refine ⟨hso.trans (raise_so_congr (by rfl) ..), hing, fun k => ?_, fun m => ?_⟩
  · have hk : (crcNoted l (crcCounted lg s)).logical k = _ := crcCounted_logical k
    by_cases hkl : k = lg
    · rw [if_pos hkl] at hk ⊢
      by_cases ha : auto
      · rw [(hlog k).2 fun c => c.2 ha, hk, if_pos ha]
      · rw [(hlog k).1 ⟨hkl.symm, ha⟩, hk, if_neg ha]
    · rw [(hlog k).2 fun c => hkl c.1.symm, hk, if_neg hkl, if_neg hkl]
  · by_cases hm : m = l
    · rw [hm, hlane, crcNoted_lane, if_pos rfl, if_pos rfl]
      rfl
    · rw [if_neg hm]
      by_cases ha : auto ∧ m = coverSpare l
      · obtain ⟨hauto', rfl⟩ := id ha
        rw [if_pos ha, hspare hauto', crcNoted_lane, if_neg hm]
        rfl
      · rw [if_neg ha, hother m hm ha, crcNoted_lane, if_neg hm]
        rfl

end crc

/-- Settles O5: the first check that fails decides the verdict, and `frameEffect` says what each verdict changes. -/
theorem badSampleLinkFramesAreDiscardedByTheFirstFailedCheck :
    Obligations.BadSampleLinkFramesAreDiscardedByTheFirstFailedCheck := by
  unfold Obligations.BadSampleLinkFramesAreDiscardedByTheFirstFailedCheck
  intro l f s lg
  refine ⟨fun h => congrArg Host.Outcome.next (linkFrame_loopback h), fun hs hrun hloop hinj => ?_⟩
  intro st c fails auto clean framed intact named formed
  have hexec {v : Verdict} := exec_frame_of_verdict (f := f) (v := v) hs hrun hloop hinj
  refine ⟨fun h => ?symbol, fun ⟨hi, hd, ha⟩ => ?abort, fun ⟨h, hn⟩ => ?misframed, fun ⟨h, hn, hlim⟩ => ?crc,
    fun ⟨h, hn, hlim⟩ => ?crcLimit, fun ⟨h, hn⟩ => ?linkId, fun ⟨h, hn⟩ => ?misformed, fun ⟨h, ht⟩ => ?early,
    fun ⟨h, he, hl⟩ => ?late⟩
  case symbol =>
    have e := hexec (frameVerdict_symbol h)
    by_cases ha : f.abort = true
    · simp only [if_pos ha]
      exact completes_raise_setLane (exec_of_pos e ha)
    · simp only [if_neg ha]
      exact ⟨_, exec_of_neg e ha, (countCode_frame ..).weaken (by decide), lanesBut_setLane, raisedOnly_nil rfl,
        State.lane_setLane_self⟩
  case abort => exact completes_raise_setLane (hexec (frameVerdict_abort hi hd ha))
  case misframed => exact completes_countLogical (hexec (frameVerdict_misframed h hn))
  case crc =>
    have e := hexec (frameVerdict_crc h hn)
    rw [frameEffect, crcFailed_below (s := crcCounted lg s) hlim] at e
    exact ⟨_, e, (((State.modLogical_frame ..).weaken (by decide)).step (State.setLane_frame ..) (by decide)).step
      (raiseLim_frame ..) (by decide), raiseLim_so_congr (by rfl) (by rfl) .., (raiseLim_ingest ..).trans rfl,
      fun k => (State.logical_raiseLim ..).trans (crcCounted_logical k),
      fun m => (State.lane_raiseLim ..).trans (crcNoted_lane m)⟩
  case crcLimit =>
    have hauto : auto ↔ lg = l.val ∧ s.sparesItself l := and_left_comm
    obtain ⟨hso, hing, hlog, hlane⟩ := crcLimit_effect hs hrun hlim auto hauto
    have hframe : Frame [.lanes, .so] s (crcFailed l (crcCounted lg s)) :=
      ((State.modLogical_frame ..).weaken (by decide)).step (crcFailed_frame ..) (by decide)
    have hnow : (crcFailed l (crcCounted lg s)).now = (raise l 0x0B 0 s).now := congrArg Times.mono
      ((hframe.get .time).trans (raise_time ..).symm)
    exact ⟨_, hexec (frameVerdict_crc h hn), hframe.step (raiseLim_frame ..) (by decide), raiseLim_so_congr hso hnow ..,
      (raiseLim_ingest ..).trans hing, fun k => (State.logical_raiseLim ..).trans (hlog k),
      fun m => (State.lane_raiseLim ..).trans (hlane m)⟩
  case linkId => exact completes_countLogical (hexec (frameVerdict_linkId h hn))
  case misformed => exact completes_countLogical (hexec (frameVerdict_misformed h hn))
  case early => exact completes_countLogical (hexec (frameVerdict_early h ht))
  case late =>
    exact ⟨_, hexec (frameVerdict_late h he hl), (((State.modLogical_frame ..).weaken (by decide)).step
      (State.modLane_frame ..) (by decide)).step (raiseLim_frame ..) (by decide), raiseLim_so_congr (by rfl) (by rfl) ..,
      (raiseLim_ingest ..).trans rfl,
      fun k => (State.logical_raiseLim ..).trans ((State.logical_modLane ..).trans (State.logical_modLogical ..)),
      fun m => (State.lane_raiseLim ..).trans (State.lane_modLane ..)⟩

/-! ### The samples of a taken frame (03 R85 to R87, 02 R45) -/

section samples
variable (s : State) (lg start : Nat) (f : LinkFrame)

/-- The stamp expected next, or the frame's own where none is. -/
def State.wanted : Nat :=
  match (s.logical lg).expected with
  | some e => e
  | none => f.stamp.toNat
/-- The samples of the frame that came before. -/
def State.skipped : Nat :=
  if f.stamp.toNat < s.wanted lg f then (s.wanted lg f - f.stamp.toNat + (s.linkCfg lg f 4 - 1)) / s.linkCfg lg f 4 else 0
/-- The samples of slot q after the first n. -/
def State.slotSamples (q n : Nat) : List (Int × Int × Bool) :=
  ((List.range 1024).drop n).map fun k =>
    if q < s.linkCfg lg f 3 then
      let d := decodeSample (s.linkCfg lg f 2) (s.linkCfg lg f 3) f.payload.toArray k q
      (d.1, d.2.1, d.2.2 && bit (8 + q) f.info.toNat && !(s.logical lg).muted)
    else (0, 0, false)
/-- The chunk of slot q after its first n samples. -/
def State.slotChunk (q n : Nat) : Chunk :=
  .data (f.stamp.toNat + n * s.linkCfg lg f 4) (s.linkCfg lg f 4) (s.linkCfg lg f 2 == 4) start (s.slotSamples lg f q n)
/-- The gap before the frame. -/
def State.frameGap : Chunk :=
  .gap (s.wanted lg f) (s.linkCfg lg f 4) (s.linkCfg lg f 2 == 4) start ((f.stamp.toNat - s.wanted lg f) / s.linkCfg lg f 4)
/-- What the frame brings the input of slot q: a gap before it, then the samples that did not come before. -/
def State.frameChunks (q : Nat) : List Chunk :=
  (if s.wanted lg f < f.stamp.toNat then [s.frameGap lg start f] else []) ++
    if s.skipped lg f < 1024 then [s.slotChunk lg start f q (s.skipped lg f)] else []

/-- The input of slot q takes its chunks. -/
def giveInput (q : Nat) (v : State) : State :=
  let u := if s.wanted lg f < f.stamp.toNat then pushChunk (4 * lg + q) (s.frameGap lg start f) v else v
  if s.skipped lg f < 1024 then pushChunk (4 * lg + q) (s.slotChunk lg start f q (s.skipped lg f)) u else u

/-- The inputs' history begins with the first frame after START. -/
def historyBegun : State := if (s.logical lg).expected.isNone then beginHistory lg f.stamp.toNat s else s

theorem deliver_eq : deliver lg start f s =
    (forRange 4 (giveInput s lg start f) (historyBegun s lg f)).modLogical lg fun g =>
      { g with expected := some (max (f.stamp.toNat + 1024 * s.linkCfg lg f 4) (s.wanted lg f))
               lastTaken := some f.stamp.toNat, lastSeq := f.seq.toNat } := by
  rfl

end samples

section pushes
variable {s v : State} {lg start : Nat} {f : LinkFrame}

theorem pushChunk_ingestQ (i j : Nat) (c : Chunk) : (pushChunk i c v).ingestQ j = v.ingestQ j ++ if j = i then [c] else [] := by
  rw [pushChunk, State.ingestQ_setIngest]
  split
  · next h => rw [h]
  · rw [List.append_nil]

theorem giveInput_ingestQ (q j : Nat) : (giveInput s lg start f q v).ingestQ j =
    v.ingestQ j ++ if j = 4 * lg + q then s.frameChunks lg start f q else [] := by
  unfold giveInput State.frameChunks
  dsimp only
  by_cases hj : j = 4 * lg + q <;> split_ifs <;> simp [pushChunk_ingestQ, hj]

/-- Nothing but the samples that wait changes. -/
theorem giveInput_proj {α : Type} (g : State → α) (h : ∀ u i q, g (State.setIngest u i q) = g u) (q : Nat) :
    g (giveInput s lg start f q v) = g v := by
  unfold giveInput pushChunk
  dsimp only
  split_ifs <;> simp only [h]

end pushes

/-! ### The history of a lane that starts (04 R102, R548) -/

section history
variable {s : State} {lg : Nat} {f : LinkFrame}

/-- Where the stamps that no frame brought begin. -/
def State.missedFrom (s : State) (lg : Nat) : Nat :=
  match (s.logical lg).lastTaken with
  | some u => u + 1024 * s.cfgAt u (ob (0x4200 + lg) 4)
  | none => 0

/-- An input whose history begins at t. -/
def Cond.begun (old t : Nat) (v : Cond) : Cond :=
  { v with histFrom := some t, missing := if old < t then v.missing ++ [(old, t)] else v.missing }

theorem beginHistory_eq (t : Nat) : beginHistory lg t s =
    forRange 4 (fun q v => v.setCond (4 * lg + q) ((v.cond (4 * lg + q)).begun (s.missedFrom lg) t)) s := rfl

theorem beginHistory_cond (t i : Nat) : (beginHistory lg t s).cond i =
    if i / 4 = lg then (s.cond i).begun (s.missedFrom lg) t else s.cond i := by
  rw [beginHistory_eq]
  refine (forRange_read State.cond (fun _ => ()) (4 * lg) (fun i => (s.cond i).begun (s.missedFrom lg) t) s (fun _ _ _ => rfl)
    (fun k v _ _ hk => ?_) (fun k v i hi => ?_) i).trans (if_congr (by omega) rfl rfl)
  · rw [State.cond_setCond, if_pos rfl, hk]
  · rw [State.cond_setCond, if_neg hi]

/-- The filter chain but for the inputs' conditioning. -/
def Filt.butCond (x : Filt) : Filt := { x with cond := [] }

theorem Filt.eq_of_butCond {x y : Filt} (h : x.butCond = y.butCond) : x = { y with cond := x.cond } :=
  congrArg (fun z : Filt => { z with cond := x.cond }) h

theorem beginHistory_butCond (t : Nat) : (beginHistory lg t s).filt.butCond = s.filt.butCond := by
  rw [beginHistory_eq]
  refine forRange_proj (·.filt.butCond) (fun _ _ _ => ?_) s
  rfl

theorem beginHistory_rest (t : Nat) : (beginHistory lg t s).lanes = s.lanes ∧ (beginHistory lg t s).so = s.so :=
  ⟨(beginHistory_frame ..).get .lanes, (beginHistory_frame ..).get .so⟩

theorem historyBegun_lanes : (historyBegun s lg f).lanes = s.lanes := by
  unfold historyBegun
  split
  · exact beginHistory_rest _ |>.1
  · rfl

theorem historyBegun_so : (historyBegun s lg f).so = s.so := by
  unfold historyBegun
  split
  · exact beginHistory_rest _ |>.2
  · rfl

theorem historyBegun_butCond : (historyBegun s lg f).filt.butCond = s.filt.butCond := by
  unfold historyBegun
  split
  · exact beginHistory_butCond _
  · rfl

theorem historyBegun_cond (i : Nat) : (historyBegun s lg f).cond i =
    if i / 4 = lg ∧ (s.logical lg).expected = none then (s.cond i).begun (s.missedFrom lg) f.stamp.toNat else s.cond i := by
  unfold historyBegun
  cases (s.logical lg).expected with
  | none => exact (beginHistory_cond ..).trans (if_congr (by simp) rfl rfl)
  | some e => exact (if_neg (by simp)).symm

end history

/-! ### A frame is delivered (02 R45) -/

section deliver
variable (lg start : Nat) (f : LinkFrame) (s : State)

/-- The logical lane after a frame has been handed to its inputs. -/
def State.deliveredLane : LogLane :=
  { s.logical lg with expected := some (max (f.stamp.toNat + 1024 * s.linkCfg lg f 4) (s.wanted lg f))
                      lastTaken := some f.stamp.toNat, lastSeq := f.seq.toNat }

theorem deliver_proj {α : Type} (g : State → α) (hlog : ∀ u h, g (State.modLogical u lg h) = g u)
    (hing : ∀ u i q, g (State.setIngest u i q) = g u) : g (deliver lg start f s) = g (historyBegun s lg f) := by
  rw [deliver_eq, hlog]
  exact forRange_proj g (fun _ _ _ => giveInput_proj g hing _) _

theorem deliver_effect : let t := deliver lg start f s
    t.lanes.lane = s.lanes.lane ∧ t.so = s.so ∧ t.filt = { s.filt with cond := t.filt.cond } ∧
      (∀ i, t.cond i = if i / 4 = lg ∧ (s.logical lg).expected = none then (s.cond i).begun (s.missedFrom lg) f.stamp.toNat
        else s.cond i) ∧
      (∀ k, k ≠ lg → t.logical k = s.logical k) ∧ t.logical lg = s.deliveredLane lg f ∧
      (∀ i, i / 4 ≠ lg → t.ingestQ i = s.ingestQ i) ∧
      ∀ q, q < 4 → t.ingestQ (4 * lg + q) = s.ingestQ (4 * lg + q) ++ s.frameChunks lg start f q := by
  have hlanes := historyBegun_lanes (s := s) (lg := lg) (f := f)
  have hlog (k : Nat) : (forRange 4 (giveInput s lg start f) (historyBegun s lg f)).logical k = s.logical k :=
    (forRange_proj (·.logical k) (fun _ _ _ => giveInput_proj (·.logical k) (fun _ _ _ => rfl) _) _).trans
      (State.logical_of_lanes hlanes k)
  have hing (i : Nat) : (deliver lg start f s).ingestQ i = if 4 * lg ≤ i ∧ i < 4 * lg + 4 then
      s.ingestQ i ++ s.frameChunks lg start f (i - 4 * lg) else s.ingestQ i := by
    rw [← State.ingestQ_of_lanes hlanes, deliver_eq]
    change (forRange 4 (giveInput s lg start f) (historyBegun s lg f)).ingestQ i = _
    refine forRange_read State.ingestQ (fun _ => ()) (4 * lg)
      (fun i => (historyBegun s lg f).ingestQ i ++ s.frameChunks lg start f (i - 4 * lg)) (historyBegun s lg f)
      (fun _ _ _ => rfl) (fun k v _ _ hk => ?_) (fun k v i hi => ?_) i
    · rw [giveInput_ingestQ, if_pos rfl, hk, Nat.add_sub_cancel_left]
    · rw [giveInput_ingestQ, if_neg hi, List.append_nil]
  refine ⟨?_, ?_, Filt.eq_of_butCond ?_, fun i => ?_, fun k hk => ?_, ?_, fun i hi => ?_, fun q hq => ?_⟩
  · rw [deliver_proj lg start f s (·.lanes.lane) (fun _ _ => rfl) fun _ _ _ => rfl, hlanes]
  · rw [deliver_proj lg start f s (·.so) (fun _ _ => rfl) fun _ _ _ => rfl, historyBegun_so]
  · rw [deliver_proj lg start f s (·.filt.butCond) (fun _ _ => rfl) fun _ _ _ => rfl, historyBegun_butCond]
  · rw [deliver_proj lg start f s (·.cond i) (fun _ _ => rfl) fun _ _ _ => rfl, historyBegun_cond]
  · rw [deliver_eq, State.logical_modLogical, if_neg hk, hlog]
  · rw [deliver_eq, State.logical_modLogical, if_pos rfl, hlog]
    rfl
  · rw [hing, if_neg (by omega)]
  · rw [hing, if_pos (by omega), Nat.add_sub_cancel_left]

/-- Where a stamp is expected no history begins. -/
theorem deliver_frame_expected {e : Nat} (h : (s.logical lg).expected = some e) : Frame [.lanes] s (deliver lg start f s) := by
  have hb : historyBegun s lg f = s := if_neg (by simp [h])
  rw [deliver_eq, hb]
  refine (Frame.forRange (Frame.refl ..) fun q v => ?_).step (State.modLogical_frame ..) (by decide)
  refine Frame.ite (fun _ => Frame.step ?_ (pushChunk_frame ..) (by decide)) fun _ => ?_
  all_goals exact Frame.ite (fun _ => pushChunk_frame ..) fun _ => Frame.refl ..

end deliver

/-! ### A frame is used, taken, or jumps (03 R87, R89) -/

section use
variable (l lg start : Nat) (f : LinkFrame) (s : State)

/-- The malformed exponents of a frame (03 R87). -/
def State.malformed : Nat := if s.linkCfg lg f 2 = 5 then badExponents (s.linkCfg lg f 3) f.payload.toArray else 0

/-- The malformed exponents counted. -/
def formatCounted : State := s.modLogical lg fun g => { g with formatErrors := satAdd 32 g.formatErrors (s.malformed lg f) }

/-- The same with their Postcard. -/
def formatNoted : State :=
  if s.malformed lg f > 0 then raiseLim (ms 1) l 0x08 0 0 (formatCounted lg f s) else formatCounted lg f s

theorem useFrame_eq : useFrame l lg f s = deliver lg ((formatNoted l lg f s).lane l).startPm f (formatNoted l lg f s) := rfl

theorem formatNoted_lanes : (formatNoted l lg f s).lanes = (formatCounted lg f s).lanes := by
  unfold formatNoted
  split
  · exact raiseLim_lanes ..
  · rfl
theorem formatNoted_dict : (formatNoted l lg f s).dict = s.dict := by
  unfold formatNoted
  split
  · exact (raiseLim_dict ..).trans rfl
  · rfl
theorem formatNoted_filt : (formatNoted l lg f s).filt = s.filt := by
  unfold formatNoted
  split
  · exact (raiseLim_filt ..).trans rfl
  · rfl
theorem formatNoted_lane (m : Nat) : (formatNoted l lg f s).lane m = s.lane m :=
  (State.lane_of_lanes (formatNoted_lanes ..) m).trans rfl
theorem formatNoted_so : (formatNoted l lg f s).so = (if 0 < s.malformed lg f then raiseLim (ms 1) l 0x08 0 0 s else s).so := by
  unfold formatNoted
  split
  · exact raiseLim_so_congr (by rfl) (by rfl) ..
  · rfl
theorem formatNoted_logical (k : Nat) : (formatNoted l lg f s).logical k =
    if k = lg then { s.logical lg with formatErrors := satAdd 32 (s.logical lg).formatErrors (s.malformed lg f) }
    else s.logical k := by
  rw [State.logical_of_lanes (formatNoted_lanes ..)]
  exact State.logical_modLogical ..

end use

section congr
variable {lg start : Nat} {f : LinkFrame} {s t : State}

theorem State.linkCfg_congr (h : t.dict = s.dict) (sub : Nat) : t.linkCfg lg f sub = s.linkCfg lg f sub :=
  State.cfgAt_of_dict h ..

theorem State.wanted_congr (h : (t.logical lg).expected = (s.logical lg).expected) : t.wanted lg f = s.wanted lg f := by
  unfold State.wanted
  rw [h]

theorem State.missedFrom_congr (hd : t.dict = s.dict) (h : (t.logical lg).lastTaken = (s.logical lg).lastTaken) :
    t.missedFrom lg = s.missedFrom lg := by
  unfold State.missedFrom
  simp only [h, State.cfgAt_of_dict hd]

/-- What a frame brings rests on the settings, on the stamp expected, and on whether the logical lane is valid. -/
theorem State.frameChunks_congr (hd : t.dict = s.dict) (he : (t.logical lg).expected = (s.logical lg).expected)
    (hm : (t.logical lg).muted = (s.logical lg).muted) (q : Nat) : t.frameChunks lg start f q = s.frameChunks lg start f q := by
  unfold State.frameChunks State.frameGap State.slotChunk State.slotSamples State.skipped
  simp only [State.linkCfg_congr hd, State.wanted_congr he, hm]

end congr

section taken
variable (l lg : Nat) (f : LinkFrame) (s : State)

/-- The logical lane after a frame has been used. -/
def State.usedLane : LogLane :=
  { s.logical lg with formatErrors := satAdd 32 (s.logical lg).formatErrors (s.malformed lg f)
                      expected := some (max (f.stamp.toNat + 1024 * s.linkCfg lg f 4) (s.wanted lg f))
                      lastTaken := some f.stamp.toNat, lastSeq := f.seq.toNat }

theorem useFrame_effect : let t := useFrame l lg f s
    t.lanes.lane = s.lanes.lane ∧ t.so = (if 0 < s.malformed lg f then raiseLim (ms 1) l 0x08 0 0 s else s).so ∧
      t.filt = { s.filt with cond := t.filt.cond } ∧
      (∀ i, t.cond i = if i / 4 = lg ∧ (s.logical lg).expected = none then (s.cond i).begun (s.missedFrom lg) f.stamp.toNat
        else s.cond i) ∧
      (∀ k, k ≠ lg → t.logical k = s.logical k) ∧ t.logical lg = s.usedLane lg f ∧
      (∀ i, i / 4 ≠ lg → t.ingestQ i = s.ingestQ i) ∧
      ∀ q, q < 4 → t.ingestQ (4 * lg + q) = s.ingestQ (4 * lg + q) ++ s.frameChunks lg (s.lane l).startPm f q := by
  have hdict := formatNoted_dict l lg f s
  have hlanes := formatNoted_lanes l lg f s
  have hfilt := formatNoted_filt l lg f s
  have hlg : (formatNoted l lg f s).logical lg = _ := (formatNoted_logical l lg f s lg).trans (if_pos rfl)
  have hexp : ((formatNoted l lg f s).logical lg).expected = (s.logical lg).expected := by rw [hlg]
  have hmuted : ((formatNoted l lg f s).logical lg).muted = (s.logical lg).muted := by rw [hlg]
  have hlast : ((formatNoted l lg f s).logical lg).lastTaken = (s.logical lg).lastTaken := by rw [hlg]
  have hq (i : Nat) : (formatNoted l lg f s).ingestQ i = s.ingestQ i := (State.ingestQ_of_lanes hlanes i).trans rfl
  have hc (i : Nat) : (formatNoted l lg f s).cond i = s.cond i := congrArg (fun x : Filt => x.cond.get condInit i) hfilt
  rw [useFrame_eq, formatNoted_lane]
  obtain ⟨tlane, tso, tfilt, tcond, tlog, tself, ting, tgive⟩ := deliver_effect lg (s.lane l).startPm f (formatNoted l lg f s)
  refine ⟨tlane.trans (congrArg (·.lane) hlanes), tso.trans (formatNoted_so ..), tfilt.trans (by rw [hfilt]), fun i => ?_,
    fun k hk => ?_, ?_, fun i hi => (ting i hi).trans (hq i), fun q hlt => ?_⟩
  · rw [tcond, hexp, hc, State.missedFrom_congr hdict hlast]
  · rw [tlog k hk, formatNoted_logical, if_neg hk]
  · rw [tself, State.deliveredLane, hlg, State.linkCfg_congr hdict, State.wanted_congr hexp]
    rfl
  · rw [tgive q hlt, hq, State.frameChunks_congr hdict hexp hmuted]

theorem formatNoted_frame : Frame [.lanes, .so] s (formatNoted l lg f s) :=
  Frame.ite (fun _ => ((State.modLogical_frame ..).weaken (by decide)).step (raiseLim_frame ..) (by decide))
    fun _ => (State.modLogical_frame ..).weaken (by decide)

theorem useFrame_frame_expected {e : Nat} (h : (s.logical lg).expected = some e) : Frame [.lanes, .so] s (useFrame l lg f s) :=
  (formatNoted_frame l lg f s).step
    (deliver_frame_expected (e := e) _ _ _ _ (by rw [formatNoted_logical, if_pos rfl]; exact h)) (by decide)

end taken

/-! ### Where a frame stands against the stamp expected (02 R45) -/

section stamps
variable {s : State} {lg start : Nat} {f : LinkFrame} {e : Nat}

theorem State.wanted_of_some (h : (s.logical lg).expected = some e) : s.wanted lg f = e := by simp only [State.wanted, h]

theorem State.wanted_in_time (h : (s.logical lg).expected = none ∨ (s.logical lg).expected = some f.stamp.toNat) :
    s.wanted lg f = f.stamp.toNat := by
  rcases h with h | h <;> simp only [State.wanted, h]

theorem State.frameChunks_in_time (h : s.wanted lg f = f.stamp.toNat) (q : Nat) :
    s.frameChunks lg start f q = [s.slotChunk lg start f q 0] := by
  have hskip : s.skipped lg f = 0 := if_neg (by omega)
  rw [State.frameChunks, hskip, if_neg (by omega), if_pos (by decide), List.nil_append]

theorem State.frameChunks_after_gap (h : s.wanted lg f < f.stamp.toNat) (q : Nat) :
    s.frameChunks lg start f q = [s.frameGap lg start f, s.slotChunk lg start f q 0] := by
  have hskip : s.skipped lg f = 0 := if_neg (by omega)
  rw [State.frameChunks, hskip, if_pos h, if_pos (by decide)]
  rfl

theorem State.frameChunks_overlap (h : f.stamp.toNat < s.wanted lg f) (q : Nat) :
    let n := (s.wanted lg f - f.stamp.toNat + (s.linkCfg lg f 4 - 1)) / s.linkCfg lg f 4
    s.frameChunks lg start f q = if n < 1024 then [s.slotChunk lg start f q n] else [] := by
  have hskip : s.skipped lg f = _ := if_pos h
  rw [State.frameChunks, hskip, if_neg (by omega), List.nil_append]

theorem stampVerdict_in_time (h : (s.logical lg).expected = none ∨ (s.logical lg).expected = some f.stamp.toNat) :
    stampVerdict f (s.logical lg).expected = .ok := by
  rcases h with h | h <;> simp [stampVerdict, h]

theorem stampVerdict_jump (h : (s.logical lg).expected = some e) (he : e ≠ f.stamp.toNat) :
    stampVerdict f (s.logical lg).expected = .jump := by
  simp [stampVerdict, h, he.symm]

end stamps

/-- The same Postcard where one is due, over the same Sorting Office. -/
theorem ite_raiseLim_so_congr {s t : State} (c : Prop) [Decidable c] (h : t.so = s.so) (hnow : t.now = s.now)
    (iv src kind sub addr : Nat) :
    (if c then raiseLim iv src kind sub addr t else t).so = (if c then raiseLim iv src kind sub addr s else s).so := by
  split
  · exact raiseLim_so_congr h hnow ..
  · exact h

section counted
variable (l lg : Nat) (f : LinkFrame) (s : State)

/-- The logical lane with a good frame counted (03 R89). -/
def State.okLane : LogLane :=
  { s.logical lg with
    framesOk := satAdd 64 (s.logical lg).framesOk 1
    ovr := (List.range 4).map fun q => satAdd 32 ((s.logical lg).ovr.getD q 0) (b2n (bit (12 + q) f.info.toNat)) }

/-- A good frame counted. -/
def okCounted : State := s.modLogical lg fun _ => s.okLane lg f

theorem takeFrame_eq : takeFrame l lg f s = useFrame l lg f (okCounted lg f s) := rfl

theorem okCounted_logical (k : Nat) : (okCounted lg f s).logical k = if k = lg then s.okLane lg f else s.logical k :=
  State.logical_modLogical ..

/-- A jump counted, with its Postcard. -/
def jumpCounted : State :=
  raise l 0x09 0 (s.modLogical lg fun g => { g with seqJumps := satAdd 32 g.seqJumps 1 })

theorem jumpCounted_logical (k : Nat) : (jumpCounted l lg s).logical k =
    if k = lg then { s.logical lg with seqJumps := satAdd 32 (s.logical lg).seqJumps 1 } else s.logical k := by
  rw [jumpCounted, State.logical_raise, State.logical_modLogical]

theorem jumpCounted_lanes :
    (jumpCounted l lg s).lanes.lane = s.lanes.lane ∧ (jumpCounted l lg s).lanes.ingest = s.lanes.ingest := by
  rw [jumpCounted, raise_lanes]
  exact ⟨rfl, rfl⟩

theorem jumpCounted_so : (jumpCounted l lg s).so = (raise l 0x09 0 s).so := raise_so_congr (by rfl) ..

theorem jumpCounted_expected : ((jumpCounted l lg s).logical lg).expected = (s.logical lg).expected := by
  rw [jumpCounted_logical, if_pos rfl]

theorem jumpCounted_frame : Frame [.lanes, .so] s (jumpCounted l lg s) :=
  ((State.modLogical_frame ..).weaken (by decide)).step (raise_frame ..) (by decide)

variable {l lg f s} {e : Nat}

theorem jumpFrame_of_expected (h : (s.logical lg).expected = some e) : jumpFrame l lg f s =
    if f.stamp.toNat + 1024 * s.linkCfg lg f 4 < e then jumpCounted l lg s else useFrame l lg f (jumpCounted l lg s) := by
  have hexp := (jumpCounted_expected l lg s).trans h
  have hcfg : (jumpCounted l lg s).linkCfg lg f 4 = s.linkCfg lg f 4 :=
    State.linkCfg_congr ((jumpCounted_frame l lg s).get .dict) 4
  unfold jumpCounted at hexp
  rw [← hcfg]
  unfold jumpFrame
  simp only [hexp]
  rfl

theorem jumpFrame_discarded (h : (s.logical lg).expected = some e) (hlt : f.stamp.toNat + 1024 * s.linkCfg lg f 4 < e) :
    jumpFrame l lg f s = jumpCounted l lg s := (jumpFrame_of_expected h).trans (if_pos hlt)

theorem jumpFrame_used (h : (s.logical lg).expected = some e) (hle : e ≤ f.stamp.toNat + 1024 * s.linkCfg lg f 4) :
    jumpFrame l lg f s = useFrame l lg f (jumpCounted l lg s) := (jumpFrame_of_expected h).trans (if_neg (Nat.not_lt.2 hle))

end counted

/-- Settles O6: a frame in time is counted and used, one with another stamp jumps; `useFrame_effect` says what use brings, and
`State.frameChunks` which samples are left. -/
theorem aGoodSampleLinkFrameReachesItsInputs : Obligations.AGoodSampleLinkFrameReachesItsInputs := by
  unfold Obligations.AGoodSampleLinkFrameReachesItsInputs
  intro l f s lg hs hrun hloop hinj st c bad g samples data errors
    hi hd ha hstart hend hlen hcrc hid hfmt hnin hp hmod hearly hlate
  have hformed : s.formed lg f := ⟨⟨⟨⟨⟨hi, hd, ha⟩, hstart, hend, hlen⟩, hcrc⟩, hid⟩, hfmt, hnin, hp, hmod⟩
  have hexec {v : Verdict} (h : stampVerdict f (s.logical lg).expected = v) :=
    exec_frame_of_verdict hs hrun hloop hinj ((frameVerdict_timely hformed hearly hlate).trans h)
  refine ⟨fun hexp => ?inTime, fun e hexp hne => ⟨fun hlt => ?discarded, fun hle => ?jump⟩⟩
  case inTime =>
    have hok : (okCounted lg f s).logical lg = s.okLane lg f := (okCounted_logical ..).trans (if_pos rfl)
    have hexpected : ((okCounted lg f s).logical lg).expected = (s.logical lg).expected := by rw [hok]; rfl
    have hlast : ((okCounted lg f s).logical lg).lastTaken = (s.logical lg).lastTaken := by rw [hok]; rfl
    have hmuted : ((okCounted lg f s).logical lg).muted = (s.logical lg).muted := by rw [hok]; rfl
    have hwanted := State.wanted_in_time hexp
    obtain ⟨tlane, tso, tfilt, tcond, tlog, tself, ting, tgive⟩ := useFrame_effect l lg f (okCounted lg f s)
    refine ⟨_, hexec (stampVerdict_in_time hexp), (takeFrame_frame ..).weaken (by decide), tlane,
      tso.trans (ite_raiseLim_so_congr _ (by rfl) (by rfl) ..), tfilt, fun i => ?_, fun k hk => ?_, ?_, ting, fun q hq => ?_⟩
    · refine (tcond i).trans ?_
      rw [hexpected, State.missedFrom_congr (t := okCounted lg f s) (s := s) rfl hlast]
      rfl
    · exact (tlog k hk).trans ((okCounted_logical ..).trans (if_neg hk))
    · refine tself.trans ?_
      rw [State.usedLane, hok, State.wanted_congr hexpected, hwanted, max_eq_left (Nat.le_add_right ..)]
      rfl
    · refine (tgive q hq).trans ?_
      rw [State.frameChunks_congr (t := okCounted lg f s) (s := s) rfl hexpected hmuted, State.frameChunks_in_time hwanted]
      rfl
  case discarded =>
    have hjump := hexec (stampVerdict_jump hexp hne)
    rw [frameEffect, jumpFrame_discarded hexp hlt] at hjump
    obtain ⟨hlane, hing⟩ := jumpCounted_lanes l lg s
    exact ⟨_, hjump, jumpCounted_frame .., ⟨hlane, hing, fun k hk => (jumpCounted_logical ..).trans (if_neg hk)⟩,
      jumpCounted_so .., (jumpCounted_logical ..).trans (if_pos rfl)⟩
  case jump =>
    have hjump := hexec (stampVerdict_jump hexp hne)
    rw [frameEffect, jumpFrame_used hexp hle] at hjump
    have hdict : (jumpCounted l lg s).dict = s.dict := (jumpCounted_frame ..).get .dict
    have hnow : (jumpCounted l lg s).now = (raise l 0x09 0 s).now :=
      congrArg Times.mono (((jumpCounted_frame l lg s).get .time).trans (raise_time ..).symm)
    have hlg : (jumpCounted l lg s).logical lg = { g with seqJumps := satAdd 32 g.seqJumps 1 } :=
      (jumpCounted_logical ..).trans (if_pos rfl)
    have hexpected := jumpCounted_expected l lg s
    have hmuted : ((jumpCounted l lg s).logical lg).muted = (s.logical lg).muted := by rw [hlg]
    have hmal : (jumpCounted l lg s).malformed lg f = bad := by
      unfold State.malformed
      simp only [State.linkCfg_congr hdict]
      rfl
    have hwanted : s.wanted lg f = e := State.wanted_of_some hexp
    obtain ⟨jlane, jing⟩ := jumpCounted_lanes l lg s
    have hlane : (jumpCounted l lg s).lane l = s.lane l := congrArg (Tab.get laneInit · l) jlane
    obtain ⟨tlane, tso, -, -, tlog, tself, ting, tgive⟩ := useFrame_effect l lg f (jumpCounted l lg s)
    refine ⟨_, hjump, (jumpCounted_frame l lg s).step (useFrame_frame_expected l lg f _ (hexpected.trans hexp)) (by decide),
      tlane.trans jlane, tso.trans ?_, fun k hk => (tlog k hk).trans ((jumpCounted_logical ..).trans (if_neg hk)), tself.trans ?_,
      fun i hi => (ting i hi).trans (congrArg (Tab.get _ · i) jing), fun q hq => (tgive q hq).trans ?_⟩
    · rw [hmal]
      exact ite_raiseLim_so_congr _ (jumpCounted_so ..) hnow ..
    · rw [State.usedLane, hlg, hmal, State.linkCfg_congr hdict, State.wanted_congr hexpected, hwanted]
      rfl
    · rw [State.frameChunks_congr hdict hexpected hmuted, hlane]
      refine congrArg₂ (· ++ ·) (congrArg (Tab.get _ · _) jing) ?_
      rcases Nat.lt_or_gt_of_ne hne with hlt | hgt
      · rw [if_pos hlt, State.frameChunks_after_gap (hwanted ▸ hlt), State.frameGap, hwanted]
        rfl
      · rw [if_neg (Nat.not_lt.2 hgt.le), State.frameChunks_overlap (hwanted ▸ hgt), hwanted]
        rfl

/-! ### Frames on a lane that does not serve yet (03 R549) -/

section checked
variable (l lg : Nat) (f : LinkFrame) (s : State)

theorem checkedFrame_in_time (h : (s.logical lg).expected = none ∨ (s.logical lg).expected = some f.stamp.toNat) :
    checkedFrame l lg f s = takeFrame l lg f s := by
  rcases h with h | h <;> simp [checkedFrame, h]

theorem checkedFrame_jump {e : Nat} (h : (s.logical lg).expected = some e) (he : e ≠ f.stamp.toNat) :
    checkedFrame l lg f s = jumpFrame l lg f s := by
  simp [checkedFrame, h, he.symm]

/-- Of logical lane lg, t keeps what step 8 leaves alone, and the lanes and the other logical lanes. -/
def keepsRouting (s t : State) : Prop :=
  t.lanes.lane = s.lanes.lane ∧ (∀ k, k ≠ lg → t.logical k = s.logical k) ∧
    (t.logical lg).phys = (s.logical lg).phys ∧ (t.logical lg).muted = (s.logical lg).muted

theorem takeFrame_effect : keepsRouting lg s (takeFrame l lg f s) ∧
    ((takeFrame l lg f s).logical lg).framesOk = satAdd 64 (s.logical lg).framesOk 1 ∧
    ((takeFrame l lg f s).logical lg).seqJumps = (s.logical lg).seqJumps := by
  have hok : (okCounted lg f s).logical lg = s.okLane lg f := (okCounted_logical ..).trans (if_pos rfl)
  obtain ⟨tlane, -, -, -, tlog, tself, -⟩ := useFrame_effect l lg f (okCounted lg f s)
  rw [State.usedLane, hok] at tself
  rw [takeFrame_eq, keepsRouting, tself]
  exact ⟨⟨tlane, fun k hk => (tlog k hk).trans ((okCounted_logical ..).trans (if_neg hk)), rfl, rfl⟩, rfl, rfl⟩

theorem jumpFrame_effect {e : Nat} (h : (s.logical lg).expected = some e) : keepsRouting lg s (jumpFrame l lg f s) ∧
    ((jumpFrame l lg f s).logical lg).framesOk = (s.logical lg).framesOk ∧
    ((jumpFrame l lg f s).logical lg).seqJumps = satAdd 32 (s.logical lg).seqJumps 1 := by
  have hlg : (jumpCounted l lg s).logical lg = { s.logical lg with seqJumps := satAdd 32 (s.logical lg).seqJumps 1 } :=
    (jumpCounted_logical ..).trans (if_pos rfl)
  have hother (k : Nat) (hk : k ≠ lg) : (jumpCounted l lg s).logical k = s.logical k := (jumpCounted_logical ..).trans (if_neg hk)
  obtain ⟨jlane, -⟩ := jumpCounted_lanes l lg s
  by_cases hlt : f.stamp.toNat + 1024 * s.linkCfg lg f 4 < e
  · rw [jumpFrame_discarded h hlt, keepsRouting, hlg]
    exact ⟨⟨jlane, hother, rfl, rfl⟩, rfl, rfl⟩
  · obtain ⟨tlane, -, -, -, tlog, tself, -⟩ := useFrame_effect l lg f (jumpCounted l lg s)
    rw [State.usedLane, hlg] at tself
    rw [jumpFrame_used h (Nat.not_lt.1 hlt), keepsRouting, tself]
    exact ⟨⟨tlane.trans jlane, fun k hk => (tlog k hk).trans (hother k hk), rfl, rfl⟩, rfl, rfl⟩

/-- Step 8 counts the frame or a jump, and leaves the routing of the lanes. -/
theorem checkedFrame_effect : let t := checkedFrame l lg f s
    keepsRouting lg s t ∧
      ((s.logical lg).expected = none ∨ (s.logical lg).expected = some f.stamp.toNat →
        (t.logical lg).framesOk = satAdd 64 (s.logical lg).framesOk 1 ∧ (t.logical lg).seqJumps = (s.logical lg).seqJumps) ∧
      ∀ e, (s.logical lg).expected = some e → e ≠ f.stamp.toNat →
        (t.logical lg).framesOk = (s.logical lg).framesOk ∧ (t.logical lg).seqJumps = satAdd 32 (s.logical lg).seqJumps 1 := by
  dsimp only
  by_cases h : (s.logical lg).expected = none ∨ (s.logical lg).expected = some f.stamp.toNat
  · obtain ⟨hkeep, hcount⟩ := takeFrame_effect l lg f s
    rw [checkedFrame_in_time l lg f s h]
    exact ⟨hkeep, fun _ => hcount, fun e he hne => absurd h (by simp [he, hne])⟩
  · obtain ⟨e, he⟩ := Option.ne_none_iff_exists'.1 fun hn => h (.inl hn)
    have hne : e ≠ f.stamp.toNat := fun c => h (.inr (c ▸ he))
    obtain ⟨hkeep, hcount⟩ := jumpFrame_effect l lg f s he
    rw [checkedFrame_jump l lg f s he hne]
    exact ⟨hkeep, fun c => absurd c h, fun _ _ _ => hcount⟩

end checked

section waiting
variable {l lg : Nat} {f : LinkFrame} {s : State}

/-- The errors of a frame that is only tested. -/
def frameErrors (l : Nat) (f : LinkFrame) (s : State) : State :=
  countCode l f.invalid f.disparity (if f.abort ∧ f.invalid = 0 ∧ f.disparity = 0 then countCode l 1 0 s else s)

theorem frameErrors_effect : lanesBut l s (frameErrors l f s) ∧ (frameErrors l f s).lane l = { s.lane l with
    codeErrors := satAdd 32 (if f.abort ∧ f.invalid = 0 ∧ f.disparity = 0 then satAdd 32 (s.lane l).codeErrors 1
                             else (s.lane l).codeErrors) f.invalid
    dispErrors := satAdd 32 (if f.abort ∧ f.invalid = 0 ∧ f.disparity = 0 then satAdd 32 (s.lane l).dispErrors 0
                             else (s.lane l).dispErrors) f.disparity } := by
  unfold frameErrors
  by_cases h : f.abort ∧ f.invalid = 0 ∧ f.disparity = 0
  · simp only [if_pos h]
    refine ⟨(lanesBut_modLane _).trans (lanesBut_modLane _), ?_⟩
    rw [countCode, State.lane_modLane_self, countCode, State.lane_modLane_self]
  · simp only [if_neg h]
    exact ⟨lanesBut_modLane _, State.lane_modLane_self _⟩

theorem frameErrors_frame : Frame [.lanes] s (frameErrors l f s) := by
  unfold frameErrors
  split
  · exact (countCode_frame ..).step (countCode_frame ..) (by decide)
  · exact countCode_frame ..

theorem linkFrame_tested (hs : s.servedBy l = none) (hlisten : (s.lane l).rx.listening = true) (hloop : (s.lane l).loopback = 0)
    (hask : ∀ lg since, (s.lane l).spare = .asking lg since → wouldTake s lg f = false)
    (hret : returning l s → (s.lane l).rx = .sync → wouldTake s l f = false) : linkFrame l f s = frameErrors l f s := by
  by_cases hl : l < 96
  · by_cases hback : (s.lane (coverSpare l)).spare = .leaving l ∧ (s.lane l).rx = .sync
    · have hw := hret ⟨hl, hback.1⟩ hback.2
      simp [linkFrame, frameErrors, hs, hloop, hl, hlisten, hw]
    · have hno (p q : Prop) : ¬ ((s.lane (coverSpare l)).spare = .leaving l ∧ (s.lane l).rx = .sync ∧ p ∧ q) :=
        fun c => hback ⟨c.1, c.2.1⟩
      simp [linkFrame, frameErrors, hs, hloop, hl, hlisten, hno]
  · cases hspare : (s.lane l).spare with
    | asking lg since =>
      have hw := hask lg since hspare
      simp [linkFrame, frameErrors, hs, hloop, hl, hlisten, hspare, hw]
    | free | serving | leaving => simp [linkFrame, frameErrors, hs, hloop, hl, hlisten, hspare]

theorem linkFrame_spare {since : Nat} (hs : s.servedBy l = none) (hloop : (s.lane l).loopback = 0) (hl : 96 ≤ l)
    (hrun : (s.lane l).rx = .running) (hask : (s.lane l).spare = .asking lg since) (hw : wouldTake s lg f = true) :
    linkFrame l f s = spareTakes l lg f s := by
  simp [linkFrame, hs, hloop, Nat.not_lt.2 hl, hask, hrun, hw]

theorem linkFrame_home (hs : s.servedBy l = none) (hloop : (s.lane l).loopback = 0) (hret : returning l s)
    (hrx : (s.lane l).rx = .sync) (hw : wouldTake s l f = true)
    (hlast : ∀ x, (s.logical l).lastTaken = some x → x < f.stamp.toNat) : linkFrame l f s = homeTakes l f s := by
  obtain ⟨hl, hsp⟩ := hret
  cases hlt : (s.logical l).lastTaken with
  | none => simp [linkFrame, hs, hloop, hl, hsp, hrx, hw, hlt]
  | some x => simp [linkFrame, hs, hloop, hl, hsp, hrx, hw, hlt, hlast x hlt]

end waiting

/-! ### A spare takes over, and the home lane takes back (03 R78, R80) -/

section takes
variable (l lg : Nat) (f : LinkFrame) (s : State)

/-- The lanes when spare l takes over logical lane lg: it serves, and the lane that served is spared out. -/
def spareServes : State :=
  (s.modLane l fun v => { v with spare := .serving lg }).modLane (s.serving lg)
    fun v => { v with sparedOut := true, resume := false }

/-- The spare before step 8 of the frame that it takes. -/
def spareRouted : State :=
  raise l 0x0C 0 ((spareServes l lg s).modLogical lg fun g => { g with phys := some l, muted := false })

theorem spareTakes_eq : spareTakes l lg f s = checkedFrame l lg f (spareRouted l lg s) := rfl

theorem spareRouted_lane (m : Nat) : (spareRouted l lg s).lane m = (spareServes l lg s).lane m := State.lane_raise ..

theorem spareServes_lane (m : Nat) : (spareServes l lg s).lane m =
    let v := if m = l then { s.lane l with spare := .serving lg } else s.lane m
    if m = s.serving lg then { v with sparedOut := true, resume := false } else v := by
  rw [spareServes, State.lane_modLane, State.lane_modLane, State.lane_modLane]
  dsimp only
  by_cases h : m = s.serving lg
  · rw [if_pos h, if_pos h, h]
  · rw [if_neg h, if_neg h]

theorem spareRouted_logical (k : Nat) : (spareRouted l lg s).logical k =
    if k = lg then { s.logical lg with phys := some l, muted := false } else s.logical k := by
  rw [spareRouted, State.logical_raise, State.logical_modLogical]
  rfl

/-- The lanes when home lane l takes its logical lane back: it runs, and the spare is free. -/
def homeServes : State :=
  (s.modLane (coverSpare l) fun v => { v with spare := .free, mirror := 255, resume := false, leftAt := none,
                                              rx := if v.rx = .running then .sync else v.rx }).modLane l
    fun v => { v with sparedOut := false, rx := .running, resume := true, startPm := s.pm, leftAt := none }

/-- The home lane before step 8 of the frame that it takes. -/
def homeRouted : State := (homeServes l s).modLogical l fun g => { g with phys := none, muted := false }

theorem homeTakes_eq : homeTakes l f s = checkedFrame l l f (homeRouted l s) := rfl

theorem homeServes_lane_self (h : l < 96) : (homeServes l s).lane l =
    { s.lane l with sparedOut := false, rx := .running, resume := true, startPm := s.pm, leftAt := none } := by
  rw [homeServes, State.lane_modLane_self, State.lane_modLane, if_neg (coverSpare_ne h).symm]

theorem homeServes_lane_spare (h : l < 96) : (homeServes l s).lane (coverSpare l) =
    { s.lane (coverSpare l) with
      spare := .free, mirror := 255, resume := false, leftAt := none
      rx := if (s.lane (coverSpare l)).rx = .running then .sync else (s.lane (coverSpare l)).rx } := by
  rw [homeServes, State.lane_modLane, if_neg (coverSpare_ne h), State.lane_modLane_self]

theorem homeServes_lane_other {m : Nat} (hm : m ≠ l) (hsp : m ≠ coverSpare l) : (homeServes l s).lane m = s.lane m := by
  rw [homeServes, State.lane_modLane, if_neg hm, State.lane_modLane, if_neg hsp]

theorem homeRouted_logical (k : Nat) : (homeRouted l s).logical k =
    if k = l then { s.logical l with phys := none, muted := false } else s.logical k := by
  rw [homeRouted, State.logical_modLogical]
  rfl

end takes

theorem State.lane_of_table {s t : State} (h : t.lanes.lane = s.lanes.lane) (m : Nat) : t.lane m = s.lane m :=
  congrArg (Tab.get laneInit · m) h

theorem exec_sampleLinkFrame (l : Fin 100) (f : LinkFrame) (s : State) :
    exec (.sampleLinkFrame l f) s = .next (linkFrame l f s) := rfl

/-- Settles O8: until a lane takes a frame only its errors count; a taken frame moves the routing and goes through step 8. -/
theorem framesBeforeALaneServesAreOnlyTested : Obligations.FramesBeforeALaneServesAreOnlyTested := by
  unfold Obligations.FramesBeforeALaneServesAreOnlyTested
  intro l f s hs hlisten hloop
  refine ⟨fun hask hret => ?tested, fun lg since hl hrun hask _ hw => ?spare, fun hl hret hrx hw hlast => ?home⟩
  case tested =>
    rw [completes, exec_sampleLinkFrame, linkFrame_tested hs hlisten hloop hask hret]
    exact ⟨_, rfl, frameErrors_frame, frameErrors_effect⟩
  case spare =>
    obtain ⟨⟨tlane, tlog, tphys, tmuted⟩, tok, tjump⟩ := checkedFrame_effect l lg f (spareRouted l lg s)
    have hlg : (spareRouted l lg s).logical lg = { s.logical lg with phys := some l.val, muted := false } :=
      (spareRouted_logical ..).trans (if_pos rfl)
    have hlane (m : Nat) := (State.lane_of_table tlane m).trans ((spareRouted_lane ..).trans (spareServes_lane l lg s m))
    simp only [hlg] at tphys tmuted tok tjump
    rw [completes, exec_sampleLinkFrame, linkFrame_spare hs hloop hl hrun hask hw]
    refine ⟨_, rfl, (spareTakes_frame ..).weaken (by decide), ?_, ?_, ?_, ?_, tmuted, tok, tjump, fun m hm hhome => ?_,
      fun k hk => (tlog k hk).trans ((spareRouted_logical ..).trans (if_neg hk))⟩
    · rw [spareTakes_eq, State.serving, tphys]
    · rw [spareTakes_eq, hlane, if_pos rfl]
      dsimp only
      split <;> rfl
    · rw [spareTakes_eq, hlane, if_pos rfl]
    · rw [spareTakes_eq, hlane, if_pos rfl]
    · rw [spareTakes_eq, hlane, if_neg hhome, if_neg hm]
  case home =>
    obtain ⟨⟨tlane, tlog, tphys, tmuted⟩, tok, tjump⟩ := checkedFrame_effect l l f (homeRouted l s)
    have hlg : (homeRouted l s).logical l = { s.logical l with phys := none, muted := false } :=
      (homeRouted_logical ..).trans (if_pos rfl)
    have hlane (m : Nat) : _ = (homeServes l s).lane m := State.lane_of_table tlane m
    have hself := (hlane l).trans (homeServes_lane_self l s hl)
    have hspare := (hlane (coverSpare l)).trans (homeServes_lane_spare l s hl)
    simp only [hlg] at tphys tmuted tok tjump
    rw [completes, exec_sampleLinkFrame, linkFrame_home hs hloop hret hrx hw hlast]
    exact ⟨_, rfl, (homeTakes_frame ..).weaken (by decide), by rw [homeTakes_eq, State.serving, tphys],
      congrArg Lane.sparedOut hself, congrArg Lane.rx hself, congrArg Lane.spare hspare, congrArg Lane.mirror hspare,
      congrArg Lane.rx hspare, tmuted, tok, tjump, fun m hm hsp => (hlane m).trans (homeServes_lane_other l s hm hsp),
      fun k hk => (tlog k hk).trans ((homeRouted_logical ..).trans (if_neg hk))⟩

end Sys2Proof.Machine
end

section
/-! Delay records (04 R105 to R112): what a live record and a frame start do to an input's conditioning (O9). -/

namespace Sys2Proof.Machine

open Sys2Proof

/-! ### The conditioning of one input changes -/

section condBut
variable {i : Nat} {s t u : State}

theorem State.cond_raise (src kind addr k : Nat) (s : State) : (raise src kind addr s).cond k = s.cond k := by
  rw [State.cond, raise_filt]; rfl

/-- The filter chain is as before but for the conditioning of input i. -/
def condBut (i : Nat) (s t : State) : Prop := filtButInput i s t ∧ t.gain i = s.gain i

theorem condBut_of_filt (h : t.filt = s.filt) : condBut i s t := by
  simp [condBut, filtButInput, State.cond, State.gain, h]

theorem condBut.trans (h : condBut i s t) (k : condBut i t u) : condBut i s u := by
  obtain ⟨⟨hin, heng, hwords, hblock⟩, hgain⟩ := h
  obtain ⟨⟨kin, keng, kwords, kblock⟩, kgain⟩ := k
  exact ⟨⟨fun m hm => ⟨(kin m hm).1.trans (hin m hm).1, (kin m hm).2.trans (hin m hm).2⟩, keng.trans heng, kwords.trans hwords,
    kblock.trans hblock⟩, kgain.trans hgain⟩

theorem condBut_setCond (i : Nat) (q : Cond) (s : State) : condBut i s (s.setCond i q) :=
  ⟨⟨fun _ hm => ⟨(State.cond_setCond ..).trans (if_neg hm), rfl⟩, rfl, rfl, rfl⟩, rfl⟩

theorem condBut.raise (src kind addr : Nat) (h : condBut i s t) : condBut i s (raise src kind addr t) :=
  h.trans (condBut_of_filt (raise_filt ..))

theorem State.cond_setCond_self (i : Nat) (q : Cond) (s : State) : (s.setCond i q).cond i = q :=
  (State.cond_setCond ..).trans (if_pos rfl)

end condBut

/-! ### A live record arrives -/

section arrives
variable (i r : Nat) (s : State)

/-- The record as the engine holds it (04 Table 04.2). -/
abbrev State.heldRecord : DelayRec := decodeDelay (s.inF (bits 63 0 r) i) r

variable {i r s}

theorem delayRecordOp_discarded (h : (s.cond i).live = false ∨ (s.heldRecord i r).eff ≤ (s.cond i).cur.eff) :
    delayRecordOp i r s = raise (engSrc (i / 16)) 3 i
      (s.setCond i { s.cond i with discarded := satAdd 32 (s.cond i).discarded 1 }) := if_pos h

theorem delayRecord_not_discarded (hlive : (s.cond i).live = true) (heff : (s.cond i).cur.eff < (s.heldRecord i r).eff) :
    ¬ ((s.cond i).live = false ∨ (s.heldRecord i r).eff ≤ (s.cond i).cur.eff) := by
  rw [hlive]
  simpa using heff

theorem delayRecordOp_held (hlive : (s.cond i).live = true) (heff : (s.cond i).cur.eff < (s.heldRecord i r).eff)
    (hnext : (s.cond i).next = none) :
    delayRecordOp i r s = s.setCond i { s.cond i with next := some (s.heldRecord i r) } := by
  rw [delayRecordOp, if_neg (delayRecord_not_discarded hlive heff), hnext]

theorem delayRecordOp_replaced (hlive : (s.cond i).live = true) (heff : (s.cond i).cur.eff < (s.heldRecord i r).eff)
    (hnext : (s.cond i).next ≠ none) :
    delayRecordOp i r s = raise (engSrc (i / 16)) 2 i (s.setCond i
      { s.cond i with next := some (s.heldRecord i r), replaced := true, replacedN := satAdd 32 (s.cond i).replacedN 1 }) := by
  obtain ⟨n, hn⟩ := Option.ne_none_iff_exists'.1 hnext
  rw [delayRecordOp, if_neg (delayRecord_not_discarded hlive heff), hn]

/-- The state with the record as the value of its object (14 R393). -/
abbrev State.recordKept (s : State) (i r : Nat) : State := keepLive (ob (inIdx i) 0x10) (toBytes 32 r) s

theorem exec_delayRecord (i : Fin 384) (r : BitVec 256) :
    exec (.delayRecord i r) s = .next (delayRecordOp i r.toNat (s.recordKept i r.toNat)) := rfl

theorem completes_delayRecord {i : Fin 384} {r : BitVec 256} {kind : Nat} {q : Cond}
    (h : delayRecordOp i r.toNat (s.recordKept i r.toNat) = raise (engSrc (i / 16)) kind i ((s.recordKept i r.toNat).setCond i q)) :
    completes (.delayRecord i r) s fun t => Frame [.filt, .so, .dict] s t ∧ filtButInput i s t ∧
      t.dict = (s.recordKept i r.toNat).dict ∧ raisedOnly [(engSrc (i / 16), kind, i)] s t ∧ t.gain i = s.gain i ∧ t.cond i = q := by
  have hbut : condBut i s ((s.recordKept i r.toNat).setCond i q) := (condBut_of_filt rfl).trans (condBut_setCond ..)
  obtain ⟨hfilt, hgain⟩ := hbut.raise (engSrc (i / 16)) kind i
  have hframe : Frame [.filt, .dict] s ((s.recordKept i r.toNat).setCond i q) :=
    ((keepLive_frame ..).weaken (by decide)).step (State.setCond_frame ..) (by decide)
  rw [completes, exec_delayRecord, h]
  exact ⟨_, rfl, (hframe.weaken (by decide)).step (raise_frame ..) (by decide), hfilt, raise_dict .., raisedOnly_raise _ _ _ rfl,
    hgain, (State.cond_raise ..).trans (State.cond_setCond_self ..)⟩

theorem completes_delayRecord_quiet {i : Fin 384} {r : BitVec 256} {q : Cond}
    (h : delayRecordOp i r.toNat (s.recordKept i r.toNat) = (s.recordKept i r.toNat).setCond i q) :
    completes (.delayRecord i r) s fun t => Frame [.filt, .dict] s t ∧ filtButInput i s t ∧
      t.dict = (s.recordKept i r.toNat).dict ∧ t.gain i = s.gain i ∧ t.cond i = q := by
  obtain ⟨hfilt, hgain⟩ : condBut i s ((s.recordKept i r.toNat).setCond i q) := (condBut_of_filt rfl).trans (condBut_setCond ..)
  rw [completes, exec_delayRecord, h]
  exact ⟨_, rfl, ((keepLive_frame ..).weaken (by decide)).step (State.setCond_frame ..) (by decide), hfilt, rfl, hgain,
    State.cond_setCond_self ..⟩

end arrives

/-! ### The rows at a frame start -/

theorem stepTo_eq (d : Nat) (q : Cond) :
    stepTo d q = { q with d := d, steps := if d = q.d then q.steps else satAdd 32 q.steps 1 } := by
  unfold stepTo
  split
  · next h => rw [← h, if_pos rfl]
  · next h => rw [if_neg fun e => h e.symm]

@[simp] theorem stepTo_live (d : Nat) (q : Cond) : (stepTo d q).live = q.live := by rw [stepTo_eq]
@[simp] theorem stepTo_cur (d : Nat) (q : Cond) : (stepTo d q).cur = q.cur := by rw [stepTo_eq]
@[simp] theorem stepTo_next (d : Nat) (q : Cond) : (stepTo d q).next = q.next := by rw [stepTo_eq]
@[simp] theorem stepTo_replaced (d : Nat) (q : Cond) : (stepTo d q).replaced = q.replaced := by rw [stepTo_eq]
@[simp] theorem stepTo_stale (d : Nat) (q : Cond) : (stepTo d q).stale = q.stale := by rw [stepTo_eq]
@[simp] theorem stepTo_late (d : Nat) (q : Cond) : (stepTo d q).late = q.late := by rw [stepTo_eq]
@[simp] theorem stepTo_d (d : Nat) (q : Cond) : (stepTo d q).d = d := by rw [stepTo_eq]

/-- A live record is older than delay_stale_ms at x (04 R112). -/
def State.outlived (s : State) (r : DelayRec) (x : Nat) : Bool := decide (r.eff + ms (s.cfgAt x (ob 0x5000 2)) < x)

/-- The longest delay of input i at x (04 R101). -/
def State.longestDelay (s : State) (i x : Nat) : Nat := if s.cplxIn x i then 32767 else 65535

/-- The record that becomes current at frame start x, if the next one's EFF′ has come (04 R110). -/
def Cond.dueRecord (q : Cond) (x : Nat) : Option DelayRec := q.next.filter fun r => decide (r.eff ≤ x)

/-- The input with record r current from x on, the delay being top at most (04 R101, R110). -/
def Cond.switchTo (r : DelayRec) (top x : Nat) (q : Cond) : Cond :=
  stepTo (min r.dint top) { q with cur := r, next := none, replaced := false, stale := false, range := false,
                                   late := if r.eff < x then satAdd 32 q.late 1 else q.late }

/-- A static input that a commit makes live at x, st being its static delay (04 R111). -/
def Cond.startLive (st x : Nat) (q : Cond) : Cond :=
  stepTo st { q with live := true, cur := { eff := x, dint := st }, next := none }

/-- A live input that a commit makes static at x. -/
def Cond.stopLive (st x : Nat) (q : Cond) : Cond :=
  stepTo st { q with live := false, cur := { eff := x, dint := st }, next := none, replaced := false, stale := false,
                     range := false }

/-- A static input takes the static delay. -/
def Cond.holdStatic (st : Nat) (q : Cond) : Cond := stepTo st { q with cur := { q.cur with dint := st } }

/-- What frame start x makes of the records and the delay of input i, but for DELAY_RANGE: the rows of 04 R110 to R112. -/
def State.decided (s : State) (i x : Nat) : Cond :=
  let q := s.cond i
  let st := s.inCfg x i 9
  if q.live = false then if s.inCfg x i 8 = 1 then q.startLive st x else q.holdStatic st
  else if s.inCfg x i 8 = 0 then q.stopLive st x
  else match q.dueRecord x with
    | some r => { q.switchTo r (s.longestDelay i x) x with stale := s.outlived r x }
    | none => { q with stale := q.stale || s.outlived q.cur x }

section rows
variable {i x : Nat} {s : State}

theorem State.decided_started (hlive : (s.cond i).live = false) (hsrc : s.inCfg x i 8 = 1) :
    s.decided i x = (s.cond i).startLive (s.inCfg x i 9) x := (if_pos hlive).trans (if_pos hsrc)

theorem State.decided_static (hlive : (s.cond i).live = false) (hsrc : s.inCfg x i 8 ≠ 1) :
    s.decided i x = (s.cond i).holdStatic (s.inCfg x i 9) := (if_pos hlive).trans (if_neg hsrc)

theorem State.decided_stopped (hlive : (s.cond i).live = true) (hsrc : s.inCfg x i 8 = 0) :
    s.decided i x = (s.cond i).stopLive (s.inCfg x i 9) x := (if_neg (ne_false_of_eq_true hlive)).trans (if_pos hsrc)

theorem State.decided_switched (hlive : (s.cond i).live = true) (hsrc : s.inCfg x i 8 ≠ 0) {r : DelayRec}
    (hdue : (s.cond i).dueRecord x = some r) :
    s.decided i x = { (s.cond i).switchTo r (s.longestDelay i x) x with stale := s.outlived r x } := by
  rw [State.decided, if_neg (ne_false_of_eq_true hlive), if_neg hsrc, hdue]

theorem State.decided_kept (hlive : (s.cond i).live = true) (hsrc : s.inCfg x i 8 ≠ 0) (hdue : (s.cond i).dueRecord x = none) :
    s.decided i x = { s.cond i with stale := (s.cond i).stale || s.outlived (s.cond i).cur x } := by
  rw [State.decided, if_neg (ne_false_of_eq_true hlive), if_neg hsrc, hdue]

theorem Cond.dueRecord_eq_some {q : Cond} {r : DelayRec} : q.dueRecord x = some r ↔ q.next = some r ∧ r.eff ≤ x := by
  simp [Cond.dueRecord, Option.filter_eq_some_iff]

theorem Cond.dueRecord_eq_none {q : Cond} : q.dueRecord x = none ↔ ∀ r, q.next = some r → ¬ r.eff ≤ x := by
  simp [Cond.dueRecord]

/-! The three stages of a frame start come to `State.decided`. -/

theorem delayCommit_started (hlive : (s.cond i).live = false) (hsrc : s.inCfg x i 8 = 1) :
    delayCommit i x s = s.setCond i ((s.cond i).startLive (s.inCfg x i 9) x) := if_pos ⟨hlive, hsrc⟩

theorem delayCommit_static (hlive : (s.cond i).live = false) (hsrc : s.inCfg x i 8 ≠ 1) :
    delayCommit i x s = s.setCond i ((s.cond i).holdStatic (s.inCfg x i 9)) := by
  simp [delayCommit, hlive, hsrc, Cond.holdStatic]

theorem delayCommit_stopped (hlive : (s.cond i).live = true) (hsrc : s.inCfg x i 8 = 0) :
    delayCommit i x s = s.setCond i ((s.cond i).stopLive (s.inCfg x i 9) x) := by
  simp [delayCommit, hlive, hsrc, Cond.stopLive]

theorem delayCommit_live (hlive : (s.cond i).live = true) (hsrc : s.inCfg x i 8 ≠ 0) : delayCommit i x s = s := by
  simp [delayCommit, hlive, hsrc]

theorem rangeCard_cond (e i : Nat) (hit : Bool) (s : State) :
    ∃ range, (rangeCard e i hit s).cond i = { s.cond i with range := range } := by
  unfold rangeCard
  dsimp only
  split
  · exact ⟨true, (State.cond_raise ..).trans (State.cond_setCond_self ..)⟩
  · exact ⟨_, rfl⟩

theorem delaySwitch_idle (h : (s.cond i).live = false ∨ (s.cond i).dueRecord x = none) : delaySwitch i x s = s := by
  unfold delaySwitch
  dsimp only
  split
  · next r hlive hnext =>
    rcases h with h | h
    · cases hlive.symm.trans h
    · exact if_neg (Cond.dueRecord_eq_none.1 h r hnext)
  · rfl

theorem delaySwitch_due {r : DelayRec} (hlive : (s.cond i).live = true) (hdue : (s.cond i).dueRecord x = some r) :
    let u := s.setCond i ((s.cond i).switchTo r (s.longestDelay i x) x)
    delaySwitch i x s = rangeCard (engSrc (i / 16)) i (decide (s.longestDelay i x < r.dint))
      (if r.eff < x then raise (engSrc (i / 16)) 1 i u else u) := by
  obtain ⟨hnext, heff⟩ := Cond.dueRecord_eq_some.1 hdue
  unfold delaySwitch
  dsimp only
  split
  · next r' _ hnext' =>
    obtain rfl := Option.some.inj (hnext'.symm.trans hnext)
    exact if_pos heff
  · next h => exact (h r hlive hnext).elim

theorem delaySwitch_cond_due {r : DelayRec} (hlive : (s.cond i).live = true) (hdue : (s.cond i).dueRecord x = some r) :
    ∃ range, (delaySwitch i x s).cond i = { (s.cond i).switchTo r (s.longestDelay i x) x with range := range } := by
  rw [delaySwitch_due hlive hdue]
  obtain ⟨range, h⟩ := rangeCard_cond (engSrc (i / 16)) i (decide (s.longestDelay i x < r.dint)) _
  refine ⟨range, h.trans ?_⟩
  rw [proj_ite_raise (g := (·.cond i)) fun _ _ _ _ => State.cond_raise .., State.cond_setCond_self]

/-- The kernel meets this identity with q a variable here, and not with the reading of a table. -/
theorem Cond.with_range_self (q : Cond) : { q with range := q.range } = q := rfl

theorem delayStale_raised (h : (s.cond i).live = true ∧ s.outlived (s.cond i).cur x = true ∧ (s.cond i).stale = false) :
    delayStale i x s = raise (engSrc (i / 16)) 4 i (s.setCond i { s.cond i with stale := true }) :=
  if_pos (h.imp_right (And.imp_left of_decide_eq_true))

theorem delayStale_quiet (h : ¬ ((s.cond i).live = true ∧ s.outlived (s.cond i).cur x = true ∧ (s.cond i).stale = false)) :
    delayStale i x s = s := if_neg (mt (And.imp_right (And.imp_left decide_eq_true)) h)

theorem delayStale_cond : (delayStale i x s).cond i =
    { s.cond i with stale := (s.cond i).stale || ((s.cond i).live && s.outlived (s.cond i).cur x) } := by
  by_cases h : (s.cond i).live = true ∧ s.outlived (s.cond i).cur x = true ∧ (s.cond i).stale = false
  · rw [delayStale_raised h, State.cond_raise, State.cond_setCond_self]
    obtain ⟨hlive, hold, -⟩ := h
    rw [hlive, hold, Bool.true_and, Bool.or_true]
  · rw [delayStale_quiet h]
    generalize s.cond i = q at h
    have hstale : (q.stale || (q.live && s.outlived q.cur x)) = q.stale := by grind
    rw [hstale]

/-- The three stages of a frame start at input i (04 R110 to R112). -/
abbrev recordsDecided (i x : Nat) (s : State) : State := delayStale i x (delaySwitch i x (delayCommit i x s))

/-- After a commit row no record is due, and the current one is not old. -/
theorem recordsDecided_of_commit {q : Cond} (hcommit : delayCommit i x s = s.setCond i q)
    (hrow : q.live = false ∨ q.next = none ∧ q.cur.eff = x) : (recordsDecided i x s).cond i = q := by
  have hself : (s.setCond i q).cond i = q := State.cond_setCond_self ..
  have hidle : q.live = false ∨ q.dueRecord x = none := hrow.imp_right fun h => by simp [Cond.dueRecord, h.1]
  have hfresh : (q.live && (s.setCond i q).outlived q.cur x) = false := by
    rcases hrow with h | ⟨-, h⟩
    · simp [h]
    · simp [State.outlived, h]
  rw [recordsDecided, hcommit, delaySwitch_idle (by rwa [hself]), delayStale_cond, hself, hfresh, Bool.or_false]

theorem recordsDecided_cond : ∃ range, (recordsDecided i x s).cond i = { s.decided i x with range := range } := by
  cases hlive : (s.cond i).live
  case false =>
    by_cases hsrc : s.inCfg x i 8 = 1
    · rw [recordsDecided_of_commit (delayCommit_started hlive hsrc) (.inr (by simp [Cond.startLive])),
        State.decided_started hlive hsrc]
      exact ⟨_, (Cond.with_range_self _).symm⟩
    · rw [recordsDecided_of_commit (delayCommit_static hlive hsrc) (.inl (by simp [Cond.holdStatic, hlive])),
        State.decided_static hlive hsrc]
      exact ⟨_, (Cond.with_range_self _).symm⟩
  case true =>
    by_cases hsrc : s.inCfg x i 8 = 0
    · rw [recordsDecided_of_commit (delayCommit_stopped hlive hsrc) (.inl (by simp [Cond.stopLive])),
        State.decided_stopped hlive hsrc]
      exact ⟨_, (Cond.with_range_self _).symm⟩
    · rw [recordsDecided, delayCommit_live hlive hsrc, delayStale_cond]
      cases hdue : (s.cond i).dueRecord x
      case none =>
        rw [delaySwitch_idle (.inr hdue), State.decided_kept hlive hsrc hdue, hlive, Bool.true_and]
        exact ⟨_, rfl⟩
      case some r =>
        obtain ⟨range, hswitch⟩ := delaySwitch_cond_due hlive hdue
        have hold : (delaySwitch i x s).outlived = s.outlived :=
          funext fun _ => funext fun _ => by rw [State.outlived, State.cfgAt_of_dict ((delaySwitch_frame ..).get .dict)]; rfl
        have hstale : (((s.cond i).switchTo r (s.longestDelay i x) x).stale ||
            (((s.cond i).switchTo r (s.longestDelay i x) x).live &&
              s.outlived ((s.cond i).switchTo r (s.longestDelay i x) x).cur x)) = s.outlived r x := by
          simp [Cond.switchTo, hlive]
        rw [hswitch, State.decided_switched hlive hsrc hdue, hold]
        dsimp only
        rw [hstale]
        exact ⟨range, rfl⟩

theorem State.decided_rest : s.decided i x =
    { s.cond i with live := (s.decided i x).live, cur := (s.decided i x).cur, next := (s.decided i x).next,
                    replaced := (s.decided i x).replaced, stale := (s.decided i x).stale, range := (s.decided i x).range,
                    d := (s.decided i x).d, late := (s.decided i x).late, steps := (s.decided i x).steps } := by
  unfold State.decided Cond.startLive Cond.holdStatic Cond.stopLive Cond.switchTo
  simp only [stepTo_eq]
  split
  · split <;> rfl
  · split
    · rfl
    · split <;> rfl

theorem State.decided_steps : (s.decided i x).steps =
    if (s.decided i x).d = (s.cond i).d then (s.cond i).steps else satAdd 32 (s.cond i).steps 1 := by
  unfold State.decided Cond.startLive Cond.holdStatic Cond.stopLive Cond.switchTo
  simp only [stepTo_eq]
  split
  · split <;> rfl
  · split
    · rfl
    · split
      · rfl
      · exact (if_pos rfl).symm

/-- What the conditioning section decides for frame x of input i (04 R109, R112, R113). -/
def State.frameRec (s : State) (i x : Nat) : FrameRec :=
  let q := s.decided i x
  { dr := if q.live then q.cur else { eff := x }
    marked := decide ((q.live ∧ q.stale ∧ s.cfgAt x (ob 0x5000 3) = 1) ∨ s.inCfg x i 1 = 0) }

theorem frameStartOp_cond : ∃ range, (frameStartOp i x s).cond i = { s.decided i x with
    range := range, frame := some x,
    frames := ((s.cond i).frames.set frameInit x (s.frameRec i x)).forget (8 * s.inF x i) x } := by
  obtain ⟨range, hrecords⟩ := recordsDecided_cond (i := i) (x := x) (s := s)
  unfold frameStartOp
  dsimp only
  rw [State.cond_setCond_self]
  obtain ⟨range', hcard⟩ := rangeCard_cond (engSrc (i / 16)) i _ (recordsDecided i x s)
  rw [hcard, hrecords, State.decided_rest]
  exact ⟨range', rfl⟩

theorem rangeCard_condBut (e : Nat) (hit : Bool) : condBut i s (rangeCard e i hit s) := by
  unfold rangeCard
  dsimp only
  split
  · exact (condBut_setCond ..).raise ..
  · exact condBut_of_filt rfl

theorem delayCommit_condBut : condBut i s (delayCommit i x s) := by
  unfold delayCommit
  dsimp only
  split
  · exact condBut_setCond ..
  · split
    · exact condBut_setCond ..
    · split
      · exact condBut_setCond ..
      · exact condBut_of_filt rfl

theorem delaySwitch_condBut : condBut i s (delaySwitch i x s) := by
  unfold delaySwitch
  dsimp only
  split
  · split
    · refine condBut.trans ?_ (rangeCard_condBut ..)
      split
      · exact (condBut_setCond ..).raise ..
      · exact condBut_setCond ..
    · exact condBut_of_filt rfl
  · exact condBut_of_filt rfl

theorem delayStale_condBut : condBut i s (delayStale i x s) := by
  unfold delayStale
  dsimp only
  split
  · exact (condBut_setCond ..).raise ..
  · exact condBut_of_filt rfl

theorem frameStartOp_condBut : condBut i s (frameStartOp i x s) :=
  (((delayCommit_condBut.trans delaySwitch_condBut).trans delayStale_condBut).trans (rangeCard_condBut ..)).trans
    (condBut_setCond ..)

/-- A frame's decision stays in the table: the entry that goes is eight frames older. -/
theorem frames_get (hF : 0 < s.inF x i) (t : Tab FrameRec) (r : FrameRec) :
    ((t.set frameInit x r).forget (8 * s.inF x i) x).get frameInit x = r := by
  rw [Tab.get_forget, if_neg (by omega), Tab.get_set_self]

end rows

theorem exec_delayFrameStart (i : Fin 384) (x : BitVec 64) (s : State) : exec (.delayFrameStart i x) s =
    .next (if s.frameDue i x.toNat = true ∧ ((s.cond i).nextOut = none ∨ (s.cond i).nextOut = some x.toNat) ∧
      s.outDue i x.toNat = true then frameStartOp i x.toNat s else s) := by
  refine congrArg Host.Outcome.next (if_congr ?_ rfl rfl)
  cases (s.cond i).nextOut <;> simp [and_assoc]

/-- Settles O9: a live record meets one of the three cases of `delayRecordOp`; a frame start comes to the rows of `State.decided`. -/
theorem delayRecordsAreHeldAndSwitchedAtFrameStarts : Obligations.DelayRecordsAreHeldAndSwitchedAtFrameStarts := by
  unfold Obligations.DelayRecordsAreHeldAndSwitchedAtFrameStarts
  intro i s
  dsimp only
  refine ⟨fun r => ?arrives, fun x hdue hhere hout hF => ?decided, fun x h => ?other⟩
  case arrives =>
    exact ⟨fun h => completes_delayRecord (delayRecordOp_discarded (s := s.recordKept i r.toNat) h),
      fun ⟨hlive, heff, hnext⟩ => completes_delayRecord_quiet (delayRecordOp_held (s := s.recordKept i r.toNat) hlive heff hnext),
      fun ⟨hlive, heff, hnext⟩ => completes_delayRecord (delayRecordOp_replaced (s := s.recordKept i r.toNat) hlive heff hnext)⟩
  case other =>
    rw [exec_delayFrameStart, if_neg h]
  case decided =>
    rw [completes, exec_delayFrameStart, if_pos ⟨hdue, hhere, hout⟩]
    refine ⟨_, rfl, ?_⟩
    obtain ⟨range, hcond⟩ := frameStartOp_cond (i := i) (x := x.toNat) (s := s)
    obtain ⟨hbut, hgain⟩ := frameStartOp_condBut (i := i) (x := x.toNat) (s := s)
    rw [hcond]
    dsimp only
    rw [frames_get hF]
    refine ⟨(frameStartOp_frame ..).weaken (by decide), hbut, hgain, ?rest, State.decided_steps, rfl, decide_eq_true_iff,
      fun ⟨hlive, hsrc⟩ => ?started, fun ⟨hlive, hsrc⟩ => ?stopped, fun ⟨hlive, hsrc⟩ => ?static,
      fun r hlive hsrc hnext heff => ?switched, fun ⟨hlive, hsrc, hnot⟩ => ?kept⟩
    case rest => conv_lhs => rw [State.decided_rest]
    case started =>
      rw [State.decided_started hlive hsrc]
      simp [Cond.startLive]
    case stopped =>
      rw [State.decided_stopped hlive hsrc]
      simp [Cond.stopLive]
    case static =>
      rw [State.decided_static hlive hsrc]
      simp [Cond.holdStatic, hlive]
    case switched =>
      rw [State.decided_switched hlive hsrc (Cond.dueRecord_eq_some.2 ⟨hnext, heff⟩)]
      simp [Cond.switchTo, hlive, State.longestDelay]
    case kept =>
      have hdue : (s.cond i).dueRecord x.toNat = none :=
        Cond.dueRecord_eq_none.2 fun r hnext heff => hnot ⟨hlive, hsrc, r, hnext, heff⟩
      rw [State.decided_kept hlive hsrc hdue]
      simp [hlive, State.outlived]

end Sys2Proof.Machine
end

section
/-! Conditioning (04 R97 to R102, R115): what conditioning_clear clears (O11), and the overlap mark of a sample that comes to an
empty window (O10). -/

namespace Sys2Proof.Machine

open Sys2Proof

/-! ### Counters cleared for many units -/

/-- A loop whose step k applies one function to unit k alone applies it to each unit of its range once. -/
theorem forRange_each {α : Type} {f : Nat → State → State} {g : State → Nat → α} {new : α → α}
    (h : ∀ k v j, g (f k v) j = if j = k then new (g v j) else g v j) (n : Nat) (s : State) (j : Nat) :
    g (forRange n f s) j = if j < n then new (g s j) else g s j := by
  refine (forRange_read g (fun _ => ()) 0 (fun m => new (g s m)) s (fun _ _ _ => rfl) (fun k v _ _ hk => ?_)
    (fun k v i hi => ?_) j).trans (if_congr (by omega) rfl rfl)
  · rw [Nat.zero_add] at hk ⊢
    rw [h, if_pos rfl, hk]
  · rw [Nat.zero_add] at hi
    rw [h, if_neg hi]

/-- Input conditioning with its counters at 0 (04 R115). -/
def Cond.cleared (q : Cond) : Cond :=
  { q with spikes := 0, spikesBlock := 0, spikesRun := 0, bypassed := 0, late := 0, replacedN := 0, discarded := 0, steps := 0 }
/-- A gain stage with its counters at 0. -/
def GainSt.cleared (g : GainSt) : GainSt := { g with sat := 0, satBlock := 0, satRun := 0, discarded := 0, invalidFrames := 0 }
/-- An engine with its ECC counters at 0. -/
def Engine.eccCleared (v : Engine) : Engine := { v with dlCorr := 0, dlUncorr := 0, coefCorr := 0, coefUncorr := 0 }

section clear
variable (v j : Nat) (s : State)

theorem clearInput_cond (i : Nat) : (clearInput i s).cond j = if j = i then (s.cond j).cleared else s.cond j := by
  refine (State.cond_setCond ..).trans (ite_congr rfl (fun h => ?_) fun _ => rfl)
  rw [h]; rfl

theorem clearInput_gain (i : Nat) : (clearInput i s).gain j = if j = i then (s.gain j).cleared else s.gain j := by
  refine (State.gain_setGain ..).trans (ite_congr rfl (fun h => ?_) fun _ => rfl)
  rw [h]; rfl

theorem clearEngineEcc_eng (e : Nat) : (clearEngineEcc e s).eng j = if j = e then (s.eng j).eccCleared else s.eng j := by
  refine (State.eng_setEng ..).trans (ite_congr rfl (fun h => ?_) fun _ => rfl)
  rw [h]; rfl

theorem conditioningClearOp_of_input {v : Nat} (h : v < 384) : conditioningClearOp v s = clearInput v s := if_pos h

theorem conditioningClearOp_all :
    conditioningClearOp 0xFFFF s = forRange 24 clearEngineEcc (forRange 384 clearInput s) := by
  rw [conditioningClearOp, if_neg (by decide), if_pos rfl]

theorem conditioningClearOp_elsewhere {v : Nat} (h : 384 ≤ v) (hall : v ≠ 0xFFFF) : conditioningClearOp v s = s := by
  rw [conditioningClearOp, if_neg (by omega), if_neg hall]

/-- A write clears what clearing an input clears in the input it names, or in every input. -/
theorem conditioningClearOp_read {α : Type} {g : State → Nat → α} {new : α → α}
    (hin : ∀ i u k, g (clearInput i u) k = if k = i then new (g u k) else g u k)
    (heng : ∀ e u, g (clearEngineEcc e u) = g u) (hj : j < 384) :
    g (conditioningClearOp v s) j = if v = j ∨ v = 0xFFFF then new (g s j) else g s j := by
  by_cases hv : v < 384
  · rw [conditioningClearOp_of_input s hv, hin]
    exact if_congr (by omega) rfl rfl
  · by_cases hall : v = 0xFFFF
    · rw [hall, conditioningClearOp_all, forRange_proj g (fun e u _ => heng e u), forRange_each hin, if_pos hj, if_pos (.inr rfl)]
    · rw [conditioningClearOp_elsewhere s (by omega) hall, if_neg (by omega)]

theorem conditioningClearOp_eng (hj : j < 24) :
    (conditioningClearOp v s).eng j = if v = 0xFFFF then (s.eng j).eccCleared else s.eng j := by
  by_cases hv : v < 384
  · rw [conditioningClearOp_of_input s hv, if_neg (by omega)]
    rfl
  · by_cases hall : v = 0xFFFF
    · rw [if_pos hall, hall, conditioningClearOp_all, forRange_each (fun e u k => clearEngineEcc_eng k u e), if_pos hj]
      exact congrArg Engine.eccCleared (forRange_proj (f := clearInput) (·.eng j) (fun _ _ _ => rfl) s)
    · rw [conditioningClearOp_elsewhere s (by omega) hall, if_neg hall]

theorem conditioningClearOp_words : (conditioningClearOp v s).filt.words = s.filt.words := by
  by_cases hv : v < 384
  · rw [conditioningClearOp_of_input s hv]
    rfl
  · by_cases hall : v = 0xFFFF
    · rw [hall, conditioningClearOp_all]
      exact (forRange_proj (f := clearEngineEcc) (·.filt.words) (fun _ _ _ => rfl) _).trans
        (forRange_proj (f := clearInput) (·.filt.words) (fun _ _ _ => rfl) s)
    · rw [conditioningClearOp_elsewhere s (by omega) hall]

end clear

/-- Settles O11: a write clears the input it names, or every input and engine, and a saturating sum stays inside its width. -/
theorem conditioningClearClearsTheCounters : Obligations.ConditioningClearClearsTheCounters := by
  unfold Obligations.ConditioningClearClearsTheCounters
  intro v s
  exact ⟨conditioningClearOp v.toNat s, rfl, conditioningClearOp_frame ..,
    fun k hk => conditioningClearOp_read (g := State.cond) (new := Cond.cleared) v.toNat k s (fun i u m => clearInput_cond m u i)
      (fun _ _ => rfl) hk,
    fun k hk => conditioningClearOp_read (g := State.gain) (new := GainSt.cleared) v.toNat k s (fun i u m => clearInput_gain m u i)
      (fun _ _ => rfl) hk,
    fun e he => conditioningClearOp_eng v.toNat e s he, conditioningClearOp_words .., fun _ _ _ => min_le_right ..⟩

/-! ### A sample that comes to an empty window -/

/-- An input whose window is empty while the mark of a run of overlapping samples stands, with one sample to come. -/
def markedEmptyInput : State := (State.reset.setCond 7 { overlap := true }).setIngest 7 [.data 0 1 false 0 [(5, 0, true)]]

/-- `sampleCheck` compares with the newest sample of the window, so where there is none the mark stays. -/
theorem engineSampleIn_keeps_mark_of_empty_window {t : State} (h : exec (.engineSampleIn 7) markedEmptyInput = .next t) :
    (t.cond 7).overlap = true := by
  have ht : t = sampleIn 7 1 ⟨0, 5, 0, true, false, 0⟩ (markedEmptyInput.setIngest 7 []) := (Host.Outcome.next.inj h).symm
  rw [ht]
  decide +kernel

/-- Refutes O10: it wants the mark of overlapping samples gone after every sample that enters the filter, and a sample that enters an
empty window leaves the mark as it was. The statement is of every state; the commands set the mark where a window has samples, and
empty a window only together with the mark. -/
theorem not_theSpikeFilterAndTheDelayLine : ¬ Obligations.TheSpikeFilterAndTheDelayLine := by
  unfold Obligations.TheSpikeFilterAndTheDelayLine
  rintro ⟨-, -, hsample, -⟩
  have hqueue : takeSample (markedEmptyInput.ingestQ (7 : Fin 384)) = some (⟨0, 5, 0, true, false, 0⟩, 1, []) := by decide +kernel
  have hempty : (markedEmptyInput.cond (7 : Fin 384)).win.getLast? = none := by decide +kernel
  obtain ⟨-, hentered⟩ := hsample 7 markedEmptyInput _ _ _ hqueue
  obtain ⟨t, hnext, -, -, -, -, -, -, -, -, -, -, -, -, hmark⟩ := hentered fun y hy => by cases hempty.symm.trans hy
  exact absurd ((engineSampleIn_keeps_mark_of_empty_window hnext).symm.trans hmark) (by decide)

end Sys2Proof.Machine
end

section
/-! Coefficient banks (05 R134 to R138): what a command stores in one engine (shared with the swaps), and how a bank loads (O13). -/

namespace Sys2Proof.Machine

open Sys2Proof

/-! ### One engine is stored -/

section stored
variable {e : Nat} {v : Engine} {s t u : State} {cs : List (Nat × Nat × Nat)}

theorem State.eng_putEng_self : (s.putEng e v).eng e = v := (State.eng_putEng ..).trans (if_pos rfl)

theorem State.eng_of_filt (h : t.filt = s.filt) (k : Nat) : t.eng k = s.eng k := by rw [State.eng, h]; rfl

theorem filtButEngine_putEng (e : Nat) (v : Engine) (s : State) : filtButEngine e s (s.putEng e v) := by
  obtain ⟨-, hother, hself⟩ := plainBut_putEng e v s
  exact ⟨fun k hk => (State.eng_putEng ..).trans (if_neg hk), rfl, rfl, rfl, rfl, hother, hself, rfl⟩

theorem filtButEngine_of_parts (hfilt : t.filt = s.filt) (hdict : t.dict = s.dict) : filtButEngine e s t := by
  simp [filtButEngine, State.eng, State.blk, hfilt, hdict]

theorem filtButEngine.trans (h : filtButEngine e s t) (k : filtButEngine e t u) : filtButEngine e s u := by
  obtain ⟨heng, hcond, hgain, hwords, hblock, hother, hself, hdict⟩ := h
  obtain ⟨keng, kcond, kgain, kwords, kblock, kother, kself, kdict⟩ := k
  refine ⟨fun m hm => (keng m hm).trans (heng m hm), kcond.trans hcond, kgain.trans hgain, kwords.trans hwords,
    kblock.trans hblock, fun n hn => (kother n hn).trans (hother n hn), ?_, ?_⟩
  · rw [kself, hself]
  · rw [kdict, hdict]

/-- Engine e becomes v, with these Postcards, and nothing else changes but the PLAIN bit of the engine's block. -/
def engineStored (e : Nat) (v : Engine) (cs : List (Nat × Nat × Nat)) (s t : State) : Prop :=
  Frame [.filt, .dict, .so] s t ∧ filtButEngine e s t ∧ t.eng e = v ∧ raisedOnly cs s t

theorem engineStored_putEng (e : Nat) (v : Engine) (s : State) : engineStored e v [] s (s.putEng e v) :=
  ⟨(State.putEng_frame ..).weaken (by decide), filtButEngine_putEng .., State.eng_putEng_self, raisedOnly_nil rfl⟩

theorem raisedOnly_append {ds : List (Nat × Nat × Nat)} (h : raisedOnly cs s t) (k : raisedOnly ds t u) :
    raisedOnly (cs ++ ds) s u := by
  rw [raisedOnly, List.foldl_append]
  exact k.trans (foldl_raise_so_congr ds h)

theorem engineStored.raise (h : engineStored e v cs s t) (src kind addr : Nat) :
    engineStored e v (cs ++ [(src, kind, addr)]) s (raise src kind addr t) := by
  obtain ⟨hframe, hbut, heng, hcards⟩ := h
  exact ⟨hframe.step (raise_frame ..) (by decide), hbut.trans (filtButEngine_of_parts (raise_filt ..) (raise_dict ..)),
    (State.eng_raise ..).trans heng, raisedOnly_append hcards (raisedOnly_raise _ _ _ rfl)⟩

theorem engineStored_raise_putEng (e : Nat) (v : Engine) (src kind addr : Nat) (s : State) :
    engineStored e v [(src, kind, addr)] s (raise src kind addr (s.putEng e v)) :=
  (engineStored_putEng e v s).raise src kind addr

theorem completes_putEng {i : Instr} (h : exec i s = .next (s.putEng e v)) : completes i s (engineStored e v [] s) :=
  ⟨_, h, engineStored_putEng ..⟩

theorem completes_raise_putEng {i : Instr} {kind addr : Nat}
    (h : exec i s = .next (raise (engSrc e) kind addr (s.putEng e v))) :
    completes i s (engineStored e v [(engSrc e, kind, addr)] s) :=
  ⟨_, h, engineStored_raise_putEng ..⟩

end stored

/-! ### A load to a bank (05 R134 to R137) -/

/-- A bank whose load has been checked: it waits in LOADING with the profile, or is EMPTY where there is none. -/
def Bank.checked (k : Bank) (o : Option Profile) : Bank :=
  { k with st := if o.isSome then .loading else .empty, bytes := [], loaded := o }

/-- The load of bank b has been checked; one that gives no profile is refused with IMAGE_BAD. -/
def loadChecked (e : Nat) (b : Bool) (o : Option Profile) (s : State) : State :=
  let u := s.putEng e ((s.eng e).setBank b (((s.eng e).bank b).checked o))
  if o.isSome then u else raise (engSrc e) 0x0F (b2n b) u

section load
variable {e : Nat} {b last : Bool} {seg : List Byte} {s : State} {o : Option Profile} {p : Profile} {i : Instr}

theorem completes_loadChecked_some (h : exec i s = .next (loadChecked e b (some p) s)) :
    completes i s (engineStored e ((s.eng e).setBank b (((s.eng e).bank b).checked (some p))) [] s) := completes_putEng h

theorem loadChecked_none_stored (e : Nat) (b : Bool) (s : State) : engineStored e
    ((s.eng e).setBank b (((s.eng e).bank b).checked none)) [(engSrc e, 0x0F, b2n b)] s (loadChecked e b none s) :=
  engineStored_raise_putEng ..

theorem completes_loadChecked_none (h : exec i s = .next (loadChecked e b none s)) :
    completes i s (engineStored e ((s.eng e).setBank b (((s.eng e).bank b).checked none)) [(engSrc e, 0x0F, b2n b)] s) :=
  ⟨_, h, loadChecked_none_stored ..⟩

/-- The bank with the rest of an image to pass over, unless this was its last segment. -/
abbrev State.passOver (s : State) (e : Nat) (b last : Bool) : State :=
  s.putEng e ((s.eng e).setBank b { (s.eng e).bank b with skip := !last })

/-- The bytes of the image with this segment. -/
abbrev Bank.received (k : Bank) (seg : List Byte) : List Byte := if k.st = .loading then k.bytes ++ seg else seg

/-- The profile that a complete image holds for engine e under the active set. -/
abbrev State.imageProfile (s : State) (e : Nat) (bytes : List Byte) : Option Profile :=
  checkImage (s.fftN lastSet) (s.decD lastSet) (s.engPmin lastSet e) false bytes

theorem bankImageOp_skipped (hskip : ((s.eng e).bank b).skip = true) : bankImageOp e b seg last s = s.passOver e b last :=
  if_pos hskip

theorem bankImageOp_refused (hskip : ((s.eng e).bank b).skip = false) (hst : ((s.eng e).bank b).st ≠ .loading)
    (hrefused : s.loadRefused e b = true) :
    bankImageOp e b seg last s = raise (engSrc e) 0x0E (b2n b) (s.passOver e b last) :=
  (if_neg (ne_true_of_eq_false hskip)).trans (if_pos ⟨hst, hrefused⟩)

theorem bankImageOp_loaded (hskip : ((s.eng e).bank b).skip = false) (hst : ((s.eng e).bank b).st = .loading)
    (hloaded : ((s.eng e).bank b).loaded ≠ none) : bankImageOp e b seg last s =
      if (s.eng e).swapHeld b then raise (engSrc e) 0x0E (b2n b) (s.passOver e b last) else s.passOver e b last :=
  (if_neg (ne_true_of_eq_false hskip)).trans
    ((if_neg fun h => h.1 hst).trans (if_pos ⟨hst, Option.isSome_iff_ne_none.2 hloaded⟩))

theorem bankImageOp_taken (hskip : ((s.eng e).bank b).skip = false)
    (htakes : (((s.eng e).bank b).st = .loading ∧ ((s.eng e).bank b).loaded = none) ∨
      (((s.eng e).bank b).st ≠ .loading ∧ s.loadRefused e b = false)) : bankImageOp e b seg last s =
      if last then loadChecked e b (s.imageProfile e (((s.eng e).bank b).received seg)) s
      else s.putEng e ((s.eng e).setBank b
        { (s.eng e).bank b with st := .loading, bytes := ((s.eng e).bank b).received seg, loaded := none }) := by
  have hrefused : ¬ (((s.eng e).bank b).st ≠ .loading ∧ s.loadRefused e b = true) := by grind
  have hloaded : ¬ (((s.eng e).bank b).st = .loading ∧ ((s.eng e).bank b).loaded.isSome = true) := by grind
  refine (if_neg (ne_true_of_eq_false hskip)).trans ((if_neg hrefused).trans ((if_neg hloaded).trans
    (ite_congr rfl (fun _ => ?_) fun _ => rfl)))
  change (match s.imageProfile e (((s.eng e).bank b).received seg) with | some p => _ | none => _) = _
  cases s.imageProfile e (((s.eng e).bank b).received seg) <;> rfl

/-! ### A load from ROM or the enclave's store (05 R136, 17 R499) -/

theorem State.loadRefused_congr {u : State} (hfilt : u.filt = s.filt) (hdict : u.dict = s.dict) :
    u.loadRefused e b = s.loadRefused e b := by
  rw [State.loadRefused, State.eng_of_filt hfilt, State.cfg_of_dict hdict]
  rfl

theorem romCheck_ok (w : Nat) (s : State) : romCheck w .ok s = s := by
  unfold romCheck certCheck
  simp only [ite_self]

theorem exec_bankLoadRom_ok (e : Fin 24) (w : BitVec 16) (s : State) :
    exec (.bankLoadRom e ⟨w, .ok⟩) s = .next (bankLoadRomOp e w.toNat s) :=
  congrArg (fun u => Host.Outcome.next (bankLoadRomOp e w.toNat u)) (romCheck_ok ..)

variable {w : Nat}

theorem bankLoadRomOp_refused (hb : bit 0 w = b) (hcode : romCode (bits 15 8 w) = true) (hrefused : s.loadRefused e b = true) :
    bankLoadRomOp e w s = raise (engSrc e) 0x0E (b2n b) s := by
  subst hb
  exact (if_neg (ne_false_of_eq_true hcode)).trans (if_pos hrefused)

theorem bankLoadRomOp_loading (hb : bit 0 w = b) (hcode : romCode (bits 15 8 w) = true) (hrefused : s.loadRefused e b = false)
    (hst : ((s.eng e).bank b).st = .loading) : bankLoadRomOp e w s = s := by
  subst hb
  exact (if_neg (ne_false_of_eq_true hcode)).trans ((if_neg (ne_true_of_eq_false hrefused)).trans (if_pos hst))

theorem bankLoadRomOp_taken (hb : bit 0 w = b) (hcode : romCode (bits 15 8 w) = true) (hrefused : s.loadRefused e b = false)
    (hst : ((s.eng e).bank b).st ≠ .loading) : bankLoadRomOp e w s = loadChecked e b (s.romSource e (bits 15 8 w)) s := by
  subst hb
  refine (if_neg (ne_false_of_eq_true hcode)).trans
    ((if_neg (ne_true_of_eq_false hrefused)).trans ((if_neg hst).trans ?_))
  cases s.romSource e (bits 15 8 w) <;> rfl

/-- The object of the certified profile that a source names. -/
abbrev profileObject (src : Nat) : Nat := ob (0x3010 + (src - 0x80)) 1

theorem romCode_le {src : Nat} (hcode : romCode src = true) : src ≤ 0x8F := by
  simp only [romCode, Bool.or_eq_true, beq_iff_eq, decide_eq_true_eq] at hcode
  omega

/-- The certified profile that a source names is DAMAGED, with the enclave's Postcard. -/
def State.profileDamaged (s : State) (src : Nat) : State :=
  enclCard 8 (s.setEncl { s.encl with damaged := profileObject src :: s.encl.damaged })

theorem State.profileDamaged_filt (src : Nat) : (s.profileDamaged src).filt = s.filt := raise_filt ..
theorem State.profileDamaged_dict (src : Nat) : (s.profileDamaged src).dict = s.dict := raise_dict ..
theorem State.profileDamaged_encl (src : Nat) :
    (s.profileDamaged src).encl = { s.encl with damaged := profileObject src :: s.encl.damaged } := raise_encl ..

theorem State.profileDamaged_frame (s : State) (src : Nat) : Frame [.so, .encl] s (s.profileDamaged src) :=
  ((State.setEncl_frame ..).weaken (ps := [.so, .encl]) (by decide)).step (enclCard_frame ..) (by decide)

theorem romCheck_uncorrectable (hcode : romCode (bits 15 8 w) = true) (hcert : 0x80 ≤ bits 15 8 w)
    (hsound : s.encl.damaged.contains (profileObject (bits 15 8 w)) = false) :
    romCheck w .uncorrectable s = s.profileDamaged (bits 15 8 w) :=
  (if_pos ⟨hcert, romCode_le hcode⟩).trans (if_neg (ne_true_of_eq_false hsound))

theorem ofBytes_replicate_zero (n : Nat) : ofBytes (List.replicate n 0) = 0 := by
  induction n with
  | zero => rfl
  | succ n ih =>
    rw [List.replicate_succ, ofBytes, ih]
    rfl

/-- Zeros are no image: their format word is not 1. -/
theorem checkImage_zeros (n d pmin m : Nat) (certified : Bool) : checkImage n d pmin certified (List.replicate m 0) = none := by
  unfold checkImage
  dsimp only
  refine if_neg fun ⟨hformat, _⟩ => ?_
  rw [List.take_replicate, ofBytes_replicate_zero] at hformat
  exact absurd hformat (by decide)

/-- A DAMAGED certified profile holds no image. -/
theorem romSource_damaged {src : Nat} (hcert : 0x80 ≤ src) (h : s.encl.damaged.contains (profileObject src) = true) :
    s.romSource e src = none := by
  unfold State.romSource State.certValue
  dsimp only
  rw [if_neg (by omega), if_neg (by omega), if_pos h, checkImage_zeros]
  exact ite_self _

/-- A load whose profile an error damages empties the bank. -/
theorem bankLoadRomOp_damaged (hb : bit 0 w = b) (hcode : romCode (bits 15 8 w) = true) (hcert : 0x80 ≤ bits 15 8 w)
    (hst : ((s.eng e).bank b).st ≠ .loading) (hrefused : s.loadRefused e b = false) :
    bankLoadRomOp e w (s.profileDamaged (bits 15 8 w)) = loadChecked e b none (s.profileDamaged (bits 15 8 w)) := by
  have hfilt : (s.profileDamaged (bits 15 8 w)).filt = s.filt := s.profileDamaged_filt _
  have hdamaged : (s.profileDamaged (bits 15 8 w)).romSource e (bits 15 8 w) = none :=
    romSource_damaged hcert (by simp [State.profileDamaged_encl])
  rw [bankLoadRomOp_taken hb hcode ((State.loadRefused_congr hfilt (s.profileDamaged_dict _)).trans hrefused)
    (by rwa [State.eng_of_filt hfilt]), hdamaged]

end load

/-- Settles O13: which case of a command meets the bank decides what is stored in its engine (`engineStored`). -/
theorem banksLoadWarmAndGetReady : Obligations.BanksLoadWarmAndGetReady := by
  unfold Obligations.BanksLoadWarmAndGetReady
  intro e b s
  dsimp only
  refine ⟨rfl, fun seg last hskip => ?skipped, fun seg last hskip hst hrefused => ?refused,
    fun seg last hskip hst hloaded => ?loaded, fun w hb hcode => ⟨fun hrefused => ?romRefused, fun hrefused hst => ?romLoading,
      fun hcert hst hrefused hsound => ?romDamaged⟩, fun hskip htakes => ⟨fun seg => ?more, fun seg p himage => ?accepted,
      fun seg himage => ?bad⟩, fun hst hrefused w hb => ?rom, fun p hst hloaded => ?complete, fun hst hdue => ?ready⟩
  case skipped => exact completes_putEng (congrArg Host.Outcome.next (bankImageOp_skipped hskip))
  case refused => exact completes_raise_putEng (congrArg Host.Outcome.next (bankImageOp_refused hskip hst hrefused))
  case loaded =>
    have hop := bankImageOp_loaded (seg := seg) (last := last) hskip hst hloaded
    split
    · next h => exact completes_raise_putEng (congrArg Host.Outcome.next (hop.trans (if_pos h)))
    · next h => exact completes_putEng (congrArg Host.Outcome.next (hop.trans (if_neg h)))
  case romRefused => rw [exec_bankLoadRom_ok, bankLoadRomOp_refused hb hcode hrefused]
  case romLoading => rw [exec_bankLoadRom_ok, bankLoadRomOp_loading hb hcode hrefused hst]
  case romDamaged =>
    have hexec : exec (.bankLoadRom e ⟨w, .uncorrectable⟩) s =
        .next (loadChecked e b none (s.profileDamaged (bits 15 8 w.toNat))) := by
      rw [← bankLoadRomOp_damaged hb hcode hcert hst hrefused, ← romCheck_uncorrectable hcode hcert hsound]
      rfl
    obtain ⟨hframe, hbut, heng, -⟩ := loadChecked_none_stored e b (s.profileDamaged (bits 15 8 w.toNat))
    have hsteps : Frame [.filt, .dict, .so, .encl] s _ :=
      ((s.profileDamaged_frame (bits 15 8 w.toNat)).weaken (by decide)).step hframe (by decide)
    have hengine : filtButEngine e s _ :=
      (filtButEngine_of_parts (s.profileDamaged_filt _) (s.profileDamaged_dict _)).trans hbut
    rw [State.eng_of_filt (s.profileDamaged_filt _)] at heng
    exact ⟨_, hexec, hsteps, hengine, heng, (hframe.get .encl).trans (s.profileDamaged_encl _)⟩
  case more =>
    exact completes_putEng (congrArg Host.Outcome.next ((bankImageOp_taken hskip htakes).trans (if_neg Bool.false_ne_true)))
  case accepted =>
    have hop := (bankImageOp_taken hskip htakes).trans ((if_pos rfl).trans (congrArg (loadChecked e b · s) himage))
    exact completes_loadChecked_some (congrArg Host.Outcome.next hop)
  case bad =>
    have hop := (bankImageOp_taken hskip htakes).trans ((if_pos rfl).trans (congrArg (loadChecked e b · s) himage))
    exact completes_loadChecked_none (congrArg Host.Outcome.next hop)
  case rom =>
    have hexec (hcode : romCode (bits 15 8 w.toNat) = true) : exec (.bankLoadRom e ⟨w, .ok⟩) s =
        .next (loadChecked e b (s.romSource e (bits 15 8 w.toNat)) s) := by
      rw [exec_bankLoadRom_ok, bankLoadRomOp_taken hb hcode hrefused hst]
    refine ⟨fun hsrc => ?_, fun hsrc => ?_, fun p hcode hp => ?_, fun hcode hnone => ?_⟩
    · have h := hexec (by rw [hsrc]; rfl)
      rw [hsrc] at h
      exact completes_loadChecked_some h
    · have h := hexec (by rw [hsrc]; rfl)
      rw [hsrc] at h
      exact completes_loadChecked_some h
    · exact completes_loadChecked_some (hp ▸ hexec hcode)
    · exact completes_loadChecked_none (hnone ▸ hexec hcode)
  case complete =>
    refine completes_putEng (congrArg Host.Outcome.next ?_)
    dsimp only
    rw [hst, hloaded]
  case ready => exact completes_putEng (exec_of_pos rfl ⟨hst, hdue⟩)

end Sys2Proof.Machine
end

section
/-! Swap requests (05 R139, R142): what a loop over engines stores (shared with the synchronising resets), and what a request does at
the engines it selects (O14). -/

namespace Sys2Proof.Machine

open Sys2Proof

/-! ### Settings that only a latched set changes -/

section settings
variable {s t u : State}

/-- Of the dictionary, the blocks alone may have changed. -/
def blksOnly (s t : State) : Prop := t.dict = { s.dict with blks := t.dict.blks }

theorem blksOnly.trans (h : blksOnly s t) (k : blksOnly t u) : blksOnly s u := by
  rw [blksOnly] at *
  rw [k, h]

theorem State.cfgAt_of_blksOnly (h : blksOnly s t) (x o : Nat) : t.cfgAt x o = s.cfgAt x o := by rw [State.cfgAt, h]; rfl

theorem State.engF_of_blksOnly (h : blksOnly s t) (x e : Nat) : t.engF x e = s.engF x e := by
  simp only [State.engF, State.fftN, State.decD, State.cfgAt_of_blksOnly h]

end settings

/-! ### A loop that stores engines -/

/-- Engines, the PLAIN bits of their blocks and Postcards have changed, and nothing else. -/
def enginesOnly (s t : State) : Prop :=
  Frame [.filt, .dict, .so] s t ∧ t.filt.cond = s.filt.cond ∧ t.filt.gain = s.filt.gain ∧ t.filt.words = s.filt.words ∧ blksOnly s t

/-- Each of the first n engines that are selected has become what it was to become, with its Postcard. -/
structure EnginesStored (sel : Nat → Bool) (new : State → Nat → Engine) (card : State → Nat → Option (Nat × Nat × Nat))
    (n : Nat) (s t : State) : Prop where
  only : enginesOnly s t
  eng : ∀ e, t.eng e = if e < n ∧ sel e = true then new s e else s.eng e
  cards : raisedOnly ((List.range n).filterMap fun e => if sel e then card s e else none) s t

section loop
variable {e : Nat} {v : Engine} {s t u : State} {cs : List (Nat × Nat × Nat)}

theorem enginesOnly.refl (s : State) : enginesOnly s s := ⟨Frame.refl .., rfl, rfl, rfl, rfl⟩

theorem enginesOnly.blks (h : enginesOnly s t) : blksOnly s t := by
  obtain ⟨-, -, -, -, hdict⟩ := h
  exact hdict

theorem enginesOnly.trans (h : enginesOnly s t) (k : enginesOnly t u) : enginesOnly s u := by
  obtain ⟨hframe, hcond, hgain, hwords, hdict⟩ := h
  obtain ⟨kframe, kcond, kgain, kwords, kdict⟩ := k
  exact ⟨hframe.step kframe (List.Subset.refl _), kcond.trans hcond, kgain.trans hgain, kwords.trans hwords, hdict.trans kdict⟩

theorem engineStored.enginesOnly (h : engineStored e v cs s t) : enginesOnly s t := by
  obtain ⟨hframe, ⟨-, hcond, hgain, hwords, -, -, -, hdict⟩, -, -⟩ := h
  exact ⟨hframe, hcond, hgain, hwords, hdict⟩

/-- A loop whose step e stores engine e, from that engine and the settings. -/
theorem forRange_enginesStored {f : Nat → State → State} {sel : Nat → Bool} {new : State → Nat → Engine}
    {card : State → Nat → Option (Nat × Nat × Nat)} (step : ∀ e v, engineStored e (new v e) (card v e).toList v (f e v))
    (hlocal : ∀ e v, v.eng e = s.eng e → blksOnly s v → new v e = new s e ∧ card v e = card s e) (n : Nat) :
    EnginesStored sel new card n s (forRange n (fun e v => if sel e then f e v else v) s) := by
  induction n with
  | zero => exact ⟨enginesOnly.refl s, fun e => (if_neg (by omega)).symm, rfl⟩
  | succ n ih =>
    obtain ⟨honly, heng, hcards⟩ := ih
    rw [forRange_succ]
    generalize forRange n (fun e v => if sel e then f e v else v) s = v at honly heng hcards
    cases hsel : sel n
    case false =>
      rw [if_neg Bool.false_ne_true]
      refine ⟨honly, fun e => (heng e).trans (if_congr (and_congr_left fun he => ?_) rfl rfl), ?_⟩
      · have hne : e ≠ n := fun h => Bool.false_ne_true (hsel.symm.trans (h ▸ he))
        omega
      · rw [List.range_succ, List.filterMap_append]
        simpa [hsel] using hcards
    case true =>
      rw [if_pos rfl]
      have hsame : v.eng n = s.eng n := (heng n).trans (if_neg (by omega))
      have hstep := step n v
      obtain ⟨hnew, hcard⟩ := hlocal n v hsame honly.blks
      rw [hnew, hcard] at hstep
      refine ⟨honly.trans hstep.enginesOnly, fun e => ?_, ?_⟩
      · obtain ⟨-, ⟨hother, -⟩, hself, -⟩ := hstep
        by_cases he : e = n
        · rw [he, hself, if_pos ⟨n.lt_succ_self, hsel⟩]
        · rw [hother e he, heng e]
          exact if_congr (and_congr_left' (by omega)) rfl rfl
      · obtain ⟨-, -, -, hraised⟩ := hstep
        rw [List.range_succ, List.filterMap_append]
        refine raisedOnly_append hcards ?_
        cases hc : card s n <;> simpa [hsel, hc] using hraised

end loop

/-! ### A request at one engine (05 R142, Table 05.5) -/

/-- The engine holds or has latched a request that a new one replaces. -/
def Engine.replaces (v : Engine) : Bool := if v.fading then v.latched.isSome else v.pending.isSome

/-- The engine with request q, whose FADE is k: latched in a fade, and held otherwise. -/
def Engine.requested (q : Nat × Nat × Bool) (k : Nat) (v : Engine) : Engine :=
  if v.fading then
    (if v.latched = none then { v with latched := some q }
     else { v with latched := some q, swapsReplaced := satAdd 32 v.swapsReplaced 1, reqReplaced := true })
  else if v.pending = none then { v with pending := some q, fadeK := k }
  else { v with pending := some q, fadeK := k, swapsReplaced := satAdd 32 v.swapsReplaced 1, reqReplaced := true }

/-- The engine without any request. -/
def Engine.cancelled (v : Engine) : Engine := { v with pending := none, latched := none }

/-- Request r as engine e keeps it: its frame boundary, FADE, and whether it is LATE already. -/
def State.requestOf (s : State) (r e : Nat) : Nat × Nat × Bool :=
  (roundUp (bits 63 0 r) (s.engF (bits 63 0 r) e), bits 91 88 r,
    match (s.eng e).lastFrame with
    | some x => decide (roundUp (bits 63 0 r) (s.engF (bits 63 0 r) e) ≤ x)
    | none => false)

/-- SWAP_REPLACED of engine e, where a request replaces one. -/
def State.replacedCard (s : State) (e : Nat) : Option (Nat × Nat × Nat) :=
  if (s.eng e).replaces then some (engSrc e, 0x0C, b2n (!(s.eng e).active)) else none

section request
variable {e r : Nat} {s : State}

theorem swapAt_cancels (h : bit 96 r = true) : swapAt e r s = s.putEng e (s.eng e).cancelled := if_pos h

theorem swapAt_requests (h : bit 96 r = false) : engineStored e ((s.eng e).requested (s.requestOf r e) (bits 91 88 r))
    (s.replacedCard e).toList s (swapAt e r s) := by
  unfold swapAt Engine.requested State.replacedCard Engine.replaces
  dsimp only
  rw [if_neg (ne_true_of_eq_false h)]
  cases (s.eng e).fading
  case true =>
    cases (s.eng e).latched
    · exact engineStored_putEng ..
    · exact engineStored_raise_putEng ..
  case false =>
    cases (s.eng e).pending
    · exact engineStored_putEng ..
    · exact engineStored_raise_putEng ..

theorem State.requestOf_congr {t : State} (heng : t.eng e = s.eng e) (h : blksOnly s t) : t.requestOf r e = s.requestOf r e := by
  rw [State.requestOf, heng, State.engF_of_blksOnly h]
  rfl

theorem State.replacedCard_congr {t : State} (heng : t.eng e = s.eng e) : t.replacedCard e = s.replacedCard e := by
  rw [State.replacedCard, heng]
  rfl

end request

/-! ### CANCEL -/

theorem bit_eq_testBit (n x : Nat) : bit n x = x.testBit n := by
  rw [Nat.testBit_eq_decide_div_mod_eq]
  rfl

theorem bit_withCancel (n r : Nat) : bit n (withCancel r) = (bit n r || decide (n = 96)) := by
  simp only [bit_eq_testBit, withCancel, Nat.testBit_or, Nat.testBit_two_pow, eq_comm]

/-! ### A request at the engines it selects -/

section selected
variable {r : Nat} {s : State}

theorem swapRequestOp_of_ok (h : swapOk r = true) :
    swapRequestOp r s = forRange 24 (fun e v => if bit (64 + e) r then swapAt e r v else v) s :=
  if_neg (ne_false_of_eq_true h)

theorem swapRequestOp_requests (hcancel : bit 96 r = false) (hfade : bits 91 88 r ≤ 12) :
    EnginesStored (fun e => bit (64 + e) r) (fun v e => (v.eng e).requested (v.requestOf r e) (bits 91 88 r))
      State.replacedCard 24 s (swapRequestOp r s) := by
  rw [swapRequestOp_of_ok (by simp [swapOk, hfade])]
  refine forRange_enginesStored (fun e v => swapAt_requests hcancel) (fun e v heng hdict => ⟨?_, ?_⟩) 24
  · rw [State.requestOf_congr heng hdict, heng]
  · exact State.replacedCard_congr heng

theorem swapRequestOp_cancels (hcancel : bit 96 r = true) :
    EnginesStored (fun e => bit (64 + e) r) (fun v e => (v.eng e).cancelled) (fun _ _ => none) 24 s (swapRequestOp r s) := by
  rw [swapRequestOp_of_ok (by simp [swapOk, hcancel])]
  refine forRange_enginesStored (fun e v => ?_) (fun e v heng _ => ⟨by rw [heng], rfl⟩) 24
  rw [swapAt_cancels hcancel]
  exact engineStored_putEng ..

theorem swapRequestOp_out_of_range (hcancel : bit 96 r = false) (hfade : 12 < bits 91 88 r) : swapRequestOp r s = s :=
  if_pos (by simp [swapOk, hcancel, hfade])

end selected

/-- Settles O14: a request and CANCEL are loops that store the engines the mask selects (`EnginesStored`). -/
theorem swapRequestsActOnTheSelectedEngines : Obligations.SwapRequestsActOnTheSelectedEngines := by
  unfold Obligations.SwapRequestsActOnTheSelectedEngines
  intro r s
  dsimp only
  refine ⟨fun hcancel hfade => ?request, ?cancel, fun hcancel hfade => ?outOfRange⟩
  case request =>
    obtain ⟨⟨hframe, hcond, hgain, hwords, hdict⟩, heng, hcards⟩ := swapRequestOp_requests (s := s) hcancel hfade
    refine ⟨_, rfl, ⟨hframe, hcond, hgain, hwords, hdict, fun e _ hsel => ?_⟩, ?_, fun e he hsel => ?_⟩
    · exact (heng e).trans (if_neg (by simp [hsel]))
    · refine (congrArg (raisedOnly · s _) (List.filterMap_congr fun e _ => ?_)).mpr hcards
      exact ite_and ..
    · exact (heng e).trans (if_pos ⟨he, hsel⟩)
  case cancel =>
    have hmask (e : Nat) (he : e < 24) : bit (64 + e) (withCancel r.toNat) = bit (64 + e) r.toNat := by
      rw [bit_withCancel, decide_eq_false (by omega), Bool.or_false]
    obtain ⟨⟨hframe, hcond, hgain, hwords, hdict⟩, heng, hcards⟩ :=
      swapRequestOp_cancels (r := withCancel r.toNat) (s := s) (by simp [bit_withCancel])
    refine ⟨_, rfl, ⟨hframe, hcond, hgain, hwords, hdict, fun e he hsel => ?_⟩, ?_, fun e he hsel => ?_⟩
    · exact (heng e).trans (if_neg (by simp [hmask e he, hsel]))
    · simpa [raisedOnly] using hcards
    · exact (heng e).trans (if_pos ⟨he, (hmask e he).trans hsel⟩)
  case outOfRange => exact congrArg Host.Outcome.next (swapRequestOp_out_of_range hcancel hfade)

end Sys2Proof.Machine
end

section
/-! Restarts of the chains (05 R138, R144, R151): synchronising resets and coefficient recoveries (O16). -/

namespace Sys2Proof.Machine

open Sys2Proof

/-! ### Banks and engines at a restart (05 R138) -/

section restart
variable {x : Nat} {k : Bank}

theorem restartBank_start (hempty : (restartBank x k).st ≠ .empty) (hloading : (restartBank x k).st ≠ .loading) :
    (restartBank x k).start = x := by
  obtain ⟨st⟩ := k
  cases st
  case empty => exact absurd rfl hempty
  case loading => exact absurd rfl hloading
  all_goals rfl

theorem restartBank_st (x : Nat) (k : Bank) :
    (restartBank x k).st = if k.st = .ready ∨ k.st = .fadingOut then .warming else k.st := by
  obtain ⟨st⟩ := k
  cases st <;> rfl

theorem Engine.endFade_fading (v : Engine) : v.endFade.fading = false := by
  unfold Engine.endFade
  split
  · rfl
  · next h => exact Bool.eq_false_iff.2 h

/-- The end of a fade leaves the choice of the active bank and the held request. -/
theorem Engine.endFade_rest (v : Engine) : v.endFade.active = v.active ∧ v.endFade.pending = v.pending := by
  unfold Engine.endFade Engine.setBank
  dsimp only
  split
  · split <;> exact ⟨rfl, rfl⟩
  · exact ⟨rfl, rfl⟩

end restart

/-! ### A synchronising reset is scheduled (05 R144) -/

/-- The engine with a synchronising reset due at its boundary at or after p. -/
def State.syncDue (p : Nat) (s : State) (e : Nat) : Engine :=
  { s.eng e with syncs := (s.eng e).syncs ++ [roundUp p (s.engF p e)] }

theorem syncResetOp_stored (mask p : Nat) (s : State) :
    EnginesStored (fun e => bit e mask) (State.syncDue p) (fun _ _ => none) 24 s (syncResetOp mask p s) := by
  refine forRange_enginesStored (fun e v => engineStored_putEng ..) (fun e v heng hdict => ⟨?_, rfl⟩) 24
  rw [State.syncDue, heng, State.engF_of_blksOnly hdict]
  rfl

theorem bit_allEngines {e : Nat} (he : e < 24) : bit e allEngines = true := by
  have h : ∀ k : Fin 24, bit k allEngines = true := by decide
  exact h ⟨e, he⟩

/-! ### A synchronising reset takes effect (05 R144, 04 R99) -/

/-- The engine once the reset at p has come: no fade goes on, and the reset is no longer due. -/
def Engine.reached (p : Nat) (v : Engine) : Engine := { v.endFade with syncs := v.syncs.filter fun t => t ≠ p }

/-- The engine after the synchronising reset at p, where no request is latched. -/
def Engine.resynced (p : Nat) (v : Engine) : Engine := (v.reached p).restart p

theorem Engine.resynced_bank (p : Nat) (v : Engine) (b : Bool) :
    (v.resynced p).bank b = restartBank p (v.endFade.bank b) := by cases b <;> rfl

section sync
variable {e p : Nat} {s : State}

theorem State.cond_putEng (v : Engine) (k : Nat) : (s.putEng e v).cond k = s.cond k := rfl

theorem condSyncs_cond (e p k : Nat) (s : State) : (forRange 16 (fun j v => condSync (16 * e + j) p v) s).cond k =
    if k / 16 = e ∧ (s.cond k).syncAt < p then { s.cond k with syncAt := p, spreadFrom := some p } else s.cond k := by
  have hloop := forRange_read (n := 16) (f := fun j v => condSync (16 * e + j) p v) State.cond (fun _ => ()) (16 * e)
    (fun k => (s.cond k).sync p) s (fun _ _ _ => rfl)
    (fun j v _ _ hj => (State.cond_setCond_self ..).trans (congrArg (Cond.sync p) hj))
    (fun j v i hi => (State.cond_setCond ..).trans (if_neg hi)) k
  rw [hloop]
  by_cases hk : k / 16 = e
  · rw [if_pos (by omega), Cond.sync]
    simp only [hk, true_and]
  · rw [if_neg (by omega), if_neg fun h => hk h.1]

theorem syncNow_of_no_latched (h : (s.eng e).latched = none) : syncNow e p s = forRange 16 (fun j v => condSync (16 * e + j) p v)
    ((s.putEng e ((s.eng e).reached p)).putEng e ((s.eng e).resynced p)) := by
  unfold syncNow
  dsimp only
  rw [h]
  dsimp only
  rw [State.eng_putEng_self]
  rfl

theorem syncNow_frame_of_no_latched (h : (s.eng e).latched = none) : Frame [.filt, .dict] s (syncNow e p s) := by
  rw [syncNow_of_no_latched h]
  exact Frame.forRange ((State.putEng_frame ..).step (State.putEng_frame ..) (by decide)) fun _ _ =>
    (condSync_frame ..).weaken (by decide)

theorem syncNow_eng_of_no_latched (h : (s.eng e).latched = none) (k : Nat) :
    (syncNow e p s).eng k = if k = e then (s.eng e).resynced p else s.eng k := by
  rw [syncNow_of_no_latched h]
  refine (forRange_proj (·.eng k) (fun _ _ _ => by rfl) _).trans ?_
  by_cases hk : k = e
  · rw [hk, if_pos rfl, State.eng_putEng_self]
  · rw [if_neg hk, State.eng_putEng, if_neg hk, State.eng_putEng, if_neg hk]

theorem syncNow_cond_of_no_latched (h : (s.eng e).latched = none) (k : Nat) : (syncNow e p s).cond k =
    if k / 16 = e ∧ (s.cond k).syncAt < p then { s.cond k with syncAt := p, spreadFrom := some p } else s.cond k := by
  rw [syncNow_of_no_latched h, condSyncs_cond, State.cond_putEng, State.cond_putEng]

theorem exec_syncResetApply {e : Fin 24} (hleast : leastOf (s.eng e).syncs = some p) (hdue : s.boundaryDue e p = true) :
    exec (.syncResetApply e) s = .next (syncNow e p s) := by
  refine congrArg Host.Outcome.next ?_
  rw [syncApply, hleast]
  exact if_pos hdue

end sync

/-! ### A coefficient recovery (05 R151) -/

/-- The engine with Plain in bank b, which becomes active, and its chains restarted at x. -/
def Engine.recovered (x : Nat) (b : Bool) (pr : Profile) (v : Engine) : Engine :=
  let o := v.bank (!b)
  let v1 := (v.setBank b { st := .active, prof := pr, start := x }).setBank (!b)
    { o with st := if o.st = .active then .ready else o.st }
  { v1.restart x with active := b, recovery := none }

section recovered
variable {x : Nat} {b : Bool} {pr : Profile} {v : Engine}

theorem Engine.recovered_bank : (v.recovered x b pr).bank b = { st := .active, prof := pr, start := x } := by
  cases b <;> rfl

theorem Engine.recovered_other : ((v.recovered x b pr).bank (!b)).st ≠ .active := by
  have h : (v.recovered x b pr).bank (!b) = restartBank x { v.bank (!b) with
      st := if (v.bank (!b)).st = .active then .ready else (v.bank (!b)).st } := by cases b <;> rfl
  rw [h, restartBank_st]
  cases (v.bank (!b)).st <;> simp

theorem exec_coefRecoveryRestart {e : Fin 24} {s : State} (hrec : (s.eng e).recovery = some (x, b))
    (hdue : s.boundaryDue e x = true) : exec (.coefRecoveryRestart e) s =
      .next (s.putEng e ((s.eng e).recovered x b (plainProfile (s.fftN x) (s.decD x)))) := by
  refine congrArg Host.Outcome.next ?_
  rw [recoverOp, hrec]
  exact if_pos hdue

end recovered

/-- Settles O16: the engine becomes `State.syncDue`, `Engine.resynced` or `Engine.recovered`. -/
theorem synchronisingResetsAndCoefficientRecovery : Obligations.SynchronisingResetsAndCoefficientRecovery := by
  unfold Obligations.SynchronisingResetsAndCoefficientRecovery
  intro s
  refine ⟨fun p => ?scheduled, fun e p hleast hdue hlatched => ?applied, fun e x b hrec hdue => ?recovered⟩
  case scheduled =>
    obtain ⟨⟨-, hcond, hgain, -, -⟩, heng, -⟩ := syncResetOp_stored allEngines p.toNat s
    exact ⟨_, rfl, syncResetOp_frame .., hcond, hgain, fun e he => (heng e).trans (if_pos ⟨he, bit_allEngines he⟩)⟩
  case applied =>
    have heng := syncNow_eng_of_no_latched (p := p) hlatched
    refine ⟨_, exec_syncResetApply hleast hdue, syncNow_frame_of_no_latched hlatched, fun k hk => (heng k).trans (if_neg hk), ?_⟩
    obtain ⟨hactive, hpending⟩ := (s.eng e).endFade_rest
    rw [heng, if_pos rfl]
    refine ⟨Engine.endFade_fading _, hactive, hpending, by simp [Engine.resynced, Engine.reached, Engine.restart],
      fun b hempty hloading => ?_, fun b => ?_, syncNow_cond_of_no_latched hlatched⟩
    · rw [Engine.resynced_bank] at hempty hloading ⊢
      exact restartBank_start hempty hloading
    · rw [Engine.resynced_bank, restartBank_st]
      grind
  case recovered =>
    obtain ⟨-, hbut, heng, -⟩ := engineStored_putEng e ((s.eng e).recovered x b (plainProfile (s.fftN x) (s.decD x))) s
    refine ⟨_, exec_coefRecoveryRestart hrec hdue, State.putEng_frame .., hbut, ?_⟩
    rw [heng]
    exact ⟨rfl, rfl, Engine.recovered_bank, Engine.recovered_other⟩

end Sys2Proof.Machine
end

section
/-! Frame starts (05 R142, Table 05.5): a fade that ends over a bank that a change of p has warmed (O15). -/

namespace Sys2Proof.Machine

open Sys2Proof

/-- Bank B is active and A fades out, from frame 0 to frame 16384. -/
def fadingEngine : Engine :=
  { a := { st := .fadingOut }, b := { st := .active }, active := true, fading := true, fadeE := 16384, fadeK := 1,
    lastFrame := some 8192 }

/-- The counter at 16384, and in engine 0 the fade, in which a commit has changed a sample period at 8192 (05 R138): A warms, as
`engineCommit_eng_of_keeps` says, and the fade goes on. -/
def warmedInFade : State := { State.reset.setEng 0 (fadingEngine.rewarm 8192) with time := { pm := 16384 } }

theorem channeliserFrameStart_keeps_warming {t : State}
    (h : exec (.channeliserFrameStart 0 16384 .ok .ok 0) warmedInFade = .next t) : ((t.eng 0).bank false).st = .warming := by
  have ht : t = engineFrame 0 16384 .ok .ok 0 warmedInFade := (Host.Outcome.next.inj h).symm
  rw [ht]
  decide +kernel

/-- Refutes O15: it wants the old bank READY at the end of every fade, and `Engine.endFade` makes READY only of a bank in FADING_OUT. The
bank that fades out is in WARMING where a commit has changed a sample period in the fade. -/
theorem not_frameStartsApplySwapsAndEndFades : ¬ Obligations.FrameStartsApplySwapsAndEndFades := by
  unfold Obligations.FrameStartsApplySwapsAndEndFades
  intro h
  obtain ⟨t, hnext, -, -, -, -, -, -, -, -, -, -, -, -, -, -, hend, -⟩ := h 0 16384 0 warmedInFade (by decide +kernel)
    (by decide +kernel) (by decide +kernel) (by decide +kernel) (by decide +kernel) (by decide +kernel) (by decide +kernel)
  obtain ⟨-, -, hready, -, -⟩ := hend (by decide +kernel) (by decide +kernel) (by decide +kernel)
  have hst : ((t.eng 0).bank false).st = .ready := congrArg Bank.st hready
  exact absurd ((channeliserFrameStart_keeps_warming hnext).symm.trans hst) (by decide)

end Sys2Proof.Machine
end

section
/-! The gain stage (05 R130 to R132, R143): gain tables, and the channel samples that leave (O12). -/

namespace Sys2Proof.Machine

open Sys2Proof

/-! ### The gain stage of one input changes -/

section gainBut
variable {i : Nat} {s t u : State}

theorem State.gain_raise (src kind addr k : Nat) (s : State) : (raise src kind addr s).gain k = s.gain k := by
  rw [State.gain, raise_filt]; rfl

theorem State.gain_setGain_self (i : Nat) (g : GainSt) (s : State) : (s.setGain i g).gain i = g :=
  (State.gain_setGain ..).trans (if_pos rfl)

/-- The filter chain is as before but for the gain stage of input i. -/
def gainBut (i : Nat) (s t : State) : Prop := filtButInput i s t ∧ t.filt.cond = s.filt.cond

theorem gainBut_of_filt (h : t.filt = s.filt) : gainBut i s t := by
  simp [gainBut, filtButInput, State.cond, State.gain, h]

theorem gainBut.trans (h : gainBut i s t) (k : gainBut i t u) : gainBut i s u := by
  obtain ⟨⟨hin, heng, hwords, hblock⟩, hcond⟩ := h
  obtain ⟨⟨kin, keng, kwords, kblock⟩, kcond⟩ := k
  exact ⟨⟨fun m hm => ⟨(kin m hm).1.trans (hin m hm).1, (kin m hm).2.trans (hin m hm).2⟩, keng.trans heng, kwords.trans hwords,
    kblock.trans hblock⟩, kcond.trans hcond⟩

theorem gainBut_setGain (i : Nat) (g : GainSt) (s : State) : gainBut i s (s.setGain i g) :=
  ⟨⟨fun _ hm => ⟨rfl, (State.gain_setGain ..).trans (if_neg hm)⟩, rfl, rfl, rfl⟩, rfl⟩

theorem gainBut.raise (src kind addr : Nat) (h : gainBut i s t) : gainBut i s (raise src kind addr t) :=
  h.trans (gainBut_of_filt (raise_filt ..))

theorem gainBut.cond (h : gainBut i s t) (k : Nat) : t.cond k = s.cond k := by
  obtain ⟨-, hcond⟩ := h
  rw [State.cond, hcond]
  rfl

end gainBut

/-! ### A gain table arrives (05 R130, R131, 14 R393) -/

section table
variable {i eff first seq : Nat} {ws : List Nat} {s : State}

/-- The table as the gain stage holds it. -/
abbrev State.heldTable (s : State) (i eff first seq : Nat) (ws : List Nat) : NextGain :=
  ⟨roundUp eff (s.inF eff i), seq, first, ws.map gainWord⟩

theorem gainTableOp_discarded (h : roundUp eff (s.inF eff i) ≤ (s.gain i).eff) : gainTableOp i eff first seq ws s =
    raise (engSrc (i / 16)) 0x14 i (s.setGain i { s.gain i with discarded := satAdd 32 (s.gain i).discarded 1 }) := if_pos h

theorem gainTableOp_held (h : (s.gain i).eff < roundUp eff (s.inF eff i)) (hnext : (s.gain i).next = none) :
    gainTableOp i eff first seq ws s = s.setGain i { s.gain i with next := some (s.heldTable i eff first seq ws) } := by
  rw [gainTableOp, if_neg (Nat.not_le.2 h), hnext]

theorem gainTableOp_replaced (h : (s.gain i).eff < roundUp eff (s.inF eff i)) (hnext : (s.gain i).next ≠ none) :
    gainTableOp i eff first seq ws s = raise (engSrc (i / 16)) 0x15 i
      (s.setGain i { s.gain i with next := some (s.heldTable i eff first seq ws) }) := by
  obtain ⟨n, hn⟩ := Option.ne_none_iff_exists'.1 hnext
  rw [gainTableOp, if_neg (Nat.not_le.2 h), hn]

end table

section kept
variable {o : Nat} {bytes : List Byte} {c : Instr} {i : Nat} {g : GainSt} {s : State}

/-- A table that comes is kept as the value of its object, and the gain stage becomes g. -/
theorem completes_keepLive_setGain (h : exec c s = .next ((keepLive o bytes s).setGain i g)) :
    completes c s fun t => Frame [.filt, .dict] s t ∧ t.dict = (keepLive o bytes s).dict ∧ filtButInput i s t ∧
      t.cond i = s.cond i ∧ t.gain i = g := by
  obtain ⟨hbut, -⟩ : gainBut i s ((keepLive o bytes s).setGain i g) := (gainBut_of_filt rfl).trans (gainBut_setGain ..)
  exact ⟨_, h, ((keepLive_frame ..).weaken (by decide)).step (State.setGain_frame ..) (by decide), rfl, hbut, rfl,
    State.gain_setGain_self ..⟩

/-- The same with a Postcard. -/
theorem completes_raise_keepLive_setGain {src kind addr : Nat}
    (h : exec c s = .next (raise src kind addr ((keepLive o bytes s).setGain i g))) :
    completes c s fun t => Frame [.filt, .so, .dict] s t ∧ t.dict = (keepLive o bytes s).dict ∧ filtButInput i s t ∧
      raisedOnly [(src, kind, addr)] s t ∧ t.cond i = s.cond i ∧ t.gain i = g := by
  obtain ⟨hbut, -⟩ : gainBut i s (raise src kind addr ((keepLive o bytes s).setGain i g)) :=
    ((gainBut_of_filt rfl).trans (gainBut_setGain ..)).raise ..
  have hframe : Frame [.filt, .dict] s ((keepLive o bytes s).setGain i g) :=
    ((keepLive_frame ..).weaken (by decide)).step (State.setGain_frame ..) (by decide)
  exact ⟨_, h, (hframe.weaken (by decide)).step (raise_frame ..) (by decide), raise_dict .., hbut, raisedOnly_raise _ _ _ rfl,
    State.cond_raise .., (State.gain_raise ..).trans (State.gain_setGain_self ..)⟩

end kept

/-! ### The tables of a gain stage when a sample reaches it (05 R131, R143) -/

/-- A commit of N or D at p: the current table is 1 + 0j again, and a next one of before p is discarded. -/
def GainSt.committed (p : Nat) (g : GainSt) : GainSt :=
  let stale := g.next.any fun n => decide (n.eff < p)
  { g with gains := [], eff := p, seq := 0, cut := none
           next := if stale then none else g.next
           discarded := if stale then satAdd 32 g.discarded 1 else g.discarded }

/-- The stage once a commit due at x has acted. -/
def GainSt.cutAt (x : Nat) (g : GainSt) : GainSt := (g.cut.filter fun p => decide (p ≤ x)).elim g g.committed

/-- The stage with table n current, for an input of so many channels. -/
def GainSt.taken (channels : Nat) (n : NextGain) (g : GainSt) : GainSt :=
  { g with gains := putGains g.gains n.first (n.words.take (channels - n.first)), eff := n.eff, seq := n.seq, next := none }

/-- The stage once a table due at x has become current. -/
def GainSt.switchedAt (x channels : Nat) (g : GainSt) : GainSt :=
  (g.next.filter fun n => decide (n.eff ≤ x)).elim g fun n => g.taken channels n

/-- The stage with what is due at x in force: first a commit, then a table. -/
def GainSt.settled (x channels : Nat) (g : GainSt) : GainSt := (g.cutAt x).switchedAt x channels

/-- A stage without its counts of saturations and frames. -/
def GainSt.tables (g : GainSt) : GainSt :=
  { gains := g.gains, eff := g.eff, seq := g.seq, next := g.next, discarded := g.discarded, restart := g.restart, cut := g.cut }

section tables
variable {x p channels : Nat} {g : GainSt} {w : NextGain}

theorem GainSt.cutAt_due (hcut : g.cut = some p) (h : p ≤ x) : g.cutAt x = g.committed p := by
  simp [GainSt.cutAt, hcut, Option.filter_some, h]

theorem GainSt.cutAt_idle (h : ∀ p, g.cut = some p → x < p) : g.cutAt x = g := by
  have hnone : (g.cut.filter fun p => decide (p ≤ x)) = none := by simpa using h
  rw [GainSt.cutAt, hnone]
  rfl

theorem GainSt.switchedAt_due (hnext : g.next = some w) (h : w.eff ≤ x) : g.switchedAt x channels = g.taken channels w := by
  simp [GainSt.switchedAt, hnext, Option.filter_some, h]

theorem GainSt.switchedAt_idle (h : ∀ w, g.next = some w → x < w.eff) : g.switchedAt x channels = g := by
  have hnone : (g.next.filter fun n => decide (n.eff ≤ x)) = none := by simpa using h
  rw [GainSt.switchedAt, hnone]
  rfl

/-- A table that becomes current is no commit, and discards nothing. -/
theorem GainSt.switchedAt_rest (x channels : Nat) (g : GainSt) : (g.switchedAt x channels).cut = g.cut ∧
    (g.switchedAt x channels).discarded = g.discarded := by
  unfold GainSt.switchedAt
  cases g.next.filter fun n => decide (n.eff ≤ x) <;> exact ⟨rfl, rfl⟩

theorem GainSt.committed_of_no_table (hnext : g.next = none) :
    g.committed p = { g with gains := [], eff := p, seq := 0, cut := none } := by
  simp [GainSt.committed, hnext]

theorem GainSt.committed_of_stale (hnext : g.next = some w) (h : w.eff < p) : g.committed p =
    { g with gains := [], eff := p, seq := 0, cut := none, next := none, discarded := satAdd 32 g.discarded 1 } := by
  simp [GainSt.committed, hnext, h]

theorem GainSt.settled_cut_due (hcut : g.cut = some p) (h : p ≤ x) : (g.settled x channels).cut = none := by
  obtain ⟨hkept, -⟩ := GainSt.switchedAt_rest x channels (g.cutAt x)
  rw [GainSt.settled, hkept, GainSt.cutAt_due hcut h]
  rfl

theorem GainSt.settled_cut_of_no_table (hcut : g.cut = some p) (h : p ≤ x) (hnext : g.next = none) :
    g.settled x channels = { g with gains := [], eff := p, seq := 0, cut := none } := by
  rw [GainSt.settled, GainSt.cutAt_due hcut h, GainSt.committed_of_no_table hnext]
  exact GainSt.switchedAt_idle fun w hw => by cases hnext.symm.trans hw

theorem GainSt.settled_cut_of_stale (hcut : g.cut = some p) (h : p ≤ x) (hnext : g.next = some w) (hw : w.eff < p) :
    g.settled x channels =
      { g with gains := [], eff := p, seq := 0, cut := none, next := none, discarded := satAdd 32 g.discarded 1 } := by
  rw [GainSt.settled, GainSt.cutAt_due hcut h, GainSt.committed_of_stale hnext hw]
  exact GainSt.switchedAt_idle fun _ hn => by cases hn

theorem GainSt.settled_of_no_cut (h : ∀ p, g.cut = some p → x < p) : g.settled x channels = g.switchedAt x channels := by
  rw [GainSt.settled, GainSt.cutAt_idle h]

theorem GainSt.settled_restart : (g.settled x channels).restart = g.restart := by
  unfold GainSt.settled GainSt.switchedAt
  cases (g.cutAt x).next.filter fun n => decide (n.eff ≤ x) <;>
    cases hcut : g.cut.filter fun p => decide (p ≤ x) <;> simp [GainSt.taken, GainSt.cutAt, GainSt.committed, hcut]

theorem GainSt.tables_opened (c tb : Nat) (g : GainSt) : (g.opened c tb).tables = g.tables := by
  unfold GainSt.opened
  dsimp only
  split <;> rfl

theorem GainSt.tables_settled (x channels : Nat) (g : GainSt) : (g.settled x channels).tables = g.tables.settled x channels := by
  have hcut : (g.cutAt x).tables = g.tables.cutAt x := by
    change _ = (g.cut.filter fun p => decide (p ≤ x)).elim g.tables g.tables.committed
    unfold GainSt.cutAt
    cases g.cut.filter fun p => decide (p ≤ x) <;> rfl
  rw [GainSt.settled, GainSt.settled, ← hcut]
  generalize g.cutAt x = v
  change _ = (v.next.filter fun n => decide (n.eff ≤ x)).elim v.tables fun n => v.tables.taken channels n
  unfold GainSt.switchedAt
  cases v.next.filter fun n => decide (n.eff ≤ x) <;> rfl

/-- Stage g' has the tables that stage g has at x, after a commit at p. -/
theorem GainSt.rows_of_cut {g' : GainSt} (h : g'.tables = g.tables.settled x channels) (hcut : g.cut = some p) (hp : p ≤ x) :
    g'.cut = none ∧ (g.next = none → g'.gains = [] ∧ g'.eff = p ∧ g'.seq = 0) ∧
    (∀ w, g.next = some w → w.eff < p → g'.gains = [] ∧ g'.eff = p ∧ g'.seq = 0 ∧ g'.next = none ∧
      g'.discarded = satAdd 32 g.discarded 1) := by
  refine ⟨(congrArg GainSt.cut h).trans (GainSt.settled_cut_due (g := g.tables) hcut hp), fun hnext => ?_, fun w hnext hw => ?_⟩
  · rw [GainSt.settled_cut_of_no_table (g := g.tables) hcut hp hnext] at h
    exact ⟨congrArg GainSt.gains h, congrArg GainSt.eff h, congrArg GainSt.seq h⟩
  · rw [GainSt.settled_cut_of_stale (g := g.tables) hcut hp hnext hw] at h
    exact ⟨congrArg GainSt.gains h, congrArg GainSt.eff h, congrArg GainSt.seq h, congrArg GainSt.next h,
      congrArg GainSt.discarded h⟩

/-- The same where no commit is due. -/
theorem GainSt.rows_of_no_cut {g' : GainSt} (h : g'.tables = g.tables.settled x channels) (hidle : ∀ p, g.cut = some p → x < p) :
    g'.cut = g.cut ∧ g'.discarded = g.discarded ∧
    (∀ w, g.next = some w → w.eff ≤ x → g'.eff = w.eff ∧ g'.seq = w.seq ∧ g'.next = none) ∧
    ((∀ w, g.next = some w → x < w.eff) → g'.gains = g.gains ∧ g'.eff = g.eff ∧ g'.seq = g.seq ∧ g'.next = g.next) := by
  rw [GainSt.settled_of_no_cut (g := g.tables) hidle] at h
  obtain ⟨hcut, hdiscarded⟩ := GainSt.switchedAt_rest x channels g.tables
  refine ⟨(congrArg GainSt.cut h).trans hcut, (congrArg GainSt.discarded h).trans hdiscarded, fun w hw hle => ?_, fun hquiet => ?_⟩
  · rw [GainSt.switchedAt_due (g := g.tables) hw hle] at h
    exact ⟨congrArg GainSt.eff h, congrArg GainSt.seq h, congrArg GainSt.next h⟩
  · rw [GainSt.switchedAt_idle (g := g.tables) hquiet] at h
    exact ⟨(congrArg GainSt.gains h :), (congrArg GainSt.eff h :), (congrArg GainSt.seq h :), (congrArg GainSt.next h :)⟩

end tables

section reaches
variable {i x p : Nat} {s : State}

theorem gainCommit_gain : (gainCommit p i s).gain i = (s.gain i).committed p := by
  unfold gainCommit
  dsimp only
  cases hnext : (s.gain i).next
  case none => simp [GainSt.committed, hnext]
  case some n =>
    dsimp only
    split
    · next h => simp [GainSt.committed, hnext, h, State.gain_raise]
    · next h => simp [GainSt.committed, hnext, h]

theorem gainCut_gain : (gainCut i x s).gain i = (s.gain i).cutAt x := by
  unfold gainCut
  split
  · next p hcut =>
    split
    · next h => rw [gainCommit_gain, GainSt.cutAt_due hcut h]
    · next h => rw [GainSt.cutAt_idle fun q hq => by simp_all]
  · next hcut => rw [GainSt.cutAt_idle fun q hq => by simp_all]

theorem gainSwitch_gain : (gainSwitch i x s).gain i = (s.gain i).switchedAt x (s.channels x i) := by
  unfold gainSwitch
  dsimp only
  split
  · next n hnext =>
    split
    · next h =>
      rw [proj_ite_raise (g := (·.gain i)) fun _ _ _ _ => State.gain_raise .., State.gain_setGain_self,
        GainSt.switchedAt_due hnext h]
      rfl
    · next h => rw [GainSt.switchedAt_idle fun m hm => by simp_all]
  · next hnext => rw [GainSt.switchedAt_idle fun m hm => by simp_all]

theorem gainCommit_gainBut : gainBut i s (gainCommit p i s) := by
  unfold gainCommit
  dsimp only
  split
  · split
    · exact (gainBut_setGain ..).raise ..
    · exact gainBut_setGain ..
  · exact gainBut_setGain ..

theorem gainCut_gainBut : gainBut i s (gainCut i x s) := by
  unfold gainCut
  split
  · split
    · exact gainCommit_gainBut
    · exact gainBut_of_filt rfl
  · exact gainBut_of_filt rfl

theorem gainSwitch_gainBut : gainBut i s (gainSwitch i x s) := by
  unfold gainSwitch
  dsimp only
  split
  · split
    · split
      · exact (gainBut_setGain ..).raise ..
      · exact gainBut_setGain ..
    · exact gainBut_of_filt rfl
  · exact gainBut_of_filt rfl

theorem satBlock_gainBut : gainBut i s (satBlock i x s) := by
  rcases satBlock_proj (·.filt) (fun _ _ _ _ => raise_filt ..) i x s with ⟨h, -⟩ | h
  · exact gainBut_of_filt h
  · exact (gainBut_setGain ..).trans (gainBut_of_filt h)

end reaches

/-- A sample stamped x has reached the gain stage of input i: block counts, a commit and a table have acted (05 R131, R133, R143). -/
def sampleReached (i x : Nat) (s : State) : State := gainSwitch i x (gainCut i x (satBlock i x s))

section reached
variable {i x : Nat} {s : State}

theorem sampleReached_gainBut : gainBut i s (sampleReached i x s) :=
  (satBlock_gainBut.trans gainCut_gainBut).trans gainSwitch_gainBut

theorem sampleReached_frame : Frame [.so, .filt] s (sampleReached i x s) :=
  ((satBlock_frame ..).step (gainCut_frame ..) (by decide)).step (gainSwitch_frame ..) (by decide)

theorem sampleReached_tables : ∃ channels, ((sampleReached i x s).gain i).tables = (s.gain i).tables.settled x channels := by
  refine ⟨(gainCut i x (satBlock i x s)).channels x i, ?_⟩
  rw [sampleReached, gainSwitch_gain, gainCut_gain, satBlock_gain, if_pos rfl, ← GainSt.tables_opened x (8192 * s.inF x i) (s.gain i),
    ← GainSt.tables_settled]
  rfl

theorem sampleReached_restart : ((sampleReached i x s).gain i).restart = (s.gain i).restart := by
  obtain ⟨channels, h⟩ := sampleReached_tables (i := i) (x := x) (s := s)
  exact (congrArg GainSt.restart h).trans GainSt.settled_restart

end reached

/-! ### The word of a channel sample (05 R126 to R132, 00 R6) -/

section word
variable {i n x : Nat} {dec : FrameDec} {s t : State}

theorem State.suppressed_congr (hdict : t.dict = s.dict) (hrestart : (t.gain i).restart = (s.gain i).restart) :
    t.suppressed i x dec = s.suppressed i x dec := by
  have hd : t.decD x = s.decD x := State.cfgAt_of_dict hdict ..
  unfold State.suppressed
  rw [State.inF_of_dict hdict, hd, hrestart]

theorem State.frameValid_congr (hdict : t.dict = s.dict) (hcond : t.cond i = s.cond i)
    (hrestart : (t.gain i).restart = (s.gain i).restart) : t.frameValid i x dec = s.frameValid i x dec := by
  have hd : t.decD x = s.decD x := State.cfgAt_of_dict hdict ..
  have hp : t.inP x i = s.inP x i := State.cfgAt_of_dict hdict ..
  have hblk : t.blk (engSrc (i / 16)) = s.blk (engSrc (i / 16)) := congrArg (fun d : Dict => d.blks.get blkInit _) hdict
  unfold State.frameValid
  rw [hcond, State.inF_of_dict hdict, hd, hp, State.cfgAt_of_dict hdict, State.suppressed_congr hdict hrestart, hblk]

theorem natAbs_satSym_le (l : Nat) (x : Int) : (satSym l x).natAbs ≤ l := by
  unfold satSym
  split_ifs <;> omega

/-- A sample changes counts of its stage, and no table. -/
theorem gainSample_stage : (gainSample s i n x dec).1.tables = (s.gain i).tables ∧
    (gainSample s i n x dec).1.outFrame = some x := by
  unfold gainSample
  dsimp only
  split <;> exact ⟨rfl, rfl⟩

theorem gainSample_marker (h : s.frameValid i x dec = false) : (gainSample s i n x dec).2 = marker (s.c8 x) := by
  unfold gainSample
  dsimp only
  rw [if_neg (ne_true_of_eq_false h)]

theorem gainSample_code (h : s.frameValid i x dec = true) : ∃ re im : Int,
    re.natAbs ≤ (if s.c8 x then 127 else 7) ∧ im.natAbs ≤ (if s.c8 x then 127 else 7) ∧
    (gainSample s i n x dec).2 = sampleCode (s.c8 x) re im := by
  have hlimit (y : Int) : (satSym (if s.c8 x then 127 else 7) y).natAbs ≤ (if s.c8 x then 127 else 7) := by
    split
    · exact natAbs_satSym_le 127 y
    · exact natAbs_satSym_le 7 y
  unfold gainSample
  dsimp only
  rw [if_pos h]
  exact ⟨_, _, hlimit _, hlimit _, rfl⟩

/-- The part owns channel n in the frame at x (06 R160). -/
abbrev State.owns (s : State) (n x : Nat) : Prop :=
  s.cfgAt x (ob 0x5000 0x13) ≤ n ∧ n < s.cfgAt x (ob 0x5000 0x13) + s.cfgAt x (ob 0x5000 0x14)

/-- The key of channel n of input i in the frame at x. -/
abbrev State.wordKey (s : State) (i n x : Nat) : Nat := chanKey n (384 * s.rankIn (s.setAt x) + i) x

theorem emitWord_words (w : Nat) : (emitWord i n x w s).filt.words =
    if s.owns n x then s.filt.words.set (fun _ => 0) (s.wordKey i n x) (w + 1) else s.filt.words :=
  apply_ite (fun v : State => v.filt.words) ..

/-- Of the filter chain, a word that leaves changes the words alone. -/
theorem emitWord_rest (w : Nat) : (emitWord i n x w s).filt.gain = s.filt.gain ∧ (emitWord i n x w s).filt.cond = s.filt.cond ∧
    (emitWord i n x w s).filt.eng = s.filt.eng := by
  unfold emitWord
  split <;> exact ⟨rfl, rfl, rfl⟩

end word

/-! ### A channel sample leaves the gain stage -/

section leaves
variable {i n x : Nat} {dec : FrameDec} {s t : State}

theorem State.sampleDue_of (hframe : x % s.inF x i = 0) (hn : n < s.channels x i)
    (hout : ∃ u, (s.cond i).nextOut = some u ∧ x + s.inF x i ≤ u) : s.sampleDue i n x = true := by
  obtain ⟨u, hu, hle⟩ := hout
  simp [State.sampleDue, hframe, hn, hu, hle]

/-- The gain stage has noted the sample of channel n in the frame at x. -/
def State.sampleNoted (s : State) (i n x : Nat) (dec : FrameDec) : State :=
  (sampleReached i x s).setGain i (gainSample (sampleReached i x s) i n x dec).1

theorem channelSample_eq (hdec : (s.eng (i / 16)).decFor x = some dec) (hdue : s.sampleDue i n x = true) :
    channelSample i n x s = emitWord i n x (gainSample (sampleReached i x s) i n x dec).2 (s.sampleNoted i n x dec) := by
  unfold channelSample
  rw [hdec]
  exact if_pos hdue

/-- What differs at most in Postcards and the filter chain gives the corner-turn buffer the same word. -/
theorem cornerWrite_mm_congr (a : Nat) (h : Frame [.so, .filt] s t) : (cornerWrite n a x t).mm = (cornerWrite n a x s).mm := by
  have hdict : t.dict = s.dict := h.get .dict
  have hrelay : t.relay = s.relay := h.get .relay
  have hmm : t.mm = s.mm := h.get .mm
  have htime : t.time = s.time := h.get .time
  unfold cornerWrite usePort State.setStk State.stk State.absChan State.rankIn State.setAt State.placeFor State.now
  simp only [apply_ite State.mm, hdict, hrelay, hmm, htime]

theorem cornerWrite_mm_stack (a : Nat) : (cornerWrite n a x s).mm = { s.mm with stack := (cornerWrite n a x s).mm.stack } := by
  unfold cornerWrite
  dsimp only
  split <;> rfl

theorem cornerWrite_inside_octet {a : Nat} (h : a % 8 ≠ 7) : cornerWrite n a x s = s := if_neg fun c => h c.1

theorem sampleNoted_frame : Frame [.so, .filt] s (s.sampleNoted i n x dec) :=
  sampleReached_frame.step (State.setGain_frame ..) (by decide)

theorem sampleNoted_gainBut : gainBut i s (s.sampleNoted i n x dec) := sampleReached_gainBut.trans (gainBut_setGain ..)

theorem sampleNoted_gain : ((s.sampleNoted i n x dec).gain i).outFrame = some x ∧
    ∃ channels, ((s.sampleNoted i n x dec).gain i).tables = (s.gain i).tables.settled x channels := by
  obtain ⟨htables, hframe⟩ := gainSample_stage (i := i) (n := n) (x := x) (dec := dec) (s := sampleReached i x s)
  obtain ⟨channels, hreached⟩ := sampleReached_tables (i := i) (x := x) (s := s)
  rw [State.sampleNoted, State.gain_setGain_self]
  exact ⟨hframe, channels, htables.trans hreached⟩

/-- The word that channel n of input i leaves as, in the frame at x. -/
def State.wordOut (s : State) (i n x : Nat) (dec : FrameDec) : Nat := (gainSample (sampleReached i x s) i n x dec).2

theorem sampleReached_c8 : (sampleReached i x s).c8 x = s.c8 x := by
  rw [State.c8, State.cfgAt_of_dict (sampleReached_frame.get .dict)]
  rfl

theorem sampleReached_frameValid : (sampleReached i x s).frameValid i x dec = s.frameValid i x dec :=
  State.frameValid_congr (sampleReached_frame.get .dict) (sampleReached_gainBut.cond i) sampleReached_restart

theorem wordOut_marker (h : s.frameValid i x dec = false) : s.wordOut i n x dec = marker (s.c8 x) := by
  rw [State.wordOut, gainSample_marker (sampleReached_frameValid.trans h), sampleReached_c8]

theorem wordOut_code (h : s.frameValid i x dec = true) : ∃ re im : Int,
    re.natAbs ≤ (if s.c8 x then 127 else 7) ∧ im.natAbs ≤ (if s.c8 x then 127 else 7) ∧
    s.wordOut i n x dec = sampleCode (s.c8 x) re im := by
  have hcode := gainSample_code (n := n) (sampleReached_frameValid.trans h)
  rwa [sampleReached_c8] at hcode

/-- The state once the sample has left the gain stage and its octet's word has gone to the corner-turn buffer. -/
def State.sampleSent (s : State) (i n x : Nat) (dec : FrameDec) : State :=
  cornerWrite n (384 * s.rankIn (s.setAt x) + i) x (emitWord i n x (s.wordOut i n x dec) (s.sampleNoted i n x dec))

theorem channelOut_eq (hdec : (s.eng (i / 16)).decFor x = some dec) (hdue : s.sampleDue i n x = true) :
    channelOut i n x s = s.sampleSent i n x dec := by
  refine (if_pos (by simp [hdec, hdue])).trans ?_
  rw [channelSample_eq hdec hdue]
  rfl

theorem sampleSent_filt : (s.sampleSent i n x dec).filt =
    (emitWord i n x (s.wordOut i n x dec) (s.sampleNoted i n x dec)).filt := (cornerWrite_frame ..).get .filt

theorem sampleSent_gain_eq (k : Nat) : (s.sampleSent i n x dec).gain k = (s.sampleNoted i n x dec).gain k := by
  obtain ⟨hgain, -, -⟩ := emitWord_rest (i := i) (n := n) (x := x) (s := s.sampleNoted i n x dec) (s.wordOut i n x dec)
  rw [State.gain, sampleSent_filt, hgain, ← State.gain]

/-- Of the inputs' conditioning, the engines and the other gain stages, a sample changes nothing. -/
theorem sampleSent_rest : (∀ k, k ≠ i → (s.sampleSent i n x dec).gain k = s.gain k) ∧
    (s.sampleSent i n x dec).filt.cond = s.filt.cond ∧ (s.sampleSent i n x dec).filt.eng = s.filt.eng := by
  obtain ⟨⟨hother, heng, -, -⟩, hcond⟩ := sampleNoted_gainBut (i := i) (n := n) (x := x) (dec := dec) (s := s)
  obtain ⟨-, hkcond, hkeng⟩ := emitWord_rest (i := i) (n := n) (x := x) (s := s.sampleNoted i n x dec) (s.wordOut i n x dec)
  exact ⟨fun k hk => (sampleSent_gain_eq k).trans (hother k hk).2, by rw [sampleSent_filt, hkcond, hcond],
    by rw [sampleSent_filt, hkeng, heng]⟩

/-- The stage after a sample: what is due at x is in force. -/
theorem sampleSent_gain : ((s.sampleSent i n x dec).gain i).outFrame = some x ∧
    ∃ channels, ((s.sampleSent i n x dec).gain i).tables = (s.gain i).tables.settled x channels := by
  rw [sampleSent_gain_eq]
  exact sampleNoted_gain

theorem sampleSent_words : (s.sampleSent i n x dec).filt.words =
    if s.owns n x then s.filt.words.set (fun _ => 0) (s.wordKey i n x) (s.wordOut i n x dec + 1) else s.filt.words := by
  have hdict : (s.sampleNoted i n x dec).dict = s.dict := sampleNoted_frame.get .dict
  have hrelay : (s.sampleNoted i n x dec).relay = s.relay := sampleNoted_frame.get .relay
  obtain ⟨⟨-, -, hwords, -⟩, -⟩ := sampleNoted_gainBut (i := i) (n := n) (x := x) (dec := dec) (s := s)
  have hset : (s.sampleNoted i n x dec).setAt x = s.setAt x := by rw [State.setAt, hdict]; rfl
  have hkey : (s.sampleNoted i n x dec).wordKey i n x = s.wordKey i n x := by
    rw [State.wordKey, hset, State.rankIn, hrelay]; rfl
  rw [sampleSent_filt, emitWord_words, hwords, hkey]
  exact if_congr (by rw [State.owns, State.cfgAt_of_dict hdict, State.cfgAt_of_dict hdict]) rfl rfl

theorem sampleSent_word (h : s.owns n x) :
    (s.sampleSent i n x dec).filt.words.get (fun _ => 0) (s.wordKey i n x) = s.wordOut i n x dec + 1 := by
  rw [sampleSent_words, if_pos h, Tab.get_set_self]

theorem sampleSent_word_other {k : Nat} (h : k ≠ s.wordKey i n x) :
    (s.sampleSent i n x dec).filt.words.get (fun _ => 0) k = s.filt.words.get (fun _ => 0) k := by
  rw [sampleSent_words]
  split
  · exact Tab.get_set_ne _ _ _ h
  · rfl

theorem sampleSent_mm : (s.sampleSent i n x dec).mm = (cornerWrite n (384 * s.rankIn (s.setAt x) + i) x s).mm :=
  cornerWrite_mm_congr _ (sampleNoted_frame.step (emitWord_frame ..) (by decide))

end leaves

/-- Settles O12: a table meets one of the three cases of `gainTableOp`; a sample puts in force what is due at its stage
(`GainSt.settled`) and leaves as the word of `State.wordOut`. -/
theorem gainTablesAndChannelSamples : Obligations.GainTablesAndChannelSamples := by
  unfold Obligations.GainTablesAndChannelSamples
  intro i s
  refine ⟨fun eff first count seq ws => ?table, fun n x dec hdec hframe hn hout => ?sample⟩
  case table =>
    have hwords : ((ws.take count.toNat).map BitVec.toNat).map gainWord = (ws.take count.toNat).map fun w => gainWord w.toNat :=
      List.map_map
    have htable := congrArg (NextGain.mk (roundUp eff.toNat (s.inF eff.toNat i)) seq.toNat first.toNat) hwords
    dsimp only
    rw [← htable]
    exact ⟨fun h => completes_raise_keepLive_setGain (congrArg Host.Outcome.next (gainTableOp_discarded h)),
      fun h hnext => completes_keepLive_setGain (congrArg Host.Outcome.next (gainTableOp_held h hnext)),
      fun h hnext => completes_raise_keepLive_setGain (congrArg Host.Outcome.next (gainTableOp_replaced h hnext))⟩
  case sample =>
    dsimp only
    have hdue : s.sampleDue i n x.toNat = true := State.sampleDue_of hframe hn hout
    have hexec : exec (.channelSampleOut i n x) s = .next (s.sampleSent i n x.toNat dec) :=
      congrArg Host.Outcome.next (channelOut_eq hdec hdue)
    have hparts : Frame [.so, .filt, .mm] s (s.sampleSent i n x.toNat dec) := by
      rw [← channelOut_eq hdec hdue]
      exact channelOut_frame ..
    have hmm : (s.sampleSent i n x.toNat dec).mm = (cornerWrite n (384 * s.rankIn (s.setAt x.toNat) + i) x.toNat s).mm :=
      sampleSent_mm
    obtain ⟨hother, hcond, heng⟩ := sampleSent_rest (i := i) (n := n) (x := x.toNat) (dec := dec) (s := s)
    obtain ⟨houtFrame, channels, htables⟩ := sampleSent_gain (i := i) (n := n) (x := x.toNat) (dec := dec) (s := s)
    refine ⟨_, hexec, hparts.weaken (by decide), hmm, ?stack, fun hinside => ?inside, hother, hcond, heng, houtFrame,
      fun p hcut hp => GainSt.rows_of_cut htables hcut hp, fun hidle => GainSt.rows_of_no_cut htables hidle,
      fun k hk => sampleSent_word_other hk, fun hnot => sampleSent_words.trans (if_neg hnot), fun howned hbad => ?marker,
      fun howned hgood => ?code⟩
    case stack =>
      rw [hmm]
      exact cornerWrite_mm_stack _
    case inside => rw [hmm, cornerWrite_inside_octet hinside]
    case marker => exact (sampleSent_word howned).trans (congrArg (· + 1) (wordOut_marker hbad))
    case code =>
      obtain ⟨re, im, hre, him, hcode⟩ := wordOut_code (n := n) hgood
      exact ⟨re, im, hre, him, (sampleSent_word howned).trans (congrArg (· + 1) hcode)⟩

end Sys2Proof.Machine
end

section
/-! Tile sums (07 R199 to R201, 08 R232) and beam sums (07 R213, R215): the arithmetic of the cells (O28, O32). -/

namespace Sys2Proof.Machine

open Sys2Proof

/-! ### Saturating components -/

theorem satSym_of_natAbs_le {l : Nat} {x : Int} (h : x.natAbs ≤ l) : satSym l x = x := by
  unfold satSym
  rw [if_neg (by omega), if_neg (by omega)]

theorem addPart_of_natAbs_le {x v : Int} (h : (x + v).natAbs ≤ 8388607) : addPart (x, false) v = (x + v, false) :=
  Prod.ext (satSym_of_natAbs_le h) (by simp only [addPart, Bool.false_or, decide_eq_false_iff_not]; omega)

/-- A component never leaves its range. -/
theorem foldl_addPart_natAbs_le (l : List Int) {x : Int × Bool} (h : x.1.natAbs ≤ 8388607) :
    (l.foldl addPart x).1.natAbs ≤ 8388607 := by
  induction l generalizing x with
  | nil => exact h
  | cons v l ih => exact ih (natAbs_satSym_le ..)

/-- While the sum stays in its range, it is exact. -/
theorem foldl_addPart_exact (l : List Int) {x : Int} (h : ∀ n, (x + (l.take n).sum).natAbs ≤ 8388607) :
    l.foldl addPart (x, false) = (x + l.sum, false) := by
  induction l generalizing x with
  | nil => simp
  | cons v l ih =>
    have hv : (x + v).natAbs ≤ 8388607 := by simpa using h 1
    rw [List.foldl_cons, addPart_of_natAbs_le hv, ih fun n => by simpa [add_assoc] using h (n + 1), List.sum_cons, add_assoc]

theorem foldl_addPart_zero {l : List Int} (h : ∀ v ∈ l, v = 0) : l.foldl addPart (0, false) = (0, false) := by
  induction l with
  | nil => rfl
  | cons v l ih =>
    rw [List.foldl_cons, h v List.mem_cons_self, show addPart (0, false) 0 = (0, false) by decide]
    exact ih fun w hw => h w (List.mem_cons_of_mem _ hw)

/-! ### Pair sums -/

/-- The real and the imaginary part of x times the conjugate of y. -/
def prodRe (x y : Smp) : Int := x.1 * y.1 + x.2.1 * y.2.1
def prodIm (x y : Smp) : Int := x.2.1 * y.1 - x.1 * y.2.1

/-- A pair sum adds the products' real parts, their imaginary parts, and the pairs with both valid, each for itself. -/
theorem pairSum_eq (a b : List Smp) (re im : Int × Bool) (n : Nat) : pairSum a b (re, im, n) =
    ((List.zipWith prodRe a b).foldl addPart re, (List.zipWith prodIm a b).foldl addPart im,
      n + ((a.zip b).filter fun q => q.1.2.2.1 && q.2.2.2.1).length) := by
  induction a generalizing b re im n with
  | nil => simp [pairSum]
  | cons x a ih =>
    cases b with
    | nil => simp [pairSum]
    | cons y b =>
      simp only [pairSum, ih, List.zipWith_cons_cons, List.foldl_cons, List.zip_cons_cons, List.filter_cons, prodRe, prodIm]
      cases x.2.2.1 && y.2.2.1
      · simp [b2n]
      · simp [b2n]; omega

/-- Products that all vanish add nothing. -/
theorem foldl_addPart_zipWith_zero {f : Smp → Smp → Int} {a b : List Smp} (h : ∀ q ∈ a.zip b, f q.1 q.2 = 0) :
    (List.zipWith f a b).foldl addPart (0, false) = (0, false) := by
  rw [← List.map_uncurry_zip_eq_zipWith]
  exact foldl_addPart_zero (List.forall_mem_map.2 h)

theorem pairSum_markers {a b : List Smp} (h : ∀ x ∈ a, x = markerSmp) :
    pairSum a b ((0, false), (0, false), 0) = ((0, false), (0, false), 0) := by
  have hmarker : ∀ q ∈ a.zip b, q.1 = markerSmp := fun q hq => h _ (List.of_mem_zip hq).1
  have hre : ∀ q ∈ a.zip b, prodRe q.1 q.2 = 0 := fun q hq => by simp [prodRe, hmarker q hq, markerSmp]
  have him : ∀ q ∈ a.zip b, prodIm q.1 q.2 = 0 := fun q hq => by simp [prodIm, hmarker q hq, markerSmp]
  have hvalid : (a.zip b).filter (fun q => q.1.2.2.1 && q.2.2.2.1) = [] :=
    List.filter_eq_nil_iff.2 fun q hq => by simp [hmarker q hq, markerSmp]
  rw [pairSum_eq, foldl_addPart_zipWith_zero hre, foldl_addPart_zipWith_zero him, hvalid, List.length_nil]

/-- A sample times its own conjugate is real. -/
theorem pairSum_self_im (a : List Smp) : (pairSum a a ((0, false), (0, false), 0)).2.1 = (0, false) := by
  rw [pairSum_eq]
  refine foldl_addPart_zero ?_
  rw [List.zipWith_self]
  exact List.forall_mem_map.2 fun x _ => by simp [prodIm, mul_comm]

/-- Settles O28: a pair sum adds each component by itself (`pairSum_eq`), and an addition inside the range is exact. -/
theorem tileSumsAddTheProducts : Obligations.TileSumsAddTheProducts := by
  unfold Obligations.TileSumsAddTheProducts
  intro a b _
  have hzero : ((0 : Int), false).1.natAbs ≤ 8388607 := by decide
  have hexact : ∀ l : List Int, (∀ n, ((l.take n).sum).natAbs ≤ 8388607) → l.foldl addPart (0, false) = (l.sum, false) :=
    fun l h => by simpa using foldl_addPart_exact (x := 0) l (by simpa using h)
  dsimp only
  refine ⟨?range, ?re, ?im, ?count, pairSum_markers, pairSum_self_im a⟩
  all_goals rw [pairSum_eq]
  case range => exact ⟨foldl_addPart_natAbs_le _ hzero, foldl_addPart_natAbs_le _ hzero⟩
  case re => exact hexact _
  case im => exact hexact _
  case count => exact Nat.zero_add _

/-! ### Beam sums -/

/-- The sum from the i-th weight on, component by component. -/
theorem beamSum_eq (w : Nat → Int × Int) (i : Nat) (l : List Smp) : beamSum w i l =
    (((List.range l.length).map fun k =>
        (w (i + k)).1 * (l.getD k markerSmp).1 - (w (i + k)).2 * (l.getD k markerSmp).2.1).sum,
      ((List.range l.length).map fun k =>
        (w (i + k)).1 * (l.getD k markerSmp).2.1 + (w (i + k)).2 * (l.getD k markerSmp).1).sum) := by
  induction l generalizing i with
  | nil => rfl
  | cons x l ih =>
    simp only [beamSum, ih, List.length_cons, List.range_succ_eq_map, List.map_cons, List.map_map, List.sum_cons,
      List.getD_cons_zero, Function.comp_def, List.getD_cons_succ, Nat.add_zero, Nat.succ_eq_add_one, Prod.mk.injEq]
    simp only [show ∀ k, i + 1 + k = i + (k + 1) by omega]
    constructor <;> ring

/-- 00 R5: half up. -/
theorem rhu_two_pow (sh : Nat) (v : Int) : rhu v ((2 ^ sh : Nat) : Int) = (v + (2 ^ sh / 2 : Nat)) / (2 ^ sh : Nat) := by
  unfold rhu
  cases sh with
  | zero => simp; omega
  | succ n =>
    have h : 2 ^ (n + 1) / 2 = 2 ^ n := by omega
    rw [h, pow_succ, Nat.cast_mul, Nat.cast_ofNat]
    rw [show 2 * v + (2 ^ n : Nat) * 2 = 2 * (v + (2 ^ n : Nat)) by ring, Int.mul_ediv_mul_of_pos _ _ (by decide)]

theorem satSym_eq_max_min {l : Int} (h : 0 ≤ l) (x : Int) : satSym l x = max (-l) (min l x) := by
  unfold satSym
  split
  · omega
  · split <;> omega

/-- Settles O32: the sum from the first weight on (`beamSum_eq`), and round half up of a power of two (`rhu_two_pow`). -/
theorem beamSumsAddWeightedSamples : Obligations.BeamSumsAddWeightedSamples := by
  unfold Obligations.BeamSumsAddWeightedSamples
  intro w l
  refine ⟨?re, ?im, fun sh v => ?quant⟩
  case re => simp [beamSum_eq]
  case im => simp [beamSum_eq]
  case quant =>
    rw [← rhu_two_pow]
    refine ⟨satSym_eq_max_min (by decide) _, ?_⟩
    simp only [beamQuant, decide_eq_true_eq]
    omega

end Sys2Proof.Machine
end

section
/-! Staged words (07 R201, R209, R225): what reading them leaves of the fabric and of its clusters, shared by the segments (O29) and
the beam batches (O33). -/

namespace Sys2Proof.Machine

open Sys2Proof

/-! ### What a read may change -/

/-- From s to t only what a read of staged words marks and counts has changed in the fabric: the late and the bad words, their counts,
and of each cluster its late and its malformed samples. -/
def readsOnly (s t : State) : Prop :=
  t.fab = { s.fab with cl := t.fab.cl, lateW := t.fab.lateW, poison := t.fab.poison, stagingLate := t.fab.stagingLate,
                       eccCorr := t.fab.eccCorr, eccUncorr := t.fab.eccUncorr } ∧
  ∀ j, t.cl j = { s.cl j with lateRun := (t.cl j).lateRun, latePass := (t.cl j).latePass, seenBad := (t.cl j).seenBad,
                              fmtErrors := (t.cl j).fmtErrors, fmtBlock := (t.cl j).fmtBlock }

variable {s t u : State}

theorem readsOnly.refl (s : State) : readsOnly s s := ⟨rfl, fun _ => rfl⟩

theorem readsOnly.trans (h : readsOnly s t) (k : readsOnly t u) : readsOnly s u := by
  obtain ⟨hfab, hcl⟩ := h
  obtain ⟨kfab, kcl⟩ := k
  exact ⟨kfab.trans (by rw [hfab]), fun j => (kcl j).trans (by rw [hcl])⟩

/-- What leaves the fabric alone may follow. -/
theorem readsOnly.of_fab (h : readsOnly s t) (e : u.fab = t.fab) : readsOnly s u :=
  h.trans ⟨by rw [e], fun j => by rw [State.cl_of_fab e]⟩

theorem readsOnly.raise (src kind addr : Nat) (h : readsOnly s t) : readsOnly s (raise src kind addr t) :=
  h.of_fab (raise_fab ..)

theorem readsOnly.raiseT (test : Bool) (src kind addr : Nat) (h : readsOnly s t) : readsOnly s (raiseT test src kind addr t) :=
  h.of_fab (raiseT_fab ..)

theorem readsOnly.exclGroup (x c first last : Nat) (h : readsOnly s t) : readsOnly s (exclGroup x c first last t) :=
  h.of_fab ((exclGroup_frame ..).get .fab)

theorem readsOnly_setCl {k : Nat} {v : Cluster}
    (h : v = { s.cl k with lateRun := v.lateRun, latePass := v.latePass, seenBad := v.seenBad, fmtErrors := v.fmtErrors,
                           fmtBlock := v.fmtBlock }) : readsOnly s (s.setCl k v) := by
  refine ⟨rfl, fun j => ?_⟩
  rw [State.cl_setCl]
  split
  · next e => rw [e]; exact h
  · rfl

theorem readsOnly_setFab {f : Fab} (hcl : f.cl = s.fab.cl)
    (h : f = { s.fab with cl := f.cl, lateW := f.lateW, poison := f.poison, stagingLate := f.stagingLate, eccCorr := f.eccCorr,
                          eccUncorr := f.eccUncorr }) : readsOnly s (s.setFab f) := by
  refine ⟨h, fun j => ?_⟩
  have e : (s.setFab f).cl j = s.cl j := congrArg (fun c => Tab.get clInit c j) hcl
  rw [e]

/-! ### The reads of one cluster -/

theorem lateRead_readsOnly (k c b key : Nat) (s : State) : readsOnly s (lateRead k c b key s) := by
  have hmark : readsOnly s (s.setCl k { s.cl k with lateRun := true, latePass := some (b, c) }) := readsOnly_setCl rfl
  unfold lateRead
  dsimp only
  split
  · exact hmark
  · exact hmark.raise ..

theorem readLate_readsOnly (m : Tab Nat) (k c b g q : Nat) (s : State) : readsOnly s (readLate m k c b g q s).2 := by
  unfold readLate
  dsimp only
  split
  · exact lateRead_readsOnly ..
  split
  · exact .refl s
  · exact ((readsOnly_setFab (by rfl) (by rfl)).trans (lateRead_readsOnly ..)).exclGroup ..

theorem eccCheck_readsOnly (src checker : Nat) (e : Ecc) (s : State) : readsOnly s (eccCheck src checker e s).2.2 :=
  (readsOnly.refl s).of_fab (eccCheck_fab ..)

theorem readWord_readsOnly (m : Tab Nat) (k c b g q h : Nat) (e : Ecc) (s : State) : readsOnly s (readWord m k c b g q h e s).2 := by
  have hcheck := eccCheck_readsOnly (clSrc k) 1 e s
  unfold readWord
  dsimp only
  split
  · exact .refl s
  split
  · exact hcheck
  · exact (hcheck.trans (readsOnly_setFab (by rfl) (by rfl))).raiseT ..
  · exact ((hcheck.trans (readsOnly_setFab (by rfl) (by rfl))).raiseT ..).exclGroup ..

theorem countBad_readsOnly (m : Tab Nat) (k c b a q : Nat) (s : State) : readsOnly s (countBad m k c b a q s) := by
  unfold countBad
  dsimp only
  split
  · exact .refl s
  · refine readsOnly.of_fab ?_ ((exclInput_frame ..).get .fab)
    split
    · exact readsOnly_setCl rfl
    · exact (readsOnly_setCl rfl).raise ..

theorem countBads_readsOnly (m : Tab Nat) (k c b g q : Nat) (l : List Smp) (s : State) : readsOnly s (countBads m k c b g q l s) := by
  unfold countBads
  refine List.foldlRecOn (motive := readsOnly s) _ _ (.refl s) fun v hv x _ => ?_
  split
  · exact hv.trans (countBad_readsOnly ..)
  · exact hv

theorem checkOctet_readsOnly (m : Tab Nat) (k c b g q : Nat) (e0 e1 : Ecc) (s : State) :
    readsOnly s (checkOctet m k c b g q e0 e1 s).2.2 := by
  unfold checkOctet
  dsimp only
  split
  · exact (readWord_readsOnly ..).trans (readWord_readsOnly ..)
  · exact readWord_readsOnly ..

theorem readSamples_readsOnly (m : Tab Nat) (k c b g q : Nat) (e0 e1 : Ecc) (s : State) :
    readsOnly s (readSamples m k c b g q e0 e1 s).2 := by
  have hlate := readLate_readsOnly m k c b g q s
  unfold readSamples
  dsimp only
  split
  · exact hlate
  · exact (hlate.trans (checkOctet_readsOnly ..)).trans (countBads_readsOnly ..)

theorem readGroup_readsOnly (m : Tab Nat) (k c b g : Nat) (ecc : List (Nat × Nat × Ecc)) (qs : List Nat) (s : State) :
    readsOnly s (readGroup m k c b g ecc qs s).2 := by
  induction qs generalizing s with
  | nil => exact .refl s
  | cons q qs ih => exact (readSamples_readsOnly ..).trans (ih _)

end Sys2Proof.Machine
end

section
/-! Segments (07 R206, 08 R232, R233, 16 R472): what a segment end does at the position that works the fabric's strip (O29). -/

namespace Sys2Proof.Machine

open Sys2Proof

variable {s t u : State}

/-! ### The released folds (08 R235, R236) -/

theorem mem_insertFold {f g : FoldItem} {l : List FoldItem} : g ∈ insertFold f l ↔ g = f ∨ g ∈ l := by
  induction l with
  | nil => simp [insertFold]
  | cons h l ih =>
    unfold insertFold
    split
    · exact List.mem_cons
    · rw [List.mem_cons, ih, List.mem_cons, or_left_comm]

theorem mem_foldl_insertFold {f : FoldItem} (o l : List FoldItem) :
    f ∈ o.foldl (fun l f => insertFold f l) l ↔ f ∈ o ∨ f ∈ l := by
  induction o generalizing l with
  | nil => simp
  | cons g o ih => rw [List.foldl_cons, ih, mem_insertFold, List.mem_cons, or_left_comm, or_assoc]

theorem rngDraws_length (n x : Nat) : (rngDraws n x).1.length = n := by
  induction n generalizing x with
  | zero => rfl
  | succ n ih => exact congrArg (· + 1) (ih _)

/-- The last fold of a queue in which one is held stays. -/
theorem releaseGo_of_held {q : List FoldItem} {f : FoldItem} (x : Nat) (h : ∃ g ∈ q ++ [f], g.held = true) :
    f ∈ (releaseGo (q ++ [f]) x).2.1 := by
  induction q generalizing x with
  | nil =>
    have hf : f.held = true := by simpa using h
    simp [releaseGo, hf]
  | cons g q ih =>
    rw [List.cons_append, releaseGo]
    split
    · simp
    · next hg => exact ih _ (by simpa [hg] using h)

theorem releaseGo_cons_of_free {g : FoldItem} (hg : g.held = false) (q : List FoldItem) (x : Nat) :
    (releaseGo (g :: q) x).1 = { g with rnd := (rngDraws 128 x).1 } :: (releaseGo q (rngDraws 128 x).2).1 ∧
      (releaseGo (g :: q) x).2.1 = (releaseGo q (rngDraws 128 x).2).2.1 := by
  simp only [releaseGo, hg, Bool.false_eq_true, if_false, and_self]

/-- A queue in which none is held empties, and each fold takes 128 random values with it. -/
theorem releaseGo_of_free {q : List FoldItem} (x : Nat) (h : ∀ g ∈ q, g.held = false) : (releaseGo q x).2.1 = [] ∧
    ∀ f ∈ q, ∃ d : List Nat, d.length = 128 ∧ { f with rnd := d } ∈ (releaseGo q x).1 := by
  induction q generalizing x with
  | nil => simp [releaseGo]
  | cons g q ih =>
    obtain ⟨hout, hrest⟩ := releaseGo_cons_of_free (h g List.mem_cons_self) q x
    obtain ⟨ihrest, ihout⟩ := ih (rngDraws 128 x).2 fun f hf => h f (List.mem_cons_of_mem _ hf)
    rw [hout, hrest]
    refine ⟨ihrest, fun f hf => ?_⟩
    rcases List.mem_cons.1 hf with rfl | hf
    · exact ⟨_, rngDraws_length 128 x, List.mem_cons_self⟩
    · obtain ⟨d, hd, hmem⟩ := ihout f hf
      exact ⟨d, hd, List.mem_cons_of_mem _ hmem⟩

/-- A release writes the released folds and the clusters alone. -/
theorem releaseFolds_fab (k : Nat) (s : State) : (releaseFolds k s).fab =
    { s.fab with cl := (releaseFolds k s).fab.cl, folds := (releaseFolds k s).fab.folds } := rfl

theorem releaseFolds_queue (k : Nat) (s : State) :
    ((releaseFolds k s).cl k).queue = (releaseGo (s.cl k).queue ((s.cl k).gen.getD 0)).2.1 :=
  congrArg Cluster.queue ((State.cl_setCl ..).trans (if_pos rfl))

theorem mem_releaseFolds {k : Nat} {f : FoldItem} {s : State} : f ∈ (releaseFolds k s).fab.folds ↔
    f ∈ (releaseGo (s.cl k).queue ((s.cl k).gen.getD 0)).1 ∨ f ∈ s.fab.folds :=
  mem_foldl_insertFold ..

/-- Where the last fold of a queue stands once the queue has emitted what it can. -/
theorem releaseFolds_last {k : Nat} {q : List FoldItem} {f : FoldItem} (hq : (s.cl k).queue = q ++ [f]) (hrnd : f.rnd = []) :
    ∃ g : FoldItem, (g ∈ ((releaseFolds k s).cl k).queue ∨ g ∈ (releaseFolds k s).fab.folds) ∧
      (f.held = true → g ∈ ((releaseFolds k s).cl k).queue) ∧
      (f.held = false → (∀ h ∈ q, h.held = false) →
        ((releaseFolds k s).cl k).queue = [] ∧ g ∈ (releaseFolds k s).fab.folds ∧ g.rnd.length = 128) ∧
      { g with rnd := [] } = f := by
  simp only [releaseFolds_queue, mem_releaseFolds, hq]
  by_cases h : ∃ g ∈ q ++ [f], g.held = true
  · have hf := releaseGo_of_held ((s.cl k).gen.getD 0) h
    refine ⟨f, .inl hf, fun _ => hf, fun hfree hqfree => ?_, by rw [← hrnd]⟩
    obtain ⟨g, hg, hheld⟩ := h
    rcases List.mem_append.1 hg with hg | hg
    · exact absurd hheld (by simp [hqfree g hg])
    · exact absurd hheld (by simp [List.mem_singleton.1 hg, hfree])
  · have hfree : ∀ g ∈ q ++ [f], g.held = false := fun g hg => Bool.eq_false_iff.2 fun e => h ⟨g, hg, e⟩
    have hmem : f ∈ q ++ [f] := by simp
    obtain ⟨hrest, hout⟩ := releaseGo_of_free ((s.cl k).gen.getD 0) hfree
    obtain ⟨d, hd, hg⟩ := hout f hmem
    exact ⟨{ f with rnd := d }, .inr (.inl hg), fun hheld => absurd hheld (by simp [hfree f hmem]),
      fun _ _ => ⟨hrest, .inl hg, hd⟩, by rw [← hrnd]⟩

/-! ### A fold joins its cluster's queue -/

/-- A fold stands last in the queue of cluster k, and its sums' saturation is counted. -/
def foldQueued (k : Nat) (f : FoldItem) (s : State) : State :=
  let s1 := s.setCl k { s.cl k with queue := (s.cl k).queue ++ [f], tileSat := satAdd 32 (s.cl k).tileSat (b2n f.sat) }
  s1.setFab { s1.fab with seq := s1.fab.seq + 1 }

/-- The fold of a segment joins the cluster's queue, which then emits what it can. -/
def queueFold (k : Nat) (f : FoldItem) (s : State) : State :=
  releaseFolds k (if f.sat then raise (clSrc k) 0x0D f.c (foldQueued k f s) else foldQueued k f s)

theorem raise_if_fab {c : Prop} [Decidable c] {src kind addr : Nat} {s : State} :
    (if c then raise src kind addr s else s).fab = s.fab := by
  split
  · exact raise_fab ..
  · rfl

theorem foldQueued_queue (k : Nat) (f : FoldItem) (s : State) : ((foldQueued k f s).cl k).queue = (s.cl k).queue ++ [f] :=
  congrArg Cluster.queue ((State.cl_setCl ..).trans (if_pos rfl))

theorem queueFold_fab (k : Nat) (f : FoldItem) (s : State) : (queueFold k f s).fab =
    { s.fab with cl := (queueFold k f s).fab.cl, folds := (queueFold k f s).fab.folds, seq := s.fab.seq + 1 } :=
  (releaseFolds_fab ..).trans (by rw [raise_if_fab]; rfl)

theorem queueFold_last {k : Nat} {f : FoldItem} (hrnd : f.rnd = []) (s : State) :
    ∃ g : FoldItem, (g ∈ ((queueFold k f s).cl k).queue ∨ g ∈ (queueFold k f s).fab.folds) ∧
      (f.held = true → g ∈ ((queueFold k f s).cl k).queue) ∧
      (f.held = false → (∀ h ∈ (s.cl k).queue, h.held = false) →
        ((queueFold k f s).cl k).queue = [] ∧ g ∈ (queueFold k f s).fab.folds ∧ g.rnd.length = 128) ∧
      { g with rnd := [] } = f :=
  releaseFolds_last ((congrArg Cluster.queue (State.cl_of_fab raise_if_fab k)).trans (foldQueued_queue ..)) hrnd

/-! ### A withdrawn run (16 R472) -/

theorem withdraw_fab (k : Nat) (n : Notice) (s : State) : (withdraw k n s).fab =
    { s.fab with cl := (withdraw k n s).fab.cl, notices := (withdraw k n s).fab.notices } := by
  unfold withdraw
  split
  · split <;> rfl
  · rfl

/-- The run stands in an open notice: one of its own, or one of its position's that it goes on from. -/
theorem withdraw_notice (k : Nat) (n : Notice) (s : State) :
    ∃ o ∈ ((withdraw k n s).cl k).wd, o.c = n.c ∧ o.x0 = n.x0 ∧ o.j = n.j ∧ o.strip = n.strip ∧ o.last = n.last ∧
      (o.first = n.first ∨ ∃ o' ∈ (s.cl k).wd, o'.j = n.j ∧ o'.last + 1 = n.first ∧ o.first = o'.first) := by
  have hown : ∀ {u : State} {v : Cluster}, n ∈ ((u.setCl k { v with wd := v.wd ++ [n] }).cl k).wd := fun {u v} => by
    rw [State.cl_setCl, if_pos rfl]; simp
  unfold withdraw
  split
  · next o ho =>
    have hmem := List.mem_of_find?_eq_some ho
    have hj : o.j = n.j := by simpa using List.find?_some ho
    split
    · next h =>
      obtain ⟨hc, hx, hstrip, hlast⟩ := h
      refine ⟨{ o with last := n.last }, ?_, hc, hx, hj, hstrip, rfl, .inr ⟨o, hmem, hj, hlast, rfl⟩⟩
      rw [State.cl_setCl, if_pos rfl]
      exact List.mem_map.2 ⟨o, hmem, if_pos rfl⟩
    · exact ⟨n, hown, rfl, rfl, rfl, rfl, rfl, .inl rfl⟩
  · exact ⟨n, hown, rfl, rfl, rfl, rfl, rfl, .inl rfl⟩

/-! ### The strip that starts (16 R478) -/

/-- The state with the runs of unserved positions spread, where the strip that the fabric works starts with them. -/
def State.stripStarted (s : State) (w : Win) : State :=
  match s.front w (s.winSet w) with
  | some n => spreadDue w (s.winSet w) n s
  | none => s

theorem spreadRun_win (w : Win) (m : Tab Nat) (k p n : Nat) (s : State) : (spreadRun w m k p n s).fab.win = s.fab.win := by
  unfold spreadRun
  refine List.foldlRecOn (motive := fun t : State => t.fab.win = s.fab.win) _ _ rfl fun v hv x _ => ?_
  split
  · exact hv
  · rw [apply_ite State.fab, apply_ite Fab.win]
    exact (ite_self _).trans hv

theorem spreadDue_win (w : Win) (m : Tab Nat) (n : Nat) (s : State) : (spreadDue w m n s).fab.win = s.fab.win := by
  unfold spreadDue
  refine List.foldlRecOn (motive := fun t : State => t.fab.win = s.fab.win) _ _ rfl fun v hv c _ => ?_
  refine List.foldlRecOn (motive := fun t : State => t.fab.win = s.fab.win) _ _ hv fun v hv x _ => ?_
  split
  · split
    · split
      · exact (spreadRun_win ..).trans hv
      · exact hv
    · exact hv
  · exact hv

theorem spreadDue_of_served {w : Win} {m : Tab Nat} {n : Nat} (h : ∀ c ∈ s.fab.cl, c.2.fallback = []) : spreadDue w m n s = s := by
  unfold spreadDue
  refine List.foldlRecOn (motive := fun t : State => t = s) _ _ rfl fun v hv c hc => ?_
  rw [h c hc]
  exact hv

section strip
variable {w : Win}

theorem stripStarted_win : (s.stripStarted w).fab.win = s.fab.win := by
  unfold State.stripStarted
  split
  · exact spreadDue_win ..
  · rfl

theorem stripStarted_frame : Frame [.fab] s (s.stripStarted w) := by
  unfold State.stripStarted
  split
  · exact spreadDue_frame ..
  · exact Frame.refl ..

theorem stripStarted_of_served (h : ∀ c ∈ s.fab.cl, c.2.fallback = []) : s.stripStarted w = s := by
  unfold State.stripStarted
  split
  · exact spreadDue_of_served h
  · rfl

end strip

/-! ### A segment ends (07 R206) -/

section segment
variable (w : Win) (m : Tab Nat) (k p : Nat) (ecc : List (Nat × Nat × Ecc)) (v : PosSt) (a e : Nat)

/-- The samples of a segment's rows and columns as the cluster reads them. -/
def segmentRead (s : State) : (List (List Smp) × List (List Smp)) × State :=
  let c := w.chans.getD v.pass 0
  let gh := tileOf m (a / setQ m)
  let qs := (List.range (e - a)).map fun n => v.strip * setQ m + a % setQ m + n
  let rows := readGroup m k c w.block gh.1 ecc qs s
  let cols := if gh.1 = gh.2 then rows else readGroup m k c w.block gh.2 ecc qs rows.2
  ((rows.1, cols.1), cols.2)

/-- The fold of a segment: what the cluster holds of it, with the sums over the samples read. -/
def State.segmentFold (z : List (Int × Int) × List Nat × Bool) (s : State) : FoldItem :=
  { seq := s.fab.seq, k := k, p := p, j := posIndex m k p, slot := (s.cl k).slots.getD p 0, c := w.chans.getD v.pass 0,
    block := w.block, x0 := w.x0, strip := v.strip, e0 := a, e1 := e - 1, tile := a / setQ m,
    first := v.strip * setQ m + a % setQ m, last := v.strip * setQ m + a % setQ m + (e - a) - 1, sums := z.1, counts := z.2.1,
    sat := z.2.2, held := (s.cl k).audits_ p (s.fab.passBase + v.pass) }

/-- The segment becomes a fold. -/
def foldSegment (s : State) : State :=
  let c := w.chans.getD v.pass 0
  let gh := tileOf m (a / setQ m)
  let qs := (List.range (e - a)).map fun n => v.strip * setQ m + a % setQ m + n
  let (rows, s2) := readGroup m k c w.block gh.1 ecc qs s
  let (cols, s3) := if gh.1 = gh.2 then (rows, s2) else readGroup m k c w.block gh.2 ecc qs s2
  let (sums, counts, sat) := tileSums rows cols
  queueFold k (s3.segmentFold w m k p v a e (sums, counts, sat)) s3

/-- The position at offset a of a run to b, with the ranges r after it, closes its segment. -/
def closeRun (b : Nat) (r : List (Nat × Nat)) (u : State) : State :=
  let e := segEnd (setQ m) (setLf m) v.strip a b
  let s := u.setPos k p { v with todo := some ((e, b) :: r) }
  if (s.cl k).withdraw.contains p then
    withdraw k ⟨w.chans.getD v.pass 0, w.block, w.x0, posIndex m k p, v.strip, a, e - 1⟩ s
  else foldSegment w m k p ecc v a e s

/-- The position closes its segment, if it works the strip numbered n. -/
def closeSegment (n : Option Nat) (u : State) : State :=
  match (if u.posStalled k p then none else u.workOf w m k p) with
  | none => u
  | some v =>
    match (if n = some (stripNo (8192 / max 1 (setQ m)) v) then v.todo else none) with
    | some ((a, b) :: r) => closeRun w m k p ecc v a b r u
    | _ => u

variable {w m k p ecc v a e}

theorem segmentEnd_outside (hwin : s.fab.win = none) : segmentEnd k p ecc s = s := by
  unfold segmentEnd
  rw [hwin]

theorem segmentEnd_eq (hwin : s.fab.win = some w) :
    segmentEnd k p ecc s = closeSegment w (s.winSet w) k p ecc (s.front w (s.winSet w)) (s.stripStarted w) := by
  unfold segmentEnd
  rw [hwin]
  rfl

theorem closeSegment_idle {n : Option Nat} (h : u.posStalled k p = true ∨ u.workOf w m k p = none ∨
    ∃ v, u.workOf w m k p = some v ∧ n ≠ some (stripNo (8192 / max 1 (setQ m)) v)) :
    closeSegment w m k p ecc n u = u := by
  unfold closeSegment
  by_cases hstall : u.posStalled k p = true
  · simp [hstall]
  · rcases h with h | h | ⟨v, hwork, hn⟩
    · exact absurd h hstall
    · simp [hstall, h]
    · simp [hstall, hwork, hn]

theorem closeSegment_work {n : Option Nat} {b : Nat} {r : List (Nat × Nat)} (hstall : u.posStalled k p = false)
    (hwork : u.workOf w m k p = some v) (hn : n = some (stripNo (8192 / max 1 (setQ m)) v)) (htodo : v.todo = some ((a, b) :: r)) :
    closeSegment w m k p ecc n u = closeRun w m k p ecc v a b r u := by
  simp [closeSegment, hstall, hwork, hn, htodo]

theorem closeRun_withdraw {b : Nat} {r : List (Nat × Nat)} (h : p ∈ (u.cl k).withdraw) :
    let e := segEnd (setQ m) (setLf m) v.strip a b
    closeRun w m k p ecc v a b r u = withdraw k ⟨w.chans.getD v.pass 0, w.block, w.x0, posIndex m k p, v.strip, a, e - 1⟩
      (u.setPos k p { v with todo := some ((e, b) :: r) }) :=
  if_pos (List.contains_iff_mem.2 h)

theorem closeRun_fold {b : Nat} {r : List (Nat × Nat)} (h : p ∉ (u.cl k).withdraw) :
    let e := segEnd (setQ m) (setLf m) v.strip a b
    closeRun w m k p ecc v a b r u = foldSegment w m k p ecc v a e (u.setPos k p { v with todo := some ((e, b) :: r) }) :=
  if_neg fun c => h (List.contains_iff_mem.1 c)

theorem segmentRead_readsOnly (s : State) : readsOnly s (segmentRead w m k ecc v a e s).2 := by
  unfold segmentRead
  dsimp only
  split
  · exact readGroup_readsOnly ..
  · exact (readGroup_readsOnly ..).trans (readGroup_readsOnly ..)

theorem foldSegment_eq (s : State) : foldSegment w m k p ecc v a e s =
    queueFold k ((segmentRead w m k ecc v a e s).2.segmentFold w m k p v a e
      (tileSums (segmentRead w m k ecc v a e s).1.1 (segmentRead w m k ecc v a e s).1.2)) (segmentRead w m k ecc v a e s).2 := by
  unfold foldSegment segmentRead
  rfl

/-- A read leaves what the fold takes of the cluster. -/
theorem State.segmentFold_congr (h : readsOnly s t) (z : List (Int × Int) × List Nat × Bool) :
    t.segmentFold w m k p v a e z = s.segmentFold w m k p v a e z := by
  obtain ⟨hfab, hcl⟩ := h
  unfold State.segmentFold
  rw [hfab, hcl k]
  rfl

/-- Where the fold of a segment stands, what it holds, and what the segment leaves of the fabric. -/
theorem foldSegment_spec (s : State) :
    let x := segmentRead w m k ecc v a e s
    let f := s.segmentFold w m k p v a e (tileSums x.1.1 x.1.2)
    let t := foldSegment w m k p ecc v a e s
    (t.fab.pos = s.fab.pos ∧ t.fab.seq = s.fab.seq + 1 ∧ t.fab.win = s.fab.win) ∧
    ∃ g : FoldItem, (g ∈ (t.cl k).queue ∨ g ∈ t.fab.folds) ∧ (f.held = true → g ∈ (t.cl k).queue) ∧
      (f.held = false → (∀ h ∈ (s.cl k).queue, h.held = false) → (t.cl k).queue = [] ∧ g ∈ t.fab.folds ∧ g.rnd.length = 128) ∧
      { g with rnd := [] } = f := by
  intro x f t
  have hread : readsOnly s x.2 := segmentRead_readsOnly s
  have hf : x.2.segmentFold w m k p v a e (tileSums x.1.1 x.1.2) = f := State.segmentFold_congr hread _
  have ht : t = queueFold k f x.2 := (foldSegment_eq s).trans (congrArg (queueFold k · x.2) hf)
  obtain ⟨hfab, hcl⟩ := hread
  have hqueue : (x.2.cl k).queue = (s.cl k).queue := by rw [hcl k]
  have hlast := queueFold_last (k := k) (f := f) rfl x.2
  rw [hqueue, ← ht] at hlast
  refine ⟨?_, hlast⟩
  rw [ht, queueFold_fab, hfab]
  exact ⟨rfl, rfl, rfl⟩

end segment

theorem State.posSt_of_pos {k p : Nat} {v : PosSt} (h : t.fab.pos = (u.setPos k p v).fab.pos) : t.posSt k p = v := by
  rw [State.posSt, h]
  exact Tab.get_set_self ..

/-- Settles O29: the position closes its segment in the state with the runs of unserved positions spread (`segmentEnd_eq`), as a
withdrawn run (`withdraw_notice`) or as a fold (`foldSegment_spec`). -/
theorem aSegmentEndMakesOneFold : Obligations.ASegmentEndMakesOneFold := by
  unfold Obligations.ASegmentEndMakesOneFold
  intro k p ecc s
  refine ⟨fun hwin => ?no_window, fun w hwin => ?window⟩
  case no_window => exact congrArg Host.Outcome.next (segmentEnd_outside hwin)
  case window =>
    intro m q no u
    have hend : segmentEnd k p ecc s = closeSegment w m k p ecc (s.front w m) u := segmentEnd_eq hwin
    have hu : Frame [.fab] s u := stripStarted_frame
    have huwin : u.fab.win = some w := stripStarted_win.trans hwin
    refine ⟨stripStarted_of_served, ?_⟩
    clear_value u
    refine ⟨fun h => ?idle, fun v a b r hstall hwork hfront htodo => ?work⟩
    case idle => exact congrArg Host.Outcome.next (hend.trans (closeSegment_idle h))
    case work =>
      intro e s1 c gh q0 qs rows cols z held
      have hclose : segmentEnd k p ecc s = closeRun w m k p ecc v a b r u :=
        hend.trans (closeSegment_work hstall hwork hfront htodo)
      refine ⟨fun hwd => ?withdrawn, fun hwd => ?fold⟩
      case withdrawn =>
        have hstep : segmentEnd k p ecc s = withdraw k ⟨c, w.block, w.x0, posIndex m k p, v.strip, a, e - 1⟩ s1 :=
          hclose.trans (closeRun_withdraw hwd)
        obtain ⟨o, ho, hc, hx, hj, hstrip, hlast, hfirst⟩ :=
          withdraw_notice k ⟨c, w.block, w.x0, posIndex m k p, v.strip, a, e - 1⟩ s1
        have hfab := withdraw_fab k ⟨c, w.block, w.x0, posIndex m k p, v.strip, a, e - 1⟩ s1
        refine ⟨_, congrArg Host.Outcome.next hstep, ?frame, State.posSt_of_pos (by rw [hfab]), by rw [hfab]; rfl, by rw [hfab]; rfl,
          o, ho, hc, hx, hj, hstrip, hlast, hfirst.imp_right fun ⟨o', ho', hj', hrest⟩ => ⟨o', ho', hj'.trans hj.symm, hrest⟩⟩
        exact (hu.step (State.setPos_frame ..) (List.Subset.refl _)).step (withdraw_frame ..) (List.Subset.refl _)
      case fold =>
        have hstep : segmentEnd k p ecc s = foldSegment w m k p ecc v a e s1 := hclose.trans (closeRun_fold hwd)
        have hframe := segmentEnd_frame k p ecc s
        obtain ⟨⟨hpos, hseq, hkeep⟩, g, hmem, hheld, hfree, hfold⟩ :=
          foldSegment_spec (w := w) (m := m) (k := k) (p := p) (ecc := ecc) (v := v) (a := a) (e := e) s1
        rw [hstep] at hframe
        exact ⟨_, congrArg Host.Outcome.next hstep, hframe, State.posSt_of_pos hpos, hseq, hkeep.trans huwin, g, hmem, hheld, hfree, hfold⟩

end Sys2Proof.Machine
end

section
/-! Fabric windows (07 R202, R203, R210, 08 R233, 16 R479): how a window opens, and what its end leaves (O27). -/

namespace Sys2Proof.Machine

open Sys2Proof

variable {s t : State}

/-! ### A window opens (07 R202, 16 R480) -/

/-- The fabric under the schedule for the block at x0, worked out anew where a position left out is served again, or a new set or
START comes with the block (assumption 221). -/
def State.schedFab (s : State) (x0 : Nat) : Fab :=
  if (s.fab.removed.any fun p => !s.unserved.contains p) ∨
      ((s.fab.start = some x0 ∨ s.setAt (natSub x0 1) ≠ s.setAt x0) ∧ s.fab.removed ≠ []) then
    if s.unserved = [] then { s.fab with removed := [], dropped := 0, beamsOff := false, newSched := none }
    else { s.fab with removed := s.unserved, dropped := (s.reduced (s.setAt x0)).2.1, beamsOff := (s.reduced (s.setAt x0)).2.2,
                      newSched := none }
  else s.fab

/-- The block at x0 is the fabric's next one: it has begun with data, and the one after it has come. -/
def State.windowDue (s : State) (x0 : Nat) : Prop :=
  (∃ b0, s.fab.start = some b0 ∧ b0 ≤ x0) ∧ x0 % setTB (s.setAt x0) = 0 ∧ x0 + setTB (s.setAt x0) + 500000 ≤ s.dataPm ∧
    s.fab.win = none

theorem windowStart_outside {x0 : Nat} (h : ¬ s.windowDue x0) : windowStart x0 s = s := by
  refine if_neg fun c => h ?_
  obtain ⟨hbegun, hx, hdata, hwin⟩ := c
  refine ⟨?_, hx, hdata, Option.isNone_iff_eq_none.1 hwin⟩
  cases hstart : s.fab.start with
  | none => rw [hstart] at hbegun; cases hbegun
  | some b0 => rw [hstart] at hbegun; exact ⟨b0, rfl, of_decide_eq_true hbegun⟩

/-- The integrations in which the channels that the block at x0 leaves out are folded nowhere. -/
def State.outFolds (s : State) (m : Tab Nat) (x0 : Nat) : List (Nat × Nat) :=
  ((List.range (setChans m)).filter fun c => decide (setChans m - s.fab.dropped ≤ c)).map fun c => (c, s.intAt m c x0)

/-- The window of the block at x0 opens under the schedule in force. -/
def openWindow (m : Tab Nat) (x0 : Nat) (s : State) : State :=
  { s with
    fab := { s.fab with pos := [], win := some ⟨x0 / setTB m, x0, passOrder m (x0 / setTB m) s.fab.dropped⟩ }
    acc := { s.acc with noFold := (s.acc.noFold ++ s.outFolds m x0).eraseDups } }

theorem reschedule_eq (x0 : Nat) (s : State) :
    (if ((s.fab.removed.any fun p => !s.unserved.contains p) ||
        ((decide (s.fab.start = some x0) || s.setAt (natSub x0 1) != s.setAt x0) && !s.fab.removed.isEmpty)) = true then
      if s.unserved.isEmpty = true then
        s.setFab { s.fab with removed := [], dropped := 0, beamsOff := false, newSched := none }
      else s.setFab { s.fab with removed := s.unserved, dropped := (s.reduced (s.setAt x0)).2.1,
                                 beamsOff := (s.reduced (s.setAt x0)).2.2, newSched := none }
    else s) = s.setFab (s.schedFab x0) := by
  simp only [Bool.or_eq_true, Bool.and_eq_true, decide_eq_true_eq, bne_iff_ne, Bool.not_eq_true', List.isEmpty_iff,
    List.isEmpty_eq_false_iff]
  unfold State.schedFab
  split
  · split <;> rfl
  · rfl

theorem windowStart_opens {x0 : Nat} (h : s.windowDue x0) :
    windowStart x0 s = openWindow (s.setAt x0) x0 (s.setFab (s.schedFab x0)) := by
  obtain ⟨⟨b0, hstart, hb0⟩, hx, hdata, hwin⟩ := h
  have hcond : (match s.fab.start with | some b0 => decide (b0 ≤ x0) | none => false) = true ∧ x0 % setTB (s.setAt x0) = 0 ∧
      x0 + setTB (s.setAt x0) + 500000 ≤ s.dataPm ∧ s.fab.win.isNone = true := by
    rw [hstart, hwin]
    exact ⟨decide_eq_true hb0, hx, hdata, rfl⟩
  exact (if_pos hcond).trans (congrArg (openWindow (s.setAt x0) x0) (reschedule_eq x0 s))

theorem mem_openWindow_noFold {m : Tab Nat} {x0 c i : Nat} : (c, i) ∈ (openWindow m x0 s).acc.noFold ↔ (c, i) ∈ s.acc.noFold ∨
    (c < setChans m ∧ setChans m - s.fab.dropped ≤ c ∧ i = s.intAt m c x0) := by
  simp only [openWindow, State.outFolds, List.mem_eraseDups, List.mem_append, List.mem_map, List.mem_filter, List.mem_range,
    decide_eq_true_eq, Prod.mk.injEq]
  refine or_congr_right ⟨?_, ?_⟩
  · rintro ⟨d, ⟨hd, hout⟩, rfl, rfl⟩
    exact ⟨hd, hout, rfl⟩
  · rintro ⟨hc, hout, hi⟩
    exact ⟨c, ⟨hc, hout⟩, rfl, hi.symm⟩

theorem openWindow_frame (m : Tab Nat) (x0 : Nat) (s : State) : Frame [.fab, .acc] s (openWindow m x0 s) :=
  ((Frame.with_fab s (openWindow m x0 s).fab).weaken (by decide)).step (Frame.with_acc _ (openWindow m x0 s).acc) (by decide)

/-! ### What a position has left (07 R210) -/

/-- The notices of the work that cluster k has left in the window. -/
def State.clusterLeft (s : State) (w : Win) (m : Tab Nat) (k : Nat) : List Notice :=
  (List.range 16).flatMap fun p => if isBeam m k p then [] else leftOver s w m k p false

theorem State.clusterLeft_congr (hpos : t.fab.pos = s.fab.pos) (hremoved : t.fab.removed = s.fab.removed) (w : Win) (m : Tab Nat)
    (k : Nat) : t.clusterLeft w m k = s.clusterLeft w m k := by
  unfold State.clusterLeft leftOver State.workOf State.runOf State.corrIndex State.posSt
  rw [hpos, hremoved]

theorem any_not_isEmpty {α β : Type} (l : List α) (f : α → List β) : (l.any fun x => !(f x).isEmpty) = !(l.flatMap f).isEmpty := by
  rw [Bool.eq_iff_iff]
  simp

/-- A cluster at the end of a window: its status bits show the window. -/
def Cluster.windowOver (w : Win) (unrun : Bool) (v : Cluster) : Cluster :=
  { v with overrun := unrun, late := v.lateRun, lateRun := false,
           seenBad := v.seenBad.filter fun e => decide (w.block < e.2.1) }

/-- What a cluster leaves at the end of a window: its open notices and those of its unrun work have gone out. -/
def clusterOver (w : Win) (m : Tab Nat) (k : Nat) (s : State) : State :=
  let s0 := flushNotices k (fun _ => true) s
  let s1 := s0.setFab { s0.fab with notices := s0.fab.notices ++ s.clusterLeft w m k }
  s1.setCl k ((s1.cl k).windowOver w (!(s.clusterLeft w m k).isEmpty))

theorem clusterEnd_eq (w : Win) (m : Tab Nat) (k : Nat) (s : State) : clusterEnd w m k s =
    (!(s.clusterLeft w m k).isEmpty,
      if (!(s.clusterLeft w m k).isEmpty) = true then raise (clSrc k) 3 0xFFFF (clusterOver w m k s) else clusterOver w m k s) := by
  have hleft : (flushNotices k (fun _ => true) s).clusterLeft w m k = s.clusterLeft w m k :=
    State.clusterLeft_congr rfl rfl w m k
  unfold clusterEnd clusterOver
  rw [← hleft]
  simp only [List.flatMap_map, any_not_isEmpty]
  rfl

theorem clusterOver_fab (w : Win) (m : Tab Nat) (k : Nat) (s : State) : (clusterOver w m k s).fab =
    { s.fab with cl := (clusterOver w m k s).fab.cl, notices := s.fab.notices ++ ((s.cl k).wd ++ s.clusterLeft w m k) } := by
  have hall : (s.cl k).wd.filter (fun _ => true) = (s.cl k).wd := List.filter_true ..
  rw [← List.append_assoc, ← hall]
  rfl

theorem clusterOver_cl (w : Win) (m : Tab Nat) (k j : Nat) (s : State) : (clusterOver w m k s).cl j =
    if j = k then { (s.cl k).windowOver w (!(s.clusterLeft w m k).isEmpty) with wd := [] } else s.cl j := by
  have hflush : (flushNotices k (fun _ => true) s).cl k = { s.cl k with wd := (s.cl k).wd.filter fun _ => !true } :=
    (State.cl_setCl ..).trans (if_pos rfl)
  refine (State.cl_setCl ..).trans ?_
  by_cases h : j = k
  · rw [if_pos h, if_pos h]
    refine (congrArg (Cluster.windowOver w _) hflush).trans ?_
    rw [Bool.not_true, List.filter_false]
    rfl
  · rw [if_neg h, if_neg h]
    exact (State.cl_setCl ..).trans (if_neg h)

theorem clusterOver_frame (w : Win) (m : Tab Nat) (k : Nat) (s : State) : Frame [.fab] s (clusterOver w m k s) :=
  ((flushNotices_frame ..).step (State.setFab_frame ..) (List.Subset.refl _)).step (State.setCl_frame ..) (List.Subset.refl _)

/-! ### The clusters at the end of a window (07 R210) -/

/-- The clusters below n with unrun work. -/
def State.unrunBelow (s : State) (w : Win) (m : Tab Nat) (n : Nat) : List Nat :=
  (List.range n).filter fun k => !(s.clusterLeft w m k).isEmpty

theorem State.unrunBelow_succ (s : State) (w : Win) (m : Tab Nat) (n : Nat) : s.unrunBelow w m (n + 1) =
    s.unrunBelow w m n ++ if (!(s.clusterLeft w m n).isEmpty) = true then [n] else [] := by
  unfold State.unrunBelow
  rw [List.range_succ, List.filter_append, List.filter_singleton, cond_eq_ite]

/-- From s to t the clusters below n have ended the window: their notices have gone out, and those with unrun work have raised
WINDOW_OVERRUN. -/
structure ClustersOver (w : Win) (m : Tab Nat) (n : Nat) (s t : State) : Prop where
  frame : Frame [.so, .fab] s t
  fab : t.fab = { s.fab with
    cl := t.fab.cl, notices := s.fab.notices ++ (List.range n).flatMap fun k => (s.cl k).wd ++ s.clusterLeft w m k }
  cl : ∀ j, t.cl j = if j < n then { (s.cl j).windowOver w (!(s.clusterLeft w m j).isEmpty) with wd := [] } else s.cl j
  cards : raisedOnly ((s.unrunBelow w m n).map fun k => (clSrc k, 3, 0xFFFF)) s t

theorem ClustersOver.zero (w : Win) (m : Tab Nat) (s : State) : ClustersOver w m 0 s s :=
  ⟨Frame.refl .., by simp, fun _ => rfl, rfl⟩

theorem ClustersOver.left {w : Win} {m : Tab Nat} {n : Nat} (h : ClustersOver w m n s t) (k : Nat) :
    t.clusterLeft w m k = s.clusterLeft w m k :=
  State.clusterLeft_congr (by rw [h.fab]) (by rw [h.fab]) w m k

theorem ClustersOver.succ {w : Win} {m : Tab Nat} {n : Nat} (h : ClustersOver w m n s t) :
    ClustersOver w m (n + 1) s (clusterEnd w m n t).2 := by
  have hleft := h.left n
  have hcln : t.cl n = s.cl n := (h.cl n).trans (if_neg (Nat.lt_irrefl n))
  have hfab : (clusterEnd w m n t).2.fab = (clusterOver w m n t).fab := by rw [clusterEnd_eq, raise_if_fab]
  refine ⟨h.frame.step (clusterEnd_frame ..) (List.Subset.refl _), ?fab, fun j => ?cl, ?cards⟩
  case fab =>
    rw [hfab, clusterOver_fab, hleft, hcln, h.fab, List.range_succ, List.flatMap_append, List.flatMap_singleton, List.append_assoc]
  case cl =>
    rw [State.cl_of_fab hfab, clusterOver_cl, hleft, hcln, h.cl j]
    by_cases hj : j = n
    · subst hj
      rw [if_pos rfl, if_pos (Nat.lt_succ_self j)]
    · rw [if_neg hj]
      exact if_congr (by omega) rfl rfl
  case cards =>
    have hso : (clusterOver w m n t).so = t.so := (clusterOver_frame ..).get .so
    rw [State.unrunBelow_succ, List.map_append]
    refine raisedOnly_append h.cards ?_
    rw [clusterEnd_eq, hleft]
    dsimp only
    split
    · exact raisedOnly_raise _ _ _ hso
    · exact raisedOnly_nil hso

/-- The first n clusters end the window: whether one has unrun work, and the state they leave. -/
def clustersEnd (w : Win) (m : Tab Nat) (n : Nat) (s : State) : Bool × State :=
  (List.range n).foldl (fun x k => (x.1 || (clusterEnd w m k x.2).1, (clusterEnd w m k x.2).2)) (false, s)

theorem clustersEnd_succ (w : Win) (m : Tab Nat) (n : Nat) (s : State) : clustersEnd w m (n + 1) s =
    ((clustersEnd w m n s).1 || (clusterEnd w m n (clustersEnd w m n s).2).1, (clusterEnd w m n (clustersEnd w m n s).2).2) := by
  rw [clustersEnd, List.range_succ, List.foldl_append]
  rfl

theorem clustersEnd_over (w : Win) (m : Tab Nat) (n : Nat) (s : State) : ClustersOver w m n s (clustersEnd w m n s).2 := by
  induction n with
  | zero => exact .zero w m s
  | succ n ih => rw [clustersEnd_succ]; exact ih.succ

theorem clustersEnd_unrun (w : Win) (m : Tab Nat) (n : Nat) (s : State) :
    (clustersEnd w m n s).1 = !(s.unrunBelow w m n).isEmpty := by
  induction n with
  | zero => rfl
  | succ n ih =>
    rw [clustersEnd_succ, ih, clusterEnd_eq, (clustersEnd_over w m n s).left, State.unrunBelow_succ]
    cases (s.clusterLeft w m n).isEmpty <;> simp

/-! ### Data that finds the accumulation quiet (08 R241, R243) -/

theorem State.dueSet_of_dict (h : t.dict = s.dict) (n x : Nat) : t.dueSet n x = s.dueSet n x := by
  rw [State.dueSet, h]
  unfold State.dueSet State.blk State.setIdx
  rw [h]

theorem sweepOwed_of_none (h : s.acc.due = none) : sweepOwed s = s := by
  unfold sweepOwed
  rw [h]

theorem accApply_of_none {x : Nat} (hset : s.dueSet 0x910 x = none) (hdue : s.acc.due = none) :
    accApply x s = s.noteUnit 0x910 x := by
  unfold accApply
  rw [hset]
  exact sweepOwed_of_none hdue

/-- Neither a tile nor a dump of channel c is of an integration before that of the data stamped x. -/
def State.sweptTo (s : State) (m : Tab Nat) (c x : Nat) : Prop :=
  (∀ t b, s.book c t = some b → s.intAt m c x ≤ b.int) ∧ ∀ d, s.dumpOf c = some d → s.intAt m c x ≤ d.p0

theorem State.sweptTo.of_acc {m : Tab Nat} {c x : Nat} (h : s.sweptTo m c x) (e : t.acc = s.acc) : t.sweptTo m c x := by
  unfold State.sweptTo State.book State.dumpOf State.intAt State.runStart at *
  rwa [e]

theorem sweepChan_of_swept {m : Tab Nat} {x c : Nat} (h : s.sweptTo m c x) : sweepChan m x c s = s := by
  obtain ⟨hbook, hdump⟩ := h
  have hdue : s.sweepDue m (x / setTB m) c (s.intAt m c x) = [] := by
    refine List.filter_eq_nil_iff.2 fun t _ => ?_
    cases hb : s.book c t with
    | some b => simp [Nat.not_lt.2 (hbook t b hb)]
    | none =>
      cases hd : s.dumpOf c with
      | some d => simp [Nat.not_lt.2 (hdump d hd)]
      | none => simp
  unfold sweepChan
  dsimp only
  rw [hdue]
  rfl

/-- The channels of a set are swept, unless the dumps owed under a commit come first. -/
def sweepAll (m : Tab Nat) (x : Nat) (s : State) : State :=
  if s.accWaits x then s else (List.range (setChans m)).foldl (fun s c => sweepChan m x c s) s

theorem sweepAll_frame (m : Tab Nat) (x : Nat) (s : State) : Frame [.so, .acc, .mm, .fresh] s (sweepAll m x s) :=
  Frame.ite (fun _ => Frame.refl ..) fun _ => Frame.foldl (Frame.refl ..) fun _ _ => sweepChan_frame ..

theorem sweepAll_of_swept {m : Tab Nat} {x : Nat} (h : ∀ c, c < setChans m → s.sweptTo m c x) : sweepAll m x s = s := by
  unfold sweepAll
  split
  · rfl
  · refine List.foldlRecOn (motive := fun t : State => t = s) _ _ rfl fun v hv c hc => ?_
    rw [hv]
    exact sweepChan_of_swept (h c (List.mem_range.1 hc))

/-- Data that finds no set due and nothing behind it leaves the accumulation as it is. -/
theorem sweepAll_accApply_of_quiet {m : Tab Nat} {x : Nat} (hset : s.dueSet 0x910 x = none) (hdue : s.acc.due = none)
    (hswept : ∀ c, c < setChans m → s.sweptTo m c x) : sweepAll m x (accApply x s) = s.noteUnit 0x910 x := by
  rw [accApply_of_none hset hdue]
  exact sweepAll_of_swept fun c hc => (hswept c hc).of_acc rfl

/-! ### A window ends (07 R210, 08 R241) -/

/-- A window with unrun work counts. -/
def overrunCounted (unrun : Bool) (s : State) : State :=
  if unrun then s.setFab { s.fab with overruns := satAdd 32 s.fab.overruns 1 } else s

theorem overrunCounted_fab (unrun : Bool) (s : State) : (overrunCounted unrun s).fab =
    { s.fab with overruns := if unrun then satAdd 32 s.fab.overruns 1 else s.fab.overruns } := by
  cases unrun <;> rfl

theorem overrunCounted_frame (unrun : Bool) (s : State) : Frame [.fab] s (overrunCounted unrun s) :=
  Frame.ite (fun _ => State.setFab_frame ..) fun _ => Frame.refl ..

/-- What the window w leaves once its clusters have ended it and its channels are swept. -/
def windowOver (w : Win) (m : Tab Nat) (s : State) : State :=
  let x := clustersEnd w m 96 s
  let s3 := sweepAll m w.x0 (accApply w.x0 (overrunCounted x.1 x.2))
  s3.setFab (dropStaging w.block { s3.fab with win := none, passBase := s3.fab.passBase + w.chans.length, pos := [] })

theorem windowEnd_outside (h : s.fab.win = none) : windowEnd s = s := by
  unfold windowEnd
  rw [h]

theorem windowEnd_eq {w : Win} (h : s.fab.win = some w) : windowEnd s =
    if w.x0 + 2 * setTB (s.winSet w) + 500000 ≤ s.dataPm then windowOver w (s.winSet w) s else s := by
  unfold windowEnd
  rw [h]
  refine if_congr Iff.rfl ?_ rfl
  generalize hx : List.foldl _ _ _ = x
  have hends : clustersEnd w (s.winSet w) 96 s = x := (congrArg (fun f => List.foldl f _ _) rfl).trans hx
  unfold windowOver
  rw [hends]
  rfl

section windowOver
variable {w : Win} {m : Tab Nat}

theorem mem_unrunBelow {n k : Nat} : k ∈ s.unrunBelow w m n ↔ k < n ∧ (!(s.clusterLeft w m k).isEmpty) = true := by
  rw [State.unrunBelow, List.mem_filter, List.mem_range]

/-- Apart from its staging the end of a window touches the fabric in the clusters' part and in what it counts alone. -/
theorem windowOver_fab : (windowOver w m s).fab = dropStaging w.block { (clustersEnd w m 96 s).2.fab with
    win := none, pos := [], passBase := (clustersEnd w m 96 s).2.fab.passBase + w.chans.length,
    overruns := if s.unrunBelow w m 96 = [] then (clustersEnd w m 96 s).2.fab.overruns
      else satAdd 32 (clustersEnd w m 96 s).2.fab.overruns 1 } := by
  have hswept : (sweepAll m w.x0 (accApply w.x0 (overrunCounted (clustersEnd w m 96 s).1 (clustersEnd w m 96 s).2))).fab =
      { (clustersEnd w m 96 s).2.fab with
        overruns := if s.unrunBelow w m 96 = [] then (clustersEnd w m 96 s).2.fab.overruns
          else satAdd 32 (clustersEnd w m 96 s).2.fab.overruns 1 } := by
    refine (((sweepAll_frame ..).get .fab).trans ((accApply_frame ..).get .fab)).trans ((overrunCounted_fab ..).trans ?_)
    rw [clustersEnd_unrun]
    by_cases hnone : s.unrunBelow w m 96 = [] <;> simp [hnone]
  unfold windowOver
  dsimp only
  rw [hswept]
  rfl

theorem windowOver_cl (k : Nat) : (windowOver w m s).cl k =
    if k < 96 then { (s.cl k).windowOver w (!(s.clusterLeft w m k).isEmpty) with wd := [] } else s.cl k := by
  refine Eq.trans ?_ ((clustersEnd_over w m 96 s).cl k)
  unfold State.cl
  rw [windowOver_fab]
  rfl

/-- No tile or dump is behind the window and no set is due: the Postcards are those of the clusters with unrun work. -/
theorem windowOver_cards (hset : s.dueSet 0x910 w.x0 = none) (hdue : s.acc.due = none)
    (hswept : ∀ c, c < setChans m → s.sweptTo m c w.x0) :
    raisedOnly ((s.unrunBelow w m 96).map fun k => (clSrc k, 3, 0xFFFF)) s (windowOver w m s) := by
  have hover := clustersEnd_over w m 96 s
  have hcount := overrunCounted_frame (clustersEnd w m 96 s).1 (clustersEnd w m 96 s).2
  have hframe := hover.frame.step hcount (by decide)
  have hso := hcount.get .so
  unfold windowOver
  dsimp only
  generalize overrunCounted (clustersEnd w m 96 s).1 (clustersEnd w m 96 s).2 = v at hframe hso ⊢
  have hquiet : sweepAll m w.x0 (accApply w.x0 v) = v.noteUnit 0x910 w.x0 :=
    sweepAll_accApply_of_quiet ((State.dueSet_of_dict (hframe.get .dict) _ _).trans hset)
      ((congrArg Acc.due (hframe.get .acc)).trans hdue) fun c hc => (hswept c hc).of_acc (hframe.get .acc)
  rw [hquiet]
  exact (show v.so = _ from hso).trans hover.cards

end windowOver

theorem dropStaging_loaded {b : Nat} {f : Fab} {e : Nat × Nat × Nat} :
    e ∈ (dropStaging b f).loaded ↔ e ∈ f.loaded ∧ e.2.1 ≠ b := by
  simp [dropStaging]

/-- Settles O27: a window opens under the schedule worked out for it (`windowStart_opens`); at its end the clusters send what they have
left (`clustersEnd_over`), and the accumulation, where nothing is due in it, raises nothing. -/
theorem windowsOpenAndCloseAtTheirTicks : Obligations.WindowsOpenAndCloseAtTheirTicks := by
  unfold Obligations.WindowsOpenAndCloseAtTheirTicks
  intro s
  refine ⟨fun x => ⟨fun h => ?wait, fun b0 hstart hb0 hx hdata hwin => ?opens⟩, fun hwin => ?none, fun w hwin => ⟨fun h => ?early,
    fun h => ?ends⟩⟩
  case wait =>
    refine congrArg Host.Outcome.next (windowStart_outside ?_)
    rintro ⟨⟨b0, hb0, hle⟩, hx, hdata, hnone⟩
    rcases h with h | h | ⟨b1, hb1, hlt⟩ | h | h
    · simp [hnone] at h
    · simp [hb0] at h
    · rw [hb0, Option.some.injEq] at hb1
      omega
    · exact h hx
    · omega
  case opens =>
    have hopen := windowStart_opens (x0 := x.toNat) ⟨⟨b0, hstart, hb0⟩, hx, hdata, hwin⟩
    refine ⟨_, congrArg Host.Outcome.next hopen, ?_, rfl, rfl, fun c i => mem_openWindow_noFold⟩
    exact ((State.setFab_frame ..).weaken (by decide)).step (openWindow_frame ..) (List.Subset.refl _)
  case none => exact congrArg Host.Outcome.next (windowEnd_outside hwin)
  case early => exact congrArg Host.Outcome.next ((windowEnd_eq hwin).trans (if_neg (Nat.not_le.2 h)))
  case ends =>
    have hend : windowEnd s = windowOver w (s.winSet w) s := (windowEnd_eq hwin).trans (if_pos h)
    have hfab := windowOver_fab (s := s) (w := w) (m := s.winSet w)
    have hover := clustersEnd_over w (s.winSet w) 96 s
    refine ⟨_, congrArg Host.Outcome.next hend, hend ▸ windowEnd_frame s, ?fab, fun k hk => ?cl, fun k hk => ?others, fun e => ?loaded,
      fun hset hdue hswept => windowOver_cards hset hdue hswept⟩
    case fab =>
      rw [hfab, hover.fab]
      rfl
    case cl =>
      rw [windowOver_cl, if_pos hk]
      have hunrun : (!(s.clusterLeft w (s.winSet w) k).isEmpty) = decide (k ∈ s.unrunBelow w (s.winSet w) 96) := by
        rw [Bool.eq_iff_iff, decide_eq_true_iff, mem_unrunBelow, and_iff_right hk]
      rw [hunrun]
      rfl
    case others => exact (windowOver_cl k).trans (if_neg (by omega))
    case loaded =>
      rw [hfab, dropStaging_loaded, hover.fab]

end Sys2Proof.Machine
end

section
/-! Weight buffers and swap records (07 R218 to R221, Table 07.7): what a write stores, and what a record does (O31). -/

namespace Sys2Proof.Machine

open Sys2Proof

variable {s t u : State}

/-! ### Bytes that are stored (09 R260) -/

theorem State.byteAt_putByte (a y : Nat) (b : Byte) (s : State) :
    (putByte a b s).byteAt y = if canon y = canon a then b else s.byteAt y := Tab.get_set ..

/-- Bytes put from an address on stand there; of two that name one byte the later one holds. -/
theorem stored_putBytes (a : Nat) (bs : List Byte) (s : State) : stored a bs s (putBytes a bs s) := by
  induction bs generalizing a s with
  | nil => exact ⟨fun _ _ => rfl, fun k hk => absurd hk (Nat.not_lt_zero k)⟩
  | cons b bs ih =>
    obtain ⟨hother, hself⟩ := ih (a + 1) (putByte a b s)
    simp only [Nat.add_right_comm a 1, Nat.add_assoc a] at hother hself
    refine ⟨fun y hy => ?other, fun k hk hlast => ?self⟩
    case other =>
      refine (hother y fun k hk => hy (k + 1) (Nat.succ_lt_succ hk)).trans ?_
      rw [State.byteAt_putByte, if_neg fun e => hy 0 (Nat.succ_pos _) e.symm]
    case self =>
      cases k with
      | zero =>
        refine (hother a fun j hj => hlast (j + 1) (Nat.succ_pos j) (Nat.succ_lt_succ hj)).trans ?_
        rw [State.byteAt_putByte, if_pos rfl]
        rfl
      | succ k =>
        exact hself k (Nat.lt_of_succ_lt_succ hk) fun j hkj hj => hlast (j + 1) (Nat.succ_lt_succ hkj) (Nat.succ_lt_succ hj)

theorem putBytes_mm (a : Nat) (bs : List Byte) (s : State) : (putBytes a bs s).mm = { s.mm with mem := (putBytes a bs s).mm.mem } := by
  induction bs generalizing a s with
  | nil => rfl
  | cons b bs ih => exact ih (a + 1) (putByte a b s)

theorem setBad_mm (a : Nat) (b : Bool) (s : State) : (setBad a b s).mm = { s.mm with bad := (setBad a b s).mm.bad } := rfl

/-- A store puts its bytes and clears the marks of whole words. -/
theorem storeBytes_mm (a : Nat) (bs : List Byte) (s : State) :
    (storeBytes a bs s).mm = { (putBytes a bs s).mm with bad := (storeBytes a bs s).mm.bad } := by
  refine List.foldlRecOn (motive := fun t : State => t.mm = { (putBytes a bs s).mm with bad := t.mm.bad }) _ _ rfl fun v hv k _ => ?_
  split
  · exact (setBad_mm ..).trans (by rw [hv])
  · exact hv

theorem stored_storeBytes (a : Nat) (bs : List Byte) (s : State) : stored a bs s (storeBytes a bs s) := by
  have hbyte : ∀ y, (storeBytes a bs s).byteAt y = (putBytes a bs s).byteAt y := fun y => by
    rw [State.byteAt, storeBytes_mm]
    rfl
  unfold stored
  simp only [hbyte]
  exact stored_putBytes a bs s

/-! ### The weights alone change -/

/-- From s to t the weights become w, with these Postcards, and nothing else changes. -/
def weightsSet (cs : List (Nat × Nat × Nat)) (w : Weights) (s t : State) : Prop :=
  Frame [.so, .fab] s t ∧ t.fab = { s.fab with w := w } ∧ raisedOnly cs s t

variable {cs : List (Nat × Nat × Nat)} {w : Weights}

theorem weightsSet_setW (w : Weights) (s : State) : weightsSet [] w s (s.setW w) :=
  ⟨(State.setW_frame ..).weaken (by decide), rfl, raisedOnly_nil rfl⟩

theorem weightsSet_raise_setW (src kind addr : Nat) (w : Weights) (s : State) :
    weightsSet [(src, kind, addr)] w s ((raise src kind addr s).setW w) :=
  ⟨((raise_frame ..).weaken (by decide)).step (State.setW_frame ..) (by decide), by rw [State.setW, State.setFab, raise_fab],
    raisedOnly_raise src kind addr rfl⟩

theorem weightsSet.raise (h : weightsSet cs w s t) (src kind addr : Nat) :
    weightsSet (cs ++ [(src, kind, addr)]) w s (raise src kind addr t) := by
  obtain ⟨hframe, hfab, hcards⟩ := h
  exact ⟨hframe.step (raise_frame ..) (by decide), (raise_fab ..).trans hfab,
    raisedOnly_append hcards (raisedOnly_raise src kind addr rfl)⟩

theorem weightsSet.refl (s : State) : weightsSet [] s.fab.w s s := ⟨Frame.refl .., rfl, raisedOnly_nil rfl⟩

/-- The record delivered stands in the live object as bs, the free values are those of v, and the weights become w with these
Postcards (14 R393). -/
def recordTaken (v : State) (bs : List Byte) (cs : List (Nat × Nat × Nat)) (w : Weights) (s t : State) : Prop :=
  Frame [.so, .fab, .dict, .fresh] s t ∧ t.fab = { s.fab with w := w } ∧ raisedOnly cs s t ∧
    t.dict = { s.dict with live := s.dict.live.set (fun _ => []) (ob 0x7040 0xB) bs } ∧ t.fresh = v.fresh

theorem recordTaken_of_keepLive {v : State} {bs : List Byte} (hv : Frame [.fresh] s v)
    (h : weightsSet cs w (keepLive (ob 0x7040 0xB) bs v) t) : recordTaken v bs cs w s t := by
  obtain ⟨hframe, hfab, hcards⟩ := h
  have hkept : Frame [.so, .fab, .dict, .fresh] s (keepLive (ob 0x7040 0xB) bs v) :=
    (hv.weaken (by decide)).step (keepLive_frame ..) (by decide)
  have hdict : v.dict = s.dict := hv.get .dict
  refine ⟨hkept.step hframe (by decide), ?_, raisedOnly_congr (u := keepLive (ob 0x7040 0xB) bs v) (hv.get .so) hcards, ?_, hframe.get .fresh⟩
  · exact hfab.trans (congrArg (fun f : Fab => { f with w := w }) (hv.get .fab))
  · exact (hframe.get .dict).trans (by rw [← hdict]; rfl)

/-! ### A swap record (07 Table 07.7) -/

theorem weightsSet_weightDiscard (s : State) : weightsSet [(0x140, 0x0A, 0xFFFF)]
    { s.fab.w with discarded := satAdd 32 s.fab.w.discarded 1 } s (weightDiscard s) :=
  (weightsSet_setW ..).raise ..

theorem weightsSet_weightBad (s : State) : weightsSet [(0x140, 0x0B, 0xFFFF)] { s.fab.w with st := 0, setBad := true } s
    (weightBad s) :=
  (weightsSet_setW ..).raise ..

/-- A record held for e. -/
def Weights.hold (w : Weights) (e seq : Nat) (late : Bool) : Weights := { w with st := 1, eff := e, seq := seq, late := late }
/-- The record held replaces one. -/
def Weights.replacing (w : Weights) : Weights := { w with replaced := true, nReplaced := satAdd 32 w.nReplaced 1 }

section swap
variable {eff seq e : Nat} (he : roundUp eff (32 * setF (s.setAt eff)) = e)
include he

theorem weightSwapOp_discards (h : s.fab.w.st = 2 ∨ e ≤ s.fab.w.curEff) : weightSwapOp eff seq s = weightDiscard s := by
  subst he
  exact if_pos h

theorem weightSwapOp_holds (hst : s.fab.w.st ≠ 2) (hcur : s.fab.w.curEff < e) (hpm : s.pm + 500000 < e) :
    weightSwapOp eff seq s =
      if s.fab.w.st = 1 then raise 0x140 9 0xFFFF (s.setW (s.fab.w.hold e seq s.fab.w.late).replacing)
      else s.setW (s.fab.w.hold e seq s.fab.w.late) := by
  subst he
  have hlate : ¬ roundUp eff (32 * setF (s.setAt eff)) ≤ s.pm + 500000 := by omega
  unfold weightSwapOp
  simp only [if_neg (show ¬ (s.fab.w.st = 2 ∨ roundUp eff (32 * setF (s.setAt eff)) ≤ s.fab.w.curEff) by omega),
    decide_eq_false hlate, Bool.false_eq_true, if_false, Bool.or_false]
  rfl

theorem weightSwapOp_holds_late (hst : s.fab.w.st ≠ 2) (hcur : s.fab.w.curEff < e) (hpm : e ≤ s.pm + 500000) :
    weightSwapOp eff seq s =
      let past := roundUp (s.pm + 500000) (32 * setF (s.setAt eff))
      let s1 := raise 0x140 8 0xFFFF s
      if s.fab.w.st = 1 then raise 0x140 9 0xFFFF (s1.setW (s.fab.w.hold past seq true).replacing)
      else s1.setW (s.fab.w.hold past seq true) := by
  subst he
  unfold weightSwapOp
  simp only [if_neg (show ¬ (s.fab.w.st = 2 ∨ roundUp eff (32 * setF (s.setAt eff)) ≤ s.fab.w.curEff) by omega),
    decide_eq_true hpm, if_true, Bool.or_true]
  rfl

end swap

/-! ### A cancelling record (07 Table 07.7, 14 R393) -/

theorem toBytes_length (n x : Nat) : (toBytes n x).length = n := by
  induction n generalizing x with
  | zero => rfl
  | succ n ih => exact congrArg (· + 1) (ih _)

theorem ofBytes_toBytes (n x : Nat) : ofBytes (toBytes n x) = x % 256 ^ n := by
  induction n generalizing x with
  | zero => rw [pow_zero, Nat.mod_one]; rfl
  | succ n ih => rw [toBytes, ofBytes, ih, BitVec.toNat_ofNat, pow_succ' 256, Nat.mod_mul]

theorem weightCancelOp_pending (h : s.fab.w.st = 1) : weightCancelOp s = s.setW { s.fab.w with st := 0 } := if_pos h

theorem weightCancelOp_armed (h : s.fab.w.st = 2) : weightCancelOp s = weightDiscard s := by
  simp [weightCancelOp, h]

theorem weightCancelOp_idle (h : s.fab.w.st = 0) : weightCancelOp s = s := by
  simp [weightCancelOp, h]

/-- The record that a cancelling command delivers: CANCEL is set, EFF and SEQ are free (assumption 228). -/
def State.cancelBytes (s : State) : List Byte := toBytes 16 (Config.cancelRecord s.fresh % 2 ^ 80 + 2 ^ 80)

theorem cancelBytes_cancel (s : State) : (ofBytes s.cancelBytes).testBit 80 = true := by
  have hlow : Config.cancelRecord s.fresh % 2 ^ 80 < 2 ^ 80 := Nat.mod_lt _ (Nat.two_pow_pos _)
  rw [State.cancelBytes, ofBytes_toBytes, Nat.mod_eq_of_lt (by omega), Nat.add_comm, Nat.testBit_two_pow_add_eq,
    Nat.testBit_lt_two_pow hlow]
  rfl

/-! ### The counter reaches t_prep (07 R220, R221) -/

theorem weightPrepOp_idle (h : s.fab.w.st ≠ 1 ∨ s.pm + 500000 < s.fab.w.eff) : weightPrepOp s = s := if_neg (by omega)

theorem weightPrepOp_reached (hst : s.fab.w.st = 1) (heff : s.fab.w.eff ≤ s.pm + 500000) : weightPrepOp s =
    if s.headerOk (s.committedAt s.fab.w.eff).1 (s.committedAt s.fab.w.eff).2 (!s.fab.w.active) = true
    then s.setW { s.fab.w with st := 2 } else weightBad s := if_pos ⟨hst, heff⟩

/-! ### A write to a weight buffer (07 R218) -/

/-- A write that would change weights in use, or that a held record will take. -/
def State.weightsBusy (s : State) (a n : Nat) : Prop :=
  s.inBuffer s.fab.w.active a n = true ∨ (s.fab.w.st ≠ 0 ∧ s.inBuffer (!s.fab.w.active) a n = true)

theorem State.inBuffer_of_busy {a n : Nat} (h : s.weightsBusy a n) : s.inBuffer false a n = true ∨ s.inBuffer true a n = true := by
  unfold State.weightsBusy at h
  cases hb : s.fab.w.active <;> rw [hb] at h
  · exact h.imp_right And.right
  · exact h.symm.imp_left And.right

section write
variable {a : BitVec 40} {bs : List Byte}

theorem exec_weightBufferWrite_outside (hfalse : s.inBuffer false a.toNat bs.length = false)
    (htrue : s.inBuffer true a.toNat bs.length = false) : exec (.weightBufferWrite a bs) s = .next s := by
  refine congrArg Host.Outcome.next (if_neg ?_)
  rw [hfalse, htrue]
  exact Bool.false_ne_true

theorem exec_weightBufferWrite_inside (h : s.inBuffer false a.toNat bs.length = true ∨ s.inBuffer true a.toNat bs.length = true) :
    exec (.weightBufferWrite a bs) s = .next (storeGuarded a.toNat bs s) :=
  congrArg Host.Outcome.next (if_pos ((Bool.or_eq_true ..).mpr h))

theorem storeGuarded_busy {n : Nat} (h : s.weightsBusy n bs.length) : storeGuarded n bs s = weightRefused s :=
  if_pos (by simpa [State.weightsBusy] using h)

theorem storeGuarded_free {n : Nat} (h : ¬ s.weightsBusy n bs.length) : storeGuarded n bs s = storeBytes n bs s :=
  if_neg (by simpa [State.weightsBusy] using h)

end write

/-- Settles O31: each row of Table 07.7 is one case of the record's operation; a write is refused where the weights are busy
(`storeGuarded_busy`) and stored elsewhere (`stored_storeBytes`). -/
theorem weightBuffersAndSwaps : Obligations.WeightBuffersAndSwaps := by
  unfold Obligations.WeightBuffersAndSwaps
  intro s w card kept
  refine ⟨fun a bs => ⟨exec_weightBufferWrite_outside, fun hbusy => ?refused, fun hfree hin => ?stored⟩, fun x q => ?swap, ?cancel,
    fun hst heff => ⟨fun hok => ?armed, fun hbad => ?dropped⟩, fun h => congrArg Host.Outcome.next (weightPrepOp_idle h)⟩
  case refused =>
    have hstep := (exec_weightBufferWrite_inside (State.inBuffer_of_busy hbusy)).trans
      (congrArg Host.Outcome.next (storeGuarded_busy hbusy))
    exact ⟨_, hstep, weightRefused_frame s, raiseLim_fab .., raiseLim_so_congr (by rfl) (by rfl) ..⟩
  case stored =>
    have hstep := (exec_weightBufferWrite_inside hin).trans (congrArg Host.Outcome.next (storeGuarded_free hfree))
    refine ⟨_, hstep, storeBytes_frame .., stored_storeBytes .., ?_, ?_⟩
    · rw [storeBytes_mm, putBytes_mm]
    · rw [storeBytes_mm, putBytes_mm]
  case swap =>
    let v := keepLive (ob 0x7040 0xB) (toBytes 8 x.toNat ++ toBytes 2 q.toNat ++ toBytes 6 0) s
    have htaken : ∀ {cs : List (Nat × Nat × Nat)} {w' : Weights} {t : State}, weightSwapOp x.toNat q.toNat v = t → weightsSet cs w' v t →
        completes (.weightSwap x q) s (recordTaken s (toBytes 8 x.toNat ++ toBytes 2 q.toNat ++ toBytes 6 0) cs w' s) :=
      fun h k => ⟨_, congrArg Host.Outcome.next h, recordTaken_of_keepLive (Frame.refl ..) k⟩
    intro f e held past card
    have he : roundUp x.toNat (32 * setF (v.setAt x.toNat)) = e := rfl
    have hne : ∀ {n : Nat}, w.st = n → n ≠ 2 → v.fab.w.st ≠ 2 := fun h hn c => hn (h.symm.trans c)
    refine ⟨fun h => ?discards, fun hst hcur hpm => ?pending, fun hst hcur hpm => ?late, fun hst hcur hpm => ?replaces,
      fun hst hcur hpm => ?replaces_late⟩
    case discards => exact htaken (weightSwapOp_discards he h) (weightsSet_weightDiscard v)
    case pending =>
      have hheld := weightSwapOp_holds (seq := q.toNat) he (hne hst (by decide)) hcur hpm
      exact htaken (hheld.trans (if_neg (by rw [show v.fab.w.st = 0 from hst]; decide))) (weightsSet_setW _ v)
    case late =>
      have hheld := weightSwapOp_holds_late (seq := q.toNat) he (hne hst (by decide)) hcur hpm
      exact htaken (hheld.trans (if_neg (by rw [show v.fab.w.st = 0 from hst]; decide))) (weightsSet_raise_setW _ _ _ _ v)
    case replaces =>
      have hheld := weightSwapOp_holds (seq := q.toNat) he (hne hst (by decide)) hcur hpm
      exact htaken (hheld.trans (if_pos hst)) ((weightsSet_setW _ v).raise _ _ _)
    case replaces_late =>
      have hheld := weightSwapOp_holds_late (seq := q.toNat) he (hne hst (by decide)) hcur hpm
      exact htaken (hheld.trans (if_pos hst)) ((weightsSet_raise_setW _ _ _ _ v).raise _ _ _)
  case cancel =>
    let v := keepLive (ob 0x7040 0xB) s.cancelBytes s.draw.2
    have htaken : ∀ {cs : List (Nat × Nat × Nat)} {w' : Weights} {t : State}, weightCancelOp v = t → weightsSet cs w' v t →
        completes .weightSwapCancel s (recordTaken s.draw.2 s.cancelBytes cs w' s) :=
      fun h k => ⟨_, congrArg Host.Outcome.next h, recordTaken_of_keepLive (State.draw_frame s) k⟩
    exact ⟨s.cancelBytes, toBytes_length .., cancelBytes_cancel s,
      fun hst => htaken (weightCancelOp_pending hst) (weightsSet_setW _ v),
      fun hst => htaken (weightCancelOp_armed hst) (weightsSet_weightDiscard v),
      fun hst => htaken (weightCancelOp_idle hst) (weightsSet.refl v)⟩
  case armed =>
    exact ⟨_, congrArg Host.Outcome.next ((weightPrepOp_reached hst heff).trans (if_pos hok)), weightsSet_setW ..⟩
  case dropped =>
    exact ⟨_, congrArg Host.Outcome.next ((weightPrepOp_reached hst heff).trans (if_neg (Bool.eq_false_iff.1 hbad))),
      weightsSet_weightBad s⟩

end Sys2Proof.Machine
end

section
/-! Beam batches (07 R213 to R216, R222, R223, R229): what starts a batch, and what its end and its deadline leave (O33). -/

namespace Sys2Proof.Machine

open Sys2Proof

variable {s t u : State}

/-! ### The weights at a batch's start (07 R221 to R223) -/

theorem State.headerOk_congr (hmm : t.mm = s.mm) (hrelay : t.relay = s.relay) (m : Tab Nat) (pl : Place) (b : Bool) :
    t.headerOk m pl b = s.headerOk m pl b := by
  unfold State.headerOk State.numAt State.bytesAt State.byteAt State.badWord State.absChan State.rankIn
  rw [hmm, hrelay]

/-- A set changes the layout of the weights (07 R222). -/
def layoutChanges (old new : Tab Nat) : Bool := layoutObjs.any fun o => setVal old o != setVal new o

/-- A set at p that changes the layout finds a record armed for it or later whose buffer does not hold weights of the new layout. -/
def State.armedBad (s : State) (p : Nat) (old new : Tab Nat) : Bool :=
  layoutChanges old new && s.fab.w.st == 2 && decide (p ≤ s.fab.w.eff) && !s.headerOk new (s.placeFor p) (!s.fab.w.active)

/-- The weights once a set at p is in force. -/
def State.weightsAfter (s : State) (p : Nat) (old new : Tab Nat) : Weights :=
  if s.armedBad p old new then { s.fab.w with valid := false, st := 0, setBad := true }
  else if layoutChanges old new then { s.fab.w with valid := false } else s.fab.w

theorem State.armedBad_iff {p : Nat} {old new : Tab Nat} : s.armedBad p old new = true ↔ layoutChanges old new = true ∧
    s.fab.w.st = 2 ∧ p ≤ s.fab.w.eff ∧ s.headerOk new (s.placeFor p) (!s.fab.w.active) = false := by
  simp [State.armedBad, and_assoc]

theorem weightCommit_of_layout {p : Nat} {old new : Tab Nat} (h : layoutChanges old new = true) : weightCommit p old new s =
    if s.fab.w.st = 2 ∧ p ≤ s.fab.w.eff ∧ s.headerOk new (s.placeFor p) (!s.fab.w.active) = false
    then weightBad (s.setW { s.fab.w with valid := false }) else s.setW { s.fab.w with valid := false } := if_pos h

theorem weightCommit_weightsSet (p : Nat) (old new : Tab Nat) (s : State) :
    weightsSet (if s.armedBad p old new then [(0x140, 0x0B, 0xFFFF)] else []) (s.weightsAfter p old new) s
      (weightCommit p old new s) := by
  unfold State.weightsAfter
  by_cases hlayout : layoutChanges old new = true
  · rw [weightCommit_of_layout hlayout]
    by_cases hbad : s.armedBad p old new = true
    · obtain ⟨-, hheld⟩ := State.armedBad_iff.1 hbad
      rw [if_pos hbad, if_pos hbad, if_pos hheld]
      exact (weightsSet_setW _ s).raise ..
    · rw [if_neg hbad, if_neg hbad, if_pos hlayout, if_neg fun hheld => hbad (State.armedBad_iff.2 ⟨hlayout, hheld⟩)]
      exact weightsSet_setW ..
  · have hbad : ¬ s.armedBad p old new = true := fun h => hlayout (State.armedBad_iff.1 h).1
    rw [if_neg hbad, if_neg hbad, if_neg hlayout, show weightCommit p old new s = s from if_neg hlayout]
    exact weightsSet.refl s

theorem weightApply_of_none {x : Nat} (h : s.dueSet 0x140 x = none) : weightApply x s = s.noteUnit 0x140 x := by
  unfold weightApply
  rw [h]

/-- The state in which the weights meet the set at Postmark p, the k-th latched, that is due for the batch at x. -/
def State.weightsMet (s : State) (x p k : Nat) (old new : Tab Nat) : State :=
  clusterCommit 0 old new ((s.noteUnit 0x140 x).noteApplied 0x140 p k)

theorem weightApply_of_due {x p k : Nat} {old new : Tab Nat} (h : s.dueSet 0x140 x = some (p, old, new, k)) :
    weightApply x s = weightCommit p old new (s.weightsMet x p k old new) := by
  unfold weightApply
  rw [h]
  rfl

theorem State.weightsMet_frame (s : State) (x p k : Nat) (old new : Tab Nat) : Frame [.fab, .dict] s (s.weightsMet x p k old new) :=
  (((State.noteUnit_frame ..).weaken (by decide)).step (State.noteApplied_frame ..) (by decide)).step (clusterCommit_frame ..)
    (by decide)

/-- A commit seeds a cluster's generator, and nothing else of the fabric changes. -/
theorem clusterCommit_fab (k : Nat) (old new : Tab Nat) (s : State) :
    (clusterCommit k old new s).fab = { s.fab with cl := (clusterCommit k old new s).fab.cl } := by
  unfold clusterCommit
  split <;> rfl

theorem clusterCommit_beamCutRun (k j : Nat) (old new : Tab Nat) (s : State) :
    ((clusterCommit k old new s).cl j).beamCutRun = (s.cl j).beamCutRun := by
  unfold clusterCommit
  split
  · rw [State.cl_setCl]
    split
    · next e => rw [e]
    · rfl
  · rfl

theorem State.weightsMet_fab (x p k : Nat) (old new : Tab Nat) :
    (s.weightsMet x p k old new).fab = { s.fab with cl := (s.weightsMet x p k old new).fab.cl } := clusterCommit_fab ..

theorem State.weightsMet_w (x p k : Nat) (old new : Tab Nat) : (s.weightsMet x p k old new).fab.w = s.fab.w := by
  rw [State.weightsMet_fab]

theorem State.armedBad_weightsMet (x p k : Nat) (old new : Tab Nat) :
    (s.weightsMet x p k old new).armedBad p old new = s.armedBad p old new := by
  have hframe := s.weightsMet_frame x p k old new
  have hplace : (s.weightsMet x p k old new).placeFor p = s.placeFor p :=
    congrArg (fun v : Mems => placeOf p v.place {}) (hframe.get .mm)
  unfold State.armedBad
  rw [State.weightsMet_w, hplace, State.headerOk_congr (hframe.get .mm) (hframe.get .relay)]

/-- A set due for a batch meets the weights as it finds them. -/
theorem weightApply_due_spec {x p k : Nat} {old new : Tab Nat} (h : s.dueSet 0x140 x = some (p, old, new, k)) :
    (weightApply x s).fab.w = s.weightsAfter p old new ∧
      raisedOnly (if s.armedBad p old new then [(0x140, 0x0B, 0xFFFF)] else []) s (weightApply x s) := by
  obtain ⟨-, hfab, hcards⟩ := weightCommit_weightsSet p old new (s.weightsMet x p k old new)
  rw [State.armedBad_weightsMet] at hcards
  rw [State.weightsAfter, State.armedBad_weightsMet, State.weightsMet_w, ← State.weightsAfter] at hfab
  rw [weightApply_of_due h]
  exact ⟨by rw [hfab], raisedOnly_congr ((s.weightsMet_frame x p k old new).get .so) hcards⟩

/-- The set due for a batch changes the fabric in its clusters' generators and in its weights alone. -/
theorem weightApply_fab (x : Nat) (s : State) :
    (weightApply x s).fab = { s.fab with cl := (weightApply x s).fab.cl, w := (weightApply x s).fab.w } := by
  cases h : s.dueSet 0x140 x with
  | none => rw [weightApply_of_none h]; rfl
  | some d =>
    obtain ⟨p, old, new, k⟩ := d
    obtain ⟨-, hfab, -⟩ := weightCommit_weightsSet p old new (s.weightsMet x p k old new)
    rw [weightApply_of_due h, hfab, State.weightsMet_fab]

theorem weightApply_beamCutRun (x j : Nat) (s : State) : ((weightApply x s).cl j).beamCutRun = (s.cl j).beamCutRun := by
  cases h : s.dueSet 0x140 x with
  | none => rw [weightApply_of_none h]; rfl
  | some d =>
    obtain ⟨p, old, new, k⟩ := d
    rw [weightApply_of_due h, State.cl, weightCommit_cl]
    exact clusterCommit_beamCutRun ..

/-- The weights once the batch at x has exchanged the buffers, where an armed record is due (07 Table 07.7). -/
def Weights.exchanged (x : Nat) (w : Weights) : Weights :=
  if w.st = 2 ∧ w.eff ≤ x then
    { w with st := 0, active := !w.active, valid := true, curSeq := w.seq, curEff := w.eff, replaced := false,
             setBad := false, late := false }
  else w

theorem weightExchange_fab (x : Nat) (s : State) : (weightExchange x s).fab =
    { s.fab with w := s.fab.w.exchanged x,
                 lastSwap := if s.fab.w.st = 2 ∧ s.fab.w.eff ≤ x then some x else s.fab.lastSwap } := by
  unfold weightExchange Weights.exchanged
  dsimp only
  split <;> rfl

theorem batchOpen_fab (x : Nat) (s : State) : (batchOpen x s).fab = { (weightApply x s).fab with
    batch := some x, batchAt := s.now, w := (weightApply x s).fab.w.exchanged x,
    lastSwap := if (weightApply x s).fab.w.st = 2 ∧ (weightApply x s).fab.w.eff ≤ x then some x
      else (weightApply x s).fab.lastSwap,
    batchOut := s.fab.removed ++ s.unserved.filter (fun p => !s.fab.removed.contains p),
    batchValid := ((weightApply x s).fab.w.exchanged x).valid, batchOff := s.fab.beamsOff, cutNow := s.beamsOut (s.setAt x) } := by
  unfold batchOpen
  dsimp only
  rw [weightExchange_fab]
  rfl

theorem batchOpen_rest (x : Nat) (s : State) : Frame [.fab] (weightApply x s) (batchOpen x s) :=
  (weightExchange_frame ..).step (State.setFab_frame ..) (List.Subset.refl _)

/-! ### The reads of a batch (07 R201, R225) -/

theorem keepBad_mem (stack x port : Nat) (e : Ecc) (s : State) : (keepBad stack x port e s).mm.mem = s.mm.mem := by
  unfold keepBad
  split <;> rfl

/-- A check leaves the bytes that it reads. -/
theorem dramCheck_mem (stack x port : Nat) (e : Ecc) (s : State) : (dramCheck stack x port e s).2.mm.mem = s.mm.mem := by
  have hcheck : ∀ e1, (eccCheck (stackSrc stack) 1 e1 (keepBad stack x port e s)).2.2.mm.mem = s.mm.mem := fun e1 => by
    rw [eccCheck_mm, keepBad_mem]
  unfold dramCheck
  dsimp only
  split
  · exact hcheck _
  · exact (congrArg Mems.mem (raiseT_mm ..)).trans (hcheck _)
  · exact (congrArg Mems.mem (raiseT_mm ..)).trans (hcheck _)

/-- A read that leaves the bytes of the memories. -/
def readsSafely (s t : State) : Prop := readsOnly s t ∧ t.mm.mem = s.mm.mem

theorem readsSafely.trans (h : readsSafely s t) (k : readsSafely t u) : readsSafely s u := ⟨h.1.trans k.1, k.2.trans h.2⟩

theorem readsSafely.raiseT (test : Bool) (src kind addr : Nat) (h : readsSafely s t) : readsSafely s (raiseT test src kind addr t) :=
  ⟨h.1.raiseT .., (congrArg Mems.mem (raiseT_mm ..)).trans h.2⟩

theorem dramCheck_readsSafely (stack x port : Nat) (e : Ecc) (s : State) : readsSafely s (dramCheck stack x port e s).2 :=
  ⟨(readsOnly.refl s).of_fab ((dramCheck_frame ..).get .fab), dramCheck_mem ..⟩

theorem eccCheck_readsSafely (src checker : Nat) (e : Ecc) (s : State) : readsSafely s (eccCheck src checker e s).2.2 :=
  ⟨eccCheck_readsOnly .., by rw [eccCheck_mm]⟩

theorem weightReads_readsSafely (m : Tab Nat) (x : Nat) (ecc : BeamEcc) (s : State) : readsSafely s (weightReads m x ecc s).2 := by
  unfold weightReads
  refine List.foldlRecOn (motive := fun r : List (Nat × Nat) × State => readsSafely s r.2) _ _ ?dram fun r hr e _ => ?cluster
  case dram =>
    refine List.foldlRecOn (motive := fun r : List (Nat × Nat) × State => readsSafely s r.2) _ _ ⟨.refl s, rfl⟩ fun r hr e _ => ?_
    exact hr.trans (dramCheck_readsSafely ..)
  case cluster =>
    have hcheck : readsSafely s (eccCheck (clSrc e.1) 1 e.2.2.2 r.2).2.2 := hr.trans (eccCheck_readsSafely ..)
    dsimp only
    split
    · exact hcheck
    · refine readsSafely.raiseT _ _ _ _ (hcheck.trans ?_)
      exact ⟨readsOnly_setFab (by rfl) (by rfl), rfl⟩
    · refine readsSafely.raiseT _ _ _ _ (hcheck.trans ?_)
      exact ⟨readsOnly_setFab (by rfl) (by rfl), rfl⟩

theorem beamSamples_readsOnly (m : Tab Nat) (c x frame : Nat) (cut : List (Nat × Nat × Nat)) (ecc : BeamEcc) (s : State) :
    readsOnly s (beamSamples m c x frame cut ecc s).2 := by
  unfold beamSamples
  refine List.foldlRecOn (motive := fun r : List Smp × State => readsOnly s r.2) _ _ (.refl s) fun r hr io _ => ?_
  dsimp only
  split
  · exact hr
  · refine List.foldlRecOn (motive := readsOnly s) _ _ ?_ fun v hv k _ => hv.trans (countBads_readsOnly ..)
    exact hr.trans (checkOctet_readsOnly ..)

/-- A row of a batch that runs as s says: one value for each beam, and none of them valid where no input is, the weights are not or
the beams are off. -/
def State.rowOk (s : State) (m : Tab Nat) (r : BeamRow) : Prop :=
  r.volt.length = beamB m ∧
    (r.count = 0 ∨ s.fab.batchValid = false ∨ s.fab.batchOff = true → ∀ o ∈ r.volt, o = none)

theorem State.rowOk_congr (h : readsOnly s t) (m : Tab Nat) (r : BeamRow) : t.rowOk m r ↔ s.rowOk m r := by
  unfold State.rowOk
  rw [h.1]

section row
variable (m : Tab Nat) (x c frame : Nat) (cut : List (Nat × Nat × Nat)) (lost : List (Nat × Nat)) (ecc : BeamEcc) (s : State)

theorem beamRow_readsOnly : readsOnly s (beamRow m x c frame cut lost ecc s).2 := beamSamples_readsOnly ..

theorem beamRow_rowOk : s.rowOk m (beamRow m x c frame cut lost ecc s).1 := by
  refine (State.rowOk_congr (beamRow_readsOnly m x c frame cut lost ecc s) m _).1 ⟨?_, fun h o ho => ?_⟩
  · exact (List.length_map ..).trans List.length_range
  · obtain ⟨b, -, rfl⟩ := List.mem_map.1 ho
    refine if_pos ?_
    rcases h with h | h | h
    · exact .inl h
    · exact .inr (.inl h)
    · exact .inr (.inr (.inl h))

end row

/-- Rows that s says, and the state that reading them leaves. -/
def State.rowsRead (s : State) (m : Tab Nat) (r : List BeamRow × State) : Prop := readsOnly s r.2 ∧ ∀ w ∈ r.1, s.rowOk m w

theorem beamRows_rowsRead (m : Tab Nat) (x : Nat) (cut : List (Nat × Nat × Nat)) (lost : List (Nat × Nat)) (ecc : BeamEcc) (s : State) :
    s.rowsRead m (beamRows m x cut lost ecc s) := by
  unfold beamRows
  refine List.foldlRecOn (motive := s.rowsRead m) _ _ ⟨.refl s, fun _ h => nomatch h⟩ fun r hr c _ => ?_
  refine List.foldlRecOn (motive := s.rowsRead m) _ _ hr fun v hv f _ => ?_
  obtain ⟨hread, hrows⟩ := hv
  refine ⟨hread.trans (beamRow_readsOnly m x c f cut lost ecc v.2), fun w hw => ?_⟩
  rcases List.mem_append.1 hw with hw | hw
  · exact hrows w hw
  · rw [List.mem_singleton.1 hw]
    exact (State.rowOk_congr hread m _).1 (beamRow_rowOk m x c f cut lost ecc v.2)

/-! ### The sums of a batch leave (07 R215) -/

/-- From s to t only the saturations and the powers of the beams have changed in the fabric. -/
def sumsOnly (s t : State) : Prop := t.fab = { s.fab with
  beamSat := t.fab.beamSat, beamSatRun := t.fab.beamSatRun, power := t.fab.power, powerStart := t.fab.powerStart }

theorem sumsOnly.of_fab (h : sumsOnly s t) (e : u.fab = t.fab) : sumsOnly s u := by
  rw [sumsOnly, e]
  exact h

theorem emitVoltages_sumsOnly (m : Tab Nat) (x : Nat) (rows : List BeamRow) (s : State) : sumsOnly s (emitVoltages m x rows s) :=
  sumsOnly.of_fab (by rfl) (((emitStream_frame ..).get .fab).trans ((emitStream_frame ..).get .fab))

theorem sumsOnly_powersSent (h : t.fab = s.fab) : sumsOnly s (t.setFab { t.fab with power := [], powerStart := none }) := by
  unfold sumsOnly State.setFab
  rw [h]

theorem addPowers_sumsOnly (m : Tab Nat) (x : Nat) (rows : List BeamRow) (s : State) : sumsOnly s (addPowers m x rows s) := by
  unfold addPowers
  dsimp only
  split
  · refine sumsOnly.of_fab ?_ (((emitStream_frame ..).get .fab).trans ((emitStream_frame ..).get .fab))
    exact sumsOnly_powersSent ((powerCounts_frame ..).get .fab)
  · rfl

/-- The rows of a batch go out as powers or as voltages. -/
def sumsOut (m : Tab Nat) (x : Nat) (r : List BeamRow × State) : State :=
  if beamPower m then addPowers m x r.1 r.2 else emitVoltages m x r.1 r.2

theorem sumsOut_sumsOnly (m : Tab Nat) (x : Nat) (r : List BeamRow × State) : sumsOnly r.2 (sumsOut m x r) := by
  unfold sumsOut
  split
  · exact addPowers_sumsOnly ..
  · exact emitVoltages_sumsOnly ..

theorem sumsOut_frame (m : Tab Nat) (x : Nat) (r : List BeamRow × State) : Frame [.fab, .out, .fresh] r.2 (sumsOut m x r) :=
  Frame.ite (fun _ => addPowers_frame ..) fun _ => (emitVoltages_frame ..).weaken (by decide)

/-! ### The clusters whose sums were cut (07 R214, R229) -/

/-- A cluster whose sums were cut raises BEAM_INCOMPLETE and keeps it for its BEAM_CUT bit. -/
def cutShown (s : State) (k : Nat) : State := raise (clSrc k) 6 0xFFFF (s.setCl k { s.cl k with beamCutRun := true })

theorem cutShown_cl (k j : Nat) (s : State) :
    (cutShown s k).cl j = { s.cl j with beamCutRun := (s.cl j).beamCutRun || j == k } := by
  refine (State.cl_of_fab (raise_fab ..) j).trans ((State.cl_setCl ..).trans ?_)
  by_cases h : j = k
  · rw [if_pos h, h, beq_self_eq_true, Bool.or_true]
  · rw [if_neg h, beq_eq_false_iff_ne.2 h, Bool.or_false]

theorem cutShown_fab (k : Nat) (s : State) : (cutShown s k).fab = { s.fab with cl := (cutShown s k).fab.cl } := by
  unfold cutShown
  rw [raise_fab]
  rfl

theorem cutShown_frame (k : Nat) (s : State) : Frame [.so, .fab] s (cutShown s k) :=
  ((State.setCl_frame ..).weaken (by decide)).step (raise_frame ..) (by decide)

theorem cutsShown_spec (hit : List Nat) (s : State) :
    let t := hit.foldl cutShown s
    Frame [.so, .fab] s t ∧ t.fab = { s.fab with cl := t.fab.cl } ∧
      (∀ j, t.cl j = { s.cl j with beamCutRun := (s.cl j).beamCutRun || hit.contains j }) ∧
      raisedOnly (hit.map fun k => (clSrc k, 6, 0xFFFF)) s t := by
  induction hit generalizing s with
  | nil => exact ⟨Frame.refl .., rfl, fun j => by simp, raisedOnly_nil rfl⟩
  | cons k hit ih =>
    obtain ⟨hframe, hfab, hcl, hcards⟩ := ih (cutShown s k)
    have hone : raisedOnly [(clSrc k, 6, 0xFFFF)] s (cutShown s k) := raisedOnly_raise (clSrc k) 6 0xFFFF rfl
    refine ⟨(cutShown_frame k s).step hframe (List.Subset.refl _), hfab.trans ?_, fun j => ?_, raisedOnly_append hone hcards⟩
    · rw [cutShown_fab]
      rfl
    · rw [List.foldl_cons, hcl, cutShown_cl, List.contains_cons, Bool.or_assoc]

/-- A batch ends: its rows have gone out, and hit are the clusters that were cut. -/
def batchClosed (x : Nat) (hit : List Nat) (w : State) : State :=
  let t := hit.foldl cutShown w
  t.setFab { t.fab with batch := none, batchDone := some x, cutNow := [],
                        beamIncomplete := satAdd 32 t.fab.beamIncomplete (b2n (!hit.isEmpty)) }

theorem finishBatch_eq (x : Nat) (cut0 : List (Nat × Nat × Nat)) (ecc : BeamEcc) (s : State) : finishBatch x cut0 ecc s =
    let m := s.setAt x
    let cut := s.reallyCut m cut0
    let lost := weightReads m x ecc s
    batchClosed x ((List.range 96).filter fun k => cut.any fun p => p.1 == k)
      (sumsOut m x (beamRows m x cut lost.1 ecc lost.2)) := by
  unfold finishBatch
  dsimp only
  generalize weightReads (s.setAt x) x ecc s = lost
  generalize beamRows (s.setAt x) x (s.reallyCut (s.setAt x) cut0) lost.1 ecc lost.2 = rows
  rfl

theorem batchClosed_spec (x : Nat) (hit : List Nat) (w : State) :
    let t := batchClosed x hit w
    t.fab = { w.fab with cl := t.fab.cl, batch := none, batchDone := some x, cutNow := [],
                         beamIncomplete := satAdd 32 w.fab.beamIncomplete (if hit = [] then 0 else 1) } ∧
      raisedOnly (hit.map fun k => (clSrc k, 6, 0xFFFF)) w t ∧ Frame [.so, .fab] w t ∧
      ∀ k, t.cl k = { w.cl k with beamCutRun := (w.cl k).beamCutRun || hit.contains k } := by
  intro t
  obtain ⟨hframe, hfab, hcl, hcards⟩ := cutsShown_spec hit w
  have hcount : b2n (!hit.isEmpty) = if hit = [] then 0 else 1 := by cases hit <;> rfl
  refine ⟨?_, hcards, hframe.step (State.setFab_frame ..) (by decide), hcl⟩
  simp only [t, batchClosed, State.setFab]
  rw [hfab, hcount]

/-- From s to u the counts of cut batches and the bytes of the memories have not changed. -/
def batchKept (s u : State) : Prop := u.fab.beamIncomplete = s.fab.beamIncomplete ∧ u.mm.mem = s.mm.mem ∧
  ∀ k, (u.cl k).beamCutRun = (s.cl k).beamCutRun

section sums
variable (m : Tab Nat) (x : Nat) (cut : List (Nat × Nat × Nat)) (ecc : BeamEcc) (u : State)

/-- The rows of a batch as it ends, from its weights on. -/
def batchRows : List BeamRow × State :=
  beamRows m x cut (weightReads m x ecc u).1 ecc (weightReads m x ecc u).2

theorem batchRows_readsOnly : readsOnly u (batchRows m x cut ecc u).2 :=
  (weightReads_readsSafely m x ecc u).1.trans (beamRows_rowsRead ..).1

theorem batchRows_rowOk : ∀ r ∈ (batchRows m x cut ecc u).1, u.rowOk m r := fun r hr =>
  (State.rowOk_congr (weightReads_readsSafely m x ecc u).1 m r).1 ((beamRows_rowsRead ..).2 r hr)

theorem batchSums_kept : batchKept u (sumsOut m x (batchRows m x cut ecc u)) := by
  obtain ⟨hfab, hcl⟩ := batchRows_readsOnly m x cut ecc u
  have hsums : (sumsOut m x (batchRows m x cut ecc u)).fab = _ := sumsOut_sumsOnly m x (batchRows m x cut ecc u)
  refine ⟨by rw [hsums, hfab], ?_, fun k => ?_⟩
  · exact (congrArg Mems.mem ((sumsOut_frame ..).get .mm)).trans
      ((congrArg Mems.mem ((beamRows_frame ..).get .mm)).trans (weightReads_readsSafely m x ecc u).2)
  · have hwcl : (sumsOut m x (batchRows m x cut ecc u)).cl k = (batchRows m x cut ecc u).2.cl k := by
      rw [State.cl, hsums]
      rfl
    rw [hwcl, hcl k]

end sums

theorem batchStartOp_due {x : Nat} (hdue : s.batchDue (s.setAt x) x = true) (hnone : s.fab.batch = none)
    (hdata : batchEnd (s.setAt x) x ≤ s.dataPm) : batchStartOp x s = beamLoads (s.setAt x) x (batchOpen x s) :=
  if_pos (by simp [hdue, hnone, hdata])

theorem batchStartOp_idle {x : Nat} (h : s.batchDue (s.setAt x) x = false ∨ s.fab.batch ≠ none ∨
    s.dataPm < batchEnd (s.setAt x) x) : batchStartOp x s = s := by
  refine if_neg fun c => ?_
  simp only [Bool.and_eq_true, decide_eq_true_eq, Option.isNone_iff_eq_none] at c
  obtain ⟨⟨hdue, hnone⟩, hdata⟩ := c
  rcases h with h | h | h
  · rw [hdue] at h; cases h
  · exact h hnone
  · omega

theorem batchDoneOp_none (ecc : BeamEcc) (h : s.fab.batch = none) : batchDoneOp ecc s = s := by
  unfold batchDoneOp
  rw [h]

theorem batchDoneOp_some {x : Nat} (ecc : BeamEcc) (h : s.fab.batch = some x) :
    batchDoneOp ecc s = finishBatch x (beamCuts (s.setAt x) s.fab.cutNow) ecc s := by
  unfold batchDoneOp
  rw [h]

section deadline
variable {x : Nat} {late : List (Nat × Nat × Nat)}

theorem beamDeadlineOp_due (hdue : s.batchDue (s.setAt x) x = true) (hdata : batchEnd (s.setAt x) x + 562500 ≤ s.dataPm) :
    beamDeadlineOp x late s =
      if s.fab.batch = some x then finishBatch x (beamCuts (s.setAt x) (s.fab.cutNow ++ late)) ⟨[], [], []⟩ s
      else if s.fab.batch.isNone then
        finishBatch x ((beamList (s.setAt x) (batchOpen x s).fab.batchOut).map fun p => (p.1, p.2, 0)) ⟨[], [], []⟩ (batchOpen x s)
      else s := if_pos (by simp [hdue, hdata])

theorem beamDeadlineOp_idle (h : s.batchDue (s.setAt x) x = false ∨ s.dataPm < batchEnd (s.setAt x) x + 562500 ∨
    (∃ y, s.fab.batch = some y ∧ y ≠ x)) : beamDeadlineOp x late s = s := by
  by_cases hcond : s.batchDue (s.setAt x) x = true ∧ batchEnd (s.setAt x) x + 562500 ≤ s.dataPm
  · obtain ⟨hdue, hdata⟩ := hcond
    rw [beamDeadlineOp_due hdue hdata]
    rcases h with h | h | ⟨y, hy, hne⟩
    · rw [hdue] at h; cases h
    · omega
    · simp [hy, hne]
  · exact if_neg fun c => hcond (by simpa using c)

end deadline

theorem batchOpen_kept (x : Nat) (s : State) : batchKept s (batchOpen x s) := by
  refine ⟨by rw [batchOpen_fab, weightApply_fab], congrArg Mems.mem ((batchOpen_frame ..).get .mm), fun k => ?_⟩
  rw [State.cl, batchOpen_fab]
  exact weightApply_beamCutRun x k s

/-- Settles O33: a batch opens with the weights that the set due and an armed record leave (`weightApply_due_spec`, `batchOpen_fab`);
its end reads, sends its sums, and shows the clusters that were cut (`batchSums_kept`, `batchClosed_spec`). -/
theorem beamBatchesStartEndAndAreCut : Obligations.BeamBatchesStartEndAndAreCut := by
  unfold Obligations.BeamBatchesStartEndAndAreCut
  intro s ends swapped
  have hends : ∀ x cut0 ecc u, batchKept s u → ends x cut0 ecc u (finishBatch x cut0 ecc u) := by
    intro x cut0 ecc u ⟨hinc, hmem, hrun⟩
    have hrows := batchRows_rowOk (u.setAt x) x (u.reallyCut (u.setAt x) cut0) ecc u
    obtain ⟨hwinc, hwmem, hwrun⟩ := batchSums_kept (u.setAt x) x (u.reallyCut (u.setAt x) cut0) ecc u
    obtain ⟨hfab, hcards, hframe, hcl⟩ := batchClosed_spec x
      ((List.range 96).filter fun k => (u.reallyCut (u.setAt x) cut0).any fun p => p.1 == k)
      (sumsOut (u.setAt x) x (batchRows (u.setAt x) x (u.reallyCut (u.setAt x) cut0) ecc u))
    rw [hwinc, hinc] at hfab
    rw [finishBatch_eq]
    refine ⟨hfab, hcards, hframe.get .out, hframe.get .acc, hframe.get .mm, ?_, fun k _ => ⟨hcl k, ?_⟩, hrows⟩
    · exact (congrArg Mems.mem (hframe.get .mm)).trans (hwmem.trans hmem)
    · exact (congrArg Cluster.beamCutRun (hcl k)).trans (by rw [hwrun, hrun])
  have hsame : batchKept s s := ⟨rfl, rfl, fun _ => rfl⟩
  clear_value ends
  refine ⟨fun x => ?opens, fun smp wgt dram => ⟨fun hnone => ?idle, fun x hx => ?ended⟩,
    fun x late => ⟨fun h => congrArg Host.Outcome.next (beamDeadlineOp_idle h),
      fun hdue hdata => ⟨fun hx => ?cut, fun hnone => ?unstarted⟩⟩⟩
  case opens =>
    refine ⟨batchOpen_fab x.toNat s, fun hnone => ?_, fun p old new k hdue => weightApply_due_spec hdue,
      fun hdue hnone hdata => ?_, fun h => congrArg Host.Outcome.next (batchStartOp_idle h)⟩
    · rw [weightApply_of_none hnone]
      exact ⟨rfl, rfl⟩
    · have hstart := batchStartOp_due hdue hnone hdata
      have hopen := batchOpen_rest x.toNat s
      have hloads := beamLoads_frame (s.setAt x.toNat) x.toNat (batchOpen x.toNat s)
      exact ⟨_, congrArg Host.Outcome.next hstart, hstart ▸ batchStartOp_frame x.toNat s, (hloads.get .so).trans (hopen.get .so),
        (hloads.get .dict).trans (hopen.get .dict), hloads.get .fab, rfl⟩
  case idle => exact congrArg Host.Outcome.next (batchDoneOp_none ⟨smp, wgt, dram⟩ hnone)
  case ended =>
    have hop := batchDoneOp_some ⟨smp, wgt, dram⟩ hx
    exact ⟨_, congrArg Host.Outcome.next hop, hop ▸ batchDoneOp_frame ⟨smp, wgt, dram⟩ s, hends _ _ _ _ hsame⟩
  case cut =>
    have hop := (beamDeadlineOp_due (late := late) hdue hdata).trans (if_pos hx)
    exact ⟨_, congrArg Host.Outcome.next hop, hop ▸ beamDeadlineOp_frame x.toNat late s, hends _ _ _ _ hsame⟩
  case unstarted =>
    have hop := (beamDeadlineOp_due (late := late) hdue hdata).trans ((if_neg (by simp [hnone])).trans (if_pos (by simp [hnone])))
    exact ⟨_, congrArg Host.Outcome.next hop, hop ▸ beamDeadlineOp_frame x.toNat late s,
      hends _ _ _ _ (batchOpen_kept x.toNat s)⟩

end Sys2Proof.Machine
end

section
/-! Fold arithmetic (08 R234, R237): which integers of units are binary32 values, and the sum that a fold stores (O34). -/

namespace Sys2Proof.Machine

open Sys2Proof

/-! ### Patterns and their values -/

/-- A pattern from its sign, its exponent and its fraction. -/
def f32Pattern (neg : Bool) (e m : Nat) : Nat := (if neg then 2 ^ 31 else 0) + e * 2 ^ 23 + m

/-- The magnitude of a pattern in units of 2^-149. -/
def f32Magnitude (e m : Nat) : Nat := if e = 0 then m else (2 ^ 23 + m) * 2 ^ (e - 1)

section pattern
variable (neg : Bool) {e m : Nat} (he : e < 255) (hm : m < 2 ^ 23)
include he hm

theorem f32Pattern_lt : f32Pattern neg e m < 2 ^ 32 := by
  unfold f32Pattern
  split <;> omega

theorem f32Exp_f32Pattern : f32Exp (f32Pattern neg e m) = e := by
  unfold f32Exp f32Pattern
  split <;> omega

theorem f32Finite_f32Pattern : f32Finite (f32Pattern neg e m) = true := by
  rw [f32Finite, f32Exp_f32Pattern neg he hm, bne_iff_ne]
  omega

theorem f32Units_f32Pattern :
    f32Units (f32Pattern neg e m) = if neg then -(f32Magnitude e m : Int) else f32Magnitude e m := by
  have hfrac : f32Pattern neg e m % 2 ^ 23 = m := by unfold f32Pattern; split <;> omega
  have hsign : f32Pattern neg e m / 2 ^ 31 % 2 = 1 ↔ neg = true := by
    unfold f32Pattern
    cases neg
    · simp; omega
    · simp; omega
  unfold f32Units
  rw [f32Exp_f32Pattern neg he hm, hfrac]
  exact if_congr hsign rfl rfl

end pattern

/-- A finite value is a multiple, below 2^24, of a power of two. -/
theorem f32Units_eq_mul (b : Nat) : ∃ (q : Int) (k : Nat), q.natAbs ≤ 2 ^ 24 ∧ f32Units b = q * 2 ^ k := by
  have hm : b % 2 ^ 23 < 2 ^ 23 := Nat.mod_lt _ (by decide)
  obtain ⟨n, k, hn, hmag⟩ : ∃ n k : Nat, n < 2 ^ 24 ∧ f32Magnitude (f32Exp b) (b % 2 ^ 23) = n * 2 ^ k := by
    unfold f32Magnitude
    split
    · exact ⟨_, 0, by omega, (Nat.mul_one _).symm⟩
    · exact ⟨_, _, by omega, rfl⟩
  have hunits : f32Units b = if b / 2 ^ 31 % 2 = 1 then -(f32Magnitude (f32Exp b) (b % 2 ^ 23) : Int)
      else f32Magnitude (f32Exp b) (b % 2 ^ 23) := rfl
  rw [hunits, hmag]
  split
  · exact ⟨-n, k, by omega, by push_cast; ring⟩
  · exact ⟨n, k, by omega, by push_cast; rfl⟩

/-! ### The spacing of values -/

theorem f32Ulp_of_ne {x : Int} (h : x ≠ 0) : f32Ulp x = 2 ^ (x.natAbs.log2 + 1 - 24) := if_neg h

/-- Every multiple up to 2^24 of a power of two is a multiple of its own spacing. -/
theorem f32Ulp_dvd_mul {q : Int} {k : Nat} (hq : q.natAbs ≤ 2 ^ 24) : (f32Ulp (q * 2 ^ k) : Int) ∣ q * 2 ^ k := by
  by_cases hq0 : q = 0
  · simp [hq0]
  have hpos : 0 < q.natAbs := Int.natAbs_pos.2 hq0
  have habs : (q * 2 ^ k).natAbs = q.natAbs * 2 ^ k := by simp [Int.natAbs_mul, Int.natAbs_pow]
  rw [f32Ulp_of_ne (by positivity), habs, Int.natCast_dvd, habs]
  have hlog : (q.natAbs * 2 ^ k).log2 = q.natAbs.log2 + k := by
    refine (Nat.log2_eq_iff (by positivity)).2 ⟨?_, ?_⟩
    · rw [pow_add]; exact Nat.mul_le_mul_right _ (Nat.log2_self_le hpos.ne')
    · rw [Nat.add_right_comm, pow_add]; exact Nat.mul_lt_mul_of_pos_right Nat.lt_log2_self (by positivity)
  rw [hlog]
  rcases hq.lt_or_eq with hlt | heq
  · have : q.natAbs.log2 < 24 := (Nat.log2_lt hpos.ne').2 hlt
    exact (pow_dvd_pow 2 (by omega)).mul_left _
  · rw [heq, Nat.log2_two_pow, ← pow_add]
    exact pow_dvd_pow 2 (by omega)

theorem f32Ulp_dvd_f32Units (b : Nat) : (f32Ulp (f32Units b) : Int) ∣ f32Units b := by
  obtain ⟨q, k, hq, h⟩ := f32Units_eq_mul b
  exact h ▸ f32Ulp_dvd_mul hq

/-! ### The pattern of a value -/

/-- A value's pattern: its sign, and an exponent and a fraction that give its magnitude. -/
theorem f32Of_eq_f32Pattern {x : Int} (hx : x.natAbs ≤ 2 ^ 212) (hdvd : (f32Ulp x : Int) ∣ x) :
    ∃ e m, e < 255 ∧ m < 2 ^ 23 ∧ f32Of x = f32Pattern (decide (x < 0)) e m ∧ f32Magnitude e m = x.natAbs := by
  by_cases hx0 : x = 0
  · exact ⟨0, 0, by decide, by decide, by subst hx0; decide, by subst hx0; rfl⟩
  have hv0 : x.natAbs ≠ 0 := Int.natAbs_ne_zero.2 hx0
  rw [f32Ulp_of_ne hx0, Int.natCast_dvd] at hdvd
  have hlog : x.natAbs.log2 < 213 := (Nat.log2_lt hv0).2 (hx.trans_lt (Nat.pow_lt_pow_right (by decide) (by decide)))
  have hle := Nat.log2_self_le hv0
  have hlt := @Nat.lt_log2_self x.natAbs
  unfold f32Of f32Pattern f32Magnitude
  simp only [decide_eq_true_eq, if_neg hv0, natSub_eq]
  generalize x.natAbs = v at *
  generalize v.log2 = l at *
  by_cases hl : l + 1 ≤ 23
  · refine ⟨0, v, by decide, hlt.trans_le (Nat.pow_le_pow_right (by decide) hl), ?_, if_pos rfl⟩
    rw [if_pos hl]; omega
  · obtain ⟨k, rfl⟩ : ∃ k, l = k + 23 := ⟨l - 23, by omega⟩
    obtain ⟨q, rfl⟩ := hdvd
    have hk : k + 23 + 1 - 24 = k := by omega
    rw [hk] at hle hlt ⊢
    have hqlo : 2 ^ 23 ≤ q := Nat.le_of_mul_le_mul_left ((pow_add 2 k 23).symm.trans_le hle) (by positivity)
    have hqhi : q < 2 ^ 24 := Nat.lt_of_mul_lt_mul_left (hlt.trans_eq (pow_add 2 k 24))
    refine ⟨k + 1, q - 2 ^ 23, by omega, by omega, ?_, ?_⟩
    · rw [if_neg hl, Nat.mul_div_cancel_left _ (by positivity)]
      omega
    · rw [if_neg (Nat.succ_ne_zero k), Nat.add_sub_cancel' hqlo, Nat.add_sub_cancel, Nat.mul_comm]

section value
variable {x : Int} (hx : x.natAbs ≤ 2 ^ 212) (hdvd : (f32Ulp x : Int) ∣ x)
include hx hdvd

theorem f32Of_lt : f32Of x < 2 ^ 32 := by
  obtain ⟨e, m, he, hm, h, -⟩ := f32Of_eq_f32Pattern hx hdvd
  exact h ▸ f32Pattern_lt _ he hm

theorem f32Finite_f32Of : f32Finite (f32Of x) = true := by
  obtain ⟨e, m, he, hm, h, -⟩ := f32Of_eq_f32Pattern hx hdvd
  exact h ▸ f32Finite_f32Pattern _ he hm

theorem f32Units_f32Of : f32Units (f32Of x) = x := by
  obtain ⟨e, m, he, hm, h, hmag⟩ := f32Of_eq_f32Pattern hx hdvd
  rw [h, f32Units_f32Pattern _ he hm, hmag]
  simp only [decide_eq_true_eq]
  split <;> omega

/-- −0.0 is the pattern of no value. -/
theorem f32Of_ne_neg_zero : f32Of x ≠ 2 ^ 31 := by
  intro hneg
  have hzero : x = 0 := by rw [← f32Units_f32Of hx hdvd, hneg]; decide
  rw [hzero] at hneg
  exact absurd hneg (by decide)

end value

/-- The finite pattern b has the value x. -/
def f32Value (b : Nat) (x : Int) : Prop := b < 2 ^ 32 ∧ f32Finite b = true ∧ f32Units b = x

theorem exists_f32Value_iff {x : Int} (hx : x.natAbs ≤ 2 ^ 212) : (∃ b, f32Value b x) ↔ (f32Ulp x : Int) ∣ x := by
  constructor
  · rintro ⟨b, -, -, rfl⟩
    exact f32Ulp_dvd_f32Units b
  · exact fun h => ⟨f32Of x, f32Of_lt hx h, f32Finite_f32Of hx h, f32Units_f32Of hx h⟩

/-! ### The neighbours of an integer that is no value -/

section neighbours
variable {x : Int}

/-- Where the spacing does not divide x, x lies between two multiples of it that are 24 bits wide. -/
theorem binade_of_not_dvd (hx : x.natAbs < 2 ^ 212) (h : ¬ (f32Ulp x : Int) ∣ x) : ∃ k, k ≤ 188 ∧ f32Ulp x = 2 ^ k ∧
    2 ^ (k + 23) ≤ x.natAbs ∧ x.natAbs < 2 ^ (k + 24) := by
  have hx0 : x ≠ 0 := fun e => h (by rw [e]; exact dvd_zero _)
  have hv0 : x.natAbs ≠ 0 := Int.natAbs_ne_zero.2 hx0
  have hulp := f32Ulp_of_ne hx0
  have hlog : x.natAbs.log2 < 212 := (Nat.log2_lt hv0).2 hx
  have hk : 24 < x.natAbs.log2 + 1 := by
    by_contra hk
    rw [hulp, show x.natAbs.log2 + 1 - 24 = 0 by omega] at h
    exact h (one_dvd x)
  refine ⟨x.natAbs.log2 + 1 - 24, by omega, hulp, ?_, ?_⟩
  · rw [show x.natAbs.log2 + 1 - 24 + 23 = x.natAbs.log2 by omega]
    exact Nat.log2_self_le hv0
  · rw [show x.natAbs.log2 + 1 - 24 + 24 = x.natAbs.log2 + 1 by omega]
    exact Nat.lt_log2_self

/-- An integer in the binade of k has the spacing 2^k. -/
theorem f32Ulp_of_binade {v : Int} {k : Nat} (hlo : 2 ^ (k + 23) ≤ v.natAbs) (hhi : v.natAbs < 2 ^ (k + 24)) : f32Ulp v = 2 ^ k := by
  have hv0 : v.natAbs ≠ 0 := by have := Nat.pow_pos (n := k + 23) (show 0 < 2 by decide); omega
  rw [f32Ulp_of_ne (Int.natAbs_ne_zero.1 hv0), (Nat.log2_eq_iff hv0).2 ⟨hlo, hhi⟩]
  congr 1

/-- A binary32 value as a multiple, up to 2^24, of the spacing of a binade. -/
theorem f32Ulp_dvd_mul_and_le {q : Int} {k : Nat} (hk : k ≤ 188) (hq : q.natAbs ≤ 2 ^ 24) :
    (f32Ulp (q * 2 ^ k) : Int) ∣ q * 2 ^ k ∧ (q * 2 ^ k).natAbs ≤ 2 ^ 212 := by
  refine ⟨f32Ulp_dvd_mul hq, ?_⟩
  rw [Int.natAbs_mul, Int.natAbs_pow]
  exact (Nat.mul_le_mul hq (Nat.pow_le_pow_right (by decide) hk)).trans (by decide)

/-- Where the spacing 2^k does not divide x, its quotient lies inside a binade on one side of 0. -/
theorem quotient_of_binade {k : Nat} (hlo : 2 ^ (k + 23) ≤ x.natAbs) (hhi : x.natAbs < 2 ^ (k + 24)) (h : ¬ (2 ^ k : Int) ∣ x) :
    (2 ^ 23 ≤ x / 2 ^ k ∧ x / 2 ^ k < 2 ^ 24) ∨ (-2 ^ 24 ≤ x / 2 ^ k ∧ x / 2 ^ k < -2 ^ 23) := by
  have hpos : (0 : Int) < 2 ^ k := by positivity
  have hne : x ≠ -2 ^ 23 * 2 ^ k := fun e => h (e ▸ Dvd.intro_left _ rfl)
  rw [Int.le_ediv_iff_mul_le hpos, Int.le_ediv_iff_mul_le hpos, Int.ediv_lt_iff_lt_mul hpos, Int.ediv_lt_iff_lt_mul hpos]
  zify at hlo hhi
  rw [pow_add] at hlo hhi
  rcases abs_cases x with ⟨e, -⟩ | ⟨e, -⟩ <;> rw [e] at hlo hhi
  · left; constructor <;> linarith
  · right; exact ⟨by linarith, lt_of_le_of_ne (by linarith) hne⟩

/-- What lies strictly between two neighbours of a binade lies in it. -/
theorem binade_of_between {q v : Int} {k : Nat} (hq : (2 ^ 23 ≤ q ∧ q < 2 ^ 24) ∨ (-2 ^ 24 ≤ q ∧ q < -2 ^ 23))
    (hlo : q * 2 ^ k < v) (hhi : v < (q + 1) * 2 ^ k) : 2 ^ (k + 23) ≤ v.natAbs ∧ v.natAbs < 2 ^ (k + 24) := by
  have hpos : (0 : Int) < 2 ^ k := by positivity
  zify
  rw [pow_add, pow_add]
  rcases hq with ⟨h1, h2⟩ | ⟨h1, h2⟩
  · have hlow := mul_le_mul_of_nonneg_right h1 hpos.le
    have hhigh := mul_le_mul_of_nonneg_right (Int.add_one_le_of_lt h2) hpos.le
    rw [abs_of_pos (by linarith)]
    constructor <;> linarith
  · have hlow := mul_le_mul_of_nonneg_right h1 hpos.le
    have hhigh := mul_le_mul_of_nonneg_right (Int.add_one_le_of_lt h2) hpos.le
    rw [abs_of_neg (by linarith)]
    constructor <;> linarith

/-- The multiples of the spacing on either side of x are values, and no value lies between them. -/
theorem neighbours_of_not_dvd (hx : x.natAbs < 2 ^ 212) (h : ¬ (f32Ulp x : Int) ∣ x) :
    let u : Int := f32Ulp x
    let lo := x / u * u
    (lo < x ∧ x < lo + u) ∧
    ((f32Ulp lo : Int) ∣ lo ∧ lo.natAbs ≤ 2 ^ 212) ∧ ((f32Ulp (lo + u) : Int) ∣ lo + u ∧ (lo + u).natAbs ≤ 2 ^ 212) ∧
    ∀ v : Int, (f32Ulp v : Int) ∣ v → v ≤ lo ∨ lo + u ≤ v := by
  obtain ⟨k, hk, hulp, hlo, hhi⟩ := binade_of_not_dvd hx h
  have hpos : (0 : Int) < 2 ^ k := by positivity
  rw [hulp, Nat.cast_pow, Nat.cast_ofNat] at h ⊢
  dsimp only
  rw [← add_one_mul]
  have hq := quotient_of_binade hlo hhi h
  refine ⟨⟨?below, Int.lt_ediv_add_one_mul_self x hpos⟩, f32Ulp_dvd_mul_and_le hk (by omega), f32Ulp_dvd_mul_and_le hk (by omega),
    fun v hv => ?_⟩
  case below => exact lt_of_le_of_ne (Int.ediv_mul_le x hpos.ne') fun e => h (Dvd.intro_left _ e)
  by_contra hbetween
  rw [not_or, not_le, not_le] at hbetween
  obtain ⟨hvlo, hvhi⟩ := hbetween
  obtain ⟨hb, hb'⟩ := binade_of_between hq hvlo hvhi
  rw [f32Ulp_of_binade hb hb', Nat.cast_pow, Nat.cast_ofNat] at hv
  obtain ⟨w, rfl⟩ := hv
  rw [mul_comm (2 ^ k)] at hvlo hvhi
  have hwlo := lt_of_mul_lt_mul_right hvlo hpos.le
  have hwhi := lt_of_mul_lt_mul_right hvhi hpos.le
  omega

end neighbours

/-! ### The sum that is stored (08 R234) -/

section add
variable {acc r : Nat} {part x : Int} (hx : f32Units acc + part * 2 ^ 149 = x)
include hx

theorem f32Add_exact (h : (f32Ulp x : Int) ∣ x) : f32Add acc part r = f32Of x := by
  subst hx
  exact if_pos (Int.emod_eq_zero_of_dvd h)

/-- The random value chooses between the neighbours. -/
theorem f32Add_rounded (h : ¬ (f32Ulp x : Int) ∣ x) : f32Add acc part r =
    let u : Int := f32Ulp x
    let lo := x / u * u
    f32Of (if (r : Int) < ((x - lo) * 2 ^ 17 + u) / (2 * u) then lo + u else lo) := by
  subst hx
  unfold f32Add rhu
  dsimp only
  rw [if_neg fun e => h (Int.dvd_of_emod_eq_zero e)]
  refine congrArg f32Of (if_congr ?_ rfl rfl)
  rw [show ∀ d : Int, 2 * (d * 65536) = d * 2 ^ 17 from fun d => by ring]

end add

theorem noNegZero_halves (w : Nat) : noNegZero w % 2 ^ 32 ≠ 2 ^ 31 ∧ noNegZero w / 2 ^ 32 ≠ 2 ^ 31 := by
  unfold noNegZero
  dsimp only
  split <;> split <;> omega

/-- Settles O34: a sum that its spacing divides is a value and is stored as it is (`exists_f32Value_iff`, `f32Add_exact`); any other
lies between two values with none between them, of which one is stored (`neighbours_of_not_dvd`, `f32Add_rounded`). -/
theorem foldArithmeticIsExactOrChoosesANeighbour : Obligations.FoldArithmeticIsExactOrChoosesANeighbour := by
  unfold Obligations.FoldArithmeticIsExactOrChoosesANeighbour
  intro acc r part _ _ hbound _ _ value x y
  have hx : x.natAbs < 2 ^ 212 := hbound.trans_eq (by norm_num)
  have hvalue : (∃ b, value b x) ↔ (f32Ulp x : Int) ∣ x := exists_f32Value_iff hx.le
  have hint : ∀ n : Int, f32Units acc = n * 2 ^ 149 → (n + part).natAbs < 2 ^ 24 → x = (n + part) * 2 ^ 149 ∧ (f32Ulp x : Int) ∣ x :=
    fun n hn hle => by
      have e : x = (n + part) * 2 ^ 149 := (congrArg (· + part * 2 ^ 149) hn).trans (add_mul ..).symm
      exact ⟨e, e ▸ f32Ulp_dvd_mul hle.le⟩
  rw [hvalue]
  by_cases h : (f32Ulp x : Int) ∣ x
  case pos =>
    have hy : y = f32Of x := f32Add_exact rfl h
    have hunits : f32Units y = x := hy ▸ f32Units_f32Of hx.le h
    rw [hunits]
    refine ⟨hy ▸ f32Of_lt hx.le h, hy ▸ f32Finite_f32Of hx.le h, hy ▸ f32Of_ne_neg_zero hx.le h, fun e => ?_, fun _ => rfl,
      fun hn => absurd h hn, fun n hn hle => (hint n hn hle).1, noNegZero_halves⟩
    rw [hy, e]; decide
  case neg =>
    obtain ⟨⟨hlo, hhi⟩, hlow, hhigh, hnone⟩ := neighbours_of_not_dvd hx h
    have hy : y = f32Of _ := f32Add_rounded rfl h
    generalize x / (f32Ulp x : Int) * f32Ulp x = lo at hlo hhi hlow hhigh hnone hy
    obtain ⟨hi, hhieq⟩ : ∃ hi, hi = lo + f32Ulp x := ⟨_, rfl⟩
    rw [← hhieq] at hhi hhigh hnone hy
    rw [show (f32Ulp x : Int) = hi - lo by omega] at hy
    have hstored : ∀ z : Int, y = f32Of z → (f32Ulp z : Int) ∣ z ∧ z.natAbs ≤ 2 ^ 212 →
        y < 2 ^ 32 ∧ f32Finite y = true ∧ y ≠ 2 ^ 31 ∧ f32Units y = z := fun z hz ⟨hd, hb⟩ =>
      hz ▸ ⟨f32Of_lt hb hd, f32Finite_f32Of hb hd, f32Of_ne_neg_zero hb hd, f32Units_f32Of hb hd⟩
    obtain ⟨hlt, hfin, hne, hunits⟩ := hstored _ hy (by split; exacts [hhigh, hlow])
    refine ⟨hlt, hfin, hne, fun e => absurd (e ▸ dvd_zero _) h, fun hd => absurd hd h, fun _ => ⟨lo, hi, ?_, ?_, hlo, hhi, ?_, hunits⟩,
      fun n hn hle => absurd (hint n hn hle).2 h, noNegZero_halves⟩
    · exact (exists_f32Value_iff hlow.2).2 hlow.1
    · exact (exists_f32Value_iff hhigh.2).2 hhigh.1
    · rintro b v ⟨-, -, rfl⟩
      exact hnone _ (f32Ulp_dvd_f32Units b)

end Sys2Proof.Machine
end

section
/-! Accesses to the stacks (09 R261, R267, R269): tokens and rows, which change what the stacks keep of themselves and no byte, shared
by the staging (O30) and the folds (O35). -/

namespace Sys2Proof.Machine

open Sys2Proof

/-- From s to t only what the stacks keep of themselves has changed. -/
def stacksOnly (s t : State) : Prop := t = { s with mm := { s.mm with stack := t.mm.stack } }

variable {s t u : State}

theorem stacksOnly.refl (s : State) : stacksOnly s s := rfl

theorem stacksOnly.trans (h : stacksOnly s t) (k : stacksOnly t u) : stacksOnly s u := by
  unfold stacksOnly at *
  rw [k, h]

theorem stacksOnly_setStk (n : Nat) (v : Stack) (s : State) : stacksOnly s (s.setStk n v) := rfl

theorem stacksOnly_foldl {α : Type} {f : State → α → State} (h : ∀ v x, stacksOnly v (f v x)) (l : List α) (s : State) :
    stacksOnly s (l.foldl f s) :=
  List.foldlRecOn (motive := stacksOnly s) _ _ (.refl s) fun v hv x _ => hv.trans (h v x)

theorem stacksOnly_usePort (k port x n : Nat) (s : State) : stacksOnly s (usePort k port x n s) := stacksOnly_setStk ..

theorem stacksOnly_streamTokens (port n : Nat) (s : State) : stacksOnly s (streamTokens port n s) :=
  stacksOnly_foldl (fun v k => stacksOnly_setStk k _ v) _ s

theorem stacksOnly_touchInter (lo n : Nat) (s : State) : stacksOnly s (touchInter lo n s) := by
  unfold touchInter
  split
  · exact .refl s
  · exact stacksOnly_foldl (fun v _ => stacksOnly_setStk _ _ v) _ s

section only
variable (h : stacksOnly s t)
include h

theorem stacksOnly.so : t.so = s.so := by rw [h]
theorem stacksOnly.fab : t.fab = s.fab := by rw [h]
theorem stacksOnly.acc : t.acc = s.acc := by rw [h]
theorem stacksOnly.fresh : t.fresh = s.fresh := by rw [h]
theorem stacksOnly.mm : t.mm = { s.mm with stack := t.mm.stack } := congrArg State.mm h
theorem stacksOnly.mem : t.mm.mem = s.mm.mem := by rw [h.mm]
theorem stacksOnly.frame : Frame [.mm] s t := h ▸ Frame.with_mm s _
theorem stacksOnly.placeFor (x : Nat) : t.placeFor x = s.placeFor x := by rw [h]; rfl

end only

end Sys2Proof.Machine
end

section
/-! Exclusion records (08 R249): what an exclusion leaves of the accumulation, shared by the staging (O30) and the notices (O36). -/

namespace Sys2Proof.Machine

open Sys2Proof

variable {s t u : State} {m : Tab Nat} {c b : Nat} {mk : Nat → Nat}

/-- The records of an integration with one more. -/
def recordsWith (q : Nat) (l : List Nat) : List Nat :=
  if l.length < 64 then addRecord q l else if l.contains q then l else l ++ [q]

theorem exclude_outside (h : (s.runStart (b * setTB m)).isNone = true ∨ setChans m ≤ c) : exclude m c b mk s = s := if_pos h

/-- An exclusion writes the records of one integration, and counts their overflow. -/
theorem exclude_inside (h : ¬ ((s.runStart (b * setTB m)).isNone = true ∨ setChans m ≤ c)) :
    let p := s.intAt m c (b * setTB m)
    (exclude m c b mk s).acc = { s.acc with
      excls := s.acc.excls.set exclInit (exclKey c p) (recordsWith (mk (b - p / setTB m)) (s.exclOf c p))
      exclOver := (exclude m c b mk s).acc.exclOver } := by
  intro p
  have hdef : exclude m c b mk s =
      let l1 := recordsWith (mk (b - p / setTB m)) (s.exclOf c p)
      let s1 := s.setAcc { s.acc with excls := s.acc.excls.set exclInit (exclKey c p) l1 }
      if l1.length = 64 ∧ (s.exclOf c p).length = 63 then
        raise 0x910 3 (c + 0xFFFFFF * 65536) (s1.setAcc { s1.acc with exclOver := satAdd 32 s1.acc.exclOver 1 })
      else s1 := if_neg h
  rw [hdef]
  dsimp only
  split
  · rw [raise_acc]; rfl
  · rfl

theorem exclude_acc (m : Tab Nat) (c b : Nat) (mk : Nat → Nat) (s : State) : (exclude m c b mk s).acc =
    { s.acc with excls := (exclude m c b mk s).acc.excls, exclOver := (exclude m c b mk s).acc.exclOver } := by
  by_cases h : (s.runStart (b * setTB m)).isNone = true ∨ setChans m ≤ c
  · rw [exclude_outside h]
  · have hacc := exclude_inside (mk := mk) h
    exact hacc.trans (by rw [hacc])

end Sys2Proof.Machine
end

section
/-! Staging (08 R252, 09 R269, Table 09.6): what a strip's load brings, what its reports leave, and what it adds to the statistics
(O30). -/

namespace Sys2Proof.Machine

open Sys2Proof

variable {s t u : State}

/-! ### Marks in a table -/

theorem tabMark_set_one (t : Tab Nat) (k j : Nat) :
    State.tabMark (t.set (fun _ => 0) k 1) j = (decide (j = k) || State.tabMark t j) := by
  unfold State.tabMark
  rw [Tab.get_set]
  split <;> simp [*]

theorem tabMark_filter (p : Nat → Bool) (t : Tab Nat) (k : Nat) :
    State.tabMark (t.filter fun e => p e.1) k = (p k && State.tabMark t k) := by
  unfold State.tabMark
  induction t with
  | nil => simp [Tab.get]
  | cons e t ih =>
    obtain ⟨j, v⟩ := e
    by_cases hjk : j = k
    · subst hjk
      by_cases hp : p j <;> simp_all [Tab.get]
    · by_cases hp : p j <;> simp_all [Tab.get]

/-! ### The strip arrives (09 R269) -/

section load
variable (m : Tab Nat) (c x0 b strip : Nat)

/-- The strip's octet words stream from every stack, and the rows of each group open. -/
def stripStreamed (s : State) : State :=
  (List.range (setG m)).foldl (fun u g => touchInter (cornerOff m (s.placeFor x0) c b g (strip * setQ m)) (8 * setQ m * setBytes m) u)
    (streamTokens 4 (setNs m * setQ m * setBytes m) s)

/-- A staged word's key lies in the strip. -/
def inStrip (k : Nat) : Bool := k / 2 / (4096 * 8192) == b * 16384 + c && k / 2 % 8192 / max 1 (setQ m) == strip

/-- The strip is staged, whole. -/
def stripStaged (s : State) : State :=
  s.setFab { s.fab with loaded := (c, b, strip) :: s.fab.loaded, poison := s.fab.poison.filter fun e => !inStrip m c b strip e.1 }

/-- The key of the word that a report names. -/
def reportKey (e : Nat × Nat × Nat × Nat × Ecc) : Nat :=
  wordKey b c (e.2.2.1 / octHalves m) e.2.2.2.1 (e.2.2.1 % octHalves m)

/-- One report: the check of its corner-turn word; an uncorrectable one is marked and recorded. -/
def stripReport (e : Nat × Nat × Nat × Nat × Ecc) (s : State) : State :=
  let r := dramCheck e.1 e.2.1 4 e.2.2.2.2 s
  if r.1 = .uncorrectable then
    exclGroup ((8192 * b + e.2.2.2.1) * setF m) c (e.2.2.1 / octHalves m) (e.2.2.1 / octHalves m)
      (r.2.setFab { r.2.fab with poison := r.2.fab.poison.set (fun _ => 0) (reportKey m c b e) 1 })
  else r.2

/-- The samples of input a and of the channel numbered n in the strip, each with its sample index. -/
def State.stripSamples (s : State) (n a : Nat) : List (Nat × Smp) :=
  (List.range (setQ m)).map fun k => (strip * setQ m + k,
    decodeSmp (setC8 m) (s.chanWord n a ((8192 * b + (strip * setQ m + k)) * setF m)))

/-- A sample that counts: valid, and of no bad word. -/
def State.counts (s : State) (a : Nat) (y : Nat × Smp) : Bool := y.2.2.2.1 && !s.octBad m c b (a / 8) y.1

/-- A sample's squared magnitude. -/
def Smp.power (d : Smp) : Nat := (d.1 * d.1 + d.2.1 * d.2.1).toNat

/-- N, S1 and S2 with one more sample. -/
def statAdd (v : Nat × Nat × Nat) (d : Smp) : Nat × Nat × Nat := (v.1 + 1, v.2.1 + d.power, v.2.2 + d.power * d.power)

/-- Input a's valid samples join its sums in the integration with P0 = i. -/
def statInput (n i a : Nat) (s : State) : State :=
  let v := (s.stripSamples m b strip n a).foldl (fun v y => if s.counts m c b a y then statAdd v y.2 else v)
    (s.acc.stats.get statInit (statKey c i a))
  s.setAcc { s.acc with stats := s.acc.stats.set statInit (statKey c i a) v }

end load

/-- What a strip's load needs: a block's first stamp, integrations that run, an owned channel, a strip length, and that it is new. -/
def State.loads (s : State) (c x0 strip : Nat) : Prop :=
  let m := s.setAt x0
  x0 % setTB m = 0 ∧ s.fab.start.isSome = true ∧ c < setChans m ∧ 0 < setQ m ∧ (c, x0 / setTB m, strip) ∉ s.fab.loaded

/-- The strip as its reports leave it. -/
def stripChecked (m : Tab Nat) (c x0 b strip : Nat) (ecc : List (Nat × Nat × Nat × Nat × Ecc)) (s : State) : State :=
  ecc.foldl (fun v e => stripReport m c b e v) (stripStaged m c b strip (stripStreamed m c x0 b strip s))

variable {c x0 strip : Nat} {ecc : List (Nat × Nat × Nat × Nat × Ecc)}

theorem stagingLoad_refused (h : ¬ s.loads c x0 strip) : stagingLoad c x0 strip ecc s = s := by
  refine if_neg fun k => h ?_
  simpa [State.loads] using k

theorem stripStreamed_eq (m : Tab Nat) (c x0 b strip : Nat) (s : State) : stripStreamed m c x0 b strip s =
    (List.range (setG m)).foldl (fun u g => touchInter (cornerOff m (u.placeFor x0) c b g (strip * setQ m)) (8 * setQ m * setBytes m) u)
      (streamTokens 4 (setNs m * setQ m * setBytes m) s) := by
  have hplace := (stacksOnly_streamTokens 4 (setNs m * setQ m * setBytes m) s).placeFor x0
  unfold stripStreamed
  rw [← hplace]
  generalize streamTokens 4 (setNs m * setQ m * setBytes m) s = v
  induction List.range (setG m) generalizing v with
  | nil => rfl
  | cons g l ih =>
    simp only [List.foldl_cons]
    rw [← ih, (stacksOnly_touchInter ..).placeFor]

theorem stagingLoad_taken (h : s.loads c x0 strip) :
    let m := s.setAt x0
    let b := x0 / setTB m
    let v := stripChecked m c x0 b strip ecc s
    stagingLoad c x0 strip ecc s =
      forRange (setNs m) (fun a u => statInput m c b strip (v.absChan m c) (v.intAt m c x0) a u) v := by
  intro m b v
  unfold stagingLoad
  dsimp only
  rw [if_pos (by simpa [State.loads] using h)]
  rw [← stripStreamed_eq]
  simp only [forRange, statInput, State.stripSamples, List.foldl_map]
  rfl

/-! ### The reports of a strip (09 Table 09.6) -/

section reports
variable {m : Tab Nat} {b : Nat} {e : Nat × Nat × Nat × Nat × Ecc}

theorem eccCheck_uncorrectable (src checker : Nat) (s : State) : (eccCheck src checker .uncorrectable s).1 = .uncorrectable := by
  unfold eccCheck
  split
  · rfl
  · rfl

theorem dramCheck_uncorrectable (stack x port : Nat) (s : State) : (dramCheck stack x port .uncorrectable s).1 = .uncorrectable := by
  have h := eccCheck_uncorrectable (stackSrc stack) 1 (keepBad stack x port .uncorrectable s)
  unfold dramCheck
  simp only [ite_self]
  split <;> simp_all

/-- What checks of a strip's words leave: l are their reports. -/
structure StripRead (m : Tab Nat) (c b : Nat) (l : List (Nat × Nat × Nat × Nat × Ecc)) (s t : State) : Prop where
  frame : Frame [.so, .fab, .acc, .mm, .fresh] s t
  fab : t.fab = { s.fab with poison := t.fab.poison }
  acc : t.acc = { s.acc with excls := t.acc.excls, exclOver := t.acc.exclOver }
  mem : t.mm.mem = s.mm.mem
  kept : ∀ key, State.tabMark s.fab.poison key = true → State.tabMark t.fab.poison key = true
  lost : ∀ e ∈ l, e.2.2.2.2 = .uncorrectable → State.tabMark t.fab.poison (reportKey m c b e) = true
  only : ∀ key, State.tabMark t.fab.poison key = true → State.tabMark s.fab.poison key = true ∨ ∃ e ∈ l, key = reportKey m c b e

theorem StripRead.nil (s : State) : StripRead m c b [] s s where
  frame := Frame.refl ..
  fab := rfl
  acc := rfl
  mem := rfl
  kept := fun _ h => h
  lost := fun _ h => absurd h List.not_mem_nil
  only := fun _ h => .inl h

theorem StripRead.append {l r : List (Nat × Nat × Nat × Nat × Ecc)} (h : StripRead m c b l s t) (k : StripRead m c b r t u) :
    StripRead m c b (l ++ r) s u where
  frame := h.frame.step k.frame (List.Subset.refl _)
  fab := k.fab.trans (by rw [h.fab])
  acc := k.acc.trans (by rw [h.acc])
  mem := k.mem.trans h.mem
  kept := fun key hkey => k.kept key (h.kept key hkey)
  lost := fun e he hbad => (List.mem_append.1 he).elim (fun he => k.kept _ (h.lost e he hbad)) fun he => k.lost e he hbad
  only := fun key hkey => (k.only key hkey).elim
    (fun hkey => (h.only key hkey).imp_right fun ⟨e, he, hk⟩ => ⟨e, List.mem_append_left _ he, hk⟩)
    fun ⟨e, he, hk⟩ => .inr ⟨e, List.mem_append_right _ he, hk⟩

theorem stripReport_read (e : Nat × Nat × Nat × Nat × Ecc) (s : State) : StripRead m c b [e] s (stripReport m c b e s) := by
  have hframe := dramCheck_frame e.1 e.2.1 4 e.2.2.2.2 s
  have hfab : (dramCheck e.1 e.2.1 4 e.2.2.2.2 s).2.fab = s.fab := hframe.get .fab
  have hacc : (dramCheck e.1 e.2.1 4 e.2.2.2.2 s).2.acc = s.acc := hframe.get .acc
  have hmem := dramCheck_mem e.1 e.2.1 4 e.2.2.2.2 s
  have hlost : e.2.2.2.2 = .uncorrectable → (dramCheck e.1 e.2.1 4 e.2.2.2.2 s).1 = .uncorrectable := fun h =>
    by rw [h]; exact dramCheck_uncorrectable ..
  unfold stripReport
  dsimp only
  generalize dramCheck e.1 e.2.1 4 e.2.2.2.2 s = r at *
  split
  case isTrue hbad =>
    generalize hw : r.2.setFab _ = w
    have hwfab : w.fab = { s.fab with poison := s.fab.poison.set (fun _ => 0) (reportKey m c b e) 1 } := by rw [← hw, ← hfab]; rfl
    have hwacc : w.acc = s.acc := by rw [← hw]; exact hacc
    have hexcl := exclGroup_frame ((8192 * b + e.2.2.2.1) * setF m) c (e.2.2.1 / octHalves m) (e.2.2.1 / octHalves m) w
    have hmark : ∀ key, State.tabMark (exclGroup ((8192 * b + e.2.2.2.1) * setF m) c (e.2.2.1 / octHalves m) (e.2.2.1 / octHalves m)
        w).fab.poison key = (decide (key = reportKey m c b e) || State.tabMark s.fab.poison key) := fun key => by
      rw [show _ = w.fab from hexcl.get .fab, hwfab, tabMark_set_one]
    refine { frame := ?_, fab := ?_, acc := ?_, mem := ?_, kept := fun key h => ?_, lost := fun e' he _ => ?_, only := fun key h => ?_ }
    · exact (((hframe.weaken (by decide)).step (hw ▸ State.setFab_frame ..) (by decide)).step hexcl (by decide))
    · rw [show _ = w.fab from hexcl.get .fab, hwfab]
    · exact (exclude_acc ..).trans (by rw [hwacc]; rfl)
    · exact (congrArg Mems.mem (hexcl.get .mm)).trans ((congrArg (fun v : State => v.mm.mem) hw).symm.trans hmem)
    · rw [hmark, h, Bool.or_true]
    · rw [hmark, List.mem_singleton.1 he, decide_eq_true rfl, Bool.true_or]
    · rw [hmark, Bool.or_eq_true, decide_eq_true_eq] at h
      exact h.symm.imp_right fun hkey => ⟨e, List.mem_singleton_self e, hkey⟩
  case isFalse hgood =>
    exact { frame := hframe.weaken (by decide), fab := by rw [hfab], acc := by rw [hacc], mem := hmem, kept := fun _ h => by rwa [hfab],
            lost := fun e' he h => absurd (hlost (List.mem_singleton.1 he ▸ h)) hgood, only := fun _ h => .inl (by rwa [hfab] at h) }

theorem stripReports_read (l : List (Nat × Nat × Nat × Nat × Ecc)) (s : State) :
    StripRead m c b l s (l.foldl (fun v e => stripReport m c b e v) s) := by
  induction l generalizing s with
  | nil => exact .nil s
  | cons e l ih => exact (stripReport_read e s).append (ih _)

end reports

/-! ### The strip as its reports leave it -/

section checked
variable (m : Tab Nat) (c x0 b strip : Nat)

theorem stripStreamed_stacks (s : State) : stacksOnly s (stripStreamed m c x0 b strip s) :=
  (stacksOnly_streamTokens ..).trans (stacksOnly_foldl (fun v _ => stacksOnly_touchInter _ _ v) _ _)

/-- The strip is staged, whole but for the words that its reports call uncorrectable. -/
theorem stripChecked_spec (ecc : List (Nat × Nat × Nat × Nat × Ecc)) (s : State) :
    let t := stripChecked m c x0 b strip ecc s
    (Frame [.so, .fab, .acc, .mm, .fresh] s t ∧ t.mm.mem = s.mm.mem) ∧
    t.fab = { s.fab with loaded := (c, b, strip) :: s.fab.loaded, poison := t.fab.poison } ∧
    t.acc = { s.acc with excls := t.acc.excls, exclOver := t.acc.exclOver } ∧
    (∀ key, State.tabMark s.fab.poison key = true → inStrip m c b strip key = false → State.tabMark t.fab.poison key = true) ∧
    (∀ e ∈ ecc, e.2.2.2.2 = .uncorrectable → State.tabMark t.fab.poison (reportKey m c b e) = true) ∧
    (∀ key, State.tabMark t.fab.poison key = true →
      (State.tabMark s.fab.poison key = true ∧ inStrip m c b strip key = false) ∨ ∃ e ∈ ecc, key = reportKey m c b e) := by
  intro t
  have hstacks := stripStreamed_stacks m c x0 b strip s
  have hread : StripRead m c b ecc (stripStaged m c b strip (stripStreamed m c x0 b strip s)) t := stripReports_read ecc _
  have hfab : (stripStaged m c b strip (stripStreamed m c x0 b strip s)).fab = { s.fab with
      loaded := (c, b, strip) :: s.fab.loaded, poison := s.fab.poison.filter fun e => !inStrip m c b strip e.1 } := by
    rw [← hstacks.fab]; rfl
  have hmark : ∀ key, State.tabMark (stripStaged m c b strip (stripStreamed m c x0 b strip s)).fab.poison key = true ↔
      State.tabMark s.fab.poison key = true ∧ inStrip m c b strip key = false := fun key => by
    rw [hfab, tabMark_filter fun k => !inStrip m c b strip k, Bool.and_eq_true, Bool.not_eq_true', and_comm]
  refine ⟨⟨?_, hread.mem.trans hstacks.mem⟩, hread.fab.trans (by rw [hfab]), hread.acc.trans ?_,
    fun key hkey hout => hread.kept key ((hmark key).2 ⟨hkey, hout⟩), hread.lost, fun key hkey => ?_⟩
  · exact ((hstacks.frame.weaken (by decide)).step (State.setFab_frame ..) (by decide)).step hread.frame (List.Subset.refl _)
  · rw [show (stripStaged m c b strip (stripStreamed m c x0 b strip s)).acc = s.acc from hstacks.acc]
  · exact (hread.only key hkey).imp_left (hmark key).1

end checked

/-! ### The statistics (08 R252) -/

theorem foldl_statAdd (p : Nat × Smp → Bool) (l : List (Nat × Smp)) (v : Nat × Nat × Nat) :
    l.foldl (fun v y => if p y then statAdd v y.2 else v) v =
      let w := (l.filter p).map fun y => y.2.power
      (v.1 + (l.filter p).length, v.2.1 + w.sum, v.2.2 + (w.map fun y => y * y).sum) := by
  induction l generalizing v with
  | nil => rfl
  | cons y l ih =>
    rw [List.foldl_cons, ih]
    by_cases hy : p y
    · simp only [hy, if_true, statAdd, List.filter_cons_of_pos, List.map_cons, List.sum_cons, List.length_cons]
      simp only [Nat.add_assoc, Nat.add_comm 1]
    · simp [hy]

/-- From s to t only statistics change. -/
def statsOnly (s t : State) : Prop := t = { s with acc := { s.acc with stats := t.acc.stats } }

theorem statsOnly.trans (h : statsOnly s t) (k : statsOnly t u) : statsOnly s u := by
  unfold statsOnly at *
  rw [k, h]

theorem statKey_injective (c i : Nat) {a j : Nat} (h : statKey c i a = statKey c i j) : a = j := by
  unfold statKey at h
  omega

section stats
variable (m : Tab Nat) (c b strip n i : Nat)

theorem State.stripSamples_congr (hfilt : t.filt = s.filt) (hdict : t.dict = s.dict) (a : Nat) :
    t.stripSamples m b strip n a = s.stripSamples m b strip n a := by
  have hword : ∀ g x, t.chanWord n g x = s.chanWord n g x := fun g x => by
    unfold State.chanWord State.c8 State.cfgAt
    rw [hfilt, hdict]
  simp only [State.stripSamples, hword]

theorem State.counts_congr (hfab : t.fab = s.fab) (a : Nat) : t.counts m c b a = s.counts m c b a := by
  funext y
  rw [State.counts, State.octBad, hfab]
  rfl

/-- N, S1 and S2 of input a with the samples of the strip that count. -/
def State.statsWith (s : State) (a : Nat) : Nat × Nat × Nat :=
  (s.stripSamples m b strip n a).foldl (fun v y => if s.counts m c b a y then statAdd v y.2 else v)
    (s.acc.stats.get statInit (statKey c i a))

theorem statInput_stats (a j : Nat) (s : State) : (statInput m c b strip n i a s).acc.stats.get statInit j =
    if j = statKey c i a then s.statsWith m c b strip n i a else s.acc.stats.get statInit j := Tab.get_set ..

variable (k : Nat) (s : State)

theorem statInputs_only : statsOnly s (forRange k (fun a u => statInput m c b strip n i a u) s) :=
  forRange_induct (P := statsOnly s) rfl fun _ _ _ hv => hv.trans rfl

theorem statInputs_stats_other {key : Nat} (h : ∀ a, a < k → key ≠ statKey c i a) :
    (forRange k (fun a u => statInput m c b strip n i a u) s).acc.stats.get statInit key = s.acc.stats.get statInit key :=
  forRange_proj (fun v : State => v.acc.stats.get statInit key)
    (fun a v ha => (statInput_stats m c b strip n i a key v).trans (if_neg (h a ha))) s

theorem statInputs_stats {a : Nat} (ha : a < k) :
    (forRange k (fun a u => statInput m c b strip n i a u) s).acc.stats.get statInit (statKey c i a) =
      s.statsWith m c b strip n i a := by
  have h := forRange_read (n := k) (f := fun a u => statInput m c b strip n i a u)
    (fun v a => v.acc.stats.get statInit (statKey c i a)) (fun v : State => (v.filt, v.dict, v.fab)) 0
    (fun a => s.statsWith m c b strip n i a) s (fun _ _ _ => rfl) (fun a v _ henv hstats => ?_)
    (fun a v j hj => ?_) a
  · rwa [if_pos (by omega)] at h
  · obtain ⟨hfilt, hrest⟩ := Prod.ext_iff.1 henv
    obtain ⟨hdict, hfab⟩ := Prod.ext_iff.1 hrest
    rw [Nat.zero_add] at hstats ⊢
    rw [statInput_stats, if_pos rfl]
    unfold State.statsWith
    rw [State.stripSamples_congr m b strip n hfilt hdict, State.counts_congr m c b hfab, hstats]
  · rw [statInput_stats, if_neg fun e => hj ((statKey_injective c i e).trans (Nat.zero_add a).symm)]

end stats

/-! ### O30 -/

theorem State.absChan_congr (hrelay : t.relay = s.relay) (m : Tab Nat) (c : Nat) : t.absChan m c = s.absChan m c := by
  unfold State.absChan State.rankIn
  rw [hrelay]

theorem State.intAt_congr (hstarts : t.acc.starts = s.acc.starts) (m : Tab Nat) (c x : Nat) : t.intAt m c x = s.intAt m c x := by
  unfold State.intAt State.runStart
  rw [hstarts]

/-- Settles O30: the strip arrives, is staged and checked (`stripChecked_spec`), and then joins the statistics of each input
(`statInputs_stats`, `foldl_statAdd`). -/
theorem stagingALoadedStripCountsItsSamples : Obligations.StagingALoadedStripCountsItsSamples := by
  unfold Obligations.StagingALoadedStripCountsItsSamples
  intro c x strip ecc s x0 m b i inStrip_ word ok
  refine ⟨fun h => congrArg Host.Outcome.next (stagingLoad_refused h), fun h => ?_⟩
  have hload : stagingLoad c x0 strip ecc s = _ := stagingLoad_taken h
  obtain ⟨⟨hframe, hmem⟩, hfab, hacc, hkept, hlost, honly⟩ := stripChecked_spec m c x0 b strip ecc s
  have hint : (stripChecked m c x0 b strip ecc s).intAt m c x0 = i := State.intAt_congr (by rw [hacc]) ..
  have hchan : (stripChecked m c x0 b strip ecc s).absChan m c = s.absChan m c := State.absChan_congr (hframe.get .relay) ..
  have hnone : ecc = [] → stripChecked m c x0 b strip ecc s = stripStaged m c b strip (stripStreamed m c x0 b strip s) := fun e => by
    rw [e]; rfl
  rw [hint, hchan] at hload
  generalize stripChecked m c x0 b strip ecc s = v at *
  have hstats := statInputs_only m c b strip (s.absChan m c) i (setNs m) v
  have hother := @statInputs_stats_other m c b strip (s.absChan m c) i (setNs m) v
  have hinput := @statInputs_stats m c b strip (s.absChan m c) i (setNs m) v
  generalize forRange (setNs m) _ v = t at hload hstats hother hinput
  have htfab : t.fab = v.fab := by rw [hstats]
  have hold : v.acc.stats = s.acc.stats := by rw [hacc]
  refine ⟨t, congrArg Host.Outcome.next hload, hload ▸ stagingLoad_frame .., ?_, ?_, ?_, ?_, ?_, ?_, fun e => ?_, fun key hkey => ?_,
    fun a ha => ?_⟩
  · rw [htfab, hfab]
  · rw [hstats, hacc]
  · intro y
    rw [State.byteAt, hstats, hmem]; rfl
  · rwa [htfab]
  · rwa [htfab]
  · rwa [htfab]
  · rw [hstats, hnone e]
    have hstacks := stripStreamed_stacks m c x0 b strip s
    have hexcls := congrArg Acc.excls hstacks.acc
    have hover := congrArg Acc.exclOver hstacks.acc
    exact ⟨hstacks.so, hstacks.fresh, hexcls, hover, rfl⟩
  · rw [hother hkey, hold]
  · intro d w old
    rw [hinput ha, State.statsWith, foldl_statAdd, State.stripSamples_congr m b strip _ (hframe.get .filt) (hframe.get .dict), hold,
      ← State.counts_congr m c b htfab]
    rfl

end Sys2Proof.Machine
end

section
/-! What the emission and the start of a tile leave of the accumulation: the books and the starts of the integrations (08 R240, R242),
shared by the folds (O35) and the notices (O36). -/

namespace Sys2Proof.Machine

open Sys2Proof

/-- No book has changed and no integration has started from s to t. -/
def sameTiles (s t : State) : Prop := t.acc.book = s.acc.book ∧ t.acc.starts = s.acc.starts

variable {s t u : State}

theorem sameTiles.refl (s : State) : sameTiles s s := ⟨rfl, rfl⟩

theorem sameTiles.trans (h : sameTiles s t) (k : sameTiles t u) : sameTiles s u := ⟨k.1.trans h.1, k.2.trans h.2⟩

theorem sameTiles.of_acc (h : t.acc = s.acc) : sameTiles s t := ⟨by rw [h], by rw [h]⟩

theorem sameTiles.book (h : sameTiles s t) (c l : Nat) : t.book c l = s.book c l := by
  unfold State.book
  rw [h.1]

/-- A card about a tile, if there is one. -/
def cardOf (kind c : Nat) (l : Option Nat) (s : State) : State :=
  match l with
  | some t => raise 0x910 kind (c + t * 65536) s
  | none => s

theorem cardOf_acc (kind c : Nat) (l : Option Nat) (s : State) : (cardOf kind c l s).acc = s.acc := by
  cases l with
  | none => rfl
  | some t => exact raise_acc ..

/-- A dump that takes a tile, complete or not, holds its channel's slot with the tiles that it had. -/
theorem finishDump_puts (d : Dump) (s : State) : ∃ d' v, finishDump d s = putDump d' v ∧ d'.c = d.c ∧ d'.p0 = d.p0 ∧
    d'.emitted = d.emitted ∧ sameTiles s v := by
  by_cases h : d.emitted.length = d.tiles ∧ d.complete = false
  · let v := cardOf 2 d.c (s.biasTile d.c d.p0) (cardOf 1 d.c d.cut s)
    have hv : v.acc = s.acc := (cardOf_acc ..).trans (cardOf_acc ..)
    exact ⟨_, _, if_pos h, rfl, rfl, rfl, (sameTiles.of_acc hv).trans (u := v.setAcc { dropInts (fun c p => c == d.c && p == d.p0) v.acc with
      dumpsOut := satAdd 64 v.acc.dumpsOut 1, lastDump := d.p0 }) ⟨rfl, rfl⟩⟩
  · exact ⟨d, s, if_neg h, rfl, rfl, rfl, .refl s⟩

theorem sameTiles_finishDump (d : Dump) (s : State) : sameTiles s (finishDump d s) := by
  obtain ⟨d', v, hput, -, -, -, hv⟩ := finishDump_puts d s
  rw [hput]
  exact hv.trans ⟨rfl, rfl⟩

theorem sameTiles_openDump (c p : Nat) (s : State) : sameTiles s (openDump c p s).2 := by
  unfold openDump
  split
  · exact .refl s
  · exact ⟨rfl, rfl⟩

theorem storeBytes_acc (a : Nat) (l : List Byte) (s : State) : (storeBytes a l s).acc = s.acc :=
  (storeBytes_frame a l s).get .acc

theorem usePort_acc (k port x n : Nat) (s : State) : (usePort k port x n s).acc = s.acc :=
  (stacksOnly_usePort ..).acc

theorem sameTiles_damaged (n : Nat) (s : State) : sameTiles s (s.setAcc { s.acc with damaged := n }) := ⟨rfl, rfl⟩

theorem sameTiles_forced (n : Nat) (s : State) : sameTiles s (s.setAcc { s.acc with forced := n }) := ⟨rfl, rfl⟩

/-- A tile of a dump is written, and then counted as emitted. -/
theorem writeTile_finishes (d : Dump) (l rd : Nat) (vals : List Nat) (s : State) : ∃ v,
    writeTile d l rd vals s = finishDump { d with emitted := d.emitted.set (fun _ => 0) l 1 } v ∧ sameTiles s v := by
  refine ⟨_, rfl, sameTiles.trans (.of_acc ?_) (sameTiles_damaged ..)⟩
  rw [storeBytes_acc, storeBytes_acc, usePort_acc, usePort_acc]

theorem sameTiles_writeTile (d : Dump) (l rd : Nat) (vals : List Nat) (s : State) : sameTiles s (writeTile d l rd vals s) := by
  obtain ⟨v, hwrite, hv⟩ := writeTile_finishes d l rd vals s
  rw [hwrite]
  exact hv.trans (sameTiles_finishDump ..)

theorem sameTiles_emitTile (c l : Nat) (b : Book) (cut : Bool) (vals : List Nat) (s : State) :
    sameTiles s (emitTile c l b cut vals s) := by
  have hopen := sameTiles_openDump c b.int s
  unfold emitTile
  generalize openDump c b.int s = o at *
  obtain ⟨d, v⟩ := o
  dsimp only
  split
  · exact hopen.trans (sameTiles_writeTile ..)
  · exact (hopen.trans (sameTiles_forced ..)).trans (sameTiles_writeTile ..)

theorem sameTiles_biasValue (m : Tab Nat) (c l k p : Nat) (e : Ecc) (s : State) : sameTiles s (biasValue m c l k p e s).2 := by
  have hcheck (n x : Nat) (v : State) : sameTiles v (dramCheck n x 2 e v).2 := .of_acc ((dramCheck_frame n x 2 e v).get .acc)
  unfold biasValue
  dsimp only
  split
  · split
    · exact ((sameTiles.of_acc (usePort_acc ..)).trans (hcheck ..)).trans ⟨rfl, rfl⟩
    · exact (sameTiles.of_acc (usePort_acc ..)).trans (hcheck ..)
  · exact .refl s

theorem sameTiles_startTile (c l p : Nat) (old : Option (Book × List Nat)) (ecc : List (Nat × Ecc)) (s : State) :
    sameTiles s (startTile c l p old ecc s).2.2 := by
  unfold startTile
  dsimp only
  split
  · exact List.foldlRecOn (motive := fun x : List Nat × State => sameTiles s x.2) _ _ (.refl s)
      fun x hx _ _ => hx.trans (sameTiles_biasValue ..)
  · exact .refl s
  · exact .refl s

theorem readTile_acc (c l : Nat) (b : Book) (ecc : List (Nat × Ecc)) (s : State) : (readTile c l b ecc s).2.2.acc = s.acc :=
  (readTile_frame c l b ecc s).get .acc

theorem sameTiles_turnTile (c l p : Nat) (b : Book) (ecc : List (Nat × Ecc)) (s : State) :
    sameTiles s (turnTile c l p b ecc s).2.2 := by
  unfold turnTile
  split
  · exact (sameTiles_emitTile ..).trans (sameTiles_startTile ..)
  · exact ((sameTiles.of_acc (readTile_acc ..)).trans (sameTiles_emitTile ..)).trans (sameTiles_startTile ..)

theorem startIdle_state (c l p : Nat) (ecc : List (Nat × Ecc)) (s : State) :
    (startIdle c l p ecc s).2.2 = (startTile c l p none ecc (readBook c l p ecc s).2).2.2 := by
  unfold startIdle
  dsimp only
  split <;> rfl

theorem sameTiles_startIdle (c l p : Nat) (ecc : List (Nat × Ecc)) (s : State) : sameTiles s (startIdle c l p ecc s).2.2 := by
  rw [startIdle_state]
  exact (sameTiles.of_acc ((readBook_frame c l p ecc s).get .acc)).trans (sameTiles_startTile ..)

theorem sameTiles_openTile (c l p : Nat) (ecc : List (Nat × Ecc)) (s : State) : sameTiles s (openTile c l p ecc s).2.2 := by
  unfold openTile
  split
  · exact sameTiles_startIdle ..
  · split
    · exact sameTiles_turnTile ..
    · split
      · exact sameTiles_startIdle ..
      · exact .of_acc (readTile_acc ..)

/-! ### The integration that a tile is brought to (08 Table 08.3) -/

theorem startTile_int (c l p : Nat) (old : Option (Book × List Nat)) (ecc : List (Nat × Ecc)) (s : State) :
    (startTile c l p old ecc s).1.int = p := by
  unfold startTile
  dsimp only
  split <;> rfl

theorem startTile_idle (c l p : Nat) (old : Option (Book × List Nat)) (ecc : List (Nat × Ecc)) (s : State) :
    (startTile c l p old ecc s).1.idle = false := by
  unfold startTile
  dsimp only
  split <;> rfl

/-- A start that finds its bookkeeping word lost differs from one that does not in the mark bad alone. -/
theorem startIdle_book (c l p : Nat) (ecc : List (Nat × Ecc)) (s : State) :
    (startIdle c l p ecc s).1.int = p ∧ (startIdle c l p ecc s).1.idle = false := by
  unfold startIdle
  dsimp only
  split <;> exact ⟨startTile_int .., startTile_idle ..⟩

theorem turnTile_book (c l p : Nat) (b : Book) (ecc : List (Nat × Ecc)) (s : State) :
    (turnTile c l p b ecc s).1.int = p ∧ (turnTile c l p b ecc s).1.idle = false := by
  unfold turnTile
  split <;> exact ⟨startTile_int .., startTile_idle ..⟩

variable {c l p : Nat} {b : Book} {ecc : List (Nat × Ecc)}

theorem openTile_none (h : s.book c l = none) : openTile c l p ecc s = startIdle c l p ecc s := by
  unfold openTile
  rw [h]

theorem openTile_older (h : s.book c l = some b) (hint : b.int < p) : openTile c l p ecc s = turnTile c l p b ecc s := by
  unfold openTile
  rw [h]
  exact if_pos hint

theorem openTile_idle (h : s.book c l = some b) (hint : p ≤ b.int) (hidle : b.idle = true) :
    openTile c l p ecc s = startIdle c l p ecc s := by
  unfold openTile
  rw [h]
  exact (if_neg (Nat.not_lt.mpr hint)).trans (if_pos hidle)

theorem openTile_open (h : s.book c l = some b) (hint : p ≤ b.int) (hidle : b.idle = false) :
    openTile c l p ecc s = readTile c l b ecc s := by
  unfold openTile
  rw [h]
  exact (if_neg (Nat.not_lt.mpr hint)).trans (if_neg (by simp [hidle]))

/-- A tile that is not open in the integration with P0 = p or in a later one starts the former. -/
theorem openTile_started (h : ∀ b, s.book c l = some b → ¬ (p ≤ b.int ∧ b.idle = false)) :
    (openTile c l p ecc s).1.int = p ∧ (openTile c l p ecc s).1.idle = false := by
  cases hb : s.book c l with
  | none => rw [openTile_none hb]; exact startIdle_book ..
  | some b =>
    by_cases hint : b.int < p
    · rw [openTile_older hb hint]; exact turnTile_book ..
    · have hle : p ≤ b.int := Nat.not_lt.mp hint
      rw [openTile_idle hb hle (by simpa [hle] using h b hb)]
      exact startIdle_book ..

theorem openTile_int (h : ∀ b, s.book c l = some b → b.int ≤ p) : (openTile c l p ecc s).1.int = p := by
  by_cases hopen : ∃ b, s.book c l = some b ∧ p ≤ b.int ∧ b.idle = false
  · obtain ⟨b, hb, hint, hidle⟩ := hopen
    rw [openTile_open hb hint hidle]
    exact Nat.le_antisymm (h b hb) hint
  · exact (openTile_started fun b hb hopen' => hopen ⟨b, hb, hopen'⟩).1

/-! ### Writing a tile -/

theorem State.book_setBook_self (s : State) (c l : Nat) (b : Option Book) : (s.setBook c l b).book c l = b := Tab.get_set_self ..

theorem State.book_setBook_other (s : State) {c l c' l' : Nat} (b : Option Book) (h : tileKey c' l' ≠ tileKey c l) :
    (s.setBook c l b).book c' l' = s.book c' l' := Tab.get_set_ne _ _ _ h

/-- Writing a tile changes no part of the accumulation but its own book. -/
theorem putTile_acc (c l : Nat) (b : Book) (vals : List Nat) (s : State) :
    (putTile c l b vals s).acc = (s.setBook c l (some b)).acc := by
  unfold putTile putBook
  dsimp only [State.setBook]
  rw [storeBytes_acc, storeBytes_acc, usePort_acc, usePort_acc]

theorem putTile_book (c l c' l' : Nat) (b : Book) (vals : List Nat) (s : State) :
    (putTile c l b vals s).book c' l' = (s.setBook c l (some b)).book c' l' := by
  unfold State.book
  rw [putTile_acc]

end Sys2Proof.Machine
end

section
/-! What the accumulation keeps under the set due for data (08 R241, R243), and the card of a fold or a notice that finds its slot
held (09 R266); shared by the folds (O35) and the notices (O36). -/

namespace Sys2Proof.Machine

open Sys2Proof

variable {s t u : State}

theorem putTile_starts (c l : Nat) (b : Book) (vals : List Nat) (s : State) : (putTile c l b vals s).acc.starts = s.acc.starts := by
  rw [putTile_acc]; rfl

theorem sweepOld_starts (at_ : Nat) (x : Nat × Nat) (s : State) : (sweepOld at_ x s).acc.starts = s.acc.starts := by
  unfold sweepOld
  rw [raise_acc]
  refine (List.foldlRecOn (motive := fun v : State => sameTiles s v) _ _ (.refl s) fun v hv l _ => hv.trans ?_).2
  dsimp only
  split
  · next b _ =>
    split
    · have hread := readTile_acc x.1 l b [] v
      generalize readTile x.1 l b [] v = o at *
      exact (sameTiles.of_acc hread).trans (sameTiles_emitTile ..)
    · exact sameTiles_emitTile ..
  · exact sameTiles_emitTile ..

theorem startNew_starts (at_ : Nat) (s : State) : (startNew at_ s).acc.starts = s.acc.starts := by
  unfold startNew
  exact List.foldlRecOn (motive := fun v : State => v.acc.starts = s.acc.starts) _ _ rfl fun v hv o _ =>
    ((putTile_starts ..).trans (sameTiles_startTile ..).2).trans hv

theorem sweepOwed_starts (s : State) : (sweepOwed s).acc.starts = s.acc.starts := by
  unfold sweepOwed
  split
  · rfl
  · next at_ _ =>
    have howed : (if s.acc.waits && !s.oldWork at_ then owedNow at_ s else s).acc.starts = s.acc.starts := by split <;> rfl
    dsimp only
    generalize (if s.acc.waits && !s.oldWork at_ then owedNow at_ s else s) = v at *
    split
    · exact howed
    · refine Eq.trans ?_ howed
      have hfold : (v.acc.owed.foldl (fun s x =>
          if s.canEmit x.1 x.2 && !s.acc.owed.any fun y => y.1 == x.1 && decide (y.2 < x.2) then sweepOld at_ x s else s) v).acc.starts
            = v.acc.starts :=
        List.foldlRecOn (motive := fun w : State => w.acc.starts = v.acc.starts) _ _ rfl fun w hw x _ => by
          split
          · exact (sweepOld_starts ..).trans hw
          · exact hw
      split
      · exact (startNew_starts ..).trans hfold
      · exact hfold

theorem accCommit_starts (at_ : Nat) (old new : Tab Nat) (s : State) : (accCommit at_ old new s).acc.starts = s.acc.starts := by
  unfold accCommit
  split
  · refine (sweepOwed_starts _).trans ?_
    split <;> rfl
  · rfl

/-- The set due for data starts no integration: that is the exchanges' work. -/
theorem accApply_starts (x : Nat) (s : State) : (accApply x s).acc.starts = s.acc.starts := by
  unfold accApply
  dsimp only
  split
  · exact (accCommit_starts ..).trans (sweepOwed_starts _)
  · exact sweepOwed_starts _

theorem accApply_dict (x : Nat) (s : State) : (accApply x s).dict = { s.dict with blks := (accApply x s).dict.blks } := by
  unfold accApply
  dsimp only
  split
  · rw [(accCommit_frame ..).get .dict, (sweepOwed_frame _).get .dict]; rfl
  · rw [(sweepOwed_frame _).get .dict]; rfl

theorem accApply_setAt (x y : Nat) (s : State) : (accApply x s).setAt y = s.setAt y := by
  unfold State.setAt
  rw [accApply_dict]

theorem accApply_intAt (x : Nat) (m : Tab Nat) (c y : Nat) (s : State) : (accApply x s).intAt m c y = s.intAt m c y :=
  State.intAt_congr (accApply_starts x s) m c y

/-- Data with no set and no commit due leaves all but the block's notes of it. -/
theorem accApply_quiet {x : Nat} (hset : s.dueSet 0x910 x = none) (hdue : s.acc.due = none) :
    (accApply x s).fab = s.fab ∧ (accApply x s).acc = s.acc ∧ (accApply x s).mm = s.mm ∧ (accApply x s).so = s.so ∧
      (accApply x s).out = s.out := by
  rw [accApply_of_none hset hdue]
  exact ⟨rfl, rfl, rfl, rfl, rfl⟩

theorem accApply_quiet_frame {x : Nat} (hset : s.dueSet 0x910 x = none) (hdue : s.acc.due = none) :
    Frame [.dict] s (accApply x s) := by
  rw [accApply_of_none hset hdue]
  exact State.noteUnit_frame ..

theorem dumpOf_putDump (d : Dump) (s : State) : (putDump d s).dumpOf d.c = some d := by
  simp [State.dumpOf, putDump, State.setAcc]

theorem dumpOf_c {c : Nat} {d : Dump} (h : s.dumpOf c = some d) : d.c = c := by
  simpa using List.find?_some h

/-- DUMP_QUEUE_FULL: the dump that holds the slot is marked, and raises the card once. -/
theorem queueFull_spec (c : Nat) (s : State) : Frame [.so, .acc] s (queueFull c s) ∧
    (queueFull c s).acc = { s.acc with dumps := (queueFull c s).acc.dumps } ∧ (s.dumpOf c = none → queueFull c s = s) ∧
    ∀ d, s.dumpOf c = some d → (queueFull c s).dumpOf c = some { d with full := true } ∧
      raisedOnly (if d.full then [] else [(0x910, 6, c + 0xFFFFFF * 65536)]) s (queueFull c s) := by
  refine ⟨queueFull_frame .., ?_⟩
  unfold queueFull
  cases hd : s.dumpOf c with
  | none => exact ⟨rfl, fun _ => rfl, fun _ h => absurd h (by simp)⟩
  | some d =>
    dsimp only
    refine ⟨?_, fun h => absurd h (by simp), ?_⟩
    · split
      · rfl
      · rw [raise_acc]; rfl
    · rintro _ ⟨rfl⟩
      cases hfull : d.full with
      | true => exact ⟨by simp only [if_true]; rw [hd, ← hfull], raisedOnly_nil rfl⟩
      | false =>
        refine ⟨?_, raisedOnly_raise _ _ _ rfl⟩
        have hput := dumpOf_putDump { d with full := true } s
        obtain rfl := dumpOf_c hd
        unfold State.dumpOf at hput ⊢
        simpa using hput

end Sys2Proof.Machine
end

section
/-! Settling O36. A withdrawn notice records its exclusion, brings each of its tiles to its integration or past it, or marks the dump
that holds a slot it needs; a dump whose Envelopes are all acknowledged leaves its channel's slot. -/

namespace Sys2Proof.Machine

open Sys2Proof

variable {s t u : State} {c l p : Nat}

/-! ### The tiles of a notice (08 R240) -/

/-- Tile l of channel c is open in the integration with P0 = p or in a later one. -/
def State.openFrom (s : State) (c p l : Nat) : Prop := ∃ b, s.book c l = some b ∧ p ≤ b.int ∧ b.idle = false

theorem noticeTile_of_open (h : s.openFrom c p l) : noticeTile c p l s = s := by
  obtain ⟨b, hb, hopen⟩ := h
  unfold noticeTile
  rw [hb]
  exact if_pos hopen

theorem noticeTile_of_not_open (h : ¬ s.openFrom c p l) : noticeTile c p l s =
    putTile c l (openTile c l p [] s).1 (openTile c l p [] s).2.1 (openTile c l p [] s).2.2 := by
  unfold noticeTile
  cases hb : s.book c l with
  | none => rfl
  | some b => exact if_neg fun hopen => h ⟨b, hb, hopen⟩

theorem noticeTile_opens (c p l : Nat) (s : State) : (noticeTile c p l s).openFrom c p l := by
  by_cases h : s.openFrom c p l
  · rwa [noticeTile_of_open h]
  · have hstart := openTile_started (ecc := []) fun b hb hopen => h ⟨b, hb, hopen⟩
    rw [noticeTile_of_not_open h]
    exact ⟨_, (putTile_book ..).trans (State.book_setBook_self ..), hstart.1.ge, hstart.2⟩

theorem tileKey_ne {k : Nat} (h : k ≠ l) : tileKey c k ≠ tileKey c l := by
  unfold tileKey
  omega

theorem noticeTile_book {k : Nat} (h : k ≠ l) : (noticeTile c p l s).book c k = s.book c k := by
  by_cases hopen : s.openFrom c p l
  · rw [noticeTile_of_open hopen]
  · rw [noticeTile_of_not_open hopen, putTile_book, State.book_setBook_other _ _ (tileKey_ne h)]
    exact (sameTiles_openTile ..).book ..

theorem openFrom_noticeTile {k : Nat} (h : s.openFrom c p k) : (noticeTile c p l s).openFrom c p k := by
  by_cases hkl : k = l
  · exact hkl ▸ noticeTile_opens ..
  · unfold State.openFrom
    rwa [noticeTile_book hkl]

/-- A notice leaves each of its tiles open in its integration or in a later one. -/
theorem openFrom_noticeTiles {k : Nat} (ts : List Nat) (s : State) (h : k ∈ ts ∨ s.openFrom c p k) :
    (ts.foldl (fun s l => noticeTile c p l s) s).openFrom c p k := by
  induction ts generalizing s with
  | nil => simpa using h
  | cons l ts ih =>
    refine ih _ ?_
    rcases h with hk | hk
    · rcases List.mem_cons.mp hk with rfl | hk
      · exact .inr (noticeTile_opens ..)
      · exact .inl hk
    · exact .inr (openFrom_noticeTile hk)

theorem noticeTiles_of_open {ts : List Nat} (h : ∀ l ∈ ts, s.openFrom c p l) : ts.foldl (fun s l => noticeTile c p l s) s = s := by
  induction ts with
  | nil => rfl
  | cons l ts ih =>
    obtain ⟨hl, hts⟩ := List.forall_mem_cons.mp h
    rw [List.foldl_cons, noticeTile_of_open hl, ih hts]

theorem noticeTiles_frame (c p : Nat) (ts : List Nat) (s : State) :
    Frame [.so, .acc, .mm, .fresh] s (ts.foldl (fun s l => noticeTile c p l s) s) :=
  Frame.foldl (.refl _ _) fun _ _ => noticeTile_frame ..

/-! ### The exclusion record of a notice (08 R249) -/

theorem exclRec_kind (kind block strip pos first last sample : Nat) (h : kind < 16) :
    exclRec kind block strip pos first last sample % 16 = kind := by
  unfold exclRec
  omega

/-- A record that is of no GROUP joins no other one. -/
theorem addRecord_apart {q : Nat} (h : q % 16 ≠ 2) (l : List Nat) : addRecord q l = if q ∈ l then l else l ++ [q] := by
  induction l with
  | nil => rfl
  | cons r l ih =>
    have hmerge : mergeGroup r q = none := if_neg fun ⟨hlow, _, hkind⟩ => h (by omega)
    unfold addRecord
    rw [hmerge]
    by_cases hrq : r = q
    · simp [hrq]
    · simp only [hrq, if_false, ih, List.mem_cons, Ne.symm hrq, false_or]
      split <;> rfl

theorem recordsWith_apart {q : Nat} (h : q % 16 ≠ 2) (l : List Nat) : recordsWith q l = addRecord q l := by
  unfold recordsWith
  rw [addRecord_apart h]
  simp

section run
variable (m : Tab Nat) (n : Notice) (s : State)

theorem exclRun_recorded (hrun : (s.runStart (n.block * setTB m)).isSome = true) (hc : n.c < setChans m) :
    let i := s.intAt m n.c (n.block * setTB m)
    (exclRun m n s).exclOf n.c i =
      addRecord (exclRec 1 (n.block - i / setTB m) n.strip n.j n.first n.last 0) (s.exclOf n.c i) := by
  intro i
  have hinside : ¬ ((s.runStart (n.block * setTB m)).isNone = true ∨ setChans m ≤ n.c) := by
    rw [Option.isNone_iff_eq_none, ← Option.not_isSome_iff_eq_none]
    exact not_or.mpr ⟨not_not.mpr hrun, Nat.not_le.mpr hc⟩
  unfold State.exclOf exclRun
  rw [exclude_inside hinside]
  exact (Tab.get_set_self ..).trans (recordsWith_apart (by rw [exclRec_kind _ _ _ _ _ _ _ (by decide)]; decide) _)

theorem exclRun_other {k : Nat} (hk : k ≠ exclKey n.c (s.intAt m n.c (n.block * setTB m))) :
    (exclRun m n s).acc.excls.get exclInit k = s.acc.excls.get exclInit k := by
  unfold exclRun
  by_cases h : (s.runStart (n.block * setTB m)).isNone = true ∨ setChans m ≤ n.c
  · rw [exclude_outside h]
  · rw [exclude_inside h]
    exact Tab.get_set_ne _ _ _ hk

end run

/-! ### The cases of a notice -/

section cases
variable {n : Notice} {r : List Notice} (hn : s.fab.notices = n :: r)
include hn

/-- The state after a notice that waits for neither folds nor slots. -/
def noticeTaken (n : Notice) (r : List Notice) (s : State) : State :=
  let m := s.setAt n.x0
  let u := accApply n.x0 s
  (runTiles m n.first n.last).foldl (fun v l => noticeTile n.c (s.intAt m n.c n.x0) l v)
    (exclRun m n { u with fab := { u.fab with notices := r } })

/-- The slots that a notice's tiles need are free. -/
def noticeFree (n : Notice) (s : State) : Prop :=
  let m := s.setAt n.x0
  let u := accApply n.x0 s
  u.accWaits n.x0 = false ∧ ∀ l ∈ runTiles m n.first n.last, u.tileFree n.c l (s.intAt m n.c n.x0) = true

theorem noticeOp_behind (h : s.foldsBefore n.c n.x0 (runTiles (s.setAt n.x0) n.first n.last) = true) : noticeOp s = s := by
  unfold noticeOp
  rw [hn]
  exact if_pos h

variable (hbefore : s.foldsBefore n.c n.x0 (runTiles (s.setAt n.x0) n.first n.last) = false)
include hbefore

theorem noticeOp_free (hfree : noticeFree n s) : noticeOp s = noticeTaken n r s := by
  unfold noticeOp noticeTaken
  rw [hn]
  dsimp only
  rw [accApply_intAt, if_neg (by simp [hbefore])]
  exact if_pos ⟨hfree.1, List.all_eq_true.mpr hfree.2⟩

theorem noticeOp_not_free (hfree : ¬ noticeFree n s) : noticeOp s =
    let u := accApply n.x0 s
    if u.acc.waits ∧ u.accWaits n.x0 then u else queueFull n.c u := by
  unfold noticeOp
  rw [hn]
  dsimp only
  rw [accApply_intAt, if_neg (by simp [hbefore])]
  exact if_neg fun ⟨hacc, hall⟩ => hfree ⟨hacc, List.all_eq_true.mp hall⟩

end cases

theorem noticeTaken_fab (n : Notice) (r : List Notice) (s : State) : (noticeTaken n r s).fab = { s.fab with notices := r } := by
  refine ((noticeTiles_frame ..).get .fab).trans (((exclRun_frame ..).get .fab).trans ?_)
  rw [← (accApply_frame n.x0 s).get .fab]

theorem noticeTaken_out (n : Notice) (r : List Notice) (s : State) : (noticeTaken n r s).out = (accApply n.x0 s).out :=
  ((noticeTiles_frame ..).get .out).trans ((exclRun_frame ..).get .out)

/-! ### Dump slots (09 R266) -/

/-- The accumulation without channel c's dump, and the output with nothing queued of it. -/
def State.withoutDump (s : State) (c : Nat) (k : Nat × Nat) : State :=
  { s with acc := { s.acc with dumps := s.acc.dumps.filter fun e => e.c != c }
           out := { s.out with queued := s.out.queued.filter fun j => j != k } }

theorem dumpOf_withoutDump_self (c : Nat) (k : Nat × Nat) (s : State) : (s.withoutDump c k).dumpOf c = none := by
  simp [State.dumpOf, State.withoutDump]

theorem dumpOf_withoutDump_other {c c' : Nat} (k : Nat × Nat) (s : State) (h : c' ≠ c) :
    (s.withoutDump c k).dumpOf c' = s.dumpOf c' := by
  have hpred : (fun d : Dump => decide ((d.c != c) = true ∧ (d.c == c') = true)) = fun d => d.c == c' := by
    funext d
    by_cases hd : d.c = c'
    · simp [hd, h]
    · simp [hd]
  refine List.find?_filter.trans ?_
  rw [hpred]
  rfl

theorem dumpSlotFreed_none (h : s.dumpOf c = none) : dumpSlotFreed c s = s := by
  unfold dumpSlotFreed
  rw [h]

theorem dumpSlotFreed_done {d : Dump} (h : s.dumpOf c = some d) (hcomplete : d.complete = true)
    (hdone : s.dumpDone (c, d.p0) = true) : dumpSlotFreed c s = sweepOwed (s.withoutDump c (c, d.p0)) := by
  unfold dumpSlotFreed
  rw [h]
  exact if_pos (by simp [hcomplete, hdone])

theorem dumpSlotFreed_held {d : Dump} (h : s.dumpOf c = some d) (hheld : d.complete = false ∨ s.dumpDone (c, d.p0) = false) :
    dumpSlotFreed c s = s := by
  unfold dumpSlotFreed
  rw [h]
  exact if_neg (by rcases hheld with hheld | hheld <;> simp [hheld])

/-! ### The obligation -/

/-- Settles O36: `openFrom_noticeTiles` for the tiles, `exclRun_recorded` for the record, `queueFull_spec` for the held slot. -/
theorem noticesExcludeAndSlotsAreFreed : Obligations.NoticesExcludeAndSlotsAreFreed := by
  unfold Obligations.NoticesExcludeAndSlotsAreFreed
  refine fun s => ⟨fun hnil => ?_, fun n r hn => ?_, fun c => ⟨fun d hd hcomplete hdone => ?_, fun hnone => ?_, fun d hd hheld => ?_⟩⟩
  · refine congrArg Host.Outcome.next ?_
    unfold noticeOp
    rw [hnil]
  · intro m p x i ts u free
    have hu : Frame _ s u := accApply_frame n.x0 s
    refine ⟨fun hbehind => congrArg Host.Outcome.next (noticeOp_behind hn hbehind), accApply_quiet, fun hbefore hfree => ?_,
      fun hbefore hfree hset hdue hopen => ?_, fun hbefore hwaits haccWaits => ?_, fun hbefore hfree hturn => ?_⟩
    · refine ⟨noticeTaken n r s, congrArg Host.Outcome.next (noticeOp_free hn hbefore hfree), ?_, noticeTaken_fab .., noticeTaken_out ..,
        fun l hl => openFrom_noticeTiles _ _ (.inl hl)⟩
      rw [← noticeOp_free hn hbefore hfree]
      exact (noticeOp_frame s).weaken (by decide)
    · obtain ⟨hfab, hacc, -, hso, -⟩ := accApply_quiet hset hdue
      let v : State := { u with fab := { u.fab with notices := r } }
      have hv : v.acc = s.acc := hacc
      have hint (y : Nat) : v.intAt m n.c y = s.intAt m n.c y := State.intAt_congr (by rw [hv]) m n.c y
      have hrun : v.runStart x = s.runStart x := by unfold State.runStart; rw [hv]
      have hrec : (exclRun m n v).acc = { s.acc with excls := (exclRun m n v).acc.excls, exclOver := (exclRun m n v).acc.exclOver } :=
        hv ▸ exclude_acc ..
      have hquiet : noticeTaken n r s = exclRun m n v := by
        refine noticeTiles_of_open fun l hl => ?_
        have hbook : (exclRun m n v).book n.c l = s.book n.c l := by unfold State.book; rw [hrec]
        unfold State.openFrom
        rw [hbook]
        exact hopen l hl
      refine ⟨exclRun m n v, congrArg Host.Outcome.next ((noticeOp_free hn hbefore hfree).trans hquiet), ?_, ?_, hrec, fun hstart hc => ?_,
        fun hout => ?_, fun k hk => ?_⟩
      · have hframe := ((accApply_quiet_frame hset hdue).weaken2 (Frame.with_fab u _)).weaken2 (exclRun_frame m n v)
        exact hframe.weaken (by decide)
      · exact hquiet ▸ noticeTaken_fab n r s
      · have h := exclRun_recorded m n v (by rwa [hrun]) hc
        rw [hint] at h
        unfold State.exclOf at h ⊢
        rwa [hv] at h
      · have hnot : exclRun m n v = v := exclude_outside (by rwa [hrun])
        rw [hnot]
        exact ⟨hv, hso⟩
      · have h := exclRun_other m n v (k := k) (by rwa [hint])
        rwa [hv] at h
    · have hfree : ¬ noticeFree n s := fun h => by simp [u, h.1] at haccWaits
      refine congrArg Host.Outcome.next ((noticeOp_not_free hn hbefore hfree).trans ?_)
      exact if_pos ⟨hwaits, haccWaits⟩
    · obtain ⟨hframe, hacc, hnone, hsome⟩ := queueFull_spec n.c u
      have hop : noticeOp s = queueFull n.c u := by
        refine (noticeOp_not_free hn hbefore hfree).trans (if_neg fun ⟨hwaits, haccWaits⟩ => ?_)
        rcases hturn with h | h <;> simp [u, h] at hwaits haccWaits
      refine ⟨queueFull n.c u, congrArg Host.Outcome.next hop, hop ▸ (noticeOp_frame s).weaken (by decide),
        (hframe.get .fab).trans (hu.get .fab), hframe.get .mm, hacc, hnone, hsome⟩
  · exact ⟨congrArg Host.Outcome.next (dumpSlotFreed_done hd hcomplete hdone),
      sweepOwed_of_none (s := s.withoutDump c (c, d.p0)), dumpOf_withoutDump_self c _ s,
      fun c' hc' => dumpOf_withoutDump_other _ s hc'⟩
  · exact congrArg Host.Outcome.next (dumpSlotFreed_none hnone)
  · exact congrArg Host.Outcome.next (dumpSlotFreed_held hd hheld)

end Sys2Proof.Machine
end

section
/-! The requests that a fold finds ahead of it (09 R267), for O35: of the fabric they change the weights' counters alone, so the next
fold stays the next one; where none waits they change nothing that a stack keeps. -/

namespace Sys2Proof.Machine

open Sys2Proof

/-- From s to t the fabric has changed at most in what it keeps of the weights. -/
def fabButWeights (s t : State) : Prop := t.fab = { s.fab with w := t.fab.w }

variable {s t u : State}

theorem fabButWeights.of_fab (h : t.fab = s.fab) : fabButWeights s t := by
  unfold fabButWeights
  rw [h]

theorem fabButWeights.trans (h : fabButWeights s t) (k : fabButWeights t u) : fabButWeights s u := by
  unfold fabButWeights at *
  rw [k, h]

theorem State.nextFold_congr (h : fabButWeights s t) (st : Nat) : t.nextFold st = s.nextFold st := by
  unfold State.nextFold
  rw [h]

theorem fabButWeights_weightRefused (s : State) : fabButWeights s (weightRefused s) := by
  unfold fabButWeights weightRefused
  rw [raiseLim_fab]
  rfl

theorem fabButWeights_storeGuarded (a : Nat) (bs : List Byte) (s : State) : fabButWeights s (storeGuarded a bs s) := by
  unfold storeGuarded
  dsimp only
  split
  · exact fabButWeights_weightRefused s
  · exact .of_fab ((storeBytes_frame ..).get .fab)

theorem fabButWeights_dramWrite (n x port : Nat) (steward : Bool) (data : List Byte) (ecc : List (Nat × Ecc)) (s : State) :
    fabButWeights s (dramWrite n x port steward data ecc s).2 := by
  unfold dramWrite
  split
  · exact .of_fab (raise_fab ..)
  · exact (fabButWeights.of_fab ((mergeReads_frame ..).get .fab)).trans (fabButWeights_storeGuarded ..)

theorem fabButWeights_reqServe (n : Nat) (r : DramReq) (s : State) : fabButWeights s (reqServe n r s) := by
  have hreply (resp : Nat) (d : List Byte) (v : State) : fabButWeights v (reqReply r resp d v) := .of_fab ((reqReply_frame ..).get .fab)
  have hlate : fabButWeights s (if r.late then raise (stackSrc n) 6 (r.x / 8 * 8 + r.port * 2 ^ 36) s else s) := by
    split
    · exact .of_fab (raise_fab ..)
    · exact .of_fab rfl
  unfold reqServe
  dsimp only
  split
  · exact (hlate.trans (fabButWeights_dramWrite ..)).trans (hreply ..)
  · exact (hlate.trans (.of_fab ((dramRead_frame ..).get .fab))).trans (hreply ..)

theorem fabButWeights_serveBefore (n x len : Nat) (s : State) : fabButWeights s (serveBefore n x len s) := by
  unfold serveBefore serveNow
  exact List.foldlRecOn (motive := fabButWeights s) _ _ (.of_fab rfl) fun v hv r _ =>
    hv.trans ((fabButWeights.of_fab ((usePort_frame ..).get .fab)).trans (fabButWeights_reqServe ..))

/-- From s to t what the memories keep of the stacks is written anew, each stack as it was. -/
def stacksSame (s t : State) : Prop := stacksOnly s t ∧ ∀ k, t.stk k = s.stk k

theorem stacksSame.trans (h : stacksSame s t) (k : stacksSame t u) : stacksSame s u :=
  ⟨h.1.trans k.1, fun n => (k.2 n).trans (h.2 n)⟩

theorem stacksSame_serveBefore {n : Nat} (x len : Nat) (h : (s.stk n).queue = []) : stacksSame s (serveBefore n x len s) := by
  have hdef : serveBefore n x len s = s.setStk n (s.stk n) := by
    unfold serveBefore serveNow
    dsimp only
    rw [h, List.filter_nil, List.filter_nil, List.foldl_nil]
    congr 1
    rw [← h]
  rw [hdef]
  refine ⟨stacksOnly_setStk .., fun k => ?_⟩
  rw [State.stk_setStk]
  split
  · next hk => rw [hk]
  · rfl

variable {st : Nat} {f : FoldItem}

theorem foldWay_none (h : s.nextFold st = none) : foldWay st s = s := by
  unfold foldWay
  rw [h]

theorem fabButWeights_foldWay (st : Nat) (s : State) : fabButWeights s (foldWay st s) := by
  unfold foldWay
  split
  · exact .of_fab rfl
  · exact (((fabButWeights_serveBefore ..).trans (fabButWeights_serveBefore ..)).trans (fabButWeights_serveBefore ..)).trans
      (fabButWeights_serveBefore ..)

theorem stacksSame_foldWay (h : (s.stk st).queue = []) : stacksSame s (foldWay st s) := by
  have hserve {v : State} (x len : Nat) (hv : stacksSame s v) : stacksSame s (serveBefore st x len v) :=
    hv.trans (stacksSame_serveBefore x len (by rwa [hv.2]))
  unfold foldWay
  split
  · exact ⟨.refl s, fun _ => rfl⟩
  · exact hserve _ _ (hserve _ _ (hserve _ _ (hserve _ _ ⟨.refl s, fun _ => rfl⟩)))

end Sys2Proof.Machine
end

section
/-! Reading a tile from a stack with no bad word and no injection, and writing one (09 R263, Table 09.6), for O35. -/

namespace Sys2Proof.Machine

open Sys2Proof

/-! ### Sound reads -/

/-- No word of the stacks is marked, and nothing is injected at the words of stack k. -/
def soundStack (k : Nat) (s : State) : Prop := injFor (stackSrc k) 1 s = none ∧ s.mm.bad = []

variable {s t u : State} {k c l x : Nat} {b : Book} {m : Tab Nat} {pl : Place}

theorem soundStack.of_stacksOnly (h : soundStack k s) (ht : stacksOnly s t) : soundStack k t := by
  refine ⟨?_, (congrArg Mems.bad ht.mm).trans h.2⟩
  unfold injFor
  rw [ht.so]
  exact h.1

theorem badWord_sound (h : soundStack k s) (a : Nat) : s.badWord a = false := by
  unfold State.badWord
  rw [h.2]
  rfl

theorem dramCheck_sound (h : soundStack k s) (x port : Nat) : dramCheck k x port .ok s = (.ok, s) := by
  unfold dramCheck
  rw [badWord_sound h]
  unfold keepBad eccCheck
  simp [h.1]

theorem dramFlip_sound (h : soundStack k s) (x : Nat) : dramFlip k x .ok s = none := by
  unfold dramFlip eccFlip
  rw [badWord_sound h, h.1]
  rfl

theorem readBook_sound (h : soundStack (l % 4) s) (c x : Nat) :
    (readBook c l x [] s).1 = false ∧ stacksOnly s (readBook c l x [] s).2 := by
  unfold readBook eccOf
  dsimp only [List.find?_nil]
  rw [dramCheck_sound (h.of_stacksOnly (stacksOnly_usePort ..)), dramCheck_sound (h.of_stacksOnly (stacksOnly_usePort ..))]
  exact ⟨rfl, stacksOnly_usePort ..⟩

theorem State.numAt_congr (h : t.mm.mem = s.mm.mem) (a n : Nat) : t.numAt a n = s.numAt a n := by
  unfold State.numAt State.bytesAt State.byteAt
  rw [h]

/-- The reads of a list of words, none of which changes the state. -/
theorem foldl_reads {f : Nat → State → Nat × State} {g : Nat → Nat} (h : ∀ k, f k s = (g k, s)) (ks xs : List Nat) :
    ks.foldl (fun (x : List Nat × State) k => let (w, s') := f k x.2; (x.1 ++ [w], s')) (xs, s) = (xs ++ ks.map g, s) := by
  induction ks generalizing xs with
  | nil => simp
  | cons k ks ih => rw [List.foldl_cons]; dsimp only; rw [h, ih]; simp

/-- The read of an accumulator with no report; bad that its tile is marked damaged. -/
def accRead (m : Tab Nat) (pl : Place) (c l : Nat) (bad : Bool) (k : Nat) (s : State) : Nat × State :=
  let (r, s') := dramCheck (l % 4) (accOff m pl c l k) 2 .ok s
  let fl := dramFlip (l % 4) (accOff m pl c l k) .ok s
  (if bad || r == .uncorrectable then damagedWord else flipIn fl (s'.numAt (accAddr m pl c l k) 8), s')

theorem accRead_sound (h : soundStack (l % 4) s) (m : Tab Nat) (pl : Place) (c : Nat) (bad : Bool) (k : Nat) :
    accRead m pl c l bad k s = (if bad then damagedWord else s.numAt (accAddr m pl c l k) 8, s) := by
  unfold accRead
  rw [dramCheck_sound h, dramFlip_sound h]
  simp [flipIn]

/-- A tile is read as it stands, or as damaged if it is marked so. -/
theorem readTile_sound (h : soundStack (l % 4) s) (hset : s.setAt b.int = m) (hplace : s.placeFor b.int = pl) (c : Nat) :
    ∃ v, stacksOnly s v ∧ readTile c l b [] s =
      (b, (List.range 64).map fun k => if b.bad then damagedWord else s.numAt (accAddr m pl c l k) 8, v) := by
  obtain ⟨hlost, hbook⟩ := readBook_sound h c b.int
  have hv : stacksOnly s (usePort (l % 4) 2 (accOff m pl c l 0) 512 (readBook c l b.int [] s).2) :=
    hbook.trans (stacksOnly_usePort ..)
  have hdef : readTile c l b [] s =
      let bad := b.bad || (readBook c l b.int [] s).1
      let o := (List.range 64).foldl (fun (x : List Nat × State) k => let (w, s') := accRead m pl c l bad k x.2; (x.1 ++ [w], s'))
        ([], usePort (l % 4) 2 (accOff m pl c l 0) 512 (readBook c l b.int [] s).2)
      ({ b with bad := bad }, o.1, o.2) := by
    rw [← hset, ← hplace]
    unfold readTile
    generalize List.range 64 = ks
    rfl
  refine ⟨_, hv, ?_⟩
  rw [hdef, hlost, Bool.or_false]
  generalize usePort (l % 4) 2 (accOff m pl c l 0) 512 (readBook c l b.int [] s).2 = v at hv
  dsimp only
  rw [foldl_reads (accRead_sound (h.of_stacksOnly hv) m pl c b.bad)]
  simp only [State.numAt_congr hv.mem, List.nil_append]

/-! ### Numbers that are stored -/

theorem canon_dramAddr (hk : k < 4) (hx : x < stackSize) : canon (dramAddr k x) = dramAddr k x := by
  refine if_neg ?_
  unfold dramAddr dramBase stackSize at *
  omega

theorem getD_flatMap_toBytes (vals : List Nat) {k j : Nat} (hk : k < vals.length) (hj : j < 8) :
    (vals.flatMap (toBytes 8)).getD (8 * k + j) 0 = (toBytes 8 (vals.getD k 0)).getD j 0 := by
  induction vals generalizing k with
  | nil => exact absurd hk (Nat.not_lt_zero k)
  | cons v vals ih =>
    rw [List.flatMap_cons]
    cases k with
    | zero => rw [Nat.mul_zero, Nat.zero_add, List.getD_append _ _ _ _ (by rw [toBytes_length]; exact hj)]; rfl
    | succ k =>
      rw [List.getD_append_right _ _ _ _ (by rw [toBytes_length]; omega), toBytes_length,
        show 8 * (k + 1) + j - 8 = 8 * k + j by omega]
      exact ih (Nat.lt_of_succ_lt_succ hk)

theorem map_getD_toBytes (v : Nat) : (List.range 8).map (fun j => (toBytes 8 v).getD j 0) = toBytes 8 v := rfl

theorem length_flatMap_toBytes (vals : List Nat) : (vals.flatMap (toBytes 8)).length = 8 * vals.length := by
  induction vals with
  | nil => rfl
  | cons v vals ih => rw [List.flatMap_cons, List.length_append, toBytes_length, ih, List.length_cons]; omega

/-- Numbers stored where each address names its own byte read back modulo 2^64. -/
theorem numAt_of_stored {a : Nat} {vals : List Nat} (h : stored a (vals.flatMap (toBytes 8)) s t)
    (hcanon : ∀ j, j < 8 * vals.length → canon (a + j) = a + j) (hk : k < vals.length) :
    t.numAt (a + 8 * k) 8 = vals.getD k 0 % 2 ^ 64 := by
  have hbytes : t.bytesAt (a + 8 * k) 8 = toBytes 8 (vals.getD k 0) := by
    rw [← map_getD_toBytes, State.bytesAt]
    refine List.map_congr_left fun j hj => ?_
    have hj8 := List.mem_range.mp hj
    rw [Nat.add_assoc, ← getD_flatMap_toBytes vals hk hj8]
    refine h.2 _ (by rw [length_flatMap_toBytes]; omega) fun i hi hlen => ?_
    rw [length_flatMap_toBytes] at hlen
    rw [hcanon i hlen, hcanon _ (by omega)]
    omega
  rw [State.numAt, hbytes, ofBytes_toBytes]
  rfl

/-! ### Writing a tile -/

/-- A tile of the set, whose accumulators and bookkeeping lie on its stack. -/
structure tileFits (m : Tab Nat) (pl : Place) (c l : Nat) : Prop where
  chan : c < setChans m
  tile : l < setT m
  accs : accOff m pl c l 64 ≤ stackSize
  book : bookOff m pl c l + 16 ≤ stackSize

theorem four_dvd_setT (m : Tab Nat) : 4 ∣ setT m := by
  have hprod : setG m * (setG m + 1) = 2 * (4 * (6 * setM m * (48 * setM m + 1))) := by unfold setG; ring
  refine ⟨6 * setM m * (48 * setM m + 1), ?_⟩
  unfold setT
  rw [hprod, Nat.mul_div_cancel_left _ (by decide)]

theorem tileFits.index_lt (h : tileFits m pl c l) : tileIndex m c l < setChans m * (setT m / 4) := by
  obtain ⟨q, hq⟩ := four_dvd_setT m
  have htile := h.tile
  have hrow : l / 4 < setT m / 4 := by omega
  unfold tileIndex
  calc c * (setT m / 4) + l / 4 < (c + 1) * (setT m / 4) := by rw [Nat.succ_mul]; omega
    _ ≤ setChans m * (setT m / 4) := Nat.mul_le_mul_right _ h.chan

theorem tileFits.accs_le_book (h : tileFits m pl c l) : accOff m pl c l 0 + 512 ≤ bookOff m pl c l := by
  have hindex := h.index_lt
  unfold accOff bookOff
  omega

theorem accAddr_add (m : Tab Nat) (pl : Place) (c l k : Nat) : accAddr m pl c l k = accAddr m pl c l 0 + 8 * k := by
  unfold accAddr accOff dramAddr
  omega

theorem tileFits.canon_acc (h : tileFits m pl c l) {j : Nat} (hj : j < 512) :
    canon (accAddr m pl c l 0 + j) = accAddr m pl c l 0 + j := by
  have haccs := h.accs
  unfold accAddr
  rw [show dramAddr (l % 4) (accOff m pl c l 0) + j = dramAddr (l % 4) (accOff m pl c l 0 + j) from Nat.add_assoc ..]
  refine canon_dramAddr (Nat.mod_lt _ (by decide)) ?_
  unfold accOff at *
  omega

theorem tileFits.canon_book (h : tileFits m pl c l) {j : Nat} (hj : j < 16) :
    canon (dramAddr (l % 4) (bookOff m pl c l) + j) = dramAddr (l % 4) (bookOff m pl c l) + j := by
  have hbook := h.book
  rw [show dramAddr (l % 4) (bookOff m pl c l) + j = dramAddr (l % 4) (bookOff m pl c l + j) from Nat.add_assoc ..]
  exact canon_dramAddr (Nat.mod_lt _ (by decide)) (by omega)

theorem Book.bytes_length (b : Book) : b.bytes.length = 16 := by
  unfold Book.bytes
  rw [List.length_append, toBytes_length, toBytes_length]

theorem storeBytes_place (a : Nat) (bs : List Byte) (s : State) : (storeBytes a bs s).mm.place = s.mm.place := by
  rw [storeBytes_mm, putBytes_mm]

theorem State.setAt_congr (h : t.dict = s.dict) (x : Nat) : t.setAt x = s.setAt x := by
  unfold State.setAt
  rw [h]

theorem State.placeFor_congr (h : t.mm.place = s.mm.place) (x : Nat) : t.placeFor x = s.placeFor x := by
  unfold State.placeFor
  rw [h]

theorem stored_of_mem {a : Nat} {bs : List Byte} (h : stored a bs t u) (hmem : t.mm.mem = s.mm.mem) : stored a bs s u := by
  refine ⟨fun y hy => (h.1 y hy).trans ?_, h.2⟩
  unfold State.byteAt
  rw [hmem]

theorem stored_setBook {a : Nat} {bs : List Byte} (h : stored a bs s t) (c l : Nat) (o : Option Book) :
    stored a bs s (t.setBook c l o) := h

theorem putBook_stores (c l : Nat) (b : Book) (s : State) :
    stored (dramAddr (l % 4) (bookOff (s.setAt b.int) (s.placeFor b.int) c l)) b.bytes s (putBook c l b s) :=
  stored_setBook (stored_storeBytes ..) ..

section write
variable {vals : List Nat} (hset : s.setAt b.int = m) (hplace : s.placeFor b.int = pl)
include hset hplace

/-- A tile's bytes are its accumulators and then its bookkeeping. -/
theorem putTile_stores (c l : Nat) (vals : List Nat) : ∃ v, stored (accAddr m pl c l 0) (vals.flatMap (toBytes 8)) s v ∧
    stored (dramAddr (l % 4) (bookOff m pl c l)) b.bytes v (putTile c l b vals s) := by
  have hput : putTile c l b vals s = putBook c l b (storeBytes (accAddr m pl c l 0) (vals.flatMap (toBytes 8))
      (usePort (l % 4) 2 (bookOff m pl c l) 16 (usePort (l % 4) 2 (accOff m pl c l 0) 512 s))) := by
    rw [← hset, ← hplace]; rfl
  have hports : stacksOnly s (usePort (l % 4) 2 (bookOff m pl c l) 16 (usePort (l % 4) 2 (accOff m pl c l 0) 512 s)) :=
    (stacksOnly_usePort ..).trans (stacksOnly_usePort ..)
  generalize usePort (l % 4) 2 (bookOff m pl c l) 16 (usePort (l % 4) 2 (accOff m pl c l 0) 512 s) = v at hput hports
  have haccs := stored_of_mem (stored_storeBytes (accAddr m pl c l 0) (vals.flatMap (toBytes 8)) v) hports.mem
  have hbook := putBook_stores c l b (storeBytes (accAddr m pl c l 0) (vals.flatMap (toBytes 8)) v)
  rw [← hput, State.setAt_congr ((storeBytes_frame ..).get .dict), State.placeFor_congr (storeBytes_place ..),
    State.setAt_congr (hports.frame.get .dict), hports.placeFor, hset, hplace] at hbook
  exact ⟨_, haccs, hbook⟩

theorem putTile_numAt (hfits : tileFits m pl c l) (hlen : vals.length = 64) (hk : k < 64) :
    (putTile c l b vals s).numAt (accAddr m pl c l k) 8 = vals.getD k 0 % 2 ^ 64 := by
  obtain ⟨v, haccs, hbook⟩ := putTile_stores hset hplace c l vals
  have hkept : (putTile c l b vals s).numAt (accAddr m pl c l k) 8 = v.numAt (accAddr m pl c l k) 8 := by
    unfold State.numAt State.bytesAt
    refine congrArg ofBytes (List.map_congr_left fun j hj => hbook.1 _ fun i hi => ?_)
    have hj8 := List.mem_range.mp hj
    rw [Book.bytes_length] at hi
    have hle := hfits.accs_le_book
    rw [accAddr_add, Nat.add_assoc, hfits.canon_acc (by omega), hfits.canon_book hi]
    unfold accAddr dramAddr
    omega
  rw [hkept, accAddr_add]
  exact numAt_of_stored haccs (fun j hj => hfits.canon_acc (by omega)) (by omega)

theorem putTile_byteAt (hfits : tileFits m pl c l) (hlen : vals.length = 64) {y : Nat}
    (haccs : ∀ k, k < 512 → accAddr m pl c l 0 + k ≠ canon y)
    (hbook : ∀ k, k < 16 → dramAddr (l % 4) (bookOff m pl c l) + k ≠ canon y) :
    (putTile c l b vals s).byteAt y = s.byteAt y := by
  obtain ⟨v, hstored, hlast⟩ := putTile_stores hset hplace c l vals
  refine (hlast.1 y fun k hk => ?_).trans (hstored.1 y fun k hk => ?_)
  · rw [Book.bytes_length] at hk
    rw [hfits.canon_book hk]
    exact hbook k hk
  · rw [length_flatMap_toBytes] at hk
    rw [hfits.canon_acc (by omega)]
    exact haccs k (by omega)

end write

end Sys2Proof.Machine
end

section
/-! Settling O35: the fold engine's cases, and what a fold leaves of the tile it brings to its integration (08 R240, Table 08.3). -/

namespace Sys2Proof.Machine

open Sys2Proof

variable {s t u v : State} {c l p : Nat} {b : Book} {m : Tab Nat} {pl : Place} {f : FoldItem} {ecc : List (Nat × Ecc)}

/-! ### Tiles that start with no value (08 Table 08.3) -/

/-- Without bias and carry a tile starts with +0.0 (08 R244). -/
theorem startTile_plain (hset : s.setAt p = m) (hmode : setVal m (ob 0x7100 1) = 0) (old : Option (Book × List Nat)) :
    startTile c l p old ecc s = ({ int := p }, List.replicate 64 0, s) := by
  unfold startTile
  dsimp only
  rw [hset, hmode]
  rfl

theorem startIdle_plain (h : soundStack (l % 4) s) (hset : s.setAt p = m) (hmode : setVal m (ob 0x7100 1) = 0) :
    ∃ v, stacksOnly s v ∧ startIdle c l p [] s = ({ int := p }, List.replicate 64 0, v) := by
  obtain ⟨hlost, hbook⟩ := readBook_sound h c p
  refine ⟨_, hbook, ?_⟩
  unfold startIdle
  generalize readBook c l p [] s = o at hlost hbook
  obtain ⟨lost, v⟩ := o
  dsimp only at hlost hbook ⊢
  rw [hlost, startTile_plain ((State.setAt_congr (hbook.frame.get .dict) p).trans hset) hmode]
  rfl

/-! ### The dump that an emitted tile joins (08 R240) -/

/-- The dump of channel c is of the integration with P0 = p and has tile l. -/
def State.emitted (s : State) (c p l : Nat) : Prop := ∃ d, s.dumpOf c = some d ∧ d.p0 = p ∧ d.emitted.get (fun _ => 0) l = 1

theorem writeTile_emitted (d : Dump) (l rd : Nat) (vals : List Nat) (s : State) : (writeTile d l rd vals s).emitted d.c d.p0 l := by
  obtain ⟨v, hwrite, -⟩ := writeTile_finishes d l rd vals s
  obtain ⟨d', w, hput, hc, hp0, hemitted, -⟩ := finishDump_puts { d with emitted := d.emitted.set (fun _ => 0) l 1 } v
  refine ⟨d', ?_, hp0, ?_⟩
  · rw [hwrite, hput]
    exact hc ▸ dumpOf_putDump d' w
  · rw [hemitted]
    exact Tab.get_set_self (fun _ => 0) d.emitted l 1

theorem openDump_dump (h : s.canEmit c p = true) : (openDump c p s).1.c = c ∧ (openDump c p s).1.p0 = p := by
  unfold State.canEmit at h
  unfold openDump
  cases hd : s.dumpOf c with
  | none => exact ⟨rfl, rfl⟩
  | some d =>
    rw [hd] at h
    exact ⟨dumpOf_c hd, by simpa using (Bool.and_eq_true_iff.mp h).1⟩

theorem emitTile_emitted (h : s.canEmit c b.int = true) (cut : Bool) (vals : List Nat) :
    (emitTile c l b cut vals s).emitted c b.int l := by
  obtain ⟨hc, hp0⟩ := openDump_dump h
  unfold emitTile
  generalize openDump c b.int s = o at hc hp0
  obtain ⟨d, v⟩ := o
  dsimp only at hc hp0 ⊢
  subst hc
  rw [← hp0]
  split
  · exact writeTile_emitted ..
  · split <;> exact writeTile_emitted ..

theorem usePort_place (k port x n : Nat) (s : State) : (usePort k port x n s).mm.place = s.mm.place := rfl

theorem writeTile_place (d : Dump) (l rd : Nat) (vals : List Nat) (s : State) : (writeTile d l rd vals s).mm.place = s.mm.place := by
  unfold writeTile
  dsimp only
  rw [(finishDump_frame ..).get .mm, State.setAcc_mm, storeBytes_place, storeBytes_place, usePort_place, usePort_place]

theorem emitTile_place (c l : Nat) (b : Book) (cut : Bool) (vals : List Nat) (s : State) :
    (emitTile c l b cut vals s).mm.place = s.mm.place := by
  have hopen : (openDump c b.int s).2.mm.place = s.mm.place := by rw [(openDump_frame c b.int s).get .mm]
  unfold emitTile
  dsimp only
  split
  · exact (writeTile_place ..).trans hopen
  · exact (writeTile_place ..).trans hopen

/-- A tile of an older integration is emitted and starts the next one with +0.0. -/
theorem turnTile_plain (hsound : soundStack (l % 4) s) (hset : s.setAt p = m) (hmode : setVal m (ob 0x7100 1) = 0)
    (hslot : s.canEmit c b.int = true) : ∃ v, v.setAt p = m ∧ v.placeFor p = s.placeFor p ∧ v.emitted c b.int l ∧
      turnTile c l p b [] s = ({ int := p }, List.replicate 64 0, v) := by
  have hstart {w : State} (hw : stacksOnly s w) (cut : Bool) (vals : List Nat) (old : Option (Book × List Nat)) :
      let v := emitTile c l b cut vals w
      v.setAt p = m ∧ v.placeFor p = s.placeFor p ∧ v.emitted c b.int l ∧
        startTile c l p old [] v = ({ int := p }, List.replicate 64 0, v) := by
    have hvset : (emitTile c l b cut vals w).setAt p = m :=
      (State.setAt_congr (((emitTile_frame ..).get .dict).trans (hw.frame.get .dict)) p).trans hset
    refine ⟨hvset, (State.placeFor_congr (emitTile_place ..) p).trans (hw.placeFor p), emitTile_emitted ?_ .., startTile_plain hvset hmode _⟩
    unfold State.canEmit State.dumpOf at *
    rwa [hw.acc]
  unfold turnTile
  split
  · exact ⟨_, hstart (.refl s) ..⟩
  · obtain ⟨w, hw, hread⟩ := readTile_sound hsound rfl rfl c
    rw [hread]
    exact ⟨_, hstart hw ..⟩

/-! ### A fold into the values of a tile -/

/-- The 64 values of the fold's tile are those before it with its sums added. -/
def sumsStand (m : Tab Nat) (pl : Place) (f : FoldItem) (w : Nat → Nat) (t : State) : Prop := ∀ k, k < 64 →
  let q := f.sums.getD k (0, 0)
  t.numAt (accAddr m pl f.c f.tile k) 8 =
    if w k % 2 ^ 32 = damagedMarker ∧ w k / 2 ^ 32 = damagedMarker then w k
    else (f32Add (w k % 2 ^ 32) q.1 (f.rnd.getD (2 * k) 0) + 2 ^ 32 * f32Add (w k / 2 ^ 32) q.2 (f.rnd.getD (2 * k + 1) 0)) % 2 ^ 64

theorem foldProduct_mod (f : FoldItem) (k w : Nat) : foldProduct f k w % 2 ^ 64 =
    let q := f.sums.getD k (0, 0)
    if w % 2 ^ 32 = damagedMarker ∧ w / 2 ^ 32 = damagedMarker then w
    else (f32Add (w % 2 ^ 32) q.1 (f.rnd.getD (2 * k) 0) + 2 ^ 32 * f32Add (w / 2 ^ 32) q.2 (f.rnd.getD (2 * k + 1) 0)) % 2 ^ 64 := by
  have hiff : isDamaged w = true ↔ w % 2 ^ 32 = damagedMarker ∧ w / 2 ^ 32 = damagedMarker := by simp [isDamaged]
  unfold foldProduct
  by_cases h : w % 2 ^ 32 = damagedMarker ∧ w / 2 ^ 32 = damagedMarker
  · have hlt : w < 2 ^ 64 := by
      have hhigh : w / 2 ^ 32 < 2 ^ 32 := h.2 ▸ (by decide)
      omega
    rw [if_pos (hiff.mpr h), Nat.mod_eq_of_lt hlt]
    exact (if_pos h).symm
  · rw [if_neg (mt hiff.mp h)]
    exact (if_neg h).symm

/-- The values after a fold. -/
def foldedValues (f : FoldItem) (vals : List Nat) : List Nat := (List.range 64).map fun k => foldProduct f k (vals.getD k 0)

theorem foldedValues_length (f : FoldItem) (vals : List Nat) : (foldedValues f vals).length = 64 := by
  unfold foldedValues
  rw [List.length_map, List.length_range]

theorem foldedValues_getD (f : FoldItem) (vals : List Nat) {k : Nat} (hk : k < 64) :
    (foldedValues f vals).getD k 0 = foldProduct f k (vals.getD k 0) := by
  unfold foldedValues
  rw [List.getD_eq_getElem _ _ (by rwa [List.length_map, List.length_range]), List.getElem_map, List.getElem_range]

theorem applyFold_eq (f : FoldItem) (b : Book) (vals : List Nat) (s : State) : applyFold f b vals s =
    putTile f.c f.tile (foldBook f b (foldedValues f vals)) (foldedValues f vals) s := rfl

theorem applyFold_acc (f : FoldItem) (b : Book) (vals : List Nat) (s : State) :
    (applyFold f b vals s).acc = { s.acc with book := (applyFold f b vals s).acc.book } := by
  rw [applyFold_eq, putTile_acc]
  rfl

theorem applyFold_book_self (f : FoldItem) (b : Book) (vals : List Nat) (s : State) :
    (applyFold f b vals s).book f.c f.tile = some (foldBook f b (foldedValues f vals)) := by
  rw [applyFold_eq, putTile_book, State.book_setBook_self]

theorem applyFold_book_other (b : Book) (vals : List Nat) (s : State) (h : tileKey c l ≠ tileKey f.c f.tile) :
    (applyFold f b vals s).book c l = s.book c l := by
  rw [applyFold_eq, putTile_book, State.book_setBook_other _ _ h]

section values
variable {vals : List Nat} (hset : s.setAt b.int = m) (hplace : s.placeFor b.int = pl) (hfits : tileFits m pl f.c f.tile)
include hset hplace hfits

theorem applyFold_sums {w : Nat → Nat} (hw : ∀ k, k < 64 → vals.getD k 0 = w k) : sumsStand m pl f w (applyFold f b vals s) := by
  intro k hk
  rw [applyFold_eq, putTile_numAt (b := foldBook f b (foldedValues f vals)) hset hplace hfits (foldedValues_length ..) hk,
    foldedValues_getD f vals hk, hw k hk]
  exact foldProduct_mod ..

theorem applyFold_byteAt {y : Nat} (haccs : ∀ k, k < 512 → accAddr m pl f.c f.tile 0 + k ≠ canon y)
    (hbook : ∀ k, k < 16 → dramAddr (f.tile % 4) (bookOff m pl f.c f.tile) + k ≠ canon y) :
    (applyFold f b vals s).byteAt y = s.byteAt y := by
  rw [applyFold_eq]
  exact putTile_byteAt (b := foldBook f b (foldedValues f vals)) hset hplace hfits (foldedValues_length ..) haccs hbook

end values

theorem applyFold_sums_started (hset : s.setAt p = m) (hplace : s.placeFor p = pl) (hfits : tileFits m pl f.c f.tile) :
    sumsStand m pl f (fun _ => 0) (applyFold f { int := p } (List.replicate 64 0) s) :=
  applyFold_sums (b := { int := p }) hset hplace hfits fun _ hk => List.getD_replicate _ hk

/-! ### The cases of a fold (08 R240) -/

/-- The fold f taken by its engine into the integration with P0 = p. -/
def foldTaken (f : FoldItem) (p : Nat) (ecc : List (Nat × Ecc)) (s : State) : State :=
  let o := openTile f.c f.tile p ecc s
  if o.1.int = p then applyFold f o.1 o.2.1 o.2.2 else s

theorem foldTaken_other (h : (openTile f.c f.tile p ecc s).1.int ≠ p) : foldTaken f p ecc s = s := if_neg h

theorem foldTaken_applied {vals : List Nat} (hopen : openTile f.c f.tile p ecc s = (b, vals, v)) (hint : b.int = p) :
    foldTaken f p ecc s = applyFold f b vals v := by
  unfold foldTaken
  rw [hopen]
  exact if_pos hint

/-- A fold taken writes its tile, and leaves the rest as the opening of the tile left it. -/
theorem foldTaken_spec (hint : (openTile f.c f.tile p ecc s).1.int = p) :
    let r := openTile f.c f.tile p ecc s
    let t := foldTaken f p ecc s
    t.fab = s.fab ∧ t.out = r.2.2.out ∧ t.so = r.2.2.so ∧ t.acc = { r.2.2.acc with book := t.acc.book } ∧
      t.book f.c f.tile = some (foldBook f r.1 (foldedValues f r.2.1)) ∧
      ∀ c l, tileKey c l ≠ tileKey f.c f.tile → t.book c l = s.book c l := by
  have hframe := openTile_frame f.c f.tile p ecc s
  have hbooks := sameTiles_openTile f.c f.tile p ecc s
  dsimp only
  generalize hopen : openTile f.c f.tile p ecc s = r at *
  obtain ⟨b, vals, v⟩ := r
  rw [foldTaken_applied hopen hint]
  have hfold := applyFold_frame f b vals v
  exact ⟨(hfold.get .fab).trans (hframe.get .fab), hfold.get .out, hfold.get .so, applyFold_acc .., applyFold_book_self ..,
    fun c l hkey => (applyFold_book_other _ _ _ hkey).trans (hbooks.book c l)⟩

theorem foldTaken_frame (f : FoldItem) (p : Nat) (ecc : List (Nat × Ecc)) (s : State) :
    Frame [.so, .acc, .mm, .fresh] s (foldTaken f p ecc s) := by
  by_cases h : (openTile f.c f.tile p ecc s).1.int = p
  · rw [foldTaken_applied rfl h]
    exact (openTile_frame ..).step (applyFold_frame ..) (by decide)
  · rw [foldTaken_other h]
    exact .refl ..

theorem foldOp_none {st : Nat} (h : s.nextFold st = none) : foldOp st ecc s = s := by
  unfold foldOp
  rw [h]

/-- The state in which the fold f is taken: its set is applied, and it stands in the list of folds no longer. -/
def foldDrawn (f : FoldItem) (s : State) : State :=
  { accApply f.x0 s with fab := { s.fab with folds := s.fab.folds.filter fun g => g.seq != f.seq } }

theorem foldDrawn_quiet (hset : s.dueSet 0x910 f.x0 = none) (hdue : s.acc.due = none) :
    Frame [.fab, .dict] s (foldDrawn f s) ∧ (foldDrawn f s).acc = s.acc ∧ (foldDrawn f s).mm = s.mm := by
  obtain ⟨-, hacc, hmm, -, -⟩ := accApply_quiet hset hdue
  exact ⟨((accApply_quiet_frame hset hdue).weaken2 (Frame.with_fab (accApply f.x0 s) _)).weaken (by decide), hacc, hmm⟩

section cases
variable {st : Nat} (hf : s.nextFold st = some f)
include hf

theorem foldOp_eq : foldOp st ecc s =
    let u := accApply f.x0 s
    if u.acc.waits ∧ u.accWaits f.x0 then u
    else if u.foldHeld f then queueFull f.c u
    else foldTaken f (s.intAt (s.setAt f.x0) f.c f.x0) ecc (foldDrawn f s) := by
  have hfab : (accApply f.x0 s).fab = s.fab := (accApply_frame ..).get .fab
  unfold foldOp foldDrawn
  rw [hf]
  dsimp only
  rw [accApply_setAt, accApply_intAt, hfab]
  rfl

theorem foldOp_waits (hwaits : (accApply f.x0 s).acc.waits = true) (hdue : (accApply f.x0 s).accWaits f.x0 = true) :
    foldOp st ecc s = accApply f.x0 s :=
  (foldOp_eq hf).trans (if_pos ⟨hwaits, hdue⟩)

theorem foldOp_held (hheld : (accApply f.x0 s).foldHeld f = true)
    (hturn : (accApply f.x0 s).acc.waits = false ∨ (accApply f.x0 s).accWaits f.x0 = false) :
    foldOp st ecc s = queueFull f.c (accApply f.x0 s) := by
  refine (foldOp_eq hf).trans ((if_neg fun ⟨hwaits, hdue⟩ => ?_).trans (if_pos hheld))
  rcases hturn with h | h <;> simp [h] at hwaits hdue

theorem foldOp_taken (hfree : (accApply f.x0 s).foldHeld f = false) :
    foldOp st ecc s = foldTaken f (s.intAt (s.setAt f.x0) f.c f.x0) ecc (foldDrawn f s) := by
  have hdue : (accApply f.x0 s).accWaits f.x0 = false := (Bool.or_eq_false_iff.mp hfree).1
  exact (foldOp_eq hf).trans ((if_neg fun h => by simp [hdue] at h).trans (if_neg (by simp [hfree])))

end cases

/-- A fold that is not held finds the slot free that its tile needs. -/
theorem tileFree_of_not_held (h : (accApply f.x0 s).foldHeld f = false) :
    (accApply f.x0 s).tileFree f.c f.tile (s.intAt (s.setAt f.x0) f.c f.x0) = true := by
  have hfree := (Bool.or_eq_false_iff.mp h).2
  rw [accApply_setAt, accApply_intAt] at hfree
  simpa using hfree

theorem canEmit_of_tileFree (h : s.tileFree c l p = true) (hb : s.book c l = some b) (hint : b.int < p) :
    s.canEmit c b.int = true := by
  unfold State.tileFree at h
  rw [hb] at h
  simpa [Nat.not_le.mpr hint] using h

/-! ### A fold that finds its tile's words sound -/

section sound
variable (hsound : soundStack (f.tile % 4) s) (hset : s.setAt p = m)
include hsound hset

/-- The values of the fold's tile as they stand. -/
def State.tileWords (s : State) (m : Tab Nat) (pl : Place) (f : FoldItem) (bad : Bool) : List Nat :=
  (List.range 64).map fun k => if bad then damagedWord else s.numAt (accAddr m pl f.c f.tile k) 8

theorem foldTaken_open (hplace : s.placeFor p = pl) (hb : s.book f.c f.tile = some b) (hint : b.int = p) (hidle : b.idle = false) :
    ∃ v, stacksOnly s v ∧ foldTaken f p [] s = applyFold f b (s.tileWords m pl f b.bad) v := by
  subst hint
  obtain ⟨v, hv, hread⟩ := readTile_sound hsound hset hplace f.c
  exact ⟨v, hv, foldTaken_applied ((openTile_open hb (le_refl _) hidle).trans hread) rfl⟩

variable (hmode : setVal m (ob 0x7100 1) = 0)
include hmode

theorem foldTaken_idle (hb : s.book f.c f.tile = none ∨ ∃ b, s.book f.c f.tile = some b ∧ b.int = p ∧ b.idle = true) :
    ∃ v, stacksOnly s v ∧ foldTaken f p [] s = applyFold f { int := p } (List.replicate 64 0) v := by
  obtain ⟨v, hv, hstart⟩ := startIdle_plain (c := f.c) hsound hset hmode
  have hopen : openTile f.c f.tile p [] s = startIdle f.c f.tile p [] s := by
    rcases hb with hb | ⟨b, hb, hint, hidle⟩
    · exact openTile_none hb
    · exact openTile_idle hb hint.ge hidle
  exact ⟨v, hv, foldTaken_applied (hopen.trans hstart) rfl⟩

theorem foldTaken_older (hb : s.book f.c f.tile = some b) (hint : b.int < p) (hslot : s.canEmit f.c b.int = true) :
    ∃ v, v.setAt p = m ∧ v.placeFor p = s.placeFor p ∧ v.emitted f.c b.int f.tile ∧
      foldTaken f p [] s = applyFold f { int := p } (List.replicate 64 0) v := by
  obtain ⟨v, hvset, hvplace, hemitted, hturn⟩ := turnTile_plain (c := f.c) hsound hset hmode hslot
  exact ⟨v, hvset, hvplace, hemitted, foldTaken_applied ((openTile_older hb hint).trans hturn) rfl⟩

end sound

/-- The bookkeeping of a tile that starts with the fold f. -/
theorem foldBook_first (f : FoldItem) (p : Nat) (vals : List Nat) : foldBook f { int := p } vals =
    { int := p, folds := 1, weight := f.last + 1 - f.first, pairSum := f.counts.sum % 2 ^ 24, maxExp := maxExps vals, sat := f.sat } := by
  unfold foldBook
  simp

theorem emitted_of_dumps (h : t.acc.dumps = s.acc.dumps) (hs : s.emitted c p l) : t.emitted c p l := by
  unfold State.emitted State.dumpOf at *
  rwa [h]

theorem tileWords_getD (s : State) (m : Tab Nat) (pl : Place) (f : FoldItem) (bad : Bool) {k : Nat} (hk : k < 64) :
    (s.tileWords m pl f bad).getD k 0 = if bad then damagedWord else s.numAt (accAddr m pl f.c f.tile k) 8 := by
  unfold State.tileWords
  rw [List.getD_eq_getElem _ _ (by rwa [List.length_map, List.length_range]), List.getElem_map, List.getElem_range]

/-- Settles O35: `foldWay` keeps the next fold, `foldOp_eq` has the engine's cases, and `foldTaken_open`, `foldTaken_older` and
`foldTaken_idle` the rows of the tile table. -/
theorem foldsFollowTheTileTable : Obligations.FoldsFollowTheTileTable := by
  unfold Obligations.FoldsFollowTheTileTable
  refine fun st ecc o => ⟨fun hnone => ?_, fun f hf => ?_⟩
  · refine congrArg Host.Outcome.next ?_
    rw [foldWay_none hnone, foldOp_none hnone]
  intro s
  have hs : s.nextFold st = some f := (State.nextFold_congr (fabButWeights_foldWay st o) st).trans hf
  have hexec (ecc : List (Nat × Ecc)) : exec (.fold st ecc) o = .next (foldOp st ecc s) := rfl
  have htouches (ecc : List (Nat × Ecc)) : Frame (touches (.fold st ecc)) s (foldOp st ecc s) :=
    (foldOp_frame ..).weaken (by simp [touches])
  refine ⟨hs, foldWay_frame .., fabButWeights_foldWay .., fun hqueue => ?_, ?_⟩
  · obtain ⟨honly, hsame⟩ := stacksSame_foldWay hqueue
    exact ⟨honly.frame, honly.mm, hsame⟩
  clear_value s
  intro u p m pl rest len first more sums
  have hu : Frame _ s u := accApply_frame f.x0 s
  refine ⟨accApply_quiet, fun hwaits hdue => ?_, fun hheld hturn => ?_, fun hfree => ?_,
    fun hfree hset hdue hecc htile hbad hinj hc hl haccs hbook => ?_⟩
  · exact (hexec ecc).trans (congrArg _ (foldOp_waits hs hwaits hdue))
  · obtain ⟨hframe, hacc, hnone, hsome⟩ := queueFull_spec f.c u
    have hop : foldOp st ecc s = queueFull f.c u := foldOp_held hs hheld hturn
    exact ⟨queueFull f.c u, (hexec ecc).trans (congrArg _ hop), hop ▸ htouches ecc,
      (hframe.get .fab).trans (hu.get .fab), hframe.get .mm, hframe.get .out, hacc, hnone, hsome⟩
  · intro r w
    have hop : foldOp st ecc s = foldTaken f p ecc (foldDrawn f s) := foldOp_taken hs hfree
    refine ⟨fun hle => openTile_int (s := foldDrawn f s) hle, fun hint => ?_, fun hint => ?_⟩
    · exact ⟨_, (hexec ecc).trans (congrArg _ hop), hop ▸ htouches ecc, foldTaken_spec (s := foldDrawn f s) hint⟩
    · exact (hexec ecc).trans (congrArg _ (hop.trans (foldTaken_other (s := foldDrawn f s) hint)))
  · subst hecc
    have hop : foldOp st [] s = foldTaken f p [] (foldDrawn f s) := foldOp_taken hs hfree
    obtain ⟨hframe, hvacc, hvmm⟩ := foldDrawn_quiet hset hdue
    have hvfab : (foldDrawn f s).fab = { s.fab with folds := rest } := rfl
    have hvset : (foldDrawn f s).setAt p = m := accApply_setAt ..
    have hvfree : (foldDrawn f s).tileFree f.c f.tile p = true := tileFree_of_not_held hfree
    generalize foldDrawn f s = v at *
    have hvplace : v.placeFor p = pl := State.placeFor_congr (by rw [hvmm]) p
    have hfits : tileFits m pl f.c f.tile := ⟨hc, hl, haccs, hbook⟩
    have hsound : soundStack (f.tile % 4) v := by
      refine ⟨?_, by rw [hvmm, hbad]⟩
      unfold injFor
      rw [htile, hframe.get .so]
      exact hinj
    have hvbook : v.book f.c f.tile = s.book f.c f.tile := by unfold State.book; rw [hvacc]
    refine ⟨fun b hb hint hidle => ?_, fun b hb hint hmode => ?_, fun hb hmode => ?_⟩
    · obtain ⟨w, hw, htaken⟩ := foldTaken_open hsound hvset hvplace (hvbook.trans hb) hint hidle
      have hwset : w.setAt b.int = m := by rw [hint, State.setAt_congr (hw.frame.get .dict), hvset]
      have hwplace : w.placeFor b.int = pl := by rw [hint, hw.placeFor, hvplace]
      refine ⟨_, (hexec []).trans (congrArg _ (hop.trans htaken)), ?_, ?_, ?_, ⟨_, applyFold_book_self .., le_max_left ..⟩,
        applyFold_sums hwset hwplace hfits fun k hk => ?_, fun y hy hyb => ?_⟩
      · exact (((hframe.weaken2 hw.frame).weaken2 (applyFold_frame ..))).weaken (by decide)
      · exact ((applyFold_frame ..).get .fab).trans (hw.fab.trans hvfab)
      · rw [applyFold_acc, hw.acc, hvacc]
      · rw [tileWords_getD _ _ _ _ _ hk, State.numAt_congr (congrArg Mems.mem hvmm)]
      · refine (applyFold_byteAt hwset hwplace hfits hy hyb).trans ?_
        unfold State.byteAt
        rw [hw.mem, hvmm]
    · have hvb : v.book f.c f.tile = some b := hvbook.trans hb
      obtain ⟨w, hwset, hwplace, hemitted, htaken⟩ :=
        foldTaken_older hsound hvset hmode hvb hint (canEmit_of_tileFree hvfree hvb hint)
      have htframe : Frame [.so, .acc, .mm, .fresh] v (applyFold f { int := p } (List.replicate 64 0) w) := htaken ▸ foldTaken_frame ..
      refine ⟨_, (hexec []).trans (congrArg _ (hop.trans htaken)), ?_, ?_, ?_,
        ⟨_, (applyFold_book_self ..).trans (congrArg some (foldBook_first ..))⟩, applyFold_sums_started hwset (hwplace.trans hvplace) hfits⟩
      · exact (hframe.weaken2 htframe).weaken (by decide)
      · exact (htframe.get .fab).trans hvfab
      · exact emitted_of_dumps (by rw [applyFold_acc]) hemitted
    · obtain ⟨w, hw, htaken⟩ := foldTaken_idle hsound hvset hmode (by rwa [hvbook])
      have hwset : w.setAt p = m := by rw [State.setAt_congr (hw.frame.get .dict), hvset]
      have hwplace : w.placeFor p = pl := by rw [hw.placeFor, hvplace]
      refine ⟨_, (hexec []).trans (congrArg _ (hop.trans htaken)), ?_, ?_, ?_,
        ⟨_, (applyFold_book_self ..).trans (congrArg some (foldBook_first ..))⟩, applyFold_sums_started hwset hwplace hfits⟩
      · exact (((hframe.weaken2 hw.frame).weaken2 (applyFold_frame ..))).weaken (by decide)
      · exact ((applyFold_frame ..).get .fab).trans (hw.fab.trans hvfab)
      · rw [applyFold_acc, hw.acc, hvacc]

end Sys2Proof.Machine
end

section
/-! The memory's canonical form (09 R277): every command keeps it, and so every step (O60). -/

namespace Sys2Proof.Machine

open Sys2Proof

section
set_option Elab.async false

variable {ps : List Part} {s t u : State}

/-- An operation that leaves the memories as they are. -/
theorem Frame.memOk (k : Frame ps s t) (n : decide (.mm ∈ ps) = false := by rfl) : MemOk s t :=
  .of_frame k (of_decide_eq_false n)

/-- One more such operation. -/
theorem MemOk.andThen (h : MemOk s t) (k : Frame ps t u) (n : decide (.mm ∈ ps) = false := by rfl) : MemOk s u :=
  h.step (k.memOk n)

/-- An operation that acts under a condition. -/
theorem MemOk.guarded {c : Prop} [Decidable c] (h : MemOk s t) : MemOk s (if c then t else s) :=
  .ite (fun _ => h) fun _ => .refl s

theorem ctlIn_memOk {code p : Nat} {c : Ctl} {f : State → State} (h : ∀ t, Frame ps t (f t))
    (n : decide (.mm ∈ ps) = false := by rfl) : MemOk s (ctlIn code p c f s) :=
  (ctlIn_frame code p c f s h).memOk (by simpa using n)

/-- A command that is one operation completes with what the operation gives. -/
theorem completes_of {c : Instr} {P : State → Prop} (e : exec c s = .next t) (h : P t) : completes c s P := ⟨t, e, h⟩

end

variable {s t : State}

/-- Each command is one operation of its unit, alone or under a guard, and the operation keeps the memory's form: either it leaves the
memories as they are (its frame does not list them), or its own law says so. -/
theorem exec_memOk (c : Instr) (s : State) : completes c s (MemOk s) := by
  cases c with
  | applyCommittedSet => exact completes_of rfl <| applyUnit_memOk ..
  | unitArrival => exact completes_of rfl <| (unitOp_frame ..).memOk
  | cdrLock => exact completes_of rfl <| (State.setLane_frame ..).memOk.guarded
  | cdrLockLoss =>
    exact completes_of rfl <| (((State.setLane_frame ..).memOk.andThen (raise_frame ..)).andThen (abandonLeave_frame ..)).guarded
  | laneAligned => exact completes_of rfl <| (State.setLane_frame ..).memOk.guarded
  | alignTimeout => exact completes_of rfl <| ((State.setLane_frame ..).memOk.andThen (raise_frame ..)).guarded
  | laneSyncLoss =>
    exact completes_of rfl <| (((State.setLane_frame ..).memOk.andThen (raise_frame ..)).andThen (abandonLeave_frame ..)).guarded
  | sleepWordsReceived => exact completes_of rfl <| ((State.setLane_frame ..).memOk.andThen (abandonLeave_frame ..)).guarded
  | slip => exact completes_of rfl <| (slipCmd_frame ..).memOk
  | txSleep => exact completes_of rfl <| (txSleepCmd_frame ..).memOk
  | txWake => exact completes_of rfl <| (txWakeCmd_frame ..).memOk
  | rxSleep => exact completes_of rfl <| (rxSleepCmd_frame ..).memOk
  | rxWake => exact completes_of rfl <| (rxWakeCmd_frame ..).memOk
  | testEnter => exact completes_of rfl <| (testEnterCmd_frame ..).memOk
  | testExit => exact completes_of rfl <| (testExitCmd_frame ..).memOk
  | laneStart => exact completes_of rfl <| (startCmd_frame ..).memOk
  | laneStop => exact completes_of rfl <| (stopCmd_frame ..).memOk
  | inject => exact completes_of rfl <| (injectCmd_frame ..).memOk
  | loopback => exact completes_of rfl <| (loopbackCmd_frame ..).memOk
  | laneClearCounters => exact completes_of rfl <| (clearCmd_frame ..).memOk
  | spareIn => exact completes_of rfl <| (spareInCmd_frame ..).memOk
  | spareOut => exact completes_of rfl <| (spareOutCmd_frame ..).memOk
  | prbsCheckWord => exact completes_of rfl <| (prbsWordOp_frame ..).memOk
  | statusWordSend => exact completes_of rfl <| (sendWords_frame ..).memOk.guarded
  | sampleLinkFrame => exact completes_of rfl <| (linkFrame_frame ..).memOk
  | laneFailTimeout => exact completes_of rfl <| (laneFailOp_frame ..).memOk
  | spareTimeout => exact completes_of rfl <| by split; exacts [((State.modLane_frame ..).memOk.andThen (raise_frame ..)).guarded, .refl s]
  | codeError => exact completes_of rfl <| (codeErrorOp_frame ..).memOk
  | engineSampleIn => exact completes_of rfl <| by split; exacts [(State.setIngest_frame ..).memOk.andThen (sampleIn_frame ..), .refl s]
  | delayOutput => exact completes_of rfl <| (delayOutputOp_frame ..).memOk
  | delayFrameStart => exact completes_of rfl <| (frameStartOp_frame ..).memOk.guarded
  | delayRecord => exact completes_of rfl <| (keepLive_frame ..).memOk.andThen (delayRecordOp_frame ..)
  | conditioningClear => exact completes_of rfl <| (conditioningClearOp_frame ..).memOk
  | syncResetAt => exact completes_of rfl <| (syncResetOp_frame ..).memOk
  | syncResetApply => exact completes_of rfl <| (syncApply_frame ..).memOk
  | channeliserFrameStart => exact completes_of rfl <| (engineFrame_frame ..).memOk
  | channelSampleOut => exact completes_of rfl <| channelOut_memOk ..
  | gainTable => exact completes_of rfl <| (keepLive_frame ..).memOk.andThen (gainTableOp_frame ..)
  | bankImage => exact completes_of rfl <| (bankImageOp_frame ..).memOk
  | bankLoadRom => exact completes_of rfl <| (romCheck_frame ..).memOk.andThen (bankLoadRomOp_frame ..)
  | bankLoadComplete => exact completes_of rfl <| by split; exacts [(State.putEng_frame ..).memOk, .refl s]
  | bankReady => exact completes_of rfl <| (State.putEng_frame ..).memOk.guarded
  | swapRequest | swapCancel => exact completes_of rfl <| (swapRequestOp_frame ..).memOk
  | coefRecoveryRestart => exact completes_of rfl <| (recoverOp_frame ..).memOk
  | timeBlockBoundary => exact completes_of rfl <| (blockBoundary_frame ..).memOk
  | parcelSend => exact completes_of rfl <| (parcelSendOp_frame ..).memOk
  | parcelReceive => exact completes_of rfl <| parcelIn_memOk ..
  | parcelDeadline => exact completes_of rfl <| parcelDeadlineOp_memOk ..
  | configMessageTimeout => exact completes_of rfl <| (confTimeout_frame ..).memOk
  | serviceSlot => exact completes_of rfl <| (serviceSlotOp_frame ..).memOk
  | creditWordSend => exact completes_of rfl <| (sendWords_frame ..).memOk.guarded
  | creditWord => exact completes_of rfl <| (creditWordOp_frame ..).memOk
  | creditStall => exact completes_of rfl <| (creditStallOp_frame ..).memOk
  | hello => exact completes_of rfl <| ctlIn_memOk fun _ => helloOp_frame ..
  | ping => exact completes_of rfl <| ctlIn_memOk fun _ => pingOp_frame ..
  | pong => exact completes_of rfl <| ctlIn_memOk fun _ => pongOp_frame ..
  | helloTimer => exact completes_of rfl <| (helloTimerOp_frame ..).memOk
  | relayPortUp => exact completes_of rfl <| ((State.setPort_frame ..).memOk.andThen (sendHello_frame ..)).guarded
  | portDownTimeout =>
    exact completes_of rfl <| (((State.setPort_frame ..).memOk.andThen (raise_frame ..)).andThen (dropTransit_frame ..)).guarded
  | mapFloodRound => exact completes_of rfl <| (mapRoundOp_frame ..).memOk
  | mapRestart => exact completes_of rfl <| by split; exacts [(State.setRelay_frame ..).memOk.guarded, .refl s]
  | coord => exact completes_of rfl <| ctlIn_memOk fun _ => coordOp_frame ..
  | barrierUp => exact completes_of rfl <| ctlIn_memOk fun _ => (barrierUpOp_frame ..).weaken2 (settleBarrier_frame ..)
  | barrierDown => exact completes_of rfl <| ctlIn_memOk fun _ => barrierDownOp_frame ..
  | barrierTimeout => exact completes_of rfl <| (barrierTimeout_frame ..).memOk
  | bcast => exact completes_of rfl <| ctlIn_memOk fun _ => bcastOp_frame ..
  | globalSnapshot | globalSyncReset | globalCoefSwap | globalStart =>
    exact completes_of rfl <| atService_memOk _ _ _ (globalWrite_frame ..).memOk
  | laneMove => exact completes_of rfl <| ctlIn_memOk fun _ => laneMoveOp_frame ..
  | laneMoveAck => exact completes_of rfl <| ctlIn_memOk fun _ => laneMoveAckOp_frame ..
  | laneMoveRetry => exact completes_of rfl <| (laneMoveRetryOp_frame ..).memOk
  | laneMoveSwitch => exact completes_of rfl <| (laneMoveSwitchOp_frame ..).memOk
  | commitVoteDeadline => exact completes_of rfl <| (commitMissed_frame ..).memOk
  | fabricWindowStart => exact completes_of rfl <| (windowStart_frame ..).memOk
  | segmentEnd => exact completes_of rfl <| (segmentEnd_frame ..).memOk
  | stagingLoadDone => exact completes_of rfl <| stagingLoad_memOk ..
  | fabricWindowEnd => exact completes_of rfl <| windowEnd_memOk ..
  | beamBatchStart => exact completes_of rfl <| batchStartOp_memOk ..
  | beamBatchDone => exact completes_of rfl <| batchDoneOp_memOk ..
  | beamDeadline => exact completes_of rfl <| beamDeadlineOp_memOk ..
  | weightBufferWrite => exact completes_of rfl <| (storeGuarded_memOk ..).guarded
  | weightSwap => exact completes_of rfl <| (keepLive_frame ..).memOk.andThen (weightSwapOp_frame ..)
  | weightSwapCancel =>
    exact completes_of rfl <| ((State.draw_frame ..).memOk.andThen (keepLive_frame ..)).andThen (weightCancelOp_frame ..)
  | weightPrep => exact completes_of rfl <| (weightPrepOp_frame ..).memOk
  | fold => exact completes_of rfl <| (foldWay_memOk ..).step (foldOp_memOk ..)
  | withdrawnNotice => exact completes_of rfl <| noticeOp_memOk ..
  | dumpSlotFreed => exact completes_of rfl <| dumpSlotFreed_memOk ..
  | dramTrainStart => exact completes_of rfl <| (trainOp_memOk ..).guarded
  | dramTrainDone => exact completes_of rfl <| trainDoneOp_memOk ..
  | dramTrainTimeout => exact completes_of rfl <| (trainFail_memOk ..).guarded
  | refresh => exact completes_of rfl <| refreshOp_memOk ..
  | dramTempRise | dramTempFall => exact completes_of rfl <| (tempOp_memOk ..).guarded
  | dramRequestIssue => exact completes_of rfl <| (debugTap_frame ..).memOk.step (requestOp_memOk ..)
  | scrubStep => exact completes_of rfl <| scrubOp_memOk ..
  | compressEnvelope => exact completes_of rfl <| compressOp_memOk ..
  | segmentAvailable => exact completes_of rfl <| (assemble_frame ..).memOk
  | segmentStallTimeout => exact completes_of rfl <| (segmentStallOp_frame ..).memOk
  | envelopeAssign => exact completes_of rfl <| (assignOp_frame ..).memOk
  | backchannelWord => exact completes_of rfl <| (backWordOp_frame ..).memOk
  | retryTimeout => exact completes_of rfl <| (retryOp_frame ..).memOk
  | backchannelTimeout => exact completes_of rfl <| (backTimeoutOp_frame ..).memOk
  | outputSpareTimeout => exact completes_of rfl <| (outSpareTimeoutOp_frame ..).memOk
  | decodeRequest => exact completes_of rfl <| (decodeStart_frame ..).memOk
  | decodeDone => exact completes_of rfl <| (decodeEnd_frame ..).memOk
  | ringStart => exact completes_of rfl <| atService_memOk _ _ _ (ringStartOp_frame ..).memOk
  | ringStop => exact completes_of rfl <| atService_memOk _ _ _ (ringStopOp_frame ..).memOk
  | ringDisable => exact completes_of rfl <| atService_memOk _ _ _ (ringDisableOp_frame ..).memOk
  | setPrio => exact completes_of rfl <| atService_memOk _ _ _ (setPrioOp_frame ..).memOk
  | letterbox => exact completes_of rfl <| (letterboxOp_frame ..).memOk
  | slotGrant => exact completes_of rfl <| (slotGrantOp_frame ..).memOk
  | descriptorFetched => exact completes_of rfl <| fetchedOp_memOk ..
  | linkReadDone => exact completes_of rfl <| linkOp_memOk ..
  | descriptorComplete => exact completes_of rfl <| completeOp_memOk ..
  | ringError => exact completes_of rfl <| ringErrorOp_memOk ..
  | tIll | tNop | tAdd | tAddc | tSub | tSubb | tAnd | tOr | tXor | tShl | tShr | tSar | tMin | tMax | tAbs | tClz | tMul |
  tMulh | tMulhu | tAddi | tAndi | tOri | tXori | tShiShl | tShiShr | tShiSar | tLui | tCmpi | tLdw | tLdh | tLdhu | tLdb |
  tLdbu | tStw | tSth | tStb | tMac | tMacDual | tMacw | tMacwDual | tExt | tMfa | tMta | tB | tBal | tJr | tJalr | tReti |
  tRpt | tMfc | tMtc | tWait | tFence | tPost | tHalt =>
    exact completes_of rfl <| tallyOp_memOk ..
  | interruptEntry => exact completes_of rfl <| (interruptOp_frame ..).memOk
  | waitWake => exact completes_of rfl <| (waitWakeOp_frame ..).memOk
  | pmCompare => exact completes_of rfl <| compareBy_memOk ..
  | msTick => exact completes_of rfl <| .forRange (.refl s) fun _ _ => (msTickOne_frame ..).memOk
  | tallyDoorbell => exact completes_of rfl <| (doorbellOp_frame ..).memOk
  | postTaken => exact completes_of rfl <| postTakenOp_memOk ..
  | tallyRun => exact completes_of rfl <| atService_memOk _ _ _ (tallyRunOp_frame ..).memOk
  | tallyResume => exact completes_of rfl <| atService_memOk _ _ _ (tallyResumeOp_frame ..).memOk
  | tallyHalt => exact completes_of rfl <| atService_memOk _ _ _ (tallyHaltOp_frame ..).memOk
  | tallyStep => exact completes_of rfl <| atService_memOk _ _ _ (tallyStepOp_memOk ..)
  | tallyReset => exact completes_of rfl <| atService_memOk _ _ _ (tallyResetOp_frame ..).memOk
  | tallyClearCounters => exact completes_of rfl <| atService_memOk _ _ _ (tallyClearOp_frame ..).memOk
  | pmCrcDone => exact completes_of rfl <| (pmCrcOp_frame ..).memOk
  | tallyProgram => exact completes_of rfl <| tallySegmentOp_memOk ..
  | tallyClearDone => exact completes_of rfl <| tallyClearDoneOp_memOk ..
  | registerWrite w =>
    cases w with
    | bus => exact completes_of rfl <| registerOp_memOk ..
    | object => exact completes_of rfl <| atService_memOk _ _ _ (registerOp_memOk ..)
  | deadLetterAccess => exact completes_of rfl <| (debugTap_frame ..).memOk.step (deadAccessOp_memOk ..)
  | masterReset => exact completes_of rfl <| (dropWrites_frame ..).memOk.step (masterResetOp_memOk ..)
  | remapSet => exact completes_of rfl <| remapOp_memOk ..
  | stewardMismatch => exact completes_of rfl <| mismatchOp_memOk ..
  | diagDone => exact completes_of rfl <| diagOp_memOk ..
  | restartDone => exact completes_of rfl <| (restartOp_frame ..).memOk
  | stewardQuietEnd => exact completes_of rfl <| quietEndOp_memOk ..
  | stewardTestDone => exact completes_of rfl <| (stewTest_frame ..).memOk
  | stewardSyncPoint => exact completes_of rfl <| (syncPointOp_frame ..).memOk
  | resyncDone => exact completes_of rfl <| (resyncOp_frame ..).memOk
  | survivorFault => exact completes_of rfl <| survivorOp_memOk ..
  | mirrorRead => exact completes_of rfl <| mirrorOp_memOk ..
  | read | readSnap | readActive | write | fanoutWrite | list => exact completes_of rfl <| request_memOk ..
  | segmentTimeout => exact completes_of rfl <| (segmentTimeout_frame ..).memOk
  | arpRequest => exact completes_of rfl <| (arpOp_frame ..).memOk
  | icmpEcho => exact completes_of rfl <| (echoOp_frame ..).memOk
  | fieldBusFrame => exact completes_of rfl <| busFrameOp_memOk ..
  | commitRequest | dryRun | systemCommit => exact completes_of rfl <| atService_memOk _ _ _ (commitWait_frame ..).memOk
  | commitProposal => exact completes_of rfl <| atService_memOk _ _ _ (proposalWait_frame ..).memOk
  | commitChecksDone => exact completes_of rfl <| (checksDone_frame ..).memOk.guarded
  | commitLoaded => exact completes_of rfl <| (loadedOp_frame ..).memOk.guarded
  | commitLatch => exact completes_of rfl <| latchOp_memOk ..
  | snapshotAt => exact completes_of rfl <| atService_memOk _ _ _ (snapshotWait_frame ..).memOk
  | snapshotCapture => exact completes_of rfl <| captureOp_memOk ..
  | snapshotComplete => exact completes_of rfl <| (snapDone_frame ..).memOk
  | softReset => exact completes_of rfl <| atService_memOk _ _ _ (softResetOp_memOk ..)
  | blockReset => exact completes_of rfl <| atService_memOk _ _ _ (blockResetOp_memOk ..)
  | pmAlign => exact completes_of rfl <| (pmAlignOp_frame ..).memOk
  | pmAlignTimeout =>
    exact completes_of rfl <| by split; exacts [((State.setTime_frame ..).memOk.andThen (raise_frame ..)).guarded, .refl s]
  | ppsEdge =>
    exact completes_of rfl <| .ite (fun _ => (ppsEdgeOp_frame ..).memOk.step (stepActions_memOk ..)) fun _ => (ppsEdgeOp_frame ..).memOk
  | ppsTimeout => exact completes_of rfl <| (ppsTimeoutOp_frame ..).memOk
  | ref10mWindow => exact completes_of rfl <| (ref10mWindowOp_frame ..).memOk
  | ref10mAbsent => exact completes_of rfl <| (ref10mLost_frame ..).memOk
  | smprefCheck => exact completes_of rfl <| (smprefCheckOp_frame ..).memOk
  | samplePllLock => exact completes_of rfl <| (State.setTime_frame ..).memOk.guarded
  | ptpMessage => exact completes_of rfl <| (ptpOp_frame ..).memOk
  | announceTimeout => exact completes_of rfl <| (announceTimeoutOp_frame ..).memOk
  | delayReqSend => exact completes_of rfl <| (delayReqOp_frame ..).memOk
  | tbkTick => exact completes_of rfl <| (State.setTime_frame ..).memOk
  | tbkOscMeasure =>
    exact completes_of rfl <| .guarded (.ite (fun _ => (State.setTime_frame ..).memOk.andThen (raiseLim_frame ..)) fun _ =>
      (State.setTime_frame ..).memOk)
  | postcardAccept => exact completes_of rfl <| acceptOp_memOk ..
  | quietPeriodEnd => exact completes_of rfl <| quietEndOp_memOk ..
  | recoveryWindowExpiry => exact completes_of rfl <| (windowOp_frame ..).memOk
  | faultRelease => exact completes_of rfl <| atService_memOk _ _ _ (faultReleaseOp_memOk ..)
  | pcAck => exact completes_of rfl <| atService_memOk _ _ _ (pcAckOp_frame ..).memOk
  | injectRequest => exact completes_of rfl <| atService_memOk _ _ _ (injectOp_frame ..).memOk
  | ramblerCompare => exact completes_of rfl <| (compareOp_frame ..).memOk
  | standbyPowerGood | standbyConfigured => exact completes_of rfl <| (movePhase_frame ..).memOk
  | promotionTakeover => exact completes_of rfl <| (takeoverOp_frame ..).memOk
  | cellSelftestDone => exact completes_of rfl <| (selfTestOp_frame ..).memOk
  | cellRejoin => exact completes_of rfl <| (rejoinOp_frame ..).memOk
  | rotationTimer => exact completes_of rfl <| (rotationOp_frame ..).memOk
  | fallbackRespread => exact completes_of rfl <| (respreadOp_frame ..).memOk
  | fallbackRecheck => exact completes_of rfl <| (recheckOp_frame ..).memOk
  | fallbackSchedule => exact completes_of rfl <| (newScheduleOp_frame ..).memOk
  | sealNAsserted => exact completes_of rfl <| (sealAsserted_frame ..).memOk.guarded
  | sealNDeasserted => exact completes_of rfl <| (sealDeasserted_frame ..).memOk.guarded
  | fuseVerify => exact completes_of rfl <| (fuseOp_frame ..).memOk.guarded
  | copyC1Done => exact completes_of rfl <| (copyC1Op_frame ..).memOk.guarded
  | copyC2Done => exact completes_of rfl <| (copyC2Op_frame ..).memOk.guarded
  | csWrite => exact completes_of rfl <| atService_memOk _ _ _ (csWriteOp_frame ..).memOk
  | vkaRise => exact completes_of rfl <| (vkaRiseOp_frame ..).memOk
  | vkaLoss => exact completes_of rfl <| vkaLossOp_memOk ..
  | railGroupGood => exact completes_of rfl <| (groupGoodOp_frame ..).memOk
  | bootComplete => exact completes_of rfl <| (bootOp_frame ..).memOk
  | railSample => exact completes_of rfl <| (tapPower_frame ..).memOk.step (railSampleOp_memOk ..)
  | tjSample => exact completes_of rfl <| (tjSampleOp_frame ..).memOk
  | rstNAssert => exact completes_of rfl <| rstAssertOp_memOk ..
  | rstNRelease => exact completes_of rfl <| (rstReleaseOp_frame ..).memOk
  | rampDownDone => exact completes_of rfl <| rampDoneOp_memOk ..
  | startAt => exact completes_of rfl <| atService_memOk _ _ _ (startWait_frame ..).memOk
  | startRamp => exact completes_of rfl <| (startRampOp_frame ..).memOk
  | startEffect => exact completes_of rfl <| (startEffectOp_frame ..).memOk
  | extest | extestPulse | extestTrain | clamp => exact completes_of rfl <| (tapDrive_frame ..).memOk
  | bypass => exact completes_of rfl <| (tapLoad_frame ..).memOk
  | idcode => exact completes_of rfl <| (tapLoad_frame ..).memOk.andThen (State.send_frame ..)

theorem step_memOk (h : step s = .next t) : MemOk s t := by
  unfold step at h
  split at h
  · cases h
    exact tick_memOk s
  next c q _ =>
    obtain ⟨v, hv, hk⟩ := exec_memOk c (s.setPending q)
    cases hv.symm.trans h
    exact (Frame.with_pending s q).memOk.step hk

/-- Settles O60: a step is a tick or a command, and each keeps the form (`tick_memOk`, `exec_memOk`). -/
theorem everyStepKeepsTheMemoryCanonical : Obligations.EveryStepKeepsTheMemoryCanonical :=
  fun _ _ hwf hstep => (step_memOk hstep).keep hwf

end Sys2Proof.Machine
end

section
/-! What the operations of a request leave as it was, for O37 and O38. -/

namespace Sys2Proof.Machine

open Sys2Proof

theorem reqReply_so (r : DramReq) (resp : Nat) (d : List Byte) (s : State) : (reqReply r resp d s).so = s.so :=
  (reqReply_frame ..).get .so
theorem reqReply_fab (r : DramReq) (resp : Nat) (d : List Byte) (s : State) : (reqReply r resp d s).fab = s.fab :=
  (reqReply_frame ..).get .fab
theorem reqReply_mm (r : DramReq) (resp : Nat) (d : List Byte) (s : State) : (reqReply r resp d s).mm = s.mm :=
  (reqReply_frame ..).get .mm
theorem reqReply_tap (r : DramReq) (resp : Nat) (d : List Byte) (s : State) : (reqReply r resp d s).tap = s.tap :=
  (reqReply_frame ..).get .tap
theorem busBeats_ctrl (m id epoch resp beat : Nat) (read : Bool) (d : List Byte) (s : State) :
    (busBeats m id epoch resp beat read d s).ctrl = s.ctrl := (busBeats_frame ..).get .ctrl
theorem dramRead_ctrl (n x len port : Nat) (ecc : List (Nat × Ecc)) (s : State) : (dramRead n x len port ecc s).2.2.ctrl = s.ctrl :=
  (dramRead_frame ..).get .ctrl
theorem dramWrite_ctrl (n x port : Nat) (steward : Bool) (data : List Byte) (ecc : List (Nat × Ecc)) (s : State) :
    (dramWrite n x port steward data ecc s).2.ctrl = s.ctrl := (dramWrite_frame ..).get .ctrl
theorem mergeReads_fab (n x len port : Nat) (ecc : List (Nat × Ecc)) (s : State) : (mergeReads n x len port ecc s).fab = s.fab :=
  (mergeReads_frame ..).get .fab
theorem mergeReads_dict (n x len port : Nat) (ecc : List (Nat × Ecc)) (s : State) : (mergeReads n x len port ecc s).dict = s.dict :=
  (mergeReads_frame ..).get .dict
theorem keepBad_so (n x port : Nat) (e : Ecc) (s : State) : (keepBad n x port e s).so = s.so := (keepBad_frame ..).get .so
theorem storeBytes_so (a : Nat) (bs : List Byte) (s : State) : (storeBytes a bs s).so = s.so := (storeBytes_frame ..).get .so
theorem weightRefused_mm (s : State) : (weightRefused s).mm = s.mm := (weightRefused_frame ..).get .mm
theorem debugTap_so (m : Nat) (s : State) : (debugTap m s).so = s.so := (debugTap_frame ..).get .so
theorem debugTap_mm (m : Nat) (s : State) : (debugTap m s).mm = s.mm := (debugTap_frame ..).get .mm
theorem debugTap_outbox (m : Nat) (s : State) : (debugTap m s).outbox = s.outbox := (debugTap_frame ..).get .outbox
theorem noteGrant_outbox (m t : Nat) (s : State) : (noteGrant m t s).outbox = s.outbox := (noteGrant_frame ..).get .outbox
theorem deadLetter_outbox (m a : Nat) (s : State) : (deadLetter m a s).outbox = s.outbox := (deadLetter_frame ..).get .outbox

end Sys2Proof.Machine
end

section
/-! Checks of a stack's words with no injection at work (09 R273, R274), for O37 and O38. -/

namespace Sys2Proof.Machine

open Sys2Proof

set_option Elab.async false

variable {s t : State} {n x port : Nat}

/-! ### Marks of words -/

theorem State.badWord_congr (h : t.mm.bad = s.mm.bad) (a : Nat) : t.badWord a = s.badWord a := by
  unfold State.badWord
  rw [h]

theorem badWord_setBad_true (a y : Nat) (s : State) : (setBad a true s).badWord y = (s.badWord y || canon y / 8 == canon a / 8) := by
  have hget : (setBad a true s).mm.bad.get (fun _ => 0) (canon y / 8) =
      if canon y / 8 = canon a / 8 then 1 else s.mm.bad.get (fun _ => 0) (canon y / 8) := Tab.get_set (fun _ => 0) s.mm.bad _ _ 1
  unfold State.badWord
  rw [hget]
  by_cases h : canon y / 8 = canon a / 8 <;> simp [h]

theorem keepBad_quiet {e : Ecc} (h : s.badWord (dramAddr n x) = true ∨ e ≠ .uncorrectable) : keepBad n x port e s = s := by
  refine if_neg fun hc => ?_
  obtain ⟨he, -, hbad⟩ := hc
  rcases h with h | h
  · exact absurd (h.symm.trans hbad) (by decide)
  · exact h he

/-- A port other than the corner-turn buffer's marks the word that it finds uncorrectable. -/
theorem badWord_keepBad (hport : port ≠ 4) (y : Nat) : (keepBad n x port .uncorrectable s).badWord y =
    (s.badWord y || canon y / 8 == canon (dramAddr n x) / 8) := by
  cases hbad : s.badWord (dramAddr n x) with
  | false =>
    rw [keepBad, if_pos ⟨rfl, hport, hbad⟩]
    exact badWord_setBad_true ..
  | true =>
    rw [keepBad_quiet (.inl hbad), Bool.eq_iff_iff, Bool.or_eq_true, beq_iff_eq]
    refine ⟨.inl, fun h => h.elim id fun e => ?_⟩
    rw [← hbad]
    unfold State.badWord
    rw [e]

theorem keepBad_mm (n x port : Nat) (e : Ecc) (s : State) :
    (keepBad n x port e s).mm = { s.mm with bad := (keepBad n x port e s).mm.bad } := by
  unfold keepBad
  split
  · exact setBad_mm ..
  · rfl

theorem keepBad_stk (n x port : Nat) (e : Ecc) (s : State) (k : Nat) : (keepBad n x port e s).stk k = s.stk k := by
  rw [State.stk, keepBad_mm]
  rfl

/-! ### The check of one word -/

section uninjected
variable (hinj : injFor (stackSrc n) 1 s = none)
include hinj

theorem injFor_keepBad (e : Ecc) : injFor (stackSrc n) 1 (keepBad n x port e s) = none := by
  unfold injFor at *
  rwa [keepBad_so]

theorem dramFlip_uninjected (e : Ecc) : dramFlip n x e s = none := by
  unfold dramFlip eccFlip
  rw [hinj]
  exact ite_self none

theorem dramCheck_ok (hbad : s.badWord (dramAddr n x) = false) : dramCheck n x port .ok s = (.ok, s) := by
  unfold dramCheck eccCheck
  rw [hbad, keepBad_quiet (.inr (by decide)), hinj]
  rfl

theorem dramCheck_corrected (hbad : s.badWord (dramAddr n x) = false) : dramCheck n x port .corrected s =
    (.corrected, raise (stackSrc n) 1 (x + port * 2 ^ 36) (s.setStk n { s.stk n with corr := satAdd 32 (s.stk n).corr 1 })) := by
  unfold dramCheck eccCheck
  rw [hbad, keepBad_quiet (.inr (by decide)), hinj]
  rfl

theorem dramCheck_uncorrectable_eq : dramCheck n x port .uncorrectable s =
    (.uncorrectable, raise (stackSrc n) 2 (x + port * 2 ^ 36) ((keepBad n x port .uncorrectable s).setStk n
      { s.stk n with uncorr := satAdd 32 (s.stk n).uncorr 1, lastErr := x })) := by
  unfold dramCheck eccCheck
  rw [ite_self, injFor_keepBad hinj]
  dsimp only
  rw [keepBad_stk]
  rfl

end uninjected

end Sys2Proof.Machine
end

section
/-! The stacks' own commands (09 Table 09.7, R267, R268, R275): training, refresh, heat and scrubbing change one stack (O37). -/

namespace Sys2Proof.Machine

open Sys2Proof

set_option Elab.async false

/-! ### One stack changes -/

/-- Stack n becomes v, with these Postcards, and nothing else changes. -/
def stackSet (n : Nat) (v : Stack) (cs : List (Nat × Nat × Nat)) (s t : State) : Prop :=
  Frame [.so, .mm] s t ∧ t.stk n = v ∧ (∀ k, k ≠ n → t.stk k = s.stk k) ∧ t.mm.mem = s.mm.mem ∧ t.mm.bad = s.mm.bad ∧
    t.mm.place = s.mm.place ∧ raisedOnly cs s t

variable {n : Nat} {v : Stack} {cs : List (Nat × Nat × Nat)} {s t : State}

theorem stackSet_setStk (n : Nat) (v : Stack) (s : State) : stackSet n v [] s (s.setStk n v) :=
  ⟨(State.setStk_frame ..).weaken (by decide), (State.stk_setStk ..).trans (if_pos rfl),
    fun _ hk => (State.stk_setStk ..).trans (if_neg hk), rfl, rfl, rfl, raisedOnly_nil rfl⟩

theorem stackSet.card (h : stackSet n v cs s t) (src kind addr : Nat) :
    stackSet n v (cs ++ [(src, kind, addr)]) s (raise src kind addr t) := by
  have hmm : (raise src kind addr t).mm = t.mm := raise_mm ..
  obtain ⟨hframe, hself, hother, hmem, hbad, hplace, hcards⟩ := h
  refine ⟨hframe.step (raise_frame ..) (by decide), ?_, ?_, by rw [hmm, hmem], by rw [hmm, hbad], by rw [hmm, hplace],
    raisedOnly_append hcards (raisedOnly_raise _ _ _ rfl)⟩
  all_goals
    unfold State.stk at *
    rw [hmm]
    assumption

theorem stackSet.setStk (h : stackSet n v cs s t) (w : Stack) : stackSet n w cs s (t.setStk n w) := by
  obtain ⟨hframe, -, hother, hmem, hbad, hplace, hcards⟩ := h
  exact ⟨hframe.step (State.setStk_frame ..) (by decide), (State.stk_setStk ..).trans (if_pos rfl),
    fun k hk => ((State.stk_setStk ..).trans (if_neg hk)).trans (hother k hk), hmem, hbad, hplace, hcards⟩

theorem completes_setStk {c : Instr} (h : exec c s = .next (s.setStk n v)) : completes c s (stackSet n v [] s) :=
  ⟨_, h, stackSet_setStk ..⟩

theorem completes_raise_setStk {c : Instr} {src kind addr : Nat} (h : exec c s = .next (raise src kind addr (s.setStk n v))) :
    completes c s (stackSet n v [(src, kind, addr)] s) :=
  ⟨_, h, (stackSet_setStk ..).card ..⟩

/-! ### Training (09 Table 09.7) -/

theorem Tab.get_filter {α : Type} (d : Nat → α) (p : Nat → Bool) (t : Tab α) (k : Nat) :
    Tab.get d (t.filter fun e => p e.1) k = if p k then t.get d k else d k := by
  induction t with
  | nil => exact (ite_self _).symm
  | cons e t ih =>
    obtain ⟨j, v⟩ := e
    by_cases hjk : j = k
    · subst hjk
      by_cases hp : p j <;> simp_all [Tab.get]
    · by_cases hp : p j <;> simp_all [Tab.get]

/-- An address that names no byte of stack n. -/
abbrev outsideStack (n y : Nat) : Prop := canon y < dramAddr n 0 ∨ dramAddr n 0 + stackSize ≤ canon y

theorem byteAt_wipeStack_inside {y : Nat} (h : ¬ outsideStack n y) : (wipeStack n s).byteAt y = 0 :=
  (Tab.get_filter memDefault (fun a => decide (a < dramAddr n 0 ∨ dramAddr n 0 + stackSize ≤ a)) s.mm.mem _).trans
    (if_neg (by simpa [outsideStack] using h))

theorem byteAt_wipeStack_outside {y : Nat} (h : outsideStack n y) : (wipeStack n s).byteAt y = s.byteAt y :=
  (Tab.get_filter memDefault (fun a => decide (a < dramAddr n 0 ∨ dramAddr n 0 + stackSize ≤ a)) s.mm.mem _).trans
    (if_pos (decide_eq_true h))

/-- A word's key stands inside the stack as its bytes do: a stack begins and ends at a whole word. -/
theorem badWord_wipeStack_inside {y : Nat} (h : ¬ outsideStack n y) : (wipeStack n s).badWord y = false := by
  have hkey : ¬ (8 * (canon y / 8) < dramAddr n 0 ∨ dramAddr n 0 + stackSize ≤ 8 * (canon y / 8)) := by
    unfold outsideStack dramAddr dramBase stackSize at *
    omega
  have hget : (wipeStack n s).mm.bad.get (fun _ => 0) (canon y / 8) = 0 :=
    (Tab.get_filter (fun _ => 0) (fun k => decide (8 * k < dramAddr n 0 ∨ dramAddr n 0 + stackSize ≤ 8 * k)) s.mm.bad _).trans
      (if_neg (by simpa using hkey))
  unfold State.badWord
  rw [hget]
  rfl

theorem trainDoneOp_pass (h : (s.stk n).st = .training) : trainDoneOp n true s =
    (wipeStack n s).setStk n { s.stk n with st := .ready, scrubAt := 0, banks := [] } := if_pos h

theorem trainDoneOp_fail (h : (s.stk n).st = .training) : trainDoneOp n false s = trainFail n s := if_pos h

theorem trainDoneOp_idle {pass : Bool} (h : (s.stk n).st ≠ .training) : trainDoneOp n pass s = s := if_neg h

theorem exec_dramTrainStart_off {n : Fin 4} (h : (s.stk n).st = .off) (hreset : s.pwr.inReset = false) :
    exec (.dramTrainStart n) s = .next (s.setStk n { s.stk n with st := .training, trainAt := s.now }) :=
  congrArg Host.Outcome.next ((if_pos ⟨h, hreset⟩).trans (if_pos (.inl h)))

/-! ### Refresh and heat (09 R268) -/

section refresh
variable {pc b : Nat} (hup : (s.stk n).st = .ready ∨ (s.stk n).st = .running)
include hup

/-- A refresh issued ahead, to an idle bank and up to 4 ahead. -/
theorem refreshOp_ahead : refreshOp n pc b true s =
    let v := s.stk n
    let k := bankKey pc b
    if v.wanted k = false ∧ -4 < (v.bank k).behind then s.setStk n (v.setBank k { row := none, behind := (v.bank k).behind - 1 })
    else s := by
  refine (if_pos hup).trans ?_
  simp only [if_true, Bool.not_eq_true']

/-- A refresh that falls due: one that is ahead is used up; the bank issues it, or falls behind while row hits wait for it. -/
theorem refreshOp_due : refreshOp n pc b false s =
    let v := s.stk n
    let k := bankKey pc b
    let x := (v.bank k).behind
    let issued : Stack := v.setBank k { row := none, behind := x }
    let owed : Stack := v.setBank k { v.bank k with behind := x + 1 }
    if x < 0 then s.setStk n owed
    else if v.hitWaits k = false then s.setStk n issued
    else if 3 ≤ x then s.setStk n { issued with forced := satAdd 64 v.forced 1 }
    else s.setStk n owed := if_pos hup

end refresh

theorem refreshOp_down {pc b : Nat} {issue : Bool} (h : ¬ ((s.stk n).st = .ready ∨ (s.stk n).st = .running)) :
    refreshOp n pc b issue s = s := if_neg h

/-- A temperature is kept; only the rise above 85 °C raises a Postcard. -/
theorem tempOp_rise {c : Int} (hc : 85 < c) : stackSet n { s.stk n with temp := c, hot := true }
    (if (s.stk n).hot = true then [] else [(stackSrc n, 4, 0)]) s (tempOp n c s) := by
  unfold tempOp
  dsimp only
  rw [decide_eq_true hc]
  cases hhot : (s.stk n).hot with
  | true =>
    rw [if_pos rfl, if_neg fun h => absurd h.2 (by decide)]
    exact stackSet_setStk ..
  | false =>
    rw [if_neg (by decide), if_pos ⟨hc, rfl⟩]
    exact (stackSet_setStk ..).card ..

theorem tempOp_fall {c : Int} (hc : c ≤ 85) : tempOp n c s = s.setStk n { s.stk n with temp := c, hot := false } := by
  unfold tempOp
  dsimp only
  rw [decide_eq_false (not_lt.2 hc), if_neg fun h => not_lt.2 hc h.1]

/-! ### Scrubbing (09 R275) -/

/-- The scrubber goes on to the next word; past the last one a pass has been made. -/
def Stack.scrubbed (v : Stack) : Stack :=
  { v with scrubAt := if stackSize ≤ v.scrubAt + 8 then 0 else v.scrubAt + 8
           passes := if stackSize ≤ v.scrubAt + 8 then satAdd 32 v.passes 1 else v.passes }

/-- The scrubber checks its word, with no bit to change where nothing is injected, and goes on. -/
theorem scrubOp_of_check {r : Ecc} {e : Ecc} {u : State} (hup : (s.stk n).st = .ready ∨ (s.stk n).st = .running)
    (hinj : injFor (stackSrc n) 1 s = none) (hcheck : dramCheck n (s.stk n).scrubAt 15 e s = (r, u))
    (hat : (u.stk n).scrubAt = (s.stk n).scrubAt) : scrubOp n e s = u.setStk n (u.stk n).scrubbed := by
  have hdef : scrubOp n e s = if stackSize ≤ (s.stk n).scrubAt + 8
      then u.setStk n { u.stk n with scrubAt := 0, passes := satAdd 32 (u.stk n).passes 1 }
      else u.setStk n { u.stk n with scrubAt := (s.stk n).scrubAt + 8 } := by
    have hflip : flipWord (dramAddr n (s.stk n).scrubAt) (dramFlip n (s.stk n).scrubAt e s) s = s := by
      rw [dramFlip_uninjected hinj]
      rfl
    unfold scrubOp
    dsimp only
    rw [if_pos hup, hflip, hcheck]
  rw [hdef, ← hat]
  unfold Stack.scrubbed
  split <;> rfl

theorem raise_setStk_stk (src kind addr n : Nat) (v : Stack) (s : State) : (raise src kind addr (s.setStk n v)).stk n = v := by
  rw [State.stk, raise_mm]
  exact (State.stk_setStk ..).trans (if_pos rfl)

section scrub
variable (hup : (s.stk n).st = .ready ∨ (s.stk n).st = .running) (hinj : injFor (stackSrc n) 1 s = none)
include hup hinj

theorem scrubOp_ok (hbad : s.badWord (dramAddr n (s.stk n).scrubAt) = false) :
    scrubOp n .ok s = s.setStk n (s.stk n).scrubbed :=
  scrubOp_of_check hup hinj (dramCheck_ok hinj hbad) rfl

theorem scrubOp_corrected (hbad : s.badWord (dramAddr n (s.stk n).scrubAt) = false) :
    let v := { s.stk n with corr := satAdd 32 (s.stk n).corr 1 }
    scrubOp n .corrected s = (raise (stackSrc n) 1 ((s.stk n).scrubAt + 15 * 2 ^ 36) (s.setStk n v)).setStk n v.scrubbed := by
  intro v
  have hstk := raise_setStk_stk (stackSrc n) 1 ((s.stk n).scrubAt + 15 * 2 ^ 36) n v s
  rw [scrubOp_of_check hup hinj (dramCheck_corrected hinj hbad) (by rw [hstk]), hstk]

theorem scrubOp_uncorrectable :
    let v := { s.stk n with uncorr := satAdd 32 (s.stk n).uncorr 1, lastErr := (s.stk n).scrubAt }
    scrubOp n .uncorrectable s = (raise (stackSrc n) 2 ((s.stk n).scrubAt + 15 * 2 ^ 36)
      ((keepBad n (s.stk n).scrubAt 15 .uncorrectable s).setStk n v)).setStk n v.scrubbed := by
  intro v
  have hstk := raise_setStk_stk (stackSrc n) 2 ((s.stk n).scrubAt + 15 * 2 ^ 36) n v (keepBad n (s.stk n).scrubAt 15 .uncorrectable s)
  rw [scrubOp_of_check hup hinj (dramCheck_uncorrectable_eq hinj) (by rw [hstk]), hstk]

end scrub

/-- Settles O37: each row of Table 09.7 is one case of its operation, and its effect is that one stack is set (`stackSet`); a pass of
training wipes the stack (`wipeStack`), and an uncorrectable word is marked (`badWord_keepBad`). -/
theorem stacksTrainRefreshAndScrub : Obligations.StacksTrainRefreshAndScrub := by
  unfold Obligations.StacksTrainRefreshAndScrub
  intro n s v up only failed
  refine ⟨fun hoff hreset => completes_setStk (exec_dramTrainStart_off hoff hreset), fun h => ?kept, fun h => ?passed,
    fun h => completes_raise_setStk (congrArg _ (trainDoneOp_fail h)),
    fun h hlate => completes_raise_setStk (congrArg _ (if_pos ⟨h, hlate⟩)),
    fun h => ⟨congrArg _ (trainDoneOp_idle h), congrArg _ (if_neg fun hc => h hc.1)⟩, fun pc b hup => ?refresh,
    fun pc b i hdown => congrArg _ (refreshOp_down hdown), fun c hc => ⟨_, congrArg Host.Outcome.next (if_pos hc), tempOp_rise hc⟩,
    fun c hc => completes_setStk (congrArg Host.Outcome.next ((if_pos hc).trans (tempOp_fall hc))), fun hup hinj => ?scrub⟩
  case kept =>
    refine congrArg Host.Outcome.next (if_neg fun hc => h.elim (· hc.1) fun hr => ?_)
    exact absurd (hr.symm.trans hc.2) (by decide)
  case passed =>
    refine ⟨_, congrArg Host.Outcome.next (trainDoneOp_pass h), (wipeStack_frame ..).step (State.setStk_frame ..) (by decide), ?_, ?_,
      fun k hk => (State.stk_setStk ..).trans (if_neg hk), fun y hlo hhi => ⟨?_, ?_⟩, fun y hy => byteAt_wipeStack_outside hy⟩
    · exact congrArg Stack.st ((State.stk_setStk ..).trans (if_pos rfl))
    · exact congrArg Stack.scrubAt ((State.stk_setStk ..).trans (if_pos rfl))
    · exact byteAt_wipeStack_inside (by unfold outsideStack; omega)
    · exact badWord_wipeStack_inside (by unfold outsideStack; omega)
  case refresh =>
    intro k x idle issued owed
    have hahead : exec (.refresh n pc b true) s = .next _ := congrArg Host.Outcome.next (refreshOp_ahead hup)
    have hdue : exec (.refresh n pc b false) s = .next _ := congrArg Host.Outcome.next (refreshOp_due hup)
    have hhits {hit : Bool} (h : hit = true) : ¬ hit = false := ne_of_eq_of_ne h (by decide)
    refine ⟨fun hidle hx => completes_setStk (exec_of_pos hahead ⟨hidle, hx⟩), fun h => exec_of_neg hahead fun hc => ?_,
      fun hx => completes_setStk (exec_of_pos hdue hx),
      fun hx hhit => completes_setStk (exec_of_pos (exec_of_neg hdue (not_lt.2 hx)) hhit),
      fun hx hhit => ⟨fun hlt => ?_, fun hge => ?_⟩⟩
    · exact h.elim (· hc.1) (not_le.2 hc.2)
    · exact completes_setStk (exec_of_neg (exec_of_neg (exec_of_neg hdue (not_lt.2 hx)) (hhits hhit)) (not_le.2 hlt))
    · exact completes_setStk (exec_of_pos (exec_of_neg (exec_of_neg hdue (not_lt.2 hx)) (hhits hhit)) hge)
  case scrub =>
    intro nx passes addr
    refine ⟨fun hbad => ⟨completes_setStk (congrArg Host.Outcome.next (scrubOp_ok hup hinj hbad)),
      _, congrArg Host.Outcome.next (scrubOp_corrected hup hinj hbad), ((stackSet_setStk ..).card ..).setStk _⟩, ?_⟩
    refine ⟨_, congrArg Host.Outcome.next (scrubOp_uncorrectable hup hinj), ?_⟩
    obtain ⟨hframe, hself, hother, hmem, hbad, hplace, hcards⟩ :=
      ((stackSet_setStk n { v with uncorr := satAdd 32 v.uncorr 1, lastErr := v.scrubAt } (keepBad n v.scrubAt 15 .uncorrectable s)).card
        (stackSrc n) 2 addr).setStk { v with uncorr := satAdd 32 v.uncorr 1, lastErr := v.scrubAt }.scrubbed
    refine ⟨((keepBad_frame ..).weaken (by decide)).step hframe (by decide), hself, fun j hj => (hother j hj).trans (keepBad_stk ..),
      hmem.trans (keepBad_mem ..), hplace.trans (by rw [keepBad_mm]), fun y => ?_,
      raisedOnly_congr (keepBad_so ..) hcards⟩
    exact (State.badWord_congr hbad y).trans (badWord_keepBad (by decide) y)

end Sys2Proof.Machine
end

section
/-! The requests that wait at a stack (09 R267, R269), for O38: which of them may issue, and one that meets an empty queue. -/

namespace Sys2Proof.Machine

open Sys2Proof

set_option Elab.async false

/-! ### Which requests may issue -/

theorem mem_mayIssue (v : Stack) (now : Nat) (q : DramReq) (before l : List DramReq) : q ∈ v.mayIssue now before l ↔
    ∃ a b, l = a ++ q :: b ∧ v.pays q now = true ∧ ∀ o ∈ before ++ a, o.port ≠ q.port ∧ o.meets q = false := by
  induction l generalizing before with
  | nil => simp [Stack.mayIssue]
  | cons r l ih =>
    have hhead : q ∈ (if (v.pays r now && !before.any fun b => b.port == r.port || b.meets r) = true then [r] else []) ↔
        q = r ∧ v.pays q now = true ∧ ∀ o ∈ before, o.port ≠ q.port ∧ o.meets q = false := by
      split
      · next h => constructor <;> simp_all
      · next h =>
        refine ⟨fun hmem => absurd hmem List.not_mem_nil, fun hq => absurd ?_ h⟩
        obtain ⟨rfl, hpays, hfree⟩ := hq
        simpa [hpays] using hfree
    rw [Stack.mayIssue, List.mem_append, hhead, ih]
    constructor
    · rintro (⟨rfl, hpays, hfree⟩ | ⟨a, b, rfl, hpays, hfree⟩)
      · exact ⟨[], l, rfl, hpays, by simpa using hfree⟩
      · exact ⟨r :: a, b, rfl, hpays, by simpa using hfree⟩
    · rintro ⟨a, b, hl, hpays, hfree⟩
      cases a with
      | nil =>
        obtain ⟨rfl, rfl⟩ := List.cons.inj hl
        exact .inl ⟨rfl, hpays, by simpa using hfree⟩
      | cons o a =>
        obtain ⟨rfl, rfl⟩ := List.cons.inj hl
        exact .inr ⟨a, b, rfl, hpays, by simpa using hfree⟩

theorem firstReq_eq_none {l : List DramReq} (h : firstReq l = none) : l = [] := by
  cases l with
  | nil => rfl
  | cons r l =>
    unfold firstReq at h
    split at h
    · split at h <;> cases h
    · cases h

/-- The first request is one of the port of highest priority. -/
theorem firstReq_spec {l : List DramReq} {q : DramReq} (h : firstReq l = some q) : q ∈ l ∧ ∀ o ∈ l, q.port ≤ o.port := by
  induction l generalizing q with
  | nil => cases h
  | cons r l ih =>
    unfold firstReq at h
    split at h
    · next p hp =>
      obtain ⟨hmem, hleast⟩ := ih hp
      split at h
      · next hlt =>
        cases h
        exact ⟨List.mem_cons_of_mem _ hmem, List.forall_mem_cons.2 ⟨hlt.le, hleast⟩⟩
      · next hge =>
        cases h
        exact ⟨List.mem_cons_self .., List.forall_mem_cons.2 ⟨le_rfl, fun o ho => (not_lt.1 hge).trans (hleast o ho)⟩⟩
    · next hnone =>
      cases h
      rw [firstReq_eq_none hnone]
      exact ⟨List.mem_cons_self .., by simp⟩

theorem mayIssue_alone (v : Stack) (now : Nat) (r : DramReq) : v.mayIssue now [] [r] = if v.pays r now = true then [r] else [] := by
  simp [Stack.mayIssue]

/-! ### A request that meets an empty queue -/

theorem Stack.access_queue (v : Stack) (x : Nat) : (v.access x).queue = v.queue := by
  unfold Stack.access
  dsimp only
  split
  · split <;> rfl
  · rfl

theorem Stack.touch_queue (v : Stack) (x len : Nat) : (v.touch x len).queue = v.queue := by
  unfold Stack.touch
  split
  · rfl
  · exact List.foldlRecOn (motive := fun w : Stack => w.queue = v.queue) _ _ rfl fun w hw k _ => (w.access_queue _).trans hw

theorem Stack.take_queue (v : Stack) (port len now : Nat) : (v.take port len now).queue = v.queue := by
  unfold Stack.take Stack.setBucket
  dsimp only
  split
  · split
    · dsimp only
    · dsimp only
  · rfl

theorem stk_usePort (n port x len : Nat) (s : State) :
    (usePort n port x len s).stk n = ((s.stk n).take port len s.now).touch x len :=
  (State.stk_setStk ..).trans (if_pos rfl)

theorem stk_usePort_ne {n k port x len : Nat} {s : State} (h : k ≠ n) : (usePort n port x len s).stk k = s.stk k :=
  (State.stk_setStk ..).trans (if_neg h)

/-- A request is served at stack n from s on: in w it has taken its tokens and opened its rows, and nothing else has changed. -/
structure Taken (n : Nat) (r : DramReq) (s w : State) : Prop where
  only : stacksOnly s w
  self : w.stk n = ((s.stk n).take r.port r.len s.now).touch r.x r.len
  other : ∀ k, k ≠ n → w.stk k = s.stk k

/-- Request r joins the queue of stack n. -/
def arrived (n : Nat) (r : DramReq) (s : State) : State := s.setStk n { s.stk n with queue := (s.stk n).queue ++ [r] }

/-- The requests that still wait are counted, each once. -/
def Stack.counting (v : Stack) : Stack :=
  { v with queue := v.queue.map fun r => { r with counted := true }
           waits := satAdd 64 v.waits (v.queue.filter fun r => !r.counted).length }

theorem Stack.counting_idle {v : Stack} (h : v.queue = []) : v.counting = { v with queue := [], waits := satAdd 64 v.waits 0 } := by
  unfold Stack.counting
  rw [h]
  rfl

variable {n : Nat} {r : DramReq} {s : State}

/-- One request waits at the stack: it is served if its bucket holds its bytes. -/
theorem serveGo_one {u : State} (hq : (u.stk n).queue = [r]) : serveGo n 1 u = if (u.stk n).pays r u.now = true then
    reqServe n r (usePort n r.port r.x r.len (u.setStk n { u.stk n with queue := [] })) else u := by
  have hdef : serveGo n 1 u = match firstReq ((u.stk n).mayIssue u.now [] (u.stk n).queue) with
      | some q => reqServe n q (usePort n q.port q.x q.len (u.setStk n { u.stk n with queue := (u.stk n).queue.erase q }))
      | none => u := rfl
  rw [hdef, hq, mayIssue_alone]
  cases (u.stk n).pays r u.now with
  | true =>
    rw [if_pos rfl, if_pos rfl]
    dsimp only [firstReq]
    rw [List.erase_cons_head]
  | false => rfl

theorem serveStack_one {u : State} (hq : (u.stk n).queue = [r]) :
    serveStack n u = (serveGo n 1 u).setStk n ((serveGo n 1 u).stk n).counting := by
  unfold serveStack
  rw [hq]
  rfl

theorem stk_arrived : (arrived n r s).stk n = { s.stk n with queue := (s.stk n).queue ++ [r] } :=
  (State.stk_setStk ..).trans (if_pos rfl)

theorem arrived_pays : ((arrived n r s).stk n).pays r (arrived n r s).now = (s.stk n).pays r s.now := by
  rw [stk_arrived]
  rfl

section alone
variable (hq : (s.stk n).queue = [])
include hq

theorem arrived_queue : ((arrived n r s).stk n).queue = [r] := by
  rw [stk_arrived, hq]
  rfl

/-- Without its tokens it waits, counted. -/
theorem serveStack_waits (hpays : (s.stk n).pays r s.now = false) (hcounted : r.counted = false) :
    serveStack n (arrived n r s) = (arrived n r s).setStk n
      { s.stk n with queue := [{ r with counted := true }], waits := satAdd 64 (s.stk n).waits 1 } := by
  rw [serveStack_one (arrived_queue hq), serveGo_one (arrived_queue hq), arrived_pays, hpays, if_neg (by decide), stk_arrived, hq,
    Stack.counting, List.nil_append, List.filter_cons_of_pos (by rw [hcounted]; rfl)]
  rfl

/-- With its tokens it is served at once. -/
theorem serveStack_serves (hpays : (s.stk n).pays r s.now = true) : ∃ w, Taken n r s w ∧
    serveStack n (arrived n r s) = (reqServe n r w).setStk n ((reqServe n r w).stk n).counting := by
  have hone := serveStack_one (arrived_queue (r := r) hq)
  rw [serveGo_one (arrived_queue hq), arrived_pays, hpays, if_pos rfl] at hone
  refine ⟨usePort n r.port r.x r.len ((arrived n r s).setStk n { (arrived n r s).stk n with queue := [] }),
    ⟨(stacksOnly_setStk ..).trans ((stacksOnly_setStk ..).trans (stacksOnly_setStk ..)), ?_, fun k hk => ?_⟩, hone⟩
  · have hv : ({ (arrived n r s).stk n with queue := [] } : Stack) = s.stk n := by
      rw [stk_arrived]
      conv_rhs => rw [show s.stk n = { s.stk n with queue := [] } by rw [← hq]]
    rw [stk_usePort, State.stk_setStk, if_pos rfl, hv]
    rfl
  · rw [stk_usePort_ne hk, State.stk_setStk, if_neg hk]
    exact (State.stk_setStk ..).trans (if_neg hk)

end alone

end Sys2Proof.Machine
end

section
/-! A request of the DRAM that a master issues (13 R370 to R381), for O38: its way through an empty matrix, and its answer. -/

namespace Sys2Proof.Machine

open Sys2Proof

set_option Elab.async false

variable {s t u : State}

/-! ### Answers -/

/-- The answer of these beats to master m, under its EPOCH: to both cores of a pair in LOCKSTEP. -/
def State.beats (s : State) (m id resp : Nat) (bs : List (List Byte)) : List Sent := bs.zipIdx.flatMap fun b =>
  (if m = 0 ∧ s.ctrl.pair = .lockstep then [0, 1] else [m]).map fun k =>
    .busReply k id resp (b.2 + 1 == bs.length) (s.epochOf m) b.1

theorem foldl_send {α : Type} (g : α → Sent) (l : List α) (s : State) :
    l.foldl (fun v k => v.send (g k)) s = { s with outbox := (l.map g).reverse ++ s.outbox } := by
  induction l generalizing s with
  | nil => rfl
  | cons k l ih =>
    rw [List.foldl_cons, ih, List.map_cons, List.reverse_cons, List.append_assoc]
    rfl

theorem foldl_foldl_send {α : Type} (g : α → Nat → Sent) (cores : List Nat) (l : List α) (s : State) :
    l.foldl (fun v b => cores.foldl (fun v k => v.send (g b k)) v) s =
      { s with outbox := (l.flatMap fun b => cores.map (g b)).reverse ++ s.outbox } := by
  induction l generalizing s with
  | nil => rfl
  | cons b l ih => rw [List.foldl_cons, ih, foldl_send, List.flatMap_cons, List.reverse_append, List.append_assoc]

/-- An answer under the EPOCH of its master frees the ID and sends its beats. -/
theorem busAnswer_own {m id epoch resp beat : Nat} {read : Bool} {d : List Byte} (h : epoch = s.epochOf m) :
    busAnswer m id epoch resp beat read d s =
      { s with ctrl := { s.ctrl with reqs := s.ctrl.reqs.filter fun r =>
                           !(r.m == m && r.id == id && r.epoch == epoch && r.stage != .held) }
               outbox := (s.beats m id resp (if read then pieces beat (max 1 d.length) d else [[]])).reverse ++ s.outbox } := by
  unfold busAnswer busBeats
  dsimp only
  rw [if_neg (not_not.2 h), foldl_foldl_send, h]
  rfl

/-! ### The matrix -/

theorem acceptReqs_idle {early : Bool} {out : List (Nat × Nat)} {stuck : List Nat} {l : List MReq} (h : ∀ r ∈ l, r.stage = .dram) :
    acceptReqs early out stuck l = l := by
  induction l with
  | nil => rfl
  | cons r l ih =>
    obtain ⟨hr, hl⟩ := List.forall_mem_cons.1 h
    rw [acceptReqs, if_pos (by rw [hr]; decide), ih hl]

/-- The matrix has accepted the requests that it may. -/
def State.accepted (s : State) : State :=
  s.setCtrl { s.ctrl with reqs := acceptReqs (s.ctrl.reqs.any MReq.early) (outstanding s.ctrl.reqs) [] s.ctrl.reqs }

/-- Requests that wait at the DRAM give the matrix nothing to grant. -/
theorem matrixGo_idle (f : Nat) (h : ∀ r ∈ s.ctrl.reqs, r.stage = .dram) : matrixGo f s = s := by
  cases f with
  | zero => rfl
  | succ f =>
    have hready : s.ctrl.reqs.filter (fun r => r.stage == .ready) = [] :=
      List.filter_eq_nil_iff.2 fun r hr => by rw [h r hr]; decide
    have haccept : s.accepted = s := by
      unfold State.accepted
      rw [acceptReqs_idle h]
      rfl
    have hdef : matrixGo (f + 1) s = match s.accepted.nextGrant with
        | some r => matrixGo f (performReq r s.accepted)
        | none => s.accepted := rfl
    rw [hdef, haccept, State.nextGrant, hready]

/-- A request as the matrix takes it at its issue. -/
def MReq.issued (r : MReq) (s : State) : MReq := { r with epoch := s.epochOf r.m, remap := s.ctrl.remap, stage := .ready }

theorem acceptReqs_alone {r : MReq} (h : r.stage = .held) :
    acceptReqs ([r].any MReq.early) (outstanding [r]) [] [r] = [{ r with stage := .ready }] := by
  have hout : outstanding [r] = [] := by
    unfold outstanding
    rw [List.filter_cons_of_neg (by rw [h]; decide)]
    rfl
  have hnow : ([r].any MReq.early && r.after_) = false := by
    unfold MReq.early MReq.after_
    cases hr : r.remap <;> simp [hr]
  rw [acceptReqs, if_neg (not_not.2 h), hout, hnow]
  rfl

theorem pickReq_one (last : Nat) (r : MReq) : pickReq last [r] = some r := by
  unfold pickReq
  by_cases h : r.m ≤ 1
  · simp [h]
  · simp [h, not_le.1 h |> Nat.succ_le_of_lt]

theorem nextGrant_alone {r : MReq} (hreqs : s.ctrl.reqs = [r]) (hready : r.stage = .ready) : s.nextGrant = some r := by
  unfold State.nextGrant
  rw [hreqs, List.filter_cons_of_pos (by rw [hready]; decide), List.filter_nil]
  dsimp only
  rw [List.filter_cons_of_pos (p := fun q : MReq => q.target == r.target) (beq_self_eq_true _)]
  exact pickReq_one ..

theorem matrixGo_alone {r : MReq} (f : Nat) (hreqs : s.ctrl.reqs = [r]) (hheld : r.stage = .held) :
    matrixGo (f + 1) s = matrixGo f (performReq { r with stage := .ready }
      (s.setCtrl { s.ctrl with reqs := [{ r with stage := .ready }] })) := by
  have hdef : matrixGo (f + 1) s = match s.accepted.nextGrant with
      | some r => matrixGo f (performReq r s.accepted)
      | none => s.accepted := rfl
  have haccept : s.accepted = s.setCtrl { s.ctrl with reqs := [{ r with stage := .ready }] } := by
    unfold State.accepted
    rw [hreqs, acceptReqs_alone hheld]
  rw [hdef, haccept, nextGrant_alone rfl rfl]

/-- A request that meets an empty matrix is accepted and performed at once. -/
theorem issueReq_alone {r : MReq} (hreqs : s.ctrl.reqs = []) (hheld : r.stage = .held) :
    issueReq r s = matrixGo 1 (performReq (r.issued s) (s.setCtrl { s.ctrl with reqs := [r.issued s] })) := by
  have hrun : issueReq r s = matrixGo 2
      (s.setCtrl { s.ctrl with reqs := [{ r with epoch := s.epochOf r.m, remap := s.ctrl.remap }] }) := by
    unfold issueReq
    rw [hreqs]
    rfl
  rw [hrun, matrixGo_alone (r := { r with epoch := s.epochOf r.m, remap := s.ctrl.remap }) 1 rfl hheld]
  rfl

end Sys2Proof.Machine
end

section
/-! The request of the command and its way to its stack (09 R269, 13 R370 to R375), for O38. -/

namespace Sys2Proof.Machine

open Sys2Proof

set_option Elab.async false

/-! ### The requests in the matrix -/

theorem busTarget_dram {a : Nat} (hlo : dramBase ≤ a) (hhi : a < dramBase + 8 * stackSize) (remap : Bool) :
    (busTarget remap a).1 = .dram := by
  have hbase : 0x8000000000 ≤ a := hlo
  unfold busTarget
  rw [if_neg (by omega), if_neg (by omega), if_neg (by omega), if_neg (by omega), if_neg (by omega), if_neg (by omega),
    if_neg (by omega), if_pos ⟨hlo, hhi⟩]

theorem reqReply_reqs (r : DramReq) (resp : Nat) (d : List Byte) (s : State) : (reqReply r resp d s).ctrl.reqs ⊆ s.ctrl.reqs := by
  unfold reqReply
  split
  · unfold busAnswer
    dsimp only
    split
    · exact List.filter_subset_self _
    · rw [busBeats_ctrl]
      exact List.filter_subset_self _
  · exact List.Subset.refl _

/-- A late request is reported where it is performed. -/
def lateRaised (n : Nat) (r : DramReq) (s : State) : State :=
  if r.late then raise (stackSrc n) 6 (r.x / 8 * 8 + r.port * 2 ^ 36) s else s

theorem lateRaised_frame (n : Nat) (r : DramReq) (s : State) : Frame [.so] s (lateRaised n r s) := by
  unfold lateRaised
  split
  · exact raise_frame ..
  · exact Frame.refl ..

theorem reqServe_write {n : Nat} {r : DramReq} {d : List Byte} (h : r.wr = some d) (s : State) :
    let z := dramWrite n r.x r.port (decide (r.tag.1 ≤ 1)) d r.ecc (lateRaised n r s)
    reqServe n r s = reqReply r (if z.1 = true then 0 else 2) [] z.2 := by
  unfold reqServe
  rw [h]
  rfl

theorem reqServe_read {n : Nat} {r : DramReq} (h : r.wr = none) (s : State) :
    let z := dramRead n r.x r.len r.port r.ecc (lateRaised n r s)
    reqServe n r s = reqReply r (if z.1 = true then 2 else 0) (if z.1 = true then List.replicate r.len 0
      else flippedBytes (dramAddr n r.x) z.2.1 (z.2.2.bytesAt (dramAddr n r.x) r.len)) z.2.2 := by
  unfold reqServe
  rw [h]
  rfl

theorem reqServe_reqs (n : Nat) (r : DramReq) (s : State) : (reqServe n r s).ctrl.reqs ⊆ s.ctrl.reqs := by
  have hlate : (lateRaised n r s).ctrl = s.ctrl := (lateRaised_frame ..).get .ctrl
  cases hwr : r.wr with
  | some d =>
    rw [reqServe_write hwr]
    refine List.Subset.trans (reqReply_reqs ..) ?_
    rw [dramWrite_ctrl, hlate]
    exact List.Subset.refl _
  | none =>
    rw [reqServe_read hwr]
    refine List.Subset.trans (reqReply_reqs ..) ?_
    rw [dramRead_ctrl, hlate]
    exact List.Subset.refl _

theorem serveGo_reqs (n f : Nat) (s : State) : (serveGo n f s).ctrl.reqs ⊆ s.ctrl.reqs := by
  induction f generalizing s with
  | zero => exact List.Subset.refl _
  | succ f ih =>
    unfold serveGo
    dsimp only
    split
    · exact List.Subset.trans (ih _) (reqServe_reqs ..)
    · exact List.Subset.refl _

/-- What stands in the matrix waits at the DRAM: a request that arrives at a stack adds nothing to it. -/
theorem arriveReq_reqs (n : Nat) (r : DramReq) (s : State) : (arriveReq n r s).ctrl.reqs ⊆ s.ctrl.reqs := by
  unfold arriveReq
  dsimp only
  split
  · unfold serveStack
    split
    · exact List.Subset.refl _
    · exact serveGo_reqs ..
  · exact reqReply_reqs ..

/-! ### What the matrix grants -/

theorem deadLetter_ctrl (m a : Nat) (s : State) : (deadLetter m a s).ctrl = { s.ctrl with
    deadTotal := satAdd 64 s.ctrl.deadTotal 1, dead := s.ctrl.dead.set zeroTab m (satAdd 32 (s.ctrl.dead.get zeroTab m) 1),
    deadAddr := a, deadMaster := m, deadPm := s.pm } := by
  unfold deadLetter
  exact raiseLim_ctrl ..

theorem deadLetter_so {m a : Nat} {s t : State} (h : t.so = s.so) (hnow : t.now = s.now) :
    (deadLetter m a t).so = (raiseLim (ms 1) 0xA30 1 m a s).so := by
  unfold deadLetter
  exact raiseLim_so_congr (by exact h) (by exact hnow) ..

theorem performReq_dram {r : MReq} {n x : Nat} {s : State} (hreqs : s.ctrl.reqs = [r]) (ht : r.target = 7) (hstrb : r.strb = [])
    (hloc : dramLoc (natSub r.addr dramBase) = (n, x)) : performReq r s =
      arriveReq n { port := dramPort r.m, x := x, len := r.data.length, wr := if r.write then some r.data else none,
                    tag := (r.m, r.id, r.epoch), late := r.late, ecc := r.ecc }
        { s with ctrl := { (noteGrant r.m 7 s).ctrl with reqs := [{ r with stage := .dram }] } } := by
  have hkeep : (noteGrant r.m 7 s).ctrl.reqs = [r] := hreqs
  unfold performReq
  dsimp only
  rw [if_pos ⟨ht, hstrb⟩, ht, hloc, hkeep, List.map_singleton, if_pos rfl]
  rfl

theorem performReq_dead {r : MReq} {s : State} (ht : r.target = 0) : performReq r s =
    busAnswer r.m r.id r.epoch 1 r.beat (!r.write) (if r.write then [] else List.replicate r.data.length 0)
      (deadLetter r.m r.addr (noteGrant r.m 0 s)) := by
  have hdram : ¬ (r.target = 7 ∧ r.strb = []) := fun hc => absurd (ht.symm.trans hc.1) (by decide)
  unfold performReq
  dsimp only
  rw [if_neg hdram, if_pos ht, ht]

/-! ### The request -/

/-- What the command asks of stack n: port p, master m, its ID, the bytes from x on. -/
structure Ask where
  n : Nat
  p : Nat
  m : Nat
  id : Nat
  x : Nat
  len : Nat
  wr : Option (List Byte)
  late : Bool
  ecc : List (Nat × Ecc)

namespace Ask

variable {k : Ask} {s t u : State}

/-- The control and the Courier port belong to the bus matrix. -/
abbrev bus (k : Ask) : Prop := k.p = 0 ∨ k.p = 6
def size (k : Ask) : Nat := k.wr.elim k.len List.length
def port (k : Ask) : Nat := if k.bus then dramPort k.m else k.p
abbrev addr (k : Ask) : Nat := dramAddr k.n k.x
/-- The request as its stack gets it. -/
def req (k : Ask) (s : State) : DramReq :=
  { port := k.port, x := k.x, len := k.size, wr := k.wr, tag := (k.m, k.id, s.epochOf k.m), late := k.late, ecc := k.ecc }
/-- The request as it is in the matrix. -/
def inMatrix (k : Ask) (st : ReqStage) (s : State) : MReq :=
  { m := k.m, id := k.id, epoch := s.epochOf k.m, write := k.wr.isSome, priv := false, addr := k.addr,
    data := k.wr.getD (List.replicate k.len 0), beat := min k.size 16, remap := s.ctrl.remap, ecc := k.ecc, late := k.late, stage := st }
/-- The matrix takes the request, which finds it empty. -/
def takes (k : Ask) (s : State) : Prop :=
  k.bus → s.mayRequest k.m = true ∧ s.ctrl.reqs = [] ∧ s.routed k.m k.addr k.size k.wr.isSome = true
/-- The state in which the request reaches its stack. -/
def reached (k : Ask) (s : State) : State :=
  if k.bus then { debugTap k.m s with ctrl := { (noteGrant k.m 7 s).ctrl with reqs := [k.inMatrix .dram s] } } else debugTap k.m s
/-- The operation of the command. -/
def op (k : Ask) (s : State) : State := requestOp k.n k.p k.m k.id k.x k.len k.wr k.late k.ecc (debugTap k.m s)
/-- The bus's part of the state, with these requests in the matrix. -/
def ctrlWith (k : Ask) (s : State) (l : List MReq) (t : State) : Prop :=
  (k.bus → t.ctrl = { (noteGrant k.m 7 s).ctrl with reqs := l }) ∧ (¬ k.bus → t.ctrl = s.ctrl) ∧ t.tap = (debugTap k.m s).tap
/-- The request has got its answer. -/
def answered (k : Ask) (s : State) (bs : List (List Byte)) (resp : Nat) (t : State) : Prop :=
  k.ctrlWith s [] t ∧ (k.bus → t.outbox = (s.beats k.m k.id resp bs).reverse ++ s.outbox) ∧ (¬ k.bus → t.outbox = s.outbox)

theorem port_bus : k.port = 0 ∨ k.port = 6 ↔ k.bus := by
  unfold port dramPort
  split
  · next h => exact ⟨fun _ => h, fun _ => by split <;> decide⟩
  · rfl

theorem size_eq : k.size = (k.wr.getD (List.replicate k.len 0)).length := by
  unfold size
  cases k.wr with
  | none => exact List.length_replicate.symm
  | some d => rfl

theorem reached_bus (h : k.bus) : k.reached s =
    { debugTap k.m s with ctrl := { (noteGrant k.m 7 s).ctrl with reqs := [k.inMatrix .dram s] } } := if_pos h
theorem reached_other (h : ¬ k.bus) : k.reached s = debugTap k.m s := if_neg h

theorem reached_frame : Frame [.ctrl, .tap] s (k.reached s) := by
  unfold reached
  split
  · exact ((debugTap_frame ..).weaken (by decide)).step (Frame.with_ctrl _ _) (by decide)
  · exact (debugTap_frame ..).weaken (by decide)

theorem reached_so : (k.reached s).so = s.so := by
  unfold reached
  split
  · exact debugTap_so k.m s
  · exact debugTap_so k.m s

theorem reached_mm : (k.reached s).mm = s.mm := by
  unfold reached
  split
  · exact debugTap_mm k.m s
  · exact debugTap_mm k.m s

theorem reached_outbox : (k.reached s).outbox = s.outbox := by
  unfold reached
  split
  · exact debugTap_outbox k.m s
  · exact debugTap_outbox k.m s

theorem reached_ctrl : k.ctrlWith s [k.inMatrix .dram s] (k.reached s) := by
  by_cases h : k.bus
  · rw [reached_bus h]
    exact ⟨fun _ => rfl, fun hn => absurd h hn, rfl⟩
  · rw [reached_other h]
    exact ⟨fun hb => absurd hb h, fun _ => rfl, rfl⟩

theorem op_bus (h : k.bus) (hmay : s.mayRequest k.m = true) (hreqs : s.ctrl.reqs = []) :
    k.op s = matrixGo 1 (performReq (k.inMatrix .ready s) ((debugTap k.m s).setCtrl { s.ctrl with reqs := [k.inMatrix .ready s] })) := by
  unfold op requestOp
  rw [if_pos h, if_pos (show (debugTap k.m s).mayRequest k.m = true from hmay), issueReq_alone (s := debugTap k.m s) hreqs rfl]
  unfold inMatrix size
  cases k.wr <;> rfl

theorem op_other (h : ¬ k.bus) : k.op s = arriveReq k.n (k.req s) (k.reached s) := by
  unfold op requestOp
  rw [if_neg h, reached_other h]
  unfold req port size
  rw [if_neg h]
  cases k.wr <;> rfl

/-! ### The target -/

theorem loc_addr (hn : k.n < 4) (hx : k.x < stackSize) : dramLoc (natSub k.addr dramBase) = (k.n, k.x) := by
  unfold dramLoc
  rw [natSub_eq]
  unfold addr dramAddr stackSize dramBase at *
  rw [if_pos (by omega), Prod.mk.injEq]
  omega

theorem addr_le (hn : k.n < 4) (hx : k.x < stackSize) : dramBase ≤ k.addr ∧ k.addr < dramBase + 8 * stackSize := by
  unfold addr dramAddr stackSize at *
  omega

theorem target_of_routed (hn : k.n < 4) (hx : k.x < stackSize) (h : s.routed k.m k.addr k.size k.wr.isSome = true) :
    (k.inMatrix .ready s).target = 7 := by
  have hlegal : (k.inMatrix .ready s).legal = true := by
    unfold MReq.legal inMatrix
    dsimp only
    rw [← size_eq]
    by_cases hsize : k.size ≤ 16
    · simp [hsize]
    · simp [(not_le.1 hsize).le]
  unfold MReq.target
  rw [if_pos (Bool.and_eq_true_iff.2 ⟨hlegal, by rw [size_eq] at h; exact h⟩)]
  exact congrArg Target.no (busTarget_dram (addr_le hn hx).1 (addr_le hn hx).2 _)

theorem target_of_unrouted (h : s.routed k.m k.addr k.size k.wr.isSome = false) : (k.inMatrix .ready s).target = 0 := by
  unfold MReq.target
  refine if_neg fun hc => ?_
  obtain ⟨-, hr⟩ := Bool.and_eq_true_iff.1 hc
  have hrouted : s.routed k.m k.addr k.size k.wr.isSome = true := by rw [size_eq]; exact hr
  exact absurd (h.symm.trans hrouted) (by decide)

/-- The matrix passes the request on to its stack, and has nothing more to grant. -/
theorem op_takes (hn : k.n < 4) (hx : k.x < stackSize) (h : k.takes s) : k.op s = arriveReq k.n (k.req s) (k.reached s) := by
  by_cases hbus : k.bus
  · obtain ⟨hmay, hreqs, hrouted⟩ := h hbus
    have harrive : performReq (k.inMatrix .ready s) ((debugTap k.m s).setCtrl { s.ctrl with reqs := [k.inMatrix .ready s] }) =
        arriveReq k.n (k.req s) (k.reached s) := by
      rw [performReq_dram rfl (target_of_routed hn hx hrouted) rfl (loc_addr hn hx), reached_bus hbus]
      unfold req port
      rw [if_pos hbus, size_eq]
      unfold inMatrix
      cases k.wr <;> rfl
    rw [op_bus hbus hmay hreqs, harrive]
    refine matrixGo_idle 1 fun r hr => ?_
    have hmem := arriveReq_reqs _ _ _ hr
    rw [reached_bus hbus] at hmem
    rw [List.mem_singleton.1 hmem]
    rfl
  · exact op_other hbus

/-- The state in which the dead-letter target has taken the request. -/
def dead (k : Ask) (s : State) : State :=
  deadLetter k.m k.addr (noteGrant k.m 0 ((debugTap k.m s).setCtrl { s.ctrl with reqs := [k.inMatrix .ready s] }))

theorem dead_frame : Frame [.so, .ctrl, .tap] s (k.dead s) :=
  ((((debugTap_frame ..).weaken (by decide)).step (State.setCtrl_frame ..) (by decide)).step (noteGrant_frame ..)
    (by decide)).step (deadLetter_frame ..) (by decide)

theorem dead_ctrl : (k.dead s).ctrl = { (noteGrant k.m 0 s).ctrl with
    reqs := [k.inMatrix .ready s], deadTotal := satAdd 64 s.ctrl.deadTotal 1, deadAddr := k.addr, deadMaster := k.m, deadPm := s.pm,
    dead := s.ctrl.dead.set zeroTab k.m (satAdd 32 (s.ctrl.dead.get zeroTab k.m) 1) } := by
  unfold dead
  rw [deadLetter_ctrl]
  rfl

theorem dead_outbox : (k.dead s).outbox = s.outbox := by
  unfold dead
  rw [deadLetter_outbox, noteGrant_outbox, State.setCtrl_outbox, debugTap_outbox]

theorem dead_so : (k.dead s).so = (raiseLim (ms 1) 0xA30 1 k.m k.addr s).so := deadLetter_so rfl rfl

/-- A request that Table 13.2 or 13 R373 stops goes to the dead-letter target, which answers with DECERR. -/
theorem op_dead (hbus : k.bus) (hmay : s.mayRequest k.m = true) (hreqs : s.ctrl.reqs = [])
    (h : s.routed k.m k.addr k.size k.wr.isSome = false) :
    Frame [.so, .ctrl, .tap, .outbox] s (k.op s) ∧ (k.op s).so = (raiseLim (ms 1) 0xA30 1 k.m k.addr s).so ∧
      (k.op s).outbox = (s.beats k.m k.id 1 (if k.wr.isSome then [[]] else
        pieces (min k.size 16) (max 1 k.size) (List.replicate k.size 0))).reverse ++ s.outbox ∧
      (k.op s).ctrl = { (noteGrant k.m 0 s).ctrl with
        reqs := [], deadTotal := satAdd 64 s.ctrl.deadTotal 1, deadAddr := k.addr, deadMaster := k.m, deadPm := s.pm,
        dead := s.ctrl.dead.set zeroTab k.m (satAdd 32 (s.ctrl.dead.get zeroTab k.m) 1) } := by
  have hdead : performReq (k.inMatrix .ready s) ((debugTap k.m s).setCtrl { s.ctrl with reqs := [k.inMatrix .ready s] }) =
      busAnswer k.m k.id (s.epochOf k.m) 1 (min k.size 16) (!k.wr.isSome)
        (if k.wr.isSome then [] else List.replicate k.size 0) (k.dead s) := by
    have hlen : (k.inMatrix .ready s).data.length = k.size := size_eq.symm
    rw [performReq_dead (target_of_unrouted h), hlen]
    rfl
  have hepoch : s.epochOf k.m = (k.dead s).epochOf k.m := by
    unfold State.epochOf
    rw [dead_ctrl]
    rfl
  have hbeats (resp : Nat) (bs : List (List Byte)) : (k.dead s).beats k.m k.id resp bs = s.beats k.m k.id resp bs := by
    unfold State.beats
    rw [← hepoch, dead_ctrl]
    rfl
  have hfree : (k.dead s).ctrl.reqs.filter
      (fun r => !(r.m == k.m && r.id == k.id && r.epoch == s.epochOf k.m && r.stage != .held)) = [] := by
    rw [dead_ctrl]
    exact List.filter_cons_of_neg (by simp [inMatrix])
  have hanswer := busAnswer_own (id := k.id) (resp := 1) (beat := min k.size 16) (read := !k.wr.isSome)
    (d := if k.wr.isSome then [] else List.replicate k.size 0) hepoch
  rw [hfree, hbeats, dead_outbox, dead_ctrl] at hanswer
  have hop : k.op s = busAnswer k.m k.id (s.epochOf k.m) 1 (min k.size 16) (!k.wr.isSome)
      (if k.wr.isSome then [] else List.replicate k.size 0) (k.dead s) := by
    rw [op_bus hbus hmay hreqs, hdead, hanswer]
    exact matrixGo_idle 1 fun r hr => absurd hr List.not_mem_nil
  refine ⟨hop ▸ (dead_frame.weaken (by decide)).step (busAnswer_frame ..) (by decide), ?_, ?_, ?_⟩
  · rw [hop, hanswer]
    exact dead_so
  · rw [hop, hanswer]
    cases k.wr with
    | some d => rfl
    | none => simp
  · rw [hop, hanswer]

end Ask

end Sys2Proof.Machine
end

section
/-! The words that a request reads at its stack (09 R273, R274), for O38. -/

namespace Sys2Proof.Machine

open Sys2Proof

set_option Elab.async false

variable {n port x len : Nat} {ecc : List (Nat × Ecc)} {s t u : State}

/-! ### Reads of any kind -/

/-- Words of stack n have been read: their bytes stand as they did, and a word once uncorrectable stays so. -/
structure StackRead (n : Nat) (s t : State) : Prop where
  frame : Frame [.so, .mm, .fresh] s t
  mem : t.mm.mem = s.mm.mem
  place : t.mm.place = s.mm.place
  other : ∀ k, k ≠ n → t.stk k = s.stk k
  bad : ∀ y, s.badWord y = true → t.badWord y = true

theorem StackRead.trans (h : StackRead n s t) (k : StackRead n t u) : StackRead n s u where
  frame := h.frame.step k.frame (by decide)
  mem := k.mem.trans h.mem
  place := k.place.trans h.place
  other j hj := (k.other j hj).trans (h.other j hj)
  bad y hy := k.bad y (h.bad y hy)

theorem StackRead.of_mm (k : Frame [.so, .fresh] s t) : StackRead n s t := by
  have hmm : t.mm = s.mm := k.get .mm
  refine ⟨k.weaken (by decide), by rw [hmm], by rw [hmm], fun j _ => ?_, fun y hy => ?_⟩
  · unfold State.stk
    rw [hmm]
  · rwa [State.badWord_congr (congrArg Mems.bad hmm)]

theorem StackRead.refl (n : Nat) (s : State) : StackRead n s s := .of_mm (Frame.refl ..)

theorem StackRead.setStk (h : StackRead n s t) (v : Stack) : StackRead n s (t.setStk n v) :=
  h.trans ⟨(State.setStk_frame ..).weaken (by decide), rfl, rfl, fun _ hj => (State.stk_setStk ..).trans (if_neg hj), fun _ hy => hy⟩

theorem keepBad_stackRead (port : Nat) (e : Ecc) : StackRead n s (keepBad n x port e s) where
  frame := (keepBad_frame ..).weaken (by decide)
  mem := keepBad_mem ..
  place := by rw [keepBad_mm]
  other k _ := keepBad_stk ..
  bad y hy := by
    unfold keepBad
    split
    · rw [badWord_setBad_true, hy, Bool.true_or]
    · exact hy

/-- What a check with outcome r reports. -/
def dramReport (n x port : Nat) (test : Bool) (u : State) : Ecc → State
  | .ok => u
  | .corrected => raiseT test (stackSrc n) 1 (x + port * 2 ^ 36) (u.setStk n { u.stk n with corr := satAdd 32 (u.stk n).corr 1 })
  | .uncorrectable =>
    raiseT test (stackSrc n) 2 (x + port * 2 ^ 36) (u.setStk n { u.stk n with uncorr := satAdd 32 (u.stk n).uncorr 1, lastErr := x })

theorem dramCheck_eq (n x port : Nat) (e : Ecc) (s : State) :
    let z := eccCheck (stackSrc n) 1 (if s.badWord (dramAddr n x) = true then .uncorrectable else e) (keepBad n x port e s)
    dramCheck n x port e s = (z.1, dramReport n x port z.2.1 z.2.2 z.1) := by
  unfold dramCheck
  dsimp only
  rcases eccCheck (stackSrc n) 1 (if s.badWord (dramAddr n x) = true then .uncorrectable else e) (keepBad n x port e s)
    with ⟨r, test, u⟩
  cases r <;> rfl

theorem dramReport_stackRead (port : Nat) (test : Bool) (r : Ecc) : StackRead n s (dramReport n x port test s r) := by
  have hcard (kind addr : Nat) (v : Stack) : StackRead n s (raiseT test (stackSrc n) kind addr (s.setStk n v)) :=
    ((StackRead.refl n s).setStk v).trans (.of_mm ((raiseT_frame ..).weaken (by decide)))
  cases r with
  | ok => exact .refl ..
  | corrected | uncorrectable => exact hcard ..

theorem dramCheck_stackRead (port : Nat) (e : Ecc) : StackRead n s (dramCheck n x port e s).2 := by
  rw [dramCheck_eq]
  exact ((keepBad_stackRead port e).trans (.of_mm (eccCheck_frame ..))).trans (dramReport_stackRead ..)

theorem dramCheck_bad {e : Ecc} (h : s.badWord (dramAddr n x) = true ∨ e = .uncorrectable) :
    (dramCheck n x port e s).1 = .uncorrectable := by
  have he : (if s.badWord (dramAddr n x) = true then .uncorrectable else e) = Ecc.uncorrectable := by
    rcases h with h | h
    · exact if_pos h
    · rw [h, ite_self]
  rw [dramCheck_eq, he]
  exact eccCheck_uncorrectable ..

theorem mergeReads_stackRead (n x len port : Nat) (ecc : List (Nat × Ecc)) (s : State) : StackRead n s (mergeReads n x len port ecc s) :=
  List.foldlRecOn (motive := fun t => StackRead n s t) _ _ (.refl n s) fun _ ht _ _ => ht.trans (dramCheck_stackRead ..)

/-- One word of a read. -/
def readStep (n port : Nat) (ecc : List (Nat × Ecc)) (r : Bool × List (Nat × Nat) × State) (w : Nat) :
    Bool × List (Nat × Nat) × State :=
  let z := dramCheck n w port (eccAt ecc w) r.2.2
  (r.1 || z.1 == .uncorrectable, ((dramFlip n w (eccAt ecc w) r.2.2).map fun b => (dramAddr n w, b)).toList ++ r.2.1, z.2)

theorem dramRead_eq (n x len port : Nat) (ecc : List (Nat × Ecc)) (s : State) :
    dramRead n x len port ecc s = (wordsIn x len).foldl (readStep n port ecc) (false, [], s) := rfl

/-- The word can be read. -/
def State.readable (s : State) (n : Nat) (ecc : List (Nat × Ecc)) (w : Nat) : Bool :=
  !s.badWord (dramAddr n w) && eccAt ecc w != .uncorrectable

theorem foldl_readStep_stackRead {l : List Nat} {r : Bool × List (Nat × Nat) × State} :
    StackRead n r.2.2 (l.foldl (readStep n port ecc) r).2.2 := by
  induction l generalizing r with
  | nil => exact .refl ..
  | cons w l ih => exact (dramCheck_stackRead port (eccAt ecc w)).trans (ih (r := readStep n port ecc r w))

/-- A read that meets a word which cannot be read fails. -/
theorem foldl_readStep_bad {l : List Nat} {r : Bool × List (Nat × Nat) × State}
    (h : r.1 = true ∨ ∃ w ∈ l, r.2.2.readable n ecc w = false) : (l.foldl (readStep n port ecc) r).1 = true := by
  induction l generalizing r with
  | nil => exact h.elim id fun ⟨w, hw, _⟩ => absurd hw List.not_mem_nil
  | cons w l ih =>
    refine ih ?_
    rcases h with h | ⟨v, hv, hbad⟩
    · exact .inl (by rw [readStep, h, Bool.true_or])
    · unfold State.readable at *
      rcases List.mem_cons.1 hv with rfl | hv
      · refine .inl (Bool.or_eq_true_iff.2 (.inr (beq_iff_eq.2 (dramCheck_bad ?_))))
        simpa [or_iff_not_imp_left] using hbad
      · refine .inr ⟨v, hv, ?_⟩
        have hkept := (dramCheck_stackRead (n := n) (x := w) (s := r.2.2) port (eccAt ecc w)).bad (dramAddr n v)
        cases hb : r.2.2.badWord (dramAddr n v) with
        | true => rw [show (readStep n port ecc r w).2.2.badWord (dramAddr n v) = true from hkept hb]; rfl
        | false =>
          rw [hb] at hbad
          rw [show (eccAt ecc v != .uncorrectable) = false from hbad, Bool.and_false]

/-! ### Reads of good words with no injection -/

/-- Words of stack n have been read with no error but corrected ones. -/
structure StackClean (n : Nat) (cs : List (Nat × Nat × Nat)) (s t : State) : Prop where
  frame : Frame [.so, .mm] s t
  mm : t.mm = { s.mm with stack := t.mm.stack }
  other : ∀ k, k ≠ n → t.stk k = s.stk k
  inj : t.so.inj = s.so.inj
  cards : raisedOnly cs s t

theorem StackClean.refl (n : Nat) (s : State) : StackClean n [] s s := ⟨Frame.refl .., rfl, fun _ _ => rfl, rfl, raisedOnly_nil rfl⟩

theorem StackClean.trans {cs ds : List (Nat × Nat × Nat)} (h : StackClean n cs s t) (k : StackClean n ds t u) :
    StackClean n (cs ++ ds) s u where
  frame := h.frame.step k.frame (by decide)
  mm := by rw [k.mm, h.mm]
  other j hj := (k.other j hj).trans (h.other j hj)
  inj := k.inj.trans h.inj
  cards := raisedOnly_append h.cards k.cards

theorem StackClean.setStk {cs : List (Nat × Nat × Nat)} (h : StackClean n cs s t) (v : Stack) : StackClean n cs s (t.setStk n v) where
  frame := h.frame.step (State.setStk_frame ..) (by decide)
  mm := by
    have hset : (t.setStk n v).mm = { t.mm with stack := (t.setStk n v).mm.stack } := rfl
    rw [hset, h.mm]
  other k hk := ((State.stk_setStk ..).trans (if_neg hk)).trans (h.other k hk)
  inj := h.inj
  cards := h.cards

theorem raise_inj (src kind addr : Nat) (s : State) : (raise src kind addr s).so.inj = s.so.inj := by
  unfold raise raiseT
  dsimp only
  split <;> split <;> rfl

theorem raise_stackClean (src kind addr : Nat) (s : State) : StackClean n [(src, kind, addr)] s (raise src kind addr s) where
  frame := (raise_frame ..).weaken (by decide)
  mm := by rw [raise_mm]
  other k _ := by
    unfold State.stk
    rw [raise_mm]
  inj := raise_inj ..
  cards := raisedOnly_raise _ _ _ rfl

theorem readable_iff {w : Nat} : s.readable n ecc w = true ↔ s.badWord (dramAddr n w) = false ∧ eccAt ecc w ≠ .uncorrectable := by
  unfold State.readable
  simp

theorem StackClean.readable {cs : List (Nat × Nat × Nat)} (h : StackClean n cs s t) (w : Nat) :
    t.readable n ecc w = s.readable n ecc w := by
  unfold State.readable
  have hbad : t.mm.bad = s.mm.bad := by rw [h.mm]
  rw [State.badWord_congr hbad]

theorem StackClean.injFor {cs : List (Nat × Nat × Nat)} (h : StackClean n cs s t) (src checker : Nat) :
    injFor src checker t = injFor src checker s := by
  unfold Machine.injFor
  rw [h.inj]

/-- The Postcards of the corrected words. -/
def correctedCards (n port : Nat) (ecc : List (Nat × Ecc)) (l : List Nat) : List (Nat × Nat × Nat) :=
  (l.filter fun w => eccAt ecc w == .corrected).map fun w => (stackSrc n, 1, w + port * 2 ^ 36)

theorem readStep_clean {w : Nat} (b : Bool) (fl : List (Nat × Nat)) (hinj : injFor (stackSrc n) 1 s = none)
    (h : s.readable n ecc w = true) : ∃ t, readStep n port ecc (b, fl, s) w = (b, fl, t) ∧
      StackClean n (correctedCards n port ecc [w]) s t ∧ (eccAt ecc w = .ok → t = s) := by
  obtain ⟨hbad, hecc⟩ := readable_iff.1 h
  unfold readStep correctedCards
  dsimp only
  rw [dramFlip_uninjected hinj]
  cases he : eccAt ecc w with
  | ok =>
    rw [dramCheck_ok hinj hbad, List.filter_cons_of_neg (by rw [he]; decide)]
    exact ⟨s, Prod.ext (Bool.or_false b) rfl, .refl n s, fun _ => rfl⟩
  | corrected =>
    rw [dramCheck_corrected hinj hbad, List.filter_cons_of_pos (by rw [he]; rfl)]
    exact ⟨_, Prod.ext (Bool.or_false b) rfl, ((StackClean.refl n s).setStk _).trans (raise_stackClean ..),
      fun hc => absurd hc (by decide)⟩
  | uncorrectable => exact absurd he hecc

theorem foldl_readStep_clean {l : List Nat} (b : Bool) (fl : List (Nat × Nat)) (hinj : injFor (stackSrc n) 1 s = none)
    (h : ∀ w ∈ l, s.readable n ecc w = true) : ∃ t, l.foldl (readStep n port ecc) (b, fl, s) = (b, fl, t) ∧
      StackClean n (correctedCards n port ecc l) s t ∧ ((∀ w ∈ l, eccAt ecc w = .ok) → t = s) := by
  induction l generalizing s with
  | nil => exact ⟨s, rfl, .refl n s, fun _ => rfl⟩
  | cons w l ih =>
    obtain ⟨hw, hl⟩ := List.forall_mem_cons.1 h
    obtain ⟨u, hstep, hclean, hok⟩ := readStep_clean (port := port) b fl hinj hw
    obtain ⟨t, hfold, hrest, hoks⟩ := ih (by rw [hclean.injFor]; exact hinj) fun v hv => by rw [hclean.readable]; exact hl v hv
    refine ⟨t, by rw [List.foldl_cons, hstep, hfold], ?_, fun hall => ?_⟩
    · have hcards : correctedCards n port ecc (w :: l) = correctedCards n port ecc [w] ++ correctedCards n port ecc l := by
        unfold correctedCards
        rw [← List.map_append, ← List.filter_append, List.singleton_append]
      exact hcards ▸ hclean.trans hrest
    · obtain ⟨hw, hl⟩ := List.forall_mem_cons.1 hall
      rw [hoks hl, hok hw]

theorem mergeReads_clean (hinj : injFor (stackSrc n) 1 s = none)
    (h : ∀ w ∈ partWords x len, eccAt ecc w = .ok ∧ s.badWord (dramAddr n w) = false) : mergeReads n x len port ecc s = s := by
  refine List.foldlRecOn (motive := fun t => t = s) _ _ rfl fun t ht w hw => ?_
  obtain ⟨he, hbad⟩ := h w hw
  rw [ht, he, dramCheck_ok hinj hbad]

end Sys2Proof.Machine
end

section
/-! A request that is served at once (09 R264, R267, R269, R273, R274), for O38. -/

namespace Sys2Proof.Machine

open Sys2Proof

set_option Elab.async false

theorem flippedBytes_nil (a : Nat) (d : List Byte) : flippedBytes a [] d = d := List.zipIdx_map_fst 0 d

theorem lateRaised_clean (n : Nat) (r : DramReq) (s : State) :
    StackClean n (if r.late = true then [(stackSrc n, 6, r.x / 8 * 8 + r.port * 2 ^ 36)] else []) s (lateRaised n r s) := by
  unfold lateRaised
  split
  · exact raise_stackClean ..
  · exact .refl ..

theorem lateRaised_stk (n : Nat) (r : DramReq) (s : State) (j : Nat) : (lateRaised n r s).stk j = s.stk j := by
  unfold State.stk
  rw [(lateRaised_frame ..).get .mm]

namespace Ask

variable {k : Ask} {s t u z : State}

theorem reached_stk (j : Nat) : (k.reached s).stk j = s.stk j := by
  unfold State.stk
  rw [reached_mm]

theorem reached_now : (k.reached s).now = s.now := by
  unfold reached
  split <;> rfl

/-! ### The answer -/

/-- The request is answered from z on, and what still waits at its stack is counted. -/
def finish (k : Ask) (s : State) (resp : Nat) (d : List Byte) (z : State) : State :=
  (reqReply (k.req s) resp d z).setStk k.n ((reqReply (k.req s) resp d z).stk k.n).counting

variable {resp : Nat} {d : List Byte}

theorem reply_answered (hz : Frame [.so, .fab, .mm, .fresh] (k.reached s) z) :
    k.answered s (if k.wr.isNone = true then pieces 16 (max 1 d.length) d else [[]]) resp (reqReply (k.req s) resp d z) := by
  have hctrl : z.ctrl = (k.reached s).ctrl := hz.get .ctrl
  have hout : z.outbox = s.outbox := (hz.get .outbox).trans reached_outbox
  obtain ⟨hbus', hother, htap⟩ := reached_ctrl (k := k) (s := s)
  have htap' : (reqReply (k.req s) resp d z).tap = (debugTap k.m s).tap :=
    (reqReply_tap ..).trans ((hz.get .tap).trans htap)
  by_cases hbus : k.bus
  · rw [hbus' hbus] at hctrl
    have hepoch : s.epochOf k.m = z.epochOf k.m := by
      unfold State.epochOf
      rw [hctrl]
      rfl
    have hbeats (bs : List (List Byte)) : z.beats k.m k.id resp bs = s.beats k.m k.id resp bs := by
      unfold State.beats
      rw [← hepoch, hctrl]
      rfl
    have hfree : z.ctrl.reqs.filter
        (fun r => !(r.m == k.m && r.id == k.id && r.epoch == s.epochOf k.m && r.stage != .held)) = [] := by
      rw [hctrl]
      exact List.filter_cons_of_neg (by simp [inMatrix])
    have hreply : reqReply (k.req s) resp d z = busAnswer k.m k.id (s.epochOf k.m) resp 16 k.wr.isNone d z := if_pos (port_bus.2 hbus)
    rw [busAnswer_own hepoch, hfree, hbeats, hout, hctrl] at hreply
    refine ⟨⟨fun _ => ?_, fun hn => absurd hbus hn, htap'⟩, fun _ => ?_, fun hn => absurd hbus hn⟩
    · rw [hreply]
    · rw [hreply]
  · have hreply : reqReply (k.req s) resp d z = z := if_neg fun hp => hbus (port_bus.1 hp)
    refine ⟨⟨fun hb => absurd hb hbus, fun _ => ?_, htap'⟩, fun hb => absurd hb hbus, fun _ => ?_⟩
    · rw [hreply, hctrl, hother hbus]
    · rw [hreply, hout]

theorem finish_answered (hz : Frame [.so, .fab, .mm, .fresh] (k.reached s) z) :
    k.answered s (if k.wr.isNone = true then pieces 16 (max 1 d.length) d else [[]]) resp (k.finish s resp d z) :=
  reply_answered hz

theorem finish_frame : Frame [.mm, .ctrl, .outbox] z (k.finish s resp d z) :=
  ((reqReply_frame ..).weaken (by decide)).step (State.setStk_frame ..) (by decide)

theorem finish_so : (k.finish s resp d z).so = z.so := reqReply_so ..

theorem finish_fab : (k.finish s resp d z).fab = z.fab := reqReply_fab ..

theorem finish_mm : (k.finish s resp d z).mm = { z.mm with stack := (k.finish s resp d z).mm.stack } := by
  have hset : (k.finish s resp d z).mm = { (reqReply (k.req s) resp d z).mm with stack := (k.finish s resp d z).mm.stack } := rfl
  rw [hset, reqReply_mm]

theorem finish_other {j : Nat} (hj : j ≠ k.n) : (k.finish s resp d z).stk j = z.stk j := by
  refine ((State.stk_setStk ..).trans (if_neg hj)).trans ?_
  unfold State.stk
  rw [reqReply_mm]

theorem finish_self (hq : (z.stk k.n).queue = []) : (k.finish s resp d z).stk k.n =
    { z.stk k.n with queue := [], waits := satAdd 64 (z.stk k.n).waits 0 } := by
  have hstk : (reqReply (k.req s) resp d z).stk k.n = z.stk k.n := by
    unfold State.stk
    rw [reqReply_mm]
  refine ((State.stk_setStk ..).trans (if_pos rfl)).trans ?_
  rw [hstk, Stack.counting_idle hq]

/-! ### The request is served -/

/-- The Postcard of a late request. -/
def lateCards (k : Ask) : List (Nat × Nat × Nat) := if k.late = true then [(stackSrc k.n, 6, k.x / 8 * 8 + k.port * 2 ^ 36)] else []

/-- The request has taken its tokens and opened its rows, and is reported if it is late. -/
structure Ready (k : Ask) (s z : State) : Prop where
  at_ : Frame [.so, .mm] (k.reached s) z
  mm : z.mm = { s.mm with stack := z.mm.stack }
  self : z.stk k.n = ((s.stk k.n).take k.port k.size s.now).touch k.x k.size
  other : ∀ j, j ≠ k.n → z.stk j = s.stk j
  inj : z.so.inj = s.so.inj
  cards : raisedOnly k.lateCards s z

theorem Ready.frame (h : k.Ready s z) : Frame [.so, .mm, .ctrl, .tap] s z :=
  (reached_frame.weaken (by decide)).step h.at_ (by decide)

theorem Ready.queue (h : k.Ready s z) (hq : (s.stk k.n).queue = []) : (z.stk k.n).queue = [] := by
  rw [h.self, Stack.touch_queue, Stack.take_queue, hq]

theorem Taken.ready {w : State} (h : Taken k.n (k.req s) (k.reached s) w) : k.Ready s (lateRaised k.n (k.req s) w) := by
  have hmm : w.mm = { s.mm with stack := w.mm.stack } := by
    rw [h.only.mm, reached_mm]
  have hso : w.so = s.so := h.only.so.trans reached_so
  have hlate := lateRaised_clean k.n (k.req s) w
  refine ⟨(h.only.frame.weaken (by decide)).step hlate.frame (by decide), ?_, ?_, fun j hj => ?_, hlate.inj.trans (by rw [hso]),
    raisedOnly_congr hso hlate.cards⟩
  · rw [hlate.mm, hmm]
  · rw [lateRaised_stk, h.self, reached_stk, reached_now]
    rfl
  · rw [lateRaised_stk, h.other j hj, reached_stk]

section served
variable (hn : k.n < 4) (hx : k.x < stackSize) (htakes : k.takes s) (hup : (s.stk k.n).st = .ready ∨ (s.stk k.n).st = .running)
include hn hx htakes hup

theorem op_up : k.op s = serveStack k.n (arrived k.n (k.req s) (k.reached s)) := by
  rw [op_takes hn hx htakes]
  exact if_pos (by rw [reached_stk]; exact hup)

variable (hq : (s.stk k.n).queue = [])
include hq

theorem op_waits (hpays : (s.stk k.n).pays (k.req s) s.now = false) : k.op s = (arrived k.n (k.req s) (k.reached s)).setStk k.n
    { s.stk k.n with queue := [{ k.req s with counted := true }], waits := satAdd 64 (s.stk k.n).waits 1 } := by
  rw [op_up hn hx htakes hup, serveStack_waits (by rw [reached_stk, hq]) (by rw [reached_stk, reached_now, hpays]) rfl, reached_stk]

theorem op_serves (hpays : (s.stk k.n).pays (k.req s) s.now = true) : ∃ z, k.Ready s z ∧
    (k.wr = none → let o := dramRead k.n k.x k.size k.port k.ecc z
      k.op s = k.finish s (if o.1 = true then 2 else 0) (if o.1 = true then List.replicate k.size 0
        else flippedBytes k.addr o.2.1 (o.2.2.bytesAt k.addr k.size)) o.2.2) ∧
    (∀ d, k.wr = some d → let o := dramWrite k.n k.x k.port (decide (k.m ≤ 1)) d k.ecc z
      k.op s = k.finish s (if o.1 = true then 0 else 2) [] o.2) := by
  obtain ⟨w, hw, hserve⟩ := serveStack_serves (n := k.n) (r := k.req s) (s := k.reached s) (by rw [reached_stk, hq])
    (by rw [reached_stk, reached_now, hpays])
  refine ⟨_, Taken.ready hw, fun hwr => ?_, fun d hwr => ?_⟩
  · rw [op_up hn hx htakes hup, hserve, reqServe_read hwr]
    rfl
  · rw [op_up hn hx htakes hup, hserve, reqServe_write hwr]
    rfl

end served

end Ask

end Sys2Proof.Machine
end

section
/-! The bytes of a request are read or written (09 R264, R273, R274, 07 R218), and O38. -/

namespace Sys2Proof.Machine

open Sys2Proof

set_option Elab.async false

variable {s t z : State}

/-! ### The weight buffers -/

theorem State.weightsBusy_congr (hfab : t.fab = s.fab) (hdict : t.dict = s.dict) (hplace : t.mm.place = s.mm.place) (a n : Nat) :
    t.weightsBusy a n ↔ s.weightsBusy a n := by
  have hbuf (b : Bool) : t.inBuffer b a n = s.inBuffer b a n := by
    unfold State.inBuffer State.active State.place State.placeFor
    rw [hdict, hplace]
  unfold State.weightsBusy
  rw [hbuf, hbuf, hfab]

theorem stored_congr {a : Nat} {bs : List Byte} {v : State} (h : stored a bs s v) (hmem : t.mm.mem = v.mm.mem) : stored a bs s t := by
  unfold stored State.byteAt at *
  rwa [hmem]

namespace Ask

variable {k : Ask}

/-! ### Reads -/

theorem Ready.bytesAt (h : k.Ready s z) (hmem : t.mm.mem = z.mm.mem) (a n : Nat) : t.bytesAt a n = s.bytesAt a n := by
  unfold State.bytesAt State.byteAt
  rw [hmem, h.mm]

theorem Ready.readable (h : k.Ready s z) (w : Nat) : z.readable k.n k.ecc w = s.readable k.n k.ecc w := by
  have hbad : z.mm.bad = s.mm.bad := by rw [h.mm]
  unfold State.readable
  rw [State.badWord_congr hbad]

theorem Ready.injFor (h : k.Ready s z) (src checker : Nat) : injFor src checker z = injFor src checker s := by
  unfold Machine.injFor
  rw [h.inj]

/-- The state of stack n after a request that leaves nothing waiting. -/
def used (k : Ask) (s t : State) : Prop :=
  let v := ((s.stk k.n).take k.port k.size s.now).touch k.x k.size
  t.stk k.n = { v with queue := [], waits := satAdd 64 v.waits 0 }

theorem Ready.used (h : k.Ready s z) (hq : (s.stk k.n).queue = []) (hstk : t.stk k.n = z.stk k.n) {resp : Nat} {d : List Byte} :
    k.used s (k.finish s resp d t) := by
  have hself := finish_self (k := k) (s := s) (resp := resp) (d := d) (z := t) (by rw [hstk, h.queue hq])
  rw [hstk, h.self] at hself
  exact hself

/-- A read of good words answers with their bytes. -/
theorem Ready.read_clean (h : k.Ready s z) (hwr : k.wr = none) (hq : (s.stk k.n).queue = [])
    (hinj : Machine.injFor (stackSrc k.n) 1 s = none) (hok : ∀ w ∈ wordsIn k.x k.size, s.readable k.n k.ecc w = true) :
    let o := dramRead k.n k.x k.size k.port k.ecc z
    let t := k.finish s (if o.1 = true then 2 else 0) (if o.1 = true then List.replicate k.size 0
      else flippedBytes k.addr o.2.1 (o.2.2.bytesAt k.addr k.size)) o.2.2
    let d := s.bytesAt k.addr k.size
    Frame [.so, .mm, .ctrl, .tap, .outbox] s t ∧ t.mm = { s.mm with stack := t.mm.stack } ∧ (∀ j, j ≠ k.n → t.stk j = s.stk j) ∧
      k.answered s (pieces 16 (max 1 d.length) d) 0 t ∧ (k.ecc = [] → k.used s t) ∧
      raisedOnly (k.lateCards ++ correctedCards k.n k.port k.ecc (wordsIn k.x k.size)) s t := by
  intro o
  obtain ⟨v, hread, hclean, hsame⟩ := foldl_readStep_clean (port := k.port) (l := wordsIn k.x k.size) false []
    ((h.injFor ..).trans hinj) fun w hw => (h.readable w).trans (hok w hw)
  have ho : o = (false, [], v) := (dramRead_eq ..).trans hread
  rw [ho]
  intro t d
  have ht : t = k.finish s 0 d v := by
    have hmem : v.mm.mem = z.mm.mem := by rw [hclean.mm]
    change k.finish s 0 (flippedBytes k.addr [] (v.bytesAt k.addr k.size)) v = _
    rw [flippedBytes_nil, h.bytesAt hmem]
  have hmm := hclean.mm
  rw [h.mm] at hmm
  rw [ht]
  refine ⟨((h.frame.weaken (by decide)).step hclean.frame (by decide)).step finish_frame (by decide), ?_,
    fun j hj => (finish_other hj).trans ((hclean.other j hj).trans (h.other j hj)), ?_, fun he => h.used hq ?_, ?_⟩
  · rw [finish_mm, hmm]
  · have hanswer := finish_answered (resp := 0) (d := d) ((h.at_.weaken (by decide)).step hclean.frame (by decide))
    rwa [hwr] at hanswer
  · rw [hsame fun w _ => by rw [he]; rfl]
  · exact raisedOnly_append h.cards (by unfold raisedOnly; rw [finish_so]; exact hclean.cards)

/-- A read that meets a word which cannot be read answers with an error. -/
theorem Ready.read_bad (h : k.Ready s z) (hwr : k.wr = none) (hbad : ∃ w ∈ wordsIn k.x k.size, s.readable k.n k.ecc w = false) :
    let o := dramRead k.n k.x k.size k.port k.ecc z
    let t := k.finish s (if o.1 = true then 2 else 0) (if o.1 = true then List.replicate k.size 0
      else flippedBytes k.addr o.2.1 (o.2.2.bytesAt k.addr k.size)) o.2.2
    Frame [.so, .mm, .ctrl, .tap, .fresh, .outbox] s t ∧ t.mm.mem = s.mm.mem ∧ t.mm.place = s.mm.place ∧
      (∀ j, j ≠ k.n → t.stk j = s.stk j) ∧
      k.answered s (pieces 16 (max 1 (List.replicate k.size (0 : Byte)).length) (List.replicate k.size 0)) 2 t := by
  intro o
  obtain ⟨w, hw, hwbad⟩ := hbad
  have ho : o = (wordsIn k.x k.size).foldl (readStep k.n k.port k.ecc) (false, [], z) := dramRead_eq ..
  have hfail : o.1 = true := by
    rw [ho]
    exact foldl_readStep_bad (.inr ⟨w, hw, (h.readable w).trans hwbad⟩)
  have hread : StackRead k.n z o.2.2 := by
    rw [ho]
    exact foldl_readStep_stackRead (r := (false, [], z))
  rw [if_pos hfail, if_pos hfail]
  intro t
  refine ⟨((h.frame.weaken (by decide)).step hread.frame (by decide)).step finish_frame (by decide), ?_, ?_,
    fun j hj => (finish_other hj).trans ((hread.other j hj).trans (h.other j hj)), ?_⟩
  · rw [finish_mm, hread.mem, h.mm]
  · rw [finish_mm, hread.place, h.mm]
  · have hanswer := finish_answered (resp := 2) (d := List.replicate k.size 0)
      ((h.at_.weaken (by decide)).step hread.frame (by decide))
    rwa [hwr] at hanswer

/-! ### Writes -/

/-- No injection is at work, and the words that the write fills in part are good. -/
def clean (k : Ask) (s : State) : Prop :=
  injFor (stackSrc k.n) 1 s = none ∧ ∀ w ∈ partWords k.x k.size, eccAt k.ecc w = .ok ∧ s.badWord (dramAddr k.n w) = false

section write
variable {data : List Byte} (hwr : k.wr = some data) (h : k.Ready s z)
include hwr h

/-- A write to the system area is refused to all but a Steward. -/
theorem Ready.write_refused (hq : (s.stk k.n).queue = []) (hm : ¬ k.m ≤ 1) (hsys : inSystem k.n k.x data.length = true) :
    let o := dramWrite k.n k.x k.port (decide (k.m ≤ 1)) data k.ecc z
    let t := k.finish s (if o.1 = true then 0 else 2) [] o.2
    Frame [.so, .mm, .ctrl, .tap, .outbox] s t ∧ t.mm = { s.mm with stack := t.mm.stack } ∧ k.used s t ∧
      (∀ j, j ≠ k.n → t.stk j = s.stk j) ∧ k.answered s [[]] 2 t ∧
      raisedOnly (k.lateCards ++ [(stackSrc k.n, 5, k.x / 8 * 8 + k.port * 2 ^ 36)]) s t := by
  intro o
  have ho : o = (false, raise (stackSrc k.n) 5 (k.x / 8 * 8 + k.port * 2 ^ 36) z) :=
    if_pos (by rw [decide_eq_false hm, hsys]; rfl)
  have hclean := raise_stackClean (n := k.n) (stackSrc k.n) 5 (k.x / 8 * 8 + k.port * 2 ^ 36) z
  rw [ho]
  intro t
  have hmm := hclean.mm
  rw [h.mm] at hmm
  refine ⟨((h.frame.weaken (by decide)).step hclean.frame (by decide)).step finish_frame (by decide), ?_, h.used hq ?_,
    fun j hj => (finish_other hj).trans ((hclean.other j hj).trans (h.other j hj)), ?_, ?_⟩
  · rw [finish_mm, hmm]
  · unfold State.stk
    rw [raise_mm]
  · have hanswer := finish_answered (resp := 2) (d := []) ((h.at_.weaken (by decide)).step hclean.frame (by decide))
    rwa [hwr] at hanswer
  · exact raisedOnly_append h.cards (by unfold raisedOnly; rw [finish_so]; exact hclean.cards)

/-- A write that may be made reads the words that it fills in part, and then reaches the memory's guard. -/
theorem Ready.write_made (hmay : k.m ≤ 1 ∨ ¬ inSystem k.n k.x data.length = true) : ∃ v, StackRead k.n z v ∧
    (k.clean s → v = z) ∧ (v.weightsBusy k.addr data.length ↔ s.weightsBusy k.addr data.length) ∧
    dramWrite k.n k.x k.port (decide (k.m ≤ 1)) data k.ecc z = (true, storeGuarded k.addr data v) := by
  have hsize : k.size = data.length := by
    unfold size
    rw [hwr]
    rfl
  refine ⟨mergeReads k.n k.x data.length k.port k.ecc z, mergeReads_stackRead .., fun hclean => ?_, ?_, if_neg fun hc => ?_⟩
  · obtain ⟨hinj, hwords⟩ := hclean
    have hbad : z.mm.bad = s.mm.bad := by rw [h.mm]
    refine mergeReads_clean ((h.injFor ..).trans hinj) fun w hw => ?_
    obtain ⟨he, hw⟩ := hwords w (by rwa [hsize])
    exact ⟨he, (State.badWord_congr hbad _).trans hw⟩
  · have hplace : (mergeReads k.n k.x data.length k.port k.ecc z).mm.place = s.mm.place := by
      rw [(mergeReads_stackRead ..).place, h.mm]
    exact State.weightsBusy_congr ((mergeReads_fab ..).trans (h.frame.get .fab)) ((mergeReads_dict ..).trans (h.frame.get .dict)) hplace ..
  · obtain ⟨hm, hsys⟩ := Bool.and_eq_true_iff.1 hc
    exact hmay.elim (fun hle => by simp [hle] at hm) (· hsys)

/-- The write has stored its bytes: u is v but for the memory's bytes and marks. -/
theorem Ready.answered_stored {u v : State} (hq : (s.stk k.n).queue = []) (hread : StackRead k.n z v) (hsame : k.clean s → v = z)
    (hframe : Frame [.mm] v u) (hso : u.so = v.so) (hplace : u.mm.place = v.mm.place) (hstack : u.mm.stack = v.mm.stack)
    (hstored : stored k.addr data v u) :
    let t := k.finish s 0 [] u
    Frame [.so, .mm, .ctrl, .tap, .fresh, .outbox] s t ∧ t.mm.place = s.mm.place ∧ (∀ j, j ≠ k.n → t.stk j = s.stk j) ∧
      k.answered s [[]] 0 t ∧ (k.clean s → stored k.addr data s t ∧ k.used s t ∧ raisedOnly k.lateCards s t) := by
  intro t
  have hstk (j : Nat) : u.stk j = v.stk j := congrArg (fun l : Tab Stack => l.get stackInit j) hstack
  refine ⟨(((h.frame.weaken (by decide)).step hread.frame (by decide)).step hframe (by decide)).step finish_frame (by decide), ?_,
    fun j hj => (finish_other hj).trans ((hstk j).trans ((hread.other j hj).trans (h.other j hj))), ?_,
    fun hclean => ⟨?_, h.used hq ?_, ?_⟩⟩
  · rw [finish_mm, hplace, hread.place, h.mm]
  · have hanswer := finish_answered (resp := 0) (d := []) (((h.at_.weaken (by decide)).step hread.frame (by decide)).step hframe
      (by decide))
    rwa [hwr] at hanswer
  · have hmem : v.mm.mem = s.mm.mem := by rw [hread.mem, h.mm]
    exact stored_congr (stored_of_mem hstored hmem) (by rw [finish_mm])
  · rw [hstk, hsame hclean]
  · rw [hsame hclean] at hso
    exact (finish_so.trans hso).trans h.cards

theorem Ready.write_free (hq : (s.stk k.n).queue = []) (hmay : k.m ≤ 1 ∨ ¬ inSystem k.n k.x data.length = true)
    (hfree : ¬ s.weightsBusy k.addr data.length) :
    let o := dramWrite k.n k.x k.port (decide (k.m ≤ 1)) data k.ecc z
    let t := k.finish s (if o.1 = true then 0 else 2) [] o.2
    Frame [.so, .mm, .ctrl, .tap, .fresh, .outbox] s t ∧ t.mm.place = s.mm.place ∧ (∀ j, j ≠ k.n → t.stk j = s.stk j) ∧
      k.answered s [[]] 0 t ∧ (k.clean s → stored k.addr data s t ∧ k.used s t ∧ raisedOnly k.lateCards s t) := by
  obtain ⟨v, hread, hsame, hiff, hmade⟩ := h.write_made hwr hmay
  intro o
  have hdone : o.1 = true := congrArg Prod.fst hmade
  have hstore : o.2 = storeBytes k.addr data v :=
    (congrArg Prod.snd hmade).trans (storeGuarded_free fun hb => hfree (hiff.1 hb))
  rw [if_pos hdone, hstore]
  exact h.answered_stored hwr hq hread hsame (storeBytes_frame ..) (storeBytes_so ..) (storeBytes_place ..)
    (by rw [storeBytes_mm, putBytes_mm]) (stored_storeBytes ..)

theorem Ready.write_busy (hq : (s.stk k.n).queue = []) (hmay : k.m ≤ 1 ∨ ¬ inSystem k.n k.x data.length = true)
    (hbusy : s.weightsBusy k.addr data.length) :
    let o := dramWrite k.n k.x k.port (decide (k.m ≤ 1)) data k.ecc z
    let t := k.finish s (if o.1 = true then 0 else 2) [] o.2
    Frame [.so, .fab, .mm, .ctrl, .tap, .fresh, .outbox] s t ∧ (∀ j, j ≠ k.n → t.stk j = s.stk j) ∧ k.answered s [[]] 0 t ∧
      t.mm.place = s.mm.place ∧ t.fab = { s.fab with w := { s.fab.w with refused := satAdd 32 s.fab.w.refused 1 } } ∧
      (k.clean s → t.mm = { s.mm with stack := t.mm.stack } ∧ k.used s t) := by
  obtain ⟨v, hread, hsame, hiff, hmade⟩ := h.write_made hwr hmay
  intro o
  have ho : o = (true, weightRefused v) := by
    rw [← storeGuarded_busy (hiff.2 hbusy)]
    exact hmade
  rw [ho]
  intro t
  have hstk (j : Nat) : (weightRefused v).stk j = v.stk j := by
    unfold State.stk
    rw [weightRefused_mm]
  refine ⟨((((h.frame.weaken (by decide)).step hread.frame (by decide)).step (weightRefused_frame ..) (by decide)).step finish_frame
    (by decide)), fun j hj => (finish_other hj).trans ((hstk j).trans ((hread.other j hj).trans (h.other j hj))), ?_, ?_, ?_,
    fun hclean => ⟨?_, h.used hq ?_⟩⟩
  · have hanswer := finish_answered (resp := 0) (d := []) (((h.at_.weaken (by decide)).step hread.frame (by decide)).step
      (weightRefused_frame ..) (by decide))
    rwa [hwr] at hanswer
  · rw [finish_mm, weightRefused_mm, hread.place, h.mm]
  · have hfab : v.fab = s.fab := (hread.frame.get .fab).trans (h.frame.get .fab)
    refine finish_fab.trans ((raiseLim_fab ..).trans ?_)
    rw [← hfab]
    rfl
  · rw [finish_mm, weightRefused_mm, hsame hclean, h.mm]
  · rw [hstk, hsame hclean]

end write

end Ask

/-! ### Issue -/

namespace Ask

variable {k : Ask}

theorem arrived_reached : arrived k.n (k.req s) (k.reached s) =
    (k.reached s).setStk k.n { s.stk k.n with queue := (s.stk k.n).queue ++ [k.req s] } := by
  unfold arrived
  rw [reached_stk]

theorem op_refused (hbus : k.bus) (hmay : s.mayRequest k.m = false) : k.op s = debugTap k.m s :=
  (if_pos hbus).trans (if_neg (ne_of_eq_of_ne hmay (by decide)))

theorem op_down (hn : k.n < 4) (hx : k.x < stackSize) (htakes : k.takes s)
    (hdown : ¬ ((s.stk k.n).st = .ready ∨ (s.stk k.n).st = .running)) :
    k.op s = reqReply (k.req s) 2 (if k.wr.isSome = true then [] else List.replicate k.size 0) (k.reached s) := by
  rw [op_takes hn hx htakes]
  exact if_neg (by rwa [reached_stk])

/-- Without its tokens the request waits, counted, and is still in the matrix. -/
theorem op_queued (hn : k.n < 4) (hx : k.x < stackSize) (htakes : k.takes s) (hup : (s.stk k.n).st = .ready ∨ (s.stk k.n).st = .running)
    (hq : (s.stk k.n).queue = []) (hpays : (s.stk k.n).pays (k.req s) s.now = false) :
    Frame [.mm, .ctrl, .tap] s (k.op s) ∧ (k.op s).mm = { s.mm with stack := (k.op s).mm.stack } ∧
      k.ctrlWith s [k.inMatrix .dram s] (k.op s) ∧ (k.op s).stk k.n =
        { s.stk k.n with queue := [{ k.req s with counted := true }], waits := satAdd 64 (s.stk k.n).waits 1 } ∧
      ∀ j, j ≠ k.n → (k.op s).stk j = s.stk j := by
  rw [op_waits hn hx htakes hup hq hpays, arrived_reached]
  refine ⟨((reached_frame.weaken (by decide)).step (State.setStk_frame ..) (by decide)).step (State.setStk_frame ..) (by decide),
    ?_, reached_ctrl, (State.stk_setStk ..).trans (if_pos rfl), fun j hj => ?_⟩
  · rw [← reached_mm (k := k) (s := s)]
    rfl
  · rw [State.stk_setStk, if_neg hj, State.stk_setStk, if_neg hj, reached_stk]

end Ask

/-- Settles O38: the matrix passes the request on (`Ask.op_takes`) or stops it (`Ask.op_dead`); alone at its stack it waits
(`Ask.op_queued`) or is served (`Ask.op_serves`), and what it reads or writes is one case of `Ask.Ready`. -/
theorem dramRequestsIssueOnTokens : Obligations.DramRequestsIssueOnTokens := by
  unfold Obligations.DramRequestsIssueOnTokens
  intro n p q x late ecc s v m a up bus P takes req sent ctrlWith zeros beats answered bytes lateCard used others
  let ask (len : Nat) (wr : Option (List Byte)) : Ask := ⟨n, p, m, q.id.toNat, x, len, wr, late, ecc⟩
  refine ⟨fun len wr => ?issue, fun l r => ⟨mem_mayIssue v s.now r [] l, firstReq_spec⟩, fun len htakes hup hq hpays => ?read,
    fun len data htakes hup hq hpays => ?write⟩
  case issue =>
    intro size r c
    have hsize : size = (ask len wr).size := by cases wr <;> rfl
    have hreq : r = (ask len wr).req s := by cases wr <;> rfl
    have hsent : sent (ask len wr).size wr = (ask len wr).inMatrix .dram s := by cases wr <;> rfl
    have hop {t : State} (ht : (ask len wr).op s = t) : exec c s = .next t := congrArg Host.Outcome.next ht
    rw [hsize, hreq, hsent]
    refine ⟨fun hbus hmay => hop (Ask.op_refused hbus hmay), fun hbus hmay hreqs hrouted => ⟨_, hop rfl, ?dead⟩,
      fun htakes hdown => ⟨_, hop (Ask.op_down n.isLt x.isLt htakes hdown), ?down⟩,
      fun htakes hup => ⟨(ask len wr).reached s, Ask.reached_frame, Ask.reached_ctrl (k := ask len wr), ?up⟩,
      fun htakes hup hq hpays => ⟨_, hop rfl, Ask.op_queued n.isLt x.isLt htakes hup hq hpays⟩⟩
    case dead => exact Ask.op_dead hbus hmay hreqs hrouted
    case down =>
      refine ⟨(Ask.reached_frame.weaken (by decide)).step (reqReply_frame ..) (by decide), ?_⟩
      have hanswer := Ask.reply_answered (k := ask len wr) (s := s) (resp := 2)
        (d := if wr.isSome = true then [] else List.replicate (ask len wr).size 0) (Frame.refl ..)
      cases wr <;> exact hanswer
    case up => exact hop ((Ask.op_up (k := ask len wr) n.isLt x.isLt htakes hup).trans (congrArg _ Ask.arrived_reached))
  case read =>
    obtain ⟨z, hz, hread, -⟩ := Ask.op_serves (k := ask len none) n.isLt x.isLt htakes hup hq hpays
    exact ⟨fun hinj hok => ⟨_, congrArg Host.Outcome.next (hread rfl), hz.read_clean rfl hq hinj hok⟩,
      fun hbad => ⟨_, congrArg Host.Outcome.next (hread rfl), hz.read_bad rfl hbad⟩⟩
  case write =>
    obtain ⟨z, hz, -, hwrite⟩ := Ask.op_serves (k := ask len (some data)) n.isLt x.isLt htakes hup hq hpays
    have hop (t : State) (ht : (ask len (some data)).op s = t) : exec (.dramRequestIssue n p q x len (some data) late ecc) s = .next t :=
      congrArg Host.Outcome.next ht
    exact ⟨fun hm hsys => ⟨_, hop _ (hwrite _ rfl), hz.write_refused rfl hq hm hsys⟩,
      fun hmay hfree => ⟨_, hop _ (hwrite _ rfl), hz.write_free rfl hq hmay hfree⟩,
      fun hmay hbusy => ⟨_, hop _ (hwrite _ rfl), hz.write_busy rfl hq hmay hbusy⟩⟩

end Sys2Proof.Machine
end
